-- ==== Sys2Proof/Word.lean ====
section
/-! DEFINITION. The word types, and sparse maps: lists of (key, value) pairs in one canonical form, keys strictly
rising and no entry equal to the default. Memory and every large array of units are held this way. -/
namespace Sys2Proof

abbrev Byte := BitVec 8
abbrev Word := BitVec 64
/-- One 64-byte granule, byte 0 in bits 7:0 (00 R2). -/
abbrev Granule := BitVec 512

/-- A sparse array: unlisted keys hold the default that the reader names. -/
abbrev SMap (α : Type) := List (Nat × α)

/-- The value at key `k`, `d` where the list names none. -/
def SMap.get {α : Type} (d : α) : List (Nat × α) → Nat → α
  | [], _ => d
  | (k', v) :: t, k => if k = k' then v else if k < k' then d else SMap.get d t k

/-- Write `v` at `k`, keeping keys rising and dropping an entry equal to the default. -/
def SMap.set {α : Type} [DecidableEq α] (d : α) : List (Nat × α) → Nat → α → List (Nat × α)
  | [], k, v => if v = d then [] else [(k, v)]
  | (k', v') :: t, k, v =>
    if k < k' then (if v = d then (k', v') :: t else (k, v) :: (k', v') :: t)
    else if k = k' then (if v = d then t else (k, v) :: t)
    else (k', v') :: SMap.set d t k v

/-- Every key of the list is above `lo`, keys rise, and no value is the default. -/
def SMap.wfAbove {α : Type} [DecidableEq α] (d : α) : Nat → List (Nat × α) → Bool
  | _, [] => true
  | lo, (k, v) :: t => decide (lo ≤ k) && decide (v ≠ d) && SMap.wfAbove d (k + 1) t

/-- The canonical form. -/
def SMap.wf {α : Type} [DecidableEq α] (d : α) (m : List (Nat × α)) : Bool := SMap.wfAbove d 0 m

/-- Drop every entry whose key lies in `lo ≤ k < hi`: the range reads as the default afterwards. -/
def SMap.dropRange {α : Type} (m : List (Nat × α)) (lo hi : Nat) : List (Nat × α) :=
  m.filter fun e => decide (e.1 < lo ∨ hi ≤ e.1)

/-- The byte `i` of a wide value. -/
def byteOf {n : Nat} (x : BitVec n) (i : Nat) : Byte := x.extractLsb' (8 * i) 8

/-- The doubleword `i` of a granule. -/
def Granule.word (g : Granule) (i : Nat) : Word := g.extractLsb' (64 * i) 64

/-- Replace doubleword `i` of a granule. -/
def Granule.setWord (g : Granule) (i : Nat) (w : Word) : Granule :=
  (g &&& ~~~((BitVec.ofNat 512 (2 ^ 64 - 1)) <<< (64 * i))) ||| ((w.setWidth 512) <<< (64 * i))

/-- Widen a byte mask to a bit mask: byte `i` is all ones when mask bit `i` is 1. -/
def byteMask : Nat → BitVec 64 → Granule
  | 0, _ => 0
  | k + 1, m =>
    byteMask k m ||| (if m.getLsbD k then (BitVec.ofNat 512 255) <<< (8 * k) else 0)

/-- Take the bytes of `new` under the byte mask `m` and keep the rest of `old`. -/
def mergeBytes (old new : Granule) (m : BitVec 64) : Granule :=
  let bm := byteMask 64 m
  (old &&& ~~~bm) ||| (new &&& bm)

/-- The mask of `w` bytes starting at byte offset `o` of a granule. -/
def spanMask (o w : Nat) : BitVec 64 := (BitVec.ofNat 64 (2 ^ w - 1)) <<< o

/-- Number of one bits. -/
def popCount {n : Nat} (x : BitVec n) : Nat := ((List.range n).filter fun i => x.getLsbD i).length

end Sys2Proof
end

