-- ==== Sys2Proof/Syntax.lean ====
section
/-! DEFINITION. The syntax of the machine: one constructor of `Instr` per row of spec/opcode_table.json. The first 241
are instructions with an encoding (07_encoding.md); the rest are the steps that the device's other agents take
(95_what_each_step_holds.md), which carry their arguments and have no words. -/
namespace Sys2Proof

/-- A predicate field: bit 3 negates, bits 2:0 select p0–p7 (07 Table 7-2). -/
abbrev Pred := BitVec 4
/-- The lookahead `n` (07 R104). -/
abbrev La := BitVec 4
/-- A general register g0–g31. -/
abbrev G := BitVec 5
/-- A vector register v0–v15. -/
abbrev V := BitVec 4
/-- A predicate register p0–p7. -/
abbrev P := BitVec 3
/-- A granule pair: `k` names v2k and v2k+1 (07 R100). -/
abbrev Pair := BitVec 3
/-- A scope code (07 Table 7-8). -/
abbrev Scope := BitVec 3
/-- An order code: 0 none, 1 .acq, 2 .rel, 3 .ar (07 Table 7-8). -/
abbrev Order := BitVec 2
/-- A core coordinate: x in bits 7:0, y in bits 15:8. -/
abbrev CoreId := BitVec 16
/-- A context number. -/
abbrev CtxId := BitVec 4
/-- An agent of the coherence protocol: one supergroup's plain-line cache (23 R343). -/
abbrev AgentId := BitVec 8

/-- The condition codes of 11 Table 11-2. -/
inductive Cond where
  | eq | ne | lt | ge | ltu | geu | le | gt | leu | gtu
deriving DecidableEq, Repr

/-- The conditions of VCMP: Table 11-2 and .UN (13 R197). -/
inductive VCond where
  | eq | ne | lt | ge | ltu | geu | le | gt | leu | gtu | un
deriving DecidableEq, Repr

/-- The width of a scalar comparison: X.type 0x00 or .s32 (11 R152). -/
inductive CmpW where
  | x64 | s32
deriving DecidableEq, Repr

/-- The width of ALU and DIV: X.type 0x00, .s32 or .z32 (11 R154). -/
inductive IntW where
  | x64 | s32 | z32
deriving DecidableEq, Repr

/-- The combine mode of CMP (11 R163). -/
inductive Combine where
  | none | and | or
deriving DecidableEq, Repr

/-- Load sizes (11 Table 11-13). -/
inductive Sz where
  | b | h | w | d | bs | hs | ws
deriving DecidableEq, Repr

/-- Store sizes (11 Table 11-13, codes 0–3). -/
inductive StSz where
  | b | h | w | d
deriving DecidableEq, Repr

/-- POST sizes: the store sizes and .g (11 R182). -/
inductive PostSz where
  | b | h | w | d | g
deriving DecidableEq, Repr

/-- The type codes of 07 Table 7-7 other than 0x00. -/
inductive Ty where
  | s8 | s16 | s32 | s64 | z8 | z16 | z32 | z64
  | f32 | f16 | bf16 | e4m3 | e5m2 | e3m2 | e2m3 | e2m1 | s4 | t2
deriving DecidableEq, Repr

/-- The queue, barrier and Bar suffixes of a copy instruction (13 R223). -/
structure CopyOpt where
  bar : Bool
  barrier : BitVec 2
  queue : BitVec 2
deriving DecidableEq, Repr

/-! ## What the events carry -/

/-- A ready-queue, ring, deque or wake entry (03 R51, R389): the continuation's address, priority, pinned bit, ASID and
enqueue cycle. -/
structure RqEnt where
  addr : Word
  prio : BitVec 2
  pinned : Bool
  asid : BitVec 16
  enq : Nat
deriving DecidableEq, Repr

/-- Who makes an access, waits on a block or on a fault (21 Table 21-4 and 05 Table 5-7). -/
inductive Agent where
  /-- An access of a thread's outstanding operation. -/
  | lsu (core : CoreId) (op acc : Nat)
  /-- An access that a parked instruction, a suspension or a save makes for its context. -/
  | park (core : CoreId) (ctx : CtxId)
  | fetch (core : CoreId) (ctx : CtxId)
  | copy (core : CoreId) (seq : Nat)
  | task (sg : BitVec 8) (ticket : Word)
  /-- A request that the home hub holds (21 R338). -/
  | home (id : Nat)
  /-- The reads of dispatch, restore and TSTART for the context (03 R38). -/
  | disp (core : CoreId) (ctx : CtxId)
  /-- A quadrant service core's job: a launch's checks or writes, or an aperture access. -/
  | serv (job : Nat)
  /-- A block of a CLR or CLRN run (11 R178). -/
  | clr (core : CoreId) (id : Nat)
  /-- A remote token (05 Table 5-7). -/
  | token (pkg : BitVec 5) (tok : BitVec 32) (port : BitVec 11)
deriving DecidableEq, Repr

/-- The state an agent holds a line in (23 R343). -/
inductive Granted where
  | i | s | e | o | m
deriving DecidableEq, Repr

/-- What comes back to an outstanding operation's access `acc`. -/
inductive Reply where
  /-- The operation's latency has run: a division, or the next try of an access that was waiting. -/
  | advance (acc : Nat)
  /-- Data of the granule. -/
  | data (acc : Nat) (g : Granule)
  /-- A write is acknowledged. -/
  | ack (acc : Nat)
  /-- The block is not full and nothing was placed (13 R209). -/
  | notFull (acc : Nat)
  /-- A descriptor was placed on the block's waiting list. -/
  | placed (acc : Nat)
  /-- The waiting list was full (05 R77). -/
  | refused (acc : Nat)
  /-- A tag, whether the granule is written, and the granule. -/
  | tag (acc : Nat) (t : BitVec 16) (written : Bool) (g : Granule)
  /-- The key of a block's first byte at its home, and its exponent (03 R46). -/
  | block (acc blk n : Nat)
  /-- The old value of an atomic. -/
  | old (acc : Nat) (x : BitVec 128)
  /-- A completion trap. -/
  | trap (acc : Nat) (cause : Nat)
  /-- Data that fails its check (05 R88). -/
  | bad (acc : Nat)
  /-- The fault was abandoned (15 R268): its handle and word 0 of its record, where the home is another package's. -/
  | abandoned (acc : Nat) (handle word0 : Word := 0)
  /-- A run of clears has ended at the home of another package: the number of blocks refused, the first of them, and the
  violation that stopped it (11 R179, R180). -/
  | cleared (acc refused : Nat) (first : Word) (viol : Option (Nat × Word))
  /-- The home's fault queue is full: the request is to be sent again (21 R338). -/
  | retry (acc : Nat)
  /-- A posted operation is refused, by the code of 21 Table 21-13 (11 R188). -/
  | refusal (acc code : Nat)
  /-- A copy of a line of another package, with the home's frame line, whether it is dirty, and Err (23 R345). -/
  | line (acc frame : Nat) (excl dirty err : Bool) (g : Granule)
deriving DecidableEq, Repr

/-- What a trap record reports (21 Table 21-3), and `order`, its place in program order or of arrival. -/
structure Trap where
  kind : Nat
  cause : Nat
  pc : Word
  len : Nat := 0
  addr : Word := 0
  off : Nat := 0
  detail : Nat := 0
  count : Nat := 0
  source : Nat := 0
  w4 : Word := 0
  w5 : Word := 0
  order : Nat := 0
deriving DecidableEq, Repr

/-- A message granule for a core's mailbox (15 Table 15-4). -/
structure Msg where
  dst : CoreId
  pkg : BitVec 5
  kind : BitVec 4
  src : CoreId
  ctx : CtxId
  asid : BitVec 16
  first : Bool
  last : Bool
  data : Granule
deriving DecidableEq, Repr

/-- The parts of a supervisor notice (21 Tables 21-11, 21-12). -/
structure Notice where
  code : Nat
  cause : Nat := 0
  undelivered : Nat := 0
  addr : Word := 0
  who : Word := 0
  w3 : Word := 0
  w4 : Word := 0
  w5 : Word := 0
  w6 : Word := 0
deriving DecidableEq, Repr

/-- The parts of a fault record (21 Table 21-6). -/
structure FaultInfo where
  /-- 0–7 the die's table, 8 the home fault queue. -/
  table : Nat
  level : Nat
  access : Nat
  agent : Nat
  kind : Nat
  addr : Word
  core : CoreId
  ctx : CtxId
  priv : BitVec 2
  pkg : BitVec 5
  asid : BitVec 16
  e0 : Word := 0
  e1 : Word := 0
  w5 : Word := 0
  w6 : Word := 0
deriving DecidableEq, Repr

/-- What a request to a home asks (11 R185, R187; 21 R338). -/
inductive HomeOp where
  | read
  /-- A read that places no waiter: a granule of a vector load (13 R209). -/
  | peek
  /-- The block that the address names: a check of a launch's block (03 R46). -/
  | locate
  /-- The tag and the written bit (11 R175). -/
  | ldq
  /-- The tag and, of a full block, the data (11 R176). -/
  | ldtry
  /-- The tag once the block is full (11 R177), and the one wait of a vector load (13 R209). -/
  | bwait
  | write (mask : BitVec 64) (data : Granule)
  /-- A CLR, or a CLRN of `count` blocks (11 R178). -/
  | clear (count : Nat)
  /-- An atomic of `w` bytes: `f` as 11 Table 11-17, or 7 for a compare-and-swap with the expected value `x`. -/
  | rmw (f : Nat) (w : Nat) (ty : Ty) (b x : BitVec 128)
deriving DecidableEq, Repr

/-- A request that reaches a home hub: a far atomic or posted operation of this package, or any request of another. -/
structure RemReq where
  id : BitVec 40
  asid : BitVec 16
  priv : BitVec 2
  core : CoreId
  ctx : CtxId
  addr : Word
  op : HomeOp
  posted : Bool
  launch : BitVec 32
  /-- The local agent that waits for the reply, none for another package's request or a posted operation. -/
  who : Option Agent
  /-- A request for a copy of the line, by the agent and incarnation that will hold it, and whether exclusive (23 R345). -/
  coh : Option (BitVec 8 × BitVec 8 × Bool) := none
  /-- Its target must be PLAIN (03 R36, R38; 25 R371); its fault is answered with its kind and not held (25 R371). -/
  plain : Bool := false
  faultless : Bool := false
  /-- Its target must be a block (15 R245). -/
  block : Bool := false
deriving DecidableEq, Repr

/-- A coherence request of an agent for a line (23 R346). -/
structure CohReq where
  line : Nat
  agent : AgentId
  inc : BitVec 8
  /-- The request id that the first request of a die of another package carries. -/
  id : Option (BitVec 40) := none
deriving DecidableEq, Repr

/-- A Milhan flit (23 Table 23-6). -/
structure Flit where
  payload : List Byte
  crc : BitVec 16
  cls : BitVec 2
  seq : BitVec 6
  creditCls : BitVec 2
  credits : BitVec 6
deriving DecidableEq, Repr

/-- A domain launch's reserve message (23 R363). -/
structure Reserve where
  launch : BitVec 32
  coord : BitVec 5
  record : List Byte
  pkgs : List (BitVec 5)
deriving DecidableEq, Repr

/-- A BAR0 register, named by its offset (25 Table 25-1). -/
abbrev RegName := Nat

/-- A router's ports (01 R16). -/
inductive Port where
  | north | east | south | west | local
deriving DecidableEq, Repr

/-- The steps of the device's other agents and of the outside world, with what each acts on. -/
inductive Event where
  | illegalEncoding (core : CoreId) (ctx : CtxId) (reason : Nat)
  | emulationRequest (core : CoreId) (ctx : CtxId) (reason : Nat)
  | fetchBlockFill (core : CoreId) (ctx : CtxId) (key : Nat)
  | longLatencyComplete (core : CoreId) (op : Nat) (reply : Reply)
  | bankAccess (home : Nat) (bank : Nat)
  | suspension (core : CoreId) (ctx : CtxId) (op : Nat)
  | waiterRetry (who : Agent)
  | blockReadAtHome (who : Agent) (blk : Nat)
  | blockWriteGranule (who : Agent) (blk : Nat)
  | blockFillRelease (blk : Nat) (n : Nat) (who : Agent)
  | drainDescriptor (blk : Nat) (n : Nat)
  | clrAtHome (who : Agent) (idx : Nat)
  | watchIncrement (who : Agent) (idx : Nat)
  | deferredTrapReport (core : CoreId) (ctx : CtxId) (tid : Nat) (trap : Trap)
  | trapDelivery (core : CoreId) (ctx : CtxId)
  | dispatch (core : CoreId) (ctx : CtxId)
  | steal (core : CoreId) (ctx : CtxId) (probe : Nat)
  | dispatchRetry (core : CoreId) (ctx : CtxId)
  | ringRefill (core : CoreId)
  | groupLoadRefresh (grp : BitVec 16)
  | pushBalance (core : CoreId)
  | wakeMessage (core : CoreId) (ent : RqEnt)
  | resumeContinuation (core : CoreId) (ctx : CtxId)
  | launchTableFill (die : BitVec 3) (launch : BitVec 32)
  | launchAccept (job : Nat)
  | gangPlace (launch : BitVec 32) (die : BitVec 3)
  | gangOffer (core : CoreId) (ctx : CtxId)
  | triggerWrite (launch : BitVec 32)
  | completionWrite (launch : BitVec 32)
  | postedAck (id : Nat) (refusal : Nat)
  | preemptTakeEffect (core : CoreId) (ctx : CtxId)
  | saveWrite (core : CoreId) (ctx : CtxId)
  | restore (core : CoreId) (ctx : CtxId)
  | haltTakeEffect (core : CoreId) (ctx : CtxId)
  | holdtTimeout (core : CoreId) (ctx : CtxId) (issued : Nat)
  | deadlockDeclare (part : BitVec 2)
  | timerFire (core : CoreId)
  | sleepDeadline (core : CoreId) (ctx : CtxId) (tid : Nat)
  | waitlWake (core : CoreId) (ctx : CtxId) (tid : Nat)
  | waitlPoll (core : CoreId) (ctx : CtxId) (tid : Nat)
  | barrierResume (launch : BitVec 32) (gang : BitVec 32) (k : BitVec 2)
  | mailboxArrival (msg : Msg)
  | gangStartRecord (core : CoreId) (rec : Granule)
  | supervisorNotice (die : BitVec 3) (note : Notice)
  | copyAdmit (core : CoreId) (ctx : CtxId)
  | copyBeat (core : CoreId)
  | copyCommandComplete (core : CoreId) (seq : Nat)
  | copyCommandEnd (core : CoreId) (seq : Nat) (cause : Nat) (detail : Nat)
  | taskAccept (sg : BitVec 8) (ticket : Word)
  | taskPresenceCheck (sg : BitVec 8) (ticket : Word)
  | taskIssue (sg : BitVec 8)
  | configurationChange (sg : BitVec 8) (ticket : Word)
  | taskKstep (sg : BitVec 8) (ticket : Word)
  | taskDWrite (sg : BitVec 8) (ticket : Word)
  | taskComplete (sg : BitVec 8) (ticket : Word)
  | taskEndError (sg : BitVec 8) (ticket : Word) (cause : Nat)
  | taskFault (sg : BitVec 8) (ticket : Word) (presence : Bool)
  | graftInvocation (sg : BitVec 8) (ticket : Word)
  | graftRestart (sg : BitVec 8) (ticket : Word)
  | graftCommit (sg : BitVec 8) (ticket : Word)
  | faultPost (who : Agent) (info : FaultInfo)
  | faultTableRetry (who : Agent)
  | faultReplay (table : Nat) (entry : Nat) (outcome : BitVec 2)
  | walk (grp : BitVec 16) (id : Nat)
  | remoteRequest (req : RemReq)
  | remoteRetry (id : Nat)
  | remoteTokenWake (token : BitVec 32)
  | farAtomic (who : Agent)
  | scrub (key : Nat)
  /-- A router fails with the messages it holds, which the agenda names by their places (01 R24). -/
  | routerFailure (sg : BitVec 8) (held : List Nat)
  | routingTableLoad (sg : BitVec 8) (dest : BitVec 8) (port : Port)
  | rds (req : CohReq)
  | rdx (req : CohReq)
  | upg (req : CohReq)
  | wbd (line : Nat) (agent : BitVec 8) (inc : BitVec 8) (data : Granule) (dirty : Bool)
  | inv (line : Nat) (die : BitVec 3) (rcl : Bool)
  | fwds (line : Nat) (die : BitVec 3) (requester : BitVec 8)
  | fwdx (line : Nat) (die : BitVec 3) (requester : BitVec 8) (rcl : Bool)
  | invack (line : Nat) (agent : BitVec 8) (inc : BitVec 8) (gone : Bool)
  | data (toHub : Bool) (line : Nat) (agent : BitVec 8) (inc : BitVec 8) (data : Granule) (dirty : Bool) (gone : Bool) (err : Bool)
  | datax (toHub : Bool) (line : Nat) (agent : BitVec 8) (inc : BitVec 8) (data : Granule) (dirty : Bool) (gone : Bool) (err : Bool)
  | cmpMsg (toHub : Bool) (line : Nat) (agent : BitVec 8) (inc : BitVec 8) (err : Bool)
  | memrdData (line : Nat) (data : Granule)
  | memwrAck (line : Nat)
  | snoopFilterEvict (die : BitVec 3) (line : Nat)
  | directoryRecall (line : Nat)
  | sliceFailure (slice : BitVec 3)
  | censusQuery (die : BitVec 3) (idx : BitVec 3) (home : BitVec 5)
  | censusReport (line : Nat) (agent : BitVec 8) (inc : BitVec 8) (granted : Granted)
  | censusEnd (idx : BitVec 3) (agent : BitVec 8) (inc : BitVec 8)
  | containment (pkg : BitVec 5) (die : Option (BitVec 3))
  | agentAnswerTimeout (line : Nat) (agent : BitVec 8) (sent : Nat)
  | containmentNotice (agents : List (BitVec 8))
  | agentRejoin (agent : BitVec 8) (whole : Bool)
  | flitReceive (link : BitVec 4) (flit : Flit)
  | linkNak (link : BitVec 4) (seq : BitVec 6)
  | linkDown (link : BitVec 4)
  | reserve (msg : Reserve)
  | rack (launch : BitVec 32) (pkg : BitVec 5)
  | rnak (launch : BitVec 32) (pkg : BitVec 5)
  | release (launch : BitVec 32)
  | go (launch : BitVec 32)
  | started (launch : BitVec 32) (pkg : BitVec 5)
  | startedTimeout (launch : BitVec 32)
  | halt (launch : BitVec 32) (coord : BitVec 5)
  | trigMessage (launch : BitVec 32) (pkg : BitVec 5)
  /-- With the first error cause of the package's members, 0 without one (11 R188). -/
  | done (launch : BitVec 32) (pkg : BitVec 5) (cause : Nat)
  | apertureRead (w : BitVec 2) (off : Word) (bytes : Nat) (tag : Nat) (job : Option Nat)
  | apertureWrite (w : BitVec 2) (off : Word) (data : List Byte) (job : Option Nat)
  | apertureFaultTimeout (job : Nat)
  | pcieUnsupported (tag : Nat)
  | qcreate (q : BitVec 6)
  | qdestroy (q : BitVec 6)
  | queueFetch (q : BitVec 6)
  | startRecord (core : CoreId) (pc : Word)
  | partitionControl (target : BitVec 4)
  | registerWrite (reg : RegName) (val : Word)
  | debugSelect (val : Word)
  | coldReset
  | partitionReset (quads : BitVec 4)
  | lifeCycleChange
  | wipeDone
  | firmwareVerify (image : List Byte)
  | recoveryLoad
  | attestationRequest (nonce : BitVec 256)
  | cxlDynamicCapacity (port : BitVec 4) (add : Bool) (base : Word) (len : Word)
  | powerLimit
  | powerLimitClear
  | overtemperature (die : BitVec 3)
  | channelHalfWidth (chan : BitVec 9)
  | snapIn
  | snapshotThreshold
  | snapshotLatch (part : BitVec 2)
  | machineCheck (src : Nat) (key : Nat) (who : Option Agent)
  | meshCreditReturn (core : CoreId)
  | probeEcho (core : CoreId) (ctx : CtxId) (tid : Nat)
  | evacAcknowledged (core : CoreId)
  | tlbiTakesEffect (core : CoreId) (ctx : CtxId)
  | emulationRoundTrip (core : CoreId) (ctx : CtxId)
  | graftTableAccessReturn (core : CoreId) (ctx : CtxId)
  | storeWipeDone (core : CoreId)
  | haltAnswer (launch : BitVec 32) (pkg : BitVec 5)
  | channelFullWidth (chan : BitVec 9)
  /-- An answer to an access of any agent, from a home of another package: it comes as LONG_LATENCY_COMPLETE. -/
  | agentReply (who : Agent) (reply : Reply)
  /-- Firmware sets a router to passive bypass, or to service (01 R21): it comes as ROUTING_TABLE_LOAD. -/
  | bypassSet (sg : BitVec 8) (on : Bool)
  /-- Firmware loads an entry of the hub's package route table (23 R361): it comes as ROUTING_TABLE_LOAD. -/
  | packageRouteLoad (pkg : BitVec 5) (link : BitVec 4)
  /-- The link of a CXL root port goes down, or comes up again (25 R373): it comes as LINK_DOWN. -/
  | cxlLink (port : BitVec 4) (up : Bool)
  /-- An access reaches the remote input of a store (01 R12): it comes as BANK_ACCESS. -/
  | storeArrival (who : Agent) (store : Nat) (bank : Nat) (pos : Nat)
  /-- A bank's answer enters the mesh at its router (01 R16): it comes as LONG_LATENCY_COMPLETE. -/
  | replySend (who : Agent) (src : BitVec 8) (reply : Reply)
  /-- A reply from another package reaches the hub (01 R17): it comes as LONG_LATENCY_COMPLETE. -/
  | hubReply (who : Agent) (reply : Reply)
  /-- An access of a copy, a task or a core's hardware to PLAIN memory reaches the hub (01 R17): it comes as REMOTE_REQUEST. -/
  | hubAccess (who : Agent)
  /-- A request for another package reaches the package switch (01 R17): it comes as REMOTE_REQUEST. -/
  | requestLeave (pkg : BitVec 5) (req : RemReq)
  /-- A miss or an upgrade of a plain-line cache reaches its bank of the die controller (23 R344): it comes as RDS. -/
  | lineMiss (line : Nat) (excl : Bool) (req : RemReq)
  /-- A directory slice reports an uncorrectable check error (23 R356): it comes as SLICE_FAILURE. -/
  | sliceError (slice : BitVec 3)
  /-- The answer of EMUR or EMUW reaches its issuer (15 R270): it comes as EMULATION_ROUND_TRIP. -/
  | emulationAnswer (core : CoreId) (ctx : CtxId) (value : Word)
deriving DecidableEq, Repr

/-- Every row of spec/opcode_table.json. An event's arguments stand in `Event`: the state names the event that is being
performed. -/
inductive Instr where
  | nop (p : Pred) (imm : BitVec 32)
  | bra (p : Pred) (off : BitVec 32)
  | jmp (p : Pred) (a : G)
  | call (p : Pred) (off : BitVec 32)
  | callr (p : Pred) (a : G)
  | ret (p : Pred) (a : G)
  | brc (p : Pred) (cc : Cond) (w : CmpW) (a : G) (b : G) (off : BitVec 32)
  | aluAdd (p : Pred) (w : IntW) (d : G) (a : G) (b : G)
  | aluSub (p : Pred) (w : IntW) (d : G) (a : G) (b : G)
  | aluAnd (p : Pred) (w : IntW) (d : G) (a : G) (b : G)
  | aluOr (p : Pred) (w : IntW) (d : G) (a : G) (b : G)
  | aluXor (p : Pred) (w : IntW) (d : G) (a : G) (b : G)
  | aluAndn (p : Pred) (w : IntW) (d : G) (a : G) (b : G)
  | aluOrn (p : Pred) (w : IntW) (d : G) (a : G) (b : G)
  | aluXnor (p : Pred) (w : IntW) (d : G) (a : G) (b : G)
  | aluMin (p : Pred) (w : IntW) (d : G) (a : G) (b : G)
  | aluMax (p : Pred) (w : IntW) (d : G) (a : G) (b : G)
  | aluMinu (p : Pred) (w : IntW) (d : G) (a : G) (b : G)
  | aluMaxu (p : Pred) (w : IntW) (d : G) (a : G) (b : G)
  | aluAdds (p : Pred) (w : IntW) (d : G) (a : G) (b : G)
  | aluSubs (p : Pred) (w : IntW) (d : G) (a : G) (b : G)
  | aluAddsu (p : Pred) (w : IntW) (d : G) (a : G) (b : G)
  | aluSubsu (p : Pred) (w : IntW) (d : G) (a : G) (b : G)
  | aluMov (p : Pred) (w : IntW) (d : G) (a : G)
  | aluNeg (p : Pred) (w : IntW) (d : G) (a : G)
  | aluNot (p : Pred) (w : IntW) (d : G) (a : G)
  | addi (p : Pred) (d : G) (a : G) (imm : BitVec 32)
  | andi (p : Pred) (d : G) (a : G) (imm : BitVec 32)
  | ori (p : Pred) (d : G) (a : G) (imm : BitVec 32)
  | xori (p : Pred) (d : G) (a : G) (imm : BitVec 32)
  | movi (p : Pred) (d : G) (imm : BitVec 32)
  | movhi (p : Pred) (d : G) (a : G) (imm : BitVec 32)
  | mulLo (p : Pred) (d : G) (a : G) (b : G)
  | mulHi (p : Pred) (d : G) (a : G) (b : G)
  | mulHiu (p : Pred) (d : G) (a : G) (b : G)
  | mulMad (p : Pred) (d : G) (a : G) (b : G) (c : G)
  | divS (p : Pred) (n : La) (w : IntW) (d : G) (a : G) (b : G)
  | divU (p : Pred) (n : La) (w : IntW) (d : G) (a : G) (b : G)
  | divRem (p : Pred) (n : La) (w : IntW) (d : G) (a : G) (b : G)
  | divRemu (p : Pred) (n : La) (w : IntW) (d : G) (a : G) (b : G)
  | bitsShl (p : Pred) (d : G) (a : G) (b : G)
  | bitsShr (p : Pred) (d : G) (a : G) (b : G)
  | bitsSar (p : Pred) (d : G) (a : G) (b : G)
  | bitsRol (p : Pred) (d : G) (a : G) (b : G)
  | bitsRor (p : Pred) (d : G) (a : G) (b : G)
  | bitsShli (p : Pred) (d : G) (a : G) (k : BitVec 6)
  | bitsShri (p : Pred) (d : G) (a : G) (k : BitVec 6)
  | bitsSari (p : Pred) (d : G) (a : G) (k : BitVec 6)
  | bitsRoli (p : Pred) (d : G) (a : G) (k : BitVec 6)
  | bitsRori (p : Pred) (d : G) (a : G) (k : BitVec 6)
  | bitsClz (p : Pred) (d : G) (a : G)
  | bitsCtz (p : Pred) (d : G) (a : G)
  | bitsPopc (p : Pred) (d : G) (a : G)
  | bitsBrev (p : Pred) (d : G) (a : G)
  | bitsBswap (p : Pred) (d : G) (a : G)
  | fieldExt (p : Pred) (d : G) (a : G) (b : G)
  | fieldExts (p : Pred) (d : G) (a : G) (b : G)
  | fieldIns (p : Pred) (d : G) (a : G) (b : G)
  | fieldMask (p : Pred) (d : G) (b : G)
  | movw (p : Pred) (d : G) (imm : Word)
  | sel (p : Pred) (d : G) (a : G) (b : G) (c : P)
  | lea (p : Pred) (d : G) (a : G) (b : G) (k : BitVec 3)
  | leaOff (p : Pred) (d : G) (a : G) (b : G) (k : BitVec 3)
  | cmp (p : Pred) (cc : Cond) (w : CmpW) (m : Combine) (d : P) (a : G) (b : G)
  | cmpi (p : Pred) (cc : Cond) (d : P) (a : G) (imm : BitVec 32)
  | plogAnd (p : Pred) (d : P) (a : P) (b : P)
  | plogOr (p : Pred) (d : P) (a : P) (b : P)
  | plogXor (p : Pred) (d : P) (a : P) (b : P)
  | plogAndn (p : Pred) (d : P) (a : P) (b : P)
  | plogOrn (p : Pred) (d : P) (a : P) (b : P)
  | plogNand (p : Pred) (d : P) (a : P) (b : P)
  | plogNor (p : Pred) (d : P) (a : P) (b : P)
  | plogXnor (p : Pred) (d : P) (a : P) (b : P)
  | plogNot (p : Pred) (d : P) (a : P)
  | pmovG2p (p : Pred) (d : P) (a : G)
  | pmovP2g (p : Pred) (d : G) (a : P)
  | pmovBc (p : Pred) (d : P) (a : G)
  | coordTile (p : Pred) (d : G) (a : G)
  | coordGroup (p : Pred) (d : G) (a : G)
  | coordSgrp (p : Pred) (d : G) (a : G)
  | coordDie (p : Pred) (d : G) (a : G)
  | coordPres (p : Pred) (d : G) (a : G)
  | coordHmap (p : Pred) (d : G) (a : G)
  | coordLocal (p : Pred) (d : G) (a : G)
  | mka (p : Pred) (lvl : BitVec 2) (rel : Bool) (d : G) (a : G) (b : G)
  | mkg (p : Pred) (d : G) (a : G) (b : G)
  | mkgOwn (p : Pred) (d : G) (b : G)
  | ld (p : Pred) (n : La) (sz : Sz) (d : G) (a : G) (disp : BitVec 32)
  | ldx (p : Pred) (n : La) (sz : Sz) (sc : Bool) (d : G) (a : G) (b : G)
  | st (p : Pred) (n : La) (sz : StSz) (d : G) (a : G) (disp : BitVec 32)
  | stx (p : Pred) (n : La) (sz : StSz) (sc : Bool) (d : G) (a : G) (b : G)
  | ldm (p : Pred) (n : La) (c : BitVec 3) (d : G) (a : G) (disp : BitVec 32)
  | stm (p : Pred) (n : La) (c : BitVec 3) (d : G) (a : G) (disp : BitVec 32)
  | ldq (p : Pred) (n : La) (d : G) (a : G) (disp : BitVec 32)
  | ldtry (p : Pred) (n : La) (sz : Sz) (d : G) (a : G) (disp : BitVec 32)
  | bwait (p : Pred) (n : La) (d : G) (a : G) (disp : BitVec 32)
  | clr (p : Pred) (a : G) (disp : BitVec 32)
  | clrn (p : Pred) (a : G) (b : G)
  | prefS (p : Pred) (a : G) (disp : BitVec 32)
  | prefX (p : Pred) (a : G) (disp : BitVec 32)
  | aopSwap (p : Pred) (n : La) (far : Bool) (ty : Ty) (scope : Scope) (order : Order) (d : G) (a : G) (b : G)
  | aopAdd (p : Pred) (n : La) (far : Bool) (ty : Ty) (scope : Scope) (order : Order) (d : G) (a : G) (b : G)
  | aopAnd (p : Pred) (n : La) (far : Bool) (ty : Ty) (scope : Scope) (order : Order) (d : G) (a : G) (b : G)
  | aopOr (p : Pred) (n : La) (far : Bool) (ty : Ty) (scope : Scope) (order : Order) (d : G) (a : G) (b : G)
  | aopXor (p : Pred) (n : La) (far : Bool) (ty : Ty) (scope : Scope) (order : Order) (d : G) (a : G) (b : G)
  | aopMin (p : Pred) (n : La) (far : Bool) (ty : Ty) (scope : Scope) (order : Order) (d : G) (a : G) (b : G)
  | aopMax (p : Pred) (n : La) (far : Bool) (ty : Ty) (scope : Scope) (order : Order) (d : G) (a : G) (b : G)
  | acas (p : Pred) (n : La) (far : Bool) (q : Bool) (ty : Ty) (scope : Scope) (order : Order) (d : G) (a : G) (b : G) (c : G)
  | redAdd (p : Pred) (n : La) (ty : Ty) (scope : Scope) (order : Order) (a : G) (b : G)
  | redAnd (p : Pred) (n : La) (ty : Ty) (scope : Scope) (order : Order) (a : G) (b : G)
  | redOr (p : Pred) (n : La) (ty : Ty) (scope : Scope) (order : Order) (a : G) (b : G)
  | redXor (p : Pred) (n : La) (ty : Ty) (scope : Scope) (order : Order) (a : G) (b : G)
  | redMin (p : Pred) (n : La) (ty : Ty) (scope : Scope) (order : Order) (a : G) (b : G)
  | redMax (p : Pred) (n : La) (ty : Ty) (scope : Scope) (order : Order) (a : G) (b : G)
  | post (p : Pred) (n : La) (sz : PostSz) (scope : Scope) (order : Order) (a : G) (b : BitVec 5)
  | vopAdd (p : Pred) (ty : Ty) (d : V) (a : V) (b : V)
  | vopSub (p : Pred) (ty : Ty) (d : V) (a : V) (b : V)
  | vopMul (p : Pred) (ty : Ty) (d : V) (a : V) (b : V)
  | vopMin (p : Pred) (ty : Ty) (d : V) (a : V) (b : V)
  | vopMax (p : Pred) (ty : Ty) (d : V) (a : V) (b : V)
  | vopAbs (p : Pred) (ty : Ty) (d : V) (a : V)
  | vopNeg (p : Pred) (ty : Ty) (d : V) (a : V)
  | vopAdds (p : Pred) (ty : Ty) (d : V) (a : V) (b : V)
  | vopSubs (p : Pred) (ty : Ty) (d : V) (a : V) (b : V)
  | vopAnd (p : Pred) (ty : Ty) (d : V) (a : V) (b : V)
  | vopOr (p : Pred) (ty : Ty) (d : V) (a : V) (b : V)
  | vopXor (p : Pred) (ty : Ty) (d : V) (a : V) (b : V)
  | vopAndn (p : Pred) (ty : Ty) (d : V) (a : V) (b : V)
  | vopShl (p : Pred) (ty : Ty) (d : V) (a : V) (b : V)
  | vopShr (p : Pred) (ty : Ty) (d : V) (a : V) (b : V)
  | vopSar (p : Pred) (ty : Ty) (d : V) (a : V) (b : V)
  | vopMulhi (p : Pred) (ty : Ty) (d : V) (a : V) (b : V)
  | vfma (p : Pred) (ty : Ty) (d : V) (a : V) (b : V) (c : V)
  | vfmaFms (p : Pred) (ty : Ty) (d : V) (a : V) (b : V) (c : V)
  | vfmaFnma (p : Pred) (ty : Ty) (d : V) (a : V) (b : V) (c : V)
  | vfmaFnms (p : Pred) (ty : Ty) (d : V) (a : V) (b : V) (c : V)
  | vdiv (p : Pred) (n : La) (ty : Ty) (d : V) (a : V) (b : V)
  | vsqrt (p : Pred) (n : La) (ty : Ty) (d : V) (a : V)
  | vcmp (p : Pred) (cc : VCond) (ty : Ty) (d : P) (a : V) (b : V)
  | vsel (p : Pred) (ty : Ty) (d : V) (a : V) (b : V) (c : P)
  | vcvt (p : Pred) (src : Ty) (j : BitVec 4) (dst : Ty) (d : V) (a : V) (c : G)
  | vredAdd (p : Pred) (ty : Ty) (d : G) (a : V)
  | vredMin (p : Pred) (ty : Ty) (d : G) (a : V)
  | vredMax (p : Pred) (ty : Ty) (d : G) (a : V)
  | vredAnd (p : Pred) (ty : Ty) (d : G) (a : V)
  | vredOr (p : Pred) (ty : Ty) (d : G) (a : V)
  | vredXor (p : Pred) (ty : Ty) (d : G) (a : V)
  | vperm (p : Pred) (ty : Ty) (d : V) (a : V) (b : V) (c : V)
  | vbcast (p : Pred) (ty : Ty) (d : V) (a : G)
  | vbcastLane (p : Pred) (ty : Ty) (d : V) (a : V) (idx : BitVec 5)
  | vins (p : Pred) (ty : Ty) (d : V) (a : G) (idx : BitVec 5)
  | vext (p : Pred) (ty : Ty) (d : G) (a : V) (idx : BitVec 5)
  | vdot (p : Pred) (ty : Ty) (d : V) (a : V) (b : V)
  | vmov (p : Pred) (ty : Ty) (d : V) (a : V)
  | vmovZero (p : Pred) (ty : Ty) (d : V)
  | vld (p : Pred) (n : La) (g : Bool) (d : V) (a : G) (disp : BitVec 32)
  | vst (p : Pred) (n : La) (g : Bool) (d : V) (a : G) (disp : BitVec 32)
  | vlds (p : Pred) (n : La) (ty : Ty) (d : V) (a : G) (b : G)
  | vsts (p : Pred) (n : La) (ty : Ty) (d : V) (a : G) (b : G)
  | vgath (p : Pred) (n : La) (ty : Ty) (sc : Bool) (d : V) (a : G) (b : V)
  | vscat (p : Pred) (n : La) (ty : Ty) (sc : Bool) (d : V) (a : G) (b : V)
  | vldb (p : Pred) (n : La) (d : V) (a : G) (disp : BitVec 32)
  | vstb (p : Pred) (n : La) (d : V) (a : G) (disp : BitVec 32)
  | copy (p : Pred) (o : CopyOpt) (a : G) (b : G) (c : G)
  | copys (p : Pred) (o : CopyOpt) (a : G) (b : G) (c : G) (e1 : G) (e2 : G) (e3 : G)
  | copygG (p : Pred) (o : CopyOpt) (a : G) (b : G) (c : G) (e1 : G)
  | copygS (p : Pred) (o : CopyOpt) (a : G) (b : G) (c : G) (e1 : G)
  | cbatchOpen (p : Pred)
  | cbatchClose (p : Pred)
  | cwait (p : Pred) (mask : BitVec 4)
  | cbinit (p : Pred) (k : BitVec 2) (count : BitVec 32)
  | cbwait (p : Pred) (k : BitVec 2)
  | cqf (p : Pred) (a : G)
  | cstat (p : Pred) (d : G)
  | cstatBar (p : Pred) (k : BitVec 2) (d : G)
  | tagl (p : Pred) (d : G) (a : G)
  | taglG (p : Pred) (d : G) (a : G) (b : G)
  | tags (p : Pred) (a : G) (b : G) (c : G)
  | tagi (p : Pred) (a : G)
  | tagiAll (p : Pred)
  | tagiBlk (p : Pred) (a : G)
  | mtask (p : Pred) (q : BitVec 3) (d : G) (a : G)
  | mtqry (p : Pred) (d : G) (a : G)
  | mtqryQ (p : Pred) (d : G)
  | mtcan (p : Pred) (d : G) (a : G)
  | lyrinit (p : Pred) (d : G) (a : G) (b : G)
  | lyrq (p : Pred) (d : G) (a : G) (b : G)
  | lyrqX (p : Pred) (d : G) (b : G)
  | lyrqW (p : Pred) (d : G) (b : G)
  | lyrref (p : Pred) (d : G) (a : G)
  | lyrdrop (p : Pred) (d : G) (a : G)
  | fence (p : Pred) (scope : Scope) (order : Order)
  | bar (p : Pred) (k : BitVec 2)
  | barComb (p : Pred) (k : BitVec 2) (a : G)
  | trig (p : Pred)
  | waitl (p : Pred) (host : Bool) (d : G) (a : G) (b : G)
  | waitlDl (p : Pred) (host : Bool) (d : G) (a : G) (b : G) (c : G)
  | sleep (p : Pred) (d : G) (a : G)
  | sleepM (p : Pred) (d : G) (a : G)
  | yield (p : Pred)
  | spawn (p : Pred) (pin : Bool) (a : G)
  | tpop (p : Pred) (d : G)
  | tstart (p : Pred) (d : G) (a : G) (b : G) (c : G)
  | treap (p : Pred) (d : G) (a : G)
  | texit (p : Pred)
  | rqpush (p : Pred) (a : G) (b : G)
  | rqpushCore (p : Pred) (a : G) (b : G) (c : G)
  | rqpop (p : Pred) (d : G)
  | rqpopP (p : Pred) (d : G) (a : G)
  | rqpopCnt (p : Pred) (d : G)
  | preempt (p : Pred) (d : G) (a : G) (b : G)
  | preemptQ (p : Pred) (d : G) (a : G)
  | evac (p : Pred) (d : G) (a : G) (b : G)
  | send (p : Pred) (st : Bool) (en : Bool) (a : G) (b : Pair)
  | recv (p : Pred) (d : Pair) (c : G)
  | recvT (p : Pred) (d : Pair) (c : G)
  | timer (p : Pred) (a : G)
  | timerRel (p : Pred) (a : G)
  | timerOff (p : Pred)
  | trap (p : Pred) (code : BitVec 32)
  | eret (p : Pred)
  | eretNext (p : Pred)
  | movsRead (p : Pred) (d : G) (sr : BitVec 7)
  | movsWrite (p : Pred) (sr : BitVec 7) (a : G)
  | movcRead (p : Pred) (d : G) (sr : BitVec 7)
  | movcWrite (p : Pred) (sr : BitVec 7) (a : G)
  | tlbiVa (p : Pred) (a : G) (b : G)
  | tlbiAsid (p : Pred) (b : G)
  | tlbiAll (p : Pred)
  | tlbsync (p : Pred)
  | fltrd (p : Pred) (d : G) (a : G) (b : G)
  | fltrpl (p : Pred) (a : G) (b : G)
  | emur (p : Pred) (d : G) (a : G) (b : G)
  | emuw (p : Pred) (a : G) (b : G) (c : G)
  | holdt (p : Pred) (d : G) (a : G)
  | resumet (p : Pred) (d : G) (a : G)
  | snap (p : Pred)
  | cntrd (p : Pred) (d : G) (a : G)
  | cntclr (p : Pred) (a : G)
  | waym (p : Pred) (d : G) (a : G)
  | sgway (p : Pred) (d : G) (a : G)
  | illegalEncoding
  | emulationRequest
  | fetchBlockFill
  | longLatencyComplete
  | bankAccess
  | suspension
  | waiterRetry
  | blockReadAtHome
  | blockWriteGranule
  | blockFillRelease
  | drainDescriptor
  | clrAtHome
  | watchIncrement
  | deferredTrapReport
  | trapDelivery
  | dispatch
  | steal
  | dispatchRetry
  | ringRefill
  | groupLoadRefresh
  | pushBalance
  | wakeMessage
  | resumeContinuation
  | launchTableFill
  | launchAccept
  | gangPlace
  | gangOffer
  | triggerWrite
  | completionWrite
  | postedAck
  | preemptTakeEffect
  | saveWrite
  | restore
  | haltTakeEffect
  | holdtTimeout
  | deadlockDeclare
  | timerFire
  | sleepDeadline
  | waitlWake
  | waitlPoll
  | barrierResume
  | mailboxArrival
  | gangStartRecord
  | supervisorNotice
  | copyAdmit
  | copyBeat
  | copyCommandComplete
  | copyCommandEnd
  | taskAccept
  | taskPresenceCheck
  | taskIssue
  | configurationChange
  | taskKstep
  | taskDWrite
  | taskComplete
  | taskEndError
  | taskFault
  | graftInvocation
  | graftRestart
  | graftCommit
  | faultPost
  | faultTableRetry
  | faultReplay
  | walk
  | remoteRequest
  | remoteRetry
  | remoteTokenWake
  | farAtomic
  | scrub
  | routerFailure
  | routingTableLoad
  | rds
  | rdx
  | upg
  | wbd
  | inv
  | fwds
  | fwdx
  | invack
  | data
  | datax
  | cmpMsg
  | memrdData
  | memwrAck
  | snoopFilterEvict
  | directoryRecall
  | sliceFailure
  | censusQuery
  | censusReport
  | censusEnd
  | containment
  | agentAnswerTimeout
  | containmentNotice
  | agentRejoin
  | flitReceive
  | linkNak
  | linkDown
  | reserve
  | rack
  | rnak
  | release
  | go
  | started
  | startedTimeout
  | halt
  | trigMessage
  | done
  | apertureRead
  | apertureWrite
  | apertureFaultTimeout
  | pcieUnsupported
  | qcreate
  | qdestroy
  | queueFetch
  | startRecord
  | partitionControl
  | registerWrite
  | debugSelect
  | coldReset
  | partitionReset
  | lifeCycleChange
  | wipeDone
  | firmwareVerify
  | recoveryLoad
  | attestationRequest
  | cxlDynamicCapacity
  | powerLimit
  | powerLimitClear
  | overtemperature
  | channelHalfWidth
  | snapIn
  | snapshotThreshold
  | snapshotLatch
  | machineCheck
  | meshCreditReturn
  | probeEcho
  | evacAcknowledged
  | tlbiTakesEffect
  | emulationRoundTrip
  | graftTableAccessReturn
  | storeWipeDone
  | haltAnswer
  | channelFullWidth
deriving DecidableEq, Repr

/-- The table's row of an event. -/
def Event.row : Event → Instr
  | .illegalEncoding _ _ _ => .illegalEncoding
  | .emulationRequest _ _ _ => .emulationRequest
  | .fetchBlockFill _ _ _ => .fetchBlockFill
  | .longLatencyComplete _ _ _ => .longLatencyComplete
  | .bankAccess _ _ => .bankAccess
  | .suspension _ _ _ => .suspension
  | .waiterRetry _ => .waiterRetry
  | .blockReadAtHome _ _ => .blockReadAtHome
  | .blockWriteGranule _ _ => .blockWriteGranule
  | .blockFillRelease _ _ _ => .blockFillRelease
  | .drainDescriptor _ _ => .drainDescriptor
  | .clrAtHome _ _ => .clrAtHome
  | .watchIncrement _ _ => .watchIncrement
  | .deferredTrapReport _ _ _ _ => .deferredTrapReport
  | .trapDelivery _ _ => .trapDelivery
  | .dispatch _ _ => .dispatch
  | .steal _ _ _ => .steal
  | .dispatchRetry _ _ => .dispatchRetry
  | .ringRefill _ => .ringRefill
  | .groupLoadRefresh _ => .groupLoadRefresh
  | .pushBalance _ => .pushBalance
  | .wakeMessage _ _ => .wakeMessage
  | .resumeContinuation _ _ => .resumeContinuation
  | .launchTableFill _ _ => .launchTableFill
  | .launchAccept _ => .launchAccept
  | .gangPlace _ _ => .gangPlace
  | .gangOffer _ _ => .gangOffer
  | .triggerWrite _ => .triggerWrite
  | .completionWrite _ => .completionWrite
  | .postedAck _ _ => .postedAck
  | .preemptTakeEffect _ _ => .preemptTakeEffect
  | .saveWrite _ _ => .saveWrite
  | .restore _ _ => .restore
  | .haltTakeEffect _ _ => .haltTakeEffect
  | .holdtTimeout _ _ _ => .holdtTimeout
  | .deadlockDeclare _ => .deadlockDeclare
  | .timerFire _ => .timerFire
  | .sleepDeadline _ _ _ => .sleepDeadline
  | .waitlWake _ _ _ => .waitlWake
  | .waitlPoll _ _ _ => .waitlPoll
  | .barrierResume _ _ _ => .barrierResume
  | .mailboxArrival _ => .mailboxArrival
  | .gangStartRecord _ _ => .gangStartRecord
  | .supervisorNotice _ _ => .supervisorNotice
  | .copyAdmit _ _ => .copyAdmit
  | .copyBeat _ => .copyBeat
  | .copyCommandComplete _ _ => .copyCommandComplete
  | .copyCommandEnd _ _ _ _ => .copyCommandEnd
  | .taskAccept _ _ => .taskAccept
  | .taskPresenceCheck _ _ => .taskPresenceCheck
  | .taskIssue _ => .taskIssue
  | .configurationChange _ _ => .configurationChange
  | .taskKstep _ _ => .taskKstep
  | .taskDWrite _ _ => .taskDWrite
  | .taskComplete _ _ => .taskComplete
  | .taskEndError _ _ _ => .taskEndError
  | .taskFault _ _ _ => .taskFault
  | .graftInvocation _ _ => .graftInvocation
  | .graftRestart _ _ => .graftRestart
  | .graftCommit _ _ => .graftCommit
  | .faultPost _ _ => .faultPost
  | .faultTableRetry _ => .faultTableRetry
  | .faultReplay _ _ _ => .faultReplay
  | .walk _ _ => .walk
  | .remoteRequest _ => .remoteRequest
  | .remoteRetry _ => .remoteRetry
  | .remoteTokenWake _ => .remoteTokenWake
  | .farAtomic _ => .farAtomic
  | .scrub _ => .scrub
  | .bypassSet _ _ => .routingTableLoad
  | .packageRouteLoad _ _ => .routingTableLoad
  | .routerFailure _ _ => .routerFailure
  | .routingTableLoad _ _ _ => .routingTableLoad
  | .rds _ => .rds
  | .rdx _ => .rdx
  | .upg _ => .upg
  | .wbd _ _ _ _ _ => .wbd
  | .inv _ _ _ => .inv
  | .fwds _ _ _ => .fwds
  | .fwdx _ _ _ _ => .fwdx
  | .invack _ _ _ _ => .invack
  | .data _ _ _ _ _ _ _ _ => .data
  | .datax _ _ _ _ _ _ _ _ => .datax
  | .cmpMsg _ _ _ _ _ => .cmpMsg
  | .memrdData _ _ => .memrdData
  | .memwrAck _ => .memwrAck
  | .snoopFilterEvict _ _ => .snoopFilterEvict
  | .directoryRecall _ => .directoryRecall
  | .sliceFailure _ => .sliceFailure
  | .censusQuery _ _ _ => .censusQuery
  | .censusReport _ _ _ _ => .censusReport
  | .censusEnd _ _ _ => .censusEnd
  | .containment _ _ => .containment
  | .agentAnswerTimeout _ _ _ => .agentAnswerTimeout
  | .containmentNotice _ => .containmentNotice
  | .agentRejoin _ _ => .agentRejoin
  | .flitReceive _ _ => .flitReceive
  | .linkNak _ _ => .linkNak
  | .linkDown _ => .linkDown
  | .reserve _ => .reserve
  | .rack _ _ => .rack
  | .rnak _ _ => .rnak
  | .release _ => .release
  | .go _ => .go
  | .started _ _ => .started
  | .startedTimeout _ => .startedTimeout
  | .halt _ _ => .halt
  | .trigMessage _ _ => .trigMessage
  | .done .. => .done
  | .apertureRead _ _ _ _ _ => .apertureRead
  | .apertureWrite _ _ _ _ => .apertureWrite
  | .apertureFaultTimeout _ => .apertureFaultTimeout
  | .pcieUnsupported _ => .pcieUnsupported
  | .qcreate _ => .qcreate
  | .qdestroy _ => .qdestroy
  | .queueFetch _ => .queueFetch
  | .startRecord _ _ => .startRecord
  | .partitionControl _ => .partitionControl
  | .registerWrite _ _ => .registerWrite
  | .debugSelect _ => .debugSelect
  | .coldReset => .coldReset
  | .partitionReset _ => .partitionReset
  | .lifeCycleChange => .lifeCycleChange
  | .wipeDone => .wipeDone
  | .firmwareVerify _ => .firmwareVerify
  | .recoveryLoad => .recoveryLoad
  | .attestationRequest _ => .attestationRequest
  | .cxlDynamicCapacity _ _ _ _ => .cxlDynamicCapacity
  | .powerLimit => .powerLimit
  | .powerLimitClear => .powerLimitClear
  | .overtemperature _ => .overtemperature
  | .channelHalfWidth _ => .channelHalfWidth
  | .snapIn => .snapIn
  | .snapshotThreshold => .snapshotThreshold
  | .snapshotLatch _ => .snapshotLatch
  | .machineCheck _ _ _ => .machineCheck
  | .meshCreditReturn _ => .meshCreditReturn
  | .probeEcho _ _ _ => .probeEcho
  | .evacAcknowledged _ => .evacAcknowledged
  | .tlbiTakesEffect _ _ => .tlbiTakesEffect
  | .emulationRoundTrip _ _ => .emulationRoundTrip
  | .graftTableAccessReturn _ _ => .graftTableAccessReturn
  | .storeWipeDone _ => .storeWipeDone
  | .haltAnswer _ _ => .haltAnswer
  | .channelFullWidth _ => .channelFullWidth
  | .agentReply _ _ => .longLatencyComplete
  | .cxlLink _ _ => .linkDown
  | .storeArrival _ _ _ _ => .bankAccess
  | .replySend _ _ _ => .longLatencyComplete
  | .hubReply _ _ => .longLatencyComplete
  | .hubAccess _ => .remoteRequest
  | .requestLeave _ _ => .remoteRequest
  | .lineMiss _ _ _ => .rds
  | .sliceError _ => .sliceFailure
  | .emulationAnswer _ _ _ => .emulationRoundTrip

end Sys2Proof
end

