-- ==== Sys2Proof/WellFormed.lean ====
section
/-! DEFINITION. Well-formed instructions: the limits that an instruction's description puts on its fields, beyond what
the types of `Syntax.lean` already say. -/
namespace Sys2Proof

/-- The width in bits of a value of the type (07 Table 7-7, 09 R120). -/
def Ty.width : Ty → Nat
  | .s8 | .z8 | .e4m3 | .e5m2 => 8
  | .s16 | .z16 | .f16 | .bf16 => 16
  | .s32 | .z32 | .f32 => 32
  | .s64 | .z64 => 64
  | .e3m2 | .e2m3 => 6
  | .e2m1 | .s4 => 4
  | .t2 => 2

def Ty.isS : Ty → Bool
  | .s8 | .s16 | .s32 | .s64 => true
  | _ => false

def Ty.isZ : Ty → Bool
  | .z8 | .z16 | .z32 | .z64 => true
  | _ => false

/-- The three float lane types. -/
def Ty.isFloat : Ty → Bool
  | .f32 | .f16 | .bf16 => true
  | _ => false

/-- The types of 13 Table 13-1. -/
def Ty.isLane (t : Ty) : Bool := t.isS || t.isZ || t.isFloat

/-- Lanes of a 256-bit register (13 Table 13-1). -/
def Ty.lanes (t : Ty) : Nat := 256 / t.width

/-- The types VDOT takes (13 R196). -/
def Ty.isDot : Ty → Bool
  | .s8 | .z8 | .s16 | .f16 | .bf16 => true
  | _ => false

/-- The integer types of AOP and RED (11 Table 11-18). -/
def Ty.isAtomicInt : Ty → Bool
  | .s32 | .z32 | .s64 | .z64 => true
  | _ => false

/-- The formats a VCVT scales (13 R199). -/
def Ty.isNarrow : Ty → Bool
  | .e4m3 | .e5m2 | .e3m2 | .e2m3 | .e2m1 | .s8 | .s4 | .t2 => true
  | _ => false

/-- The number of parts P of a VCVT (13 R199). -/
def vcvtParts (src dst : Ty) : Nat :=
  let wide := max src.width dst.width
  let nar := min src.width dst.width
  if src.width = dst.width then 1 else min 16 (256 / ((256 / wide) * nar))

/-- 13 R197: unsigned conditions with float types, and .UN with integer types, are reserved. -/
def VCond.okFor (t : Ty) : VCond → Bool
  | .ltu | .geu | .leu | .gtu => !t.isFloat
  | .un => !(t.isS || t.isZ)
  | _ => true

/-- The selectors of 07 Table 7-10. -/
def movsListed (sel : BitVec 7) : Bool :=
  decide (sel ≤ 0x0C ∨ (0x10 ≤ sel ∧ sel ≤ 0x15) ∨ (0x18 ≤ sel ∧ sel ≤ 0x1B) ∨ (0x20 ≤ sel ∧ sel ≤ 0x27))

/-- The MOVC selectors (07 R108). -/
def movcListed (sel : BitVec 7) : Bool := decide (0x40 ≤ sel ∧ sel ≤ 0x4B)

/-- P = 0b1000, (!p0), is illegal (07 R102). -/
def pOk (p : Pred) : Bool := decide (p ≠ 0x8)

def evenG (g : BitVec 5) : Bool := !g.getLsbD 0
def evenV (v : V) : Bool := !v.getLsbD 0

/-- The checks an instruction's description puts on its fields (07 R99–R106 and the instruction chapters); an event has none. -/
def Instr.wf : Instr → Bool
  | .nop p _ => pOk p
  | .bra p _ => pOk p
  | .jmp p _ => pOk p
  | .call p _ => pOk p
  | .callr p _ => pOk p
  | .ret p _ => pOk p
  | .brc p _ _ _ _ _ => pOk p
  | .aluAdd p _ _ _ _ => pOk p
  | .aluSub p _ _ _ _ => pOk p
  | .aluAnd p _ _ _ _ => pOk p
  | .aluOr p _ _ _ _ => pOk p
  | .aluXor p _ _ _ _ => pOk p
  | .aluAndn p _ _ _ _ => pOk p
  | .aluOrn p _ _ _ _ => pOk p
  | .aluXnor p _ _ _ _ => pOk p
  | .aluMin p _ _ _ _ => pOk p
  | .aluMax p _ _ _ _ => pOk p
  | .aluMinu p _ _ _ _ => pOk p
  | .aluMaxu p _ _ _ _ => pOk p
  | .aluAdds p _ _ _ _ => pOk p
  | .aluSubs p _ _ _ _ => pOk p
  | .aluAddsu p _ _ _ _ => pOk p
  | .aluSubsu p _ _ _ _ => pOk p
  | .aluMov p _ _ _ => pOk p
  | .aluNeg p _ _ _ => pOk p
  | .aluNot p _ _ _ => pOk p
  | .addi p _ _ _ => pOk p
  | .andi p _ _ _ => pOk p
  | .ori p _ _ _ => pOk p
  | .xori p _ _ _ => pOk p
  | .movi p _ _ => pOk p
  | .movhi p _ _ _ => pOk p
  | .mulLo p _ _ _ => pOk p
  | .mulHi p _ _ _ => pOk p
  | .mulHiu p _ _ _ => pOk p
  | .mulMad p _ _ _ _ => pOk p
  | .divS p _ _ _ _ _ => pOk p
  | .divU p _ _ _ _ _ => pOk p
  | .divRem p _ _ _ _ _ => pOk p
  | .divRemu p _ _ _ _ _ => pOk p
  | .bitsShl p _ _ _ => pOk p
  | .bitsShr p _ _ _ => pOk p
  | .bitsSar p _ _ _ => pOk p
  | .bitsRol p _ _ _ => pOk p
  | .bitsRor p _ _ _ => pOk p
  | .bitsShli p _ _ _ => pOk p
  | .bitsShri p _ _ _ => pOk p
  | .bitsSari p _ _ _ => pOk p
  | .bitsRoli p _ _ _ => pOk p
  | .bitsRori p _ _ _ => pOk p
  | .bitsClz p _ _ => pOk p
  | .bitsCtz p _ _ => pOk p
  | .bitsPopc p _ _ => pOk p
  | .bitsBrev p _ _ => pOk p
  | .bitsBswap p _ _ => pOk p
  | .fieldExt p _ _ _ => pOk p
  | .fieldExts p _ _ _ => pOk p
  | .fieldIns p _ _ _ => pOk p
  | .fieldMask p _ _ => pOk p
  | .movw p _ _ => pOk p
  | .sel p _ _ _ _ => pOk p
  | .lea p _ _ _ k => pOk p && decide (k ≠ 7)
  | .leaOff p _ _ _ k => pOk p && decide (k ≠ 7)
  | .cmp p _ _ _ _ _ _ => pOk p
  | .cmpi p _ _ _ _ => pOk p
  | .plogAnd p _ _ _ => pOk p
  | .plogOr p _ _ _ => pOk p
  | .plogXor p _ _ _ => pOk p
  | .plogAndn p _ _ _ => pOk p
  | .plogOrn p _ _ _ => pOk p
  | .plogNand p _ _ _ => pOk p
  | .plogNor p _ _ _ => pOk p
  | .plogXnor p _ _ _ => pOk p
  | .plogNot p _ _ => pOk p
  | .pmovG2p p _ _ => pOk p
  | .pmovP2g p _ _ => pOk p
  | .pmovBc p _ _ => pOk p
  | .coordTile p _ _ => pOk p
  | .coordGroup p _ _ => pOk p
  | .coordSgrp p _ _ => pOk p
  | .coordDie p _ _ => pOk p
  | .coordPres p _ _ => pOk p
  | .coordHmap p _ _ => pOk p
  | .coordLocal p _ _ => pOk p
  | .mka p _ _ _ _ _ => pOk p
  | .mkg p _ _ _ => pOk p
  | .mkgOwn p _ _ => pOk p
  | .ld p _ _ _ _ _ => pOk p
  | .ldx p _ _ _ _ _ _ => pOk p
  | .st p _ _ _ _ _ => pOk p
  | .stx p _ _ _ _ _ _ => pOk p
  | .ldm p _ c d _ _ => pOk p && decide (d.toNat + c.toNat ≤ 31)
  | .stm p _ c d _ _ => pOk p && decide (d.toNat + c.toNat ≤ 31)
  | .ldq p _ _ _ _ => pOk p
  | .ldtry p _ _ d _ _ => pOk p && decide (evenG d)
  | .bwait p _ _ _ _ => pOk p
  | .clr p _ _ => pOk p
  | .clrn p _ _ => pOk p
  | .prefS p _ _ => pOk p
  | .prefX p _ _ => pOk p
  | .aopSwap p _ _ ty _ _ _ _ _ => pOk p && decide ((ty.isAtomicInt ∨ ty = .f32))
  | .aopAdd p _ _ ty _ _ _ _ _ => pOk p && decide ((ty.isAtomicInt ∨ ty = .f32))
  | .aopAnd p _ _ ty _ _ _ _ _ => pOk p && decide (ty.isAtomicInt)
  | .aopOr p _ _ ty _ _ _ _ _ => pOk p && decide (ty.isAtomicInt)
  | .aopXor p _ _ ty _ _ _ _ _ => pOk p && decide (ty.isAtomicInt)
  | .aopMin p _ _ ty _ _ _ _ _ => pOk p && decide (ty.isAtomicInt)
  | .aopMax p _ _ ty _ _ _ _ _ => pOk p && decide (ty.isAtomicInt)
  | .acas p _ _ q ty _ _ d _ b c => pOk p && decide ((if q then ty = .z64 ∧ evenG d ∧ evenG b ∧ evenG c else ty = .z32 ∨ ty = .z64))
  | .redAdd p _ ty _ order _ _ => pOk p && decide ((ty.isAtomicInt ∨ ty = .f32) ∧ (order = 0 ∨ order = 2))
  | .redAnd p _ ty _ order _ _ => pOk p && decide (ty.isAtomicInt ∧ (order = 0 ∨ order = 2))
  | .redOr p _ ty _ order _ _ => pOk p && decide (ty.isAtomicInt ∧ (order = 0 ∨ order = 2))
  | .redXor p _ ty _ order _ _ => pOk p && decide (ty.isAtomicInt ∧ (order = 0 ∨ order = 2))
  | .redMin p _ ty _ order _ _ => pOk p && decide (ty.isAtomicInt ∧ (order = 0 ∨ order = 2))
  | .redMax p _ ty _ order _ _ => pOk p && decide (ty.isAtomicInt ∧ (order = 0 ∨ order = 2))
  | .post p _ sz _ order _ b => pOk p && decide ((order = 0 ∨ order = 2) ∧ (sz = .g → b.toNat < 16 ∧ evenG b))
  | .vopAdd p ty _ _ _ => pOk p && decide (ty.isLane)
  | .vopSub p ty _ _ _ => pOk p && decide (ty.isLane)
  | .vopMul p ty _ _ _ => pOk p && decide (ty.isLane)
  | .vopMin p ty _ _ _ => pOk p && decide (ty.isLane)
  | .vopMax p ty _ _ _ => pOk p && decide (ty.isLane)
  | .vopAbs p ty _ _ => pOk p && decide ((ty.isS ∨ ty.isFloat))
  | .vopNeg p ty _ _ => pOk p && decide ((ty.isS ∨ ty.isFloat))
  | .vopAdds p ty _ _ _ => pOk p && decide ((ty.isS ∨ ty.isZ))
  | .vopSubs p ty _ _ _ => pOk p && decide ((ty.isS ∨ ty.isZ))
  | .vopAnd p ty _ _ _ => pOk p && decide ((ty.isS ∨ ty.isZ))
  | .vopOr p ty _ _ _ => pOk p && decide ((ty.isS ∨ ty.isZ))
  | .vopXor p ty _ _ _ => pOk p && decide ((ty.isS ∨ ty.isZ))
  | .vopAndn p ty _ _ _ => pOk p && decide ((ty.isS ∨ ty.isZ))
  | .vopShl p ty _ _ _ => pOk p && decide ((ty.isS ∨ ty.isZ))
  | .vopShr p ty _ _ _ => pOk p && decide ((ty.isS ∨ ty.isZ))
  | .vopSar p ty _ _ _ => pOk p && decide ((ty.isS ∨ ty.isZ))
  | .vopMulhi p ty _ _ _ => pOk p && decide ((ty.isS ∨ ty.isZ))
  | .vfma p ty _ _ _ _ => pOk p && decide (ty.isFloat)
  | .vfmaFms p ty _ _ _ _ => pOk p && decide (ty.isFloat)
  | .vfmaFnma p ty _ _ _ _ => pOk p && decide (ty.isFloat)
  | .vfmaFnms p ty _ _ _ _ => pOk p && decide (ty.isFloat)
  | .vdiv p _ ty _ _ _ => pOk p && decide (ty.isFloat)
  | .vsqrt p _ ty _ _ => pOk p && decide (ty.isFloat)
  | .vcmp p cc ty _ _ _ => pOk p && decide (ty.isLane ∧ cc.okFor ty)
  | .vsel p ty _ _ _ _ => pOk p && decide (ty.isLane)
  | .vcvt p src j dst _ _ c => pOk p && decide (src ≠ dst ∧ j.toNat < vcvtParts src dst ∧ (src.isNarrow ∨ dst.isNarrow ∨ c = 0))
  | .vredAdd p ty _ _ => pOk p && decide (ty.isLane)
  | .vredMin p ty _ _ => pOk p && decide (ty.isLane)
  | .vredMax p ty _ _ => pOk p && decide (ty.isLane)
  | .vredAnd p ty _ _ => pOk p && decide ((ty.isS ∨ ty.isZ))
  | .vredOr p ty _ _ => pOk p && decide ((ty.isS ∨ ty.isZ))
  | .vredXor p ty _ _ => pOk p && decide ((ty.isS ∨ ty.isZ))
  | .vperm p ty _ _ _ _ => pOk p && decide (ty.isLane)
  | .vbcast p ty _ _ => pOk p && decide (ty.isLane)
  | .vbcastLane p ty _ _ idx => pOk p && decide (ty.isLane ∧ idx.toNat < ty.lanes)
  | .vins p ty _ _ idx => pOk p && decide (ty.isLane ∧ idx.toNat < ty.lanes)
  | .vext p ty _ _ idx => pOk p && decide (ty.isLane ∧ idx.toNat < ty.lanes)
  | .vdot p ty _ _ _ => pOk p && decide (ty.isDot)
  | .vmov p ty _ _ => pOk p && decide (ty.isLane)
  | .vmovZero p ty _ => pOk p && decide (ty.isLane)
  | .vld p _ g d _ _ => pOk p && decide ((g → evenV d))
  | .vst p _ g d _ _ => pOk p && decide ((g → evenV d))
  | .vlds p _ ty _ _ _ => pOk p && decide (ty.isZ)
  | .vsts p _ ty _ _ _ => pOk p && decide (ty.isZ)
  | .vgath p _ ty _ _ _ _ => pOk p && decide (ty = .z32 ∨ ty = .z64)
  | .vscat p _ ty _ _ _ _ => pOk p && decide (ty = .z32 ∨ ty = .z64)
  | .vldb p _ _ _ _ => pOk p
  | .vstb p _ _ _ _ => pOk p
  | .copy p _ _ _ _ => pOk p
  | .copys p _ _ _ _ _ _ _ => pOk p
  | .copygG p _ _ _ _ _ => pOk p
  | .copygS p _ _ _ _ _ => pOk p
  | .cbatchOpen p => pOk p
  | .cbatchClose p => pOk p
  | .cwait p _ => pOk p
  | .cbinit p _ _ => pOk p
  | .cbwait p _ => pOk p
  | .cqf p _ => pOk p
  | .cstat p _ => pOk p
  | .cstatBar p _ _ => pOk p
  | .tagl p _ _ => pOk p
  | .taglG p _ _ _ => pOk p
  | .tags p _ _ _ => pOk p
  | .tagi p _ => pOk p
  | .tagiAll p => pOk p
  | .tagiBlk p _ => pOk p
  | .mtask p _ _ _ => pOk p
  | .mtqry p _ _ => pOk p
  | .mtqryQ p _ => pOk p
  | .mtcan p _ _ => pOk p
  | .lyrinit p _ _ _ => pOk p
  | .lyrq p _ _ _ => pOk p
  | .lyrqX p _ _ => pOk p
  | .lyrqW p _ _ => pOk p
  | .lyrref p _ _ => pOk p
  | .lyrdrop p _ _ => pOk p
  | .fence p _ order => pOk p && decide (order ≠ 0)
  | .bar p _ => pOk p
  | .barComb p _ _ => pOk p
  | .trig p => pOk p
  | .waitl p _ _ _ _ => pOk p
  | .waitlDl p _ _ _ _ _ => pOk p
  | .sleep p _ _ => pOk p
  | .sleepM p _ _ => pOk p
  | .yield p => pOk p
  | .spawn p _ _ => pOk p
  | .tpop p _ => pOk p
  | .tstart p _ _ _ _ => pOk p
  | .treap p _ _ => pOk p
  | .texit p => pOk p
  | .rqpush p _ _ => pOk p
  | .rqpushCore p _ _ _ => pOk p
  | .rqpop p d => pOk p && decide (d ≠ 31)
  | .rqpopP p d _ => pOk p && decide (d ≠ 31)
  | .rqpopCnt p _ => pOk p
  | .preempt p _ _ _ => pOk p
  | .preemptQ p _ _ => pOk p
  | .evac p _ _ _ => pOk p
  | .send p _ _ _ _ => pOk p
  | .recv p _ _ => pOk p
  | .recvT p _ _ => pOk p
  | .timer p _ => pOk p
  | .timerRel p _ => pOk p
  | .timerOff p => pOk p
  | .trap p _ => pOk p
  | .eret p => pOk p
  | .eretNext p => pOk p
  | .movsRead p _ sr => pOk p && decide (movsListed sr)
  | .movsWrite p sr _ => pOk p && decide (movsListed sr)
  | .movcRead p _ sr => pOk p && decide (movcListed sr)
  | .movcWrite p sr _ => pOk p && decide (movcListed sr)
  | .tlbiVa p _ _ => pOk p
  | .tlbiAsid p _ => pOk p
  | .tlbiAll p => pOk p
  | .tlbsync p => pOk p
  | .fltrd p _ _ _ => pOk p
  | .fltrpl p _ _ => pOk p
  | .emur p _ _ _ => pOk p
  | .emuw p _ _ _ => pOk p
  | .holdt p _ _ => pOk p
  | .resumet p _ _ => pOk p
  | .snap p => pOk p
  | .cntrd p _ _ => pOk p
  | .cntclr p _ => pOk p
  | .waym p _ _ => pOk p
  | .sgway p _ _ => pOk p
  | .illegalEncoding => true
  | .emulationRequest => true
  | .fetchBlockFill => true
  | .longLatencyComplete => true
  | .bankAccess => true
  | .suspension => true
  | .waiterRetry => true
  | .blockReadAtHome => true
  | .blockWriteGranule => true
  | .blockFillRelease => true
  | .drainDescriptor => true
  | .clrAtHome => true
  | .watchIncrement => true
  | .deferredTrapReport => true
  | .trapDelivery => true
  | .dispatch => true
  | .steal => true
  | .dispatchRetry => true
  | .ringRefill => true
  | .groupLoadRefresh => true
  | .pushBalance => true
  | .wakeMessage => true
  | .resumeContinuation => true
  | .launchTableFill => true
  | .launchAccept => true
  | .gangPlace => true
  | .gangOffer => true
  | .triggerWrite => true
  | .completionWrite => true
  | .postedAck => true
  | .preemptTakeEffect => true
  | .saveWrite => true
  | .restore => true
  | .haltTakeEffect => true
  | .holdtTimeout => true
  | .deadlockDeclare => true
  | .timerFire => true
  | .sleepDeadline => true
  | .waitlWake => true
  | .waitlPoll => true
  | .barrierResume => true
  | .mailboxArrival => true
  | .gangStartRecord => true
  | .supervisorNotice => true
  | .copyAdmit => true
  | .copyBeat => true
  | .copyCommandComplete => true
  | .copyCommandEnd => true
  | .taskAccept => true
  | .taskPresenceCheck => true
  | .taskIssue => true
  | .configurationChange => true
  | .taskKstep => true
  | .taskDWrite => true
  | .taskComplete => true
  | .taskEndError => true
  | .taskFault => true
  | .graftInvocation => true
  | .graftRestart => true
  | .graftCommit => true
  | .faultPost => true
  | .faultTableRetry => true
  | .faultReplay => true
  | .walk => true
  | .remoteRequest => true
  | .remoteRetry => true
  | .remoteTokenWake => true
  | .farAtomic => true
  | .scrub => true
  | .routerFailure => true
  | .routingTableLoad => true
  | .rds => true
  | .rdx => true
  | .upg => true
  | .wbd => true
  | .inv => true
  | .fwds => true
  | .fwdx => true
  | .invack => true
  | .data => true
  | .datax => true
  | .cmpMsg => true
  | .memrdData => true
  | .memwrAck => true
  | .snoopFilterEvict => true
  | .directoryRecall => true
  | .sliceFailure => true
  | .censusQuery => true
  | .censusReport => true
  | .censusEnd => true
  | .containment => true
  | .agentAnswerTimeout => true
  | .containmentNotice => true
  | .agentRejoin => true
  | .flitReceive => true
  | .linkNak => true
  | .linkDown => true
  | .reserve => true
  | .rack => true
  | .rnak => true
  | .release => true
  | .go => true
  | .started => true
  | .startedTimeout => true
  | .halt => true
  | .trigMessage => true
  | .done => true
  | .apertureRead => true
  | .apertureWrite => true
  | .apertureFaultTimeout => true
  | .pcieUnsupported => true
  | .qcreate => true
  | .qdestroy => true
  | .queueFetch => true
  | .startRecord => true
  | .partitionControl => true
  | .registerWrite => true
  | .debugSelect => true
  | .coldReset => true
  | .partitionReset => true
  | .lifeCycleChange => true
  | .wipeDone => true
  | .firmwareVerify => true
  | .recoveryLoad => true
  | .attestationRequest => true
  | .cxlDynamicCapacity => true
  | .powerLimit => true
  | .powerLimitClear => true
  | .overtemperature => true
  | .channelHalfWidth => true
  | .snapIn => true
  | .snapshotThreshold => true
  | .snapshotLatch => true
  | .machineCheck => true
  | .meshCreditReturn => true
  | .probeEcho => true
  | .evacAcknowledged => true
  | .tlbiTakesEffect => true
  | .emulationRoundTrip => true
  | .graftTableAccessReturn => true
  | .storeWipeDone => true
  | .haltAnswer => true
  | .channelFullWidth => true

/-- The constructors that have an encoding; the others are steps of the device. -/
def Instr.isWord : Instr → Bool
  | .nop _ _ => true
  | .bra _ _ => true
  | .jmp _ _ => true
  | .call _ _ => true
  | .callr _ _ => true
  | .ret _ _ => true
  | .brc _ _ _ _ _ _ => true
  | .aluAdd _ _ _ _ _ => true
  | .aluSub _ _ _ _ _ => true
  | .aluAnd _ _ _ _ _ => true
  | .aluOr _ _ _ _ _ => true
  | .aluXor _ _ _ _ _ => true
  | .aluAndn _ _ _ _ _ => true
  | .aluOrn _ _ _ _ _ => true
  | .aluXnor _ _ _ _ _ => true
  | .aluMin _ _ _ _ _ => true
  | .aluMax _ _ _ _ _ => true
  | .aluMinu _ _ _ _ _ => true
  | .aluMaxu _ _ _ _ _ => true
  | .aluAdds _ _ _ _ _ => true
  | .aluSubs _ _ _ _ _ => true
  | .aluAddsu _ _ _ _ _ => true
  | .aluSubsu _ _ _ _ _ => true
  | .aluMov _ _ _ _ => true
  | .aluNeg _ _ _ _ => true
  | .aluNot _ _ _ _ => true
  | .addi _ _ _ _ => true
  | .andi _ _ _ _ => true
  | .ori _ _ _ _ => true
  | .xori _ _ _ _ => true
  | .movi _ _ _ => true
  | .movhi _ _ _ _ => true
  | .mulLo _ _ _ _ => true
  | .mulHi _ _ _ _ => true
  | .mulHiu _ _ _ _ => true
  | .mulMad _ _ _ _ _ => true
  | .divS _ _ _ _ _ _ => true
  | .divU _ _ _ _ _ _ => true
  | .divRem _ _ _ _ _ _ => true
  | .divRemu _ _ _ _ _ _ => true
  | .bitsShl _ _ _ _ => true
  | .bitsShr _ _ _ _ => true
  | .bitsSar _ _ _ _ => true
  | .bitsRol _ _ _ _ => true
  | .bitsRor _ _ _ _ => true
  | .bitsShli _ _ _ _ => true
  | .bitsShri _ _ _ _ => true
  | .bitsSari _ _ _ _ => true
  | .bitsRoli _ _ _ _ => true
  | .bitsRori _ _ _ _ => true
  | .bitsClz _ _ _ => true
  | .bitsCtz _ _ _ => true
  | .bitsPopc _ _ _ => true
  | .bitsBrev _ _ _ => true
  | .bitsBswap _ _ _ => true
  | .fieldExt _ _ _ _ => true
  | .fieldExts _ _ _ _ => true
  | .fieldIns _ _ _ _ => true
  | .fieldMask _ _ _ => true
  | .movw _ _ _ => true
  | .sel _ _ _ _ _ => true
  | .lea _ _ _ _ _ => true
  | .leaOff _ _ _ _ _ => true
  | .cmp _ _ _ _ _ _ _ => true
  | .cmpi _ _ _ _ _ => true
  | .plogAnd _ _ _ _ => true
  | .plogOr _ _ _ _ => true
  | .plogXor _ _ _ _ => true
  | .plogAndn _ _ _ _ => true
  | .plogOrn _ _ _ _ => true
  | .plogNand _ _ _ _ => true
  | .plogNor _ _ _ _ => true
  | .plogXnor _ _ _ _ => true
  | .plogNot _ _ _ => true
  | .pmovG2p _ _ _ => true
  | .pmovP2g _ _ _ => true
  | .pmovBc _ _ _ => true
  | .coordTile _ _ _ => true
  | .coordGroup _ _ _ => true
  | .coordSgrp _ _ _ => true
  | .coordDie _ _ _ => true
  | .coordPres _ _ _ => true
  | .coordHmap _ _ _ => true
  | .coordLocal _ _ _ => true
  | .mka _ _ _ _ _ _ => true
  | .mkg _ _ _ _ => true
  | .mkgOwn _ _ _ => true
  | .ld _ _ _ _ _ _ => true
  | .ldx _ _ _ _ _ _ _ => true
  | .st _ _ _ _ _ _ => true
  | .stx _ _ _ _ _ _ _ => true
  | .ldm _ _ _ _ _ _ => true
  | .stm _ _ _ _ _ _ => true
  | .ldq _ _ _ _ _ => true
  | .ldtry _ _ _ _ _ _ => true
  | .bwait _ _ _ _ _ => true
  | .clr _ _ _ => true
  | .clrn _ _ _ => true
  | .prefS _ _ _ => true
  | .prefX _ _ _ => true
  | .aopSwap _ _ _ _ _ _ _ _ _ => true
  | .aopAdd _ _ _ _ _ _ _ _ _ => true
  | .aopAnd _ _ _ _ _ _ _ _ _ => true
  | .aopOr _ _ _ _ _ _ _ _ _ => true
  | .aopXor _ _ _ _ _ _ _ _ _ => true
  | .aopMin _ _ _ _ _ _ _ _ _ => true
  | .aopMax _ _ _ _ _ _ _ _ _ => true
  | .acas _ _ _ _ _ _ _ _ _ _ _ => true
  | .redAdd _ _ _ _ _ _ _ => true
  | .redAnd _ _ _ _ _ _ _ => true
  | .redOr _ _ _ _ _ _ _ => true
  | .redXor _ _ _ _ _ _ _ => true
  | .redMin _ _ _ _ _ _ _ => true
  | .redMax _ _ _ _ _ _ _ => true
  | .post _ _ _ _ _ _ _ => true
  | .vopAdd _ _ _ _ _ => true
  | .vopSub _ _ _ _ _ => true
  | .vopMul _ _ _ _ _ => true
  | .vopMin _ _ _ _ _ => true
  | .vopMax _ _ _ _ _ => true
  | .vopAbs _ _ _ _ => true
  | .vopNeg _ _ _ _ => true
  | .vopAdds _ _ _ _ _ => true
  | .vopSubs _ _ _ _ _ => true
  | .vopAnd _ _ _ _ _ => true
  | .vopOr _ _ _ _ _ => true
  | .vopXor _ _ _ _ _ => true
  | .vopAndn _ _ _ _ _ => true
  | .vopShl _ _ _ _ _ => true
  | .vopShr _ _ _ _ _ => true
  | .vopSar _ _ _ _ _ => true
  | .vopMulhi _ _ _ _ _ => true
  | .vfma _ _ _ _ _ _ => true
  | .vfmaFms _ _ _ _ _ _ => true
  | .vfmaFnma _ _ _ _ _ _ => true
  | .vfmaFnms _ _ _ _ _ _ => true
  | .vdiv _ _ _ _ _ _ => true
  | .vsqrt _ _ _ _ _ => true
  | .vcmp _ _ _ _ _ _ => true
  | .vsel _ _ _ _ _ _ => true
  | .vcvt _ _ _ _ _ _ _ => true
  | .vredAdd _ _ _ _ => true
  | .vredMin _ _ _ _ => true
  | .vredMax _ _ _ _ => true
  | .vredAnd _ _ _ _ => true
  | .vredOr _ _ _ _ => true
  | .vredXor _ _ _ _ => true
  | .vperm _ _ _ _ _ _ => true
  | .vbcast _ _ _ _ => true
  | .vbcastLane _ _ _ _ _ => true
  | .vins _ _ _ _ _ => true
  | .vext _ _ _ _ _ => true
  | .vdot _ _ _ _ _ => true
  | .vmov _ _ _ _ => true
  | .vmovZero _ _ _ => true
  | .vld _ _ _ _ _ _ => true
  | .vst _ _ _ _ _ _ => true
  | .vlds _ _ _ _ _ _ => true
  | .vsts _ _ _ _ _ _ => true
  | .vgath _ _ _ _ _ _ _ => true
  | .vscat _ _ _ _ _ _ _ => true
  | .vldb _ _ _ _ _ => true
  | .vstb _ _ _ _ _ => true
  | .copy _ _ _ _ _ => true
  | .copys _ _ _ _ _ _ _ _ => true
  | .copygG _ _ _ _ _ _ => true
  | .copygS _ _ _ _ _ _ => true
  | .cbatchOpen _ => true
  | .cbatchClose _ => true
  | .cwait _ _ => true
  | .cbinit _ _ _ => true
  | .cbwait _ _ => true
  | .cqf _ _ => true
  | .cstat _ _ => true
  | .cstatBar _ _ _ => true
  | .tagl _ _ _ => true
  | .taglG _ _ _ _ => true
  | .tags _ _ _ _ => true
  | .tagi _ _ => true
  | .tagiAll _ => true
  | .tagiBlk _ _ => true
  | .mtask _ _ _ _ => true
  | .mtqry _ _ _ => true
  | .mtqryQ _ _ => true
  | .mtcan _ _ _ => true
  | .lyrinit _ _ _ _ => true
  | .lyrq _ _ _ _ => true
  | .lyrqX _ _ _ => true
  | .lyrqW _ _ _ => true
  | .lyrref _ _ _ => true
  | .lyrdrop _ _ _ => true
  | .fence _ _ _ => true
  | .bar _ _ => true
  | .barComb _ _ _ => true
  | .trig _ => true
  | .waitl _ _ _ _ _ => true
  | .waitlDl _ _ _ _ _ _ => true
  | .sleep _ _ _ => true
  | .sleepM _ _ _ => true
  | .yield _ => true
  | .spawn _ _ _ => true
  | .tpop _ _ => true
  | .tstart _ _ _ _ _ => true
  | .treap _ _ _ => true
  | .texit _ => true
  | .rqpush _ _ _ => true
  | .rqpushCore _ _ _ _ => true
  | .rqpop _ _ => true
  | .rqpopP _ _ _ => true
  | .rqpopCnt _ _ => true
  | .preempt _ _ _ _ => true
  | .preemptQ _ _ _ => true
  | .evac _ _ _ _ => true
  | .send _ _ _ _ _ => true
  | .recv _ _ _ => true
  | .recvT _ _ _ => true
  | .timer _ _ => true
  | .timerRel _ _ => true
  | .timerOff _ => true
  | .trap _ _ => true
  | .eret _ => true
  | .eretNext _ => true
  | .movsRead _ _ _ => true
  | .movsWrite _ _ _ => true
  | .movcRead _ _ _ => true
  | .movcWrite _ _ _ => true
  | .tlbiVa _ _ _ => true
  | .tlbiAsid _ _ => true
  | .tlbiAll _ => true
  | .tlbsync _ => true
  | .fltrd _ _ _ _ => true
  | .fltrpl _ _ _ => true
  | .emur _ _ _ _ => true
  | .emuw _ _ _ _ => true
  | .holdt _ _ _ => true
  | .resumet _ _ _ => true
  | .snap _ => true
  | .cntrd _ _ _ => true
  | .cntclr _ _ => true
  | .waym _ _ _ => true
  | .sgway _ _ _ => true
  | .illegalEncoding => false
  | .emulationRequest => false
  | .fetchBlockFill => false
  | .longLatencyComplete => false
  | .bankAccess => false
  | .suspension => false
  | .waiterRetry => false
  | .blockReadAtHome => false
  | .blockWriteGranule => false
  | .blockFillRelease => false
  | .drainDescriptor => false
  | .clrAtHome => false
  | .watchIncrement => false
  | .deferredTrapReport => false
  | .trapDelivery => false
  | .dispatch => false
  | .steal => false
  | .dispatchRetry => false
  | .ringRefill => false
  | .groupLoadRefresh => false
  | .pushBalance => false
  | .wakeMessage => false
  | .resumeContinuation => false
  | .launchTableFill => false
  | .launchAccept => false
  | .gangPlace => false
  | .gangOffer => false
  | .triggerWrite => false
  | .completionWrite => false
  | .postedAck => false
  | .preemptTakeEffect => false
  | .saveWrite => false
  | .restore => false
  | .haltTakeEffect => false
  | .holdtTimeout => false
  | .deadlockDeclare => false
  | .timerFire => false
  | .sleepDeadline => false
  | .waitlWake => false
  | .waitlPoll => false
  | .barrierResume => false
  | .mailboxArrival => false
  | .gangStartRecord => false
  | .supervisorNotice => false
  | .copyAdmit => false
  | .copyBeat => false
  | .copyCommandComplete => false
  | .copyCommandEnd => false
  | .taskAccept => false
  | .taskPresenceCheck => false
  | .taskIssue => false
  | .configurationChange => false
  | .taskKstep => false
  | .taskDWrite => false
  | .taskComplete => false
  | .taskEndError => false
  | .taskFault => false
  | .graftInvocation => false
  | .graftRestart => false
  | .graftCommit => false
  | .faultPost => false
  | .faultTableRetry => false
  | .faultReplay => false
  | .walk => false
  | .remoteRequest => false
  | .remoteRetry => false
  | .remoteTokenWake => false
  | .farAtomic => false
  | .scrub => false
  | .routerFailure => false
  | .routingTableLoad => false
  | .rds => false
  | .rdx => false
  | .upg => false
  | .wbd => false
  | .inv => false
  | .fwds => false
  | .fwdx => false
  | .invack => false
  | .data => false
  | .datax => false
  | .cmpMsg => false
  | .memrdData => false
  | .memwrAck => false
  | .snoopFilterEvict => false
  | .directoryRecall => false
  | .sliceFailure => false
  | .censusQuery => false
  | .censusReport => false
  | .censusEnd => false
  | .containment => false
  | .agentAnswerTimeout => false
  | .containmentNotice => false
  | .agentRejoin => false
  | .flitReceive => false
  | .linkNak => false
  | .linkDown => false
  | .reserve => false
  | .rack => false
  | .rnak => false
  | .release => false
  | .go => false
  | .started => false
  | .startedTimeout => false
  | .halt => false
  | .trigMessage => false
  | .done => false
  | .apertureRead => false
  | .apertureWrite => false
  | .apertureFaultTimeout => false
  | .pcieUnsupported => false
  | .qcreate => false
  | .qdestroy => false
  | .queueFetch => false
  | .startRecord => false
  | .partitionControl => false
  | .registerWrite => false
  | .debugSelect => false
  | .coldReset => false
  | .partitionReset => false
  | .lifeCycleChange => false
  | .wipeDone => false
  | .firmwareVerify => false
  | .recoveryLoad => false
  | .attestationRequest => false
  | .cxlDynamicCapacity => false
  | .powerLimit => false
  | .powerLimitClear => false
  | .overtemperature => false
  | .channelHalfWidth => false
  | .snapIn => false
  | .snapshotThreshold => false
  | .snapshotLatch => false
  | .machineCheck => false
  | .meshCreditReturn => false
  | .probeEcho => false
  | .evacAcknowledged => false
  | .tlbiTakesEffect => false
  | .emulationRoundTrip => false
  | .graftTableAccessReturn => false
  | .storeWipeDone => false
  | .haltAnswer => false
  | .channelFullWidth => false

end Sys2Proof
end

