-- ==== Sys2Proof/Machine/Float.lean ====
section
/-! DEFINITION. Number formats and arithmetic (09_numbers.md): decoding of every element format, exact arithmetic on
dyadic numbers, and the one rounding that every float result goes through. Nothing here reads the machine's state. -/
namespace Sys2Proof.Machine

/-! ## Flags and modes -/

/-- The sticky flags of %rnd bits 15:8 (09 Table 9-4), bit 0 Invalid. -/
abbrev FFlags := BitVec 8
def fInvalid : FFlags := 0x01
def fDivZero : FFlags := 0x02
def fOverflow : FFlags := 0x04
def fUnderflow : FFlags := 0x08
def fInexact : FFlags := 0x10
def fNarSat : FFlags := 0x20
def fNanScale : FFlags := 0x40
def fFmtErr : FFlags := 0x80

/-- The rounding modes of Table 9-4. -/
inductive RMode where
  | rne | zero | up | down | away | odd
deriving DecidableEq, Repr

/-- Mode codes; 6 and 7 are never stored (09 Table 9-4). -/
def RMode.ofCode : Nat → RMode
  | 1 => .zero | 2 => .up | 3 => .down | 4 => .away | 5 => .odd | _ => .rne

/-- What an instruction takes from %rnd in its issue slot (09 R125). -/
structure FEnv where
  mode : RMode := .rne
  sat : Bool := false
  flushIn : Bool := false
  flushOut : Bool := false
deriving DecidableEq, Repr

/-- What a format does at the top of its range (09 Table 9-2). -/
inductive FTop where
  /-- Exponent all ones is infinity or NaN. -/
  | ieee
  /-- No infinity; all ones is the one NaN of each sign. -/
  | nanOnly
  /-- Every encoding is finite. -/
  | finite
deriving DecidableEq, Repr

/-- A float format (09 R122). -/
structure FFmt where
  x : Nat
  w : Nat
  bias : Int
  top : FTop
deriving DecidableEq, Repr

/-- 09 Table 9-2. -/
def Ty.fmt? : Ty → Option FFmt
  | .f32 => some ⟨8, 23, 127, .ieee⟩
  | .f16 => some ⟨5, 10, 15, .ieee⟩
  | .bf16 => some ⟨8, 7, 127, .ieee⟩
  | .e4m3 => some ⟨4, 3, 7, .nanOnly⟩
  | .e5m2 => some ⟨5, 2, 15, .ieee⟩
  | .e3m2 => some ⟨3, 2, 3, .finite⟩
  | .e2m3 => some ⟨2, 3, 1, .finite⟩
  | .e2m1 => some ⟨2, 1, 1, .finite⟩
  | _ => none

def fmtF32 : FFmt := ⟨8, 23, 127, .ieee⟩

/-- A decoded element: `fin s m e` is (−1)^s · m · 2^e. A NaN keeps its sign, whether it is quiet, and its mantissa. -/
inductive FVal where
  | nan (s : Bool) (quiet : Bool) (m : Nat)
  | inf (s : Bool)
  | fin (s : Bool) (m : Nat) (e : Int)
deriving DecidableEq, Repr

/-- The smallest exponent of a normal number. -/
def FFmt.emin (f : FFmt) : Int := 1 - f.bias

/-- The value of an encoding (09 R122, R123). -/
def FFmt.decode (f : FFmt) (bits : Nat) : FVal :=
  let m := bits % 2 ^ f.w
  let e := (bits / 2 ^ f.w) % 2 ^ f.x
  let s := (bits / 2 ^ (f.w + f.x)) % 2 = 1
  let ones := 2 ^ f.x - 1
  if e = ones ∧ f.top = .ieee then
    if m = 0 then .inf s else .nan s (2 ^ (f.w - 1) ≤ m) m
  else if e = ones ∧ m = 2 ^ f.w - 1 ∧ f.top = .nanOnly then .nan s true m
  else if e = 0 then .fin s m (f.emin - f.w)
  else .fin s (2 ^ f.w + m) ((e : Int) - f.bias - f.w)

/-- Whether an encoding is a nonzero subnormal. -/
def FFmt.isSub (f : FFmt) (bits : Nat) : Bool :=
  (bits / 2 ^ f.w) % 2 ^ f.x = 0 ∧ bits % 2 ^ f.w ≠ 0

/-- Decode an input of the vector unit: FlushIn makes a subnormal a zero of its sign (09 R129). -/
def FFmt.input (f : FFmt) (env : FEnv) (bits : Nat) : FVal :=
  if env.flushIn ∧ f.isSub bits then .fin ((bits / 2 ^ (f.w + f.x)) % 2 = 1) 0 (f.emin - f.w) else f.decode bits

def FFmt.signBit (f : FFmt) (s : Bool) : Nat := if s then 2 ^ (f.w + f.x) else 0
def FFmt.zero (f : FFmt) (s : Bool) : Nat := f.signBit s
/-- The same input as bits, for an operation that changes or returns the bits themselves. -/
def FFmt.inputBits (f : FFmt) (env : FEnv) (bits : Nat) : Nat :=
  if env.flushIn ∧ f.isSub bits then f.zero ((bits / 2 ^ (f.w + f.x)) % 2 = 1) else bits
/-- The largest finite magnitude's encoding. -/
def FFmt.maxBits (f : FFmt) (s : Bool) : Nat :=
  f.signBit s + (match f.top with
    | .ieee => 2 ^ (f.w + f.x) - 2 ^ f.w - 1
    | .nanOnly => 2 ^ (f.w + f.x) - 2
    | .finite => 2 ^ (f.w + f.x) - 1)
/-- The encoding of infinity; for .e4m3 its NaN of the sign, for the finite formats the largest value (09 R128). -/
def FFmt.infBits (f : FFmt) (s : Bool) : Nat :=
  match f.top with
  | .ieee => f.signBit s + (2 ^ f.x - 1) * 2 ^ f.w
  | .nanOnly => f.signBit s + 2 ^ (f.w + f.x) - 1
  | .finite => f.maxBits s
/-- The default NaN (09 R123); +0 for a format without one. -/
def FFmt.defaultNan (f : FFmt) : Nat :=
  match f.top with
  | .ieee => (2 ^ f.x - 1) * 2 ^ f.w + 2 ^ (f.w - 1)
  | .nanOnly => 2 ^ (f.w + f.x) - 1
  | .finite => 0
def FFmt.hasNan (f : FFmt) : Bool := f.top ≠ .finite

/-- Bits of a natural number. -/
def bitLen (n : Nat) : Nat := if n = 0 then 0 else Nat.log2 n + 1

/-- Rounding at a bit position: `kept` and the remainder `rem` of `2^sh` (09 R127). -/
def roundInc (mode : RMode) (s : Bool) (kept rem half : Nat) : Nat :=
  match mode with
  | .rne => if rem > half ∨ (rem = half ∧ rem ≠ 0 ∧ kept % 2 = 1) then kept + 1 else kept
  | .zero => kept
  | .up => if rem ≠ 0 ∧ ¬s then kept + 1 else kept
  | .down => if rem ≠ 0 ∧ s then kept + 1 else kept
  | .away => if rem ≠ 0 ∧ rem ≥ half then kept + 1 else kept
  | .odd => if rem ≠ 0 ∧ kept % 2 = 0 then kept + 1 else kept

/-- `m · 2^e` as a multiple of `2^q`, rounded, with its inexactness. -/
def roundAt (mode : RMode) (s : Bool) (m : Nat) (e q : Int) : Nat × Bool :=
  if q ≤ e then (m * 2 ^ (e - q).toNat, false)
  else
    let sh := (q - e).toNat
    let rem := m % 2 ^ sh
    (roundInc mode s (m / 2 ^ sh) rem (2 ^ (sh - 1)), rem ≠ 0)

/-- The overflow result of 09 Table 9-5 and R128. `narrow` says that the operation is a conversion in which Sat acts. -/
def overflowTo (f : FFmt) (env : FEnv) (narrow : Bool) (s : Bool) : Nat × FFlags :=
  let fl := fOverflow ||| fInexact
  if narrow ∧ env.sat then (f.maxBits s, fl ||| fNarSat)
  else
    let toInf : Bool := match env.mode with
      | .rne | .away => true
      | .zero | .odd => false
      | .up => !s
      | .down => s
    if toInf then (f.infBits s, if f.top = .finite then fl ||| fNarSat else fl) else (f.maxBits s, fl)

/-- Round the exact value (−1)^s · (m + δ) · 2^e to the format, δ an infinitesimal when `sticky` (09 R127–R129,
R142): the one rounding of every float result. A zero keeps the sign `s`. -/
def roundTo (f : FFmt) (env : FEnv) (narrow : Bool) (s : Bool) (m : Nat) (e : Int) (sticky : Bool := false) :
    Nat × FFlags :=
  if m = 0 ∧ ¬sticky then (f.zero s, 0)
  else
    let m' := if sticky then (if m = 0 then 1 else m * 2 ^ 200 + 1) else m
    let e' : Int := if sticky then (if m = 0 then f.emin - f.w - 4 else e - 200) else e
    let lead : Int := (bitLen m' : Int) - 1 + e'
    let qU : Int := lead - f.w
    let q : Int := max qU (f.emin - f.w)
    let r := roundAt env.mode s m' e' q
    let u := roundAt env.mode s m' e' qU
    let kept := r.1
    -- magnitude compared with the largest finite value, as multiples of 2^q
    let maxV := f.decode (f.maxBits false)
    let ovf : Bool := match maxV with
      | .fin _ mm me => decide ((mm : Int) * 2 ^ (me - min me q).toNat < (kept : Int) * 2 ^ (q - min me q).toNat)
      | _ => false
    if ovf then overflowTo f env narrow s
    else
      let tiny : Bool := decide (qU < f.emin - f.w ∧ (u.1 : Int) < 2 ^ (f.emin - qU).toNat)
      let fl : FFlags := (if r.2 then fInexact else 0) ||| (if r.2 ∧ tiny then fUnderflow else 0)
      if kept < 2 ^ f.w then
        if env.flushOut ∧ kept ≠ 0 then (f.zero s, fUnderflow ||| fInexact)
        else (f.signBit s + kept, fl)
      else
        let c := decide (kept = 2 ^ (f.w + 1))
        let k := if c then 2 ^ f.w else kept
        let qq := if c then q + 1 else q
        (f.signBit s + (qq + f.w + f.bias).toNat * 2 ^ f.w + (k - 2 ^ f.w), fl)

/-! ## NaN rules (09 R135) -/

/-- A NaN operand made quiet in the format `dst`, widened from `src` if needed. -/
def quietNan (src dst : FFmt) (s : Bool) (m : Nat) : Nat :=
  if dst.top = .ieee then
    dst.signBit s + (2 ^ dst.x - 1) * 2 ^ dst.w + ((m * 2 ^ (dst.w - src.w)) ||| 2 ^ (dst.w - 1))
  else dst.signBit s + dst.defaultNan

/-- The first NaN of the operands, if there is one, and the Invalid flag that a signalling NaN sets. -/
def nanOf (src dst : FFmt) : List FVal → Option Nat
  | [] => none
  | .nan s _ m :: _ => some (quietNan src dst s m)
  | _ :: t => nanOf src dst t

def snanFlag (xs : List FVal) : FFlags :=
  if xs.any (fun x => match x with | .nan _ q _ => !q | _ => false) then fInvalid else 0

def FVal.sign : FVal → Bool
  | .nan s _ _ => s
  | .inf s => s
  | .fin s _ _ => s

def FVal.neg : FVal → FVal
  | .nan s q m => .nan s q m
  | .inf s => .inf (!s)
  | .fin s m e => .fin (!s) m e

/-! ## Exact sums and products -/

/-- A signed exact value `z · 2^e`. -/
def exactSum (xs : List (Bool × Nat × Int)) : Int × Int :=
  let e0 := xs.foldl (fun a x => min a x.2.2) 0
  (xs.foldl (fun a x => let v : Int := (x.2.1 : Int) * 2 ^ (x.2.2 - e0).toNat; if x.1 then a - v else a + v) 0, e0)

/-- The product of two values that are not NaN; none for 0 · ∞. -/
def mulVal : FVal → FVal → Option FVal
  | .inf s, .inf t => some (.inf (s ^^ t))
  | .inf s, .fin t m _ => if m = 0 then none else some (.inf (s ^^ t))
  | .fin s m _, .inf t => if m = 0 then none else some (.inf (s ^^ t))
  | .fin s m e, .fin t n k => some (.fin (s ^^ t) (m * n) (e + k))
  | .nan .., _ => none
  | _, .nan .. => none

/-- The rounded sum of terms none of which is NaN: opposite infinities are invalid, an exact zero sum of terms with
opposite signs is +0, or −0 toward −∞ (09 R135). -/
def sumVals (f : FFmt) (env : FEnv) (xs : List FVal) : Nat × FFlags :=
  let infP := xs.any fun x => x == .inf false
  let infN := xs.any fun x => x == .inf true
  if infP ∧ infN then (f.defaultNan, fInvalid)
  else if infP then (f.infBits false, 0)
  else if infN then (f.infBits true, 0)
  else
    let ts := xs.filterMap fun x => match x with | .fin s m e => some (s, m, e) | _ => none
    let (z, e) := exactSum ts
    if z = 0 then
      if ts.all (·.1) then (f.zero true, 0)
      else if ts.all (fun t => !t.1) then (f.zero false, 0)
      else (f.zero (env.mode = .down), 0)
    else roundTo f env false (z < 0) z.natAbs e

/-- a + b. -/
def fAdd (f : FFmt) (env : FEnv) (a b : Nat) : Nat × FFlags :=
  let x := f.input env a; let y := f.input env b
  match nanOf f f [x, y] with
  | some n => (n, snanFlag [x, y])
  | none => sumVals f env [x, y]

/-- a − b. -/
def fSub (f : FFmt) (env : FEnv) (a b : Nat) : Nat × FFlags :=
  let x := f.input env a; let y := f.input env b
  match nanOf f f [x, y] with
  | some n => (n, snanFlag [x, y])
  | none => sumVals f env [x, y.neg]

/-- a · b. -/
def fMul (f : FFmt) (env : FEnv) (a b : Nat) : Nat × FFlags :=
  let x := f.input env a; let y := f.input env b
  match nanOf f f [x, y] with
  | some n => (n, snanFlag [x, y])
  | none =>
    match mulVal x y with
    | none => (f.defaultNan, fInvalid)
    | some (.fin s m e) => roundTo f env false s m e
    | some v => (f.infBits v.sign, 0)

/-- ±(a · b) ± c, one rounding (13 R194). -/
def fFma (f : FFmt) (env : FEnv) (np nc : Bool) (a b c : Nat) : Nat × FFlags :=
  let x := f.input env a; let y := f.input env b; let z := f.input env c
  let isNan : FVal → Bool := fun v => match v with | .nan .. => true | _ => false
  let bad : FFlags := if !isNan x && !isNan y && (mulVal x y).isNone then fInvalid else 0
  match nanOf f f [x, y, z] with
  | some n => (if decide (bad = fInvalid) && (match z with | .nan _ q _ => !q | _ => true) then f.defaultNan else n,
      bad ||| snanFlag [x, y, z])
  | none =>
    match mulVal x y with
    | none => (f.defaultNan, fInvalid)
    | some v => sumVals f env [if np then v.neg else v, if nc then z.neg else z]

/-- a / b (13 R195). -/
def fDiv (f : FFmt) (env : FEnv) (a b : Nat) : Nat × FFlags :=
  let x := f.input env a; let y := f.input env b
  match nanOf f f [x, y] with
  | some n => (n, snanFlag [x, y])
  | none =>
    let s := x.sign ^^ y.sign
    match x, y with
    | .inf _, .inf _ => (f.defaultNan, fInvalid)
    | .inf _, _ => (f.infBits s, 0)
    | _, .inf _ => (f.zero s, 0)
    | .fin _ m e, .fin _ n k =>
      if n = 0 then (if m = 0 then (f.defaultNan, fInvalid) else (f.infBits s, fDivZero))
      else if m = 0 then (f.zero s, 0)
      else
        let n100 : Nat := m * 2 ^ (100 : Nat)
        roundTo f env false s (n100 / n) (e - k - 100) (n100 % n ≠ 0)
    | _, _ => (f.defaultNan, fInvalid)

/-- √a (13 R195): −0 gives −0. -/
def fSqrt (f : FFmt) (env : FEnv) (a : Nat) : Nat × FFlags :=
  let x := f.input env a
  match nanOf f f [x] with
  | some n => (n, snanFlag [x])
  | none =>
    match x with
    | .inf false => (f.infBits false, 0)
    | .fin s m e =>
      if m = 0 then (f.zero s, 0)
      else if s then (f.defaultNan, fInvalid)
      else
        let odd := e % 2 ≠ 0
        let m2 := (if odd then m * 2 else m) * 2 ^ 100
        let e2 : Int := (if odd then e - 1 else e) - 100
        let r := Nat.sqrt m2
        roundTo f env false false r (e2 / 2) (r * r ≠ m2)
    | _ => (f.defaultNan, fInvalid)

/-- Compare two values that are not NaN; zeros are equal. -/
def cmpVal (x y : FVal) : Ordering :=
  let key : FVal → Int × Int := fun v => match v with
    | .inf s => (if s then -1 else 1, 0)
    | .fin s m e => (0, if s then -((m : Int) * 2 ^ (e + 2000).toNat) else (m : Int) * 2 ^ (e + 2000).toNat)
    | .nan .. => (0, 0)
  let a := key x; let b := key y
  if a.1 < b.1 then .lt else if b.1 < a.1 then .gt
  else if a.1 ≠ 0 then .eq
  else if a.2 < b.2 then .lt else if b.2 < a.2 then .gt else .eq

/-- The smaller or larger of two values, −0 < +0 (13 Table 13-2); NaN operands under R135. -/
def fMinMax (f : FFmt) (env : FEnv) (wantMax : Bool) (a b : Nat) : Nat × FFlags :=
  let x := f.input env a; let y := f.input env b
  let out : Nat → Nat := f.inputBits env
  match nanOf f f [x, y] with
  | some n => (n, snanFlag [x, y])
  | none =>
    let less : Bool := match cmpVal x y with
      | .lt => true
      | .gt => false
      | .eq => x.sign || !y.sign
    (if less = wantMax then out b else out a, 0)

/-- 13 R197 on float lanes: the condition's value and the flags. -/
def fCmp (f : FFmt) (env : FEnv) (cc : VCond) (a b : Nat) : Bool × FFlags :=
  let x := f.input env a; let y := f.input env b
  let isNan : FVal → Bool := fun v => match v with | .nan .. => true | _ => false
  if isNan x || isNan y then
    let quietBad : Bool := match cc with | .lt | .ge | .le | .gt => true | _ => false
    (decide (cc = .ne ∨ cc = .un), snanFlag [x, y] ||| if quietBad then fInvalid else 0)
  else
    let o := cmpVal x y
    ((match cc with
      | .eq => o == .eq
      | .ne => o != .eq
      | .lt => o == .lt
      | .ge => o != .lt
      | .le => o != .gt
      | .gt => o == .gt
      | _ => false), 0)

/-- VDOT on float sources: d + a₀·b₀ + a₁·b₁ rounded once to .f32 (13 R196). -/
def fDot2 (src : FFmt) (env : FEnv) (d a0 b0 a1 b1 : Nat) : Nat × FFlags :=
  let vd := fmtF32.input env d
  let va0 := src.input env a0; let vb0 := src.input env b0
  let va1 := src.input env a1; let vb1 := src.input env b1
  let isNan : FVal → Bool := fun v => match v with | .nan .. => true | _ => false
  let bad : FVal → FVal → Bool := fun x y => !isNan x && !isNan y && (mulVal x y).isNone
  let inv : FFlags := if bad va0 vb0 || bad va1 vb1 then fInvalid else 0
  let fl := inv ||| snanFlag [vd, va0, vb0, va1, vb1]
  match (nanOf fmtF32 fmtF32 [vd]).or (nanOf src fmtF32 [va0, vb0, va1, vb1]) with
  | some n => (n, fl)
  | none =>
    match mulVal va0 vb0, mulVal va1 vb1 with
    | some p, some q => sumVals fmtF32 env [vd, p, q]
    | _, _ => (fmtF32.defaultNan, fInvalid)

/-! ## Conversions (09 R130–R133) -/

/-- The bounds of an integer format (09 Table 9-1); .t2 holds −1 to +1 (R131). -/
def Ty.intRange : Ty → Option (Int × Int)
  | .s4 => some (-8, 7)
  | .s8 => some (-128, 127)
  | .s16 => some (-2 ^ 15, 2 ^ 15 - 1)
  | .s32 => some (-2 ^ 31, 2 ^ 31 - 1)
  | .s64 => some (-2 ^ 63, 2 ^ 63 - 1)
  | .z8 => some (0, 2 ^ 8 - 1)
  | .z16 => some (0, 2 ^ 16 - 1)
  | .z32 => some (0, 2 ^ 32 - 1)
  | .z64 => some (0, 2 ^ 64 - 1)
  | .t2 => some (-1, 1)
  | _ => none

/-- An integer element's value, and whether it is the .t2 code 0b10 (09 R121). -/
def intValue (t : Ty) (bits : Nat) : Int × Bool :=
  match t with
  | .t2 => if bits = 1 then (1, false) else if bits = 3 then (-1, false) else (0, bits = 2)
  | .z8 | .z16 | .z32 | .z64 => (bits, false)
  | _ => (if 2 ^ (t.width - 1) ≤ bits then (bits : Int) - 2 ^ t.width else bits, false)

/-- The encoding of an integer within or without its range: the low bits. -/
def intBits (t : Ty) (v : Int) : Nat := (v % 2 ^ t.width).toNat

/-- The value of any element, with the format-error flag of .t2. -/
def anyValue (t : Ty) (env : FEnv) (bits : Nat) : FVal × FFlags :=
  match Ty.fmt? t with
  | some f => (f.input env bits, 0)
  | none =>
    let (v, err) := intValue t bits
    (.fin (v < 0) v.natAbs 0, if err then fFmtErr else 0)

/-- Convert one element (09 R130–R133). `eb` is the scale operand's exponent byte. FlushOut acts on every result, that of a
widening .bf16 to .f32 among them, which R130 calls exact: a subnormal result is flushed with its flags as R129 says
(DESIGN CHOICE, log 83). An integer conversion that changes the signedness without narrowing keeps the low bits (log entry 102);
out of a narrow integer format, a value out of range is clamped with Invalid (log entry 103). -/
def convert (env : FEnv) (src dst : Ty) (eb : Nat) (bits : Nat) : Nat × FFlags :=
  let narrow := src.isNarrow || dst.isNarrow
  let (v, fl0) := anyValue src env bits
  if narrow ∧ eb = 0xFF then
    ((match Ty.fmt? dst with | some f => f.defaultNan | none => 0),
      fl0 ||| fNanScale ||| snanFlag [v])
  else
    let sc : Int := if dst.isNarrow then 127 - eb else if src.isNarrow then (eb : Int) - 127 else 0
    let satActs := decide (dst.width < src.width) || dst.isNarrow
    match Ty.fmt? dst with
    | some f =>
      match v with
      | .nan s q _ =>
        if f.hasNan then (f.signBit s ||| f.defaultNan, fl0 ||| if q then 0 else fInvalid)
        else (0, fl0 ||| fInvalid)
      | .inf s =>
        if f.top = .ieee then (f.infBits s, fl0)
        else if f.top = .nanOnly ∧ ¬env.sat then (f.infBits s, fl0)
        else (f.maxBits s, fl0 ||| fNarSat)
      | .fin s m e =>
        let (r, fl) := roundTo f env satActs s m (e + sc)
        (r, fl0 ||| fl)
    | none =>
      match Ty.intRange dst with
      | none => (0, fl0)
      | some (lo, hi) =>
        let small := decide (dst = .s8 ∨ dst = .s4 ∨ dst = .t2)
        match v with
        | .nan .. => (0, fl0 ||| fInvalid)
        | .inf s => (intBits dst (if s then lo else hi), fl0 ||| if small then fNarSat else fInvalid)
        | .fin s m e =>
          if Ty.fmt? src = none ∧ ¬narrow then
            let z : Int := if s then -(m : Int) else m
            if dst.width < src.width ∧ env.sat then
              if z < lo then (intBits dst lo, fl0 ||| fNarSat)
              else if hi < z then (intBits dst hi, fl0 ||| fNarSat) else (intBits dst z, fl0)
            else (intBits dst z, fl0)
          else
            let (k, inex) := roundAt env.mode s m (e + sc) 0
            let z : Int := if s then -(k : Int) else k
            let fl := fl0 ||| if inex then fInexact else 0
            if z < lo then (intBits dst lo, fl ||| if small then fNarSat else fInvalid)
            else if hi < z then (intBits dst hi, fl ||| if small then fNarSat else fInvalid)
            else (intBits dst z, fl)

end Sys2Proof.Machine
end

