-- ==== Sys2Proof/Config.lean ====
section
/-! DEFINITION. What the manual leaves open, as constants with no body: nothing in Lean can evaluate them, so a
statement about them holds whatever they are. -/
namespace Sys2Proof

/-- A latency the manual does not give (03 R33, 16 "values of this run"), in core cycles; log entry 10. -/
opaque Config.freeDelay : Nat → Nat

/-- A choice the manual leaves to the device (19 R319, 13 R207, 17 R297, cache replacement); log entry 11. -/
opaque Config.freeChoice : Nat → Nat

/-- A word the manual names without giving its bits (syndromes, state words, the identity word); log entry 12. -/
opaque Config.freeWord : Nat → BitVec 64

/-- The three words of a failed router's record that list the messages it held, from what each message is and whose (21
Table 21-11 gives no layout); log entry 87. -/
opaque Config.heldMessages : List (Nat × BitVec 64) → Nat → BitVec 64

/-- SHAKE256 (25 R378, FIPS 202), 32 bytes of output; log entry 13. -/
opaque Config.shake256 : List Byte → BitVec 256

/-- Verification of an ML-DSA-65 signature (25 R378, FIPS 204): digest, public key, signature; log entry 13. -/
opaque Config.mldsaVerify : BitVec 256 → List Byte → List Byte → Bool

/-- The identity key that is derived from the fused secret (25 R377); log entry 93. -/
opaque Config.identityKey : BitVec 256

/-- An ML-DSA-65 signature by an identity key over a digest (25 R379); log entry 13. -/
opaque Config.mldsaSign : BitVec 256 → BitVec 256 → List Byte

/-- How a firmware image divides into its version, public key, signature and signed bytes (25 R378 gives no layout); log entry 13. -/
opaque Config.imageParts : List Byte → Nat × List Byte × List Byte × List Byte

/-- The SECDED code over bits 95:8 of a directory entry (23 Table 23-3); log entry 12. -/
opaque Config.secded : BitVec 88 → BitVec 8

/-- The dies that another package of the domain has (23 R348 speaks of its present dies), by die; log entry 47. -/
opaque Config.peerDies : BitVec 5 → BitVec 8

/-- The CRC-16 of a Milhan flit (23 Table 23-6 gives no polynomial); log entry 12. -/
opaque Config.crc16 : List Byte → BitVec 16

/-- Flits of a class that a receiver of a Milhan link has room for at first (23 R361 gives no number); log entry 89. -/
opaque Config.linkCredits : Nat

/-- Wakes that the inbound wake buffer of a core holds (03 R52 gives no number), beside the first; log entry 90. -/
opaque Config.wakeBuffer : Nat

end Sys2Proof
end

