-- ==== Sys2Proof/Decode.lean ====
section
/-! DEFINITION. Decoding an instruction from the bytes of its fetch block (07 R95–R112), total on any bytes, and the
encoder written from the same tables. -/
namespace Sys2Proof

/-- The four formats (07 Tables 7-3 to 7-5). -/
inductive Fmt where
  | a | i | w | e
deriving DecidableEq, Repr

/-- Bytes of an instruction of the format. -/
def Fmt.bytes : Fmt → Nat
  | .a | .i => 8
  | .w => 12
  | .e => 16

/-- Length code L (07 Table 7-1). -/
def Fmt.code : Fmt → BitVec 2
  | .a | .i => 1
  | .w => 2
  | .e => 3

/-- The fields of an instruction word, whatever its format: a field the format lacks is zero. Format I holds its
four-bit F in `f`; `imm` holds imm32 (zero-extended here), imm64, or E1–E3 and E.flags. -/
structure Enc where
  op : BitVec 8 := 0
  q : BitVec 4 := 0
  p : BitVec 4 := 0
  d : BitVec 5 := 0
  a : BitVec 5 := 0
  b : BitVec 5 := 0
  f : BitVec 8 := 0
  c : BitVec 5 := 0
  ty : BitVec 6 := 0
  scope : BitVec 3 := 0
  order : BitVec 2 := 0
  flags : BitVec 7 := 0
  imm : BitVec 64 := 0
deriving DecidableEq, Repr

/-- The word of the fields, first doubleword low (07 Tables 7-2 to 7-5). -/
def pack (k : Fmt) (e : Enc) : BitVec 128 :=
  let head : BitVec 28 := e.a ++ e.d ++ e.p ++ e.q ++ e.op ++ k.code
  let mid : BitVec 36 := e.flags ++ e.order ++ e.scope ++ e.ty ++ e.c ++ e.f ++ e.b
  match k with
  | .a => (0 : BitVec 64) ++ (mid ++ head)
  | .w => (0 : BitVec 32) ++ e.imm.setWidth 32 ++ (mid ++ head)
  | .e => e.imm ++ (mid ++ head)
  | .i => (0 : BitVec 64) ++ (e.imm.setWidth 32 ++ (e.f.setWidth 4 ++ head))

/-- The fields of a word in the format. -/
def unpack (k : Fmt) (w : BitVec 128) : Enc :=
  let h : Enc :=
    { op := w.extractLsb' 2 8, q := w.extractLsb' 10 4, p := w.extractLsb' 14 4, d := w.extractLsb' 18 5,
      a := w.extractLsb' 23 5 }
  let m : Enc :=
    { h with b := w.extractLsb' 28 5, f := w.extractLsb' 33 8, c := w.extractLsb' 41 5, ty := w.extractLsb' 46 6,
             scope := w.extractLsb' 52 3, order := w.extractLsb' 55 2, flags := w.extractLsb' 57 7 }
  match k with
  | .a => m
  | .w => { m with imm := (w.extractLsb' 64 32).setWidth 64 }
  | .e => { m with imm := w.extractLsb' 64 64 }
  | .i => { h with f := (w.extractLsb' 28 4).setWidth 8, imm := (w.extractLsb' 32 32).setWidth 64 }

/-- Continue with a minor code, or answer reason 2 (07 R111). -/
def minor? {α : Type} (o : Option α) (k : α → Except Nat Instr) : Except Nat Instr :=
  match o with
  | some x => k x
  | none => .error 2

/-- Continue with a field value, or answer reason 3 (07 R99, R105). -/
def field? {α : Type} (o : Option α) (k : α → Except Nat Instr) : Except Nat Instr :=
  match o with
  | some x => k x
  | none => .error 3

/-! ## Codes of the syntax's small types -/

/-- 11 Table 11-2. -/
def Cond.code : Cond → BitVec 8
  | .eq => 0 | .ne => 1 | .lt => 2 | .ge => 3 | .ltu => 4 | .geu => 5 | .le => 6 | .gt => 7 | .leu => 8 | .gtu => 9
def Cond.ofCode? : BitVec 8 → Option Cond
  | 0#8 => some .eq | 1#8 => some .ne | 2#8 => some .lt | 3#8 => some .ge | 4#8 => some .ltu
  | 5#8 => some .geu | 6#8 => some .le | 7#8 => some .gt | 8#8 => some .leu | 9#8 => some .gtu
  | _ => none
/-- 11 Table 11-2 and 13 R197. -/
def VCond.code : VCond → BitVec 8
  | .eq => 0 | .ne => 1 | .lt => 2 | .ge => 3 | .ltu => 4 | .geu => 5 | .le => 6 | .gt => 7 | .leu => 8 | .gtu => 9
  | .un => 10
def VCond.ofCode? : BitVec 8 → Option VCond
  | 0#8 => some .eq | 1#8 => some .ne | 2#8 => some .lt | 3#8 => some .ge | 4#8 => some .ltu
  | 5#8 => some .geu | 6#8 => some .le | 7#8 => some .gt | 8#8 => some .leu | 9#8 => some .gtu
  | 10#8 => some .un
  | _ => none
/-- X.type of BRC and CMP (11 R152). -/
def CmpW.code : CmpW → BitVec 6
  | .x64 => 0 | .s32 => 3
def CmpW.ofCode? : BitVec 6 → Option CmpW
  | 0#6 => some .x64 | 3#6 => some .s32 | _ => none
/-- X.type of ALU and DIV (11 R154, R157). -/
def IntW.code : IntW → BitVec 6
  | .x64 => 0 | .s32 => 3 | .z32 => 7
def IntW.ofCode? : BitVec 6 → Option IntW
  | 0#6 => some .x64 | 3#6 => some .s32 | 7#6 => some .z32 | _ => none
/-- X.flags[58:57] of CMP (11 R163). -/
def Combine.code : Combine → BitVec 7
  | .none => 0 | .and => 1 | .or => 2
def Combine.ofCode? : BitVec 7 → Option Combine
  | 0#7 => some .none | 1#7 => some .and | 2#7 => some .or | _ => none
/-- 11 Table 11-13. -/
def Sz.code : Sz → BitVec 8
  | .b => 0 | .h => 1 | .w => 2 | .d => 3 | .bs => 4 | .hs => 5 | .ws => 6
def Sz.ofCode? : BitVec 8 → Option Sz
  | 0#8 => some .b | 1#8 => some .h | 2#8 => some .w | 3#8 => some .d
  | 4#8 => some .bs | 5#8 => some .hs | 6#8 => some .ws | _ => none
def StSz.code : StSz → BitVec 8
  | .b => 0 | .h => 1 | .w => 2 | .d => 3
def StSz.ofCode? : BitVec 8 → Option StSz
  | 0#8 => some .b | 1#8 => some .h | 2#8 => some .w | 3#8 => some .d | _ => none
/-- 11 R182: the store sizes and 0x8. -/
def PostSz.code : PostSz → BitVec 8
  | .b => 0 | .h => 1 | .w => 2 | .d => 3 | .g => 8
def PostSz.ofCode? : BitVec 8 → Option PostSz
  | 0#8 => some .b | 1#8 => some .h | 2#8 => some .w | 3#8 => some .d | 8#8 => some .g | _ => none
/-- 07 Table 7-7. -/
def Ty.code : Ty → BitVec 6
  | .s8 => 1 | .s16 => 2 | .s32 => 3 | .s64 => 4 | .z8 => 5 | .z16 => 6 | .z32 => 7 | .z64 => 8
  | .f32 => 0x10 | .f16 => 0x11 | .bf16 => 0x12 | .e4m3 => 0x13 | .e5m2 => 0x14 | .e3m2 => 0x15
  | .e2m3 => 0x16 | .e2m1 => 0x17 | .s4 => 0x18 | .t2 => 0x19
def Ty.ofCode? : BitVec 6 → Option Ty
  | 1#6 => some .s8 | 2#6 => some .s16 | 3#6 => some .s32 | 4#6 => some .s64
  | 5#6 => some .z8 | 6#6 => some .z16 | 7#6 => some .z32 | 8#6 => some .z64
  | 0x10#6 => some .f32 | 0x11#6 => some .f16 | 0x12#6 => some .bf16 | 0x13#6 => some .e4m3
  | 0x14#6 => some .e5m2 | 0x15#6 => some .e3m2 | 0x16#6 => some .e2m3 | 0x17#6 => some .e2m1
  | 0x18#6 => some .s4 | 0x19#6 => some .t2 | _ => none
/-- E.flags of a copy instruction: Bar bit 79, Barrier 81:80, Queue 83:82 (13 R223), with E1–E3 below them. -/
def copyImm (o : CopyOpt) (e1 e2 e3 : G) : BitVec 64 :=
  (0#44 ++ o.queue ++ o.barrier ++ BitVec.ofBool o.bar ++ e3 ++ e2 ++ e1)
def copyOptOf (imm : BitVec 64) : CopyOpt :=
  { bar := imm.getLsbD 15, barrier := imm.extractLsb' 16 2, queue := imm.extractLsb' 18 2 }

/-! ## The opcode map -/

/-- The format of each major (07 Table 7-11); none for a reserved major or the emulation space. -/
def fmtOf : BitVec 8 → Option Fmt
  | 0x02#8 | 0x04#8 | 0x05#8 | 0x10#8 | 0x12#8 | 0x13#8 | 0x14#8 | 0x15#8 | 0x17#8 | 0x18#8 | 0x30#8 | 0x32#8 | 0x33#8 | 0x38#8 | 0x39#8 | 0x3A#8 | 0x41#8 | 0x43#8 | 0x4A#8 | 0x50#8 | 0x51#8 | 0x52#8 | 0x53#8 | 0x60#8 | 0x61#8 | 0x62#8 | 0x63#8 | 0x64#8 | 0x65#8 | 0x66#8 | 0x67#8 | 0x68#8 | 0x69#8 | 0x6A#8 | 0x6B#8 | 0x6C#8 | 0x72#8 | 0x73#8 | 0x74#8 | 0x75#8 | 0x83#8 | 0x84#8 | 0x86#8 | 0x87#8 | 0x88#8 | 0x89#8 | 0x8A#8 | 0x8B#8 | 0x90#8 | 0x91#8 | 0x92#8 | 0x94#8 | 0x95#8 | 0x96#8 | 0x97#8 | 0xA0#8 | 0xA1#8 | 0xA2#8 | 0xA3#8 | 0xA4#8 | 0xA5#8 | 0xB0#8 | 0xB1#8 | 0xB2#8 | 0xB3#8 | 0xB4#8 | 0xB5#8 | 0xB6#8 | 0xB7#8 | 0xB8#8 | 0xB9#8 | 0xBA#8 | 0xBB#8 | 0xC1#8 | 0xC2#8 | 0xC3#8 | 0xC4#8 | 0xC5#8 | 0xC6#8 | 0xC7#8 | 0xC8#8 | 0xC9#8 | 0xCA#8 | 0xCB#8 | 0xCC#8 | 0xCD#8 | 0xCE#8 | 0xCF#8 => some .a
  | 0x00#8 | 0x01#8 | 0x03#8 | 0x11#8 | 0x31#8 | 0x40#8 | 0x42#8 | 0x44#8 | 0x45#8 | 0x46#8 | 0x47#8 | 0x48#8 | 0x49#8 | 0x4B#8 | 0x70#8 | 0x71#8 | 0x76#8 | 0x77#8 | 0xC0#8 => some .i
  | 0x06#8 | 0x85#8 => some .w
  | 0x16#8 | 0x80#8 | 0x81#8 | 0x82#8 => some .e
  | _ => none

/-! ## The encoder's fields -/

/-- The fields of an instruction word, each in the place its description gives it; every other field is zero (07 R99). An event has no word: its opcode 0xFF is reserved. -/
def fieldsOf : Instr → Enc
  | .nop p imm =>
      { op := 0x00, p := p, imm := imm.setWidth 64 }
  | .bra p off =>
      { op := 0x01, p := p, imm := off.setWidth 64 }
  | .jmp p a =>
      { op := 0x02, p := p, a := a }
  | .call p off =>
      { op := 0x03, p := p, imm := off.setWidth 64 }
  | .callr p a =>
      { op := 0x04, p := p, a := a }
  | .ret p a =>
      { op := 0x05, p := p, a := a }
  | .brc p cc w a b off =>
      { op := 0x06, p := p, a := a, b := b, f := cc.code, ty := w.code, imm := off.setWidth 64 }
  | .aluAdd p w d a b =>
      { op := 0x10, p := p, d := d, a := a, b := b, ty := w.code }
  | .aluSub p w d a b =>
      { op := 0x10, p := p, f := 0x01, d := d, a := a, b := b, ty := w.code }
  | .aluAnd p w d a b =>
      { op := 0x10, p := p, f := 0x02, d := d, a := a, b := b, ty := w.code }
  | .aluOr p w d a b =>
      { op := 0x10, p := p, f := 0x03, d := d, a := a, b := b, ty := w.code }
  | .aluXor p w d a b =>
      { op := 0x10, p := p, f := 0x04, d := d, a := a, b := b, ty := w.code }
  | .aluAndn p w d a b =>
      { op := 0x10, p := p, f := 0x05, d := d, a := a, b := b, ty := w.code }
  | .aluOrn p w d a b =>
      { op := 0x10, p := p, f := 0x06, d := d, a := a, b := b, ty := w.code }
  | .aluXnor p w d a b =>
      { op := 0x10, p := p, f := 0x07, d := d, a := a, b := b, ty := w.code }
  | .aluMin p w d a b =>
      { op := 0x10, p := p, f := 0x08, d := d, a := a, b := b, ty := w.code }
  | .aluMax p w d a b =>
      { op := 0x10, p := p, f := 0x09, d := d, a := a, b := b, ty := w.code }
  | .aluMinu p w d a b =>
      { op := 0x10, p := p, f := 0x0A, d := d, a := a, b := b, ty := w.code }
  | .aluMaxu p w d a b =>
      { op := 0x10, p := p, f := 0x0B, d := d, a := a, b := b, ty := w.code }
  | .aluAdds p w d a b =>
      { op := 0x10, p := p, f := 0x0C, d := d, a := a, b := b, ty := w.code }
  | .aluSubs p w d a b =>
      { op := 0x10, p := p, f := 0x0D, d := d, a := a, b := b, ty := w.code }
  | .aluAddsu p w d a b =>
      { op := 0x10, p := p, f := 0x0E, d := d, a := a, b := b, ty := w.code }
  | .aluSubsu p w d a b =>
      { op := 0x10, p := p, f := 0x0F, d := d, a := a, b := b, ty := w.code }
  | .aluMov p w d a =>
      { op := 0x10, p := p, f := 0x10, d := d, a := a, ty := w.code }
  | .aluNeg p w d a =>
      { op := 0x10, p := p, f := 0x11, d := d, a := a, ty := w.code }
  | .aluNot p w d a =>
      { op := 0x10, p := p, f := 0x12, d := d, a := a, ty := w.code }
  | .addi p d a imm =>
      { op := 0x11, p := p, d := d, a := a, imm := imm.setWidth 64 }
  | .andi p d a imm =>
      { op := 0x11, p := p, f := 0x01, d := d, a := a, imm := imm.setWidth 64 }
  | .ori p d a imm =>
      { op := 0x11, p := p, f := 0x02, d := d, a := a, imm := imm.setWidth 64 }
  | .xori p d a imm =>
      { op := 0x11, p := p, f := 0x03, d := d, a := a, imm := imm.setWidth 64 }
  | .movi p d imm =>
      { op := 0x11, p := p, f := 0x04, d := d, imm := imm.setWidth 64 }
  | .movhi p d a imm =>
      { op := 0x11, p := p, f := 0x05, d := d, a := a, imm := imm.setWidth 64 }
  | .mulLo p d a b =>
      { op := 0x12, p := p, d := d, a := a, b := b }
  | .mulHi p d a b =>
      { op := 0x12, p := p, f := 0x01, d := d, a := a, b := b }
  | .mulHiu p d a b =>
      { op := 0x12, p := p, f := 0x02, d := d, a := a, b := b }
  | .mulMad p d a b c =>
      { op := 0x12, p := p, f := 0x03, d := d, a := a, b := b, c := c }
  | .divS p n w d a b =>
      { op := 0x13, p := p, q := n, d := d, a := a, b := b, ty := w.code }
  | .divU p n w d a b =>
      { op := 0x13, p := p, f := 0x01, q := n, d := d, a := a, b := b, ty := w.code }
  | .divRem p n w d a b =>
      { op := 0x13, p := p, f := 0x02, q := n, d := d, a := a, b := b, ty := w.code }
  | .divRemu p n w d a b =>
      { op := 0x13, p := p, f := 0x03, q := n, d := d, a := a, b := b, ty := w.code }
  | .bitsShl p d a b =>
      { op := 0x14, p := p, d := d, a := a, b := b }
  | .bitsShr p d a b =>
      { op := 0x14, p := p, f := 0x01, d := d, a := a, b := b }
  | .bitsSar p d a b =>
      { op := 0x14, p := p, f := 0x02, d := d, a := a, b := b }
  | .bitsRol p d a b =>
      { op := 0x14, p := p, f := 0x03, d := d, a := a, b := b }
  | .bitsRor p d a b =>
      { op := 0x14, p := p, f := 0x04, d := d, a := a, b := b }
  | .bitsShli p d a k =>
      { op := 0x14, p := p, f := 0x08, d := d, a := a, flags := 0#1 ++ k }
  | .bitsShri p d a k =>
      { op := 0x14, p := p, f := 0x09, d := d, a := a, flags := 0#1 ++ k }
  | .bitsSari p d a k =>
      { op := 0x14, p := p, f := 0x0A, d := d, a := a, flags := 0#1 ++ k }
  | .bitsRoli p d a k =>
      { op := 0x14, p := p, f := 0x0B, d := d, a := a, flags := 0#1 ++ k }
  | .bitsRori p d a k =>
      { op := 0x14, p := p, f := 0x0C, d := d, a := a, flags := 0#1 ++ k }
  | .bitsClz p d a =>
      { op := 0x14, p := p, f := 0x10, d := d, a := a }
  | .bitsCtz p d a =>
      { op := 0x14, p := p, f := 0x11, d := d, a := a }
  | .bitsPopc p d a =>
      { op := 0x14, p := p, f := 0x12, d := d, a := a }
  | .bitsBrev p d a =>
      { op := 0x14, p := p, f := 0x13, d := d, a := a }
  | .bitsBswap p d a =>
      { op := 0x14, p := p, f := 0x14, d := d, a := a }
  | .fieldExt p d a b =>
      { op := 0x15, p := p, d := d, a := a, b := b }
  | .fieldExts p d a b =>
      { op := 0x15, p := p, f := 0x01, d := d, a := a, b := b }
  | .fieldIns p d a b =>
      { op := 0x15, p := p, f := 0x02, d := d, a := a, b := b }
  | .fieldMask p d b =>
      { op := 0x15, p := p, f := 0x03, d := d, b := b }
  | .movw p d imm =>
      { op := 0x16, p := p, d := d, imm := imm }
  | .sel p d a b c =>
      { op := 0x17, p := p, d := d, a := a, b := b, c := c.setWidth 5 }
  | .lea p d a b k =>
      { op := 0x18, p := p, d := d, a := a, b := b, f := 0x00#5 ++ k }
  | .leaOff p d a b k =>
      { op := 0x18, p := p, d := d, a := a, b := b, f := 0x10#5 ++ k }
  | .cmp p cc w m d a b =>
      { op := 0x30, p := p, d := d.setWidth 5, a := a, b := b, f := cc.code, ty := w.code, flags := m.code }
  | .cmpi p cc d a imm =>
      { op := 0x31, p := p, d := d.setWidth 5, a := a, f := cc.code, imm := imm.setWidth 64 }
  | .plogAnd p d a b =>
      { op := 0x32, p := p, d := d.setWidth 5, a := a.setWidth 5, b := b.setWidth 5 }
  | .plogOr p d a b =>
      { op := 0x32, p := p, f := 0x01, d := d.setWidth 5, a := a.setWidth 5, b := b.setWidth 5 }
  | .plogXor p d a b =>
      { op := 0x32, p := p, f := 0x02, d := d.setWidth 5, a := a.setWidth 5, b := b.setWidth 5 }
  | .plogAndn p d a b =>
      { op := 0x32, p := p, f := 0x03, d := d.setWidth 5, a := a.setWidth 5, b := b.setWidth 5 }
  | .plogOrn p d a b =>
      { op := 0x32, p := p, f := 0x04, d := d.setWidth 5, a := a.setWidth 5, b := b.setWidth 5 }
  | .plogNand p d a b =>
      { op := 0x32, p := p, f := 0x05, d := d.setWidth 5, a := a.setWidth 5, b := b.setWidth 5 }
  | .plogNor p d a b =>
      { op := 0x32, p := p, f := 0x06, d := d.setWidth 5, a := a.setWidth 5, b := b.setWidth 5 }
  | .plogXnor p d a b =>
      { op := 0x32, p := p, f := 0x07, d := d.setWidth 5, a := a.setWidth 5, b := b.setWidth 5 }
  | .plogNot p d a =>
      { op := 0x32, p := p, f := 0x08, d := d.setWidth 5, a := a.setWidth 5 }
  | .pmovG2p p d a =>
      { op := 0x33, p := p, d := d.setWidth 5, a := a }
  | .pmovP2g p d a =>
      { op := 0x33, p := p, f := 0x01, d := d, a := a.setWidth 5 }
  | .pmovBc p d a =>
      { op := 0x33, p := p, f := 0x02, d := d.setWidth 5, a := a }
  | .coordTile p d a =>
      { op := 0x38, p := p, d := d, a := a }
  | .coordGroup p d a =>
      { op := 0x38, p := p, f := 0x01, d := d, a := a }
  | .coordSgrp p d a =>
      { op := 0x38, p := p, f := 0x02, d := d, a := a }
  | .coordDie p d a =>
      { op := 0x38, p := p, f := 0x03, d := d, a := a }
  | .coordPres p d a =>
      { op := 0x38, p := p, f := 0x10, d := d, a := a }
  | .coordHmap p d a =>
      { op := 0x38, p := p, f := 0x11, d := d, a := a }
  | .coordLocal p d a =>
      { op := 0x38, p := p, f := 0x12, d := d, a := a }
  | .mka p lvl rel d a b =>
      { op := 0x39, p := p, d := d, a := a, b := b, f := 0#5 ++ BitVec.ofBool rel ++ lvl }
  | .mkg p d a b =>
      { op := 0x3A, p := p, d := d, a := a, b := b }
  | .mkgOwn p d b =>
      { op := 0x3A, p := p, f := 0x01, d := d, b := b }
  | .ld p n sz d a disp =>
      { op := 0x40, p := p, q := n, d := d, a := a, f := sz.code, imm := disp.setWidth 64 }
  | .ldx p n sz sc d a b =>
      { op := 0x41, p := p, q := n, d := d, a := a, b := b, f := sz.code, flags := 0#6 ++ BitVec.ofBool sc }
  | .st p n sz d a disp =>
      { op := 0x42, p := p, q := n, d := d, a := a, f := sz.code, imm := disp.setWidth 64 }
  | .stx p n sz sc d a b =>
      { op := 0x43, p := p, q := n, d := d, a := a, b := b, f := sz.code, flags := 0#6 ++ BitVec.ofBool sc }
  | .ldm p n c d a disp =>
      { op := 0x44, p := p, q := n, d := d, a := a, imm := disp.setWidth 64, f := c.setWidth 8 }
  | .stm p n c d a disp =>
      { op := 0x45, p := p, q := n, d := d, a := a, imm := disp.setWidth 64, f := c.setWidth 8 }
  | .ldq p n d a disp =>
      { op := 0x46, p := p, q := n, d := d, a := a, imm := disp.setWidth 64 }
  | .ldtry p n sz d a disp =>
      { op := 0x47, p := p, q := n, d := d, a := a, f := sz.code, imm := disp.setWidth 64 }
  | .bwait p n d a disp =>
      { op := 0x48, p := p, q := n, d := d, a := a, imm := disp.setWidth 64 }
  | .clr p a disp =>
      { op := 0x49, p := p, a := a, imm := disp.setWidth 64 }
  | .clrn p a b =>
      { op := 0x4A, p := p, a := a, b := b }
  | .prefS p a disp =>
      { op := 0x4B, p := p, a := a, imm := disp.setWidth 64 }
  | .prefX p a disp =>
      { op := 0x4B, p := p, f := 0x01, a := a, imm := disp.setWidth 64 }
  | .aopSwap p n far ty scope order d a b =>
      { op := 0x50, p := p, q := n, d := d, a := a, b := b, ty := ty.code, scope := scope, order := order, flags := 0#6 ++ BitVec.ofBool far }
  | .aopAdd p n far ty scope order d a b =>
      { op := 0x50, p := p, f := 0x01, q := n, d := d, a := a, b := b, ty := ty.code, scope := scope, order := order, flags := 0#6 ++ BitVec.ofBool far }
  | .aopAnd p n far ty scope order d a b =>
      { op := 0x50, p := p, f := 0x02, q := n, d := d, a := a, b := b, ty := ty.code, scope := scope, order := order, flags := 0#6 ++ BitVec.ofBool far }
  | .aopOr p n far ty scope order d a b =>
      { op := 0x50, p := p, f := 0x03, q := n, d := d, a := a, b := b, ty := ty.code, scope := scope, order := order, flags := 0#6 ++ BitVec.ofBool far }
  | .aopXor p n far ty scope order d a b =>
      { op := 0x50, p := p, f := 0x04, q := n, d := d, a := a, b := b, ty := ty.code, scope := scope, order := order, flags := 0#6 ++ BitVec.ofBool far }
  | .aopMin p n far ty scope order d a b =>
      { op := 0x50, p := p, f := 0x05, q := n, d := d, a := a, b := b, ty := ty.code, scope := scope, order := order, flags := 0#6 ++ BitVec.ofBool far }
  | .aopMax p n far ty scope order d a b =>
      { op := 0x50, p := p, f := 0x06, q := n, d := d, a := a, b := b, ty := ty.code, scope := scope, order := order, flags := 0#6 ++ BitVec.ofBool far }
  | .acas p n far q ty scope order d a b c =>
      { op := 0x51, p := p, q := n, d := d, a := a, b := b, c := c, ty := ty.code, scope := scope, order := order, flags := 0#5 ++ BitVec.ofBool q ++ BitVec.ofBool far }
  | .redAdd p n ty scope order a b =>
      { op := 0x52, p := p, f := 0x01, q := n, a := a, b := b, ty := ty.code, scope := scope, order := order }
  | .redAnd p n ty scope order a b =>
      { op := 0x52, p := p, f := 0x02, q := n, a := a, b := b, ty := ty.code, scope := scope, order := order }
  | .redOr p n ty scope order a b =>
      { op := 0x52, p := p, f := 0x03, q := n, a := a, b := b, ty := ty.code, scope := scope, order := order }
  | .redXor p n ty scope order a b =>
      { op := 0x52, p := p, f := 0x04, q := n, a := a, b := b, ty := ty.code, scope := scope, order := order }
  | .redMin p n ty scope order a b =>
      { op := 0x52, p := p, f := 0x05, q := n, a := a, b := b, ty := ty.code, scope := scope, order := order }
  | .redMax p n ty scope order a b =>
      { op := 0x52, p := p, f := 0x06, q := n, a := a, b := b, ty := ty.code, scope := scope, order := order }
  | .post p n sz scope order a b =>
      { op := 0x53, p := p, q := n, a := a, b := b, f := sz.code, scope := scope, order := order }
  | .vopAdd p ty d a b =>
      { op := 0x60, p := p, f := 0x01, d := d.setWidth 5, a := a.setWidth 5, b := b.setWidth 5, ty := ty.code }
  | .vopSub p ty d a b =>
      { op := 0x60, p := p, f := 0x02, d := d.setWidth 5, a := a.setWidth 5, b := b.setWidth 5, ty := ty.code }
  | .vopMul p ty d a b =>
      { op := 0x60, p := p, f := 0x03, d := d.setWidth 5, a := a.setWidth 5, b := b.setWidth 5, ty := ty.code }
  | .vopMin p ty d a b =>
      { op := 0x60, p := p, f := 0x04, d := d.setWidth 5, a := a.setWidth 5, b := b.setWidth 5, ty := ty.code }
  | .vopMax p ty d a b =>
      { op := 0x60, p := p, f := 0x05, d := d.setWidth 5, a := a.setWidth 5, b := b.setWidth 5, ty := ty.code }
  | .vopAbs p ty d a =>
      { op := 0x60, p := p, f := 0x06, d := d.setWidth 5, a := a.setWidth 5, ty := ty.code }
  | .vopNeg p ty d a =>
      { op := 0x60, p := p, f := 0x07, d := d.setWidth 5, a := a.setWidth 5, ty := ty.code }
  | .vopAdds p ty d a b =>
      { op := 0x60, p := p, f := 0x08, d := d.setWidth 5, a := a.setWidth 5, b := b.setWidth 5, ty := ty.code }
  | .vopSubs p ty d a b =>
      { op := 0x60, p := p, f := 0x09, d := d.setWidth 5, a := a.setWidth 5, b := b.setWidth 5, ty := ty.code }
  | .vopAnd p ty d a b =>
      { op := 0x60, p := p, f := 0x0A, d := d.setWidth 5, a := a.setWidth 5, b := b.setWidth 5, ty := ty.code }
  | .vopOr p ty d a b =>
      { op := 0x60, p := p, f := 0x0B, d := d.setWidth 5, a := a.setWidth 5, b := b.setWidth 5, ty := ty.code }
  | .vopXor p ty d a b =>
      { op := 0x60, p := p, f := 0x0C, d := d.setWidth 5, a := a.setWidth 5, b := b.setWidth 5, ty := ty.code }
  | .vopAndn p ty d a b =>
      { op := 0x60, p := p, f := 0x0D, d := d.setWidth 5, a := a.setWidth 5, b := b.setWidth 5, ty := ty.code }
  | .vopShl p ty d a b =>
      { op := 0x60, p := p, f := 0x0E, d := d.setWidth 5, a := a.setWidth 5, b := b.setWidth 5, ty := ty.code }
  | .vopShr p ty d a b =>
      { op := 0x60, p := p, f := 0x0F, d := d.setWidth 5, a := a.setWidth 5, b := b.setWidth 5, ty := ty.code }
  | .vopSar p ty d a b =>
      { op := 0x60, p := p, f := 0x10, d := d.setWidth 5, a := a.setWidth 5, b := b.setWidth 5, ty := ty.code }
  | .vopMulhi p ty d a b =>
      { op := 0x60, p := p, f := 0x11, d := d.setWidth 5, a := a.setWidth 5, b := b.setWidth 5, ty := ty.code }
  | .vfma p ty d a b c =>
      { op := 0x61, p := p, d := d.setWidth 5, a := a.setWidth 5, b := b.setWidth 5, c := c.setWidth 5, ty := ty.code }
  | .vfmaFms p ty d a b c =>
      { op := 0x61, p := p, f := 0x01, d := d.setWidth 5, a := a.setWidth 5, b := b.setWidth 5, c := c.setWidth 5, ty := ty.code }
  | .vfmaFnma p ty d a b c =>
      { op := 0x61, p := p, f := 0x02, d := d.setWidth 5, a := a.setWidth 5, b := b.setWidth 5, c := c.setWidth 5, ty := ty.code }
  | .vfmaFnms p ty d a b c =>
      { op := 0x61, p := p, f := 0x03, d := d.setWidth 5, a := a.setWidth 5, b := b.setWidth 5, c := c.setWidth 5, ty := ty.code }
  | .vdiv p n ty d a b =>
      { op := 0x62, p := p, q := n, d := d.setWidth 5, a := a.setWidth 5, b := b.setWidth 5, ty := ty.code }
  | .vsqrt p n ty d a =>
      { op := 0x62, p := p, f := 0x01, q := n, d := d.setWidth 5, a := a.setWidth 5, ty := ty.code }
  | .vcmp p cc ty d a b =>
      { op := 0x63, p := p, d := d.setWidth 5, a := a.setWidth 5, b := b.setWidth 5, ty := ty.code, f := cc.code }
  | .vsel p ty d a b c =>
      { op := 0x64, p := p, d := d.setWidth 5, a := a.setWidth 5, b := b.setWidth 5, c := c.setWidth 5, ty := ty.code }
  | .vcvt p src j dst d a c =>
      { op := 0x65, p := p, q := j, d := d.setWidth 5, a := a.setWidth 5, c := c, ty := dst.code, f := src.code.setWidth 8 }
  | .vredAdd p ty d a =>
      { op := 0x66, p := p, d := d, a := a.setWidth 5, ty := ty.code }
  | .vredMin p ty d a =>
      { op := 0x66, p := p, f := 0x01, d := d, a := a.setWidth 5, ty := ty.code }
  | .vredMax p ty d a =>
      { op := 0x66, p := p, f := 0x02, d := d, a := a.setWidth 5, ty := ty.code }
  | .vredAnd p ty d a =>
      { op := 0x66, p := p, f := 0x03, d := d, a := a.setWidth 5, ty := ty.code }
  | .vredOr p ty d a =>
      { op := 0x66, p := p, f := 0x04, d := d, a := a.setWidth 5, ty := ty.code }
  | .vredXor p ty d a =>
      { op := 0x66, p := p, f := 0x05, d := d, a := a.setWidth 5, ty := ty.code }
  | .vperm p ty d a b c =>
      { op := 0x67, p := p, d := d.setWidth 5, a := a.setWidth 5, b := b.setWidth 5, c := c.setWidth 5, ty := ty.code }
  | .vbcast p ty d a =>
      { op := 0x68, p := p, d := d.setWidth 5, a := a, ty := ty.code }
  | .vbcastLane p ty d a idx =>
      { op := 0x68, p := p, f := 0x01, d := d.setWidth 5, a := a.setWidth 5, b := idx, ty := ty.code }
  | .vins p ty d a idx =>
      { op := 0x69, p := p, d := d.setWidth 5, a := a, b := idx, ty := ty.code }
  | .vext p ty d a idx =>
      { op := 0x6A, p := p, d := d, a := a.setWidth 5, b := idx, ty := ty.code }
  | .vdot p ty d a b =>
      { op := 0x6B, p := p, d := d.setWidth 5, a := a.setWidth 5, b := b.setWidth 5, ty := ty.code }
  | .vmov p ty d a =>
      { op := 0x6C, p := p, d := d.setWidth 5, a := a.setWidth 5, ty := ty.code }
  | .vmovZero p ty d =>
      { op := 0x6C, p := p, f := 0x01, d := d.setWidth 5, ty := ty.code }
  | .vld p n g d a disp =>
      { op := 0x70, p := p, q := n, d := d.setWidth 5, a := a, imm := disp.setWidth 64, f := (BitVec.ofBool g).setWidth 8 }
  | .vst p n g d a disp =>
      { op := 0x71, p := p, q := n, d := d.setWidth 5, a := a, imm := disp.setWidth 64, f := (BitVec.ofBool g).setWidth 8 }
  | .vlds p n ty d a b =>
      { op := 0x72, p := p, q := n, d := d.setWidth 5, a := a, b := b, ty := ty.code }
  | .vsts p n ty d a b =>
      { op := 0x73, p := p, q := n, d := d.setWidth 5, a := a, b := b, ty := ty.code }
  | .vgath p n ty sc d a b =>
      { op := 0x74, p := p, q := n, d := d.setWidth 5, a := a, b := b.setWidth 5, ty := ty.code, flags := 0#6 ++ BitVec.ofBool sc }
  | .vscat p n ty sc d a b =>
      { op := 0x75, p := p, q := n, d := d.setWidth 5, a := a, b := b.setWidth 5, ty := ty.code, flags := 0#6 ++ BitVec.ofBool sc }
  | .vldb p n d a disp =>
      { op := 0x76, p := p, q := n, d := d.setWidth 5, a := a, imm := disp.setWidth 64 }
  | .vstb p n d a disp =>
      { op := 0x77, p := p, q := n, d := d.setWidth 5, a := a, imm := disp.setWidth 64 }
  | .copy p o a b c =>
      { op := 0x80, p := p, a := a, b := b, c := c, imm := copyImm o 0 0 0 }
  | .copys p o a b c e1 e2 e3 =>
      { op := 0x81, p := p, a := a, b := b, c := c, imm := copyImm o e1 e2 e3 }
  | .copygG p o a b c e1 =>
      { op := 0x82, p := p, a := a, b := b, c := c, imm := copyImm o e1 0 0 }
  | .copygS p o a b c e1 =>
      { op := 0x82, p := p, f := 0x01, a := a, b := b, c := c, imm := copyImm o e1 0 0 }
  | .cbatchOpen p =>
      { op := 0x83, p := p }
  | .cbatchClose p =>
      { op := 0x83, p := p, f := 0x01 }
  | .cwait p mask =>
      { op := 0x84, p := p, flags := 0#3 ++ mask }
  | .cbinit p k count =>
      { op := 0x85, p := p, flags := 0#5 ++ k, imm := count.setWidth 64 }
  | .cbwait p k =>
      { op := 0x86, p := p, flags := 0#5 ++ k }
  | .cqf p a =>
      { op := 0x87, p := p, a := a }
  | .cstat p d =>
      { op := 0x88, p := p, d := d }
  | .cstatBar p k d =>
      { op := 0x88, p := p, f := 0x01, d := d, flags := 0#5 ++ k }
  | .tagl p d a =>
      { op := 0x89, p := p, d := d, a := a }
  | .taglG p d a b =>
      { op := 0x89, p := p, f := 0x01, d := d, a := a, b := b }
  | .tags p a b c =>
      { op := 0x8A, p := p, a := a, b := b, c := c }
  | .tagi p a =>
      { op := 0x8B, p := p, a := a }
  | .tagiAll p =>
      { op := 0x8B, p := p, f := 0x01 }
  | .tagiBlk p a =>
      { op := 0x8B, p := p, f := 0x02, a := a }
  | .mtask p q d a =>
      { op := 0x90, p := p, d := d, a := a, flags := 0#4 ++ q }
  | .mtqry p d a =>
      { op := 0x91, p := p, d := d, a := a }
  | .mtqryQ p d =>
      { op := 0x91, p := p, f := 0x01, d := d }
  | .mtcan p d a =>
      { op := 0x92, p := p, d := d, a := a }
  | .lyrinit p d a b =>
      { op := 0x94, p := p, d := d, a := a, b := b }
  | .lyrq p d a b =>
      { op := 0x95, p := p, d := d, a := a, b := b }
  | .lyrqX p d b =>
      { op := 0x95, p := p, f := 0x01, d := d, b := b }
  | .lyrqW p d b =>
      { op := 0x95, p := p, f := 0x02, d := d, b := b }
  | .lyrref p d a =>
      { op := 0x96, p := p, d := d, a := a }
  | .lyrdrop p d a =>
      { op := 0x97, p := p, d := d, a := a }
  | .fence p scope order =>
      { op := 0xA0, p := p, scope := scope, order := order }
  | .bar p k =>
      { op := 0xA1, p := p, flags := 0#5 ++ k }
  | .barComb p k a =>
      { op := 0xA1, p := p, f := 0x01, a := a, flags := 0#5 ++ k }
  | .trig p =>
      { op := 0xA2, p := p }
  | .waitl p host d a b =>
      { op := 0xA3, p := p, d := d, a := a, b := b, flags := 0#6 ++ BitVec.ofBool host }
  | .waitlDl p host d a b c =>
      { op := 0xA3, p := p, f := 0x01, d := d, a := a, b := b, c := c, flags := 0#6 ++ BitVec.ofBool host }
  | .sleep p d a =>
      { op := 0xA4, p := p, d := d, a := a }
  | .sleepM p d a =>
      { op := 0xA4, p := p, f := 0x01, d := d, a := a }
  | .yield p =>
      { op := 0xA5, p := p }
  | .spawn p pin a =>
      { op := 0xB0, p := p, a := a, flags := 0#6 ++ BitVec.ofBool pin }
  | .tpop p d =>
      { op := 0xB1, p := p, d := d }
  | .tstart p d a b c =>
      { op := 0xB2, p := p, d := d, a := a, b := b, c := c }
  | .treap p d a =>
      { op := 0xB3, p := p, d := d, a := a }
  | .texit p =>
      { op := 0xB4, p := p }
  | .rqpush p a b =>
      { op := 0xB5, p := p, a := a, b := b }
  | .rqpushCore p a b c =>
      { op := 0xB5, p := p, f := 0x01, a := a, b := b, c := c }
  | .rqpop p d =>
      { op := 0xB6, p := p, d := d }
  | .rqpopP p d a =>
      { op := 0xB6, p := p, f := 0x01, d := d, a := a }
  | .rqpopCnt p d =>
      { op := 0xB6, p := p, f := 0x02, d := d }
  | .preempt p d a b =>
      { op := 0xB7, p := p, d := d, a := a, b := b }
  | .preemptQ p d a =>
      { op := 0xB7, p := p, f := 0x01, d := d, a := a }
  | .evac p d a b =>
      { op := 0xB8, p := p, d := d, a := a, b := b }
  | .send p st en a b =>
      { op := 0xB9, p := p, a := a, b := (0#1 ++ b ++ 0#1), flags := 0#5 ++ BitVec.ofBool en ++ BitVec.ofBool st }
  | .recv p d c =>
      { op := 0xBA, p := p, d := (0#1 ++ d ++ 0#1), c := c }
  | .recvT p d c =>
      { op := 0xBA, p := p, f := 0x01, d := (0#1 ++ d ++ 0#1), c := c }
  | .timer p a =>
      { op := 0xBB, p := p, a := a }
  | .timerRel p a =>
      { op := 0xBB, p := p, f := 0x01, a := a }
  | .timerOff p =>
      { op := 0xBB, p := p, f := 0x02 }
  | .trap p code =>
      { op := 0xC0, p := p, imm := code.setWidth 64 }
  | .eret p =>
      { op := 0xC1, p := p }
  | .eretNext p =>
      { op := 0xC1, p := p, f := 0x01 }
  | .movsRead p d sr =>
      { op := 0xC2, p := p, d := d, flags := sr }
  | .movsWrite p sr a =>
      { op := 0xC2, p := p, f := 0x01, a := a, flags := sr }
  | .movcRead p d sr =>
      { op := 0xC3, p := p, d := d, flags := sr }
  | .movcWrite p sr a =>
      { op := 0xC3, p := p, f := 0x01, a := a, flags := sr }
  | .tlbiVa p a b =>
      { op := 0xC4, p := p, a := a, b := b }
  | .tlbiAsid p b =>
      { op := 0xC4, p := p, f := 0x01, b := b }
  | .tlbiAll p =>
      { op := 0xC4, p := p, f := 0x02 }
  | .tlbsync p =>
      { op := 0xC5, p := p }
  | .fltrd p d a b =>
      { op := 0xC6, p := p, d := d, a := a, b := b }
  | .fltrpl p a b =>
      { op := 0xC7, p := p, a := a, b := b }
  | .emur p d a b =>
      { op := 0xC8, p := p, d := d, a := a, b := b }
  | .emuw p a b c =>
      { op := 0xC9, p := p, a := a, b := b, c := c }
  | .holdt p d a =>
      { op := 0xCA, p := p, d := d, a := a }
  | .resumet p d a =>
      { op := 0xCB, p := p, d := d, a := a }
  | .snap p =>
      { op := 0xCC, p := p }
  | .cntrd p d a =>
      { op := 0xCD, p := p, d := d, a := a }
  | .cntclr p a =>
      { op := 0xCD, p := p, f := 0x01, a := a }
  | .waym p d a =>
      { op := 0xCE, p := p, d := d, a := a }
  | .sgway p d a =>
      { op := 0xCF, p := p, d := d, a := a }
  | .illegalEncoding => { op := 0xFF }
  | .emulationRequest => { op := 0xFF }
  | .fetchBlockFill => { op := 0xFF }
  | .longLatencyComplete => { op := 0xFF }
  | .bankAccess => { op := 0xFF }
  | .suspension => { op := 0xFF }
  | .waiterRetry => { op := 0xFF }
  | .blockReadAtHome => { op := 0xFF }
  | .blockWriteGranule => { op := 0xFF }
  | .blockFillRelease => { op := 0xFF }
  | .drainDescriptor => { op := 0xFF }
  | .clrAtHome => { op := 0xFF }
  | .watchIncrement => { op := 0xFF }
  | .deferredTrapReport => { op := 0xFF }
  | .trapDelivery => { op := 0xFF }
  | .dispatch => { op := 0xFF }
  | .steal => { op := 0xFF }
  | .dispatchRetry => { op := 0xFF }
  | .ringRefill => { op := 0xFF }
  | .groupLoadRefresh => { op := 0xFF }
  | .pushBalance => { op := 0xFF }
  | .wakeMessage => { op := 0xFF }
  | .resumeContinuation => { op := 0xFF }
  | .launchTableFill => { op := 0xFF }
  | .launchAccept => { op := 0xFF }
  | .gangPlace => { op := 0xFF }
  | .gangOffer => { op := 0xFF }
  | .triggerWrite => { op := 0xFF }
  | .completionWrite => { op := 0xFF }
  | .postedAck => { op := 0xFF }
  | .preemptTakeEffect => { op := 0xFF }
  | .saveWrite => { op := 0xFF }
  | .restore => { op := 0xFF }
  | .haltTakeEffect => { op := 0xFF }
  | .holdtTimeout => { op := 0xFF }
  | .deadlockDeclare => { op := 0xFF }
  | .timerFire => { op := 0xFF }
  | .sleepDeadline => { op := 0xFF }
  | .waitlWake => { op := 0xFF }
  | .waitlPoll => { op := 0xFF }
  | .barrierResume => { op := 0xFF }
  | .mailboxArrival => { op := 0xFF }
  | .gangStartRecord => { op := 0xFF }
  | .supervisorNotice => { op := 0xFF }
  | .copyAdmit => { op := 0xFF }
  | .copyBeat => { op := 0xFF }
  | .copyCommandComplete => { op := 0xFF }
  | .copyCommandEnd => { op := 0xFF }
  | .taskAccept => { op := 0xFF }
  | .taskPresenceCheck => { op := 0xFF }
  | .taskIssue => { op := 0xFF }
  | .configurationChange => { op := 0xFF }
  | .taskKstep => { op := 0xFF }
  | .taskDWrite => { op := 0xFF }
  | .taskComplete => { op := 0xFF }
  | .taskEndError => { op := 0xFF }
  | .taskFault => { op := 0xFF }
  | .graftInvocation => { op := 0xFF }
  | .graftRestart => { op := 0xFF }
  | .graftCommit => { op := 0xFF }
  | .faultPost => { op := 0xFF }
  | .faultTableRetry => { op := 0xFF }
  | .faultReplay => { op := 0xFF }
  | .walk => { op := 0xFF }
  | .remoteRequest => { op := 0xFF }
  | .remoteRetry => { op := 0xFF }
  | .remoteTokenWake => { op := 0xFF }
  | .farAtomic => { op := 0xFF }
  | .scrub => { op := 0xFF }
  | .routerFailure => { op := 0xFF }
  | .routingTableLoad => { op := 0xFF }
  | .rds => { op := 0xFF }
  | .rdx => { op := 0xFF }
  | .upg => { op := 0xFF }
  | .wbd => { op := 0xFF }
  | .inv => { op := 0xFF }
  | .fwds => { op := 0xFF }
  | .fwdx => { op := 0xFF }
  | .invack => { op := 0xFF }
  | .data => { op := 0xFF }
  | .datax => { op := 0xFF }
  | .cmpMsg => { op := 0xFF }
  | .memrdData => { op := 0xFF }
  | .memwrAck => { op := 0xFF }
  | .snoopFilterEvict => { op := 0xFF }
  | .directoryRecall => { op := 0xFF }
  | .sliceFailure => { op := 0xFF }
  | .censusQuery => { op := 0xFF }
  | .censusReport => { op := 0xFF }
  | .censusEnd => { op := 0xFF }
  | .containment => { op := 0xFF }
  | .agentAnswerTimeout => { op := 0xFF }
  | .containmentNotice => { op := 0xFF }
  | .agentRejoin => { op := 0xFF }
  | .flitReceive => { op := 0xFF }
  | .linkNak => { op := 0xFF }
  | .linkDown => { op := 0xFF }
  | .reserve => { op := 0xFF }
  | .rack => { op := 0xFF }
  | .rnak => { op := 0xFF }
  | .release => { op := 0xFF }
  | .go => { op := 0xFF }
  | .started => { op := 0xFF }
  | .startedTimeout => { op := 0xFF }
  | .halt => { op := 0xFF }
  | .trigMessage => { op := 0xFF }
  | .done => { op := 0xFF }
  | .apertureRead => { op := 0xFF }
  | .apertureWrite => { op := 0xFF }
  | .apertureFaultTimeout => { op := 0xFF }
  | .pcieUnsupported => { op := 0xFF }
  | .qcreate => { op := 0xFF }
  | .qdestroy => { op := 0xFF }
  | .queueFetch => { op := 0xFF }
  | .startRecord => { op := 0xFF }
  | .partitionControl => { op := 0xFF }
  | .registerWrite => { op := 0xFF }
  | .debugSelect => { op := 0xFF }
  | .coldReset => { op := 0xFF }
  | .partitionReset => { op := 0xFF }
  | .lifeCycleChange => { op := 0xFF }
  | .wipeDone => { op := 0xFF }
  | .firmwareVerify => { op := 0xFF }
  | .recoveryLoad => { op := 0xFF }
  | .attestationRequest => { op := 0xFF }
  | .cxlDynamicCapacity => { op := 0xFF }
  | .powerLimit => { op := 0xFF }
  | .powerLimitClear => { op := 0xFF }
  | .overtemperature => { op := 0xFF }
  | .channelHalfWidth => { op := 0xFF }
  | .snapIn => { op := 0xFF }
  | .snapshotThreshold => { op := 0xFF }
  | .snapshotLatch => { op := 0xFF }
  | .machineCheck => { op := 0xFF }
  | .meshCreditReturn => { op := 0xFF }
  | .probeEcho => { op := 0xFF }
  | .evacAcknowledged => { op := 0xFF }
  | .tlbiTakesEffect => { op := 0xFF }
  | .emulationRoundTrip => { op := 0xFF }
  | .graftTableAccessReturn => { op := 0xFF }
  | .storeWipeDone => { op := 0xFF }
  | .haltAnswer => { op := 0xFF }
  | .channelFullWidth => { op := 0xFF }

/-! ## The decoder, major by major -/

/-- Major 0x00: NOP. -/
def decOp00 (e : Enc) : Except Nat Instr :=
  match e.f with
  | 0x00#8 => .ok (.nop e.p (e.imm.setWidth 32))
  | _ => .error 2

/-- Major 0x01: BRA. -/
def decOp01 (e : Enc) : Except Nat Instr :=
  match e.f with
  | 0x00#8 => .ok (.bra e.p (e.imm.setWidth 32))
  | _ => .error 2

/-- Major 0x02: JMP. -/
def decOp02 (e : Enc) : Except Nat Instr :=
  match e.f with
  | 0x00#8 => .ok (.jmp e.p e.a)
  | _ => .error 2

/-- Major 0x03: CALL. -/
def decOp03 (e : Enc) : Except Nat Instr :=
  match e.f with
  | 0x00#8 => .ok (.call e.p (e.imm.setWidth 32))
  | _ => .error 2

/-- Major 0x04: CALLR. -/
def decOp04 (e : Enc) : Except Nat Instr :=
  match e.f with
  | 0x00#8 => .ok (.callr e.p e.a)
  | _ => .error 2

/-- Major 0x05: RET. -/
def decOp05 (e : Enc) : Except Nat Instr :=
  match e.f with
  | 0x00#8 => .ok (.ret e.p e.a)
  | _ => .error 2

/-- Major 0x06: BRC. -/
def decOp06 (e : Enc) : Except Nat Instr :=
  minor? (Cond.ofCode? e.f) fun cc => field? (CmpW.ofCode? e.ty) fun w => .ok (.brc e.p cc w e.a e.b (e.imm.setWidth 32))

/-- Major 0x10: ALU_ADD to ALU_NOT. -/
def decOp10 (e : Enc) : Except Nat Instr :=
  match e.f with
  | 0x00#8 => field? (IntW.ofCode? e.ty) fun w => .ok (.aluAdd e.p w e.d e.a e.b)
  | 0x01#8 => field? (IntW.ofCode? e.ty) fun w => .ok (.aluSub e.p w e.d e.a e.b)
  | 0x02#8 => field? (IntW.ofCode? e.ty) fun w => .ok (.aluAnd e.p w e.d e.a e.b)
  | 0x03#8 => field? (IntW.ofCode? e.ty) fun w => .ok (.aluOr e.p w e.d e.a e.b)
  | 0x04#8 => field? (IntW.ofCode? e.ty) fun w => .ok (.aluXor e.p w e.d e.a e.b)
  | 0x05#8 => field? (IntW.ofCode? e.ty) fun w => .ok (.aluAndn e.p w e.d e.a e.b)
  | 0x06#8 => field? (IntW.ofCode? e.ty) fun w => .ok (.aluOrn e.p w e.d e.a e.b)
  | 0x07#8 => field? (IntW.ofCode? e.ty) fun w => .ok (.aluXnor e.p w e.d e.a e.b)
  | 0x08#8 => field? (IntW.ofCode? e.ty) fun w => .ok (.aluMin e.p w e.d e.a e.b)
  | 0x09#8 => field? (IntW.ofCode? e.ty) fun w => .ok (.aluMax e.p w e.d e.a e.b)
  | 0x0A#8 => field? (IntW.ofCode? e.ty) fun w => .ok (.aluMinu e.p w e.d e.a e.b)
  | 0x0B#8 => field? (IntW.ofCode? e.ty) fun w => .ok (.aluMaxu e.p w e.d e.a e.b)
  | 0x0C#8 => field? (IntW.ofCode? e.ty) fun w => .ok (.aluAdds e.p w e.d e.a e.b)
  | 0x0D#8 => field? (IntW.ofCode? e.ty) fun w => .ok (.aluSubs e.p w e.d e.a e.b)
  | 0x0E#8 => field? (IntW.ofCode? e.ty) fun w => .ok (.aluAddsu e.p w e.d e.a e.b)
  | 0x0F#8 => field? (IntW.ofCode? e.ty) fun w => .ok (.aluSubsu e.p w e.d e.a e.b)
  | 0x10#8 => field? (IntW.ofCode? e.ty) fun w => .ok (.aluMov e.p w e.d e.a)
  | 0x11#8 => field? (IntW.ofCode? e.ty) fun w => .ok (.aluNeg e.p w e.d e.a)
  | 0x12#8 => field? (IntW.ofCode? e.ty) fun w => .ok (.aluNot e.p w e.d e.a)
  | _ => .error 2

/-- Major 0x11: ADDI to MOVHI. -/
def decOp11 (e : Enc) : Except Nat Instr :=
  match e.f with
  | 0x00#8 => .ok (.addi e.p e.d e.a (e.imm.setWidth 32))
  | 0x01#8 => .ok (.andi e.p e.d e.a (e.imm.setWidth 32))
  | 0x02#8 => .ok (.ori e.p e.d e.a (e.imm.setWidth 32))
  | 0x03#8 => .ok (.xori e.p e.d e.a (e.imm.setWidth 32))
  | 0x04#8 => .ok (.movi e.p e.d (e.imm.setWidth 32))
  | 0x05#8 => .ok (.movhi e.p e.d e.a (e.imm.setWidth 32))
  | _ => .error 2

/-- Major 0x12: MUL_LO to MUL_MAD. -/
def decOp12 (e : Enc) : Except Nat Instr :=
  match e.f with
  | 0x00#8 => .ok (.mulLo e.p e.d e.a e.b)
  | 0x01#8 => .ok (.mulHi e.p e.d e.a e.b)
  | 0x02#8 => .ok (.mulHiu e.p e.d e.a e.b)
  | 0x03#8 => .ok (.mulMad e.p e.d e.a e.b e.c)
  | _ => .error 2

/-- Major 0x13: DIV_S to DIV_REMU. -/
def decOp13 (e : Enc) : Except Nat Instr :=
  match e.f with
  | 0x00#8 => field? (IntW.ofCode? e.ty) fun w => .ok (.divS e.p e.q w e.d e.a e.b)
  | 0x01#8 => field? (IntW.ofCode? e.ty) fun w => .ok (.divU e.p e.q w e.d e.a e.b)
  | 0x02#8 => field? (IntW.ofCode? e.ty) fun w => .ok (.divRem e.p e.q w e.d e.a e.b)
  | 0x03#8 => field? (IntW.ofCode? e.ty) fun w => .ok (.divRemu e.p e.q w e.d e.a e.b)
  | _ => .error 2

/-- Major 0x14: BITS_SHL to BITS_BSWAP. -/
def decOp14 (e : Enc) : Except Nat Instr :=
  match e.f with
  | 0x00#8 => .ok (.bitsShl e.p e.d e.a e.b)
  | 0x01#8 => .ok (.bitsShr e.p e.d e.a e.b)
  | 0x02#8 => .ok (.bitsSar e.p e.d e.a e.b)
  | 0x03#8 => .ok (.bitsRol e.p e.d e.a e.b)
  | 0x04#8 => .ok (.bitsRor e.p e.d e.a e.b)
  | 0x08#8 => .ok (.bitsShli e.p e.d e.a (e.flags.extractLsb' 0 6))
  | 0x09#8 => .ok (.bitsShri e.p e.d e.a (e.flags.extractLsb' 0 6))
  | 0x0A#8 => .ok (.bitsSari e.p e.d e.a (e.flags.extractLsb' 0 6))
  | 0x0B#8 => .ok (.bitsRoli e.p e.d e.a (e.flags.extractLsb' 0 6))
  | 0x0C#8 => .ok (.bitsRori e.p e.d e.a (e.flags.extractLsb' 0 6))
  | 0x10#8 => .ok (.bitsClz e.p e.d e.a)
  | 0x11#8 => .ok (.bitsCtz e.p e.d e.a)
  | 0x12#8 => .ok (.bitsPopc e.p e.d e.a)
  | 0x13#8 => .ok (.bitsBrev e.p e.d e.a)
  | 0x14#8 => .ok (.bitsBswap e.p e.d e.a)
  | _ => .error 2

/-- Major 0x15: FIELD_EXT to FIELD_MASK. -/
def decOp15 (e : Enc) : Except Nat Instr :=
  match e.f with
  | 0x00#8 => .ok (.fieldExt e.p e.d e.a e.b)
  | 0x01#8 => .ok (.fieldExts e.p e.d e.a e.b)
  | 0x02#8 => .ok (.fieldIns e.p e.d e.a e.b)
  | 0x03#8 => .ok (.fieldMask e.p e.d e.b)
  | _ => .error 2

/-- Major 0x16: MOVW. -/
def decOp16 (e : Enc) : Except Nat Instr :=
  match e.f with
  | 0x00#8 => .ok (.movw e.p e.d e.imm)
  | _ => .error 2

/-- Major 0x17: SEL. -/
def decOp17 (e : Enc) : Except Nat Instr :=
  match e.f with
  | 0x00#8 => .ok (.sel e.p e.d e.a e.b (e.c.setWidth 3))
  | _ => .error 2

/-- Major 0x18: LEA, LEA_OFF. -/
def decOp18 (e : Enc) : Except Nat Instr :=
  if e.f.extractLsb' 0 3 = 7 then .error 2
  else if e.f.extractLsb' 3 5 = 0x00 then .ok (.lea e.p e.d e.a e.b (e.f.extractLsb' 0 3))
  else if e.f.extractLsb' 3 5 = 0x10 then .ok (.leaOff e.p e.d e.a e.b (e.f.extractLsb' 0 3))
  else .error 2

/-- Major 0x30: CMP. -/
def decOp30 (e : Enc) : Except Nat Instr :=
  minor? (Cond.ofCode? e.f) fun cc => field? (CmpW.ofCode? e.ty) fun w => field? (Combine.ofCode? e.flags) fun m => .ok (.cmp e.p cc w m (e.d.setWidth 3) e.a e.b)

/-- Major 0x31: CMPI. -/
def decOp31 (e : Enc) : Except Nat Instr :=
  minor? (Cond.ofCode? e.f) fun cc => .ok (.cmpi e.p cc (e.d.setWidth 3) e.a (e.imm.setWidth 32))

/-- Major 0x32: PLOG_AND to PLOG_NOT. -/
def decOp32 (e : Enc) : Except Nat Instr :=
  match e.f with
  | 0x00#8 => .ok (.plogAnd e.p (e.d.setWidth 3) (e.a.setWidth 3) (e.b.setWidth 3))
  | 0x01#8 => .ok (.plogOr e.p (e.d.setWidth 3) (e.a.setWidth 3) (e.b.setWidth 3))
  | 0x02#8 => .ok (.plogXor e.p (e.d.setWidth 3) (e.a.setWidth 3) (e.b.setWidth 3))
  | 0x03#8 => .ok (.plogAndn e.p (e.d.setWidth 3) (e.a.setWidth 3) (e.b.setWidth 3))
  | 0x04#8 => .ok (.plogOrn e.p (e.d.setWidth 3) (e.a.setWidth 3) (e.b.setWidth 3))
  | 0x05#8 => .ok (.plogNand e.p (e.d.setWidth 3) (e.a.setWidth 3) (e.b.setWidth 3))
  | 0x06#8 => .ok (.plogNor e.p (e.d.setWidth 3) (e.a.setWidth 3) (e.b.setWidth 3))
  | 0x07#8 => .ok (.plogXnor e.p (e.d.setWidth 3) (e.a.setWidth 3) (e.b.setWidth 3))
  | 0x08#8 => .ok (.plogNot e.p (e.d.setWidth 3) (e.a.setWidth 3))
  | _ => .error 2

/-- Major 0x33: PMOV_G2P, PMOV_P2G, PMOV_BC. -/
def decOp33 (e : Enc) : Except Nat Instr :=
  match e.f with
  | 0x00#8 => .ok (.pmovG2p e.p (e.d.setWidth 3) e.a)
  | 0x01#8 => .ok (.pmovP2g e.p e.d (e.a.setWidth 3))
  | 0x02#8 => .ok (.pmovBc e.p (e.d.setWidth 3) e.a)
  | _ => .error 2

/-- Major 0x38: COORD_TILE to COORD_LOCAL. -/
def decOp38 (e : Enc) : Except Nat Instr :=
  match e.f with
  | 0x00#8 => .ok (.coordTile e.p e.d e.a)
  | 0x01#8 => .ok (.coordGroup e.p e.d e.a)
  | 0x02#8 => .ok (.coordSgrp e.p e.d e.a)
  | 0x03#8 => .ok (.coordDie e.p e.d e.a)
  | 0x10#8 => .ok (.coordPres e.p e.d e.a)
  | 0x11#8 => .ok (.coordHmap e.p e.d e.a)
  | 0x12#8 => .ok (.coordLocal e.p e.d e.a)
  | _ => .error 2

/-- Major 0x39: MKA. -/
def decOp39 (e : Enc) : Except Nat Instr :=
  if e.f < 8 then .ok (.mka e.p (e.f.extractLsb' 0 2) (e.f.getLsbD 2) e.d e.a e.b) else .error 2

/-- Major 0x3A: MKG, MKG_OWN. -/
def decOp3A (e : Enc) : Except Nat Instr :=
  match e.f with
  | 0x00#8 => .ok (.mkg e.p e.d e.a e.b)
  | 0x01#8 => .ok (.mkgOwn e.p e.d e.b)
  | _ => .error 2

/-- Major 0x40: LD. -/
def decOp40 (e : Enc) : Except Nat Instr :=
  minor? (Sz.ofCode? e.f) fun sz => .ok (.ld e.p e.q sz e.d e.a (e.imm.setWidth 32))

/-- Major 0x41: LDX. -/
def decOp41 (e : Enc) : Except Nat Instr :=
  minor? (Sz.ofCode? e.f) fun sz => .ok (.ldx e.p e.q sz (e.flags.getLsbD 0) e.d e.a e.b)

/-- Major 0x42: ST. -/
def decOp42 (e : Enc) : Except Nat Instr :=
  minor? (StSz.ofCode? e.f) fun sz => .ok (.st e.p e.q sz e.d e.a (e.imm.setWidth 32))

/-- Major 0x43: STX. -/
def decOp43 (e : Enc) : Except Nat Instr :=
  minor? (StSz.ofCode? e.f) fun sz => .ok (.stx e.p e.q sz (e.flags.getLsbD 0) e.d e.a e.b)

/-- Major 0x44: LDM. -/
def decOp44 (e : Enc) : Except Nat Instr :=
  if e.f < 8 then .ok (.ldm e.p e.q (e.f.setWidth 3) e.d e.a (e.imm.setWidth 32)) else .error 2

/-- Major 0x45: STM. -/
def decOp45 (e : Enc) : Except Nat Instr :=
  if e.f < 8 then .ok (.stm e.p e.q (e.f.setWidth 3) e.d e.a (e.imm.setWidth 32)) else .error 2

/-- Major 0x46: LDQ. -/
def decOp46 (e : Enc) : Except Nat Instr :=
  match e.f with
  | 0x00#8 => .ok (.ldq e.p e.q e.d e.a (e.imm.setWidth 32))
  | _ => .error 2

/-- Major 0x47: LDTRY. -/
def decOp47 (e : Enc) : Except Nat Instr :=
  minor? (Sz.ofCode? e.f) fun sz => .ok (.ldtry e.p e.q sz e.d e.a (e.imm.setWidth 32))

/-- Major 0x48: BWAIT. -/
def decOp48 (e : Enc) : Except Nat Instr :=
  match e.f with
  | 0x00#8 => .ok (.bwait e.p e.q e.d e.a (e.imm.setWidth 32))
  | _ => .error 2

/-- Major 0x49: CLR. -/
def decOp49 (e : Enc) : Except Nat Instr :=
  match e.f with
  | 0x00#8 => .ok (.clr e.p e.a (e.imm.setWidth 32))
  | _ => .error 2

/-- Major 0x4A: CLRN. -/
def decOp4A (e : Enc) : Except Nat Instr :=
  match e.f with
  | 0x00#8 => .ok (.clrn e.p e.a e.b)
  | _ => .error 2

/-- Major 0x4B: PREF_S, PREF_X. -/
def decOp4B (e : Enc) : Except Nat Instr :=
  match e.f with
  | 0x00#8 => .ok (.prefS e.p e.a (e.imm.setWidth 32))
  | 0x01#8 => .ok (.prefX e.p e.a (e.imm.setWidth 32))
  | _ => .error 2

/-- Major 0x50: AOP_SWAP to AOP_MAX. -/
def decOp50 (e : Enc) : Except Nat Instr :=
  match e.f with
  | 0x00#8 => field? (Ty.ofCode? e.ty) fun ty => .ok (.aopSwap e.p e.q (e.flags.getLsbD 0) ty e.scope e.order e.d e.a e.b)
  | 0x01#8 => field? (Ty.ofCode? e.ty) fun ty => .ok (.aopAdd e.p e.q (e.flags.getLsbD 0) ty e.scope e.order e.d e.a e.b)
  | 0x02#8 => field? (Ty.ofCode? e.ty) fun ty => .ok (.aopAnd e.p e.q (e.flags.getLsbD 0) ty e.scope e.order e.d e.a e.b)
  | 0x03#8 => field? (Ty.ofCode? e.ty) fun ty => .ok (.aopOr e.p e.q (e.flags.getLsbD 0) ty e.scope e.order e.d e.a e.b)
  | 0x04#8 => field? (Ty.ofCode? e.ty) fun ty => .ok (.aopXor e.p e.q (e.flags.getLsbD 0) ty e.scope e.order e.d e.a e.b)
  | 0x05#8 => field? (Ty.ofCode? e.ty) fun ty => .ok (.aopMin e.p e.q (e.flags.getLsbD 0) ty e.scope e.order e.d e.a e.b)
  | 0x06#8 => field? (Ty.ofCode? e.ty) fun ty => .ok (.aopMax e.p e.q (e.flags.getLsbD 0) ty e.scope e.order e.d e.a e.b)
  | _ => .error 2

/-- Major 0x51: ACAS. -/
def decOp51 (e : Enc) : Except Nat Instr :=
  match e.f with
  | 0x00#8 => field? (Ty.ofCode? e.ty) fun ty => .ok (.acas e.p e.q (e.flags.getLsbD 0) (e.flags.getLsbD 1) ty e.scope e.order e.d e.a e.b e.c)
  | _ => .error 2

/-- Major 0x52: RED_ADD to RED_MAX. -/
def decOp52 (e : Enc) : Except Nat Instr :=
  match e.f with
  | 0x01#8 => field? (Ty.ofCode? e.ty) fun ty => .ok (.redAdd e.p e.q ty e.scope e.order e.a e.b)
  | 0x02#8 => field? (Ty.ofCode? e.ty) fun ty => .ok (.redAnd e.p e.q ty e.scope e.order e.a e.b)
  | 0x03#8 => field? (Ty.ofCode? e.ty) fun ty => .ok (.redOr e.p e.q ty e.scope e.order e.a e.b)
  | 0x04#8 => field? (Ty.ofCode? e.ty) fun ty => .ok (.redXor e.p e.q ty e.scope e.order e.a e.b)
  | 0x05#8 => field? (Ty.ofCode? e.ty) fun ty => .ok (.redMin e.p e.q ty e.scope e.order e.a e.b)
  | 0x06#8 => field? (Ty.ofCode? e.ty) fun ty => .ok (.redMax e.p e.q ty e.scope e.order e.a e.b)
  | _ => .error 2

/-- Major 0x53: POST. -/
def decOp53 (e : Enc) : Except Nat Instr :=
  minor? (PostSz.ofCode? e.f) fun sz => .ok (.post e.p e.q sz e.scope e.order e.a e.b)

/-- Major 0x60: VOP_ADD to VOP_MULHI. -/
def decOp60 (e : Enc) : Except Nat Instr :=
  match e.f with
  | 0x01#8 => field? (Ty.ofCode? e.ty) fun ty => .ok (.vopAdd e.p ty (e.d.setWidth 4) (e.a.setWidth 4) (e.b.setWidth 4))
  | 0x02#8 => field? (Ty.ofCode? e.ty) fun ty => .ok (.vopSub e.p ty (e.d.setWidth 4) (e.a.setWidth 4) (e.b.setWidth 4))
  | 0x03#8 => field? (Ty.ofCode? e.ty) fun ty => .ok (.vopMul e.p ty (e.d.setWidth 4) (e.a.setWidth 4) (e.b.setWidth 4))
  | 0x04#8 => field? (Ty.ofCode? e.ty) fun ty => .ok (.vopMin e.p ty (e.d.setWidth 4) (e.a.setWidth 4) (e.b.setWidth 4))
  | 0x05#8 => field? (Ty.ofCode? e.ty) fun ty => .ok (.vopMax e.p ty (e.d.setWidth 4) (e.a.setWidth 4) (e.b.setWidth 4))
  | 0x06#8 => field? (Ty.ofCode? e.ty) fun ty => .ok (.vopAbs e.p ty (e.d.setWidth 4) (e.a.setWidth 4))
  | 0x07#8 => field? (Ty.ofCode? e.ty) fun ty => .ok (.vopNeg e.p ty (e.d.setWidth 4) (e.a.setWidth 4))
  | 0x08#8 => field? (Ty.ofCode? e.ty) fun ty => .ok (.vopAdds e.p ty (e.d.setWidth 4) (e.a.setWidth 4) (e.b.setWidth 4))
  | 0x09#8 => field? (Ty.ofCode? e.ty) fun ty => .ok (.vopSubs e.p ty (e.d.setWidth 4) (e.a.setWidth 4) (e.b.setWidth 4))
  | 0x0A#8 => field? (Ty.ofCode? e.ty) fun ty => .ok (.vopAnd e.p ty (e.d.setWidth 4) (e.a.setWidth 4) (e.b.setWidth 4))
  | 0x0B#8 => field? (Ty.ofCode? e.ty) fun ty => .ok (.vopOr e.p ty (e.d.setWidth 4) (e.a.setWidth 4) (e.b.setWidth 4))
  | 0x0C#8 => field? (Ty.ofCode? e.ty) fun ty => .ok (.vopXor e.p ty (e.d.setWidth 4) (e.a.setWidth 4) (e.b.setWidth 4))
  | 0x0D#8 => field? (Ty.ofCode? e.ty) fun ty => .ok (.vopAndn e.p ty (e.d.setWidth 4) (e.a.setWidth 4) (e.b.setWidth 4))
  | 0x0E#8 => field? (Ty.ofCode? e.ty) fun ty => .ok (.vopShl e.p ty (e.d.setWidth 4) (e.a.setWidth 4) (e.b.setWidth 4))
  | 0x0F#8 => field? (Ty.ofCode? e.ty) fun ty => .ok (.vopShr e.p ty (e.d.setWidth 4) (e.a.setWidth 4) (e.b.setWidth 4))
  | 0x10#8 => field? (Ty.ofCode? e.ty) fun ty => .ok (.vopSar e.p ty (e.d.setWidth 4) (e.a.setWidth 4) (e.b.setWidth 4))
  | 0x11#8 => field? (Ty.ofCode? e.ty) fun ty => .ok (.vopMulhi e.p ty (e.d.setWidth 4) (e.a.setWidth 4) (e.b.setWidth 4))
  | _ => .error 2

/-- Major 0x61: VFMA to VFMA_FNMS. -/
def decOp61 (e : Enc) : Except Nat Instr :=
  match e.f with
  | 0x00#8 => field? (Ty.ofCode? e.ty) fun ty => .ok (.vfma e.p ty (e.d.setWidth 4) (e.a.setWidth 4) (e.b.setWidth 4) (e.c.setWidth 4))
  | 0x01#8 => field? (Ty.ofCode? e.ty) fun ty => .ok (.vfmaFms e.p ty (e.d.setWidth 4) (e.a.setWidth 4) (e.b.setWidth 4) (e.c.setWidth 4))
  | 0x02#8 => field? (Ty.ofCode? e.ty) fun ty => .ok (.vfmaFnma e.p ty (e.d.setWidth 4) (e.a.setWidth 4) (e.b.setWidth 4) (e.c.setWidth 4))
  | 0x03#8 => field? (Ty.ofCode? e.ty) fun ty => .ok (.vfmaFnms e.p ty (e.d.setWidth 4) (e.a.setWidth 4) (e.b.setWidth 4) (e.c.setWidth 4))
  | _ => .error 2

/-- Major 0x62: VDIV, VSQRT. -/
def decOp62 (e : Enc) : Except Nat Instr :=
  match e.f with
  | 0x00#8 => field? (Ty.ofCode? e.ty) fun ty => .ok (.vdiv e.p e.q ty (e.d.setWidth 4) (e.a.setWidth 4) (e.b.setWidth 4))
  | 0x01#8 => field? (Ty.ofCode? e.ty) fun ty => .ok (.vsqrt e.p e.q ty (e.d.setWidth 4) (e.a.setWidth 4))
  | _ => .error 2

/-- Major 0x63: VCMP. -/
def decOp63 (e : Enc) : Except Nat Instr :=
  minor? (VCond.ofCode? e.f) fun cc => field? (Ty.ofCode? e.ty) fun ty => if cc.okFor ty then .ok (.vcmp e.p cc ty (e.d.setWidth 3) (e.a.setWidth 4) (e.b.setWidth 4)) else .error 2

/-- Major 0x64: VSEL. -/
def decOp64 (e : Enc) : Except Nat Instr :=
  match e.f with
  | 0x00#8 => field? (Ty.ofCode? e.ty) fun ty => .ok (.vsel e.p ty (e.d.setWidth 4) (e.a.setWidth 4) (e.b.setWidth 4) (e.c.setWidth 3))
  | _ => .error 2

/-- Major 0x65: VCVT. -/
def decOp65 (e : Enc) : Except Nat Instr :=
  minor? ((if e.f.extractLsb' 6 2 = 0 then Ty.ofCode? (e.f.setWidth 6) else none)) fun src => field? (Ty.ofCode? e.ty) fun dst =>
      if src = dst ∨ vcvtParts src dst ≤ e.q.toNat then .error 2 else .ok (.vcvt e.p src e.q dst (e.d.setWidth 4) (e.a.setWidth 4) e.c)

/-- Major 0x66: VRED_ADD to VRED_XOR. -/
def decOp66 (e : Enc) : Except Nat Instr :=
  match e.f with
  | 0x00#8 => field? (Ty.ofCode? e.ty) fun ty => .ok (.vredAdd e.p ty e.d (e.a.setWidth 4))
  | 0x01#8 => field? (Ty.ofCode? e.ty) fun ty => .ok (.vredMin e.p ty e.d (e.a.setWidth 4))
  | 0x02#8 => field? (Ty.ofCode? e.ty) fun ty => .ok (.vredMax e.p ty e.d (e.a.setWidth 4))
  | 0x03#8 => field? (Ty.ofCode? e.ty) fun ty => .ok (.vredAnd e.p ty e.d (e.a.setWidth 4))
  | 0x04#8 => field? (Ty.ofCode? e.ty) fun ty => .ok (.vredOr e.p ty e.d (e.a.setWidth 4))
  | 0x05#8 => field? (Ty.ofCode? e.ty) fun ty => .ok (.vredXor e.p ty e.d (e.a.setWidth 4))
  | _ => .error 2

/-- Major 0x67: VPERM. -/
def decOp67 (e : Enc) : Except Nat Instr :=
  match e.f with
  | 0x00#8 => field? (Ty.ofCode? e.ty) fun ty => .ok (.vperm e.p ty (e.d.setWidth 4) (e.a.setWidth 4) (e.b.setWidth 4) (e.c.setWidth 4))
  | _ => .error 2

/-- Major 0x68: VBCAST, VBCAST_LANE. -/
def decOp68 (e : Enc) : Except Nat Instr :=
  match e.f with
  | 0x00#8 => field? (Ty.ofCode? e.ty) fun ty => .ok (.vbcast e.p ty (e.d.setWidth 4) e.a)
  | 0x01#8 => field? (Ty.ofCode? e.ty) fun ty => .ok (.vbcastLane e.p ty (e.d.setWidth 4) (e.a.setWidth 4) e.b)
  | _ => .error 2

/-- Major 0x69: VINS. -/
def decOp69 (e : Enc) : Except Nat Instr :=
  match e.f with
  | 0x00#8 => field? (Ty.ofCode? e.ty) fun ty => .ok (.vins e.p ty (e.d.setWidth 4) e.a e.b)
  | _ => .error 2

/-- Major 0x6A: VEXT. -/
def decOp6A (e : Enc) : Except Nat Instr :=
  match e.f with
  | 0x00#8 => field? (Ty.ofCode? e.ty) fun ty => .ok (.vext e.p ty e.d (e.a.setWidth 4) e.b)
  | _ => .error 2

/-- Major 0x6B: VDOT. -/
def decOp6B (e : Enc) : Except Nat Instr :=
  match e.f with
  | 0x00#8 => field? (Ty.ofCode? e.ty) fun ty => .ok (.vdot e.p ty (e.d.setWidth 4) (e.a.setWidth 4) (e.b.setWidth 4))
  | _ => .error 2

/-- Major 0x6C: VMOV, VMOV_ZERO. -/
def decOp6C (e : Enc) : Except Nat Instr :=
  match e.f with
  | 0x00#8 => field? (Ty.ofCode? e.ty) fun ty => .ok (.vmov e.p ty (e.d.setWidth 4) (e.a.setWidth 4))
  | 0x01#8 => field? (Ty.ofCode? e.ty) fun ty => .ok (.vmovZero e.p ty (e.d.setWidth 4))
  | _ => .error 2

/-- Major 0x70: VLD. -/
def decOp70 (e : Enc) : Except Nat Instr :=
  if e.f < 2 then .ok (.vld e.p e.q (e.f.getLsbD 0) (e.d.setWidth 4) e.a (e.imm.setWidth 32)) else .error 2

/-- Major 0x71: VST. -/
def decOp71 (e : Enc) : Except Nat Instr :=
  if e.f < 2 then .ok (.vst e.p e.q (e.f.getLsbD 0) (e.d.setWidth 4) e.a (e.imm.setWidth 32)) else .error 2

/-- Major 0x72: VLDS. -/
def decOp72 (e : Enc) : Except Nat Instr :=
  match e.f with
  | 0x00#8 => field? (Ty.ofCode? e.ty) fun ty => .ok (.vlds e.p e.q ty (e.d.setWidth 4) e.a e.b)
  | _ => .error 2

/-- Major 0x73: VSTS. -/
def decOp73 (e : Enc) : Except Nat Instr :=
  match e.f with
  | 0x00#8 => field? (Ty.ofCode? e.ty) fun ty => .ok (.vsts e.p e.q ty (e.d.setWidth 4) e.a e.b)
  | _ => .error 2

/-- Major 0x74: VGATH. -/
def decOp74 (e : Enc) : Except Nat Instr :=
  match e.f with
  | 0x00#8 => field? (Ty.ofCode? e.ty) fun ty => .ok (.vgath e.p e.q ty (e.flags.getLsbD 0) (e.d.setWidth 4) e.a (e.b.setWidth 4))
  | _ => .error 2

/-- Major 0x75: VSCAT. -/
def decOp75 (e : Enc) : Except Nat Instr :=
  match e.f with
  | 0x00#8 => field? (Ty.ofCode? e.ty) fun ty => .ok (.vscat e.p e.q ty (e.flags.getLsbD 0) (e.d.setWidth 4) e.a (e.b.setWidth 4))
  | _ => .error 2

/-- Major 0x76: VLDB. -/
def decOp76 (e : Enc) : Except Nat Instr :=
  match e.f with
  | 0x00#8 => .ok (.vldb e.p e.q (e.d.setWidth 4) e.a (e.imm.setWidth 32))
  | _ => .error 2

/-- Major 0x77: VSTB. -/
def decOp77 (e : Enc) : Except Nat Instr :=
  match e.f with
  | 0x00#8 => .ok (.vstb e.p e.q (e.d.setWidth 4) e.a (e.imm.setWidth 32))
  | _ => .error 2

/-- Major 0x80: COPY. -/
def decOp80 (e : Enc) : Except Nat Instr :=
  match e.f with
  | 0x00#8 => .ok (.copy e.p (copyOptOf e.imm) e.a e.b e.c)
  | _ => .error 2

/-- Major 0x81: COPYS. -/
def decOp81 (e : Enc) : Except Nat Instr :=
  match e.f with
  | 0x00#8 => .ok (.copys e.p (copyOptOf e.imm) e.a e.b e.c (e.imm.extractLsb' 0 5) (e.imm.extractLsb' 5 5) (e.imm.extractLsb' 10 5))
  | _ => .error 2

/-- Major 0x82: COPYG_G, COPYG_S. -/
def decOp82 (e : Enc) : Except Nat Instr :=
  match e.f with
  | 0x00#8 => .ok (.copygG e.p (copyOptOf e.imm) e.a e.b e.c (e.imm.extractLsb' 0 5))
  | 0x01#8 => .ok (.copygS e.p (copyOptOf e.imm) e.a e.b e.c (e.imm.extractLsb' 0 5))
  | _ => .error 2

/-- Major 0x83: CBATCH_OPEN, CBATCH_CLOSE. -/
def decOp83 (e : Enc) : Except Nat Instr :=
  match e.f with
  | 0x00#8 => .ok (.cbatchOpen e.p)
  | 0x01#8 => .ok (.cbatchClose e.p)
  | _ => .error 2

/-- Major 0x84: CWAIT. -/
def decOp84 (e : Enc) : Except Nat Instr :=
  match e.f with
  | 0x00#8 => .ok (.cwait e.p (e.flags.extractLsb' 0 4))
  | _ => .error 2

/-- Major 0x85: CBINIT. -/
def decOp85 (e : Enc) : Except Nat Instr :=
  match e.f with
  | 0x00#8 => .ok (.cbinit e.p (e.flags.extractLsb' 0 2) (e.imm.setWidth 32))
  | _ => .error 2

/-- Major 0x86: CBWAIT. -/
def decOp86 (e : Enc) : Except Nat Instr :=
  match e.f with
  | 0x00#8 => .ok (.cbwait e.p (e.flags.extractLsb' 0 2))
  | _ => .error 2

/-- Major 0x87: CQF. -/
def decOp87 (e : Enc) : Except Nat Instr :=
  match e.f with
  | 0x00#8 => .ok (.cqf e.p e.a)
  | _ => .error 2

/-- Major 0x88: CSTAT, CSTAT_BAR. -/
def decOp88 (e : Enc) : Except Nat Instr :=
  match e.f with
  | 0x00#8 => .ok (.cstat e.p e.d)
  | 0x01#8 => .ok (.cstatBar e.p (e.flags.extractLsb' 0 2) e.d)
  | _ => .error 2

/-- Major 0x89: TAGL, TAGL_G. -/
def decOp89 (e : Enc) : Except Nat Instr :=
  match e.f with
  | 0x00#8 => .ok (.tagl e.p e.d e.a)
  | 0x01#8 => .ok (.taglG e.p e.d e.a e.b)
  | _ => .error 2

/-- Major 0x8A: TAGS. -/
def decOp8A (e : Enc) : Except Nat Instr :=
  match e.f with
  | 0x00#8 => .ok (.tags e.p e.a e.b e.c)
  | _ => .error 2

/-- Major 0x8B: TAGI, TAGI_ALL, TAGI_BLK. -/
def decOp8B (e : Enc) : Except Nat Instr :=
  match e.f with
  | 0x00#8 => .ok (.tagi e.p e.a)
  | 0x01#8 => .ok (.tagiAll e.p)
  | 0x02#8 => .ok (.tagiBlk e.p e.a)
  | _ => .error 2

/-- Major 0x90: MTASK. -/
def decOp90 (e : Enc) : Except Nat Instr :=
  match e.f with
  | 0x00#8 => .ok (.mtask e.p (e.flags.extractLsb' 0 3) e.d e.a)
  | _ => .error 2

/-- Major 0x91: MTQRY, MTQRY_Q. -/
def decOp91 (e : Enc) : Except Nat Instr :=
  match e.f with
  | 0x00#8 => .ok (.mtqry e.p e.d e.a)
  | 0x01#8 => .ok (.mtqryQ e.p e.d)
  | _ => .error 2

/-- Major 0x92: MTCAN. -/
def decOp92 (e : Enc) : Except Nat Instr :=
  match e.f with
  | 0x00#8 => .ok (.mtcan e.p e.d e.a)
  | _ => .error 2

/-- Major 0x94: LYRINIT. -/
def decOp94 (e : Enc) : Except Nat Instr :=
  match e.f with
  | 0x00#8 => .ok (.lyrinit e.p e.d e.a e.b)
  | _ => .error 2

/-- Major 0x95: LYRQ, LYRQ_X, LYRQ_W. -/
def decOp95 (e : Enc) : Except Nat Instr :=
  match e.f with
  | 0x00#8 => .ok (.lyrq e.p e.d e.a e.b)
  | 0x01#8 => .ok (.lyrqX e.p e.d e.b)
  | 0x02#8 => .ok (.lyrqW e.p e.d e.b)
  | _ => .error 2

/-- Major 0x96: LYRREF. -/
def decOp96 (e : Enc) : Except Nat Instr :=
  match e.f with
  | 0x00#8 => .ok (.lyrref e.p e.d e.a)
  | _ => .error 2

/-- Major 0x97: LYRDROP. -/
def decOp97 (e : Enc) : Except Nat Instr :=
  match e.f with
  | 0x00#8 => .ok (.lyrdrop e.p e.d e.a)
  | _ => .error 2

/-- Major 0xA0: FENCE. -/
def decOpA0 (e : Enc) : Except Nat Instr :=
  match e.f with
  | 0x00#8 => .ok (.fence e.p e.scope e.order)
  | _ => .error 2

/-- Major 0xA1: BAR, BAR_COMB. -/
def decOpA1 (e : Enc) : Except Nat Instr :=
  match e.f with
  | 0x00#8 => .ok (.bar e.p (e.flags.extractLsb' 0 2))
  | 0x01#8 => .ok (.barComb e.p (e.flags.extractLsb' 0 2) e.a)
  | _ => .error 2

/-- Major 0xA2: TRIG. -/
def decOpA2 (e : Enc) : Except Nat Instr :=
  match e.f with
  | 0x00#8 => .ok (.trig e.p)
  | _ => .error 2

/-- Major 0xA3: WAITL, WAITL_DL. -/
def decOpA3 (e : Enc) : Except Nat Instr :=
  match e.f with
  | 0x00#8 => .ok (.waitl e.p (e.flags.getLsbD 0) e.d e.a e.b)
  | 0x01#8 => .ok (.waitlDl e.p (e.flags.getLsbD 0) e.d e.a e.b e.c)
  | _ => .error 2

/-- Major 0xA4: SLEEP, SLEEP_M. -/
def decOpA4 (e : Enc) : Except Nat Instr :=
  match e.f with
  | 0x00#8 => .ok (.sleep e.p e.d e.a)
  | 0x01#8 => .ok (.sleepM e.p e.d e.a)
  | _ => .error 2

/-- Major 0xA5: YIELD. -/
def decOpA5 (e : Enc) : Except Nat Instr :=
  match e.f with
  | 0x00#8 => .ok (.yield e.p)
  | _ => .error 2

/-- Major 0xB0: SPAWN. -/
def decOpB0 (e : Enc) : Except Nat Instr :=
  match e.f with
  | 0x00#8 => .ok (.spawn e.p (e.flags.getLsbD 0) e.a)
  | _ => .error 2

/-- Major 0xB1: TPOP. -/
def decOpB1 (e : Enc) : Except Nat Instr :=
  match e.f with
  | 0x00#8 => .ok (.tpop e.p e.d)
  | _ => .error 2

/-- Major 0xB2: TSTART. -/
def decOpB2 (e : Enc) : Except Nat Instr :=
  match e.f with
  | 0x00#8 => .ok (.tstart e.p e.d e.a e.b e.c)
  | _ => .error 2

/-- Major 0xB3: TREAP. -/
def decOpB3 (e : Enc) : Except Nat Instr :=
  match e.f with
  | 0x00#8 => .ok (.treap e.p e.d e.a)
  | _ => .error 2

/-- Major 0xB4: TEXIT. -/
def decOpB4 (e : Enc) : Except Nat Instr :=
  match e.f with
  | 0x00#8 => .ok (.texit e.p)
  | _ => .error 2

/-- Major 0xB5: RQPUSH, RQPUSH_CORE. -/
def decOpB5 (e : Enc) : Except Nat Instr :=
  match e.f with
  | 0x00#8 => .ok (.rqpush e.p e.a e.b)
  | 0x01#8 => .ok (.rqpushCore e.p e.a e.b e.c)
  | _ => .error 2

/-- Major 0xB6: RQPOP, RQPOP_P, RQPOP_CNT. -/
def decOpB6 (e : Enc) : Except Nat Instr :=
  match e.f with
  | 0x00#8 => .ok (.rqpop e.p e.d)
  | 0x01#8 => .ok (.rqpopP e.p e.d e.a)
  | 0x02#8 => .ok (.rqpopCnt e.p e.d)
  | _ => .error 2

/-- Major 0xB7: PREEMPT, PREEMPT_Q. -/
def decOpB7 (e : Enc) : Except Nat Instr :=
  match e.f with
  | 0x00#8 => .ok (.preempt e.p e.d e.a e.b)
  | 0x01#8 => .ok (.preemptQ e.p e.d e.a)
  | _ => .error 2

/-- Major 0xB8: EVAC. -/
def decOpB8 (e : Enc) : Except Nat Instr :=
  match e.f with
  | 0x00#8 => .ok (.evac e.p e.d e.a e.b)
  | _ => .error 2

/-- Major 0xB9: SEND. -/
def decOpB9 (e : Enc) : Except Nat Instr :=
  match e.f with
  | 0x00#8 => .ok (.send e.p (e.flags.getLsbD 0) (e.flags.getLsbD 1) e.a (e.b.extractLsb' 1 3))
  | _ => .error 2

/-- Major 0xBA: RECV, RECV_T. -/
def decOpBA (e : Enc) : Except Nat Instr :=
  match e.f with
  | 0x00#8 => .ok (.recv e.p (e.d.extractLsb' 1 3) e.c)
  | 0x01#8 => .ok (.recvT e.p (e.d.extractLsb' 1 3) e.c)
  | _ => .error 2

/-- Major 0xBB: TIMER, TIMER_REL, TIMER_OFF. -/
def decOpBB (e : Enc) : Except Nat Instr :=
  match e.f with
  | 0x00#8 => .ok (.timer e.p e.a)
  | 0x01#8 => .ok (.timerRel e.p e.a)
  | 0x02#8 => .ok (.timerOff e.p)
  | _ => .error 2

/-- Major 0xC0: TRAP. -/
def decOpC0 (e : Enc) : Except Nat Instr :=
  match e.f with
  | 0x00#8 => .ok (.trap e.p (e.imm.setWidth 32))
  | _ => .error 2

/-- Major 0xC1: ERET, ERET_NEXT. -/
def decOpC1 (e : Enc) : Except Nat Instr :=
  match e.f with
  | 0x00#8 => .ok (.eret e.p)
  | 0x01#8 => .ok (.eretNext e.p)
  | _ => .error 2

/-- Major 0xC2: MOVS_READ, MOVS_WRITE. -/
def decOpC2 (e : Enc) : Except Nat Instr :=
  match e.f with
  | 0x00#8 => .ok (.movsRead e.p e.d e.flags)
  | 0x01#8 => .ok (.movsWrite e.p e.flags e.a)
  | _ => .error 2

/-- Major 0xC3: MOVC_READ, MOVC_WRITE. -/
def decOpC3 (e : Enc) : Except Nat Instr :=
  match e.f with
  | 0x00#8 => .ok (.movcRead e.p e.d e.flags)
  | 0x01#8 => .ok (.movcWrite e.p e.flags e.a)
  | _ => .error 2

/-- Major 0xC4: TLBI_VA, TLBI_ASID, TLBI_ALL. -/
def decOpC4 (e : Enc) : Except Nat Instr :=
  match e.f with
  | 0x00#8 => .ok (.tlbiVa e.p e.a e.b)
  | 0x01#8 => .ok (.tlbiAsid e.p e.b)
  | 0x02#8 => .ok (.tlbiAll e.p)
  | _ => .error 2

/-- Major 0xC5: TLBSYNC. -/
def decOpC5 (e : Enc) : Except Nat Instr :=
  match e.f with
  | 0x00#8 => .ok (.tlbsync e.p)
  | _ => .error 2

/-- Major 0xC6: FLTRD. -/
def decOpC6 (e : Enc) : Except Nat Instr :=
  match e.f with
  | 0x00#8 => .ok (.fltrd e.p e.d e.a e.b)
  | _ => .error 2

/-- Major 0xC7: FLTRPL. -/
def decOpC7 (e : Enc) : Except Nat Instr :=
  match e.f with
  | 0x00#8 => .ok (.fltrpl e.p e.a e.b)
  | _ => .error 2

/-- Major 0xC8: EMUR. -/
def decOpC8 (e : Enc) : Except Nat Instr :=
  match e.f with
  | 0x00#8 => .ok (.emur e.p e.d e.a e.b)
  | _ => .error 2

/-- Major 0xC9: EMUW. -/
def decOpC9 (e : Enc) : Except Nat Instr :=
  match e.f with
  | 0x00#8 => .ok (.emuw e.p e.a e.b e.c)
  | _ => .error 2

/-- Major 0xCA: HOLDT. -/
def decOpCA (e : Enc) : Except Nat Instr :=
  match e.f with
  | 0x00#8 => .ok (.holdt e.p e.d e.a)
  | _ => .error 2

/-- Major 0xCB: RESUMET. -/
def decOpCB (e : Enc) : Except Nat Instr :=
  match e.f with
  | 0x00#8 => .ok (.resumet e.p e.d e.a)
  | _ => .error 2

/-- Major 0xCC: SNAP. -/
def decOpCC (e : Enc) : Except Nat Instr :=
  match e.f with
  | 0x00#8 => .ok (.snap e.p)
  | _ => .error 2

/-- Major 0xCD: CNTRD, CNTCLR. -/
def decOpCD (e : Enc) : Except Nat Instr :=
  match e.f with
  | 0x00#8 => .ok (.cntrd e.p e.d e.a)
  | 0x01#8 => .ok (.cntclr e.p e.a)
  | _ => .error 2

/-- Major 0xCE: WAYM. -/
def decOpCE (e : Enc) : Except Nat Instr :=
  match e.f with
  | 0x00#8 => .ok (.waym e.p e.d e.a)
  | _ => .error 2

/-- Major 0xCF: SGWAY. -/
def decOpCF (e : Enc) : Except Nat Instr :=
  match e.f with
  | 0x00#8 => .ok (.sgway e.p e.d e.a)
  | _ => .error 2

/-- The instruction that the minor codes and the used fields name; reason 2 for an unassigned minor, 3 for a reserved field value. -/
def candidate (e : Enc) : Except Nat Instr :=
  match e.op with
  | 0x00#8 => decOp00 e
  | 0x01#8 => decOp01 e
  | 0x02#8 => decOp02 e
  | 0x03#8 => decOp03 e
  | 0x04#8 => decOp04 e
  | 0x05#8 => decOp05 e
  | 0x06#8 => decOp06 e
  | 0x10#8 => decOp10 e
  | 0x11#8 => decOp11 e
  | 0x12#8 => decOp12 e
  | 0x13#8 => decOp13 e
  | 0x14#8 => decOp14 e
  | 0x15#8 => decOp15 e
  | 0x16#8 => decOp16 e
  | 0x17#8 => decOp17 e
  | 0x18#8 => decOp18 e
  | 0x30#8 => decOp30 e
  | 0x31#8 => decOp31 e
  | 0x32#8 => decOp32 e
  | 0x33#8 => decOp33 e
  | 0x38#8 => decOp38 e
  | 0x39#8 => decOp39 e
  | 0x3A#8 => decOp3A e
  | 0x40#8 => decOp40 e
  | 0x41#8 => decOp41 e
  | 0x42#8 => decOp42 e
  | 0x43#8 => decOp43 e
  | 0x44#8 => decOp44 e
  | 0x45#8 => decOp45 e
  | 0x46#8 => decOp46 e
  | 0x47#8 => decOp47 e
  | 0x48#8 => decOp48 e
  | 0x49#8 => decOp49 e
  | 0x4A#8 => decOp4A e
  | 0x4B#8 => decOp4B e
  | 0x50#8 => decOp50 e
  | 0x51#8 => decOp51 e
  | 0x52#8 => decOp52 e
  | 0x53#8 => decOp53 e
  | 0x60#8 => decOp60 e
  | 0x61#8 => decOp61 e
  | 0x62#8 => decOp62 e
  | 0x63#8 => decOp63 e
  | 0x64#8 => decOp64 e
  | 0x65#8 => decOp65 e
  | 0x66#8 => decOp66 e
  | 0x67#8 => decOp67 e
  | 0x68#8 => decOp68 e
  | 0x69#8 => decOp69 e
  | 0x6A#8 => decOp6A e
  | 0x6B#8 => decOp6B e
  | 0x6C#8 => decOp6C e
  | 0x70#8 => decOp70 e
  | 0x71#8 => decOp71 e
  | 0x72#8 => decOp72 e
  | 0x73#8 => decOp73 e
  | 0x74#8 => decOp74 e
  | 0x75#8 => decOp75 e
  | 0x76#8 => decOp76 e
  | 0x77#8 => decOp77 e
  | 0x80#8 => decOp80 e
  | 0x81#8 => decOp81 e
  | 0x82#8 => decOp82 e
  | 0x83#8 => decOp83 e
  | 0x84#8 => decOp84 e
  | 0x85#8 => decOp85 e
  | 0x86#8 => decOp86 e
  | 0x87#8 => decOp87 e
  | 0x88#8 => decOp88 e
  | 0x89#8 => decOp89 e
  | 0x8A#8 => decOp8A e
  | 0x8B#8 => decOp8B e
  | 0x90#8 => decOp90 e
  | 0x91#8 => decOp91 e
  | 0x92#8 => decOp92 e
  | 0x94#8 => decOp94 e
  | 0x95#8 => decOp95 e
  | 0x96#8 => decOp96 e
  | 0x97#8 => decOp97 e
  | 0xA0#8 => decOpA0 e
  | 0xA1#8 => decOpA1 e
  | 0xA2#8 => decOpA2 e
  | 0xA3#8 => decOpA3 e
  | 0xA4#8 => decOpA4 e
  | 0xA5#8 => decOpA5 e
  | 0xB0#8 => decOpB0 e
  | 0xB1#8 => decOpB1 e
  | 0xB2#8 => decOpB2 e
  | 0xB3#8 => decOpB3 e
  | 0xB4#8 => decOpB4 e
  | 0xB5#8 => decOpB5 e
  | 0xB6#8 => decOpB6 e
  | 0xB7#8 => decOpB7 e
  | 0xB8#8 => decOpB8 e
  | 0xB9#8 => decOpB9 e
  | 0xBA#8 => decOpBA e
  | 0xBB#8 => decOpBB e
  | 0xC0#8 => decOpC0 e
  | 0xC1#8 => decOpC1 e
  | 0xC2#8 => decOpC2 e
  | 0xC3#8 => decOpC3 e
  | 0xC4#8 => decOpC4 e
  | 0xC5#8 => decOpC5 e
  | 0xC6#8 => decOpC6 e
  | 0xC7#8 => decOpC7 e
  | 0xC8#8 => decOpC8 e
  | 0xC9#8 => decOpC9 e
  | 0xCA#8 => decOpCA e
  | 0xCB#8 => decOpCB e
  | 0xCC#8 => decOpCC e
  | 0xCD#8 => decOpCD e
  | 0xCE#8 => decOpCE e
  | 0xCF#8 => decOpCF e
  | _ => .error 1

/-! ## Words and bytes -/

/-- The format of a constructor, none for an event. -/
def Instr.fmt (i : Instr) : Option Fmt := fmtOf (fieldsOf i).op

/-- Length in bytes of an instruction. -/
def Instr.bytes (i : Instr) : Nat := (i.fmt.map Fmt.bytes).getD 0

/-- The word of an instruction, zero for an event. -/
def encodeWord (i : Instr) : BitVec 128 :=
  match i.fmt with
  | some k => pack k (fieldsOf i)
  | none => 0

/-- The bytes of a word, lowest first (00 R2). -/
def wordBytes (w : BitVec 128) (n : Nat) : List Byte := (List.range n).map fun k => byteOf w k

/-- The bytes of a well-formed instruction. -/
def encode (i : Instr) : List Byte := wordBytes (encodeWord i) i.bytes

/-- The little-endian number of a list of bytes. -/
def bytesNat : List Byte → Nat
  | [] => 0
  | b :: t => b.toNat + 256 * bytesNat t

/-- What a granule at PC is (07 Table R96). -/
inductive Decoded where
  /-- Fetch moves to the start of the next block. -/
  | pad
  /-- An illegal encoding: its reason and its length in granules (07 R112). -/
  | illegal (reason len : Nat)
  /-- A legal instruction and its length in bytes. -/
  | instr (i : Instr) (len : Nat)
deriving DecidableEq, Repr

/-- Decode a word whose length code has been found to end within the block: the checks of 07 R110, R111, R99, R100 and
R102, the reasons in the order of R112. A candidate is legal when the fields that it and no other description uses are
all the word holds, and they meet the description's limits. -/
def decodeWord (l : BitVec 2) (w : BitVec 128) : Decoded :=
  let op : BitVec 8 := w.extractLsb' 2 8
  let len := l.toNat + 1
  match fmtOf op with
  | none => .illegal (if 0xE0 ≤ op ∧ op ≤ 0xEF then 4 else 1) len
  | some k =>
    if k.code ≠ l then .illegal 7 len
    else match candidate (unpack k w) with
      | .error r => .illegal r len
      | .ok i => if i.wf ∧ fieldsOf i = unpack k w then .instr i k.bytes else .illegal 3 len

/-- Decode at a PC: `atStart` says that PC is at block offset 0, and `bs` are the bytes from PC to the block's end
(07 R96). -/
def decodeBytes (atStart : Bool) (bs : List Byte) : Decoded :=
  let w : BitVec 128 := BitVec.ofNat 128 (bytesNat (bs.take 16))
  let l : BitVec 2 := w.setWidth 2
  if l = 0 then
    if !atStart && bs.all (· == 0) then .pad else .illegal 5 1
  else if bs.length < 4 * (l.toNat + 1) then .illegal 6 (l.toNat + 1)
  else decodeWord l w

/-- The host's question: the instruction whose bits are `w`, every bit above `nbits` zero. -/
def decodeTableWord (nbits w : Nat) : Option Instr :=
  match decodeBytes true (wordBytes (BitVec.ofNat 128 (w % 2 ^ nbits)) 32) with
  | .instr i _ => some i
  | _ => none

end Sys2Proof
end

