-- ==== Sys2Proof/Machine/State.lean ====
section
/-! DEFINITION. The state of the package as plain data, and its value after reset. -/
namespace Sys2Proof.Machine

/-! ## Contexts -/

/-- 03 Table 3-1. -/
inductive CtxSt where
  | empty | reserved | running | parked | halted | saving
deriving DecidableEq, Repr

/-- 07 R109. -/
inductive Priv where
  | u | s | m
deriving DecidableEq, Repr

/-- Why a context halts: it tells EMULATION_REQUEST, RESUMET and the notices apart (07 R112, 15 R269, 21 R327). -/
inductive Halt where
  | reset
  /-- An illegal encoding: its reason, its length in granules, and the 16 bytes from it within its fetch block. -/
  | illegal (reason len : Nat) (bits : BitVec 128)
  | trap (cause : Nat)
  | hold
  | containment
deriving DecidableEq, Repr

/-- A byte-count barrier (13 R220). -/
structure Barrier where
  pending : BitVec 32 := 0
  armed : Bool := false
  init : BitVec 32 := 0
deriving DecidableEq, Repr

/-- What a parked context waits for (03 Table 3-1, 15 R242), with what its end needs. -/
inductive Park where
  /-- The end of a window whose operation waits on a block or on a fault. -/
  | window
  /-- A fetch that waits for its block or its fault's reply. -/
  | fetch
  /-- A suspension that waits for its record write or its descriptor (03 R40). -/
  | suspend (op : Nat)
  | fence (scope : Scope) (order : Order) (probes : Nat) (sent : Bool)
  | bar (k : BitVec 2) (comb : Bool)
  | recv (d : Pair) (c : G)
  | waitl (d : G) (old : Word) (deadline : Option Word) (host : Bool)
  | sleep (d : G) (deadline : Word) (mbox : Bool)
  | cwait (mask : BitVec 4) (upto : Nat)
  | cbwait (k : BitVec 2)
  | cqf (copies : BitVec 4) (tasks : BitVec 8) (upto : Nat) (tickets : List Word)
  | texit
  | yieldDrain
  /-- EVAC of a slot, and the granules copied. -/
  | evac (d : G) (slot : Nat) (dest : Word) (done : Nat)
  | movc (sel : BitVec 7) (value : Word)
  | tlbsync
  /-- EMUR into `d`, EMUW without one: target, index, value. -/
  | emu (d : Option G) (core : CoreId) (ctx : CtxId) (idx : Nat) (value : Word)
  | holdt (d : G) (core : CoreId) (ctx : CtxId)
  | waym (d : G) (joining : Nat)
  | sgway (d : G)
  | lyr (d : G) (op : Nat) (a b : Word)
deriving DecidableEq, Repr

/-- A translation of a 64-byte granule: its physical key and what the leaf says of it (21 Table 21-9), or a block-store
granule. `blk` is the key of its block's first byte. -/
structure Map where
  key : Nat
  isBlock : Bool
  n : Nat := 0
  blk : Nat := 0
  tier : Nat := 0
  watch : Option (BitVec 8) := none
  pageBits : Nat := 12
deriving DecidableEq, Repr

/-- Where an access stands. -/
inductive AccSt where
  /-- To be translated or presented. -/
  | fresh
  /-- Presented at a bank of a store, or on its way to the coherence point. -/
  | bank
  /-- Refused by the bank: presented again in the thread's next slot, which it occupies (01 R12). -/
  | again
  /-- Refused by a full waiting list: presented again in the thread's first slot (05 R77). -/
  | relist
  /-- Waiting for a walk. -/
  | walking
  /-- Waiting for a fault's reply. -/
  | faulted
  /-- On its way to its home or cache, or waiting for its line. -/
  | sent
  /-- Performed; its reply is on its way. -/
  | performed
  /-- A descriptor stands on the block's waiting list. -/
  | placed
  /-- Found its block not full and placed nothing. -/
  | notFull
  /-- Performed and acknowledged. -/
  | done
  /-- Ended in a trap or a machine check. -/
  | failed
deriving DecidableEq, Repr

/-- One granule access of an agent. -/
structure Access where
  va : Word
  mask : BitVec 64
  op : HomeOp
  map : Option Map := none
  st : AccSt := .fresh
  rdata : Granule := 0
  tag : BitVec 16 := 0
  written : Bool := false
  /-- Why it failed: a trap cause, 12 for failing data, 256 for an abandoned fault, 257 for a withdrawn waiting list (a
  copy), 258 for a discarded remote token, 259 for containment. -/
  cause : Nat := 0
  /-- The key of the page-table entry whose read met failing data (21 R341). -/
  pte : Option Nat := none
  /-- It is made again after a fault: its walk starts at the root (21 R333). -/
  root : Bool := false
  /-- Siblings that have read this write from the store buffer (19 R319). -/
  seen : List CtxId := []
deriving DecidableEq, Repr

/-- A part of a vector load's destination: `len` bytes at `dst` of the register or pair come from byte `src` of access `acc`. -/
structure LanePart where
  dst : Nat
  acc : Nat
  src : Nat
  len : Nat
deriving DecidableEq, Repr

/-- What an outstanding operation does at its completion. -/
inductive OpKind where
  | calcG (d : G) (x : Word)
  | calcV (d : V) (x : BitVec 256) (fl : BitVec 8)
  | load (sz : Sz) (d : G)
  | loadM (c : BitVec 3) (d : G)
  | ldq (d : G)
  | ldtry (sz : Sz) (d : G)
  | bwait (d : G)
  | store
  | atomic (ty : Ty) (q : Bool) (d : G)
  | post
  | vload (d : V) (pair : Bool) (parts : List LanePart)
deriving DecidableEq, Repr

/-- An outstanding operation (03 R33). `left` is how many further instructions its window admits. -/
structure Op where
  id : Nat
  ctx : CtxId
  tid : Nat
  pc : Word
  len : Nat
  left : Nat
  /-- Its lookahead (07 R104). -/
  n : Nat := 0
  kind : OpKind
  /-- A far atomic (11 R185). -/
  far : Bool := false
  gMask : BitVec 32 := 0
  vMask : BitVec 16 := 0
  asid : BitVec 16
  priv : Priv
  accs : List Access := []
  order : Order := 0
  scope : Scope := 0
  /-- The instruction, for a vector load that is performed again (13 R209). -/
  ins : Option Instr := none
  trap : Option Trap := none
  /-- Counts against its launch (03 R48), and was issued before its member's TRIG. -/
  counted : Bool := false
  pre : Bool := false
  launch : BitVec 32 := 0
  /-- Its wait is a suspension, not a park (03 Table 3-3). -/
  suspends : Bool := false
deriving DecidableEq, Repr

/-- A hardware context (03 R27, 07 Table 7-9). -/
structure Ctx where
  st : CtxSt := .empty
  g : Vector Word 32 := Vector.replicate 32 0
  v : Vector (BitVec 256) 16 := Vector.replicate 16 0
  p : Vector (BitVec 32) 8 := Vector.replicate 8 0
  pc : Word := 0
  asid : BitVec 16 := 0
  rnd : Word := 0
  lvl : BitVec 2 := 0
  member : BitVec 16 := 0
  gang : BitVec 32 := 0
  launch : BitVec 32 := 0
  fmt : Word := 0
  scl : Word := 0
  triggered : Bool := false
  gangMember : Bool := false
  pinned : Bool := false
  prio : BitVec 2 := 0
  priv : Priv := .u
  winSize : Nat := 0
  winOff : Nat := 0
  bars : Vector Barrier 4 := Vector.replicate 4 {}
  batch : Bool := false
  touched : BitVec 64 := 0
  inHandler : Bool := false
  traps : List Trap := []
  /-- A trap is being delivered: the context issues nothing (21 R330 step 1). -/
  delivering : Bool := false
  /-- Halting or halted, and why. -/
  halt : Option Halt := none
  preempt : Option (BitVec 5) := none
  /-- A pre-emption has ended its park: outside a handler it issues nothing before the save (15 R256). -/
  yielded : Bool := false
  hold : Bool := false
  /-- Its thread was reaped: the context empties once nothing of it is outstanding (15 R254). -/
  reaping : Bool := false
  /-- A TREAP waits for the save of the context and has not yet found it empty (15 R254). -/
  reapWaits : Bool := false
  /-- Second-tier lines that the thread has written and whose device has not yet acknowledged them (19 R326). -/
  devLines : List Nat := []
  /-- Granules of the packet it has open, 0 when none is (15 R259). -/
  packet : Nat := 0
  park : Option Park := none
  /-- The access of a parked instruction or of hardware for this context, and how far a save or restore has come. -/
  acc : Option Access := none
  progress : Nat := 0
  /-- What dispatch or TSTART is filling the context from: the entry's record address and ASID, and TSTART's window. -/
  filling : Option (RqEnt × Option (Nat × Nat) × Bool) := none
  /-- The launch number that the context waits on for its table entry (03 R45). -/
  awaitsLaunch : Bool := false
  /-- Which thread of the context this is: a reply to an earlier one is dropped. -/
  tid : Nat := 0
  /-- The number of its posted operations not yet acknowledged (19 R390), and of those before TRIG. -/
  posted : Nat := 0
  /-- Withdrawn copies that a save collects or a restore re-issues (03 R57, R60). -/
  withdrawn : List (Word × Word) := []
  withdrawnLen : Nat := 0
  /-- Its first instruction takes the block-withdrawn trap, with this address (05 Table 5-9). -/
  withdrawnAt : Option Word := none
  /-- The model's own: the next instruction has counted its lookahead miss (03 R34). -/
  missed : Bool := false
deriving DecidableEq, Repr

/-! ## Cores -/

/-- A copy command (13 Table 13-5) and how far it has come. -/
structure Cmd where
  seq : Nat
  ctx : CtxId
  tid : Nat
  pc : Word
  word0 : Word
  word1 : Word
  asid : BitVec 16
  priv : Priv
  launch : BitVec 32 := 0
  /-- Held in the open batch (13 R221). -/
  held : Bool := false
  /-- A beat has entered the network (03 R57). -/
  issued : Bool := false
  /-- Byte offset of the granule in progress. -/
  off : Nat := 0
  /-- The access in progress: the read of the source granule, then the write of the destination. -/
  acc : Option Access := none
  writing : Bool := false
  data : Granule := 0
  /-- Granules of a whole compressed span that the hub has gathered (05 R93). -/
  span : List Granule := []
  /-- Byte offset that the beats started so far reach. -/
  started : Nat := 0
  /-- Discarded when its access ends: its thread was reaped (13 R222). -/
  orphan : Bool := false
  /-- Supergroups whose running SGWAY found a beat of it accepted and lets it run on (05 Table 5-9, step 2). -/
  before : List (BitVec 8) := []
deriving DecidableEq, Repr

/-- A CLR or CLRN whose outcome is not yet reported (11 R180). One of another package stands in its request (21 R338). -/
structure ClrRun where
  id : Nat
  ctx : CtxId
  tid : Nat
  pc : Word
  va : Word
  asid : BitVec 16
  priv : Priv
  count : Nat
  /-- CLRN, whose trap gives the number refused. -/
  counts : Bool := true
  /-- The next block of the run, and the access that places it. -/
  next : Nat := 0
  acc : Access
  /-- The watch table has been incremented for the block in progress, which is held (17 R294). -/
  bumped : Bool := false
  /-- The first block's place: later blocks follow it in its page or region. -/
  first : Option Map := none
  refused : Nat := 0
  firstRefused : Word := 0
deriving DecidableEq, Repr

/-- A translation-cache entry (21 Table 21-10): the leaf found for a page of an address space. -/
structure TlbEnt where
  asid : BitVec 16
  /-- The page's first offset in the window, and its size 2^bits. -/
  base : Nat
  bits : Nat
  e0 : Word
  e1 : Word
  /-- The physical key of the leaf's first replica (05 R90). -/
  pte : Nat
deriving DecidableEq, Repr

/-- A granule in a mailbox with its info word's fields; a timer notice is marked. -/
structure MboxEnt where
  msg : Msg
  timer : Bool := false
deriving DecidableEq, Repr

structure Core where
  ctxs : Vector Ctx 16 := Vector.replicate 16 {}
  ops : List Op := []
  nextId : Nat := 0
  clrs : List ClrRun := []
  cmds : List Cmd := []
  /-- Context and queue of the command whose beat the engine started last (13 R215). -/
  rot : Nat := 0
  /-- The first cycle in which it may start a beat again. -/
  beatAt : Nat := 0
  mbox : List MboxEnt := []
  /-- Granules that wait in the network to enter the mailbox (15 R259). -/
  inQ : List Msg := []
  bound : Option CtxId := none
  /-- A reaped binder's packet is discarded as it arrives (15 R262). -/
  dropPacket : Bool := false
  recvOrder : List CtxId := []
  sendQ : List Msg := []
  /-- The packet that holds the mailbox's input (15 R259). -/
  inLock : Option (BitVec 5 × CoreId × CtxId) := none
  rq : List RqEnt := []
  /-- Pushes that the inbound wake buffer holds, and those behind it that the mesh's credits hold (03 R52, 01 R18). -/
  wake : List RqEnt := []
  wakeNet : List RqEnt := []
  deque : List RqEnt := []
  itlb : List TlbEnt := []
  dtlb : List TlbEnt := []
  /-- Fetch blocks by the key of their first byte (07 R387). -/
  code : List (Nat × Option (BitVec 256)) := []
  savebase : Word := 0
  rqspill : Word := 0
  age : Word := 0x10000
  rqhi : Word := 48
  tvec : Word := 0
  timer : Word := 0
  evc : Vector (BitVec 32) 8 := Vector.replicate 8 0
  evsel : Vector (BitVec 8) 8 := Vector.replicate 8 0
  marks : BitVec 16 := 0
  ways : BitVec 12 := 0x003
  /-- A WAYM runs: no fetch issues (15 R273). -/
  wayBusy : Bool := false
  pushedAt : Nat := 0
  snap : List Word := []
  /-- Counters that a CNTCLR of this cycle clears: an event of the cycle is lost (15 R272). -/
  clearing : BitVec 8 := 0
deriving DecidableEq, Repr

/-- A core right after reset: context 0 halted at PC 0 with every register zero, privilege M (03 R32). -/
def Core.reset : Core :=
  { ctxs := (Vector.replicate 16 {}).set 0 { st := .halted, halt := some .reset, priv := .m } }

/-! ## Homes -/

/-- A waiter descriptor (05 Table 5-7). -/
inductive Desc where
  | cont (addr : BitVec 48) (core : CoreId) (asid : BitVec 16) (prio : BitVec 2) (pinned : Bool)
  /-- A parked context: which operation's access it names, or a parked instruction's. -/
  | parked (who : Agent) (dst : BitVec 5) (isV isP : Bool) (off len : Nat)
  | task (sg : BitVec 8) (ticket : Word)
  | copy (core : CoreId) (ctx : CtxId) (queue : BitVec 2) (seq : Nat)
  | token (pkg : BitVec 5) (tok : BitVec 32) (port : BitVec 11)
deriving DecidableEq, Repr

/-- A descriptor on the list of the block whose first byte has key `blk` and whose exponent is `n`. -/
structure Waiter where
  blk : Nat
  n : Nat
  desc : Desc
  /-- Its place in the controller's spill region, none in the hardware table (05 R77). -/
  slot : Option Nat := none
deriving DecidableEq, Repr

/-- A block whose last granule is written and whose release is still awaited, or whose drain runs (05 R73, R79). -/
structure Fill where
  blk : Nat
  n : Nat
  /-- Operations of the writer's core that the release awaits, and requests at the home hub. -/
  before : List (CoreId × Nat) := []
  /-- Accesses at lower addresses of the filling instruction itself (13 R207). -/
  lower : List Agent := []
  posts : List Nat := []
  /-- Full and draining its waiters. -/
  draining : Bool := false
deriving DecidableEq, Repr

/-- Something held at a home behind a CLR that waits for a drain (05 R75). -/
structure Held where
  blk : Nat
  who : Agent
deriving DecidableEq, Repr

/-- An access presented at a bank of a shared store (01 R12). `store` is the key of the store's first byte. -/
structure BankReq where
  store : Nat
  bank : Nat
  /-- Position among the store's requesters. -/
  pos : Nat
  who : Agent
  since : Nat
  /-- The cycle in which it reached the store's input: an input presents its oldest access (01 R12). -/
  arr : Nat := 0
deriving DecidableEq, Repr

/-! ## Translation and faults -/

/-- A walk in progress (21 R339). -/
structure Walk where
  id : Nat
  grp : BitVec 16
  asid : BitVec 16
  va : Word
  waiters : List Agent
  started : Bool
  /-- A walk of a replayed access starts at the root (21 R333). -/
  root : Bool := false
deriving DecidableEq, Repr

/-- An outstanding fault (21 R334). -/
structure FaultEnt where
  info : FaultInfo
  seq : BitVec 12
  cyc : Nat
  waiters : List Agent
  /-- The core, context and thread of the FLTRPL that answers it, and the number below which lie the operations that the
  thread issued earlier (21 R335). -/
  issuer : Option (CoreId × CtxId × Nat × Nat) := none
deriving DecidableEq, Repr

/-- A request held or in progress at the home hub (11 R186, R187; 21 R338). -/
structure HomeReq where
  id : Nat
  req : RemReq
  acc : Access
  tid : Nat := 0
  counted : Bool := false
  pre : Bool := false
  /-- The operation of the core that made the request, where it is one of this package. -/
  op : Nat := 0
  /-- A CLR or CLRN of another package. -/
  run : Option ClrRun := none
  /-- The handle of its abandoned fault and word 0 of the fault's record (21 Table 21-13). -/
  fault : Word × Word := (0, 0)
deriving DecidableEq, Repr

/-- A request that this package has outstanding at another (21 R338, 05 R79). -/
structure RemOut where
  pkg : BitVec 5
  req : RemReq
  who : Agent
  /-- A token of it waits there. -/
  placed : Bool := false
  /-- The continuation of the reader, where it has suspended (05 Table 5-7). -/
  cont : Option Desc := none
deriving DecidableEq, Repr

/-! ## Launches, gangs and the service cores -/

/-- A launch and its accounting (03 R45, R48; 23 R363–R365). -/
structure Launch where
  num : BitVec 32
  /-- Address and ASID of the record in memory, and the job that accepted it. -/
  recAddr : Word
  recAsid : BitVec 16
  quad : BitVec 2
  dies : BitVec 8
  power : BitVec 8
  members : Nat
  asid : BitVec 16
  level : BitVec 2
  prio : BitVec 2
  gangs : Nat
  entry : Word
  args : Word
  frame : Word
  stride : Word
  completion : Word
  trigger : Word
  fmt : Word
  scl : Word
  status : Nat := 0
  cause : Nat := 0
  /-- This package's share of the gangs, and the next to place. -/
  first : Nat := 0
  next : Nat := 0
  last : Nat := 0
  placed : Nat := 0
  /-- Members started here (23 R363). -/
  begun : Nat := 0
  triggered : Nat := 0
  retired : Nat := 0
  /-- Stores, POSTs and REDs not yet acknowledged, and those issued before their member's TRIG. -/
  unacked : Nat := 0
  unackedPre : Nat := 0
  trigDone : Bool := false
  complDone : Bool := false
  /-- A domain launch in containment: Halt is sent (23 R363). -/
  contained : Bool := false
  /-- Reads of its queue, for a launch packet: queue and packet index (25 R370). -/
  queue : Option (BitVec 6) := none
  /-- A domain launch: its coordinator, its packages and those that answered (23 R363, R364). -/
  coord : Option (BitVec 5) := none
  pkgs : List (BitVec 5) := []
  racks : List (BitVec 5) := []
  starts : List (BitVec 5) := []
  trigs : List (BitVec 5) := []
  dones : List (BitVec 5) := []
  halts : List (BitVec 5) := []
  /-- Gangs whose contexts a reserve holds, to start at Go. -/
  phase : Nat := 0
deriving DecidableEq, Repr

/-- A gang placed on this package: its members in index order with the thread they run (03 R43, R47). -/
structure Gang where
  launch : BitVec 32
  index : BitVec 32
  level : BitVec 2
  members : List (CoreId × CtxId)
  started : List (BitVec 16) := []
  trig : List (BitVec 16) := []
  exited : List (BitVec 16) := []
  /-- Members arrived at barriers 0–3. -/
  at0 : List (BitVec 16) := []
  at1 : List (BitVec 16) := []
  at2 : List (BitVec 16) := []
  at3 : List (BitVec 16) := []
  /-- For BAR.comb: the target of member 0 at each barrier, and the trap it takes after the release. -/
  comb : List (BitVec 2 × Word) := []
  /-- The first cycle in which the members of a barrier that all have reached may resume. -/
  due : List (BitVec 2 × Nat) := []
deriving DecidableEq, Repr

/-- What a service core's job does. -/
inductive JobKind where
  | launch (addr : Word) (asid : BitVec 16) (queue : Option (BitVec 6))
  | trig (launch : BitVec 32)
  | compl (launch : BitVec 32)
  | apRead (w : BitVec 2) (off : Word) (bytes tag : Nat)
  | apWrite (w : BitVec 2) (off : Word) (data : List Byte)
  /-- The write of a launch record's Status word. -/
  | status (launch : BitVec 32)
  | fetch (q : BitVec 6)
deriving DecidableEq, Repr

structure Job where
  id : Nat
  kind : JobKind
  quad : BitVec 2
  asid : BitVec 16 := 0
  acc : Option Access := none
  phase : Nat := 0
  buf : List Byte := []
  /-- The key of the completion block that an acceptance has found (03 R46). -/
  blk : Nat := 0
deriving DecidableEq, Repr

/-! ## Task schedulers and engines -/

/-- Where a task stands (17 R300, R282–R289). -/
inductive TaskSt where
  | issued | presence | waiting | ready | running | faulted | ending | done
deriving DecidableEq, Repr

/-- An outstanding task (17 R281): its record's words as accepted, its configuration block and its progress. -/
structure Task where
  ticket : Word
  record : Word
  queue : BitVec 3
  core : CoreId
  ctx : CtxId
  tid : Nat
  pc : Word
  asid : BitVec 16
  priv : Priv
  launch : BitVec 32
  power : Nat := 0
  st : TaskSt := .issued
  /-- Words +0x00 to +0x58 of the record, then the configuration block's four. -/
  words : List Word := []
  /-- The next location of the presence check, or the next element of the phase in the engine. -/
  step : Nat := 0
  acc : Option Access := none
  engine : Nat := 0
  /-- Cycle from which every condition of R284 has held, and at which it issued to its engine (17 R285). -/
  readyAt : Option Nat := none
  issuedAt : Nat := 0
  /-- Its engine is to change to its configuration id before its first K-step (17 R276). -/
  changes : Bool := false
  kstep : Nat := 0
  rows : Nat := 0
  committed : Bool := false
  status : Word := 0
  /-- Accumulators, row by row, as .f32 or .s32 encodings. -/
  accs : List (BitVec 32) := []
  /-- Operand bytes read for the phase in progress. -/
  buf : List (Word × Granule) := []
  reaped : Bool := false
  /-- The invocation's sampled watch version, and its new X̂ and Y with the commit's reason (17 R295). -/
  v0 : BitVec 32 := 0
  xnew : List (BitVec 32) := []
  ynew : List (BitVec 32) := []
  reason : Nat := 0
  passes : Nat := 0
  /-- It writes its D rows (17 R290). -/
  writing : Bool := false
  /-- Its record says that it is running, and a GRAFT has sampled its watch version (17 R295). -/
  begun : Bool := false
  /-- How it ends: 0, or its cause, and the address that its trap names. -/
  fin : Option Nat := none
  bad : Word := 0
  /-- Its access is the final write of its record. -/
  last : Bool := false
deriving DecidableEq, Repr

structure Engine where
  config : BitVec 32 := 0
  /-- The graft record it holds (17 R292). -/
  holds : Option (BitVec 16) := none
  /-- Busy with a configuration change or a phase until this cycle. -/
  busyUntil : Nat := 0
deriving DecidableEq, Repr

/-- A supergroup's task scheduler and its four engines (17 R276, R281). -/
structure Sg where
  seq : BitVec 48 := 0
  tasks : List Task := []
  engines : Vector Engine 4 := Vector.replicate 4 {}
deriving DecidableEq, Repr

/-! ## Coherence -/

/-- A line of a plain-line cache (23 R343). -/
structure Line where
  st : Granted := .i
  data : Granule := 0
deriving DecidableEq, Repr

/-- A snoop-filter entry of a die (23 R344); `x` is held as `.m`. -/
structure Snoop where
  granted : Granted := .i
  present : BitVec 32 := 0
deriving DecidableEq, Repr

inductive ReqKind where
  | rds | rdx | upg
deriving DecidableEq, Repr

/-- A request that a die bank has sent to the hub, and the caches that wait for it (23 R344). -/
structure DieReq where
  die : BitVec 3
  line : Nat
  kind : ReqKind
  /-- An Inv met it while it was an Upg (23 R352). -/
  lost : Bool := false
  sgs : List (BitVec 8 × Bool) := []
deriving DecidableEq, Repr

/-- Directory states (23 Table 23-3). -/
inductive DirSt where
  | free | hs | ho | hx | ixD | sxA | xxF | xoF | xiW | xrA | srA
deriving DecidableEq, Repr

structure DirEnt where
  line : Nat := 0
  st : DirSt := .free
  busy : Bool := false
  coarse : Bool := false
  owner : AgentId := 0
  ptrs : List AgentId := []
  pkgs : BitVec 32 := 0
  age : BitVec 4 := 0
deriving DecidableEq, Repr

/-- A request in a line's queue (23 R351). -/
inductive HubReq where
  | rd (k : ReqKind) (r : CohReq)
  | wb (line : Nat) (agent : AgentId) (inc : BitVec 8) (data : Granule) (dirty : Bool)
  | far (line : Nat) (who : Agent)
deriving DecidableEq, Repr

def HubReq.line : HubReq → Nat
  | .rd _ r => r.line
  | .wb l _ _ _ _ => l
  | .far l _ => l

/-- An open transaction of the hub (23 R350). -/
structure Txn where
  line : Nat
  /-- None for a recall. -/
  req : Option HubReq
  /-- The entry as the transaction found it. -/
  prior : DirEnt
  /-- Agents to which it has sent FwdS, FwdX or Inv (23 R353). -/
  asked : List AgentId := []
  needAcks : List AgentId := []
  /-- The owner to whom a forward is outstanding. -/
  fwd : Option AgentId := none
  sentAt : Nat := 0
  /-- Memory data is awaited; it has failed its check; a MemWr is awaited. -/
  needMem : Bool := false
  memBad : Bool := false
  needWr : Bool := false
  /-- The data that goes to the requester, and whether it is dirty. -/
  got : Option (Granule × Bool) := none
  gone : Bool := false
  /-- WbDs that cross (23 R353). -/
  crossing : List AgentId := []
  /-- The answer to the requester has been sent; its Cmp is awaited. -/
  answered : Bool := false
  err : Bool := false
  /-- A recall for a request that takes the victim's way when it ends: that request's line (23 R355). -/
  want : Option Nat := none
deriving DecidableEq, Repr

/-- A Milhan link (23 R360, R361). -/
structure Link where
  up : Bool := true
  rx : BitVec 6 := 0
  tx : BitVec 6 := 0
  /-- The last 64 flits sent. -/
  sent : List Flit := []
  /-- How often each of them has been replayed in a row, oldest first. -/
  replays : List Nat := []
  /-- Credits that the other side has returned, flits sent, and flits received whose credits are to be returned, by class. -/
  credits : Vector Nat 3 := Vector.replicate 3 0
  used : Vector Nat 3 := Vector.replicate 3 0
  owed : Vector Nat 3 := Vector.replicate 3 0
  /-- Payloads that wait for credits, with their packages and classes, oldest first. -/
  queue : List (BitVec 5 × BitVec 2 × List Byte) := []
  /-- The bytes received of the message in progress of each class. -/
  partIn : Vector (List Byte) 3 := Vector.replicate 3 []
deriving DecidableEq, Repr

structure Coh where
  /-- Misses and upgrades on their way to their banks: cache, line, whether exclusive (23 R344). -/
  misses : List (BitVec 8 × Nat × Bool) := []
  /-- By sg · 2^128 + line and die · 2^128 + line. -/
  lines : List (Nat × Line) := []
  snoops : List (Nat × Snoop) := []
  dieReqs : List DieReq := []
  /-- Lines in a die's writeback buffer: die, line, data, Dirty (23 R353). -/
  wbs : List (BitVec 3 × Nat × Granule × Bool) := []
  /-- Masked writes held for a pending fill: cache, line, mask, data, whose they are (19 R320). -/
  merges : List (BitVec 8 × Nat × BitVec 64 × Granule × Agent) := []
  /-- Directory entries by slice · 2^19 + set · 16 + way. -/
  dir : List (Nat × DirEnt) := []
  txns : List Txn := []
  queue : List HubReq := []
  /-- Requests that wait in the network for an entry of their slice's pool (23 R351). -/
  net : List HubReq := []
  /-- Requests held at the ports of fenced slices (23 R356). -/
  fenced : List HubReq := []
  censusLeft : List (BitVec 3 × List AgentId) := []
  fencedIdx : List (BitVec 3) := []
  inc : List (Nat × BitVec 8) := []
  /-- The home's frame line of each alias that a die holds, by die · 2^128 + alias (23 R343). -/
  frames : List (Nat × Nat) := []
  dead : List AgentId := []
  /-- Uncorrectable check errors that slices have reported, with their cycles (23 R356). -/
  sliceErrs : List (BitVec 3 × Nat) := []
  links : List (Nat × Link) := []
deriving DecidableEq, Repr

/-! ## Host side -/

/-- The life-cycle states (25 R377). -/
inductive Life where
  | manufacturing | provisioned | deployed | returned
deriving DecidableEq, Repr

/-- The coherence messages that pass between packages (23 Table 23-1). -/
inductive CohKind where
  | rds | rdx | upg | wbd | inv | invAck | fwdS | fwdX | data | dataX | cmp | census | censusReport | censusEnd
deriving DecidableEq, Repr

/-- A coherence message with the fields of 23 Table 23-1: the line, the agent that sends it or to which it goes, and its
incarnation. -/
structure CohMsg where
  kind : CohKind
  line : Nat
  agent : AgentId
  inc : BitVec 8
  data : Granule := 0
  dirty : Bool := false
  gone : Bool := false
  err : Bool := false
  rcl : Bool := false
  requester : AgentId := 0
  granted : Granted := .i
  id : Option (BitVec 40) := none
deriving DecidableEq, Repr

/-- The mesh's message classes (01 R18). -/
inductive MeshClass where
  | request | response | wake
deriving DecidableEq, Repr

/-- What has left the package. -/
inductive Out where
  | request (pkg : BitVec 5) (r : RemReq)
  | reply (id : BitVec 40) (r : Reply)
  | message (m : Msg) (pkg : BitVec 5)
  | coh (pkg : BitVec 5) (m : CohMsg)
  | launch (pkg : BitVec 5) (what : String) (num : BitVec 32) (cause : Nat)
  | reserve (pkg : BitVec 5) (msg : Reserve)
  | flit (link : BitVec 4) (f : Flit)
  | token (pkg : BitVec 5) (tok : BitVec 32) (line : Nat) (gen : BitVec 6)
  | contain (pkg : BitVec 5) (agents : List AgentId)
  | host (tag : Nat) (data : List Byte)
  | unsupported (tag : Nat)
  | msix (vector : Nat)
  | attest (signature : List Byte)
  | refused (status : Nat)
deriving DecidableEq, Repr

/-- The bytes of a message between packages, and the message that bytes of one class make, none while more of it is to come
(23 R360 says how messages fill flits and gives no encoding); log entry 89. -/
opaque Config.wireBytes : Out → List Byte
opaque Config.wireEvent : List Byte → Option Event

structure Sys where
  life : Life := .manufacturing
  rollback : Nat := 0
  keyHash : BitVec 256 := 0
  recovery : Bool := false
  version : Nat := 0
  digest : BitVec 256 := 0
  image : List Byte := []
  /-- Service cores held in reset by a failed verification (25 R378). -/
  servReset : Bool := false
  /-- The cycle at which the running wipe ends (25 R376). -/
  wipeEnd : Option Nat := none
  /-- Quadrants that a running wipe covers, each set with the cycle of its end. -/
  wiping : List (BitVec 4 × Nat) := []
  /-- The identity key: none before Provisioned, where it is derived from the fused secret, and none once it is erased (25
R377). -/
  identity : Option (BitVec 256) := none
  /-- Root ports whose CXL link is down (25 R373). -/
  cxlDown : List (BitVec 4) := []
  /-- The Tail word that the owner of a queue last read, by queue (25 R370, R372). -/
  tails : List (Nat × BitVec 32) := []
  /-- Quadrants of each partition, by quadrant: the partition's lowest (25 R374). -/
  parts : Vector (BitVec 2) 4 := Vector.replicate 4 0
  /-- Routing tables by 256 · router + destination, where firmware has loaded them; X-then-Y where not (01 R19). -/
  routes : List (Nat × Option Port) := []
  /-- The hub's package route table: the Milhan link of each package, where firmware has loaded it (23 R361). -/
  pkgRoutes : List (Nat × Option (BitVec 4)) := []
  /-- The model's own: how many entries of the outbox have gone to their links. -/
  carried : Nat := 0
  /-- Routers in passive bypass (01 R21). -/
  bypass : List (BitVec 8) := []
  /-- The cycle until which a load of tables holds injection at the routers of a partition (01 R23). -/
  holding : List (BitVec 2 × Nat) := []
  /-- The cycle in which the last message of a class between two routers arrives, by 4 · (256 · source + destination) +
  class: later ones follow it (01 R18). -/
  lanes : List (Nat × Nat) := []
  /-- Messages that wait at their routers for a load of tables to release injection: from, to, class, and what they are
(01 R23). -/
  waiting : List (BitVec 8 × BitVec 8 × MeshClass × Event) := []
  /-- Lines of second-tier memory, as far as known, that threads wrote which have left their contexts (19 R326). -/
  devLeft : List Nat := []
  halved : Bool := false
  halfChans : List (BitVec 9) := []
  /-- The snapshot registers: %cyc at the last latch of each quadrant's blocks and of the hub's, and the draw from which the
words that the manual does not define come, 0 before a latch (25 R383, R384). -/
  snapCyc : Vector Word 5 := Vector.replicate 5 0
  snapSeed : Vector Nat 5 := Vector.replicate 5 0
  debugSel : Word := 0
  scrubCount : Nat := 0
  /-- Lost messages and notices by die (21 R336). -/
  lost : Vector Nat 8 := Vector.replicate 8 0
  recalls : Nat := 0
  /-- Queues whose fetch of a packet has begun, and those to destroy after it (25 R372). -/
  begun : List (BitVec 6) := []
  destroying : List (BitVec 6) := []
  /-- Requests of this package outstanding at others, the remote tokens among them (05 R79, R80; 21 R338). -/
  tokens : List RemOut := []
  contained : Bool := false
  /-- The snapshot threshold has fired and its counter still has the value (25 R383). -/
  fired : Bool := false
deriving DecidableEq, Repr

/-! ## The package -/

/-- A TLBI on its way (15 R267): kind 0 .VA, 1 .ASID, 2 .ALL; once it has taken effect, the agents that were still using
a translation. -/
structure Tlbi where
  core : CoreId
  ctx : CtxId
  tid : Nat
  kind : Nat
  asid : BitVec 16
  va : Word
  done : Bool := false
  users : List Agent := []
deriving DecidableEq, Repr

structure State where
  /-- %cyc (25 R380), as a Nat that reads modulo 2^64. -/
  cyc : Nat := 0
  /-- The model's own: the next core to be offered this cycle's slot. -/
  turn : Nat := 0
  /-- The model's own: the core whose context issues. -/
  slot : CoreId := 0
  /-- The model's own: the counter that free values are drawn with. -/
  fresh : Nat := 0
  /-- The model's own: pending steps of the device's agents with the cycle each falls due. -/
  agenda : List (Nat × Event) := []
  /-- The model's own: the event that is being performed, with its arguments. -/
  ev : Option Event := none
  /-- The model's own: what has left the package: messages to other packages, answers to the host. -/
  outbox : List Out := []
  mem : List Host.Cell := []
  /-- The 16 metadata bits of each 64-byte atom, by key / 64 (05 R70). -/
  atoms : List (Nat × BitVec 16) := []
  /-- Check bits of each atom: 0 good, 1 correctable, 2 uncorrectable (05 R87, R88). -/
  ecc : List (Nat × Nat) := []
  cores : List (Nat × Core) := []
  /-- Store region registers, by 4 · (store's key / 2^22) + index (05 Table 5-3). -/
  rgns : List (Nat × Word) := []
  /-- Plain-way masks of the supergroup stores (05 R84). -/
  sgWays : List (Nat × BitVec 16) := []
  /-- SGWAYs waiting or in progress: supergroup, issuer and mask, and the step (05 Table 5-9). -/
  sgway : List (BitVec 8 × CoreId × BitVec 16 × Nat) := []
  waiters : List Waiter := []
  /-- Continuations whose blocks were withdrawn: record address, ASID and the block's key (05 Table 5-9). -/
  withdrawnConts : List (Word × BitVec 16 × Nat) := []
  fills : List Fill := []
  held : List Held := []
  banks : List BankReq := []
  /-- BAR0 registers by offset (25 Table 25-1). -/
  bar0 : List (Nat × Word) := []
  heatk : Word := 8
  heatd : Word := 20
  pkg : Word := 0
  fltsvc : Vector Word 8 := Vector.replicate 8 0
  supv : Vector Word 8 := Vector.replicate 8 0
  /-- Group second-level TLBs, walk-cache pointers, samplers (21 Table 21-10, 05 R90). -/
  tlb2 : List (Nat × List TlbEnt) := []
  walkCache : List (Nat × List (Nat × Word)) := []
  samplers : List (Nat × Nat) := []
  walks : List Walk := []
  tlbis : List Tlbi := []
  hubTlb : List TlbEnt := []
  /-- Fault entries by table · 65536 + entry, and each entry's last Seq (21 Table 21-5). -/
  faults : List (Nat × Option FaultEnt) := []
  faultSeq : List (Nat × BitVec 12) := []
  homes : List HomeReq := []
  doneIds : List (BitVec 40) := []
  launches : List Launch := []
  /-- The active launch tables: die and launch (03 R45). -/
  active : List (BitVec 3 × BitVec 32) := []
  gangs : List Gang := []
  jobs : List Job := []
  /-- Group load registers by core (03 R53). -/
  loads : List (Nat × Nat) := []
  /-- Deadlock detection is armed, by quadrant of the partition's lowest (03 R63). -/
  armed : BitVec 4 := 0xF
  /-- The cycle at which a partition's snapshot is to latch, by the partition's lowest quadrant (15 R271). -/
  snapAt : List (BitVec 2 × Nat) := []
  sgs : List (Nat × Sg) := []
  watch : List (Nat × BitVec 32) := []
  coh : Coh := {}
  sys : Sys := {}
deriving DecidableEq, Repr

/-- The machine right after reset (03 R32, 25 R376): every field at the value its declaration gives. -/
def State.reset : State := {}

/-- Why a run stops. -/
inductive Fault where
  /-- An event's meaning is called in a state that performs no such event. Safe: no step of the machine does so. -/
  | noPendingEvent
deriving DecidableEq, Repr

/-- Why a step has no meaning. -/
inductive Refusal where
  /-- An arm of the dispatch without a meaning. Safe. -/
  | notModelled (mnemonic : String)
deriving DecidableEq, Repr

abbrev R := Host.Outcome State Fault Refusal

end Sys2Proof.Machine
end

