-- ==== Sys2Proof/Machine/Ops.lean ====
section
/-! DEFINITION. The named operations over cores, contexts, registers, memory, time, messages and traps. Every register
and every byte is read and written through them. -/
namespace Sys2Proof.Machine

/-! ## Cores and contexts -/

def State.core (s : State) (c : CoreId) : Core := SMap.get Core.reset s.cores c.toNat
def State.setCore (s : State) (c : CoreId) (k : Core) : State :=
  { s with cores := SMap.set Core.reset s.cores c.toNat k }
def State.modCore (s : State) (c : CoreId) (f : Core → Core) : State := s.setCore c (f (s.core c))
def Core.ctx (k : Core) (x : CtxId) : Ctx := k.ctxs[x.toNat]
def Core.setCtx (k : Core) (x : CtxId) (t : Ctx) : Core := { k with ctxs := k.ctxs.set x.toNat t }
def State.ctx (s : State) (c : CoreId) (x : CtxId) : Ctx := (s.core c).ctx x
def State.modCtx (s : State) (c : CoreId) (x : CtxId) (f : Ctx → Ctx) : State :=
  s.modCore c fun k => k.setCtx x (f (k.ctx x))

/-- The context that the slot of this cycle belongs to (03 R28). -/
def State.cx (s : State) : CtxId := BitVec.ofNat 4 s.cyc
/-- The issuing context. -/
def State.me (s : State) : Ctx := s.ctx s.slot s.cx
def State.modMe (s : State) (f : Ctx → Ctx) : State := s.modCtx s.slot s.cx f
def State.myCore (s : State) : Core := s.core s.slot

/-! ## Registers (07 Table 7-9) -/

def Ctx.getG (t : Ctx) (r : BitVec 5) : Word := t.g[r.toNat]
def Ctx.setG (t : Ctx) (r : BitVec 5) (x : Word) : Ctx := { t with g := t.g.set r.toNat x }
def Ctx.getV (t : Ctx) (r : V) : BitVec 256 := t.v[r.toNat]
def Ctx.setV (t : Ctx) (r : V) (x : BitVec 256) : Ctx := { t with v := t.v.set r.toNat x }
/-- p0 reads all ones. -/
def Ctx.getP (t : Ctx) (r : P) : BitVec 32 := if r = 0 then BitVec.allOnes 32 else t.p[r.toNat]
/-- A write to p0 is discarded. -/
def Ctx.setP (t : Ctx) (r : P) (x : BitVec 32) : Ctx := if r = 0 then t else { t with p := t.p.set r.toNat x }
/-- The granule in v2k and v2k+1 (07 Table 7-9). -/
def Ctx.getPair (t : Ctx) (k : Pair) : Granule := t.getV (k ++ 1#1) ++ t.getV (k ++ 0#1)
def Ctx.setPair (t : Ctx) (k : Pair) (x : Granule) : Ctx :=
  (t.setV (k ++ 0#1) (x.setWidth 256)).setV (k ++ 1#1) (x.extractLsb' 256 256)

/-- %rnd's environment for a float instruction (09 Table 9-4). -/
def Ctx.fenv (t : Ctx) : FEnv :=
  { mode := RMode.ofCode (t.rnd.toNat % 8), sat := t.rnd.getLsbD 3, flushIn := t.rnd.getLsbD 4,
    flushOut := t.rnd.getLsbD 5 }
/-- What %rnd holds after a write: reserved bits zero, and Mode 0 for a written 6 or 7 (09 Table 9-4). -/
def rndWrite (w : Word) : Word := if 6 ≤ w.toNat % 8 then w &&& 0xFF38 else w &&& 0xFF3F
/-- OR sticky flags into %rnd bits 15:8 (09 R125). -/
def Ctx.orFlags (t : Ctx) (f : FFlags) : Ctx := { t with rnd := t.rnd ||| ((f.setWidth 64) <<< 8) }

/-- A scalar instruction's predicate: bit 0 of p, XORed with the negate bit (07 R102). -/
def Ctx.test (t : Ctx) (p : Pred) : Bool := (t.getP (p.setWidth 3)).getLsbD 0 ^^ p.getLsbD 3
/-- A vector instruction's effective mask (13 R191). -/
def Ctx.mask (t : Ctx) (p : Pred) : BitVec 32 :=
  if p.getLsbD 3 then ~~~(t.getP (p.setWidth 3)) else t.getP (p.setWidth 3)

def Priv.code : Priv → BitVec 2
  | .u => 0 | .s => 1 | .m => 2

/-! ## Positions (01 Table 1-2) -/

def coreX (c : CoreId) : Nat := c.toNat % 256
def coreY (c : CoreId) : Nat := c.toNat / 256
/-- Packed positions y' · 256 + x' of the tile, group and supergroup. -/
def tileOf (c : CoreId) : Nat := (coreY c / 4) * 256 + coreX c / 4
def groupOf (c : CoreId) : Nat := (coreY c / 8) * 256 + coreX c / 8
def sgrpOf (c : CoreId) : Nat := (coreY c / 16) * 256 + coreX c / 16
/-- The supergroup index sy · 16 + sx. -/
def sgIdx (c : CoreId) : BitVec 8 := BitVec.ofNat 8 ((coreY c / 16) * 16 + coreX c / 16)
/-- 01 R13. -/
def dieOf (c : CoreId) : BitVec 3 := BitVec.ofNat 3 (2 * (coreY c / 64) + coreX c / 128)
def quadOf (c : CoreId) : BitVec 2 := BitVec.ofNat 2 (coreY c / 64)
def dieOfSg (g : BitVec 8) : BitVec 3 := BitVec.ofNat 3 (2 * (g.toNat / 64) + (g.toNat % 16) / 8)
def grp16 (c : CoreId) : BitVec 16 := BitVec.ofNat 16 (groupOf c)
/-- Index of a core within its tile, group and supergroup (01 Table 1-2, R12). -/
def idxTile (c : CoreId) : Nat := coreX c % 4 + 4 * (coreY c % 4)
def idxGroup (c : CoreId) : Nat := 16 * ((coreX c / 4) % 2 + 2 * ((coreY c / 4) % 2)) + idxTile c
def idxSgrp (c : CoreId) : Nat := 64 * ((coreX c / 8) % 2 + 2 * ((coreY c / 8) % 2)) + idxGroup c
def mkCore (x y : Nat) : CoreId := BitVec.ofNat 16 (y * 256 + x)

/-- BAR0 register at an offset. -/
def State.bar (s : State) (o : Nat) : Word := SMap.get 0 s.bar0 o
def State.setBar (s : State) (o : Nat) (x : Word) : State := { s with bar0 := SMap.set 0 s.bar0 o x }

/-- The harvesting map bit of a supergroup; the map is held inverted, so that all are present where firmware has
written nothing (01 R20; log entry 6). -/
def State.sgPresent (s : State) (g : BitVec 8) : Bool :=
  !(s.bar (0x1000 + 8 * (g.toNat / 64))).getLsbD (g.toNat % 64)
def State.present (s : State) (c : CoreId) : Bool := s.sgPresent (sgIdx c)
/-- Bits 64w + 63 : 64w of the harvesting map. -/
def State.hmap (s : State) (w : Nat) : Word := ~~~(s.bar (0x1000 + 8 * w))
/-- The partition of a core: its lowest quadrant (25 R374). -/
def State.partOf (s : State) (c : CoreId) : BitVec 2 := s.sys.parts[(quadOf c).toNat]
/-- Present and in the issuer's partition (15 R241, R251, R259; 25 R374). -/
def State.reachable (s : State) (a b : CoreId) : Bool := s.present b && s.partOf a == s.partOf b

def State.pkgNum (s : State) : BitVec 5 := s.pkg.setWidth 5
def State.pkgTop (s : State) : BitVec 5 := s.pkg.extractLsb' 8 5
/-- PC bits 63:48 set to this package's window (11 R148). -/
def State.extPc (s : State) (pc : Word) : Word :=
  ((s.pkgNum.setWidth 64) <<< 52) ||| (pc &&& 0xFFFFFFFFFFFF)

/-! ## Memory -/

/-- What an unlisted byte reads as: every wipe leaves zero (05 R86). -/
def freshByte : Byte := 0

/-- The canonical form of a memory. -/
def Memory.wf (m : List Host.Cell) : Bool := SMap.wf freshByte m

/-- Keys of the stores' first bytes. -/
def localKey (c : CoreId) : Nat := 2 ^ 60 + c.toNat * 2 ^ 22
def tileKey (pos : Nat) : Nat := 2 ^ 61 + ((pos / 256) * 64 + pos % 256) * 2 ^ 22
def groupKey (pos : Nat) : Nat := 2 ^ 62 + ((pos / 256) * 32 + pos % 256) * 2 ^ 22
def sgrpKey (pos : Nat) : Nat := 2 ^ 63 + ((pos / 256) * 16 + pos % 256) * 2 ^ 22
def frameKey (tier frame : Nat) : Nat := tier * 2 ^ 52 + frame

def State.byte (s : State) (k : Nat) : Byte := SMap.get freshByte s.mem k
def State.setByte (s : State) (k : Nat) (b : Byte) : State := { s with mem := SMap.set freshByte s.mem k b }

/-- `n` bytes from key `k`, little-endian. -/
def State.bytesN (s : State) (k : Nat) : Nat → Nat
  | 0 => 0
  | n + 1 => (s.byte k).toNat + 256 * s.bytesN (k + 1) n
def State.word (s : State) (k : Nat) : Word := BitVec.ofNat 64 (s.bytesN k 8)
def State.granule (s : State) (k : Nat) : Granule := BitVec.ofNat 512 (s.bytesN k 64)

/-- Write the bytes of `x` whose mask bit is 1, from key `k` on. -/
def putBytes (m : List Host.Cell) (k : Nat) (mask : BitVec 64) (x : Granule) : Nat → List Host.Cell
  | 0 => m
  | n + 1 =>
    let m' := putBytes m k mask x n
    if mask.getLsbD n then SMap.set freshByte m' (k + n) (byteOf x n) else m'
def State.putGranule (s : State) (k : Nat) (mask : BitVec 64) (x : Granule) : State :=
  { s with mem := putBytes s.mem k mask x 64 }
def State.setWord (s : State) (k : Nat) (x : Word) : State :=
  s.putGranule k 0xFF (x.setWidth 512)

/-- Metadata of an atom, by key. -/
def State.atom (s : State) (k : Nat) : BitVec 16 := SMap.get 0 s.atoms (k / 64)
def State.setAtom (s : State) (k : Nat) (x : BitVec 16) : State := { s with atoms := SMap.set 0 s.atoms (k / 64) x }
def State.eccOf (s : State) (k : Nat) : Nat := SMap.get 0 s.ecc (k / 64)
/-- Write bytes of a granule with good check bits (05 R87). -/
def State.putChecked (s : State) (k : Nat) (mask : BitVec 64) (x : Granule) : State :=
  { s.putGranule k mask x with ecc := SMap.set 0 s.ecc (k / 64) 0 }

/-- Wipe the keys `lo ≤ k < hi`: data zero, tags empty at generation 0, check bits good, waiting lists discarded (05 R86).
What is held at a block is no waiting list, and stays. -/
def State.wipe (s : State) (lo hi : Nat) : State :=
  { s with
    mem := SMap.dropRange s.mem lo hi
    atoms := SMap.dropRange s.atoms (lo / 64) (hi / 64)
    ecc := SMap.dropRange s.ecc (lo / 64) (hi / 64)
    waiters := s.waiters.filter fun w => decide (w.blk < lo ∨ hi ≤ w.blk)
    fills := s.fills.filter fun w => decide (w.blk < lo ∨ hi ≤ w.blk) }

/-! ## Time and events -/

/-- Schedule a step `d` cycles from now. -/
def State.after (s : State) (d : Nat) (e : Event) : State := { s with agenda := s.agenda ++ [(s.cyc + d, e)] }
/-- A latency that the manual does not give, at least one cycle (log entry 10). -/
def State.afterFree (s : State) (e : Event) : State :=
  { s.after (1 + Config.freeDelay s.fresh) e with fresh := s.fresh + 1 }
/-- A choice among `n`, and the state with the choice spent (log entry 11). -/
def State.choose (s : State) (n : Nat) : Nat × State :=
  (Config.freeChoice s.fresh % n, { s with fresh := s.fresh + 1 })
/-- %cyc (25 Table 25-5). -/
def State.cycW (s : State) : Word := BitVec.ofNat 64 s.cyc

/-- Count an event at a core, in each counter whose select names it, saturating (25 R382); a counter that a CNTCLR of this
cycle clears counts nothing (15 R272). The snapshot threshold of R383
is compared with the counter it names. -/
def Core.countEv (k : Core) (code : BitVec 8) : Core :=
  { k with evc := Vector.ofFn fun j : Fin 8 =>
      if k.evsel[j] = code ∧ k.evc[j] ≠ BitVec.allOnes 32 ∧ ¬k.clearing.getLsbD j then k.evc[j] + 1 else k.evc[j] }
def State.count (s : State) (c : CoreId) (code : BitVec 8) : State :=
  if (s.core c).evsel.any (· == code) then s.modCore c fun k => k.countEv code else s
/-- The same event counted `n` times. -/
def State.countN (s : State) (c : CoreId) (code : BitVec 8) : Nat → State
  | 0 => s
  | n + 1 => (s.countN c code n).count c code

/-! ## Messages and notices -/

/-- The port by which X-then-Y order leaves a router for a destination (01 R19). -/
def xyPort (r d : BitVec 8) : Port :=
  if r.toNat % 16 < d.toNat % 16 then .east
  else if d.toNat % 16 < r.toNat % 16 then .west
  else if r.toNat / 16 < d.toNat / 16 then .south
  else if d.toNat / 16 < r.toNat / 16 then .north
  else .local
/-- A router's table entry for a destination: as firmware loaded it, else as hardware loads it at reset. -/
def State.portTo (s : State) (r d : BitVec 8) : Port :=
  (SMap.get none s.sys.routes (256 * r.toNat + d.toNat)).getD (xyPort r d)
/-- The next router beyond a port of the 16 × 16 mesh, y growing southward; none beyond the edge. -/
def neighbour (r : BitVec 8) (p : Port) : Option (BitVec 8) :=
  match p with
  | .north => if r.toNat < 16 then none else some (r - 16)
  | .south => if 240 ≤ r.toNat then none else some (r + 16)
  | .west => if r.toNat % 16 = 0 then none else some (r - 1)
  | .east => if r.toNat % 16 = 15 then none else some (r + 1)
  | .local => none
/-- Routers that a message visits from `r` to `d`; a bypassed router passes it straight on (01 R19, R21). `via` is the port
by which it left the router before. -/
def State.routeFrom (s : State) (r d : BitVec 8) (via : Port) : Nat → List (BitVec 8)
  | 0 => [r]
  | n + 1 =>
    let p := if s.sys.bypass.contains r then via else s.portTo r d
    match neighbour r p with
    | some q => r :: s.routeFrom q d p n
    | none => [r]
def State.route (s : State) (a b : BitVec 8) : List (BitVec 8) := s.routeFrom a b .local 255
/-- Two routers lie on different dies. -/
def crossesDie (a b : BitVec 8) : Bool := dieOfSg a != dieOfSg b
/-- Cycles that a route takes: one a hop, and four more at each die boundary (01 R16, R17). -/
def hopCycles : List (BitVec 8) → Nat
  | a :: b :: l => 1 + (if crossesDie a b then 4 else 0) + hopCycles (b :: l)
  | _ => 0
def MeshClass.code : MeshClass → Nat
  | .request => 0 | .response => 1 | .wake => 2
/-- A load of tables holds injection at a router, up to and in the cycle of the load (01 R23). -/
def State.injectHeld (s : State) (a : BitVec 8) : Bool :=
  s.sys.holding.any fun h => s.sys.parts[a.toNat / 64]? == some h.1 && decide (s.cyc ≤ h.2)
/-- The cycle in which a message that enters the mesh now arrives: after its hops, and the waiting of which the manual says
nothing, behind the earlier ones of its class between the same routers (01 R16–R18; log entry 10). -/
def State.meshDue (s : State) (a b : BitVec 8) (k : MeshClass) : Nat :=
  max (s.cyc + 1 + hopCycles (s.route a b) + Config.freeDelay s.fresh)
    (SMap.get 0 s.sys.lanes (4 * (256 * a.toNat + b.toNat) + k.code))
/-- A message enters the mesh, on the routes as its tables stand. -/
def State.inject (s : State) (a b : BitVec 8) (k : MeshClass) (e : Event) : State :=
  let due := s.meshDue a b k
  { s with sys := { s.sys with lanes := SMap.set 0 s.sys.lanes (4 * (256 * a.toNat + b.toNat) + k.code) due }
           fresh := s.fresh + 1
           agenda := s.agenda ++ [(due, e)] }
/-- Send a message by the mesh: it enters now, or waits at its router while injection is held there (01 R23). -/
def State.meshAfter (s : State) (a b : BitVec 8) (k : MeshClass) (e : Event) : State :=
  if s.injectHeld a then { s with sys := { s.sys with waiting := s.sys.waiting ++ [(a, b, k, e)] } } else s.inject a b k e
/-- Holds that are over end, and the messages that they kept enter the mesh in the order in which they were sent (01 R23). -/
def State.releaseMesh (s : State) : State :=
  if s.sys.holding.isEmpty then s
  else
    let l := s.sys.waiting.filter fun m => !s.injectHeld m.1
    l.foldl (fun s m => s.inject m.1 m.2.1 m.2.2.1 m.2.2.2)
      { s with sys := { s.sys with holding := s.sys.holding.filter fun h => decide (s.cyc ≤ h.2)
                                   waiting := s.sys.waiting.filter fun m => s.injectHeld m.1 } }
/-- An MSI-X write (25 R366). -/
def State.msix (s : State) (v : Nat) : State := { s with outbox := s.outbox ++ [.msix v] }
/-- The hub port for traffic of a supergroup: that of its row, or where that router is absent or in bypass the nearest
present one's of the die column, the lower on a tie (01 R17, R21; 23 Table 23-2). -/
def State.hubRouter (s : State) (g : BitVec 8) : BitVec 8 :=
  let col := if g.toNat % 16 < 8 then 7 else 8
  let row := g.toNat / 16
  let dist := fun r : Nat => 2 * (if r ≤ row then row - r else r - row) + (if row < r then 1 else 0)
  let best := (List.range 16).foldl (fun b r =>
    if ¬s.sgPresent (BitVec.ofNat 8 (16 * r + col)) then b
    else match b with
      | none => some r
      | some q => if dist r < dist q then some r else some q) (none : Option Nat)
  BitVec.ofNat 8 (16 * best.getD row + col)
/-- The router at the hub port that a bank of a die controller sits at: bank `r` serves the lines of number `r` modulo 4, and
the port of supergroup row `r` of the die (23 R344). -/
def State.bankRouter (s : State) (die : BitVec 3) (line : Nat) : BitVec 8 :=
  s.hubRouter (BitVec.ofNat 8 ((die.toNat / 2 * 4 + line % 4) * 16 + die.toNat % 2 * 8))
def State.hubPort (s : State) (c : CoreId) : Nat :=
  let g := s.hubRouter (sgIdx c)
  4 * (dieOfSg g).toNat + g.toNat / 16 % 4
/-- A step that follows a request's way from a core to the package switch. -/
def State.hubAfter (s : State) (c : CoreId) (e : Event) : State :=
  s.meshAfter (sgIdx c) (s.hubRouter (sgIdx c)) .request e

/-- A message granule goes to its core's mailbox, in the request class (log entry 74). -/
def State.sendMsg (s : State) (m : Msg) : State := s.meshAfter (sgIdx m.src) (sgIdx m.dst) .request (.mailboxArrival m)

/-- A granule of eight words. -/
def granuleOf (ws : List Word) : Granule :=
  (ws.foldr (fun w a => (a <<< 64) ||| (w.setWidth 512)) 0)

/-- A hardware message: a single-granule packet (15 R258). -/
def State.hwMsg (s : State) (dst src : CoreId) (ctx : CtxId) (kind : BitVec 4) (ws : List Word) : State :=
  s.sendMsg { dst := dst, pkg := s.pkgNum, kind := kind, src := src, ctx := ctx, asid := 0, first := true,
              last := true, data := granuleOf ws }

/-- Word 2 of a fault record for a thread (21 Table 21-6). -/
def whoWord (core : CoreId) (ctx : CtxId) (priv : BitVec 2) (pkg : BitVec 5) (asid : BitVec 16) : Word :=
  ((ctx.setWidth 64) <<< 48) ||| ((core.setWidth 64) <<< 32) ||| ((priv.setWidth 64) <<< 21) |||
    ((pkg.setWidth 64) <<< 16) ||| asid.setWidth 64
def State.whoCtx (s : State) (c : CoreId) (x : CtxId) : Word :=
  let t := s.ctx c x
  whoWord c x t.priv.code s.pkgNum t.asid

/-- A supervisor notice is formed and sent as a step of its own. -/
def State.notify (s : State) (die : BitVec 3) (n : Notice) : State := s.after 0 (.supervisorNotice die n)

/-! ## Windows (03 R33–R35) -/

/-- The outstanding operations of a context's thread. -/
def Core.opsOf (k : Core) (x : CtxId) : List Op := k.ops.filter fun o => o.ctx == x && o.tid == (k.ctx x).tid
def Core.findOp (k : Core) (id : Nat) : Option Op := k.ops.find? fun o => o.id == id
def Core.modOp (k : Core) (id : Nat) (f : Op → Op) : Core :=
  { k with ops := k.ops.map fun o => if o.id = id then f o else o }
def Core.dropOp (k : Core) (id : Nat) : Core := { k with ops := k.ops.filter fun o => decide (o.id ≠ id) }
/-- One more instruction has issued inside every open window of the context. -/
def Core.tick (k : Core) (x : CtxId) : Core :=
  if k.ops.isEmpty then k
  else { k with ops := k.ops.map fun o =>
           if o.ctx = x ∧ o.tid = (k.ctx x).tid then { o with left := o.left - 1 } else o }
/-- A write that is not yet acknowledged (19 R390). -/
def Op.isWrite (o : Op) : Bool :=
  match o.kind with
  | .store | .atomic .. | .post => true
  | _ => false
/-- The thread's earlier writes have drained (19 R390). -/
def Core.drained (k : Core) (x : CtxId) : Bool :=
  (k.opsOf x).all (fun o => !o.isWrite) && (k.ctx x).posted == 0

/-! ## Traps (21 R327–R332) -/

/-- Raise a trap in a context: it becomes pending and the context issues nothing until its delivery. -/
def State.raise (s : State) (c : CoreId) (x : CtxId) (t : Trap) : State :=
  (s.modCtx c x fun k => { k with traps := k.traps ++ [t], delivering := true }).after 1 (.trapDelivery c x)

/-- The context becomes halting; EMULATION_REQUEST or HALT_TAKE_EFFECT ends it once nothing is outstanding (07 R112). -/
def State.startHalt (s : State) (c : CoreId) (x : CtxId) (h : Halt) : State :=
  s.modCtx c x fun k => { k with halt := some h, park := none, st := if k.st = .parked then .running else k.st }

/-- Word +0x18 of a trap record (21 Table 21-3). -/
def trapWord3 (t : Trap) : Word :=
  BitVec.ofNat 64 (t.off % 2 ^ 24 * 2 ^ 40 + t.detail % 256 * 2 ^ 32 + t.count % 2 ^ 16 * 2 ^ 16 +
    t.source % 4 * 2 ^ 14 + t.kind % 4 * 2 ^ 12 + t.len % 16 * 2 ^ 8 + t.cause % 256)

/-- Fields of %tvec (21 Table 21-2). -/
def tvecHandler (w : Word) : Word := w >>> 16
def tvecBase (w : Word) : Nat := ((w.extractLsb' 10 6).toNat) * 1024
/-- An extent of the local store lies wholly in scratch ways. -/
def Core.inScratch (k : Core) (off len : Nat) : Bool :=
  decide (off + len ≤ 49152) &&
    ((List.range 12).all fun w => decide (off + len ≤ w * 4096 ∨ (w + 1) * 4096 ≤ off) || !k.ways.getLsbD w || len == 0)

/-- Taking an exception through %tvec: the record is written to the context's record place, g1 and g2 are saved in it
and name it, the context is in a handler and goes on at the handler's PC (21 R330 step 5). -/
def State.takeTrap (s : State) (c : CoreId) (x : CtxId) (t : Trap) : State :=
  let k := s.core c
  let m := k.ctx x
  let off := tvecBase k.tvec + 64 * x.toNat
  let rec8 := granuleOf [if t.kind = 0 then t.pc else m.pc, t.pc, t.addr, (trapWord3 t), t.w4, t.w5, m.getG 1, m.getG 2]
  (s.putChecked (localKey c + off) (BitVec.allOnes 64) rec8).modCtx c x fun m =>
    { ((m.setG 1 (0xC000000000000000 ||| BitVec.ofNat 64 off)).setG 2 (trapWord3 t)) with
      inHandler := true, delivering := false, pc := s.extPc (tvecHandler k.tvec)
      traps := m.traps.erase t }

/-- Whether a trap can be delivered through %tvec (21 R330 step 4). -/
def State.deliverable (s : State) (c : CoreId) (x : CtxId) : Bool :=
  let k := s.core c
  k.tvec.getLsbD 0 && k.inScratch (tvecBase k.tvec + 64 * x.toNat) 64 && !(k.ctx x).inHandler

/-- The key of a context's trap record. -/
def State.recordKey (s : State) (c : CoreId) (x : CtxId) : Nat := localKey c + tvecBase (s.core c).tvec + 64 * x.toNat
/-- The return from an exception: PC from word +0x00 of the record as it stands, and 4 · Length more for ERET.NEXT; g1
and g2 from words +0x30 and +0x38; the context leaves the handler (21 R331). Pending traps are delivered next. -/
def State.returnTrap (s : State) (c : CoreId) (x : CtxId) (nextForm : Bool) : State :=
  let a := s.recordKey c x
  let step := if nextForm then 4 * (((s.word (a + 0x18)).toNat / 256) % 16) else 0
  let s' := s.modCtx c x fun m =>
    { ((m.setG 1 (s.word (a + 0x30))).setG 2 (s.word (a + 0x38))) with
      inHandler := false, pc := s.word a + BitVec.ofNat 64 step, delivering := !m.traps.isEmpty }
  if (s'.ctx c x).delivering then s'.after 1 (.trapDelivery c x) else s'

/-! ## Issuing an instruction (07 Table 7-6) -/

/-- Who may issue (07 Table 7-11). -/
inductive Issuer where
  | any | c0 | sOnly | c0s
deriving DecidableEq, Repr

def Issuer.admits (a : Issuer) (x : CtxId) (p : Priv) : Bool :=
  match a with
  | .any => true
  | .c0 => x == 0
  | .sOnly => p == .s
  | .c0s => x == 0 || p == .s

/-- What a body answers. `ok` is given relative to the state in which the PC has moved on and the windows have ticked. -/
inductive Act where
  | ok (s : State)
  /-- The instruction does not issue: its slot is lost (03 R28). `f` is what it does all the same. -/
  | lose (f : State → State := id)
  /-- An issue trap: cause, address, detail and source. `f` is what happens besides. -/
  | trap (cause : Nat) (addr : Word) (detail : Nat := 0) (source : Nat := 0) (f : State → State := id)

/-- The slot is used: the PC at the next instruction, the windows one further. With a false predicate nothing else
happens, and no counter counts it (07 R103; log entry 71). -/
def State.skipped (s : State) (len : Nat) : State :=
  s.modCore s.slot fun k =>
    (k.tick s.cx).setCtx s.cx { k.ctx s.cx with pc := (k.ctx s.cx).pc + BitVec.ofNat 64 len }
/-- The state after the instruction has taken its slot, with the event "instruction issued" counted (25 Table 25-7). -/
def State.issued (s : State) (len : Nat) : State := (s.skipped len).count s.slot 17

/-- The slot is lost (03 R28). -/
def State.lost (s : State) : State := s.count s.slot 18

/-- An issue trap of the issuing context at its PC (11 R149, 21 R328). -/
def State.issueTrap (s : State) (len cause : Nat) (addr : Word) (detail : Nat := 0) (source : Nat := 0) : State :=
  s.raise s.slot s.cx
    { kind := 0, cause := cause, pc := s.me.pc, len := len / 4, addr := addr, detail := detail, source := source,
      order := s.myCore.nextId }

def Act.finish (a : Act) (s : State) (len : Nat) : R :=
  match a with
  | .ok t => .next t
  | .lose f => .next (f s.lost)
  | .trap cause addr detail source f => .next (f (s.issueTrap len cause addr detail source))

/-- Checks 2 to 4 of Table 7-6 for a scalar instruction: privilege, predicate, then the body. The body has the context
as it stood and the state in which the slot has been taken. -/
def issue (who : Issuer) (p : Pred) (len : Nat) (s : State) (body : Ctx → State → Act) : R :=
  if ¬who.admits s.cx s.me.priv then .next (s.issueTrap len 10 0)
  else if ¬s.me.test p then .next (s.skipped len)
  else (body s.me (s.issued len)).finish s len

/-- The same for a vector instruction of majors 0x60–0x77, whose predicate is a lane mask: when it selects nothing
among the `n` bits that count, the instruction is a false predicate (13 R191). -/
def issueV (p : Pred) (n len : Nat) (s : State) (body : Ctx → BitVec 32 → State → Act) : R :=
  let m := s.me.mask p &&& BitVec.ofNat 32 (2 ^ n - 1)
  if m = 0 then .next (s.skipped len) else (body s.me m (s.issued len)).finish s len

/-- The issuing context with one register written. -/
def State.putG (s : State) (d : G) (x : Word) : State := s.modMe fun t => t.setG d x

/-- The instruction that issues reads a granule of its local store that fails its check: the thread halts at it with a machine
check (05 R88, 21 R341). -/
def State.checkAtIssue (s : State) (c : Ctx) (key : Nat) : State :=
  (s.modMe fun t => { t with pc := c.pc }).after 0 (.machineCheck 1 key (some (.park s.slot s.cx)))
/-- Park the issuing context at the instruction it issues; the PC stays at it (15 R242). -/
def State.parkMe (s : State) (c : Ctx) (k : Park) : State :=
  s.modMe fun t => { t with st := .parked, park := some k, pc := c.pc }

/-- A park ends: the thread resumes after the 8-byte instruction it parked in. -/
def Ctx.unpark (t : Ctx) : Ctx := { t with st := .running, park := none, pc := t.pc + 8 }
def State.unpark (s : State) (c : CoreId) (x : CtxId) (f : Ctx → Ctx := id) : State :=
  s.modCtx c x fun t => (f t).unpark

end Sys2Proof.Machine
end

