-- ==== Sys2Proof/Machine/Flags.lean ====
section
/-! DEFINITION. Conditions, predicate results and the float flags: what an instruction computes into a predicate
register or into %rnd. No integer instruction has a flag (11 R154). -/
namespace Sys2Proof

/-- 11 Table 11-2, on operands of one width. -/
def Cond.holds {n : Nat} (c : Cond) (a b : BitVec n) : Bool :=
  match c with
  | .eq => a == b
  | .ne => a != b
  | .lt => a.slt b
  | .ge => !a.slt b
  | .ltu => a.ult b
  | .geu => !a.ult b
  | .le => a.sle b
  | .gt => !a.sle b
  | .leu => a.ule b
  | .gtu => !a.ule b

/-- 11 R152: with type 0x00 all 64 bits are compared, with .s32 bits 31:0. -/
def Cond.test (c : Cond) (w : CmpW) (a b : Word) : Bool :=
  match w with
  | .x64 => Cond.holds c a b
  | .s32 => Cond.holds c (a.setWidth 32) (b.setWidth 32)

/-- 11 R163: the combine modes of CMP. -/
def Combine.apply (c : Combine) (old m : BitVec 32) : BitVec 32 :=
  match c with
  | .none => m
  | .and => old &&& m
  | .or => old ||| m

end Sys2Proof
namespace Sys2Proof.Machine

/-- The mask `m` of 11 R163. -/
def maskOf (b : Bool) : BitVec 32 := if b then 0xFFFFFFFF else 0

/-- The issuing context with one predicate written; p0 discards it. -/
def State.putP (s : State) (d : P) (x : BitVec 32) : State := s.modMe fun t => t.setP d x
/-- The issuing context with a vector register written. -/
def State.putV (s : State) (d : V) (x : BitVec 256) : State := s.modMe fun t => t.setV d x
/-- Sticky float flags raised by the issuing context's instruction (09 R125). -/
def State.raiseFlags (s : State) (f : FFlags) : State := s.modMe fun t => t.orFlags f

end Sys2Proof.Machine
end

