-- ==== Sys2Proof/Machine/Operands.lean ====
section
/-! DEFINITION. Operand forms: immediates, widths, effective addresses, alignment, and the checks that an address's
form goes through at issue (11 R149, R150; 01 R15; 05 R65, R66). -/
namespace Sys2Proof

/-! ## Sizes and extension (11 Table 11-13) -/

def Sz.log2 : Sz → Nat
  | .b | .bs => 0 | .h | .hs => 1 | .w | .ws => 2 | .d => 3
def StSz.log2 : StSz → Nat
  | .b => 0 | .h => 1 | .w => 2 | .d => 3
def Sz.bytes (z : Sz) : Nat := 2 ^ z.log2
def StSz.bytes (z : StSz) : Nat := 2 ^ z.log2
/-- The loaded bytes, extended to 64 bits. -/
def Sz.extend (z : Sz) (x : Word) : Word :=
  match z with
  | .b => (x.setWidth 8).setWidth 64
  | .h => (x.setWidth 16).setWidth 64
  | .w => (x.setWidth 32).setWidth 64
  | .d => x
  | .bs => (x.setWidth 8).signExtend 64
  | .hs => (x.setWidth 16).signExtend 64
  | .ws => (x.setWidth 32).signExtend 64

/-- 11 R154: an operation on `w`-bit operands, its result extended as X.type asks. -/
def IntW.lift (w : IntW) (f : (n : Nat) → BitVec n → BitVec n → BitVec n) (a b : Word) : Word :=
  match w with
  | .x64 => f 64 a b
  | .s32 => (f 32 (a.setWidth 32) (b.setWidth 32)).signExtend 64
  | .z32 => (f 32 (a.setWidth 32) (b.setWidth 32)).setWidth 64

end Sys2Proof
namespace Sys2Proof.Machine

/-- A 32-bit immediate, sign-extended. -/
def imm64 (i : BitVec 32) : Word := i.signExtend 64

/-- Clamp to the signed range of `n` bits. -/
def clampS (n : Nat) (x : Int) : BitVec n :=
  BitVec.ofInt n (max (-(2 ^ (n - 1) : Int)) (min x ((2 ^ (n - 1) : Int) - 1)))
/-- Clamp to the unsigned range of `n` bits. -/
def clampU (n : Nat) (x : Int) : BitVec n := BitVec.ofInt n (max 0 (min x ((2 ^ n : Int) - 1)))

/-! ## Effective addresses (11 R150) -/

/-- Format I. -/
def Ctx.eaI (t : Ctx) (a : G) (disp : BitVec 32) : Word := t.getG a + imm64 disp
/-- The indexed forms; `k` is the shift that .sc selects. -/
def Ctx.eaX (t : Ctx) (a b : G) (k : Nat) : Word := t.getG a + (t.getG b <<< k)

/-- Naturally aligned to `w` bytes. -/
def aligned (ea : Word) (w : Nat) : Bool := ea.toNat % w == 0

/-! ## Address forms (05 R64–R66, 01 R15) -/

def isCoord (a : Word) : Bool := a.getLsbD 63
def coordLevel (a : Word) : Nat := (a.extractLsb' 58 4).toNat
def coordOff (a : Word) : Nat := (a.extractLsb' 0 42).toNat
/-- The target coordinate before the harvesting check; none where a sum leaves 0–255. -/
def coordTarget (c : CoreId) (a : Word) : Option CoreId :=
  let xf := a.extractLsb' 50 8
  let yf := a.extractLsb' 42 8
  if a.getLsbD 62 then
    let x : Int := (coreX c : Int) + xf.toInt
    let y : Int := (coreY c : Int) + yf.toInt
    if 0 ≤ x ∧ x ≤ 255 ∧ 0 ≤ y ∧ y ≤ 255 then some (mkCore x.toNat y.toNat) else none
  else some (mkCore xf.toNat yf.toNat)

/-- Size of a store by level. -/
def storeSize : Nat → Nat
  | 0 => 49152
  | 1 => 131072
  | 2 => 524288
  | _ => 4194304

/-- Key of the first byte of the store that a level and a target core name. -/
def storeKey (level : Nat) (t : CoreId) : Nat :=
  match level with
  | 0 => localKey t
  | 1 => tileKey (tileOf t)
  | 2 => groupKey (groupOf t)
  | _ => sgrpKey (sgrpOf t)

/-- Where an access goes. -/
inductive Target where
  /-- A byte of an on-package store: level, the target core, and the offset. -/
  | store (level : Nat) (core : CoreId) (off : Nat)
  /-- A global address: the home package and the offset in its window. -/
  | global (pkg : BitVec 5) (off : Nat)
deriving DecidableEq, Repr

/-- The checks of an address's form by the core `c`: the trap's cause, or where the access goes (05 R65, R66, 01 R15). -/
def State.checkAddr (s : State) (c : CoreId) (a : Word) : Except Nat Target :=
  if isCoord a then
    match coordTarget c a with
    | none => .error 4
    | some t =>
      let l := coordLevel a
      let o := coordOff a
      if s.reachable c t = false then .error 4
      else if 4 ≤ l then .error 4
      else if l = 0 ∧ t ≠ c then .error 4
      else if storeSize l ≤ o then .error 4
      else if l = 0 ∧ (s.core c).ways.getLsbD (o / 4096) then .error 4
      else .ok (.store l t o)
  else if a.extractLsb' 57 6 ≠ 0 then .error 5
  else if s.pkgTop.toNat < (a.extractLsb' 52 5).toNat then .error 5
  else .ok (.global (a.extractLsb' 52 5) (a.toNat % 2 ^ 52))

/-! ## Block stores (05 R68, R69) -/

/-- The exponent of the lowest-numbered valid region that holds an offset, 0 where none does. -/
def State.regionN (s : State) (key off : Nat) : Nat :=
  let hit := (List.range 4).find? fun i =>
    let r : Word := SMap.get 0 s.rgns (4 * (key / 2 ^ 22) + i)
    r.getLsbD 63 && decide ((r.extractLsb' 0 16).toNat * 4096 ≤ off) &&
      decide (off < (r.extractLsb' 16 16).toNat * 4096)
  match hit with
  | none => 0
  | some i =>
    let n := ((SMap.get 0 s.rgns (4 * (key / 2 ^ 22) + i) : Word).extractLsb' 32 3).toNat
    if n = 7 then 0 else n

/-- The granule of a block store that holds an offset. -/
def State.storeMap (s : State) (level : Nat) (t : CoreId) (off : Nat) : Map :=
  let k := storeKey level t
  if level = 0 then { key := k + off / 64 * 64, isBlock := false }
  else
    let n := s.regionN k off
    let b := 64 * 2 ^ n
    { key := k + off / 64 * 64, isBlock := true, n := n, blk := k + off / b * b }

/-- A supergroup's plain-way mask; the mask is held inverted against its reset value 0xF000 (05 R84). -/
def State.plainWays (s : State) (sg : Nat) : BitVec 16 := SMap.get 0 s.sgWays sg ^^^ 0xF000
/-- An offset of a supergroup store lies in a plain way. -/
def State.inPlainWay (s : State) (t : CoreId) (off : Nat) : Bool :=
  (s.plainWays (sgIdx t).toNat).getLsbD (off / 262144)

end Sys2Proof.Machine
end

