-- ==== Sys2Proof/Machine/Window.lean ====
section
/-! DEFINITION. Lookahead windows: opening an outstanding operation, its completion, and the launch's account of writes
not yet acknowledged (03 R33–R35, R48). -/
namespace Sys2Proof.Machine

def State.modLaunch (s : State) (n : BitVec 32) (f : Launch → Launch) : State :=
  { s with launches := s.launches.map fun l => if l.num = n then f l else l }

/-- A store, atomic, POST or RED of a launch is issued: it counts until it is acknowledged, and apart while its member has
not executed TRIG (03 R48, 19 R323). -/
def State.account (s : State) (n : BitVec 32) (pre : Bool) : State :=
  s.modLaunch n fun l =>
    { l with unacked := l.unacked + 1, unackedPre := if pre then l.unackedPre + 1 else l.unackedPre }
/-- Gangs of the launch are still to be placed: an error of a member does not stop them, the end of a domain launch does (23
R363). -/
def Launch.placing (l : Launch) : Bool := decide (l.next < l.last) && l.cause != 10 && l.cause != 11
/-- The launch's gangs of this package. -/
def Launch.share (l : Launch) : Nat := l.last - l.first
/-- The trigger condition and the completion condition of a launch are met on this package (03 R48). -/
def Launch.triggerDue (l : Launch) : Bool :=
  l.trigger != 0 && !l.trigDone && decide (l.share ≤ l.triggered) && l.unackedPre == 0
def Launch.completionDue (l : Launch) : Bool :=
  !l.complDone && decide (l.share ≤ l.retired) && l.unacked == 0
/-- A launch's entries are freed (03 R49). -/
def State.dropLaunch (s : State) (n : BitVec 32) : State :=
  { s with launches := s.launches.filter fun l => l.num != n, active := s.active.filter fun e => e.2 != n
           agenda := s.agenda.filter fun e => e.2 != .startedTimeout n }
/-- A launch's block is written, or in a domain launch its coordinator is told, once its condition is met (03 R48, 23
R364). -/
def State.checkLaunch (s : State) (n : BitVec 32) : State :=
  match s.launches.find? fun l => l.num == n with
  | none => s
  | some l =>
    let s := if l.triggerDue then
        let s := s.modLaunch n fun l => { l with trigDone := true }
        match l.coord with
        | none => s.after 1 (.triggerWrite n)
        | some c =>
          if c = s.pkgNum then s.afterFree (.trigMessage n s.pkgNum)
          else { s with outbox := s.outbox ++ [.launch c "Trig" n 0] }
      else s
    if l.completionDue then
      let s := s.modLaunch n fun l => { l with complDone := true }
      match l.coord with
      | none => s.after 1 (.completionWrite n)
      | some c =>
        if c = s.pkgNum then s.afterFree (.done n s.pkgNum l.cause)
        else ({ s with outbox := s.outbox ++ [.launch c "Done" n l.cause] } : State).dropLaunch n
    else s
/-- The acknowledgement of a counted operation. -/
def State.settle (s : State) (n : BitVec 32) (pre : Bool) : State :=
  (s.modLaunch n fun l =>
    { l with unacked := l.unacked - 1, unackedPre := if pre then l.unackedPre - 1 else l.unackedPre }).checkLaunch n

/-- Open a window: the issuing context's instruction at `c.pc` becomes an outstanding operation. -/
def State.addOp (s : State) (c : Ctx) (len : Nat) (n : La) (kind : OpKind) (gMask : BitVec 32 := 0)
    (vMask : BitVec 16 := 0) (accs : List Access := []) (order : Order := 0) (scope : Scope := 0)
    (ins : Option Instr := none) (counted : Bool := false) (far : Bool := false) : State :=
  let s1 := s.modCore s.slot fun k =>
    { k with
      nextId := k.nextId + 1
      ops := k.ops ++ [{ id := k.nextId, ctx := s.cx, tid := c.tid, pc := c.pc, len := len, left := n.toNat,
                         n := n.toNat, far := far, kind := kind, gMask := gMask, vMask := vMask, asid := c.asid, priv := c.priv, accs := accs,
                         order := order, scope := scope, ins := ins, counted := counted && s.cx != 0, pre := !c.triggered,
                         launch := c.launch }] }
  if counted && s.cx != 0 then s1.account c.launch (!c.triggered) else s1

/-- Number of the operation that the issuing core opens next. -/
def State.opId (s : State) : Nat := s.myCore.nextId

def gBit (d : G) : BitVec 32 := 1 <<< d.toNat
def vBit (d : V) : BitVec 16 := 1 <<< d.toNat

/-- At most 8 operations of a context are outstanding (03 R35): a ninth does not issue. -/
def Core.full (k : Core) (x : CtxId) : Bool := decide (8 ≤ (k.opsOf x).length)

/-- An operation completes: its results are written where its thread still holds the context, a window's park ends, and
its trap, if it has one, becomes pending (03 R33, R41; 11 R149). -/
def State.endOp (s : State) (c : CoreId) (o : Op) (write : Ctx → Ctx) : State :=
  let s := s.modCore c fun k => k.dropOp o.id
  let s := if o.counted then s.settle o.launch o.pre else s
  if (s.ctx c o.ctx).tid ≠ o.tid then s
  else
    let s := s.modCtx c o.ctx fun t =>
      let t := if o.trap.isSome then t else write t
      if t.park = some .window then { t with st := .running, park := none } else t
    match o.trap with
    | none => s
    | some t => s.raise c o.ctx t

/-- Write consecutive registers from a granule's doublewords. -/
def Ctx.setGs (t : Ctx) (d : Nat) (g : Granule) (first : Nat) : Nat → Ctx
  | 0 => t
  | n + 1 => (t.setGs d g first n).setG (BitVec.ofNat 5 (d + n)) (g.word (first + n))

end Sys2Proof.Machine
end

