-- ==== Sys2Proof/Machine/Alu.lean ====
section
/-! DEFINITION. Scalar instructions that touch registers only: control transfer, integer operations, predicates and
coordinates (11_scalar_isa.md). -/
namespace Sys2Proof.Machine

/-- An instruction that writes one general register. -/
def scalarG (p : Pred) (len : Nat) (d : G) (s : State) (f : Ctx → Word) : R :=
  issue .any p len s fun c t => .ok (t.putG d (f c))

/-- An instruction that writes one predicate register. -/
def scalarP (p : Pred) (d : P) (s : State) (f : Ctx → BitVec 32) : R :=
  issue .any p 8 s fun c t => .ok (t.putP d (f c))

/-- An ALU instruction (11 R154). -/
def alu (p : Pred) (w : IntW) (d a b : G) (s : State) (f : (n : Nat) → BitVec n → BitVec n → BitVec n) : R :=
  scalarG p 8 d s fun c => w.lift f (c.getG a) (c.getG b)

/-! ## Control transfer (11 R151–R153) -/

/-- The target is checked before anything is written: a misaligned one traps at this PC (11 R153). -/
def transfer (t : State) (target : Word) (link : Option Word) : Act :=
  if (target.extractLsb' 0 2 : BitVec 2) ≠ 0 then .trap 1 target
  else
    .ok (t.modMe fun m =>
      let m := match link with
        | some r => m.setG 30 r
        | none => m
      { m with pc := target })

def execNop (p : Pred) (_imm : BitVec 32) (s : State) : R := issue .any p 8 s fun _ t => .ok t
def execBra (p : Pred) (off : BitVec 32) (s : State) : R :=
  issue .any p 8 s fun c t => transfer t (c.pc + imm64 off) none
def execJmp (p : Pred) (a : G) (s : State) : R := issue .any p 8 s fun c t => transfer t (c.getG a) none
def execCall (p : Pred) (off : BitVec 32) (s : State) : R :=
  issue .any p 8 s fun c t => transfer t (c.pc + imm64 off) (some (c.pc + 8))
def execCallr (p : Pred) (a : G) (s : State) : R :=
  issue .any p 8 s fun c t => transfer t (c.getG a) (some (c.pc + 8))
def execRet (p : Pred) (a : G) (s : State) : R := issue .any p 8 s fun c t => transfer t (c.getG a) none
def execBrc (p : Pred) (cc : Cond) (w : CmpW) (a b : G) (off : BitVec 32) (s : State) : R :=
  issue .any p 12 s fun c t =>
    transfer t (if Cond.test cc w (c.getG a) (c.getG b) then c.pc + imm64 off else c.pc + 12) none

/-! ## Integer operations (11 R154–R162) -/

def execAluAdd (p : Pred) (w : IntW) (d a b : G) (s : State) : R :=
  alu p w d a b s fun _ x y => x + y
def execAluSub (p : Pred) (w : IntW) (d a b : G) (s : State) : R :=
  alu p w d a b s fun _ x y => x - y
def execAluAnd (p : Pred) (w : IntW) (d a b : G) (s : State) : R :=
  alu p w d a b s fun _ x y => x &&& y
def execAluOr (p : Pred) (w : IntW) (d a b : G) (s : State) : R :=
  alu p w d a b s fun _ x y => x ||| y
def execAluXor (p : Pred) (w : IntW) (d a b : G) (s : State) : R :=
  alu p w d a b s fun _ x y => x ^^^ y
def execAluAndn (p : Pred) (w : IntW) (d a b : G) (s : State) : R :=
  alu p w d a b s fun _ x y => x &&& ~~~y
def execAluOrn (p : Pred) (w : IntW) (d a b : G) (s : State) : R :=
  alu p w d a b s fun _ x y => x ||| ~~~y
def execAluXnor (p : Pred) (w : IntW) (d a b : G) (s : State) : R :=
  alu p w d a b s fun _ x y => ~~~(x ^^^ y)
def execAluMin (p : Pred) (w : IntW) (d a b : G) (s : State) : R :=
  alu p w d a b s fun _ x y => if x.sle y then x else y
def execAluMax (p : Pred) (w : IntW) (d a b : G) (s : State) : R :=
  alu p w d a b s fun _ x y => if x.sle y then y else x
def execAluMinu (p : Pred) (w : IntW) (d a b : G) (s : State) : R :=
  alu p w d a b s fun _ x y => if x.ule y then x else y
def execAluMaxu (p : Pred) (w : IntW) (d a b : G) (s : State) : R :=
  alu p w d a b s fun _ x y => if x.ule y then y else x
def execAluAdds (p : Pred) (w : IntW) (d a b : G) (s : State) : R :=
  alu p w d a b s fun n x y => clampS n (x.toInt + y.toInt)
def execAluSubs (p : Pred) (w : IntW) (d a b : G) (s : State) : R :=
  alu p w d a b s fun n x y => clampS n (x.toInt - y.toInt)
def execAluAddsu (p : Pred) (w : IntW) (d a b : G) (s : State) : R :=
  alu p w d a b s fun n x y => clampU n ((x.toNat : Int) + y.toNat)
def execAluSubsu (p : Pred) (w : IntW) (d a b : G) (s : State) : R :=
  alu p w d a b s fun n x y => clampU n ((x.toNat : Int) - y.toNat)
def execAluMov (p : Pred) (w : IntW) (d a : G) (s : State) : R :=
  alu p w d a a s fun _ x _ => x
def execAluNeg (p : Pred) (w : IntW) (d a : G) (s : State) : R :=
  alu p w d a a s fun _ x _ => 0 - x
def execAluNot (p : Pred) (w : IntW) (d a : G) (s : State) : R :=
  alu p w d a a s fun _ x _ => ~~~x

def execAddi (p : Pred) (d a : G) (imm : BitVec 32) (s : State) : R :=
  scalarG p 8 d s fun c => c.getG a + imm64 imm
def execAndi (p : Pred) (d a : G) (imm : BitVec 32) (s : State) : R :=
  scalarG p 8 d s fun c => c.getG a &&& imm64 imm
def execOri (p : Pred) (d a : G) (imm : BitVec 32) (s : State) : R :=
  scalarG p 8 d s fun c => c.getG a ||| imm64 imm
def execXori (p : Pred) (d a : G) (imm : BitVec 32) (s : State) : R :=
  scalarG p 8 d s fun c => c.getG a ^^^ imm64 imm
def execMovhi (p : Pred) (d a : G) (imm : BitVec 32) (s : State) : R :=
  scalarG p 8 d s fun c => (imm.setWidth 64 <<< 32) ||| ((c.getG a).setWidth 32).setWidth 64
def execMovi (p : Pred) (d : G) (imm : BitVec 32) (s : State) : R := scalarG p 8 d s fun _ => imm64 imm
def execMulLo (p : Pred) (d a b : G) (s : State) : R := scalarG p 8 d s fun c => c.getG a * c.getG b
def execMulHi (p : Pred) (d a b : G) (s : State) : R :=
  scalarG p 8 d s fun c => (((c.getG a).signExtend 128) * ((c.getG b).signExtend 128)).extractLsb' 64 64
def execMulHiu (p : Pred) (d a b : G) (s : State) : R :=
  scalarG p 8 d s fun c => (((c.getG a).setWidth 128) * ((c.getG b).setWidth 128)).extractLsb' 64 64
def execMulMad (p : Pred) (d a b c : G) (s : State) : R :=
  scalarG p 8 d s fun k => k.getG a * k.getG b + k.getG c

/-- 11 Table 11-6, signed. `BitVec.sdiv` truncates toward zero and wraps at the signed overflow. -/
def divS (n : Nat) (x y : BitVec n) : BitVec n := if y = 0 then BitVec.allOnes n else x.sdiv y
def divU (n : Nat) (x y : BitVec n) : BitVec n := if y = 0 then BitVec.allOnes n else x.udiv y
def divRem (n : Nat) (x y : BitVec n) : BitVec n := if y = 0 then x else x.srem y
def divRemu (n : Nat) (x y : BitVec n) : BitVec n := if y = 0 then x else x.umod y

/-- Latency of a division (11 R157). -/
def divCycles : IntW → Nat
  | .x64 => 66
  | _ => 34

/-- A division is long-latency: its result is written when it completes (11 R157, 03 R33). -/
def division (p : Pred) (n : La) (w : IntW) (d a b : G) (s : State)
    (f : (n : Nat) → BitVec n → BitVec n → BitVec n) : R :=
  issue .any p 8 s fun c t =>
    .ok ((t.addOp c 8 n (.calcG d (w.lift f (c.getG a) (c.getG b))) (gMask := gBit d)).after (divCycles w)
      (.longLatencyComplete t.slot t.opId (.advance 0)))
def execDivS (p : Pred) (n : La) (w : IntW) (d a b : G) (s : State) : R := division p n w d a b s divS
def execDivU (p : Pred) (n : La) (w : IntW) (d a b : G) (s : State) : R := division p n w d a b s divU
def execDivRem (p : Pred) (n : La) (w : IntW) (d a b : G) (s : State) : R := division p n w d a b s divRem
def execDivRemu (p : Pred) (n : La) (w : IntW) (d a b : G) (s : State) : R := division p n w d a b s divRemu

def execBitsShl (p : Pred) (d a b : G) (s : State) : R :=
  scalarG p 8 d s fun c => c.getG a <<< ((c.getG b).toNat % 64)
def execBitsShli (p : Pred) (d a : G) (k : BitVec 6) (s : State) : R :=
  scalarG p 8 d s fun c => c.getG a <<< k.toNat
def execBitsShr (p : Pred) (d a b : G) (s : State) : R :=
  scalarG p 8 d s fun c => c.getG a >>> ((c.getG b).toNat % 64)
def execBitsShri (p : Pred) (d a : G) (k : BitVec 6) (s : State) : R :=
  scalarG p 8 d s fun c => c.getG a >>> k.toNat
def execBitsSar (p : Pred) (d a b : G) (s : State) : R :=
  scalarG p 8 d s fun c => (c.getG a).sshiftRight ((c.getG b).toNat % 64)
def execBitsSari (p : Pred) (d a : G) (k : BitVec 6) (s : State) : R :=
  scalarG p 8 d s fun c => (c.getG a).sshiftRight k.toNat
def execBitsRol (p : Pred) (d a b : G) (s : State) : R :=
  scalarG p 8 d s fun c => (c.getG a).rotateLeft ((c.getG b).toNat % 64)
def execBitsRoli (p : Pred) (d a : G) (k : BitVec 6) (s : State) : R :=
  scalarG p 8 d s fun c => (c.getG a).rotateLeft k.toNat
def execBitsRor (p : Pred) (d a b : G) (s : State) : R :=
  scalarG p 8 d s fun c => (c.getG a).rotateRight ((c.getG b).toNat % 64)
def execBitsRori (p : Pred) (d a : G) (k : BitVec 6) (s : State) : R :=
  scalarG p 8 d s fun c => (c.getG a).rotateRight k.toNat

/-- Zeros above the highest one bit among bits n − 1 : 0. -/
def clzN (x : Word) : Nat → Nat
  | 0 => 0
  | n + 1 => if x.getLsbD n then 0 else 1 + clzN x n
/-- Zeros below the lowest one bit, among `n` bits from bit `i`. -/
def ctzN (x : Word) (i : Nat) : Nat → Nat
  | 0 => 0
  | n + 1 => if x.getLsbD i then 0 else 1 + ctzN x (i + 1) n
def swapBytes (x : Word) : Word :=
  byteOf x 0 ++ byteOf x 1 ++ byteOf x 2 ++ byteOf x 3 ++ byteOf x 4 ++ byteOf x 5 ++ byteOf x 6 ++ byteOf x 7
def execBitsClz (p : Pred) (d a : G) (s : State) : R :=
  scalarG p 8 d s fun c => BitVec.ofNat 64 (clzN (c.getG a) 64)
def execBitsCtz (p : Pred) (d a : G) (s : State) : R :=
  scalarG p 8 d s fun c => BitVec.ofNat 64 (ctzN (c.getG a) 0 64)
def execBitsPopc (p : Pred) (d a : G) (s : State) : R :=
  scalarG p 8 d s fun c => BitVec.ofNat 64 (popCount (c.getG a))
def execBitsBrev (p : Pred) (d a : G) (s : State) : R := scalarG p 8 d s fun c => (c.getG a).reverse
def execBitsBswap (p : Pred) (d a : G) (s : State) : R := scalarG p 8 d s fun c => swapBytes (c.getG a)

/-- Position and length of a field (11 R159). -/
def fieldPos (b : Word) : Nat := (b.extractLsb' 0 6).toNat
def fieldLen (b : Word) : Nat := (b.extractLsb' 8 6).toNat + 1
/-- Ones in the `n` low bits. -/
def lowOnes (n : Nat) : Word := BitVec.ofNat 64 (2 ^ n - 1)
/-- The field, zero-extended; bits above 63 read zero. -/
def fieldExt (a b : Word) : Word := (a >>> fieldPos b) &&& lowOnes (fieldLen b)
/-- The field, sign-extended from bit min(n, 64 − p) − 1. -/
def fieldExts (a b : Word) : Word :=
  let m := min (fieldLen b) (64 - fieldPos b)
  if (fieldExt a b).getLsbD (m - 1) then fieldExt a b ||| ~~~lowOnes m else fieldExt a b
def fieldMask (b : Word) : Word := lowOnes (fieldLen b) <<< fieldPos b
def fieldIns (d a b : Word) : Word := (d &&& ~~~fieldMask b) ||| ((a <<< fieldPos b) &&& fieldMask b)
def execFieldExt (p : Pred) (d a b : G) (s : State) : R := scalarG p 8 d s fun c => fieldExt (c.getG a) (c.getG b)
def execFieldExts (p : Pred) (d a b : G) (s : State) : R := scalarG p 8 d s fun c => fieldExts (c.getG a) (c.getG b)
def execFieldIns (p : Pred) (d a b : G) (s : State) : R :=
  scalarG p 8 d s fun c => fieldIns (c.getG d) (c.getG a) (c.getG b)
def execFieldMask (p : Pred) (d b : G) (s : State) : R := scalarG p 8 d s fun c => fieldMask (c.getG b)

def execMovw (p : Pred) (d : G) (imm : Word) (s : State) : R := scalarG p 16 d s fun _ => imm
def execSel (p : Pred) (d a b : G) (q : P) (s : State) : R :=
  scalarG p 8 d s fun c => if (c.getP q).getLsbD 0 then c.getG a else c.getG b
def execLea (p : Pred) (d a b : G) (k : BitVec 3) (s : State) : R :=
  scalarG p 8 d s fun c => c.getG a + (c.getG b <<< k.toNat)
/-- Confined to the 42-bit offset (11 R162). -/
def execLeaOff (p : Pred) (d a b : G) (k : BitVec 3) (s : State) : R :=
  scalarG p 8 d s fun c =>
    (c.getG a).extractLsb' 42 22 ++ ((c.getG a).setWidth 42 + (c.getG b <<< k.toNat).setWidth 42 : BitVec 42)

/-! ## Predicates (11 R163–R165) -/

def execCmp (p : Pred) (cc : Cond) (w : CmpW) (m : Combine) (d : P) (a b : G) (s : State) : R :=
  scalarP p d s fun c => m.apply (c.getP d) (maskOf (Cond.test cc w (c.getG a) (c.getG b)))
def execCmpi (p : Pred) (cc : Cond) (d : P) (a : G) (imm : BitVec 32) (s : State) : R :=
  scalarP p d s fun c => maskOf (Cond.test cc .x64 (c.getG a) (imm64 imm))

def execPlogAnd (p : Pred) (d a b : P) (s : State) : R := scalarP p d s fun c => c.getP a &&& c.getP b
def execPlogOr (p : Pred) (d a b : P) (s : State) : R := scalarP p d s fun c => c.getP a ||| c.getP b
def execPlogXor (p : Pred) (d a b : P) (s : State) : R := scalarP p d s fun c => c.getP a ^^^ c.getP b
def execPlogAndn (p : Pred) (d a b : P) (s : State) : R := scalarP p d s fun c => c.getP a &&& ~~~(c.getP b)
def execPlogOrn (p : Pred) (d a b : P) (s : State) : R := scalarP p d s fun c => c.getP a ||| ~~~(c.getP b)
def execPlogNand (p : Pred) (d a b : P) (s : State) : R := scalarP p d s fun c => ~~~(c.getP a &&& c.getP b)
def execPlogNor (p : Pred) (d a b : P) (s : State) : R := scalarP p d s fun c => ~~~(c.getP a ||| c.getP b)
def execPlogXnor (p : Pred) (d a b : P) (s : State) : R := scalarP p d s fun c => ~~~(c.getP a ^^^ c.getP b)
def execPlogNot (p : Pred) (d a : P) (s : State) : R := scalarP p d s fun c => ~~~(c.getP a)
def execPmovG2p (p : Pred) (d : P) (a : G) (s : State) : R := scalarP p d s fun c => (c.getG a).setWidth 32
def execPmovP2g (p : Pred) (d : G) (a : P) (s : State) : R := scalarG p 8 d s fun c => (c.getP a).setWidth 64
def execPmovBc (p : Pred) (d : P) (a : G) (s : State) : R := scalarP p d s fun c => maskOf ((c.getG a).getLsbD 0)

/-! ## Coordinates (11 R166–R168) -/

/-- The input coordinate is g[A][15:0]. -/
def coordIn (x : Word) : CoreId := x.setWidth 16
def execCoordTile (p : Pred) (d a : G) (s : State) : R :=
  scalarG p 8 d s fun c => BitVec.ofNat 64 (tileOf (coordIn (c.getG a)))
def execCoordGroup (p : Pred) (d a : G) (s : State) : R :=
  scalarG p 8 d s fun c => BitVec.ofNat 64 (groupOf (coordIn (c.getG a)))
def execCoordSgrp (p : Pred) (d a : G) (s : State) : R :=
  scalarG p 8 d s fun c => BitVec.ofNat 64 (sgrpOf (coordIn (c.getG a)))
def execCoordDie (p : Pred) (d a : G) (s : State) : R :=
  scalarG p 8 d s fun c => (dieOf (coordIn (c.getG a))).setWidth 64
def execCoordPres (p : Pred) (d a : G) (s : State) : R :=
  scalarG p 8 d s fun c => if s.present (coordIn (c.getG a)) then 1 else 0
def execCoordHmap (p : Pred) (d a : G) (s : State) : R :=
  scalarG p 8 d s fun c => s.hmap ((c.getG a).toNat % 4)
/-- The absolute coordinate of a relative offset; all ones where 01 R15 would trap it. -/
def coordLocal (s : State) (x : Word) : Word :=
  match coordTarget s.slot (0xC000000000000000 ||| ((x.extractLsb' 0 8).setWidth 64 <<< 50) |||
      ((x.extractLsb' 8 8).setWidth 64 <<< 42)) with
  | none => BitVec.allOnes 64
  | some t => if s.present t then t.setWidth 64 else BitVec.allOnes 64
def execCoordLocal (p : Pred) (d a : G) (s : State) : R := scalarG p 8 d s fun c => coordLocal s (c.getG a)

/-- 11 R167: space, Rel, level, x, y and offset. -/
def makeCoord (lvl : BitVec 2) (rel : Bool) (a b : Word) : Word :=
  1#1 ++ (if rel then 1#1 else 0#1) ++ 0#2 ++ lvl ++ a.extractLsb' 0 8 ++ a.extractLsb' 8 8 ++ b.extractLsb' 0 42
def execMka (p : Pred) (lvl : BitVec 2) (rel : Bool) (d a b : G) (s : State) : R :=
  scalarG p 8 d s fun c => makeCoord lvl rel (c.getG a) (c.getG b)
/-- 11 R168: a package number above a 52-bit offset. -/
def makeGlobal (pkg : BitVec 5) (b : Word) : Word := 0#7 ++ pkg ++ b.extractLsb' 0 52
def execMkg (p : Pred) (d a b : G) (s : State) : R :=
  scalarG p 8 d s fun c => makeGlobal ((c.getG a).setWidth 5) (c.getG b)
def execMkgOwn (p : Pred) (d b : G) (s : State) : R :=
  scalarG p 8 d s fun c => makeGlobal s.pkgNum (c.getG b)

end Sys2Proof.Machine
end

