-- ==== Sys2Proof/Machine/Memory.lean ====
section
/-! DEFINITION. Memory behind the keys: interleave registers and channels (05 R385), compressed spans (R92–R94), check
bits (R87, R88), and presence: tags, written bits, waiting lists (R70–R79, R386). A key names a byte of a store or of a
tier's frame space; keys from 2^100 name bytes of a compressed page. -/
namespace Sys2Proof.Machine

/-! ## Interleaving (05 R385, Table 5-14) -/

/-- Word +0x00 of a memory-interleave register, held against its reset value, G = 12. -/
def State.ilv (s : State) (r : Nat) : Word := s.bar (0x6100 + 16 * r) ^^^ (12 <<< 40)
def State.ilv2 (s : State) (r : Nat) : Word := s.bar (0x6108 + 16 * r)
/-- The `k`-th set bit of an 8-bit mask, counting from zero. -/
def nthBit (m : BitVec 8) (k : Nat) : Nat := ((List.range 8).filter fun i => m.getLsbD i).getD k 0

/-- Die, channel within the die and address within the channel of a frame address of tier 0; none is a decode miss (05 R385). A
valid register with no die maps nothing and is passed over (log entry 99). -/
def State.channelOf (s : State) (f : Nat) : Option (Nat × Nat × Nat) :=
  let hit := (List.range 8).find? fun r =>
    (s.ilv r).getLsbD 63 && ((s.ilv r).extractLsb' 48 8 != 0#8) &&
      decide (((s.ilv r).extractLsb' 0 22).toNat * 2 ^ 30 ≤ f) &&
      decide (f < ((s.ilv2 r).extractLsb' 0 22).toNat * 2 ^ 30)
  match hit with
  | none => none
  | some r =>
    let w := s.ilv r
    let g0 := (w.extractLsb' 40 5).toNat
    let g := if 12 ≤ g0 ∧ g0 ≤ 24 then g0 else 12
    let dies := w.extractLsb' 48 8
    let i := (f - (w.extractLsb' 0 22).toNat * 2 ^ 30) / 2 ^ g
    let n := 64 * popCount dies
    let k := i % n
    let loc := ((s.ilv2 r).extractLsb' 32 11).toNat * 2 ^ 20 + i / n * 2 ^ g + f % 2 ^ g
    if loc < 1500000000 then some (nthBit dies (k / 64), k % 64, loc) else none

/-- Key of a byte of an HBM channel. -/
def chanKey (die chan loc : Nat) : Nat := 2 ^ 57 + (64 * die + chan) * 2 ^ 31 + loc

/-- The link of the tier's port is up, and a committed HDM decoder of it holds a frame (25 R373). -/
def State.hdmHit (s : State) (tier frame : Nat) : Bool :=
  !s.sys.cxlDown.contains (BitVec.ofNat 4 (tier - 1)) && (List.range 4).any fun d =>
    let b := s.bar (0x9000 + 256 * (tier - 1) + 16 * d)
    b.getLsbD 0 && decide (b.toNat / 4096 * 4096 ≤ frame) &&
      decide (frame < b.toNat / 4096 * 4096 + (s.bar (0x9008 + 256 * (tier - 1) + 16 * d)).toNat)
/-- Where the byte named by a key lies: HBM by channel, a port's range where a decoder holds it, stores as named; none is
a decode miss. -/
def State.phys (s : State) (k : Nat) : Option Nat :=
  if k < 2 ^ 52 then (s.channelOf k).map fun c => chanKey c.1 c.2.1 c.2.2
  else if k < 16 * 2 ^ 52 then (if s.hdmHit (k / 2 ^ 52) (k % 2 ^ 52) then some k else none)
  else some k

/-- The memory controller of a frame address (05 R385), 0–31. -/
def State.controller (s : State) (k : Nat) : Nat :=
  match s.channelOf k with
  | some (d, c, _) => 4 * d + c / 16
  | none => 0

/-- 64 bytes at a key's physical place, none where they fail their check or decode (05 R88). -/
def State.rawRead (s : State) (k : Nat) : Option Granule :=
  match s.phys (k / 64 * 64) with
  | none => none
  | some a => if s.eccOf a = 2 then none else some (s.granule a)
/-- Write bytes of a granule; its check bits are good afterwards, and a decode miss writes nothing. -/
def State.rawWrite (s : State) (k : Nat) (m : BitVec 64) (x : Granule) : State :=
  match s.phys (k / 64 * 64) with
  | none => s
  | some a => s.putChecked a m x
def State.rawWord (s : State) (k : Nat) : Option Word :=
  (s.rawRead k).map fun g => g.extractLsb' (8 * (k % 64)) 64
def State.rawSetWord (s : State) (k : Nat) (x : Word) : State :=
  s.rawWrite k (spanMask (k % 64) 8) ((x.setWidth 512) <<< (8 * (k % 64)))

/-! ## Compressed spans (05 R91–R94) -/

/-- A byte of a page of a compressing surface: page size, surface, tier and frame address. -/
def codedKey (bits surface tier frame : Nat) : Nat :=
  2 ^ 100 + bits * 2 ^ 90 + surface * 2 ^ 70 + tier * 2 ^ 60 + frame
def isCoded (k : Nat) : Bool := decide (2 ^ 100 ≤ k ∧ k < 2 ^ 110)
def codedBits (k : Nat) : Nat := k / 2 ^ 90 % 2 ^ 10
def codedSurface (k : Nat) : Nat := k / 2 ^ 70 % 2 ^ 20
def codedTier (k : Nat) : Nat := k / 2 ^ 60 % 2 ^ 10
def codedFrame (k : Nat) : Nat := k % 2 ^ 60

/-- Key of the span descriptor: the page's frame names the span table. -/
def spanDesc (k : Nat) : Nat :=
  let f := codedFrame k
  let p := 2 ^ codedBits k
  frameKey (codedTier k) (f / p * p + 8 * (f % p / 4096))
/-- Address of surface record `i` (05 Table 5-12). -/
def State.surfaceRec (s : State) (i : Nat) : Nat := (s.bar 0x2000).toNat + 32 * i
/-- The surface compresses its second-tier pages. The record is read in memory itself, past the caches, and a word that fails its
check reads as 0 (05 R91; log entry 100). -/
def State.compresses (s : State) (i : Nat) : Bool := ((s.rawWord (s.surfaceRec i)).getD 0).getLsbD 0
def State.bumpSurface (s : State) (i o : Nat) : State :=
  let a := s.surfaceRec i + o
  s.rawSetWord a ((s.rawWord a).getD 0 + 1)

/-- Bytes of a coded atom by class; none for a reserved class (05 Table 5-13). -/
def classBytes : Nat → Option Nat
  | 0 => some 0 | 1 => some 8 | 2 => some 16 | 3 => some 24 | 4 => some 64 | _ => none
/-- Class of atom `i` in a 32-byte header. -/
def classOf (h : BitVec 256) (i : Nat) : Nat := (h.extractLsb' (4 * i) 4).toNat
/-- Offset of atom `i` in its run, none where an earlier atom has a reserved class. -/
def atomOff (h : BitVec 256) : Nat → Option Nat
  | 0 => some 32
  | i + 1 => do return (← atomOff h i) + (← classBytes (classOf h i))
/-- `n` bytes from a key, across granules; none where one fails its check. -/
def State.rawBytes (s : State) (k : Nat) : Nat → Option Nat
  | 0 => some 0
  | n + 1 => do
    let r ← s.rawBytes (k + 1) n
    let g ← s.rawRead k
    return (byteOf g (k % 64)).toNat + 256 * r
/-- The decoded atom: word `j` from the coded bytes (05 Table 5-13). -/
def decodeAtom (c : Nat) (x : Nat) : Granule :=
  let w : Granule := BitVec.ofNat 512 x
  match c with
  | 0 => 0
  | 1 => granuleOf (List.replicate 8 (w.word 0))
  | 2 => granuleOf ((List.range 8).map fun j => w.word 0 + (w.extractLsb' (64 + 8 * j) 8).signExtend 64)
  | 3 => granuleOf ((List.range 8).map fun j => w.word 0 + (w.extractLsb' (64 + 16 * j) 16).signExtend 64)
  | _ => w
/-- The granule of a compressed page through the decompressing aperture; none is a check failure (05 R94). Only the granules that
the access needs are read and tested (log entry 101). -/
def State.codedRead (s : State) (k : Nat) : Option Granule := do
  let d ← s.rawWord (spanDesc k)
  let n := d.toNat % 16
  let run := frameKey (codedTier k) (d.toNat / 512 * 512)
  let o := codedFrame k % 4096
  if n = 8 then s.rawRead (run + o)
  else if n = 0 ∨ 8 < n then none
  else
    let h : BitVec 256 := BitVec.ofNat 256 (← s.rawBytes run 32)
    let total ← atomOff h 64
    if (total + 511) / 512 ≠ n then none
    else
      let i := o / 64
      let a ← atomOff h i
      let c := classOf h i
      return decodeAtom c (← s.rawBytes (run + a) (← classBytes c))
/-- A span with k ≤ 7: a write to part of it raises the compressed-write fault (05 R94). -/
def State.codedSmall (s : State) (k : Nat) : Bool :=
  isCoded k && decide ((((s.rawWord (spanDesc k)).getD 0).toNat % 16) ≤ 7)

/-- First class, in the order 0 to 4, that reproduces an atom, and its coded bytes (05 R93). -/
def codeAtom (g : Granule) : Nat × Nat :=
  let b := g.word 0
  let fits := fun (w : Nat) => (List.range 8).all fun j => ((g.word j - b).setWidth w).signExtend 64 == g.word j - b
  let deltas := fun (w : Nat) => (List.range 8).foldl (fun a j => a + (((g.word j - b).setWidth w).toNat) * 2 ^ (w * j)) 0
  if g = 0 then (0, 0)
  else if (List.range 8).all fun j => g.word j == b then (1, b.toNat)
  else if fits 8 then (2, b.toNat + deltas 8 * 2 ^ 64)
  else if fits 16 then (3, b.toNat + deltas 16 * 2 ^ 64)
  else (4, g.toNat)
/-- The coded atoms after the header, packed: their value and size in bytes. -/
def packAtoms : List (Nat × Nat) → Nat × Nat
  | [] => (0, 0)
  | (c, x) :: r =>
    let z := (classBytes c).getD 0
    let p := packAtoms r
    (x + p.1 * 2 ^ (8 * z), z + p.2)
/-- Write a little-endian value over `n` granules. -/
def State.writeRun (s : State) (k x : Nat) : Nat → State
  | 0 => s
  | n + 1 => (s.writeRun k x n).rawWrite (k + 64 * n) (BitVec.allOnes 64) (BitVec.ofNat 512 (x / 2 ^ (512 * n)))
/-- The hub codes a whole span of 64 granules: sectors first, then the descriptor; a span of more than 7 sectors is
stored raw and counted (05 R93). The run stays where the descriptor names it. -/
def State.codeSpan (s : State) (k : Nat) (l : List Granule) : State :=
  let d := (s.rawWord (spanDesc k)).getD 0
  let run := d.toNat / 512 * 512
  let at0 := frameKey (codedTier k) run
  let cs := l.map codeAtom
  let p := packAtoms cs
  let n := (32 + p.2 + 511) / 512
  let hdr := (List.range cs.length).foldl (fun a i => a + ((cs[i]?.map Prod.fst).getD 0) * 16 ^ i) 0
  if n ≤ 7 then (s.writeRun at0 (hdr + p.1 * 2 ^ 256) (8 * n)).rawSetWord (spanDesc k) (BitVec.ofNat 64 (run + n))
  else
    let raw := l.foldr (fun g a => g.toNat + a * 2 ^ 512) 0
    ((s.writeRun at0 raw 64).rawSetWord (spanDesc k) (BitVec.ofNat 64 (run + 8))).bumpSurface (codedSurface k) 8

/-- 64 bytes of memory; none is uncorrectable data, a decode miss or a check failure. -/
def State.memRead (s : State) (k : Nat) : Option Granule := if isCoded k then s.codedRead k else s.rawRead k
/-- Write bytes of a granule of PLAIN memory; a whole granule leaves zero metadata (05 R70). -/
def State.memWrite (s : State) (k : Nat) (m : BitVec 64) (x : Granule) : State :=
  if isCoded k then
    let d := (s.rawWord (spanDesc k)).getD 0
    s.rawWrite (frameKey (codedTier k) (d.toNat / 512 * 512) + codedFrame k % 4096) m x
  else
    match s.phys (k / 64 * 64) with
    | none => s
    | some a => (s.rawWrite k m x).setAtom a 0

/-! ## Tags (05 R70, Table 5-4, R386) -/

structure TagV where
  rem : Nat
  gen : Nat
  st : Nat
deriving DecidableEq, Repr

/-- The stored word: parity makes bits 15:0 even. -/
def TagV.pack (t : TagV) : BitVec 16 :=
  let b := BitVec.ofNat 16 (t.rem % 128 * 256 + t.gen % 64 * 4 + t.st % 4)
  if popCount b % 2 = 1 then b ||| 0x8000 else b
def TagV.unpack (b : BitVec 16) : TagV :=
  { rem := b.toNat / 256 % 128, gen := b.toNat / 4 % 64, st := b.toNat % 4 }

/-- Metadata of the atom at a key. -/
def State.metaAt (s : State) (k : Nat) : BitVec 16 :=
  match s.phys (k / 64 * 64) with
  | none => 0
  | some a => s.atom a
def State.setMeta (s : State) (k : Nat) (x : BitVec 16) : State :=
  match s.phys (k / 64 * 64) with
  | none => s
  | some a => s.setAtom a x

/-- A block is filled and its release is awaited. -/
def State.filling (s : State) (blk : Nat) : Bool := s.fills.any fun f => f.blk == blk && !f.draining
def State.draining (s : State) (blk : Nat) : Bool := s.fills.any fun f => f.blk == blk && f.draining

/-- The metadata of a block as a wipe leaves it: 0x0000, which is also the tag of a block at generation 0 whose last granule
is written and whose release is awaited (05 R386, R73; log entry 67). -/
def State.untagged (s : State) (blk : Nat) : Bool := s.metaAt blk == 0 && !s.filling blk
/-- The tag of a block as an access under exponent `n` reads it; none is a tag machine check (05 R71, R386), or data that no
channel holds (R385). A stored 0x0000 is an empty tag at generation 0. -/
def State.tagOf (s : State) (blk n : Nat) : Option TagV :=
  let b := s.metaAt blk
  if (s.phys (blk / 64 * 64)).isNone then none
  else if s.untagged blk then some { rem := 2 ^ n, gen := 0, st := 0 }
  else
    let t := TagV.unpack b
    if popCount b % 2 = 1 ∨ t.st = 3 then none
    else if 2 ^ n < t.rem ∨ (t.rem = 0 ∧ t.st ≠ 2 ∧ ¬s.filling blk) then none
    else some t
/-- The tag word that LDQ, LDTRY and BWAIT return. -/
def State.tagWord (s : State) (blk n : Nat) : BitVec 16 :=
  if s.untagged blk then TagV.pack { rem := 2 ^ n, gen := 0, st := 0 } else s.metaAt blk

/-- The written bit of granule `i` (05 R70). -/
def State.written (s : State) (blk n i : Nat) : Bool :=
  if s.untagged blk then false
  else if n = 0 then (TagV.unpack (s.metaAt blk)).rem == 0
  else if i = 0 then (s.metaAt (blk + 64)).getLsbD 1
  else (s.metaAt (blk + 64 * i)).getLsbD 0
/-- Clear every written bit of a block. -/
def State.clearWritten (s : State) (blk : Nat) : Nat → State
  | 0 => s
  | i + 1 => if i = 0 then s else (s.clearWritten blk i).setMeta (blk + 64 * i) 0
/-- Set the written bit of granule `i`; the atom's other metadata bits, a written bit of granule 0 apart, are written zero. -/
def State.setWritten (s : State) (blk n i : Nat) : State :=
  if n = 0 then s
  else if i = 0 then s.setMeta (blk + 64) ((s.metaAt (blk + 64) &&& 1) ||| 2)
  else s.setMeta (blk + 64 * i) ((if i = 1 then s.metaAt (blk + 64) &&& 2 else 0) ||| 1)

/-! ## The home's operations on a block -/

inductive BlkRead where
  | full (g : Granule)
  | notFull
  | bad
deriving DecidableEq, Repr

/-- A block read of the granule at key `k` (05 R76). -/
def State.blkRead (s : State) (m : Map) : BlkRead :=
  match s.tagOf m.blk m.n with
  | none => .bad
  | some t =>
    if t.st = 2 then (match s.rawRead m.key with | some g => .full g | none => .bad) else .notFull

/-- What a block write does: refused as a second write, failing, or written, and whether it was the last granule. -/
inductive BlkWrite where
  | second
  | bad
  | done (s : State) (last : Bool)

/-- 05 R73: the granule takes the written bytes and zeros, and counts as written. Where Remaining is 0 already, a write is a
second write whatever the granule's bit is (log entry 97). -/
def State.blkWrite (s : State) (m : Map) (mask : BitVec 64) (x : Granule) : BlkWrite :=
  match s.tagOf m.blk m.n, s.phys m.key with
  | some t, some a =>
    let i := (m.key - m.blk) / 64
    if s.written m.blk m.n i ∨ t.rem = 0 then .second
    else
      let s := if s.untagged m.blk then s.clearWritten m.blk (2 ^ m.n) else s
      let s := s.rawWrite m.key (BitVec.allOnes 64) (x &&& byteMask 64 mask)
      let s := s.setWritten m.blk m.n i
      let s := s.setMeta m.blk (TagV.pack { t with rem := t.rem - 1 })
      let _ := a
      .done s (t.rem = 1)
  | _, _ => .bad

/-- 05 Table 5-5: what CLR answers. -/
inductive BlkClear where
  | deferred
  | bad
  | done (s : State)

def State.blkClear (s : State) (blk n : Nat) : BlkClear :=
  match s.tagOf blk n with
  | none => .bad
  | some t =>
    if t.st = 1 then .deferred
    else
      let s := s.clearWritten blk (2 ^ n)
      .done ({ s with fills := s.fills.filter fun f => f.blk != blk }.setMeta blk
        (TagV.pack { rem := 2 ^ n, gen := t.gen + 1, st := 0 }))

/-! ## Waiting lists (05 R77) -/

/-- Spill capacity of a controller in descriptors of 16 bytes. -/
def State.spillCap (s : State) (ctl : Nat) : Nat := (s.bar (0x7008 + 16 * ctl)).toNat / 16
/-- The home of a block has room for another waiter (05 Table 5-6). -/
def State.listRoom (s : State) (blk : Nat) : Bool :=
  if blk < 2 ^ 52 then
    let c := s.controller blk
    decide ((s.waiters.filter fun w => decide (w.blk < 2 ^ 52) && s.controller w.blk == c).length
      < 65536 + s.spillCap c)
  else
    let cap := if blk < 2 ^ 62 then 128 else if blk < 2 ^ 63 then 512 else 2048
    decide ((s.waiters.filter fun w => w.blk / 2 ^ 22 == blk / 2 ^ 22).length < cap)
/-- The watch counter of a watched page advances by each of its blocks' CLRs (17 R294). -/
def State.bumpWatch (s : State) (i : BitVec 8) : State :=
  { s with watch := SMap.set 0 s.watch i.toNat (SMap.get 0 s.watch i.toNat + 1) }

/-- A block's last granule is written: its release awaits the writer's earlier writes (05 R73). -/
def State.startFill (s : State) (blk n : Nat) (who : Agent) (before : List (CoreId × Nat)) (lower : List Agent)
    (posts : List Nat) : State :=
  ({ s with fills := s.fills ++ [{ blk := blk, n := n, before := before, lower := lower, posts := posts }] } : State).after 0
    (.blockFillRelease blk n who)
end Sys2Proof.Machine
end

