-- ==== Sys2Proof/Machine/Cache.lean ====
section
/-! DEFINITION. Plain-line caches and die controllers (23 R343, R344), and accesses at the coherence point. A line is named
by its key / 64. -/
namespace Sys2Proof.Machine

def cohKey (i line : Nat) : Nat := i * 2 ^ 128 + line
/-- A name for a line of another package: home, ASID and line address. -/
def aliasLine (pkg : BitVec 5) (asid : BitVec 16) (off : Nat) : Nat :=
  2 ^ 110 + (pkg.toNat * 2 ^ 16 + asid.toNat) * 2 ^ 46 + off / 64
def isAlias (line : Nat) : Bool := decide (2 ^ 110 ≤ line ∧ line < 2 ^ 111)
/-- The home package of a line: another's by its alias, else this one. -/
def State.homePkg (s : State) (line : Nat) : BitVec 5 :=
  if isAlias line then BitVec.ofNat 5 ((line - 2 ^ 110) / 2 ^ 62) else s.pkgNum
/-- A frame line of another package, as messages name it. -/
def remoteFrame (pkg : BitVec 5) (f : Nat) : Nat := 2 ^ 111 + pkg.toNat * 2 ^ 46 + f

def State.lineAt (s : State) (sg : BitVec 8) (line : Nat) : Line := SMap.get {} s.coh.lines (cohKey sg.toNat line)
def State.setLine (s : State) (sg : BitVec 8) (line : Nat) (l : Line) : State :=
  { s with coh := { s.coh with lines := SMap.set {} s.coh.lines (cohKey sg.toNat line)
                                (if l.st = .i then {} else l) } }
def State.snoop (s : State) (die : BitVec 3) (line : Nat) : Snoop := SMap.get {} s.coh.snoops (cohKey die.toNat line)
def State.setSnoop (s : State) (die : BitVec 3) (line : Nat) (x : Snoop) : State :=
  { s with coh := { s.coh with snoops := SMap.set {} s.coh.snoops (cohKey die.toNat line) x } }

/-- Index of a supergroup within its die (01 Table 1-2). -/
def sgInDie (sg : BitVec 8) : Nat := sg.toNat % 8 + 8 * (sg.toNat / 16 % 4)
/-- The supergroup at an index of a die. -/
def dieSg (die : BitVec 3) (i : Nat) : BitVec 8 :=
  BitVec.ofNat 8 ((die.toNat / 2 * 4 + i / 8) * 16 + (die.toNat % 2) * 8 + i % 8)
/-- The caches of a die that hold a line. -/
def State.holders (s : State) (die : BitVec 3) (line : Nat) : List (BitVec 8) :=
  ((List.range 32).map (dieSg die)).filter fun g => (s.lineAt g line).st != .i

/-- Contexts of a supergroup whose WAITL watches a line wake when it is written or lost (15 R247). -/
def State.lineLost (s : State) (sg : BitVec 8) (line : Nat) : State :=
  s.cores.foldl (fun s e =>
    let c : CoreId := BitVec.ofNat 16 e.1
    if sgIdx c ≠ sg then s
    else (List.finRange 16).foldl (fun s i =>
      let x : CtxId := BitVec.ofFin i
      let t := s.ctx c x
      match t.park, t.acc with
      | some (.waitl ..), some a =>
        if a.map.any (fun m => m.key / 64 == line) then s.after 1 (.waitlWake c x t.tid) else s
      | _, _ => s) s) s

/-- Contexts of a core whose WAITL watches a granule of the local store wake when a context of the core writes it (15
R247). -/
def State.localWritten (s : State) (c : CoreId) (off : Nat) : State :=
  (List.finRange 16).foldl (fun s i =>
    let x : CtxId := BitVec.ofFin i
    let t := s.ctx c x
    match t.park, t.acc with
    | some (.waitl ..), some a =>
      if a.va.getLsbD 63 ∧ a.va.toNat % 2 ^ 22 / 64 = off / 64 then s.after 1 (.waitlWake c x t.tid) else s
    | _, _ => s) s

/-- Drop a line from one cache. -/
def State.dropLine (s : State) (sg : BitVec 8) (line : Nat) : State :=
  (s.setLine sg line {}).lineLost sg line

/-- This die's agent number and incarnation (23 R345). -/
def State.agentOf (s : State) (die : BitVec 3) : AgentId := s.pkgNum ++ die
def State.incOf (s : State) (a : AgentId) : BitVec 8 := SMap.get 0 s.coh.inc a.toNat
/-- A die of this package that an agent number names. -/
def State.dieOfAgent (s : State) (a : AgentId) : Option (BitVec 3) :=
  if a.extractLsb' 3 5 = s.pkgNum then some (a.setWidth 3) else none

/-- The die's request for a line that it has outstanding. -/
def State.dieReq (s : State) (die : BitVec 3) (line : Nat) : Option DieReq :=
  s.coh.dieReqs.find? fun r => r.die == die && r.line == line
def State.inWb (s : State) (die : BitVec 3) (line : Nat) : Bool := s.coh.wbs.any fun w => w.1 == die && w.2.1 == line

/-- The aliases of a frame line of another package that a die knows. -/
def State.aliasesOf (s : State) (die : BitVec 3) (frame : Nat) : List Nat :=
  (s.coh.frames.filter fun e => e.1 / 2 ^ 128 == die.toNat && e.2 == frame).map fun e => e.1 % 2 ^ 128
/-- The alias under which a die holds a frame line of another package, or else has it in its writeback buffer or asks for it;
or the line itself. -/
def State.heldAs (s : State) (die : BitVec 3) (line : Nat) : Nat :=
  if line < 2 ^ 111 then line
  else
    let l := s.aliasesOf die line
    (((l.find? fun a => !(s.holders die a).isEmpty).or (l.find? fun a => s.inWb die a)).or l.head?).getD line
/-- The alias whose writeback a Cmp acknowledges, if any, else that under which the die holds the line. -/
def State.writtenAs (s : State) (die : BitVec 3) (line : Nat) : Nat :=
  ((s.aliasesOf die line).find? fun a => s.inWb die a).getD (s.heldAs die line)
/-- The name by which messages name a line that a die holds (23 R345). -/
def State.frameOf (s : State) (die : BitVec 3) (line : Nat) : Nat :=
  if isAlias line then SMap.get line s.coh.frames (cohKey die.toNat line) else line
/-- A die no longer holds, asks for or writes back a line of another package: it forgets the frame line (23 R343). -/
def State.forgetFrame (s : State) (die : BitVec 3) (line : Nat) : State :=
  if isAlias line ∧ (s.holders die line).isEmpty ∧ ¬s.inWb die line ∧ (s.dieReq die line).isNone then
    { s with coh := { s.coh with frames := SMap.set line s.coh.frames (cohKey die.toNat line) line } }
  else s
/-- A die's message goes to the line's home: the hub of this package, or over Milhan (23 R345). -/
def State.toHome (s : State) (line : Nat) (e : Event) (m : CohMsg) : State :=
  if line < 2 ^ 110 then s.afterFree e
  else
    let p := if isAlias line then s.homePkg line else BitVec.ofNat 5 ((line - 2 ^ 111) / 2 ^ 46)
    { s with outbox := s.outbox ++ [.coh p m] }
/-- Send a die's request for a line to the hub (23 R344, R345). The first request for a line of another package is sent
with the access that makes it, under its request id. -/
def State.sendReq (s : State) (die : BitVec 3) (line : Nat) (k : ReqKind) : State :=
  let a := s.agentOf die
  let f := s.frameOf die line
  let r : CohReq := { line := line, agent := a, inc := s.incOf a }
  let m : CohKind → CohMsg := fun k => { kind := k, line := f, agent := a, inc := s.incOf a }
  match k with
  | .rds => if isAlias line ∧ f = line then s else s.toHome line (.rds r) (m .rds)
  | .rdx => if isAlias line ∧ f = line then s else s.toHome line (.rdx r) (m .rdx)
  | .upg => s.toHome line (.upg r) (m .upg)

/-- The die's writeback of a line, under whatever alias, is not yet acknowledged: no request for it goes out (23 R346, R353). -/
def State.wbOpen (s : State) (die : BitVec 3) (line : Nat) : Bool :=
  s.inWb die line || (s.aliasesOf die (s.frameOf die line)).any fun a => s.inWb die a
/-- Join the die's outstanding request for the line, or send one (23 R344). -/
def State.askHub (s : State) (die : BitVec 3) (line : Nat) (k : ReqKind) (sg : BitVec 8) (excl : Bool) : State :=
  match s.dieReq die line with
  | some r =>
    if r.sgs.any (fun p => p.1 == sg && (p.2 || !excl)) then s
    else { s with coh := { s.coh with dieReqs := s.coh.dieReqs.map fun q =>
             if q.die = die ∧ q.line = line then { q with sgs := q.sgs ++ [(sg, excl)] } else q } }
  | none =>
    if s.wbOpen die line then s
    else ({ s with coh := { s.coh with dieReqs := s.coh.dieReqs ++
             [{ die := die, line := line, kind := k, sgs := [(sg, excl)] }] } } : State).sendReq die line k

/-- Set a die's presence bits to the caches that hold the line. -/
def State.refreshSnoop (s : State) (die : BitVec 3) (line : Nat) (g : Granted) : State :=
  let m := (s.holders die line).foldl (fun a h => a ||| (1 <<< sgInDie h : BitVec 32)) (0 : BitVec 32)
  s.setSnoop die line (if g = .i then {} else { granted := g, present := m })

/-! ### Evictions (23 R344) -/

/-- Lines that each set of a supergroup's cache holds: one in every plain way that a running SGWAY does not take (05 R84). -/
def State.cacheWays (s : State) (sg : BitVec 8) : Nat :=
  max 1 (popCount (s.plainWays sg.toNat &&&
    (((s.sgway.find? fun e => e.1 == sg).map fun e => e.2.2.1).getD (s.plainWays sg.toNat))))
/-- Sets of a cache, chosen by the line's low bits (log entry 73). -/
def cacheSet (line : Nat) : Nat := line % 4096
/-- A cache's victim: another copy in the die takes over its dirtiness; the last copy leaves the die. -/
def State.cacheEvict (s : State) (sg : BitVec 8) (line : Nat) : State :=
  let die := dieOfSg sg
  let own := s.lineAt sg line
  match (s.holders die line).filter fun h => h != sg with
  | [] => s.after 0 (.snoopFilterEvict die line)
  | h :: _ =>
    let s := s.dropLine sg line
    let s := if own.st = .m ∨ own.st = .o then s.setLine h line { s.lineAt h line with st := .o } else s
    s.refreshSnoop die line (s.snoop die line).granted
/-- Lines of a list of pairs whose index is `i`. -/
def linesOf {α : Type} (l : List (Nat × α)) (i : Nat) : List Nat :=
  (l.filter fun e => e.1 / 2 ^ 128 == i).map fun e => e.1 % 2 ^ 128
/-- After an install: a victim of the device's choice leaves a full set of the cache, and a full set of the snoop-filter
bank. -/
def State.makeRoom (s : State) (sg : BitVec 8) (line : Nat) : State :=
  let die := dieOfSg sg
  let mine := (linesOf s.coh.lines sg.toNat).filter fun l => cacheSet l == cacheSet line && l != line
  let bank := (linesOf s.coh.snoops die.toNat).filter fun l => l % 16384 == line % 16384 && l != line
  let s := if s.cacheWays sg ≤ mine.length then
      let r := s.choose mine.length
      r.2.cacheEvict sg (mine.getD r.1 0)
    else s
  if 16 ≤ bank.length then
    let r := s.choose bank.length
    r.2.after 0 (.snoopFilterEvict die (bank.getD r.1 0))
  else s

/-- A cache holds a line as wanted. -/
def State.lineHit (s : State) (sg : BitVec 8) (line : Nat) (excl : Bool) : Bool :=
  let own := s.lineAt sg line
  (!excl && own.st != .i) || own.st == .m || own.st == .e
/-- A miss or an upgrade of a cache goes to its bank, in the request class; one that the bank has, or that is on its way there,
serves later ones (23 R344, 01 R16). -/
def State.missLine (s : State) (line : Nat) (excl : Bool) (r : RemReq) : State :=
  let sg := sgIdx r.core
  let die := dieOfSg sg
  if s.coh.misses.any (fun m => m.1 == sg && m.2.1 == line && (m.2.2 || !excl)) ||
      (s.dieReq die line).any (fun q => q.sgs.any fun p => p.1 == sg && (p.2 || !excl)) then s
  else
    ({ s with coh := { s.coh with misses := s.coh.misses ++ [(sg, line, excl)] } } : State).meshAfter sg (s.bankRouter die line)
      .request (.lineMiss line excl r)
/-- A line wanted in a cache, at its bank: installed when the die can supply it, else asked of the hub. The answer is the
state and whether the cache now holds the line as wanted (23 R344). -/
def State.wantLine (s : State) (sg : BitVec 8) (line : Nat) (excl : Bool) : State × Bool :=
  let die := dieOfSg sg
  if s.lineHit sg line excl then (s, true)
  else
    let sn := s.snoop die line
    let hs := s.holders die line
    let dirty := hs.any fun h => (s.lineAt h line).st == .m || (s.lineAt h line).st == .o
    match hs with
    | [] => (s.askHub die line (if excl then .rdx else .rds) sg excl, false)
    | h :: _ =>
      let d := (s.lineAt h line).data
      if excl then
        if sn.granted = .m then
          let s := (hs.filter (· != sg)).foldl (fun s g => s.dropLine g line) s
          (((s.setLine sg line { st := if dirty then .m else .e, data := d }).refreshSnoop die line .m).makeRoom sg line, true)
        else (s.askHub die line .upg sg excl, false)
      else
        let s := hs.foldl (fun s g =>
          let l := s.lineAt g line
          s.setLine g line { l with st := match l.st with | .m => .o | .e => .s | q => q }) s
        (((s.setLine sg line { st := .s, data := d }).refreshSnoop die line sn.granted).makeRoom sg line, true)

/-! ## The coherence point -/

/-- An entry names an agent of another package. -/
def DirEnt.names (e : DirEnt) (own : BitVec 5) : Bool :=
  ((e.st == .ho || e.st == .hx) && e.owner.extractLsb' 3 5 != own) || e.ptrs.any (fun a => a.extractLsb' 3 5 != own) ||
    (e.coarse && (e.pkgs &&& ~~~((1 : BitVec 32) <<< own.toNat)) != 0)
/-- An agent of another package holds the line: it is recalled before it is accessed here. -/
def State.heldAbroad (s : State) (line : Nat) : Bool :=
  s.coh.dir.any fun e => e.2.line == line && e.2.st != .free && e.2.names s.pkgNum
/-- A coherence transaction or message concerns the line, or another package holds it. -/
def State.lineBusy (s : State) (line : Nat) : Bool :=
  s.heldAbroad line || s.coh.txns.any (fun t => t.line == line) || s.coh.dieReqs.any (fun r => r.line == line) ||
    s.coh.wbs.any (fun w => w.2.1 == line) || (s.coh.queue ++ s.coh.net ++ s.coh.fenced).any (fun q => q.line == line)

/-- The line's owner is dead: no reader is given memory's value for it (23 R358). -/
def State.lineDead (s : State) (line : Nat) : Bool :=
  s.coh.dir.any fun e => e.2.line == line && (e.2.st == .ho || e.2.st == .hx) && s.coh.dead.contains e.2.owner
/-- Recall a line that another package holds, for an access that waits for it. -/
def State.nudge (s : State) (k : Nat) : State :=
  let l := k / 64
  if s.heldAbroad l ∧ (s.coh.txns.all fun t => t.line != l) ∧ (s.agenda.all fun e => e.2 != .directoryRecall l) then
    s.after 0 (.directoryRecall l) else s
/-- A cached copy of the line; all copies hold the same data. -/
def State.cached (s : State) (line : Nat) : Option Granule :=
  (s.coh.lines.find? fun e => e.1 % 2 ^ 128 == line).map fun e => e.2.data

/-- Drop every cached copy, snoop-filter entry and directory entry of a line. -/
def State.purgeLine (s : State) (line : Nat) : State :=
  let gs := (s.coh.lines.filter fun e => e.1 % 2 ^ 128 == line).map fun e => BitVec.ofNat 8 (e.1 / 2 ^ 128)
  let s := gs.foldl (fun s g => s.dropLine g line) s
  { s with coh := { s.coh with
      snoops := s.coh.snoops.filter fun e => e.1 % 2 ^ 128 != line
      dir := s.coh.dir.filter fun e => e.2.line != line } }

/-- What a PLAIN access at the coherence point finds: a transaction in the way, failing data, or the granule. -/
inductive PlainRead where
  | busy
  | bad
  | ok (g : Granule)
deriving DecidableEq, Repr

def State.plainRead (s : State) (k : Nat) : PlainRead :=
  if s.lineBusy (k / 64) then .busy
  else
    match (s.cached (k / 64)).or (s.memRead k) with
    | some g => .ok g
    | none => .bad
/-- A write there: every cached copy is dropped and memory takes the merged line. None while a transaction is open. -/
def State.plainWrite (s : State) (k : Nat) (m : BitVec 64) (x : Granule) : Option State :=
  let l := k / 64
  if s.lineBusy l then none
  else
    match s.cached l with
    | some g => some ((s.purgeLine l).memWrite (64 * l) (BitVec.allOnes 64) (mergeBytes g x m))
    | none => some (s.memWrite (64 * l) m x)
/-- The latest value of a line that hardware of this package itself keeps, wherever it stands: in a cache, on its way, or in
memory. -/
def State.ownRead (s : State) (k : Nat) : Option Granule :=
  let l := k / 64
  let moving : Event → Option Granule := fun e =>
    match e with
    | .wbd n _ _ d _ => if n = l then some d else none
    | .data _ n _ _ d _ g x | .datax _ n _ _ d _ g x => if n = l ∧ ¬g ∧ ¬x then some d else none
    | .memrdData n d => if n = l then some d else none
    | _ => none
  ((((s.cached l).or ((s.coh.wbs.find? fun w => w.2.1 == l).map fun w => w.2.2.1)).or
    ((s.coh.queue ++ s.coh.net ++ s.coh.fenced).findSome? fun q => match q with
      | .wb n _ _ d _ => if n = l then some d else none | _ => none)).or
    ((s.coh.txns.findSome? fun t => if t.line = l then t.got.map Prod.fst else none).or
      (s.agenda.findSome? fun e => moving e.2))).or (s.memRead k)
/-- A write to such a line: every copy takes it. -/
def State.ownWrite (s : State) (k : Nat) (m : BitVec 64) (x : Granule) : State :=
  let l := k / 64
  let put : Nat → Granule → Granule := fun n d => if n = l then mergeBytes d x m else d
  let putReq : HubReq → HubReq := fun q => match q with
    | .wb n a i d y => .wb n a i (put n d) y
    | q => q
  let s := s.memWrite (64 * l) m x
  if s.cached l = none ∧ s.lineBusy l = false then s
  else
    { s with
      agenda := s.agenda.map fun e => (e.1, match e.2 with
        | .wbd n a i d y => .wbd n a i (put n d) y
        | .data h n a i d y g r => .data h n a i (put n d) y g r
        | .datax h n a i d y g r => .datax h n a i (put n d) y g r
        | .memrdData n d => .memrdData n (put n d)
        | e => e)
      coh := { s.coh with
        lines := s.coh.lines.map fun e => (e.1, { e.2 with data := put (e.1 % 2 ^ 128) e.2.data })
        wbs := s.coh.wbs.map fun w => (w.1, w.2.1, put w.2.1 w.2.2.1, w.2.2.2)
        txns := s.coh.txns.map fun t => { t with got := t.got.map fun g => (put t.line g.1, g.2) }
        queue := s.coh.queue.map putReq
        net := s.coh.net.map putReq
        fenced := s.coh.fenced.map putReq } }
/-- A doubleword of such a line, zero where it cannot be read. -/
def State.ownWord (s : State) (k : Nat) : Word :=
  ((s.ownRead k).map fun g => g.extractLsb' (8 * (k % 64)) 64).getD 0
def State.setOwnWord (s : State) (k : Nat) (x : Word) : State :=
  s.ownWrite k (spanMask (k % 64) 8) ((x.setWidth 512) <<< (8 * (k % 64)))
/-- A doubleword there. -/
def State.plainWord (s : State) (k : Nat) : Option Word :=
  match s.plainRead k with
  | .ok g => some (g.extractLsb' (8 * (k % 64)) 64)
  | _ => none

end Sys2Proof.Machine
end

