-- ==== Sys2Proof/Machine/Access.lean ====
section
/-! DEFINITION. Agents that make accesses, translation, walks and page faults (21 R333–R340, 05 R89, R90). -/
namespace Sys2Proof.Machine

/-! ## Agents -/

/-- On whose behalf an agent translates. -/
structure AgentInfo where
  asid : BitVec 16
  priv : Priv
  core : CoreId := 0
  ctx : CtxId := 0
  /-- Its group, none for the hub's agents. -/
  grp : Option (BitVec 16)
  /-- Agent code of 21 Table 21-4. -/
  code : Nat
  pkg : BitVec 5 := 0
  w5 : Word := 0
  w6 : Word := 0
deriving DecidableEq, Repr

def Priv.ofCode (x : BitVec 2) : Priv := if x = 0 then .u else if x = 1 then .s else .m

def State.sg (s : State) (g : BitVec 8) : Sg := SMap.get {} s.sgs g.toNat
def State.setSg (s : State) (g : BitVec 8) (x : Sg) : State := { s with sgs := SMap.set {} s.sgs g.toNat x }
def State.task (s : State) (g : BitVec 8) (ticket : Word) : Option Task :=
  (s.sg g).tasks.find? fun t => t.ticket == ticket
def State.modTask (s : State) (g : BitVec 8) (ticket : Word) (f : Task → Task) : State :=
  s.setSg g { s.sg g with tasks := (s.sg g).tasks.map fun t => if t.ticket = ticket then f t else t }
def State.cmd (s : State) (c : CoreId) (q : Nat) : Option Cmd := (s.core c).cmds.find? fun k => k.seq == q
def State.modCmd (s : State) (c : CoreId) (q : Nat) (f : Cmd → Cmd) : State :=
  s.modCore c fun k => { k with cmds := k.cmds.map fun m => if m.seq = q then f m else m }
def State.home (s : State) (i : Nat) : Option HomeReq := s.homes.find? fun h => h.id == i
def State.modHome (s : State) (i : Nat) (f : HomeReq → HomeReq) : State :=
  { s with homes := s.homes.map fun h => if h.id = i then f h else h }
def State.job (s : State) (i : Nat) : Option Job := s.jobs.find? fun j => j.id == i
def State.modJob (s : State) (i : Nat) (f : Job → Job) : State :=
  { s with jobs := s.jobs.map fun j => if j.id = i then f j else j }
def State.clr (s : State) (c : CoreId) (id : Nat) : Option ClrRun := (s.core c).clrs.find? fun r => r.id == id
def State.modClr (s : State) (c : CoreId) (id : Nat) (f : ClrRun → ClrRun) : State :=
  s.modCore c fun k => { k with clrs := k.clrs.map fun r => if r.id = id then f r else r }
def State.op (s : State) (c : CoreId) (i : Nat) : Option Op := (s.core c).findOp i
def State.modOp (s : State) (c : CoreId) (i : Nat) (f : Op → Op) : State := s.modCore c fun k => k.modOp i f

def Op.acc? (o : Op) (i : Nat) : Option Access := o.accs[i]?
def Op.modAcc (o : Op) (i : Nat) (f : Access → Access) : Op := { o with accs := o.accs.modify i f }

/-- The access that an agent holds. -/
def State.acc (s : State) (who : Agent) : Option Access :=
  match who with
  | .lsu c o i => (s.op c o).bind fun p => p.acc? i
  | .park c x | .fetch c x | .disp c x => (s.ctx c x).acc
  | .copy c q => (s.cmd c q).bind fun m => m.acc
  | .task g t => (s.task g t).bind fun m => m.acc
  | .home i => (s.home i).map fun h => match h.run with | some r => r.acc | none => h.acc
  | .serv j => (s.job j).bind fun m => m.acc
  | .clr c i => (s.clr c i).map fun r => r.acc
  | .token .. => none
def State.modAcc (s : State) (who : Agent) (f : Access → Access) : State :=
  match who with
  | .lsu c o i => s.modOp c o fun p => p.modAcc i f
  | .park c x | .fetch c x | .disp c x => s.modCtx c x fun t => { t with acc := t.acc.map f }
  | .copy c q => s.modCmd c q fun m => { m with acc := m.acc.map f }
  | .task g t => s.modTask g t fun m => { m with acc := m.acc.map f }
  | .home i => s.modHome i fun h =>
    match h.run with
    | some r => { h with run := some { r with acc := f r.acc } }
    | none => { h with acc := f h.acc }
  | .serv j => s.modJob j fun m => { m with acc := m.acc.map f }
  | .clr c i => s.modClr c i fun r => { r with acc := f r.acc }
  | .token .. => s
/-- Give an agent an access, or take it away. -/
def State.setAcc (s : State) (who : Agent) (a : Option Access) : State :=
  match who with
  | .park c x | .fetch c x | .disp c x => s.modCtx c x fun t => { t with acc := a }
  | .copy c q => s.modCmd c q fun m => { m with acc := a }
  | .task g t => s.modTask g t fun m => { m with acc := a }
  | .serv j => s.modJob j fun m => { m with acc := a }
  | .lsu .. | .home _ | .clr .. | .token .. => s

/-- A run of clears by the agent that makes it: a thread's, or another package's in its request. -/
def State.runOf (s : State) (who : Agent) : Option ClrRun :=
  match who with
  | .clr c i => s.clr c i
  | .home i => (s.home i).bind HomeReq.run
  | _ => none
def State.modRun (s : State) (who : Agent) (f : ClrRun → ClrRun) : State :=
  match who with
  | .clr c i => s.modClr c i f
  | .home i => s.modHome i fun h => { h with run := h.run.map f }
  | _ => s

/-- The group of an engine of a supergroup (17 R276). -/
def engineGroup (sg : BitVec 8) (i : Nat) : BitVec 16 :=
  BitVec.ofNat 16 ((sg.toNat / 16 * 2 + i / 2 % 2) * 256 + sg.toNat % 16 * 2 + i % 2)
/-- A task in its engine translates through the second-level TLB of the engine's group (17 R289). -/
def Task.group (m : Task) (sg : BitVec 8) : BitVec 16 :=
  if m.st = .running ∨ m.st = .faulted then engineGroup sg m.engine else grp16 m.core

def State.agentInfo (s : State) (who : Agent) : AgentInfo :=
  match who with
  | .lsu c o _ =>
    match s.op c o with
    | some p => { asid := p.asid, priv := p.priv, core := c, ctx := p.ctx, grp := some (grp16 c), code := 0, pkg := s.pkgNum }
    | none => { asid := 0, priv := .u, core := c, grp := some (grp16 c), code := 0, pkg := s.pkgNum }
  | .clr c i =>
    match s.clr c i with
    | some r => { asid := r.asid, priv := r.priv, core := c, ctx := r.ctx, grp := some (grp16 c), code := 0, pkg := s.pkgNum }
    | none => { asid := 0, priv := .u, core := c, grp := some (grp16 c), code := 0, pkg := s.pkgNum }
  | .park c x => let t := s.ctx c x; { asid := t.asid, priv := t.priv, core := c, ctx := x, grp := some (grp16 c), code := 0, pkg := s.pkgNum }
  | .fetch c x => let t := s.ctx c x; { asid := t.asid, priv := t.priv, core := c, ctx := x, grp := some (grp16 c), code := 1, pkg := s.pkgNum }
  | .disp c x =>
    let t := s.ctx c x
    { asid := (t.filling.map fun f => f.1.asid).getD t.asid, core := c, ctx := x, grp := some (grp16 c), code := 5
      priv := match t.filling with
        | some (_, some _, _) => .m
        | _ => if x = 0 then .m else if (s.core c).marks.getLsbD x.toNat then .s else .u, pkg := s.pkgNum }
  | .copy c q =>
    match s.cmd c q with
    | some m => { asid := m.asid, priv := m.priv, core := c, ctx := m.ctx, grp := some (grp16 c), code := 2,
                  pkg := s.pkgNum, w5 := m.word0, w6 := BitVec.ofNat 64 m.off }
    | none => { asid := 0, priv := .u, core := c, grp := some (grp16 c), code := 2, pkg := s.pkgNum }
  | .task g t =>
    match s.task g t with
    | some m => { asid := m.asid, priv := m.priv, core := m.core, ctx := m.ctx, grp := some (m.group g), code := 3,
                  pkg := s.pkgNum, w5 := t, w6 := BitVec.ofNat 64 m.rows }
    | none => { asid := 0, priv := .u, grp := none, code := 3, pkg := s.pkgNum, w5 := t }
  | .home i =>
    match s.home i with
    | some h => { asid := h.req.asid, priv := Priv.ofCode h.req.priv, core := h.req.core, ctx := h.req.ctx, grp := none,
                  code := 4, pkg := h.req.id.extractLsb' 35 5, w5 := h.req.id.setWidth 64 }
    | none => { asid := 0, priv := .u, grp := none, code := 4 }
  | .serv j =>
    match s.job j with
    | some m => { asid := m.asid, priv := .u, grp := none, code := 6, pkg := s.pkgNum }
    | none => { asid := 0, priv := .u, grp := none, code := 6, pkg := s.pkgNum }
  | .token p _ _ => { asid := 0, priv := .u, grp := none, code := 4, pkg := p }

/-- The step that a parked context's access goes on with. -/
def State.parkEvent (s : State) (c : CoreId) (x : CtxId) : Event :=
  let t := s.ctx c x
  if t.st = .saving then .saveWrite c x
  else
    match t.park with
    | some (.suspend o) => .suspension c x o
    | some .yieldDrain => .suspension c x 0
    | some (.waitl ..) => .waitlWake c x t.tid
    | some (.evac ..) => .evacAcknowledged c
    | some (.lyr ..) => .graftTableAccessReturn c x
    | some (.bar k _) => .barrierResume t.launch t.gang k
    | _ => .waitlWake c x t.tid

/-- The step in which an agent that waited makes its access again. -/
def State.resumeEvent (s : State) (who : Agent) : Event :=
  match who with
  | .lsu c o i => .longLatencyComplete c o (.advance i)
  | .park c x => s.parkEvent c x
  | .fetch c x => .fetchBlockFill c x (((s.ctx c x).pc.toNat) / 32 * 32)
  | .disp c x => .resumeContinuation c x
  | .copy c _ => .copyBeat c
  | .task g t =>
    match s.task g t with
    | none => .taskPresenceCheck g t
    | some k =>
      match k.st with
      | .issued => .taskAccept g t
      | .running =>
        if k.writing then .taskDWrite g t else if (k.words.headD 0).setWidth 4 = 2#4 then .graftInvocation g t else .taskKstep g t
      | .ending => if k.fin = some 0 then .taskComplete g t else .taskEndError g t (k.fin.getD 0)
      | _ => .taskPresenceCheck g t
  | .home i =>
    match s.home i with
    | some h => match h.run with | some r => .clrAtHome (.home i) r.next | none => .remoteRequest h.req
    | none => .remoteRetry i
  | .serv j =>
    match (s.job j).map Job.kind with
    | some (.launch ..) | some (.status _) => .launchAccept j
    | some (.trig l) => .triggerWrite l
    | some (.compl l) => .completionWrite l
    | some (.apRead w o b t) => .apertureRead w o b t (some j)
    | some (.apWrite w o d) => .apertureWrite w o d (some j)
    | some (.fetch q) => .queueFetch q
    | none => .apertureFaultTimeout j
  | .clr c i => .clrAtHome (.clr c i) (((s.clr c i).map ClrRun.next).getD 0)
  | .token _ tok _ => .remoteTokenWake tok
def State.resumeAgent (s : State) (who : Agent) (d : Nat := 1) : State := s.after d (s.resumeEvent who)

/-! ## Page-table entries (21 Table 21-9, R337) -/

/-- Access kind of 21 Table 21-6. -/
def HomeOp.kind : HomeOp → Nat
  | .read | .peek | .locate | .ldq | .ldtry | .bwait => 0
  | .write .. | .clear _ => 1
  | .rmw .. => 2

def pteFrame (e0 : Word) : Nat := (e0.extractLsb' 12 40).toNat * 4096
def pteTier (e0 : Word) : Nat := (e0.extractLsb' 8 4).toNat
def pteSize (e0 : Word) : Nat := (e0.extractLsb' 4 4).toNat
def pteRes (e1 : Word) : Nat := (e1.extractLsb' 22 2).toNat

/-- The fault kind of a leaf for an access, none where it is permitted. -/
def leafFault (e1 : Word) (p : Priv) (kind : Nat) : Option Nat :=
  if pteRes e1 = 2 then some 4
  else if p = .u ∧ ¬e1.getLsbD 19 then some 3
  else if (kind = 1 ∨ kind = 2) ∧ ¬e1.getLsbD 20 then some 3
  else if kind = 3 ∧ ¬e1.getLsbD 21 then some 3
  else if (kind = 1 ∨ kind = 2) ∧ pteRes e1 = 1 then some 5
  else none

/-- A leaf breaks Table 21-9 or R89. -/
def leafBad (level : Nat) (e0 e1 : Word) : Bool :=
  decide (e0.extractLsb' 52 12 ≠ 0#12) || e0.getLsbD 2 || decide (9 < pteSize e0) || decide (pteSize e0 / 4 ≠ level) ||
    decide (12 < pteTier e0) || (e0.getLsbD 3 && decide (pteTier e0 ≠ 0)) ||
    decide (pteFrame e0 % 2 ^ (12 + 2 * pteSize e0) ≠ 0 ∧ pteRes e1 ≠ 2) || decide (pteRes e1 = 3) ||
    decide (e1.extractLsb' 0 19 ≠ 0#19) ||
    (if e0.getLsbD 3 then decide (e1.extractLsb' 40 3 = 7#3) else decide (e1.extractLsb' 40 4 ≠ 0#4))
/-- A pointer breaks it. -/
def pointerBad (level : Nat) (e0 e1 : Word) : Bool :=
  decide (level = 0) || decide (e0.extractLsb' 52 12 ≠ 0#12) || decide (e0.extractLsb' 2 6 ≠ 0#6) ||
    decide (12 < pteTier e0) || decide (pteRes e1 = 3) || decide (e1 &&& ~~~0xC00000#64 ≠ 0)

/-- The granule that a leaf maps an offset to. -/
def State.leafMap (s : State) (e : TlbEnt) (off : Nat) : Map :=
  let f := pteFrame e.e0 + off % 2 ^ e.bits
  let t := pteTier e.e0
  let surf := e.e1.extractLsb' 24 16
  let k := if t ≠ 0 ∧ s.compresses surf.toNat then codedKey e.bits surf.toNat t f else frameKey t f
  let n := (e.e1.extractLsb' 40 3).toNat
  if e.e0.getLsbD 3 then
    { key := k / 64 * 64, isBlock := true, n := n, blk := k / (64 * 2 ^ n) * (64 * 2 ^ n), tier := t,
      watch := if e.e1.getLsbD 43 then some (e.e1.extractLsb' 44 8) else none, pageBits := e.bits }
  else { key := k / 64 * 64, isBlock := false, tier := t, pageBits := e.bits }

/-! ## The walk -/

inductive WalkRes where
  /-- The line of a table entry, by key, has an open transaction. -/
  | busy (key : Nat)
  /-- The read of the entry at a key met bad check bits. -/
  | bad (key : Nat) (tier2 : Bool)
  /-- A leaf, and whether a table of a tier other than 0 was read. -/
  | leaf (e : TlbEnt) (tier2 : Bool)
  | fault (kind level : Nat) (e0 e1 : Word) (tier2 : Bool)
deriving DecidableEq, Repr

/-- Read a 16-byte entry. -/
def State.readPte (s : State) (k : Nat) : Option (Option (Word × Word)) :=
  match s.plainRead k with
  | .busy => none
  | .bad => some none
  | .ok g => some (some (g.extractLsb' (8 * (k % 64)) 64, g.extractLsb' (8 * (k % 64) + 64) 64))

/-- Levels `l` down to 0 from a table at key `tbl` (21 R337). -/
def State.walkFrom (s : State) (asid : BitVec 16) (off : Nat) (tbl : Nat) (t2 : Bool) : Nat → WalkRes
  | 0 => .fault 2 0 0 0 t2
  | l + 1 =>
    let idx := off / 2 ^ (12 + 8 * l) % 256
    let k := tbl + 16 * idx
    let t2 := t2 || decide (2 ^ 52 ≤ tbl)
    match s.readPte k with
    | none => .busy k
    | some none => .bad k t2
    | some (some (e0, e1)) =>
      if ¬e0.getLsbD 0 then .fault 1 l e0 e1 t2
      else if e0.getLsbD 1 then
        if leafBad l e0 e1 then .fault 2 l e0 e1 t2
        else
          let bits := 12 + 2 * pteSize e0
          let reps := 4 ^ (pteSize e0 - 4 * l)
          .leaf { asid := asid, base := off / 2 ^ bits * 2 ^ bits, bits := bits, e0 := e0, e1 := e1,
                  pte := tbl + 16 * (idx / reps * reps) } t2
      else if pointerBad l e0 e1 then .fault 2 l e0 e1 t2
      else if pteRes e1 = 2 then .fault 6 l e0 e1 t2
      else if pteRes e1 = 1 then .fault 7 l e0 e1 t2
      else s.walkFrom asid off (frameKey (pteTier e0) (pteFrame e0)) t2 l
/-- From the ASID table. -/
def State.walkAll (s : State) (asid : BitVec 16) (off : Nat) : WalkRes :=
  match s.readPte ((s.bar 0x3010).toNat + 16 * asid.toNat) with
  | none => .busy ((s.bar 0x3010).toNat + 16 * asid.toNat)
  | some none => .bad ((s.bar 0x3010).toNat + 16 * asid.toNat) false
  | some (some (e0, e1)) =>
    if ¬e0.getLsbD 0 then .fault 9 5 e0 e1 false
    else if e0.extractLsb' 1 11 ≠ 0#11 ∨ e0.extractLsb' 52 12 ≠ 0#12 ∨ e1 ≠ 0 then .fault 2 5 e0 e1 false
    else s.walkFrom asid off (pteFrame e0) false 5

/-! ## Where an access lies -/

/-- The place of an address for a core's thread as the tables stand, none where it names none. A line of another package is
named by its alias. -/
def State.placeOf (s : State) (c : CoreId) (asid : BitVec 16) (va : Word) : Option Map :=
  match s.checkAddr c va with
  | .error _ => none
  | .ok (.store l t off) =>
    some (if l = 0 then { key := localKey t + off / 64 * 64, isBlock := false } else s.storeMap l t off)
  | .ok (.global pkg off) =>
    if pkg = s.pkgNum then
      match s.walkAll asid off with
      | .leaf e _ => some (s.leafMap e off)
      | _ => none
    else some { key := aliasLine pkg asid off * 64, isBlock := false }
def State.mapNow (s : State) (c : CoreId) (asid : BitVec 16) (a : Access) : Option Map := a.map.or (s.placeOf c asid a.va)
/-- Two accesses of a thread lie, or may lie, in one granule, by whatever addresses they name it (19 R315): two addresses
whose places are known share a key; two of one other package whose frame lines the die does not know yet, or one whose walk
does not answer now, may name one granule where their offsets in a page agree. -/
def State.sameLine (s : State) (c : CoreId) (asid : BitVec 16) (a b : Access) : Bool :=
  let near := a.va.toNat / 64 % 64 == b.va.toNat / 64 % 64
  a.va.toNat / 64 == b.va.toNat / 64 ||
    isCoord a.va == isCoord b.va && (match s.mapNow c asid a, s.mapNow c asid b with
     | some x, some y =>
       let l := x.key / 64
       let k := y.key / 64
       if isAlias l ∧ isAlias k then
         s.homePkg l == s.homePkg k &&
           (if s.frameOf (dieOf c) l = l ∨ s.frameOf (dieOf c) k = k then near
            else s.frameOf (dieOf c) l == s.frameOf (dieOf c) k)
       else x.key == y.key
     | _, _ => near)
/-- A run of clears may still clear the block of an access (05 R75). -/
def State.clrCovers (s : State) (c : CoreId) (r : ClrRun) (a : Access) : Bool :=
  let near := decide (r.va.toNat / 4096 * 4096 ≤ a.va.toNat ∧ a.va.toNat < r.va.toNat + r.count * 4096)
  match r.first.or (s.placeOf c r.asid r.va), s.mapNow c r.asid a with
  | some m, some x =>
    if m.isBlock then
      x.isBlock && decide (m.blk + r.next * (64 * 2 ^ m.n) ≤ x.key ∧ x.key < m.blk + r.count * (64 * 2 ^ m.n))
    else near
  | _, _ => near

/-- Walk-cache key of the level-0 table of an offset, and that table where the group's cache holds it. -/
def walkKey (asid : BitVec 16) (off : Nat) : Nat := asid.toNat * 2 ^ 40 + off / 2 ^ 20
def State.cachedTable (s : State) (g : Nat) (asid : BitVec 16) (off : Nat) : Option Nat :=
  ((SMap.get [] s.walkCache g).find? fun e => e.1 == walkKey asid off).map fun e => e.2.toNat
/-- A walk, through the walk cache where it leads to a leaf (21 Table 21-10, R340). -/
def State.walkVia (s : State) (g : Nat) (asid : BitVec 16) (off : Nat) : WalkRes :=
  match s.cachedTable g asid off with
  | none => s.walkAll asid off
  | some t =>
    match s.walkFrom asid off t false 1 with
    | .leaf e b => .leaf e b
    | _ => s.walkAll asid off
/-- Remember the level-0 table that a successful walk passed through, at most 64 pointers a group. -/
def State.rememberTable (s : State) (g : Nat) (e : TlbEnt) (off : Nat) : State :=
  if 20 ≤ e.bits then s
  else
    let l := (SMap.get [] s.walkCache g).filter fun p => p.1 != walkKey e.asid off
    let l := if l.length < 64 then l else l.tail
    { s with walkCache := SMap.set [] s.walkCache g (l ++ [(walkKey e.asid off, BitVec.ofNat 64 (e.pte / 4096 * 4096))]) }

/-! ## Translation caches (21 R339) -/

def TlbEnt.hits (e : TlbEnt) (asid : BitVec 16) (off : Nat) : Bool :=
  e.asid == asid && off / 2 ^ e.bits * 2 ^ e.bits == e.base
def findTlb (l : List TlbEnt) (asid : BitVec 16) (off : Nat) (p : Priv) (kind : Nat) : Option TlbEnt :=
  l.find? fun e => e.hits asid off && (leafFault e.e1 p kind).isNone
/-- Install an entry; where the cache is full, a victim of the device's choice goes (21 Table 21-10 gives no policy). -/
def putTlb (l : List TlbEnt) (cap victim : Nat) (e : TlbEnt) : List TlbEnt :=
  let l := l.filter fun x => !(x.asid == e.asid && x.base == e.base && x.bits == e.bits)
  if l.length < cap then l ++ [e] else (l.eraseIdx (victim % l.length)) ++ [e]
/-- Install in a set of 8 ways; sets are chosen by the page's number. -/
def putTlbSet (l : List TlbEnt) (sets victim : Nat) (e : TlbEnt) : List TlbEnt :=
  let same := fun x : TlbEnt => x.base / 4096 % sets == e.base / 4096 % sets
  let l := l.filter fun x => !(x.asid == e.asid && x.base == e.base && x.bits == e.bits)
  if (l.filter same).length < 8 then l ++ [e]
  else
    match (l.filter same)[victim % 8]? with
    | some v => l.erase v ++ [e]
    | none => l ++ [e]

def State.l2 (s : State) (g : Option (BitVec 16)) : List TlbEnt :=
  match g with
  | some g => SMap.get [] s.tlb2 g.toNat
  | none => s.hubTlb
def State.putL2 (s : State) (g : Option (BitVec 16)) (e : TlbEnt) : State :=
  let (v, s) := s.choose 4096
  match g with
  | some g => { s with tlb2 := SMap.set [] s.tlb2 g.toNat (putTlbSet (SMap.get [] s.tlb2 g.toNat) 256 v e) }
  | none => { s with hubTlb := putTlb s.hubTlb 4096 v e }
/-- Install in the core's I-TLB or D-TLB where the agent has one. -/
def State.putL1 (s : State) (who : Agent) (e : TlbEnt) : State :=
  let (v, s) := s.choose 32
  match who with
  | .lsu c .. | .park c _ | .clr c _ => s.modCore c fun k => { k with dtlb := putTlb k.dtlb 32 v e }
  | .fetch c _ => s.modCore c fun k => { k with itlb := putTlb k.itlb 16 v e }
  | _ => s
def State.l1 (s : State) (who : Agent) : List TlbEnt :=
  match who with
  | .lsu c .. | .park c _ | .clr c _ => (s.core c).dtlb
  | .fetch c _ => (s.core c).itlb
  | _ => []

/-- Update Heat and Stamp of a leaf's first replica (05 R90); the update is an atomic on the entry as it stands. -/
def State.heat (s : State) (pte : Nat) : State :=
  if (s.ownRead (pte + 8)).isNone then s
  else
    let w := s.ownWord (pte + 8)
    let d := max (s.heatd.toNat % 64) 10
    let now : BitVec 4 := BitVec.ofNat 4 (s.cyc / 2 ^ d)
    let age := (now - w.extractLsb' 52 4).toNat
    let h := min ((w.extractLsb' 56 8).toNat / 2 ^ age + 1) 255
    let w' := (w &&& 0x000FFFFFFFFFFFFF) ||| (now.setWidth 64 <<< 52) ||| (BitVec.ofNat 64 h <<< 56)
    s.setOwnWord (pte + 8) w'
/-- The sampler counts every second-level lookup of a group (05 R90). It starts at the reload value of %heatk's reset value,
which the manual does not say (log entry 1). -/
def State.sample (s : State) (g : Option (BitVec 16)) (pte : Option Nat) : State :=
  match g with
  | none => s
  | some g =>
    let reload := 2 ^ (s.heatk.toNat % 16)
    let c := SMap.get 256 s.samplers g.toNat
    let c1 := if c = 0 then 65535 else c - 1
    if c1 = 0 then
      let s := { s with samplers := SMap.set 256 s.samplers g.toNat reload }
      match pte with
      | some p => s.heat p
      | none => s
    else { s with samplers := SMap.set 256 s.samplers g.toNat c1 }

/-! ## Faults (21 R333, R334) -/

def State.faultInfo (s : State) (who : Agent) (kind level : Nat) (e0 e1 : Word) (va : Word) (access : Nat) : FaultInfo :=
  let i := s.agentInfo who
  { table := if i.code = 4 ∨ i.code = 6 then 8 else (dieOf i.core).toNat, level := level, access := access,
    agent := i.code, kind := kind, addr := va, core := i.core, ctx := i.ctx, priv := i.priv.code, pkg := i.pkg,
    asid := i.asid, e0 := e0, e1 := e1, w5 := i.w5, w6 := i.w6 }
/-- Kind of access an agent makes, for a fault record. -/
def State.accKind (s : State) (who : Agent) : Nat :=
  match who with
  | .fetch .. => 3
  | .home i =>
    match s.home i with
    | some h => if h.req.posted then 2 else HomeOp.kind h.acc.op
    | none => 0
  | _ => ((s.acc who).map fun a => HomeOp.kind a.op).getD 0
/-- The agent's translation fails: it posts a fault and waits at its replay point. A queue's fetch posts none and fails at
once (25 R371); an aperture access waits 2^20 cycles at most (25 R368). -/
def State.fail (s : State) (who : Agent) (kind level : Nat) (e0 e1 : Word) (va : Word) : State :=
  let t := (s.modAcc who fun a => { a with st := .faulted, map := none }).after 1
    (.faultPost who (s.faultInfo who kind level e0 e1 va (s.accKind who)))
  match who with
  | .fetch c x => t.modCtx c x fun m => { m with st := .parked }
  | .task g k => if (s.task g k).any fun q => q.st == .running then t.after 0 (.taskFault g k false) else t
  | .home i =>
    if (s.home i).any fun h => h.req.faultless then
      (s.modAcc who fun a => { a with st := .failed, map := none, cause := 512 + kind }).resumeAgent who 1
    else t
  | .serv j =>
    match (s.job j).map Job.kind with
    | some (.fetch _) =>
      (s.modAcc who fun a => { a with st := .failed, map := none, cause := 512 + kind }).resumeAgent who 1
    | some (.apRead ..) | some (.apWrite ..) =>
      (t.modJob j fun k => { k with phase := s.cyc + 1 }).after (1 + 2 ^ 20) (.apertureFaultTimeout j)
    | _ => t
  | _ => t

/-- The granule that a command writes lies in a whole 4 KiB span of its destination (05 R93). -/
def Cmd.wholeSpan (m : Cmd) : Bool :=
  let d := 64 * (m.word0.extractLsb' 0 51).toNat + m.off
  !m.word0.getLsbD 51 && decide (d % 4096 ≤ m.off) &&
    decide (m.off - d % 4096 + 4096 ≤ 64 * ((m.word1.extractLsb' 52 12).toNat + 1))
def State.spanCopy (s : State) (who : Agent) : Bool :=
  match who with
  | .copy c q => (s.cmd c q).any fun m => m.writing && m.wholeSpan
  | _ => false

/-- A translation is found: the access has its place, or faults on a write to a compressed span (05 R94). -/
def State.translated (s : State) (who : Agent) (e : TlbEnt) (va : Word) : State :=
  let m := s.leafMap e (va.toNat % 2 ^ 52)
  if s.accKind who ≠ 0 ∧ s.accKind who ≠ 3 ∧ ¬m.isBlock ∧ s.codedSmall m.key ∧ s.spanCopy who = false then s.fail who 8 7 0 0 va
  else s.modAcc who fun a => { a with map := some m, st := .fresh }

/-- Translate the access that an agent holds, of this package's window. Afterwards the access has its `map`, or it waits
for a walk or a fault, after which the agent's step comes again (21 R339). -/
def State.translate (s : State) (who : Agent) : State :=
  match s.acc who with
  | none => s
  | some a =>
    let i := s.agentInfo who
    let off := a.va.toNat % 2 ^ 52
    let kind := s.accKind who
    match findTlb (s.l1 who) i.asid off i.priv kind with
    | some e => s.translated who e a.va
    | none =>
      match findTlb (s.l2 i.grp) i.asid off i.priv kind with
      | some e => ((s.sample i.grp (some e.pte)).putL1 who e).translated who e a.va
      | none =>
        let s := s.modAcc who fun a => { a with st := .walking }
        let g := (i.grp.getD 0xFFFF)
        match s.walks.find? fun w =>
            w.grp == g && w.asid == i.asid && w.va.toNat / 4096 == a.va.toNat / 4096 && (w.root || !a.root) with
        | some w =>
          { s with walks := s.walks.map fun v => if v.id = w.id then { v with waiters := v.waiters ++ [who] } else v }
        | none =>
          let free := (s.walks.filter fun w => w.grp == g && w.started).length < 4
          let id := s.fresh
          let s : State := { s with
            fresh := s.fresh + 1
            walks := s.walks ++ [{ id := id, grp := g, asid := i.asid, va := a.va, waiters := [who], started := free,
                                     root := a.root }] }
          if free then s.afterFree (.walk g id) else s

/-- Give up every wait of the caches for an address space or page: entries dropped (15 R267). -/
def State.dropTlb (s : State) (keep : TlbEnt → Bool) : State :=
  { s with
    cores := s.cores.filterMap fun e =>
      let k := { e.2 with itlb := e.2.itlb.filter keep, dtlb := e.2.dtlb.filter keep }
      if k = Core.reset then none else some (e.1, k)
    tlb2 := s.tlb2.filterMap fun e => let l := e.2.filter keep; if l.isEmpty then none else some (e.1, l)
    hubTlb := s.hubTlb.filter keep
    walkCache := [] }

end Sys2Proof.Machine
end

