-- ==== Sys2Proof/Machine/Lsu.lean ====
section
/-! DEFINITION. Performing accesses: order among a thread's accesses, block homes, banks, plain lines, the local store and
the answers (19, 05 R72–R79, 01 R12, 11 R185). -/
namespace Sys2Proof

/-- Which access of its operation an agent names. -/
def Agent.idx : Agent → Nat
  | .lsu _ _ i => i
  | _ => 0

/-- The step in which a reply reaches its agent. -/
def Agent.replyEvent (who : Agent) (r : Reply) : Event :=
  match who with
  | .lsu c o _ => .longLatencyComplete c o r
  | _ => .agentReply who r
def Agent.isLsu : Agent → Bool
  | .lsu .. => true
  | _ => false
/-- An agent whose accesses must be PLAIN (03 R36, R38; 15 R247). -/
def Agent.plainOnly : Agent → Bool
  | .park .. | .disp .. | .fetch .. => true
  | _ => false

def Ty.bytes (t : Ty) : Nat := t.width / 8
def HomeOp.reads : HomeOp → Bool
  | .write .. | .clear _ | .rmw .. => false
  | _ => true
/-- The read asks about a block: it is a class violation elsewhere. -/
def HomeOp.presence : HomeOp → Bool
  | .ldq | .ldtry | .bwait | .locate => true
  | _ => false

end Sys2Proof
namespace Sys2Proof.Machine

/-- The write of BAR.comb's sums, which must go to a block (15 R245). -/
def State.combAgent (s : State) (who : Agent) : Bool :=
  match who with
  | .park c x => match (s.ctx c x).park with | some (.bar ..) => true | _ => false
  | .home i => (s.home i).any fun h => h.req.block
  | _ => false
/-- An agent whose accesses to a block are class violations. -/
def State.plainOnly (s : State) (who : Agent) : Bool :=
  (who.plainOnly && !s.combAgent who) ||
    (match who with
     | .serv j => (s.job j).any fun k => match k.kind with | .fetch _ => true | _ => false
     | .home i => (s.home i).any fun h => h.req.plain
     | _ => false)
/-- An agent whose fault is answered at once: a queue's fetch (25 R371). -/
def State.faultless (s : State) (who : Agent) : Bool :=
  match who with
  | .serv j => (s.job j).any fun k => match k.kind with | .fetch _ => true | _ => false
  | .home i => (s.home i).any fun h => h.req.faultless
  | _ => false
/-- WAITL's read, which watches the line in the supergroup's cache (15 R247). -/
def State.watchAgent (s : State) (who : Agent) : Option CoreId :=
  match who with
  | .park c x => match (s.ctx c x).park with | some (.waitl ..) => some c | _ => none
  | _ => none
/-! ## Answers -/

/-- What a reply leaves in an access. -/
def Reply.apply (r : Reply) (a : Access) : Access :=
  match r with
  | .advance _ => { a with st := .fresh }
  | .data _ g => { a with st := .done, rdata := g }
  | .ack _ => { a with st := .done }
  | .notFull _ => { a with st := .notFull }
  | .placed _ => { a with st := .placed }
  | .refused _ => { a with st := .relist }
  | .tag _ t w g => { a with st := .done, tag := t, written := w, rdata := g }
  | .block _ b n => { a with st := .done, map := some { key := b, isBlock := true, n := n, blk := b } }
  | .old _ x => { a with st := .done, rdata := x.setWidth 512 }
  | .trap _ c => { a with st := .failed, cause := c }
  | .bad _ => { a with st := .failed, cause := 12 }
  | .abandoned .. => { a with st := .failed, cause := 256 }
  | .cleared .. => { a with st := .done }
  | .retry _ => { a with st := .sent }
  | .refusal _ c => { a with st := .failed, cause := 512 + c }
  | .line .. => { a with st := .sent }

/-- An access's outcome goes back to its agent after `d` cycles; a request at the home hub, which is there, has it at once. -/
def State.answer (s : State) (who : Agent) (d : Nat) (r : Reply) : State :=
  match who with
  | .home _ => (s.modAcc who (Reply.apply r)).resumeAgent who d
  | _ => (s.modAcc who fun a => { a with st := .performed }).after d (who.replyEvent r)
/-- After a latency that the manual does not give. -/
def State.answerFree (s : State) (who : Agent) (r : Reply) : State :=
  ({ s with fresh := s.fresh + 1 } : State).answer who (1 + Config.freeDelay s.fresh) r
/-- The router of an agent: its supergroup's. The requests at the hub and the service cores have none. -/
def State.agentRouter (s : State) (who : Agent) : Option (BitVec 8) :=
  match who with
  | .task g _ => some g
  | .home _ | .serv _ | .token .. => none
  | _ => some (sgIdx (s.agentInfo who).core)
/-- An access's outcome goes back to its agent from a router, in the response class (01 R16–R18). -/
def State.answerFrom (s : State) (src : BitVec 8) (who : Agent) (r : Reply) : State :=
  match s.agentRouter who with
  | some b => (s.modAcc who fun a => { a with st := .performed }).meshAfter src b .response (who.replyEvent r)
  | none => s.answerFree who r
/-- It goes back from the hub, through the port that serves the agent's row (01 R17). -/
def State.answerHub (s : State) (who : Agent) (r : Reply) : State :=
  match s.agentRouter who with
  | some b => s.answerFrom (s.hubRouter b) who r
  | none => s.answerFree who r
/-- Level of a store's key. -/
def levelOfKey (k : Nat) : Nat :=
  if k < 2 ^ 61 then 0 else if k < 2 ^ 62 then 1 else if k < 2 ^ 63 then 2 else 3
/-- The lowest core of the unit whose store a key lies in. -/
def keyCore (k : Nat) : CoreId :=
  if k < 2 ^ 61 then BitVec.ofNat 16 ((k - 2 ^ 60) / 2 ^ 22)
  else if k < 2 ^ 62 then let i := (k - 2 ^ 61) / 2 ^ 22; mkCore (i % 64 * 4) (i / 64 * 4)
  else if k < 2 ^ 63 then let i := (k - 2 ^ 62) / 2 ^ 22; mkCore (i % 32 * 8) (i / 32 * 8)
  else let i := (k - 2 ^ 63) / 2 ^ 22; mkCore (i % 16 * 16) (i / 16 * 16)
/-- A key names a store of this package. -/
def isStoreKey (k : Nat) : Bool := decide (2 ^ 60 ≤ k) && decide (k < 2 ^ 64)
/-- A core's position among the requesters of its own unit's store; none outside the unit. -/
def ownPos (level : Nat) (c t : CoreId) : Option Nat :=
  match level with
  | 1 => if tileOf c = tileOf t then some (idxTile c) else none
  | 2 => if groupOf c = groupOf t then some (idxGroup c) else none
  | _ => if sgrpOf c = sgrpOf t then some (idxSgrp c) else none
/-- An agent's position among the requesters of a store: its core's, or the shared input of a supergroup store for a copy
engine or a load pipe of the supergroup; none where it comes through the remote input (01 R12). -/
def State.inputOf (s : State) (who : Agent) (level : Nat) (t : CoreId) : Option Nat :=
  match who with
  | .copy .. | .task .. => if level = 3 ∧ s.agentRouter who = some (sgIdx t) then some 256 else none
  | .home _ | .serv _ | .token .. => none
  | _ => ownPos level (s.agentInfo who).core t
/-- An access is performed at the home of its place and its outcome goes back: within the unit of a store after the bank's
`d` cycles, from another unit's store by the mesh after them, from HBM or CXL memory through the hub port (01 R12, R16, R17). -/
def State.answerAt (s : State) (who : Agent) (m : Map) (d : Nat) (r : Reply) : State :=
  if isStoreKey m.key = false then s.answerHub who r
  else if levelOfKey m.key = 0 ∨ (s.inputOf who (levelOfKey m.key) (keyCore m.key)).isSome ∨ s.agentRouter who = none then
    s.answer who d r
  else (s.modAcc who fun a => { a with st := .performed }).after d (.replySend who (sgIdx (keyCore m.key)) r)
/-- A bank's answer enters the mesh. -/
def State.replySend (s : State) (who : Agent) (src : BitVec 8) (r : Reply) : State :=
  match s.agentRouter who with
  | some b => s.meshAfter src b .response (who.replyEvent r)
  | none => s

/-! ## Order among a thread's accesses (19 R313, R315, R316; 05 R75) -/

/-- An access that is not yet performed. -/
def AccSt.open : AccSt → Bool
  | .performed | .done | .failed => false
  | _ => true
/-- The kind reads a block where its target is one. -/
def OpKind.blockRead : OpKind → Bool
  | .load .. | .loadM .. | .ldtry .. | .bwait .. | .vload .. => true
  | _ => false
def OpKind.isRmw : OpKind → Bool
  | .atomic .. => true
  | _ => false
/-- An access to block memory whose reader lies in its scope, or whose class is not known yet: that of another package's line
only its home knows (19 R311, 05 R66). -/
def Access.inScope (a : Access) (c : CoreId) : Bool :=
  if isCoord a.va then
    match coordTarget c a.va with
    | none => false
    | some t =>
      match coordLevel a.va with
      | 0 => false
      | 1 => tileOf t == tileOf c
      | 2 => groupOf t == groupOf c
      | _ => sgrpOf t == sgrpOf c
  else match a.map with
    | none => true
    | some m => m.isBlock || isAlias (m.key / 64)
/-- The operation acquires (19 Table 19-2). -/
def Op.acquires (o : Op) (c : CoreId) : Bool :=
  if o.kind.isRmw then o.order == 1 || o.order == 3
  else o.kind.blockRead && o.accs.any fun a => a.inScope c
/-- An AOP, ACAS, RED or POST with the release part. -/
def Op.releases (o : Op) : Bool :=
  match o.kind with
  | .atomic .. | .post => o.order == 2 || o.order == 3
  | _ => false
/-- Writes to second-tier memory that a device has not acknowledged: their lines are still owned by a cache or on their way; of
a line of another package this one knows its own dirty copies and writebacks (19 R326; log entry 92). -/
def State.devOpen (s : State) (line : Nat) : Bool :=
  if isAlias line then
    s.coh.wbs.any (fun w => w.2.1 == line) ||
      s.coh.lines.any fun e => e.1 % 2 ^ 128 == line && (e.2.st == .m || e.2.st == .o)
  else
  s.coh.dir.any (fun e => e.2.line == line && (e.2.st == .ho || e.2.st == .hx)) || s.coh.txns.any (fun t => t.line == line) ||
    s.coh.wbs.any (fun w => w.2.1 == line) || (s.coh.queue ++ s.coh.net ++ s.coh.fenced).any (fun q => q.line == line)
/-- The lines that a thread may have written there: those of its context, and those of the threads that have left one, of which
it may be a part (log entry 92). -/
def State.devLinesOf (s : State) (c : CoreId) (x : CtxId) : List Nat := (s.ctx c x).devLines ++ s.sys.devLeft
def State.devClean (s : State) (c : CoreId) (x : CtxId) : Bool := (s.devLinesOf c x).all fun l => !s.devOpen l
/-- Have a line written back: the hub recalls it, and each die of this package gives up a line of another (19 R326). -/
def State.pushLine (s : State) (l : Nat) : State :=
  if s.devOpen l = false then s
  else if isAlias l then
    ((s.coh.lines.filter fun e => e.1 % 2 ^ 128 == l).map fun e => dieOfSg (BitVec.ofNat 8 (e.1 / 2 ^ 128))).eraseDups.foldl
      (fun s d => if s.agenda.any (fun e => e.2 == .snoopFilterEvict d l) then s else s.after 0 (.snoopFilterEvict d l)) s
  else if (s.coh.txns.all fun t => t.line != l) ∧ (s.agenda.all fun e => e.2 != .directoryRecall l) then
    s.after 0 (.directoryRecall l)
  else s
def State.pushDev (s : State) (c : CoreId) (x : CtxId) : State := (s.devLinesOf c x).foldl State.pushLine s

/-- Writes of siblings that a context has read from the store buffer are still to be performed on a line (19 R313, R319). -/
def State.seenOpen (s : State) (c : CoreId) (x : CtxId) (key : Nat) : Bool :=
  (s.core c).ops.any fun p => p.accs.any fun b =>
    b.seen.contains x && b.st.open && b.map.any fun m => m.key == key
/-- Operations of the thread before number `n`. -/
def Core.opsBefore (k : Core) (x : CtxId) (tid n : Nat) : List Op :=
  k.ops.filter fun p => p.ctx == x && p.tid == tid && decide (p.id < n)
/-- What a thread's access, copy or clear with number `n` waits for: earlier operations that acquire, earlier accesses to the
same granule that are not performed, earlier clears of its block, and earlier posted operations to its line that are not
acknowledged (19 R315, R316; 11 R187; 05 R75): a posted operation itself only for those to another package, whose home may
have turned one away. -/
def State.inOrder (s : State) (c : CoreId) (x : CtxId) (tid n : Nat) (asid : BitVec 16) (a : Access) (post : Bool) : Bool :=
  let k := s.core c
  (k.opsBefore x tid n).all (fun p => !p.acquires c && p.accs.all fun b => !(b.st.open && s.sameLine c asid b a)) &&
    (k.clrs.all fun r => !(r.ctx == x && r.tid == tid && decide (r.id < n) && s.clrCovers c r a)) &&
    (s.homes.all fun h => (post && h.req.addr.extractLsb' 52 5 == s.pkgNum) || !(h.req.core == c && h.req.ctx == x && h.tid == tid && h.req.who.isNone &&
      decide (h.op < n) && s.sameLine c asid { h.acc with va := h.req.addr } a))
/-- A store that may fill a block of another package releases: it leaves once the thread's earlier writes, and those of the
instruction at lower addresses, are acknowledged (05 R73, 13 R207, 19 R311). One whose line the cache holds is PLAIN. -/
def State.fillsAbroad (s : State) (c : CoreId) (o : Op) (a : Access) : Bool :=
  match a.op with
  | .write .. =>
    !isCoord a.va && a.va.extractLsb' 52 5 != s.pkgNum && (match o.kind with | .store => true | _ => false) &&
      (s.lineAt (sgIdx c) (aliasLine (a.va.extractLsb' 52 5) o.asid (a.va.toNat % 2 ^ 52))).st == .i
  | _ => false
def State.releaseReady (s : State) (c : CoreId) (o : Op) (a : Access) : Bool :=
  ((s.core c).opsBefore o.ctx o.tid o.id).all (fun p => !p.isWrite) &&
    (o.accs.all fun b => decide (a.va.toNat ≤ b.va.toNat) || b.st == .done || b.st == .failed) &&
    s.homes.all fun h => !(h.req.core == c && h.req.ctx == o.ctx && h.tid == o.tid && h.req.posted && decide (h.op < o.id))
/-- An access of a thread may be performed now. A posted operation does not wait for an earlier one of this package: their home
keeps them in order (11 R187). -/
def State.mayPerform (s : State) (c : CoreId) (o : Op) (a : Access) : Bool :=
  let k := s.core c
  s.inOrder c o.ctx o.tid o.id o.asid a (match o.kind with | .post => true | _ => false) &&
    (a.op.reads || !(a.map.any fun m => s.seenOpen c o.ctx m.key)) &&
    (!s.fillsAbroad c o a || s.releaseReady c o a) &&
    (!o.releases || ((k.opsBefore o.ctx o.tid o.id).isEmpty && (k.ctx o.ctx).posted == 0 &&
      (k.clrs.all fun r => !(r.ctx == o.ctx && r.tid == o.tid && decide (r.id < o.id))) &&
      (o.scope != 7 || s.devClean c o.ctx)))

/-! ## Waiting on a block (03 Table 3-3) -/

/-- The thread has an outstanding copy or an armed byte-count barrier. -/
def Core.copying (k : Core) (x : CtxId) : Bool :=
  k.cmds.any (fun m => m.ctx == x && m.tid == (k.ctx x).tid) || (k.ctx x).bars.any fun b => b.armed
/-- An access that finds its block not full parks; otherwise it suspends. -/
def Core.parks (k : Core) (o : Op) : Bool :=
  let t := k.ctx o.ctx
  o.ctx == 0 || t.lvl != 0 || t.pinned || decide (0 < o.n) || k.copying o.ctx
/-- The descriptor of a parked access: destination and bytes (05 Table 5-7). -/
def Op.parkedDesc (o : Op) (c : CoreId) (i : Nat) (a : Access) : Desc :=
  let off := match a.map with | some m => a.va.toNat % (64 * 2 ^ m.n) | none => 0
  match o.kind with
  | .load sz d => .parked (.lsu c o.id i) d false false off (sz.bytes - 1)
  | .loadM n d => .parked (.lsu c o.id i) d false false off (8 * (n.toNat + 1) - 1)
  | .bwait d => .parked (.lsu c o.id i) d false false off 0
  | .vload d .. => .parked (.lsu c o.id i) (d.setWidth 5) true false off 0xFF
  | _ => .parked (.lsu c o.id i) 0 false false off 0
/-- The core on whose behalf an agent waits. -/
def State.agentCore (s : State) (who : Agent) : CoreId := (s.agentInfo who).core
/-- The 16 bytes of a waiter descriptor (05 Table 5-7). -/
def State.descWords (s : State) (d : Desc) : Word × Word :=
  match d with
  | .cont a c asid .. => (a.setWidth 64, (asid.setWidth 64 <<< 16) ||| c.setWidth 64)
  | .parked who dst isV isP off len =>
    let i := s.agentInfo who
    (((1 : Word) <<< 61) ||| (i.ctx.setWidth 64 <<< 16) ||| i.core.setWidth 64,
     BitVec.ofNat 64 (dst.toNat + (if isV then 64 else 0) + (if isP then 128 else 0) + off % 4096 * 256 + len % 256 * 2 ^ 20))
  | .task g t => (((2 : Word) <<< 61) ||| BitVec.ofNat 64 (g.toNat / 16 * 256 + g.toNat % 16), t)
  | .copy c x q n =>
    (((3 : Word) <<< 61) ||| (q.setWidth 64 <<< 20) ||| (x.setWidth 64 <<< 16) ||| c.setWidth 64, BitVec.ofNat 64 n)
  | .token p t r => (((4 : Word) <<< 61) ||| (p.setWidth 64 <<< 48) ||| t.setWidth 64, r.setWidth 64)
/-- The place of a new waiter: the home's table, or where an HBM controller's is full the lowest free place of its spill
region (05 R77). -/
def State.waiterSlot (s : State) (blk : Nat) : Option Nat :=
  if blk < 2 ^ 52 then
    let l := s.waiters.filter fun w => decide (w.blk < 2 ^ 52) && s.controller w.blk == s.controller blk
    if (l.filter fun w => w.slot.isNone).length < 65536 then none
    else some (((List.range (l.length + 1)).find? fun i => l.all fun w => w.slot != some i).getD 0)
  else none
/-- Record a descriptor, a spilled one in the controller's region too: the first one makes the block deferred (05 R76, R77). -/
def State.placeWaiter (s : State) (blk n : Nat) (d : Desc) : State :=
  let slot := s.waiterSlot blk
  let s := match slot with
    | none => s
    | some i =>
      let k := (s.bar (0x7000 + 16 * s.controller blk)).toNat + 16 * i
      (s.setOwnWord k (s.descWords d).1).setOwnWord (k + 8) (s.descWords d).2
  let s : State := { s with waiters := s.waiters ++ [{ blk := blk, n := n, desc := d, slot := slot }] }
  match s.tagOf blk n with
  | some t => if t.st = 0 then s.setMeta blk (TagV.pack { t with st := 1 }) else s
  | none => s
/-- The next waiter of a block: the hardware table first, then the spill region, oldest first (05 R77). -/
def State.nextWaiter (s : State) (blk : Nat) : Option Waiter :=
  (s.waiters.find? fun w => w.blk == blk && w.slot.isNone).or (s.waiters.find? fun w => w.blk == blk)
/-- A refusal is counted at the core that made the access (05 R77, 25 R382); another package counts its own. -/
def State.countRefusal (s : State) (who : Agent) : State :=
  if (s.agentInfo who).pkg = s.pkgNum then s.count (s.agentCore who) 3 else s
/-- Record a waiter, or refuse it: the event "wait list full" is counted (05 R77). A recorded one can be drained from now on. -/
def State.tryPlace (s : State) (who : Agent) (m : Map) (d : Desc) (delay : Nat) : State :=
  if s.listRoom m.blk then
    let s := (s.placeWaiter m.blk m.n d).modAcc who fun a => { a with st := .placed }
    match who with
    | .lsu .. | .copy .. => s
    | _ => s.resumeAgent who delay
  else (s.countRefusal who).answerAt who m delay (.refused who.idx)

/-! ## Block homes -/

/-- A reader of a block that is not full waits as its kind does (05 R76, 03 Table 3-3). -/
def State.awaitBlock (s : State) (who : Agent) (a : Access) (m : Map) (d : Nat) : State :=
  match who with
  | .lsu c o i =>
    match s.op c o with
    | none => s
    | some p =>
      if (s.core c).parks p then s.tryPlace who m (p.parkedDesc c i a) d else s.answerAt who m d (.notFull i)
  | .copy c q =>
    let k := s.cmd c q
    s.tryPlace who m (.copy c ((k.map Cmd.ctx).getD 0) ((k.map fun k => (k.word0.extractLsb' 52 2)).getD 0) q) d
  | .task sg tk => s.tryPlace who m (.task sg tk) d
  | .home h =>
    match s.home h with
    | some r => s.tryPlace who m (.token (r.req.id.extractLsb' 35 5) (r.req.id.setWidth 32) (r.req.id.extractLsb' 24 11)) d
    | none => s
  | _ => s.answerAt who m d (.notFull 0)
/-- A read that reaches its block's home (05 R76; 11 R175–R177; 13 R209). -/
def State.readHome (s : State) (who : Agent) (a : Access) (m : Map) (d : Nat) : State :=
  if a.op = .locate then s.answerAt who m d (.block who.idx m.blk m.n)
  else
  match s.tagOf m.blk m.n with
  | none => s.answerAt who m d (.bad who.idx)
  | some t =>
    let i := who.idx
    let w := s.tagWord m.blk m.n
    let full := t.st == 2
    let data : (Granule → Reply) → Reply := fun f => match s.rawRead m.key with | some g => f g | none => .bad i
    match a.op with
    | .ldq => s.answerAt who m d (.tag i w (s.written m.blk m.n ((m.key - m.blk) / 64)) 0)
    | .ldtry => s.answerAt who m d (if full then data (.tag i w true) else .tag i w false 0)
    | .bwait => if full then s.answerAt who m d (.tag i w true 0) else s.awaitBlock who a m d
    | .peek => s.answerAt who m d (if full then data (.data i) else .notFull i)
    | _ => if full then s.answerAt who m d (data (.data i)) else s.awaitBlock who a m d

/-- The earlier writes of a filling writer that its release awaits: those of operations before its own, the lower accesses
of its own, and posted ones; all of member 0's for BAR.comb's sums (05 R73, 13 R207, R216; 17 R290; 19 R311). A writer of
another package has waited for its own before it sent the write. -/
def State.priorWrites (s : State) (who : Agent) : List (CoreId × Nat) × List Agent × List Nat :=
  let before : CoreId → CtxId → Nat → Nat → List (CoreId × Nat) × List Nat := fun c x tid n =>
    ((((s.core c).opsBefore x tid n).filter Op.isWrite).map fun q => (c, q.id),
     (s.homes.filter fun h => h.req.core == c && h.req.ctx == x && h.tid == tid && h.req.posted && decide (h.op < n)).map
        fun h => h.id)
  match who with
  | .lsu c o i =>
    match s.op c o with
    | none => ([], [], [])
    | some p => let b := before c p.ctx p.tid o; (b.1, (List.range i).map fun j => .lsu c o j, b.2)
  | .park c x => let b := before c x (s.ctx c x).tid (s.core c).nextId; (b.1, [], b.2)
  | .home i =>
    match s.home i with
    | none => ([], [], [])
    | some r => if r.req.id.extractLsb' 35 5 = s.pkgNum then let b := before r.req.core r.req.ctx r.tid r.op; (b.1, [], b.2) else ([], [], [])
  | _ => ([], [], [])
/-- Every write that a fill awaits is acknowledged. -/
def State.fillReady (s : State) (f : Fill) : Bool :=
  f.before.all (fun p => (s.core p.1).findOp p.2 |>.isNone) &&
    (f.lower.all fun w => (s.acc w).all fun a => a.st == .done || a.st == .failed) &&
    f.posts.all fun i => s.homes.all fun h => h.id != i

/-- A write that reaches its block's home (05 R73, R74). -/
def State.writeHome (s : State) (who : Agent) (m : Map) (mask : BitVec 64) (x : Granule) (d : Nat) : State :=
  match s.blkWrite m mask x with
  | .second => s.answerAt who m d (.trap who.idx 2)
  | .bad => s.answerAt who m d (.bad who.idx)
  | .done t last =>
    let t := if last then
        let p := s.priorWrites who
        t.startFill m.blk m.n who p.1 p.2.1 p.2.2
      else t
    t.answerAt who m d (.ack who.idx)

/-- The store and target core of a store's key lie in a plain way of a supergroup store (05 R68). -/
def State.plainWayKey (s : State) (k : Nat) : Bool :=
  decide (2 ^ 63 ≤ k) && decide (k < 2 ^ 64) &&
    (s.plainWays ((k - 2 ^ 63) / 2 ^ 22)).getLsbD (k % 2 ^ 22 / 262144)

/-- An access is performed at its block's home; behind a held CLR it is held (05 R72, R75). -/
def State.homePerform (s : State) (who : Agent) (d : Nat) : State :=
  match s.acc who with
  | none => s
  | some a =>
    match a.map with
    | none => s
    | some m =>
      if a.st ≠ .bank ∧ a.st ≠ .sent then s
      else if s.plainWayKey m.key then s.answerAt who m d (.trap who.idx 5)
      else if s.held.any fun h => h.blk == m.blk then { s with held := s.held ++ [{ blk := m.blk, who := who }] }
      else
        match a.op with
        | .write mask x => s.writeHome who m mask x d
        | .clear _ | .rmw .. => s.answerAt who m d (.trap who.idx 5)
        | _ => s.readHome who a m d

/-! ## Atomics (11 R183, R185) -/

/-- The new value, none where a compare-and-swap fails. `f` is 11 Table 11-17 or 7. -/
def atomicNew (f : Nat) (w : Nat) (ty : Ty) (b x old : BitVec 128) : Option (BitVec 128) :=
  let n := 8 * w
  let o := old.setWidth n
  let v := b.setWidth n
  match f with
  | 0 => some (v.setWidth 128)
  | 1 =>
    if ty = .f32 then
      some (BitVec.ofNat 128 (fAdd fmtF32 { mode := .rne, sat := false, flushIn := false, flushOut := false }
        o.toNat v.toNat).1)
    else some ((o + v).setWidth 128)
  | 2 => some ((o &&& v).setWidth 128)
  | 3 => some ((o ||| v).setWidth 128)
  | 4 => some ((o ^^^ v).setWidth 128)
  | 5 => some ((if ty.isS then (if o.sle v then o else v) else (if o.ule v then o else v)).setWidth 128)
  | 6 => some ((if ty.isS then (if o.sle v then v else o) else (if o.ule v then v else o)).setWidth 128)
  | _ => if o = x.setWidth n then some (v.setWidth 128) else none
/-- The operation writes, where it found `old`: a failing compare-and-swap does not (11 R185). -/
def opWrites (op : HomeOp) (old : BitVec 128) : Bool :=
  match op with
  | .write .. => true
  | .rmw f w ty b x => (atomicNew f w ty b x old).isSome
  | _ => false
/-- Read-modify-write of the `w` bytes at offset `o` of a granule: the old value and the new granule where written. -/
def rmwGranule (g : Granule) (o w f : Nat) (ty : Ty) (b x : BitVec 128) : BitVec 128 × Option Granule :=
  let old : BitVec 128 := (g.extractLsb' (8 * o) (8 * w)).setWidth 128
  (old, (atomicNew f w ty b x old).map fun (v : BitVec 128) =>
    mergeBytes g ((v.setWidth 512 : Granule) <<< (8 * o)) (spanMask o w))

/-! ## Plain lines and the local store -/

/-- Writes to a granule of PLAIN memory that stand in the core's store buffer, in the order of their operations: whose they
are, operation, access, mask and data. -/
def State.buffered (s : State) (c : CoreId) (key : Nat) : List (CtxId × Nat × Nat × BitVec 64 × Granule × List CtxId) :=
  (s.core c).ops.flatMap fun p => (List.range p.accs.length).filterMap fun i =>
    match p.acc? i with
    | some a =>
      match a.op, a.map with
      | .write mask x, some m =>
        if m.key = key ∧ ¬m.isBlock ∧ a.st = .sent then some (p.ctx, p.id, i, mask, x, a.seen) else none
      | _, _ => none
    | none => none
/-- A load by context `x` takes some of a sibling's buffered writes, in their order: those that it has read before, and more
where no other sibling's that someone has read are open (19 R313, R319). -/
def State.takeSibling (s : State) (c : CoreId) (x y : CtxId) (key : Nat) (g : Granule) : Granule × State :=
  let l := s.buffered c key
  let mine := l.filter fun e => e.1 == y
  let had := (mine.filter fun e => e.2.2.2.2.2.contains x).length
  let (n, s) :=
    if mine.isEmpty ∨ l.any (fun e => e.1 != y && !e.2.2.2.2.2.isEmpty) then (had, s)
    else let r := s.choose (mine.length - had + 1); (had + r.1, r.2)
  let took := mine.take n
  (took.foldl (fun g e => mergeBytes g e.2.2.2.2.1 e.2.2.2.1) g,
   took.foldl (fun s e => s.modOp c e.2.1 fun p => p.modAcc e.2.2.1 fun a =>
      if a.seen.contains x then a else { a with seen := x :: a.seen }) s)
/-- The data of a granule as a load finds it: the cache's, with what it takes of the siblings' buffered writes. -/
def State.siblingBytes (s : State) (c : CoreId) (x : CtxId) (key : Nat) (g : Granule) : Granule × State :=
  (List.finRange 16).foldl (fun r i =>
    let y : CtxId := BitVec.ofFin i
    if y = x then r else r.2.takeSibling c x y key r.1) (g, s)
/-- A write of a thread to PLAIN memory has been applied: its core's probe of the plain-line cache falls due, and a line of
the second tier, as one of another package may be, waits for its device (15 R243, 19 R326). -/
def State.markPlain (s : State) (c : CoreId) (x : CtxId) (tid : Nat) (m : Option Map) : State :=
  s.modCtx c x fun t =>
    if t.tid = tid then
      { t with touched := t.touched ||| (1 <<< 49)
               devLines := match m with
                 | some m => if (m.tier ≠ 0 ∨ isAlias (m.key / 64)) ∧ ¬t.devLines.contains (m.key / 64) then m.key / 64 :: t.devLines
                     else t.devLines
                 | none => t.devLines }
    else t

/-- The outcome of an access in a cache goes to its core: at once, or where the line has come from a bank behind the mesh's
response (01 R16, R17). -/
def State.lineAnswer (s : State) (who : Agent) (src : Option (BitVec 8)) (r : Reply) : State :=
  match src with
  | none => s.answerFree who r
  | some a => s.answerFrom a who r
/-- A thread's access on a line that its supergroup's cache holds as wanted. `src` is the router of the bank from which the
line has just come. -/
def State.linePerform (s : State) (c : CoreId) (o : Op) (i : Nat) (a : Access) (m : Map) (src : Option (BitVec 8)) : State :=
  let sg := sgIdx c
  let line := m.key / 64
  let l := s.lineAt sg line
  let who := Agent.lsu c o.id i
  match a.op with
  | .write mask x =>
    (((s.setLine sg line { st := .m, data := mergeBytes l.data x mask }).lineLost sg line).markPlain c o.ctx o.tid
      (some m)).lineAnswer who src (.ack i)
  | .rmw f w ty b x =>
    let r := rmwGranule l.data (a.va.toNat % 64) w f ty b x
    match r.2 with
    | none => s.lineAnswer who src (.old i r.1)
    | some g =>
      (((s.setLine sg line { st := .m, data := g }).lineLost sg line).markPlain c o.ctx o.tid (some m)).lineAnswer who src
        (.old i r.1)
  | .clear _ => s.lineAnswer who src (.trap i 5)
  | _ =>
    let r := s.siblingBytes c o.ctx m.key l.data
    r.2.lineAnswer who src (.data i r.1)

/-- The sectors of a line of which a write carries some but not all bytes (19 R320). -/
def partialSectors (line : Nat) (mask : BitVec 64) : List Nat :=
  ((List.range 2).filter fun h =>
    let x := mask.extractLsb' (32 * h) 32
    x != 0#32 && x != BitVec.allOnes 32).map fun h => 2 * line + h
/-- Sectors that a cache's merge buffer holds. -/
def State.heldSectors (s : State) (sg : BitVec 8) : List Nat :=
  (s.coh.merges.filter fun e => e.1 == sg).foldl (fun l e => (l ++ partialSectors e.2.1 e.2.2.1).eraseDups) []
/-- A masked write whose sectors' fill is pending enters the merge buffer: an entry a sector, of which it has 32 (19 R320). -/
def State.holdWrite (s : State) (sg : BitVec 8) (line : Nat) (who : Agent) (op : HomeOp) : State :=
  match op with
  | .write mask x =>
    let l := partialSectors line mask
    if l = [] ∨ (s.lineAt sg line).st ≠ .i ∨ s.coh.merges.any (fun e => e.1 == sg && e.2.2.2.2 == who) then s
    else if (s.heldSectors sg ++ l).eraseDups.length ≤ 32 then
      { s with coh := { s.coh with merges := s.coh.merges ++ [(sg, line, mask, x, who)] } }
    else s
  | _ => s
/-- A read's sectors hold masked writes that are not yet merged (19 R321). -/
def State.mergeWaits (s : State) (sg : BitVec 8) (line : Nat) (mask : BitVec 64) : Bool :=
  s.coh.merges.any fun e => e.1 == sg && e.2.1 == line && (List.range 2).any fun h =>
    mask.extractLsb' (32 * h) 32 != 0#32 && (partialSectors line e.2.2.1).contains (2 * line + h)

/-- A request to another package (05 R66, 21 R338): it leaves the package, and the reply comes back from outside. A package
in containment answers nothing: the wait ends as R80 gives. -/
def State.pkgDead (s : State) (pkg : BitVec 5) : Bool :=
  (List.range 8).all fun d => s.coh.dead.contains (pkg ++ (BitVec.ofNat 3 d : BitVec 3))
def State.newId (s : State) (c : CoreId) : BitVec 40 := s.pkgNum ++ BitVec.ofNat 11 (s.hubPort c) ++ BitVec.ofNat 24 s.fresh
/-- The request that an agent makes with an access. -/
def State.remReq (s : State) (who : Agent) (a : Access) : RemReq :=
  let i := s.agentInfo who
  { id := s.newId i.core, asid := i.asid, priv := i.priv.code, core := i.core, ctx := i.ctx, addr := a.va, op := a.op,
    posted := false, launch := 0, who := some who, plain := s.plainOnly who, faultless := s.faultless who, block := s.combAgent who }
/-- A request goes from its agent to the package switch: through the hub port, or at once from the hub itself (01 R17). -/
def State.leave (s : State) (who : Agent) (pkg : BitVec 5) (r : RemReq) : State :=
  match s.agentRouter who with
  | some a => s.meshAfter a (s.hubRouter a) .request (.requestLeave pkg r)
  | none => { s with outbox := s.outbox ++ [.request pkg r] }
def State.sendRemote (s : State) (who : Agent) (pkg : BitVec 5) (a : Access) : State :=
  let s := s.modAcc who fun b => { b with st := .sent }
  if s.pkgDead pkg then s.after 1 (.agentReply who (.trap who.idx (if who.isLsu then 259 else 258)))
  else
    let r := s.remReq who a
    ({ s with fresh := s.fresh + 1
              sys := { s.sys with tokens := s.sys.tokens ++ [{ pkg := pkg, req := r, who := who }] } } : State).leave who pkg r
/-- A request for another package stands at the hub: it is kept until it is answered, and leaves. -/
def State.askAbroad (s : State) (pkg : BitVec 5) (r : RemReq) : State :=
  { s with
    outbox := s.outbox ++ [.request pkg r]
    sys := { s.sys with tokens := s.sys.tokens ++
      [{ pkg := pkg, req := r, who := r.who.getD (.token pkg (r.id.setWidth 32) 0) }] } }
/-- The die of a core asks another package's home for a copy of a line: the request carries its agent and incarnation (23
R345). -/
def State.cohOf (s : State) (c : CoreId) (excl : Bool) : Option (BitVec 8 × BitVec 8 × Bool) :=
  let a := s.agentOf (dieOf c)
  some (a, s.incOf a, excl)

/-- A cache asks its bank for a line on behalf of an access: the request carries what the line's home in another package
translates (23 R345). -/
def State.askLine (s : State) (who : Agent) (line : Nat) (a : Access) (excl : Bool) : State :=
  ({ s with fresh := s.fresh + 1 } : State).missLine line excl (s.remReq who a)
/-- WAITL's read of a PLAIN line: the cache takes the line, or asks for it; a line of another package under its alias (15
R247, 23 R343). -/
def State.watchRead (s : State) (who : Agent) (c : CoreId) (a : Access) (m : Map) : State :=
  let line := m.key / 64
  let s := s.modAcc who fun b => { b with st := .sent, map := some m }
  if s.mergeWaits (sgIdx c) line a.mask then s
  else if s.lineHit (sgIdx c) line false then s.answerFree who (.data 0 (s.lineAt (sgIdx c) line).data)
  else s.askLine who line a false
/-- A thread's access to a PLAIN line: performed where the cache holds it, else the line is asked for (23 R344). A line of
another package is first asked for with the access itself, whose class only the home knows (05 R66). -/
def State.lsuPlain (s : State) (c : CoreId) (o : Op) (i : Nat) (a : Access) (m : Map) (src : Option (BitVec 8) := none) : State :=
  let who := Agent.lsu c o.id i
  let line := m.key / 64
  let excl := !a.op.reads
  if a.op.reads ∧ s.mergeWaits (sgIdx c) line a.mask then s.modAcc who fun b => { b with st := .sent, map := some m }
  else if s.lineHit (sgIdx c) line excl then
    (s.modAcc who fun b => { b with map := some m }).linePerform c o i { a with map := some m } m src
  else ((s.modAcc who fun b => { b with st := .sent, map := some m }).holdWrite (sgIdx c) line who a.op).askLine who line a excl

/-- A thread's access to its local store, performed at once. -/
def State.lsuLocal (s : State) (c : CoreId) (o : Op) (i : Nat) (a : Access) (k : Nat) : State :=
  let who := Agent.lsu c o.id i
  let s := s.modAcc who fun b => { b with map := some { key := k, isBlock := false } }
  let got : (Granule → State) → State := fun f => match s.rawRead k with | some g => f g | none => s.answer who 1 (.bad i)
  match a.op with
  | .ldq | .ldtry | .bwait | .locate | .clear _ => s.answer who 1 (.trap i 5)
  | .read | .peek => got fun g => s.answer who 1 (.data i g)
  | .write mask x => ((s.rawWrite k mask x).localWritten c (k % 2 ^ 22)).answer who 1 (.ack i)
  | .rmw f w ty b x => got fun g =>
    let r := rmwGranule g (a.va.toNat % 64) w f ty b x
    ((match r.2 with | some g => (s.rawWrite k (BitVec.allOnes 64) g).localWritten c (k % 2 ^ 22) | none => s)).answer who 1 (.old i r.1)

/-! ## Banks (01 R11, R12) -/

/-- Bank of an offset. -/
def bankOf (level off : Nat) : Nat := if level = 3 then off / 2 ^ 18 % 16 else off / 64 % 16
/-- The number of requesters of a store, its remote input's position, and the latency of its banks. -/
def requesters : Nat → Nat
  | 1 => 17
  | 2 => 65
  | _ => 258
def remotePos (level : Nat) : Nat := requesters level - 1
def bankLatency : Nat → Nat
  | 1 => 1
  | 2 => 3
  | _ => 5
/-- An access stands at a requester's input of a store. -/
def State.storeArrival (s : State) (who : Agent) (store bank pos : Nat) : State :=
  { s with banks := s.banks ++ [{ store := store, bank := bank, pos := pos, who := who, since := s.cyc, arr := s.cyc }] }
/-- Present an access at the bank that holds its block's first granule (05 R72): at once within the unit, from outside by the
mesh, a service core's from the hub port that serves the store's row (01 R12, R17). The block is taken with the exponent that
the store's regions give now (log entry 88). -/
def State.presentAt (s : State) (who : Agent) (level : Nat) (t : CoreId) (off : Nat) : State :=
  let key := storeKey level t
  let m := s.storeMap level t off
  let bank := bankOf level (m.blk - key)
  let s := s.modAcc who fun a => { a with map := some m, st := .bank }
  match s.inputOf who level t with
  | some p => s.storeArrival who key bank p
  | none =>
    s.meshAfter ((s.agentRouter who).getD (s.hubRouter (sgIdx t))) (sgIdx t) .request (.storeArrival who key bank (remotePos level))

/-! ## Going on with an access -/

/-- A step that follows an agent's way to the hub: through the hub port that serves its row, or at once from the hub itself (01
R17). -/
def State.toHub (s : State) (who : Agent) (e : Event) : State :=
  match s.agentRouter who with
  | some a => s.meshAfter a (s.hubRouter a) .request e
  | none => s.afterFree e
/-- A copy's granule of a whole compressed span: the hub gathers the span, then codes it (05 R93). -/
def State.spanWrite (s : State) (c : CoreId) (q : Nat) (m : Map) (x : Granule) : State :=
  match s.cmd c q with
  | none => s
  | some k =>
    let l := k.span ++ [x]
    let lines := (List.range 64).map fun i => m.key / 4096 * 64 + i
    if l.length < 64 then (s.modCmd c q fun k => { k with span := l }).answer (.copy c q) 1 (.ack 0)
    else if lines.any fun n => s.lineBusy n then s.after 1 (.hubAccess (.copy c q))
    else
      (((lines.foldl (fun s n => s.purgeLine n) s).codeSpan (m.key / 4096 * 4096) l).modCmd c q
        fun k => { k with span := [] }).answerHub (.copy c q) (.ack 0)

/-- A non-thread agent's access to PLAIN memory, performed at the coherence point. -/
def State.enginePlain (s : State) (who : Agent) (a : Access) (m : Map) : State :=
  match who, a.op, isCoded m.key && s.spanCopy who with
  | .copy c q, .write _ x, true => s.spanWrite c q m x
  | _, _, _ =>
  let read : PlainRead := match a.op, s.plainRead m.key with | .write .., .bad => .ok 0 | _, r => r
  if s.lineDead (m.key / 64) then s.answerHub who (.trap who.idx 258)
  else
  match read with
  | .busy => (s.nudge m.key).after 1 (.hubAccess who)
  | .bad => (s.modAcc who fun b => { b with map := some m }).answerAt who m 1 (.bad who.idx)
  | .ok g =>
    match a.op with
    | .ldq | .ldtry | .bwait | .locate | .clear _ => s.answer who 1 (.trap who.idx 5)
    | .read | .peek => s.answerAt who m (1 + Config.freeDelay s.fresh) (.data who.idx g)
    | .write mask x =>
      match s.plainWrite m.key mask x with
      | some t => t.answerAt who m (1 + Config.freeDelay s.fresh) (.ack who.idx)
      | none => s.after 1 (.hubAccess who)
    | .rmw f w ty b x =>
      let r := rmwGranule g (a.va.toNat % 64) w f ty b x
      match r.2 with
      | none => s.answerAt who m (1 + Config.freeDelay s.fresh) (.old who.idx r.1)
      | some g' =>
        match s.plainWrite m.key (BitVec.allOnes 64) g' with
        | some t => t.answerAt who m (1 + Config.freeDelay s.fresh) (.old who.idx r.1)
        | none => s.after 1 (.hubAccess who)

/-- An access to PLAIN memory goes to the coherence point. -/
def State.toPlain (s : State) (who : Agent) (a : Access) (m : Map) : State :=
  let s := s.modAcc who fun b => { b with map := some m, st := .bank }
  match s.agentRouter who with
  | some _ => s.toHub who (.hubAccess who)
  | none => s.enginePlain who a m
/-- It arrives there. -/
def State.hubAccess (s : State) (who : Agent) : State :=
  match s.acc who with
  | some a =>
    match a.map with
    | some m => if a.st = .bank then s.enginePlain who a m else s
    | none => s
  | none => s

/-- A hub remembers the last 256 request ids that it has performed (21 R338). -/
def State.rememberId (s : State) (id : BitVec 40) : State :=
  { s with doneIds := (s.doneIds ++ [id]).drop (s.doneIds.length + 1 - 256) }
/-- An access goes on its way to a block's home. -/
def State.toBlock (s : State) (who : Agent) (a : Access) (m : Map) : State :=
  (s.modAcc who fun b => { b with st := .sent }).toHub who
    (match a.op with | .write .. => .blockWriteGranule who m.blk | _ => .blockReadAtHome who m.blk)
/-- An access whose place is known goes to it. -/
def State.dispatchAcc (s : State) (who : Agent) (a : Access) (m : Map) : State :=
  match who with
  | .lsu c oi i =>
    match s.op c oi with
    | none => s
    | some o =>
      if m.isBlock then
        if o.kind.isRmw then s.answer who 1 (.trap i 5) else s.toBlock who a m
      else if a.op.presence then
        (match o.kind with
         | .vload .. => s.answer who 1 (.tag i 0 false 0)
         | _ => s.answer who 1 (.trap i 5))
      else s.lsuPlain c o i a m
  | _ =>
    let home := match who, a.op with | .home _, .rmw .. => true | .home _, .write .. => true | _, _ => false
    if m.isBlock then
      if s.plainOnly who then s.answer who 1 (.trap who.idx 5)
      else match a.op with
        | .rmw .. => s.answer who 1 (.trap who.idx 5)
        | _ => s.toBlock who a m
    else if s.combAgent who ∨ a.op.presence then s.answer who 1 (.trap who.idx 5)
    else
      match (match who with | .home i => (s.home i).bind fun h => h.req.coh.map fun q => (h, q) | _ => none) with
      | some (h, agent, inc, excl) =>
        let r : CohReq := { line := m.key / 64, agent := agent, inc := inc, id := some h.req.id }
        (({ s with homes := s.homes.filter fun k => k.id != h.id } : State).rememberId h.req.id).after 1
          (if excl then .rdx r else .rds r)
      | none =>
        if home then (s.modAcc who fun b => { b with st := .sent }).toHub who (.farAtomic who)
        else
          match s.watchAgent who with
          | some c => s.watchRead who c a m
          | none => s.toPlain who a m

/-- A far atomic or posted operation goes to its home hub (11 R185, R187): a request of this package is held there until
it is performed, a posted one until it is acknowledged. A posted operation is complete when it enters the mesh; one whose
home is in containment is refused (R188). -/
def State.sendHome (s : State) (c : CoreId) (o : Op) (i : Nat) (a : Access) (pkg : BitVec 5) : State :=
  let posted := match o.kind with | .post => true | _ => false
  let who := Agent.lsu c o.id i
  let id := s.fresh
  let r : RemReq := { id := s.newId c, asid := o.asid, priv := o.priv.code, core := c, ctx := o.ctx, addr := a.va, op := a.op,
                      posted := posted, launch := o.launch, who := if posted then none else some who }
  let h : HomeReq := { id := id, req := r, acc := { va := a.va, mask := a.mask, op := a.op }, tid := o.tid,
                       counted := posted && o.ctx != 0, pre := o.pre, op := o.id }
  let s : State := { s with fresh := s.fresh + 1, homes := s.homes ++ [h] }
  let s :=
    if pkg = s.pkgNum then s.hubAfter c (.remoteRequest r)
    else if s.pkgDead pkg then
      (if posted then s.after 1 (.postedAck id 7)
       else ({ s with homes := s.homes.filter fun k => k.id != id } : State).after 1 (.longLatencyComplete c o.id (.trap i 259)))
    else s.hubAfter c (.requestLeave pkg r)
  if posted then
    (s.modCtx c o.ctx fun t => if t.tid = o.tid then { t with posted := t.posted + 1 } else t).answer who 1 (.ack i)
  else s.modAcc who fun b => { b with st := .sent }

/-- The operation is performed at its home (11 R185, R187). -/
def Op.homebound (o : Op) : Bool :=
  match o.kind with
  | .post => true
  | .atomic .. => o.far
  | _ => false

/-- Go on with a fresh access of an agent: its address form, its translation, its place. -/
def State.go (s : State) (who : Agent) : State :=
  match s.acc who with
  | none => s
  | some a =>
    if a.st ≠ .fresh then s
    else
      let c := s.agentCore who
      match s.checkAddr c a.va with
      | .error cause => s.answer who 1 (.trap who.idx cause)
      | .ok (.store l t off) =>
        if l = 0 then
          match who with
          | .lsu _ oi i =>
            match s.op c oi with
            | some o => s.lsuLocal c o i a (localKey t + off / 64 * 64)
            | none => s
          | _ =>
            if s.combAgent who then s.answer who 1 (.trap who.idx 5)
            else
            let u := s.enginePlain who a { key := localKey t + off / 64 * 64, isBlock := false }
            match a.op with
            | .write .. | .rmw .. => u.localWritten t off
            | _ => u
        else if s.plainOnly who then s.answer who 1 (.trap who.idx 5)
        else s.presentAt who l t off
      | .ok (.global pkg _) =>
        let hb := match who with | .lsu _ oi i => ((s.op c oi).filter Op.homebound).map fun o => (o, i) | _ => none
        match hb with
        | some (o, i) => s.sendHome c o i a pkg
        | none =>
        if pkg ≠ s.pkgNum then
          match who with
          | .lsu _ oi i =>
            match s.op c oi with
            | some o =>
              if a.op.presence then s.sendRemote who pkg a
              else s.lsuPlain c o i a { key := aliasLine pkg o.asid (a.va.toNat % 2 ^ 52) * 64, isBlock := false }
            | none => s
          | _ =>
            match s.watchAgent who with
            | some c => s.watchRead who c a { key := aliasLine pkg (s.agentInfo who).asid (a.va.toNat % 2 ^ 52) * 64, isBlock := false }
            | none => s.sendRemote who pkg a
        else
          let s := if a.map.isNone then s.translate who else s
          match s.acc who with
          | none => s
          | some b =>
            match b.map with
            | some m => if b.st = .fresh then s.dispatchAcc who b m else s
            | none => s

/-- The address lies in this package's window. -/
def State.ownPage (s : State) (c : CoreId) (va : Word) : Bool :=
  match s.checkAddr c va with
  | .ok (.global pkg _) => pkg == s.pkgNum
  | _ => false
/-- Go on with an access of an outstanding operation: it finds its place, and is made once its order admits it (19 R315, R316). -/
def State.goLsu (s : State) (c : CoreId) (oi i : Nat) : State :=
  match s.op c oi with
  | none => s
  | some o =>
    match o.acc? i with
    | none => s
    | some a =>
      if a.st ≠ .fresh then s
      else
        let s := if a.map.isNone ∧ ¬o.homebound ∧ s.ownPage c a.va then s.translate (.lsu c oi i) else s
        match s.acc (.lsu c oi i) with
        | none => s
        | some a =>
          if a.st ≠ .fresh then s
          else if s.mayPerform c o a then s.go (.lsu c oi i)
          else (if o.releases ∧ o.scope = 7 then s.pushDev c o.ctx else s).after 1 (.longLatencyComplete c oi (.advance i))
/-- All accesses of an operation, in order. -/
def State.goAll (s : State) (c : CoreId) (oi : Nat) : Nat → State
  | 0 => s
  | n + 1 => (s.goAll c oi n).goLsu c oi n

/-- Entries of a die's merge buffers are free: the writes that stayed outstanding for want of one enter (19 R320). -/
def State.admitMerges (s : State) (die : BitVec 3) : State :=
  s.cores.foldl (fun s e =>
    let c : CoreId := BitVec.ofNat 16 e.1
    if dieOf c ≠ die then s
    else e.2.ops.foldl (fun s o => (List.range o.accs.length).foldl (fun s i =>
      match (o.acc? i).filter fun a => a.st == .sent with
      | some a =>
        match a.map with
        | some m => if m.isBlock then s else s.holdWrite (sgIdx c) (m.key / 64) (.lsu c o.id i) a.op
        | none => s
      | none => s) s) s) s
/-- A line has come to a die: the held masked writes of each cache first, then every access that waits for it. Both sectors of
the line come with it (log entry 91). -/
def State.lineArrived (s : State) (die : BitVec 3) (line : Nat) : State :=
  let held := (s.coh.merges.filter fun e => e.2.1 == line && dieOfSg e.1 == die).map fun e => e.2.2.2.2
  let waiting := s.cores.flatMap fun e =>
    let c : CoreId := BitVec.ofNat 16 e.1
    if dieOf c = die then
      e.2.ops.flatMap fun o => (List.range o.accs.length).filterMap fun i =>
        match o.acc? i with
        | some a =>
          if a.st = .sent ∧ a.map.any (fun m => !m.isBlock && m.key / 64 == line) then some (Agent.lsu c o.id i) else none
        | none => none
    else []
  let go : State → Agent → State := fun s who =>
    match who with
    | .lsu c oi i =>
      match s.op c oi with
      | none => s
      | some o =>
        match o.acc? i with
        | none => s
        | some a =>
          match a.map with
          | some m => if a.st = .sent then s.lsuPlain c o i a m (some (s.bankRouter die line)) else s
          | none => s
    | _ => s
  let s := held.foldl go s
  let s : State := { s with coh := { s.coh with
      merges := s.coh.merges.filter fun e =>
        !(e.2.1 == line && dieOfSg e.1 == die) || (s.acc e.2.2.2.2).any fun a => a.st == .sent } }
  let s := if held.isEmpty then s else s.admitMerges die
  let s := s.cores.foldl (fun s e =>
    let c : CoreId := BitVec.ofNat 16 e.1
    if dieOf c = die then (List.finRange 16).foldl (fun s i =>
      let x : CtxId := BitVec.ofFin i
      let t := e.2.ctx x
      match t.park, t.acc with
      | some (.waitl ..), some a =>
        if a.st = .sent ∧ a.map.any (fun m => m.key / 64 == line) then
          (if s.lineHit (sgIdx c) line false then
            s.answerFrom (s.bankRouter die line) (.park c x) (.data 0 (s.lineAt (sgIdx c) line).data)
          else s.askLine (.park c x) line a false)
        else s
      | _, _ => s) s
    else s) s
  (waiting.filter fun w => !held.contains w).foldl go s

end Sys2Proof.Machine
end

