-- ==== Sys2Proof/Machine/MemInstr.lean ====
section
/-! DEFINITION. Scalar and vector loads and stores, presence instructions, clears, prefetches, atomics and posted
operations: their issue (11 R169–R188, 13 R205–R210). -/
namespace Sys2Proof.Machine

/-! ## Issue of memory instructions -/

/-- The bits of the touched-bank mask that a write to an address sets at issue (15 R243). Global PLAIN memory's bit 49 is
set when the write is applied. -/
def touchBits (c : CoreId) (ea : Word) : BitVec 64 :=
  if isCoord ea then
    match coordTarget c ea with
    | none => 0
    | some t =>
      let o := coordOff ea
      match coordLevel ea with
      | 0 => 0
      | 1 => if tileOf t = tileOf c then 1 <<< bankOf 1 o else 1 <<< 48
      | 2 => if groupOf t = groupOf c then 1 <<< (16 + bankOf 2 o) else 1 <<< 48
      | _ => if sgrpOf t = sgrpOf c then 1 <<< (32 + bankOf 3 o) else 1 <<< 48
  else 0

/-- The checks of one address: natural alignment to `w`, then its form (11 R149, R150). -/
def State.checkEa (s : State) (ea : Word) (w : Nat) : Option (Nat × Word) :=
  if aligned ea w = false then some (1, ea)
  else match s.checkAddr s.slot ea with
    | .error cause => some (cause, ea)
    | .ok _ => none

/-- Open the window of a memory instruction and go on with its accesses. -/
def State.launchOp (t : State) (c : Ctx) (n : La) (kind : OpKind) (accs : List Access) (gMask : BitVec 32 := 0)
    (vMask : BitVec 16 := 0) (order : Order := 0) (scope : Scope := 0) (ins : Option Instr := none)
    (counted : Bool := false) (far : Bool := false) : State :=
  let id := t.opId
  let bits := accs.foldl (fun m a => match a.op with
    | .write .. | .rmw .. => m ||| touchBits t.slot a.va
    | _ => m) (0 : BitVec 64)
  let t := t.addOp c 8 n kind gMask vMask accs order scope ins counted far
  let t := if bits = 0 then t else t.modMe fun m => { m with touched := m.touched ||| bits }
  t.goAll t.slot id accs.length

/-- What reaches the local store waits for earlier accesses: a store or a tag-table instruction does not issue till then, since
it takes effect in its slot (19 R314, R316; 05 R83). -/
def State.localHeld (t : State) (c : Ctx) (accs : List Access) : Bool :=
  accs.any fun a => isCoord a.va && coordLevel a.va == 0 && !t.inOrder t.slot t.cx c.tid t.opId c.asid a false
/-- Open the window of a store. -/
def State.storeOp (t : State) (c : Ctx) (n : La) (accs : List Access) : Act :=
  if t.localHeld c accs then .lose else .ok (t.launchOp c n .store accs (counted := true))

def readAcc (ea : Word) (w : Nat) : Access := { va := ea, mask := spanMask (ea.toNat % 64) w, op := .read }
def writeAcc (ea : Word) (w : Nat) (x : Word) : Access :=
  { va := ea, mask := spanMask (ea.toNat % 64) w
    op := .write (spanMask (ea.toNat % 64) w) ((x.setWidth 512) <<< (8 * (ea.toNat % 64))) }

/-- A scalar load of any form (11 R171). -/
def scalarLoad (p : Pred) (n : La) (sz : Sz) (d : G) (s : State) (ea : Ctx → Word) : R :=
  issue .any p 8 s fun c t =>
    match t.checkEa (ea c) sz.bytes with
    | some e => .trap e.1 e.2
    | none => .ok (t.launchOp c n (.load sz d) [readAcc (ea c) sz.bytes] (gMask := gBit d))
/-- A scalar store of any form (11 R171); D is the data register. -/
def scalarStore (p : Pred) (n : La) (sz : StSz) (d : G) (s : State) (ea : Ctx → Word) : R :=
  issue .any p 8 s fun c t =>
    match t.checkEa (ea c) sz.bytes with
    | some e => .trap e.1 e.2
    | none => t.storeOp c n [writeAcc (ea c) sz.bytes (c.getG d)]

def execLd (p : Pred) (n : La) (sz : Sz) (d a : G) (disp : BitVec 32) (s : State) : R :=
  scalarLoad p n sz d s fun c => c.eaI a disp
def execLdx (p : Pred) (n : La) (sz : Sz) (sc : Bool) (d a b : G) (s : State) : R :=
  scalarLoad p n sz d s fun c => c.eaX a b (if sc then sz.log2 else 0)
def execSt (p : Pred) (n : La) (sz : StSz) (d a : G) (disp : BitVec 32) (s : State) : R :=
  scalarStore p n sz d s fun c => c.eaI a disp
def execStx (p : Pred) (n : La) (sz : StSz) (sc : Bool) (d a b : G) (s : State) : R :=
  scalarStore p n sz d s fun c => c.eaX a b (if sc then sz.log2 else 0)

/-- 11 R173: a multiple of 8, and the span within one granule. -/
def multiBad (ea : Word) (c : BitVec 3) : Bool :=
  decide (ea.toNat % 8 ≠ 0) || decide (64 < ea.toNat % 64 + 8 * (c.toNat + 1))
/-- Registers g[D] to g[D + c] as one mask. -/
def gSpan (d : G) (c : BitVec 3) : BitVec 32 := (BitVec.ofNat 32 (2 ^ (c.toNat + 1) - 1)) <<< d.toNat
/-- The words of g[D] to g[D + c]. -/
def Ctx.gWords (t : Ctx) (d : G) (c : BitVec 3) : Granule :=
  granuleOf ((List.range (c.toNat + 1)).map fun i => t.getG (d + BitVec.ofNat 5 i))

def execLdm (p : Pred) (n : La) (c : BitVec 3) (d a : G) (disp : BitVec 32) (s : State) : R :=
  issue .any p 8 s fun k t =>
    let ea := k.eaI a disp
    if multiBad ea c then .trap 1 ea
    else match t.checkEa ea 8 with
      | some e => .trap e.1 e.2
      | none => .ok (t.launchOp k n (.loadM c d) [readAcc ea (8 * (c.toNat + 1))] (gMask := gSpan d c))
def execStm (p : Pred) (n : La) (c : BitVec 3) (d a : G) (disp : BitVec 32) (s : State) : R :=
  issue .any p 8 s fun k t =>
    let ea := k.eaI a disp
    let w := 8 * (c.toNat + 1)
    if multiBad ea c then .trap 1 ea
    else match t.checkEa ea 8 with
      | some e => .trap e.1 e.2
      | none =>
        t.storeOp k n [{ va := ea, mask := spanMask (ea.toNat % 64) w
                         op := .write (spanMask (ea.toNat % 64) w) ((k.gWords d c) <<< (8 * (ea.toNat % 64))) }]

/-! ## Presence (11 R174–R177) -/

def execLdq (p : Pred) (n : La) (d a : G) (disp : BitVec 32) (s : State) : R :=
  issue .any p 8 s fun c t =>
    match t.checkEa (c.eaI a disp) 1 with
    | some e => .trap e.1 e.2
    | none => .ok (t.launchOp c n (.ldq d) [{ va := c.eaI a disp, mask := 0, op := .ldq }] (gMask := gBit d))
def execLdtry (p : Pred) (n : La) (sz : Sz) (d a : G) (disp : BitVec 32) (s : State) : R :=
  issue .any p 8 s fun c t =>
    match t.checkEa (c.eaI a disp) sz.bytes with
    | some e => .trap e.1 e.2
    | none =>
      .ok (t.launchOp c n (.ldtry sz d) [{ va := c.eaI a disp, mask := spanMask ((c.eaI a disp).toNat % 64) sz.bytes, op := .ldtry }]
        (gMask := gBit d ||| gBit (d + 1)))
def execBwait (p : Pred) (n : La) (d a : G) (disp : BitVec 32) (s : State) : R :=
  issue .any p 8 s fun c t =>
    match t.checkEa (c.eaI a disp) 1 with
    | some e => .trap e.1 e.2
    | none => .ok (t.launchOp c n (.bwait d) [{ va := c.eaI a disp, mask := 0, op := .bwait }] (gMask := gBit d))

/-! ## Clears and prefetches (11 R178–R181) -/

/-- A run of clears is sent to its homes; its outcome is reported later (11 R180). -/
def clearRun (p : Pred) (s : State) (ea : Ctx → Word) (count : Ctx → Nat) (counts : Bool) : R :=
  issue .any p 8 s fun c t =>
    match t.checkEa (ea c) 1 with
    | some e => .trap e.1 e.2
    | none =>
      .ok ((t.modCore t.slot fun k =>
        { k with
          nextId := k.nextId + 1
          clrs := k.clrs ++ [{ id := k.nextId, ctx := t.cx, tid := c.tid, pc := c.pc, va := ea c, asid := c.asid,
                               priv := c.priv, count := count c, counts := counts
                               acc := { va := ea c, mask := 0, op := .clear (count c) } }] }).after 0
        (.clrAtHome (.clr t.slot t.opId) 0))
def execClr (p : Pred) (a : G) (disp : BitVec 32) (s : State) : R := clearRun p s (fun c => c.eaI a disp) (fun _ => 1) false
def execClrn (p : Pred) (a b : G) (s : State) : R :=
  clearRun p s (fun c => c.getG a) (fun c => (c.getG b).toNat % 4096 + 1) true

/-- A prefetch asks the cache's bank for a line that the cache does not hold as wanted, and nobody waits (11 R181); a line of
another package is asked for with its address (23 R345). -/
def State.prefLine (s : State) (c : Ctx) (ea : Word) (line : Nat) (excl : Bool) : State :=
  if s.lineHit (sgIdx s.slot) line excl then s
  else
    ({ s with fresh := s.fresh + 1 } : State).missLine line excl
      { id := s.newId s.slot, asid := c.asid, priv := c.priv.code, core := s.slot, ctx := s.cx, addr := ea, op := .peek,
        posted := false, launch := 0, who := none, plain := true }
/-- A prefetch of a global PLAIN line that a translation cache of the core or group can place, or that its home will place,
asks for the line; in any other case it does nothing (11 R181). -/
def prefetch (p : Pred) (a : G) (disp : BitVec 32) (excl : Bool) (s : State) : R :=
  issue .any p 8 s fun c t =>
    let ea := c.eaI a disp
    match t.checkAddr t.slot ea with
    | .ok (.global pkg off) =>
      if pkg ≠ t.pkgNum then .ok (t.prefLine c ea (aliasLine pkg c.asid (ea.toNat % 2 ^ 52)) excl)
      else
        let k := t.myCore
        match (findTlb k.dtlb c.asid off c.priv 0).or (findTlb (t.l2 (some (grp16 t.slot))) c.asid off c.priv 0) with
        | some e =>
          let m := t.leafMap e off
          if m.isBlock then .ok t else .ok (t.prefLine c ea (m.key / 64) excl)
        | none => .ok t
    | _ => .ok t
def execPrefS (p : Pred) (a : G) (disp : BitVec 32) (s : State) : R := prefetch p a disp false s
def execPrefX (p : Pred) (a : G) (disp : BitVec 32) (s : State) : R := prefetch p a disp true s

/-! ## Atomics and posted operations (11 R182–R188) -/

/-- Checks 1 to 3 of 11 R184. -/
def State.checkAtomic (s : State) (ea : Word) (w : Nat) (posted : Bool) : Option (Nat × Word) :=
  match s.checkEa ea w with
  | some e => some e
  | none => if isCoord ea ∧ (posted ∨ coordLevel ea ≠ 0) then some (5, ea) else none

/-- AOP (11 R185). -/
def aop (f : Nat) (p : Pred) (n : La) (far : Bool) (ty : Ty) (scope : Scope) (order : Order) (d a b : G) (s : State) : R :=
  issue .any p 8 s fun c t =>
    let ea := c.getG a
    match t.checkAtomic ea ty.bytes false with
    | some e => .trap e.1 e.2
    | none =>
      .ok (t.launchOp c n (.atomic ty false d)
        [{ va := ea, mask := spanMask (ea.toNat % 64) ty.bytes
           op := .rmw f ty.bytes ty ((c.getG b).setWidth 128) 0 }]
        (gMask := gBit d) (order := order) (scope := scope) (counted := true) (far := far && !isCoord ea))
def execAopSwap (p : Pred) (n : La) (far : Bool) (ty : Ty) (scope : Scope) (order : Order) (d a b : G) (s : State) : R :=
  aop 0 p n far ty scope order d a b s
def execAopAdd (p : Pred) (n : La) (far : Bool) (ty : Ty) (scope : Scope) (order : Order) (d a b : G) (s : State) : R :=
  aop 1 p n far ty scope order d a b s
def execAopAnd (p : Pred) (n : La) (far : Bool) (ty : Ty) (scope : Scope) (order : Order) (d a b : G) (s : State) : R :=
  aop 2 p n far ty scope order d a b s
def execAopOr (p : Pred) (n : La) (far : Bool) (ty : Ty) (scope : Scope) (order : Order) (d a b : G) (s : State) : R :=
  aop 3 p n far ty scope order d a b s
def execAopXor (p : Pred) (n : La) (far : Bool) (ty : Ty) (scope : Scope) (order : Order) (d a b : G) (s : State) : R :=
  aop 4 p n far ty scope order d a b s
def execAopMin (p : Pred) (n : La) (far : Bool) (ty : Ty) (scope : Scope) (order : Order) (d a b : G) (s : State) : R :=
  aop 5 p n far ty scope order d a b s
def execAopMax (p : Pred) (n : La) (far : Bool) (ty : Ty) (scope : Scope) (order : Order) (d a b : G) (s : State) : R :=
  aop 6 p n far ty scope order d a b s

/-- The operand register, or a register pair for .q, its lower-numbered register in the low half. -/
def Ctx.getQ (t : Ctx) (q : Bool) (r : G) : BitVec 128 :=
  if q then t.getG (r + 1) ++ t.getG r else (t.getG r).setWidth 128
def execAcas (p : Pred) (n : La) (far q : Bool) (ty : Ty) (scope : Scope) (order : Order) (d a b c : G) (s : State) : R :=
  issue .any p 8 s fun k t =>
    let ea := k.getG a
    let w := if q then 16 else ty.bytes
    match t.checkAtomic ea w false with
    | some e => .trap e.1 e.2
    | none =>
      .ok (t.launchOp k n (.atomic ty q d)
        [{ va := ea, mask := spanMask (ea.toNat % 64) w, op := .rmw 7 w ty (k.getQ q c) (k.getQ q b) }]
        (gMask := if q then gBit d ||| gBit (d + 1) else gBit d) (order := order) (scope := scope)
        (counted := true) (far := far && !isCoord ea))

/-- RED and POST: performed at the home, complete when they enter the mesh (11 R187). -/
def posted (p : Pred) (n : La) (w : Nat) (scope : Scope) (order : Order) (a : G) (s : State)
    (op : Ctx → Word → HomeOp) : R :=
  issue .any p 8 s fun c t =>
    let ea := c.getG a
    match t.checkAtomic ea w true with
    | some e => .trap e.1 e.2
    | none =>
      let u := t.launchOp c n .post [{ va := ea, mask := spanMask (ea.toNat % 64) w, op := op c ea }]
        (order := order) (scope := scope)
      .ok (if t.cx = 0 then u else u.account c.launch (!c.triggered))
def red (f : Nat) (p : Pred) (n : La) (ty : Ty) (scope : Scope) (order : Order) (a b : G) (s : State) : R :=
  posted p n ty.bytes scope order a s fun c _ => .rmw f ty.bytes ty ((c.getG b).setWidth 128) 0
def execRedAdd (p : Pred) (n : La) (ty : Ty) (scope : Scope) (order : Order) (a b : G) (s : State) : R :=
  red 1 p n ty scope order a b s
def execRedAnd (p : Pred) (n : La) (ty : Ty) (scope : Scope) (order : Order) (a b : G) (s : State) : R :=
  red 2 p n ty scope order a b s
def execRedOr (p : Pred) (n : La) (ty : Ty) (scope : Scope) (order : Order) (a b : G) (s : State) : R :=
  red 3 p n ty scope order a b s
def execRedXor (p : Pred) (n : La) (ty : Ty) (scope : Scope) (order : Order) (a b : G) (s : State) : R :=
  red 4 p n ty scope order a b s
def execRedMin (p : Pred) (n : La) (ty : Ty) (scope : Scope) (order : Order) (a b : G) (s : State) : R :=
  red 5 p n ty scope order a b s
def execRedMax (p : Pred) (n : La) (ty : Ty) (scope : Scope) (order : Order) (a b : G) (s : State) : R :=
  red 6 p n ty scope order a b s
/-- Bytes of a POST and its data, .g taking the granule of a register pair. -/
def postBytes : PostSz → Nat
  | .b => 1 | .h => 2 | .w => 4 | .d => 8 | .g => 64
def postData (sz : PostSz) (b : BitVec 5) (c : Ctx) : Granule :=
  match sz with
  | .g => c.getPair (b.extractLsb' 1 3)
  | _ => (c.getG b).setWidth 512
def execPost (p : Pred) (n : La) (sz : PostSz) (scope : Scope) (order : Order) (a : G) (b : BitVec 5) (s : State) : R :=
  posted p n (postBytes sz) scope order a s fun c ea =>
    .write (spanMask (ea.toNat % 64) (postBytes sz)) ((postData sz b c) <<< (8 * (ea.toNat % 64)))

/-! ## Vector memory (13 R205–R209) -/

/-- A piece of a vector access: byte offset in the register or pair, address, and length. -/
structure Piece where
  dst : Nat
  ea : Word
  len : Nat
deriving DecidableEq, Repr

/-- A lane address: confined to the offset field for a coordinate base (13 R206). -/
def laneEa (base off : Word) : Word :=
  if isCoord base then base.extractLsb' 42 22 ++ (base.setWidth 42 + off.setWidth 42 : BitVec 42) else base + off
/-- The pieces of `n` lanes of `w` bytes that the mask selects, in lane order. -/
def lanePieces (m : BitVec 32) (n w : Nat) (ea : Nat → Word) : List Piece :=
  ((List.range n).filter fun i => m.getLsbD i).map fun i => { dst := w * i, ea := ea i, len := w }
/-- The address and pieces of each vector memory form, and the alignment its addresses need. -/
def vecPieces (i : Instr) (t : Ctx) : List Piece :=
  match i with
  | .vld p _ g _ a disp | .vst p _ g _ a disp =>
    lanePieces (t.mask p) (if g then 16 else 8) 4 fun k => t.eaI a disp + BitVec.ofNat 64 (4 * k)
  | .vldb p _ _ a disp | .vstb p _ _ a disp => lanePieces (t.mask p) 32 1 fun k => t.eaI a disp + BitVec.ofNat 64 k
  | .vlds p _ ty _ a b | .vsts p _ ty _ a b =>
    lanePieces (t.mask p) ty.lanes ty.bytes fun k => laneEa (t.getG a) (BitVec.ofNat 64 k * t.getG b)
  | .vgath p _ ty sc _ a b | .vscat p _ ty sc _ a b =>
    lanePieces (t.mask p) ty.lanes ty.bytes fun k =>
      laneEa (t.getG a) (((t.getV b).extractLsb' (ty.width * k) ty.width).signExtend 64 <<<
        (if sc then Nat.log2 ty.bytes else 0))
  | _ => []
/-- The addresses that issue checks, with their alignment: the ea of the single-access forms, else each lane's. -/
def vecChecks (i : Instr) (t : Ctx) : List (Word × Nat) :=
  match i with
  | .vld _ _ g _ a disp | .vst _ _ g _ a disp => [(t.eaI a disp, if g then 64 else 32)]
  | .vldb _ _ _ a disp | .vstb _ _ _ a disp => [(t.eaI a disp, 32)]
  | _ => (vecPieces i t).map fun q => (q.ea, q.len)
/-- Insert in ascending order, once. -/
def insertAsc (x : Nat) : List Nat → List Nat
  | [] => [x]
  | y :: r => if x < y then x :: y :: r else if x = y then y :: r else y :: insertAsc x r
/-- The granules that the pieces touch, ascending (13 R207). -/
def granulesOf (l : List Piece) : List Nat := l.foldr (fun q a => insertAsc (q.ea.toNat / 64) a) []
/-- The lowest address of a granule's pieces. -/
def lowestEa (l : List Piece) (g : Nat) : Word :=
  BitVec.ofNat 64 (((l.filter fun q => q.ea.toNat / 64 == g).map fun q => q.ea.toNat).foldl min (g * 64 + 63))
/-- One granule access per granule of a load, which places no waiter, and which bytes of it go where. -/
def loadAccs (l : List Piece) : List Access :=
  (granulesOf l).map fun g =>
    { va := lowestEa l g, op := .peek
      mask := (l.filter fun q => q.ea.toNat / 64 == g).foldl (fun m q => m ||| spanMask (q.ea.toNat % 64) q.len) 0 }
def loadParts (l : List Piece) : List LanePart :=
  l.map fun q => { dst := q.dst, acc := (granulesOf l).idxOf (q.ea.toNat / 64), src := q.ea.toNat % 64, len := q.len }
/-- One granule access per granule of a store: a higher lane's byte replaces a lower lane's (13 R207). -/
def storeAccs (l : List Piece) (x : Granule) : List Access :=
  (granulesOf l).map fun g =>
    let mine := l.filter fun q => q.ea.toNat / 64 == g
    let m : BitVec 64 := mine.foldl (fun m q => m ||| spanMask (q.ea.toNat % 64) q.len) 0
    let data : Granule := mine.foldl (fun y q =>
      mergeBytes y ((x >>> (8 * q.dst)) <<< (8 * (q.ea.toNat % 64))) (spanMask (q.ea.toNat % 64) q.len)) 0
    { va := lowestEa l g, mask := m, op := .write m data }

/-- The first failing check. -/
def State.vecTrap (s : State) (i : Instr) (c : Ctx) : Option (Nat × Word) :=
  (vecChecks i c).findSome? fun q => s.checkEa q.1 q.2
/-- A vector load (13 R209). -/
def vecLoad (i : Instr) (p : Pred) (n : La) (bits : Nat) (d : V) (pair : Bool) (s : State) : R :=
  issueV p bits 8 s fun c _ t =>
    match t.vecTrap i c with
    | some e => .trap e.1 e.2
    | none =>
      let l := vecPieces i c
      .ok (t.launchOp c n (.vload d pair (loadParts l)) (loadAccs l)
        (vMask := if pair then vBit d ||| vBit (d + 1) else vBit d) (ins := some i))
/-- A vector store (13 R208). -/
def vecStore (i : Instr) (p : Pred) (n : La) (bits : Nat) (d : V) (pair : Bool) (s : State) : R :=
  issueV p bits 8 s fun c _ t =>
    match t.vecTrap i c with
    | some e => .trap e.1 e.2
    | none =>
      let x : Granule := if pair then c.getPair (d.extractLsb' 1 3) else (c.getV d).setWidth 512
      t.storeOp c n (storeAccs (vecPieces i c) x)

def execVld (p : Pred) (n : La) (g : Bool) (d : V) (a : G) (disp : BitVec 32) (s : State) : R :=
  vecLoad (.vld p n g d a disp) p n (if g then 16 else 8) d g s
def execVst (p : Pred) (n : La) (g : Bool) (d : V) (a : G) (disp : BitVec 32) (s : State) : R :=
  vecStore (.vst p n g d a disp) p n (if g then 16 else 8) d g s
def execVlds (p : Pred) (n : La) (ty : Ty) (d : V) (a b : G) (s : State) : R :=
  vecLoad (.vlds p n ty d a b) p n ty.lanes d false s
def execVsts (p : Pred) (n : La) (ty : Ty) (d : V) (a b : G) (s : State) : R :=
  vecStore (.vsts p n ty d a b) p n ty.lanes d false s
def execVgath (p : Pred) (n : La) (ty : Ty) (sc : Bool) (d : V) (a : G) (b : V) (s : State) : R :=
  vecLoad (.vgath p n ty sc d a b) p n ty.lanes d false s
def execVscat (p : Pred) (n : La) (ty : Ty) (sc : Bool) (d : V) (a : G) (b : V) (s : State) : R :=
  vecStore (.vscat p n ty sc d a b) p n ty.lanes d false s
def execVldb (p : Pred) (n : La) (d : V) (a : G) (disp : BitVec 32) (s : State) : R :=
  vecLoad (.vldb p n d a disp) p n 32 d false s
def execVstb (p : Pred) (n : La) (d : V) (a : G) (disp : BitVec 32) (s : State) : R :=
  vecStore (.vstb p n d a disp) p n 32 d false s

end Sys2Proof.Machine
end

