-- ==== Sys2Proof/Machine/Queue.lean ====
section
/-! DEFINITION. Ready queues, their spill rings, spawn deques and wakes (03 R51–R54, R389). -/
namespace Sys2Proof

/-- Word 0 and word 1 of a ring entry (03 R52). -/
def RqEnt.word0 (e : RqEnt) : Word :=
  (e.addr &&& ~~~0x3F#64) ||| (if e.pinned then 4 else 0) ||| e.prio.setWidth 64
def RqEnt.word1 (e : RqEnt) : Word := (e.asid.setWidth 64 <<< 48) ||| BitVec.ofNat 64 (e.enq % 2 ^ 48)
def RqEnt.ofWords (a b : Word) : RqEnt :=
  { addr := a &&& ~~~0x3F#64, prio := a.setWidth 2, pinned := a.getLsbD 2, asid := b.extractLsb' 48 16,
    enq := b.toNat % 2 ^ 48 }

end Sys2Proof
namespace Sys2Proof.Machine

/-! ## Loads and pushes -/

/-- Contexts 1–15 of a core that are not empty. -/
def Core.busy (k : Core) : Nat := ((List.finRange 16).filter fun i => decide (i.val ≠ 0) && k.ctxs[i].st != .empty).length
/-- Contexts 1–15 that are empty and await no TREAP, lowest first. -/
def Core.empties (k : Core) : List CtxId :=
  ((List.finRange 16).filter fun i => decide (i.val ≠ 0) && k.ctxs[i].st == .empty && !k.ctxs[i].reapWaits).map fun i =>
    BitVec.ofFin i
/-- Wake messages on their way to a core: in the mesh, held at it by credits, or at their routers. -/
def State.inFlight (s : State) (c : CoreId) : Nat :=
  let mine := fun e : Event => match e with | .wakeMessage d _ => d == c | _ => false
  (s.agenda.filter fun e => mine e.2).length + (s.sys.waiting.filter fun m => mine m.2.2.2).length + (s.core c).wakeNet.length

/-- The spill region of %rqspill: its frame address and size, none where it is not set (03 R52). -/
def Core.region (k : Core) : Option (Nat × Nat) :=
  if k.rqspill = 0 then none else some (k.rqspill.toNat / 4096 * 4096, 2 ^ (k.rqspill.toNat % 16 + 12))
/-- Entries that each half of the region holds. -/
def Core.spillCap (k : Core) : Nat := (2 ^ (k.rqspill.toNat % 16 + 11) - 64) / 16
/-- Entries in the ring: tail index less head index (03 R52). -/
def State.ringCount (s : State) (c : CoreId) : Nat :=
  match (s.core c).region with
  | none => 0
  | some (b, _) => ((s.ownWord (b + 8)) - (s.ownWord b)).toNat
/-- Entries in the deque's spill. -/
def State.dequeSpill (s : State) (c : CoreId) : Nat :=
  match (s.core c).region with
  | none => 0
  | some (b, z) => (s.ownWord (b + z / 2)).toNat

/-- A core's load (03 R53): contexts 1–15 that are not empty and its ready-queue count, the ring's entries among it (log entry
96), saturating at 255. -/
def State.loadOf (s : State) (c : CoreId) : Nat :=
  min 255 ((s.core c).busy + (s.core c).rq.length + s.ringCount c)

/-- Dispatch tries when work reaches the core (03 R51). -/
def State.kick (s : State) (c : CoreId) : State :=
  match (s.core c).empties with
  | x :: _ => s.after 1 (.dispatch c x)
  | [] => s

/-- A push enters the hardware queue, else the ring's tail; none where the ring is full or there is none (03 R52). -/
def State.enqueue (s : State) (c : CoreId) (e : RqEnt) : Option State :=
  let e := { e with enq := s.cyc }
  let n := s.ringCount c
  if (s.core c).rq.length < 64 ∧ n = 0 then some ((s.modCore c fun k => { k with rq := k.rq ++ [e] }).kick c)
  else
    match (s.core c).region with
    | some (b, _) =>
      if n < (s.core c).spillCap then
        let t := s.ownWord (b + 8)
        let a := b + 64 + 16 * (t.toNat % (s.core c).spillCap)
        some ((((s.setOwnWord a e.word0).setOwnWord (a + 8) e.word1).setOwnWord (b + 8) (t + 1)).after 1 (.ringRefill c))
      else none
    | none => none
/-- A push that finds no room is counted and held in the inbound wake buffer, behind the earlier ones; past the buffer's
room, the mesh's credits hold it (03 R52, 01 R18; log entry 90). -/
def State.holdPush (s : State) (c : CoreId) (e : RqEnt) : State :=
  if (s.core c).wake.length ≤ Config.wakeBuffer ∧ (s.core c).wakeNet = [] then
    (s.modCore c fun k => { k with wake := k.wake ++ [e] }).count c 4
  else s.modCore c fun k => { k with wakeNet := k.wakeNet ++ [e] }
/-- A push to a core's ready queue (03 R52); how many the wake buffer holds is log entry 90. -/
def State.pushRq (s : State) (c : CoreId) (e : RqEnt) : State :=
  match if (s.core c).wake.isEmpty then s.enqueue c e else none with
  | some t => t
  | none => s.holdPush c e
/-- The held pushes go on, in order, while there is room for them. -/
def State.pushHeld (s : State) (c : CoreId) : List RqEnt → State
  | [] => s.modCore c fun k => { k with wake := [] }
  | e :: l =>
    match s.enqueue c e with
    | some t => t.pushHeld c l
    | none => s.modCore c fun k => { k with wake := e :: l }
/-- The pushes that the mesh held follow, each into the queue or into the room of the wake buffer. -/
def State.pushNet (s : State) (c : CoreId) : State :=
  (s.core c).wakeNet.foldl (fun s e => s.pushRq c e) (s.modCore c fun k => { k with wakeNet := [] })

/-! ## Aging and taking -/

/-- The first entry of a priority. -/
def headOf (q : List RqEnt) (p : BitVec 2) : Option RqEnt := q.find? fun e => e.prio == p
/-- Step 1 of 03 R51 for priority `p`: the head moves to the tail of p − 1 once it has waited %age cycles. -/
def agePrio (now age : Nat) (p : BitVec 2) (q : List RqEnt) : List RqEnt :=
  match headOf q p with
  | none => q
  | some e =>
    if age ≤ (now % 2 ^ 48 + 2 ^ 48 - e.enq % 2 ^ 48) % 2 ^ 48 then q.erase e ++ [{ e with prio := p - 1, enq := now }] else q
def Core.aged (k : Core) (now : Nat) : Core :=
  let age := k.age.toNat % 2 ^ 24
  if age = 0 then k else { k with rq := agePrio now age 3 (agePrio now age 2 (agePrio now age 1 k.rq)) }
/-- The head of the lowest-numbered non-empty priority. -/
def bestOf (q : List RqEnt) : Option RqEnt :=
  (((headOf q 0).or (headOf q 1)).or (headOf q 2)).or (headOf q 3)
/-- Take an entry out of the hardware queue; the ring refills it. -/
def State.takeRq (s : State) (c : CoreId) (e : RqEnt) : State :=
  (s.modCore c fun k => { k with rq := k.rq.erase e }).after 1 (.ringRefill c)

/-! ## Wakes (03 R54) -/

/-- The cores of a group of 8 × 8 at a packed group position, in ascending coordinate. -/
def groupCores (g : Nat) : List CoreId :=
  (List.range 64).map fun i => mkCore (g % 256 * 8 + i % 8) (g / 256 * 8 + i / 8)
/-- The core of lowest load among some, ties to the lowest coordinate. Wakes on their way to a core count in it (log entry 98). -/
def State.leastLoaded (s : State) (l : List CoreId) : Option CoreId :=
  (l.filter fun c => s.present c).foldl (fun best c =>
    match best with
    | none => some c
    | some b => if s.loadOf c + s.inFlight c < s.loadOf b + s.inFlight b then some c else some b) none
/-- The group position that holds a tile or group store, or the suspending core's group. -/
def wakeGroup (blk : Nat) (c : CoreId) : Nat :=
  if 2 ^ 61 ≤ blk ∧ blk < 2 ^ 62 then
    let t := (blk - 2 ^ 61) / 2 ^ 22
    (t / 64 / 2) * 256 + t % 64 / 2
  else if 2 ^ 62 ≤ blk ∧ blk < 2 ^ 63 then
    let g := (blk - 2 ^ 62) / 2 ^ 22
    (g / 32) * 256 + g % 32
  else groupOf c
/-- The router of a block's home: that of its store's supergroup, else the hub port that serves the target's. -/
def State.homeRouter (s : State) (blk : Nat) (t : CoreId) : BitVec 8 :=
  if blk < 2 ^ 63 then (if blk < 2 ^ 61 then s.hubRouter (sgIdx t) else sgIdx t)
  else if blk < 2 ^ 64 then BitVec.ofNat 8 ((blk - 2 ^ 63) / 2 ^ 22) else s.hubRouter (sgIdx t)
/-- A continuation whose block fills becomes a ready-queue entry of the least loaded core of its wake group. -/
def State.wakeCont (s : State) (blk : Nat) (addr : Word) (c : CoreId) (asid : BitVec 16) (prio : BitVec 2) (pinned : Bool) :
    State :=
  match s.leastLoaded (groupCores (wakeGroup blk c)) with
  | some t => s.meshAfter (s.homeRouter blk t) (sgIdx t) .wake (.wakeMessage t { addr := addr, prio := prio, pinned := pinned, asid := asid, enq := s.cyc })
  | none => s

/-- The level that a context's next thread gets (07 R109). -/
def Core.privOf (k : Core) (x : CtxId) : Priv :=
  if x = 0 then .m else if k.marks.getLsbD x.toNat then .s else .u

end Sys2Proof.Machine
end

