-- ==== Sys2Proof/Machine/Thread.lean ====
section
/-! DEFINITION. Threads and their contexts: arrival at barriers, triggering, retirement, a context falling empty, and the
ends of the parks that wait for copies and reports (03 R43–R48, R51; 13 R221, R222, R228–R231; 15 R244, R246, R255). -/
namespace Sys2Proof.Machine

/-! ## Gangs -/

def State.gang? (s : State) (n i : BitVec 32) : Option Gang := s.gangs.find? fun g => g.launch == n && g.index == i
def State.modGang (s : State) (n i : BitVec 32) (f : Gang → Gang) : State :=
  { s with gangs := s.gangs.map fun g => if g.launch = n ∧ g.index = i then f g else g }
/-- Members arrived at a barrier; one that has executed TEXIT counts at every barrier (15 R244). -/
def Gang.arrived (g : Gang) (k : BitVec 2) : List (BitVec 16) :=
  match k with
  | 0 => g.at0 | 1 => g.at1 | 2 => g.at2 | _ => g.at3
def Gang.setArrived (g : Gang) (k : BitVec 2) (l : List (BitVec 16)) : Gang :=
  match k with
  | 0 => { g with at0 := l } | 1 => { g with at1 := l } | 2 => { g with at2 := l } | _ => { g with at3 := l }
def Gang.all (g : Gang) (p : BitVec 16 → Bool) : Bool :=
  (List.range g.members.length).all fun i => p (BitVec.ofNat 16 i)
/-- Every member has arrived at a barrier, and some member waits there. -/
def Gang.met (g : Gang) (k : BitVec 2) : Bool :=
  !(g.arrived k).isEmpty && g.all fun i => (g.arrived k).contains i || g.exited.contains i
/-- Cycles from the last arrival to the release, by level (15 R244). -/
def barDelay (lvl : BitVec 2) : Nat := if lvl = 1 then 4 else if lvl = 2 then 8 else 16
/-- The combined counters: sum `j` over the distinct cores of the gang's members (15 R245). -/
def State.combSum (s : State) (g : Gang) (j : Nat) : Word :=
  BitVec.ofNat 64 (((g.members.map Prod.fst).eraseDups.map fun c => (((s.core c).evc[j]?).getD 0).toNat).sum)
/-- A member's context is parked at a barrier of its gang. -/
def Ctx.atBar (t : Ctx) (n i : BitVec 32) (k : BitVec 2) : Bool :=
  t.launch == n && t.gang == i && (match t.park with | some (.bar j _) => j == k | _ => false)
/-- The member whose context carries the write of the sums: member 0's, or the next one at the barrier where member 0's was
reaped after it arrived (log entry 94). -/
def State.sumsAt (s : State) (g : Gang) (k : BitVec 2) : Option (CoreId × CtxId) :=
  g.members.find? fun m => (s.ctx m.1 m.2).atBar g.launch g.index k
/-- The last arrival, or an exit in its place, at a barrier: its release falls due, and member 0's granule of sums is to
be written first (15 R244, R245). -/
def State.checkBarrier (s : State) (n i : BitVec 32) (k : BitVec 2) : State :=
  match s.gang? n i with
  | none => s
  | some g =>
    if ¬g.met k ∨ g.due.any (fun d => d.1 == k) then s
    else
      let d := barDelay g.level
      let s := s.modGang n i fun g => { g with due := (k, s.cyc + d) :: g.due }
      let s :=
        match g.comb.find? (fun e => e.1 == k), s.sumsAt g k with
        | some e, some m =>
          (s.modCtx m.1 m.2 fun t =>
            { t with acc := some { va := e.2, mask := BitVec.allOnes 64
                                   op := .write (BitVec.allOnes 64) (granuleOf ((List.range 8).map (s.combSum g))) } }).after 1
            (.barrierResume n i k)
        | _, _ => s
      s.after d (.barrierResume n i k)

/-- Whether a context runs a member of a gang at levels 1 to 3. -/
def Ctx.gangThread (t : Ctx) : Bool := t.lvl != 0

/-- TRIG of a thread: its gang has triggered once each member has (03 R48, 15 R246). -/
def State.triggerThread (s : State) (c : CoreId) (x : CtxId) : State :=
  let t := s.ctx c x
  if t.triggered ∨ x = 0 then s
  else
    let s := s.modCtx c x fun t => { t with triggered := true }
    if t.gangThread then
      let s := s.modGang t.launch t.gang fun g => { g with trig := g.trig ++ [t.member] }
      match s.gang? t.launch t.gang with
      | none => s
      | some g =>
        if g.all fun i => g.trig.contains i then
          (s.modLaunch t.launch fun l => { l with triggered := l.triggered + 1 }).checkLaunch t.launch
        else s
    else (s.modLaunch t.launch fun l => { l with triggered := l.triggered + 1 }).checkLaunch t.launch

/-- TEXIT or a reap of a thread: it counts as triggered and retired, and as arrived at every barrier of its gang (03 R48,
15 R244, R254). -/
def State.exitThread (s : State) (c : CoreId) (x : CtxId) : State :=
  if x = 0 then s
  else
    let t := s.ctx c x
    let s := s.triggerThread c x
    if t.gangThread then
      let s := s.modGang t.launch t.gang fun g => { g with exited := g.exited ++ [t.member] }
      match s.gang? t.launch t.gang with
      | none => s
      | some g =>
        let s := ((List.range 4).map fun k => BitVec.ofNat 2 k).foldl (fun s k => s.checkBarrier t.launch t.gang k) s
        if g.all fun i => g.exited.contains i then
          let s : State := { s with gangs := s.gangs.filter fun h => !(h.launch == t.launch && h.index == t.gang) }
          (s.modLaunch t.launch fun l => { l with retired := l.retired + 1 }).checkLaunch t.launch
        else s
    else (s.modLaunch t.launch fun l => { l with retired := l.retired + 1 }).checkLaunch t.launch

/-! ## A context falls empty -/

/-- A die is among those that a launch may use, and present (03 R45, R47). -/
def Launch.uses (l : Launch) (die : BitVec 3) : Bool := l.dies == 0 || l.dies.getLsbD die.toNat
/-- A gang waits for a context of the die (03 R47). -/
def State.gangWaits (s : State) (die : BitVec 3) : Bool :=
  s.launches.any fun l => l.placing && l.uses die
/-- The die's gang placer is offered an empty context before dispatch fills it (03 R47, R51). -/
def State.offerCtx (s : State) (c : CoreId) (x : CtxId) : State :=
  if s.gangWaits (dieOf c) then s.after 0 (.gangOffer c x)
  else if x = 0 then s
  else s.after 1 (.dispatch c x)
/-- A context becomes empty. A TREAP that waits for it finds it so in its next slot, which comes before its next thread
(15 R254). -/
def State.freeCtx (s : State) (c : CoreId) (x : CtxId) : State :=
  let s : State := match (s.ctx c x).devLines with
    | [] => s
    | l => { s with sys := { s.sys with devLeft := (s.sys.devLeft ++ l).eraseDups } }
  let s := s.modCtx c x fun t => { tid := t.tid + 1, reapWaits := t.reapWaits }
  if (s.ctx c x).reapWaits then s.after 17 (.dispatch c x) else s.offerCtx c x

/-! ## Retirement and the parks that wait for copies -/

/-- Commands of a context's thread. -/
def Core.cmdsOf (k : Core) (x : CtxId) : List Cmd := k.cmds.filter fun m => m.ctx == x && m.tid == (k.ctx x).tid && !m.orphan
/-- A CLR or CLRN of the thread is unreported, or a report to it is undelivered (11 R180, 13 R222). -/
def State.reportsDue (s : State) (c : CoreId) (x : CtxId) : Bool :=
  let t := s.ctx c x
  (s.core c).clrs.any (fun r => r.ctx == x && r.tid == t.tid) || !t.traps.isEmpty ||
    s.agenda.any fun e => match e.2 with
      | .deferredTrapReport d y i _ => d == c && y == x && i == t.tid
      | .machineCheck _ _ (some (.park d y)) => d == c && y == x
      | _ => false
/-- TEXIT's park ends in the thread's retirement (15 R255). -/
def State.retire (s : State) (c : CoreId) (x : CtxId) : State :=
  (s.exitThread c x).freeCtx c x
def State.taskOpen (s : State) (ticket : Word) : Bool :=
  s.sgs.any fun e => e.2.tasks.any fun t => t.ticket == ticket && t.st != .done
/-- Commands of a thread numbered below `upto` in queues of a mask. -/
def Core.pendingCmds (k : Core) (x : CtxId) (mask : BitVec 4) (upto : Nat) : Bool :=
  (k.cmdsOf x).any fun m => decide (m.seq < upto) && mask.getLsbD ((m.word0.extractLsb' 52 2).toNat)
/-- A park that waits for copies, tasks or reports ends when they have ended (13 R228, R230, R231; 15 R255). -/
def State.wakeCopyPark (s : State) (c : CoreId) (x : CtxId) : State :=
  let t := s.ctx c x
  match t.park with
  | some (.cwait mask upto) => if (s.core c).pendingCmds x mask upto then s else s.unpark c x
  | some (.cbwait k) =>
    if t.bars[k.toNat].pending = 0 then
      s.unpark c x fun t => { t with bars := t.bars.set k.toNat { t.bars[k.toNat] with armed := false } }
    else s
  | some (.cqf m _ upto tickets) =>
    if (s.core c).pendingCmds x m upto ∨ tickets.any (fun k => s.taskOpen k) then s else s.unpark c x
  | some .texit => if (s.core c).cmdsOf x ≠ [] ∨ s.reportsDue c x then s else s.retire c x
  | _ => s

/-- Close a thread's open batch: every held command enters its queue (13 R221). -/
def State.closeBatch (s : State) (c : CoreId) (x : CtxId) : State :=
  let t := s.ctx c x
  if t.batch = false then s
  else
    ((s.modCore c fun k =>
      { (k.setCtx x { k.ctx x with batch := false }) with
        cmds := k.cmds.map fun m => if m.ctx = x ∧ m.tid = t.tid then { m with held := false } else m })).after 1
      (.copyAdmit c x)

end Sys2Proof.Machine
end

