-- ==== Sys2Proof/Machine/MemEvents.lean ====
section
/-! DEFINITION. The steps of memory: completions, banks, block homes, fills, drains, clears, and traps' delivery (01 R12,
03 R33, R41, 05 R72–R79, 11 R149, R179, R180, R188, 21 R330, R341). -/
namespace Sys2Proof.Machine

/-! ## Halting, machine checks and traps -/

/-- A context halts without an emulation request (21 R327, 07 R112 steps 1 to 3). -/
def State.haltCtx (s : State) (c : CoreId) (x : CtxId) (h : Halt) : State :=
  (s.startHalt c x h).after 1 (.haltTakeEffect c x)

/-- The containment trap of a context: it halts, and the notice says so (21 R327, R388). -/
def State.containCtx (s : State) (c : CoreId) (x : CtxId) (addr : Word) : State :=
  let t := s.ctx c x
  if t.st = .empty ∨ t.st = .reserved then s
  else
    (s.haltCtx c x .containment).notify (dieOf c) { code := 16, cause := 14, addr := addr, who := s.whoCtx c x, w3 := t.pc }
/-- Code 1 to 5 of 21 Table 21-11 for failing data at a key. -/
def State.checkSource (s : State) (m : Option Map) : Nat :=
  match m with
  | none => 2
  | some m =>
    if m.isBlock ∧ (s.phys m.blk).isSome ∧ (s.tagOf m.blk m.n).isNone then 3
    else if isCoded m.key then 4
    else if m.key < 2 ^ 59 then 2 else 1
/-- The source and key of an access's failing data: the entry that its walk read, else its own place (21 R341). -/
def State.checkOf (s : State) (a : Access) : Nat × Nat :=
  match a.pte with
  | some k => (5, k)
  | none => (s.checkSource a.map, (a.map.map fun m => if m.isBlock ∧ (s.tagOf m.blk m.n).isNone then m.blk else m.key).getD 0)
/-- The machine check of an access that met failing data (05 R88). -/
def State.checkFail (s : State) (a : Access) (who : Agent) : State :=
  s.after 0 (.machineCheck (s.checkOf a).1 (s.checkOf a).2 (some who))

/-- A park that a report ends: a wait for copies by a copy's trap, TEXIT's by every report (13 R218, R222). -/
def Park.endsOn (p : Park) (source : Nat) : Bool :=
  match p with
  | .cwait .. | .cbwait _ => source == 1
  | .cqf .. => source == 1 || source == 2
  | .texit => true
  | _ => false
/-- A deferred trap becomes pending; while its context is in a handler it waits for the ERET (21 R330). -/
def State.raiseDeferred (s : State) (c : CoreId) (x : CtxId) (t : Trap) : State :=
  if (s.ctx c x).inHandler then s.modCtx c x fun k => { k with traps := k.traps ++ [t] }
  else
    (s.modCtx c x fun k =>
      if k.park.any fun p => p.endsOn t.source then { k with park := none, st := .running } else k).raise c x t

/-! ## LONG_LATENCY_COMPLETE -/

/-- Bytes of a register pair or register assembled from a load's granules (13 R209). -/
def assemble (parts : List LanePart) (accs : List Access) (x : Granule) : Granule :=
  parts.foldl (fun x q =>
    match accs[q.acc]? with
    | some a => mergeBytes x ((a.rdata >>> (8 * q.src)) <<< (8 * q.dst)) (spanMask q.dst q.len)
    | none => x) x

/-- What an operation writes when all its accesses are done (11 R171–R177, R183, R185; 13 R209). -/
def Op.result (o : Op) (t : Ctx) : Ctx :=
  let a := o.accs.headD { va := 0, mask := 0, op := .peek }
  let lo : Word := (a.rdata >>> (8 * (a.va.toNat % 64))).setWidth 64
  match o.kind with
  | .calcG d x => t.setG d x
  | .calcV d x fl => (t.setV d x).orFlags fl
  | .load sz d => t.setG d (sz.extend lo)
  | .loadM n d => t.setGs d.toNat (a.rdata >>> (8 * (a.va.toNat % 64))) 0 (n.toNat + 1)
  | .ldq d => t.setG d (a.tag.setWidth 64 ||| (if a.written then 1 <<< 16 else 0))
  | .ldtry sz d => (t.setG d (if a.tag.setWidth 2 = 2#2 then sz.extend lo else 0)).setG (d + 1) (a.tag.setWidth 64)
  | .bwait d => t.setG d (a.tag.setWidth 64)
  | .store | .post => t
  | .atomic ty q d =>
    let x := a.rdata
    if q then (t.setG d (x.setWidth 64)).setG (d + 1) (x.extractLsb' 64 64)
    else t.setG d (match ty with
      | .s32 => (x.setWidth 32).signExtend 64
      | .z32 | .f32 => (x.setWidth 32).setWidth 64
      | _ => x.setWidth 64)
  | .vload d pair parts =>
    if pair then t.setPair (d.extractLsb' 1 3) (assemble parts o.accs (t.getPair (d.extractLsb' 1 3)))
    else t.setV d ((assemble parts o.accs ((t.getV d).setWidth 512)).setWidth 256)

/-- The vector load is performed again in place from the context's registers (13 R209). -/
def State.redoVector (s : State) (c : CoreId) (o : Op) : State :=
  match o.ins with
  | none => s
  | some i =>
    let l := vecPieces i (s.ctx c o.ctx)
    if l.isEmpty then s.endOp c o id
    else
    let s := s.modOp c o.id fun p =>
      { p with accs := loadAccs l
               kind := match p.kind with | .vload d b _ => .vload d b (loadParts l) | k => k }
    s.goAll c o.id (loadAccs l).length

/-- The first lane's access whose block is not full. -/
def firstNotFull (o : Op) : Nat :=
  match o.kind with
  | .vload _ _ parts =>
    ((parts.map fun q => q.acc).find? fun i => (o.acc? i).any fun a => a.st == .notFull).getD 0
  | _ => 0

/-- All accesses have answered: the operation completes, waits on a block, or fails (03 Table 3-3, 11 R149, 13 R209,
R210). -/
def State.settleOp (s : State) (c : CoreId) (o : Op) : State :=
  let first := fun (f : Access → Bool) => (o.accs.find? f).getD { va := 0, mask := 0, op := .peek }
  let none' := { o with trap := none }
  if o.accs.any (fun a => a.cause == 12) then (s.checkFail (first fun a => a.cause == 12) (.park c o.ctx)).endOp c none' id
  else if o.accs.any (fun a => a.cause == 256) then (s.haltCtx c o.ctx (.trap 0)).endOp c none' id
  else if o.accs.any (fun a => a.cause == 258 || a.cause == 259) then
    (s.containCtx c o.ctx (first fun a => a.cause == 258 || a.cause == 259).va).endOp c none' id
  else if o.trap.isSome then s.endOp c o id
  else if o.accs.any fun a => a.st == .notFull then
    if (s.core c).parks o ∨ ((o.acc? (firstNotFull o)).bind Access.map).all (fun m => !m.isBlock) then
      s.after 0 (.waiterRetry (.lsu c o.id (firstNotFull o)))
    else (s.modOp c o.id fun p => { p with suspends := true }).after 0 (.suspension c o.ctx o.id)
  else s.endOp c o o.result

/-- An answer to an outstanding operation's access (03 R33). -/
def State.longLatencyComplete (s : State) (c : CoreId) (id : Nat) (r : Reply) : State :=
  match s.op c id with
  | none => s
  | some o =>
    match o.kind, r with
    | .calcG .., _ | .calcV .., _ => s.endOp c o o.result
    | .vload .., .tag .. => s.redoVector c o
    | _, .retry _ | _, .line .. => s
    | _, .advance i =>
      let s := s.modOp c id fun p => p.modAcc i fun a => if a.st = .faulted then { a with st := .fresh } else a
      s.goLsu c id i
    | _, _ =>
      let i := match r with
        | .advance i | .data i _ | .ack i | .notFull i | .placed i | .refused i | .tag i .. | .block i .. | .old i _ | .trap i _
        | .bad i | .abandoned i .. | .cleared i .. | .retry i | .refusal i _ | .line i .. => i
      let s := s.modOp c id fun p =>
        let p := p.modAcc i (Reply.apply r)
        match r with
        | .trap _ cause =>
          let va := ((p.acc? i).map Access.va).getD 0
          match p.trap with
          | some t => if t.addr.toNat ≤ va.toNat then p else { p with trap := some { t with cause := cause, addr := va } }
          | none => { p with trap := some { kind := 1, cause := cause, pc := p.pc, addr := va, order := p.id } }
        | _ => p
      match s.op c id with
      | none => s
      | some o => if o.accs.all fun a => a.st == .done || a.st == .failed || a.st == .notFull then s.settleOp c o else s

/-! ## Clears (05 R75, 11 R178–R180) -/

/-- How a run of clears ends: at its last block, at a violation, at failing data, with a fault abandoned, or with its home in
containment. -/
inductive ClrEnd where
  | done
  | trap (cause : Nat) (addr : Word)
  | failed (a : Access)
  | abandoned
  | lost
deriving DecidableEq, Repr

/-- The deferred trap of a run at a block. -/
def ClrRun.violation (r : ClrRun) (cause : Nat) (addr : Word) : Trap :=
  { kind := 2, cause := cause, pc := r.pc, addr := addr, source := 3 }
/-- A run ends: its refusals and its violation are reported to the thread, or to the package that sent it (11 R179, R180). -/
def State.endClr (s : State) (who : Agent) (r : ClrRun) (e : ClrEnd) : State :=
  match who with
  | .clr c _ =>
    let s := s.modCore c fun k => { k with clrs := k.clrs.filter fun q => q.id != r.id }
    let s := if r.refused = 0 then s else
      s.after 0 (.deferredTrapReport c r.ctx r.tid
        { kind := 2, cause := 3, pc := r.pc, addr := r.firstRefused, count := if r.counts then r.refused else 0, source := 3 })
    let mine := (s.ctx c r.ctx).tid = r.tid
    match e with
    | .done => s.wakeCopyPark c r.ctx
    | .trap cause addr => s.after 0 (.deferredTrapReport c r.ctx r.tid (r.violation cause addr))
    | .failed a =>
      if mine then s.checkFail a (.park c r.ctx) else s.after 0 (.machineCheck (s.checkOf a).1 (s.checkOf a).2 none)
    | .abandoned => if mine then s.haltCtx c r.ctx (.trap 0) else s
    | .lost => s
  | .home i =>
    match s.home i with
    | none => s
    | some h =>
      let s := ({ s with homes := s.homes.filter fun k => k.id != i } : State).rememberId h.req.id
      let out : Reply := match e with
        | .done => .cleared 0 r.refused r.firstRefused none
        | .trap cause addr => .cleared 0 r.refused r.firstRefused (some (cause, addr))
        | .failed _ => .bad 0
        | .abandoned => .abandoned 0 h.fault.1 h.fault.2
        | .lost => .trap 0 258
      { s with outbox := s.outbox ++ [.reply h.req.id out] }
  | _ => s

/-- The lowest-numbered valid region of a store that holds an offset. -/
def State.regionOf (s : State) (key off : Nat) : Option Nat :=
  (List.range 4).find? fun i =>
    let r : Word := SMap.get 0 s.rgns (4 * (key / 2 ^ 22) + i)
    r.getLsbD 63 && decide ((r.extractLsb' 0 16).toNat * 4096 ≤ off) &&
      decide (off < (r.extractLsb' 16 16).toNat * 4096)
/-- The block in progress follows the first in its store region or page (11 R179). Offsets in no valid region count as one
region (log entry 76). -/
def State.clrNext (s : State) (first : Map) (i : Nat) : Option Map :=
  let b := first.blk + i * (64 * 2 ^ first.n)
  if 2 ^ 60 ≤ first.blk ∧ first.blk < 2 ^ 100 then
    let key := first.blk / 2 ^ 22 * 2 ^ 22
    if b / 2 ^ 22 = first.blk / 2 ^ 22 ∧ s.regionOf key (b - key) = s.regionOf key (first.blk - key) ∧
        b - key < storeSize (levelOfKey key) then some { first with key := b, blk := b } else none
  else if b / 2 ^ first.pageBits = first.blk / 2 ^ first.pageBits then some { first with key := b, blk := b } else none
/-- Address of the block in progress. -/
def ClrRun.blockVa (r : ClrRun) : Word :=
  match r.first with
  | none => r.va
  | some f => BitVec.ofNat 64 (r.va.toNat / (64 * 2 ^ f.n) * (64 * 2 ^ f.n) + r.next * (64 * 2 ^ f.n))

/-- The run goes to its next block, or ends. -/
def State.clrAdvance (s : State) (who : Agent) (r : ClrRun) : State :=
  let r := { r with next := r.next + 1, bumped := false, acc := { r.acc with st := .fresh, map := none } }
  if r.count ≤ r.next then s.endClr who r .done
  else (s.modRun who fun _ => r).after 1 (.clrAtHome who r.next)

/-- Accesses that were held behind a CLR are performed in the order in which they were accepted (05 R75). -/
def State.heldBack (s : State) (blk : Nat) : Bool := s.held.any fun h => h.blk == blk

/-- The block of a run is cleared at its home (05 Table 5-5, R75; 17 R294): behind a drain or a hold it waits; a watched
block is held while the watch table counts. -/
def State.clrPerform (s : State) (who : Agent) (r : ClrRun) (m : Map) : State :=
  let va := r.blockVa
  if ¬m.isBlock ∨ s.plainWayKey m.key then s.endClr who r (.trap 5 va)
  else if s.draining m.blk ∨ (s.heldBack m.blk ∧ ¬r.bumped) then
    { (s.modRun who fun q => { q with acc := { q.acc with map := some m, st := .sent } }) with
      held := s.held ++ [{ blk := m.blk, who := who }] }
  else
    match s.blkClear m.blk m.n with
    | .bad => s.endClr who r (.failed { r.acc with map := some m })
    | .deferred =>
      s.clrAdvance who { r with refused := r.refused + 1, firstRefused := if r.refused = 0 then va else r.firstRefused }
    | .done t =>
      match m.watch with
      | some _ =>
        if r.bumped then t.clrAdvance who r
        else
          (({ s with held := { blk := m.blk, who := who } :: s.held } : State).modRun who fun q =>
            { q with acc := { q.acc with map := some m, st := .sent } }).after 1 (.watchIncrement who r.next)
      | none => t.clrAdvance who r

/-- An access is performed at its home: a block of a run of clears, or any other access. -/
def State.performAt (s : State) (who : Agent) (d : Nat) : State :=
  match s.runOf who with
  | none => s.homePerform who d
  | some r =>
    match r.acc.map with
    | some m => if r.acc.st = .bank ∨ r.acc.st = .sent then s.clrPerform who r m else s
    | none => s

/-! ## Replies from other packages (21 R338, 05 R79, 23 R345) -/

/-- Accesses of a die's threads that wait for a line, and WAITLs' reads. -/
def State.lineWaiters (s : State) (die : BitVec 3) (line : Nat) : List Agent :=
  let on := fun (a : Access) => decide (a.st = .sent) && a.map.any fun m => !m.isBlock && m.key / 64 == line
  s.cores.flatMap fun e =>
    let c : CoreId := BitVec.ofNat 16 e.1
    if dieOf c = die then
      (e.2.ops.flatMap fun o => ((List.range o.accs.length).filter fun i => (o.acc? i).any on).map fun i => Agent.lsu c o.id i) ++
        (((List.finRange 16).map fun i => (BitVec.ofFin i : CtxId)).filter fun x => match (e.2.ctx x).park, (e.2.ctx x).acc with
          | some (.waitl ..), some a => on a
          | _, _ => false).map (Agent.park c)
    else []
/-- A line of another package was asked for with an access whose page is not PLAIN: the die has no request for it, and the
other accesses that waited for it are made themselves. -/
def State.dropAlias (s : State) (die : BitVec 3) (line : Nat) (who : Agent) : State :=
  let ws := s.lineWaiters die line
  let s : State := { s with coh := { s.coh with
    dieReqs := s.coh.dieReqs.filter fun r => !(r.die == die && r.line == line)
    merges := s.coh.merges.filter fun e => !(e.2.1 == line && dieOfSg e.1 == die) } }
  (ws.filter fun w => w != who).foldl (fun s w =>
    (s.modAcc w fun a => { a with st := .fresh, map := none }).resumeAgent w 1) s
/-- A line that a die holds under the alias `b` goes on under the alias `a`, which invalidates `b`: an upgrade of `b` has lost its
line, and the accesses that waited for it are made again (23 R343). -/
def State.moveAlias (s : State) (die : BitVec 3) (b a : Nat) : State :=
  let hs := s.holders die b
  let sn := s.snoop die b
  let s := hs.foldl (fun s g => (s.setLine g a (s.lineAt g b)).dropLine g b) s
  let s := if hs.isEmpty then s else (s.setSnoop die a sn).setSnoop die b {}
  let s : State := { s with coh := { s.coh with dieReqs := s.coh.dieReqs.filter fun r => !(r.die == die && r.line == b) } }
  (s.lineWaiters die b).foldl (fun s w => (s.modAcc w fun x => { x with st := .fresh, map := none }).resumeAgent w 1) s
/-- The home grants a copy of a line: the alias keeps the frame line, another alias of it leaves the die first, and the
answer reaches the die (23 R343). An alias in the writeback buffer keeps its frame line until its Cmp. -/
def State.lineReply (s : State) (q : RemOut) (frame : Nat) (excl dirty err : Bool) (g : Granule) : State :=
  let die := dieOf q.req.core
  let a := aliasLine q.pkg q.req.asid (q.req.addr.toNat % 2 ^ 52)
  let f := remoteFrame q.pkg frame
  let others := (s.aliasesOf die f).filter fun b => b != a
  let s := others.foldl (fun s b => s.moveAlias die b a) s
  let s : State := { s with coh := { s.coh with
    frames := SMap.set a (s.coh.frames.filter fun e => !(e.1 / 2 ^ 128 == die.toNat && others.contains (e.1 % 2 ^ 128)) ||
      s.inWb die (e.1 % 2 ^ 128)) (cohKey die.toNat a) f } }
  s.after 0 (if excl then .datax false a (s.agentOf die) (s.incOf (s.agentOf die)) g dirty false err
    else .data false a (s.agentOf die) (s.incOf (s.agentOf die)) g dirty false err)
/-- The notice of a fault that another package's home has abandoned for a thread (15 R268, 21 R388). -/
def State.abandonNote (s : State) (who : Agent) (handle word0 : Word) : State :=
  let i := s.agentInfo who
  match who with
  | .lsu .. | .clr .. | .park .. | .fetch .. =>
    s.notify (dieOf i.core)
      { code := 17, addr := ((s.acc who).map Access.va).getD 0, who := whoWord i.core i.ctx i.priv.code i.pkg i.asid
        w3 := handle, w4 := word0 }
  | _ => s
/-- A token of a thread's access waits at another package's home: the access parks or suspends as 03 Table 3-3 has it (05
R76). -/
def State.remoteWait (s : State) (c : CoreId) (id i : Nat) : State :=
  match s.op c id with
  | none => s
  | some o =>
    let s := s.modOp c id fun p => p.modAcc i fun a => { a with st := .placed }
    if (s.core c).parks o then s else (s.modOp c id fun p => { p with suspends := true }).after 0 (.suspension c o.ctx id)
/-- A reply reaches its agent. One from a home of another package that says that a token waits there leaves the token open (05
R79); where the home's fault queue is full the same request is sent again (21 R338). -/
def State.agentReply (s : State) (who : Agent) (r : Reply) : State :=
  let q := s.sys.tokens.find? fun t => t.who == who
  let far := s.homes.find? fun h => (h.req.who == some who || who == .home h.id) && h.req.addr.extractLsb' 52 5 != s.pkgNum
  let s := match far, r with
    | some h, .retry _ => s.after 1024 (.remoteRetry h.id)
    | some h, _ =>
      let s : State := { s with homes := s.homes.filter fun k => k.id != h.id }
      let wrote := match r with | .old _ x => opWrites h.req.op x | .ack _ => true | _ => false
      if wrote then s.markPlain h.req.core h.req.ctx h.tid none else s
    | none, _ => s
  let s := match r with
    | .refused _ => if q.isSome then s.countRefusal who else s
    | .abandoned _ h w => if q.isSome ∨ far.isSome then s.abandonNote who h w else s
    | _ => s
  let s : State := { s with sys := { s.sys with tokens :=
    match r with
    | .placed _ => s.sys.tokens.map fun t => if t.who = who then { t with placed := true } else t
    | .retry _ => s.sys.tokens
    | _ => s.sys.tokens.filter fun t => t.who != who } }
  let s := match q, r with
    | some q, .line _ f x d e g => s.lineReply q f x d e g
    | some q, .retry _ => s.after 1024 (.remoteRetry (2 ^ 40 + q.req.id.toNat))
    | some q, _ =>
      if q.req.coh.isSome then s.dropAlias (dieOf q.req.core) (aliasLine q.pkg q.req.asid (q.req.addr.toNat % 2 ^ 52)) who else s
    | none, _ => s
  match who, r with
  | _, .line .. | _, .retry _ => s
  | .token .., _ => s
  | .lsu c o _, .placed i => s.remoteWait c o i
  | .lsu c o _, _ => s.longLatencyComplete c o r
  | .clr c i, _ =>
    match s.clr c i with
    | none => s
    | some k =>
      match r with
      | .cleared _ n first v =>
        s.endClr who { k with refused := n, firstRefused := first } (match v with | some (x, va) => .trap x va | none => .done)
      | .bad _ => s.endClr who k (.failed k.acc)
      | .abandoned .. => s.endClr who k .abandoned
      | .trap _ 258 | .trap _ 259 => (s.containCtx c k.ctx k.blockVa).endClr who k .lost
      | .trap _ x => s.endClr who k (.trap x k.blockVa)
      | _ => s
  | .park c x, .abandoned .. | .fetch c x, .abandoned .. =>
    ((s.setAcc who none).haltCtx c x (.trap 0)).after 1 (s.resumeEvent who)
  | .park c x, .trap _ 258 | .fetch c x, .trap _ 258 => (s.setAcc who none).containCtx c x (((s.acc who).map Access.va).getD 0)
  | _, _ => (s.modAcc who (Reply.apply r)).resumeAgent who 0
/-- A reply of another package reaches the hub: a line's goes to the bank of the die controller at its port, any other to its
agent by the mesh (01 R17, 23 R344). -/
def State.hubReply (s : State) (who : Agent) (r : Reply) : State :=
  match r, s.agentRouter who with
  | .line .., _ | .retry _, _ | _, none => s.agentReply who r
  | _, some a => s.meshAfter (s.hubRouter a) a .response (.agentReply who r)
def execLongLatencyComplete (s : State) : R :=
  match s.ev with
  | some (.longLatencyComplete c o r) => .next (s.longLatencyComplete c o r)
  | some (.agentReply who r) => .next (s.agentReply who r)
  | some (.replySend who a r) => .next (s.replySend who a r)
  | some (.hubReply who r) => .next (s.hubReply who r)
  | _ => .fault .noPendingEvent

/-! ## BANK_ACCESS (01 R12) -/

/-- The SGWAY that is being performed for a supergroup: its issuer and mask. -/
def State.sgwayAt (s : State) (sg : BitVec 8) : Option (CoreId × BitVec 16) :=
  (s.sgway.find? fun e => e.1 == sg).map fun e => (e.2.1, e.2.2.1)
/-- A key lies in a way that a running SGWAY takes out of block use: its accesses are held (05 Table 5-9, step 1). -/
def State.leaving (s : State) (k : Nat) : Bool :=
  decide (2 ^ 63 ≤ k) && decide (k < 2 ^ 64) &&
    (match s.sgwayAt (BitVec.ofNat 8 ((k - 2 ^ 63) / 2 ^ 22)) with
     | none => false
     | some (_, m) =>
       let w := k % 2 ^ 22 / 262144
       m.getLsbD w && !(s.plainWays ((k - 2 ^ 63) / 2 ^ 22)).getLsbD w)
/-- An access is held at the store's input by a running SGWAY; a copy that the SGWAY lets run on is not (05 Table 5-9). -/
def State.heldBySgway (s : State) (who : Agent) : Bool :=
  ((s.acc who).bind Access.map).any fun m => s.leaving m.key &&
    (match who with
     | .copy c q => !(s.cmd c q).any fun k => k.before.contains (BitVec.ofNat 8 ((m.key - 2 ^ 63) / 2 ^ 22))
     | _ => true)

/-- The shared input of a supergroup store, and every store's remote input: each presents its oldest access only. -/
def BankReq.input (b : BankReq) : Bool :=
  let n := requesters (levelOfKey b.store)
  b.pos == n - 1 || (n == 258 && b.pos == 256)
/-- An access waits at the bank in this cycle. -/
def State.atBank (s : State) (b : BankReq) : Bool := decide (b.since ≤ s.cyc) && !s.heldBySgway b.who
/-- The oldest access that has reached an input; of two that arrive in one cycle the one sent first (log entry 75). -/
def State.inputHead (s : State) (store pos : Nat) : Option BankReq :=
  (s.banks.filter fun d => d.store == store && d.pos == pos && decide (d.arr ≤ s.cyc) && !s.heldBySgway d.who).foldl
    (fun w d => match w with
      | none => some d
      | some v => if d.arr < v.arr then some d else some v) none
/-- An access is presented in this cycle: an input's only where it is the input's oldest. -/
def State.presented (s : State) (b : BankReq) : Bool :=
  s.atBank b && (!b.input || s.inputHead b.store b.pos == some b)
/-- The accesses presented at a bank, and the one whose requester comes first; of two of one requester, of which the manual
says nothing, the one presented first (log entry 75). -/
def State.bankHere (s : State) (store bank : Nat) : List BankReq :=
  s.banks.filter fun b => b.store == store && b.bank == bank && s.presented b
def State.bankWinner (s : State) (store bank : Nat) : Option BankReq :=
  let n := requesters (levelOfKey store)
  (s.bankHere store bank).foldl (fun w b =>
    match w with
    | none => some b
    | some v => if (b.pos + n - s.cyc % n) % n < (v.pos + n - s.cyc % n) % n then some b else some v) none
/-- One bank's arbitration: the winner is performed, the others are refused and counted: a core's in its next slot, an
input's in the next cycle, before which the input presents nothing else. -/
def State.bankAccess (s : State) (store bank : Nat) : State :=
  match s.bankWinner store bank with
  | none => s
  | some w =>
    let here := s.bankHere store bank
    let losers := here.filter fun b => b.who != w.who
    let inputs := (here.filter BankReq.input).map BankReq.pos
    let s := losers.foldl (fun s b =>
      let s := s.count (s.agentCore b.who) 2
      if b.input then s else s.modAcc b.who fun a => { a with st := .again }) s
    let s : State := { s with
      banks := (s.banks.filter fun b => b.who != w.who && !(losers.contains b && !b.input)).map fun b =>
        if b.store == store && inputs.contains b.pos && decide (b.since ≤ s.cyc) then { b with since := s.cyc + 1 } else b }
    s.performAt w.who (bankLatency (levelOfKey store))
def execBankAccess (s : State) : R :=
  match s.ev with
  | some (.bankAccess h b) => .next (s.bankAccess h b)
  | some (.storeArrival who h b p) => .next (s.storeArrival who h b p)
  | _ => .fault .noPendingEvent

/-! ## Block homes (05 R72–R77) -/

/-- An access of an agent reaches its block's home. -/
def State.atHome (s : State) (who : Agent) : State :=
  let d := 1 + Config.freeDelay s.fresh
  ({ s with fresh := s.fresh + 1 } : State).performAt who d
def execBlockReadAtHome (s : State) : R :=
  match s.ev with
  | some (.blockReadAtHome who _) => .next (s.atHome who)
  | _ => .fault .noPendingEvent
def execBlockWriteGranule (s : State) : R :=
  match s.ev with
  | some (.blockWriteGranule who _) => .next (s.atHome who)
  | _ => .fault .noPendingEvent

/-- A wait is presented again at the home (05 R77), or a vector load presents its one wait (13 R209). -/
def State.waiterRetry (s : State) (who : Agent) : State :=
  match s.acc who with
  | none => s
  | some a =>
    if a.st = .notFull then (s.modAcc who fun b => { b with st := .fresh, op := if b.op = .peek then .bwait else b.op }).go who
    else if a.st = .relist then (s.modAcc who fun b => { b with st := .fresh }).go who
    else s
def execWaiterRetry (s : State) : R :=
  match s.ev with
  | some (.waiterRetry who) => .next (s.waiterRetry who)
  | _ => .fault .noPendingEvent

/-- The release of a filled block: once the writer's earlier writes are acknowledged the block is full, and its waiters
are drained one per cycle (05 R73, R79). -/
def State.blockFillRelease (s : State) (blk n : Nat) (who : Agent) : State :=
  match s.fills.find? fun f => f.blk == blk && !f.draining with
  | none => s
  | some f =>
    if s.fillReady f = false then s.after 1 (.blockFillRelease blk n who)
    else
      match s.tagOf blk n with
      | none => { s with fills := s.fills.erase f }
      | some t =>
        let s := s.setMeta blk (TagV.pack { t with st := 2 })
        if s.waiters.any fun w => w.blk == blk then
          ({ s with fills := s.fills.map fun g => if g = f then { g with draining := true } else g } : State).after 1
            (.drainDescriptor blk n)
        else { s with fills := s.fills.erase f }
def execBlockFillRelease (s : State) : R :=
  match s.ev with
  | some (.blockFillRelease blk n who) => .next (s.blockFillRelease blk n who)
  | _ => .fault .noPendingEvent

/-- Let the accesses and clears held at a block go on, in order. -/
def State.releaseHeld (s : State) (blk : Nat) : State :=
  let l := s.held.filter fun h => h.blk == blk
  let s : State := { s with held := s.held.filter fun h => h.blk != blk }
  l.foldl (fun s h => s.atHome h.who) s

/-- After a wipe of the keys `lo ≤ k < hi` what was held behind a draining block there goes on, and finds it empty; a clear
that the watch table counts lets its own block go on (05 R86, R75). -/
def State.releaseIn (s : State) (lo hi : Nat) : State :=
  ((s.held.filter fun h => decide (lo ≤ h.blk ∧ h.blk < hi) && !s.agenda.any fun e => match e.2 with
    | .watchIncrement w _ => s.held.any fun g => g.blk == h.blk && g.who == w
    | _ => false).map fun h => h.blk).eraseDups.foldl (fun s b => s.releaseHeld b) s

/-- An earlier access of the thread is still to come: one that acquires, one on a block of the run, a posted one, or an
earlier run (05 R75, 11 R187, 19 R316). -/
def State.clrWaits (s : State) (who : Agent) (r : ClrRun) : Bool :=
  match who with
  | .clr c _ =>
    ((s.core c).opsBefore r.ctx r.tid r.id).any (fun o => o.acquires c ||
      o.accs.any fun a => a.st.open && s.clrCovers c r a) ||
    ((s.core c).clrs.any fun q => q.ctx == r.ctx && q.tid == r.tid && decide (q.id < r.id)) ||
    (s.homes.any fun h => h.req.core == c && h.req.ctx == r.ctx && h.tid == r.tid && h.req.who.isNone && decide (h.op < r.id) &&
      s.clrCovers c r { h.acc with va := h.req.addr })
  | _ => false

/-- The block in progress goes to its home: a store's bank, or a controller. -/
def State.clrSend (s : State) (who : Agent) (r : ClrRun) (m : Map) : State :=
  let c := s.agentCore who
  let s := s.modRun who fun _ => r
  match who, s.checkAddr c r.va with
  | .clr .., .ok (.store l t _) => s.presentAt who l t (m.blk % 2 ^ 22)
  | _, _ => (s.modAcc who fun a => { a with map := some m, st := .sent }).toHub who (.clrAtHome who r.next)

/-- CLR_AT_HOME: the block in progress of a run finds its place and is cleared there. -/
def State.clrAtHome (s : State) (who : Agent) (idx : Nat) : State :=
  match s.runOf who with
  | none => s
  | some r =>
    let c := s.agentCore who
    if r.next ≠ idx then s
    else if r.acc.st = .failed then
      s.endClr who r (if r.acc.cause = 256 then .abandoned else if r.acc.cause = 12 then .failed r.acc
        else .trap r.acc.cause r.blockVa)
    else if r.acc.st = .sent then
      match r.acc.map with | some m => s.clrPerform who r m | none => s
    else if r.acc.st ≠ .fresh then s
    else if s.clrWaits who r then s.after 1 (.clrAtHome who idx)
    else
      match r.first with
      | some f =>
        match s.clrNext f r.next with
        | none => s.endClr who r (.trap 5 r.blockVa)
        | some m => s.clrSend who r m
      | none =>
        match s.checkAddr c r.va with
        | .error cause => s.endClr who r (.trap cause r.va)
        | .ok (.store l t off) =>
          if l = 0 then s.endClr who r (.trap 5 r.va)
          else
            let m := s.storeMap l t off
            s.clrSend who { r with first := some { m with key := m.blk } } { m with key := m.blk }
        | .ok (.global pkg _) =>
          if pkg ≠ s.pkgNum then s.sendRemote who pkg r.acc
          else
            let s := if r.acc.map.isNone then s.translate who else s
            match s.runOf who with
            | none => s
            | some r =>
              match r.acc.map with
              | none => s
              | some m =>
                if r.acc.st ≠ .fresh then s
                else s.clrSend who { r with first := some { m with key := m.blk } } { m with key := m.blk }
def execClrAtHome (s : State) : R :=
  match s.ev with
  | some (.clrAtHome who i) => .next (s.clrAtHome who i)
  | _ => .fault .noPendingEvent

/-- WATCH_INCREMENT: the watch table acknowledges, the CLR is performed and the hold released (17 R294). -/
def State.watchIncrement (s : State) (who : Agent) (idx : Nat) : State :=
  match s.runOf who with
  | none => s
  | some r =>
    if r.next ≠ idx then s
    else
      match r.acc.map with
      | none => s
      | some m =>
        match m.watch with
        | none => s
        | some w =>
          let s := s.bumpWatch w
          let s : State := { s with held := s.held.filter fun h => !(h.blk == m.blk && h.who == who) }
          (s.clrPerform who { r with bumped := true } m).releaseHeld m.blk
def execWatchIncrement (s : State) : R :=
  match s.ev with
  | some (.watchIncrement who i) => .next (s.watchIncrement who i)
  | _ => .fault .noPendingEvent

/-! ## Drains (05 R79) -/

/-- A waiter's read completes at the drain with the block's data, before what is held at the block (05 R75, R79). -/
def State.drainRead (s : State) (who : Agent) : State :=
  let d := 1 + Config.freeDelay s.fresh
  let s : State := { s with fresh := s.fresh + 1 }
  let s := s.modAcc who fun a => { a with st := .sent }
  match s.acc who with
  | none => s
  | some a =>
    match a.map with
    | none => s
    | some m => s.readHome who a m d
/-- One descriptor leaves the list: its waiter goes on, or is discarded where it no longer waits. -/
def State.wakeWaiter (s : State) (w : Waiter) : State :=
  match w.desc with
  | .cont addr c asid prio pinned => s.wakeCont w.blk (addr.setWidth 64) c asid prio pinned
  | .parked who .. =>
    match who with
    | .lsu c oi i =>
      match s.op c oi with
      | none => s
      | some o =>
        match o.acc? i with
        | none => s
        | some a =>
          if a.st ≠ .placed then s
          else if (s.ctx c o.ctx).st = .halted then s.modCore c fun k => k.dropOp oi
          else
            match o.kind with
            | .vload .. => s.redoVector c o
            | _ => s.drainRead who
    | _ => s
  | .task sg tk =>
    match s.acc (.task sg tk) with
    | some a => if a.st = .placed then s.drainRead (.task sg tk) else s
    | none => s
  | .copy c _ _ q =>
    match s.acc (.copy c q) with
    | some a =>
      if a.st ≠ .placed then s
      else if (s.cmd c q).any Cmd.orphan then s.after 0 (.copyCommandEnd c q 0 0)
      else s.drainRead (.copy c q)
    | none => s
  | .token pkg tok _ =>
    { s with outbox := s.outbox ++
        [.token pkg tok (w.blk / 64) (BitVec.ofNat 6 (((s.tagOf w.blk w.n).map TagV.gen).getD 0))] }
/-- DRAIN_DESCRIPTOR: one descriptor per cycle in list order; the drain ends with the list, and what is held behind it is
performed. -/
def State.drainDescriptor (s : State) (blk n : Nat) : State :=
  if s.draining blk = false then s
  else
    match s.nextWaiter blk with
    | some w => (({ s with waiters := s.waiters.erase w } : State).wakeWaiter w).after 1 (.drainDescriptor blk n)
    | none => ({ s with fills := s.fills.filter fun f => f.blk != blk } : State).releaseHeld blk
def execDrainDescriptor (s : State) : R :=
  match s.ev with
  | some (.drainDescriptor blk n) => .next (s.drainDescriptor blk n)
  | _ => .fault .noPendingEvent

/-! ## Traps -/

/-- DEFERRED_TRAP_REPORT: a home, copy engine or scheduler reports a trap to its thread (21 R328). -/
def execDeferredTrapReport (s : State) : R :=
  match s.ev with
  | some (.deferredTrapReport c x tid t) =>
    .next (if (s.ctx c x).tid = tid ∧ (s.ctx c x).st ≠ .empty ∧ (s.ctx c x).st ≠ .reserved then
        let s := s.raiseDeferred c x t
        if (s.ctx c x).inHandler then s.wakeCopyPark c x else s
      else s)
  | _ => .fault .noPendingEvent

/-- Of two pending traps the one whose instruction is earlier; deferred traps rank last, in order of arrival. -/
def trapBefore (a b : Trap) : Bool :=
  if a.kind = 2 then false else if b.kind = 2 then true else decide (a.order < b.order)
def firstTrap : List Trap → Option Trap
  | [] => none
  | t :: r =>
    match firstTrap r with
    | none => some t
    | some u => if trapBefore u t then some u else some t

/-- An undeliverable trap halts its context, and the notice says which (21 R330 step 4). -/
def State.undeliverable (s : State) (c : CoreId) (x : CtxId) (t : Trap) : State :=
  let m := s.ctx c x
  let s := s.modCtx c x fun k => { k with traps := k.traps.erase t, delivering := false }
  (s.haltCtx c x (.trap 15)).notify (dieOf c)
    { code := 16, cause := 15, undelivered := t.cause, addr := t.addr, who := s.whoCtx c x, w3 := m.pc, w4 := trapWord3 t }

/-- TRAP_DELIVERY: once nothing of the thread is outstanding, the earliest pending trap is taken (21 R330). -/
def State.trapDelivery (s : State) (c : CoreId) (x : CtxId) : State :=
  let m := s.ctx c x
  if m.delivering = false ∨ m.st = .empty ∨ m.st = .reserved then s
  else if ((s.core c).opsOf x).isEmpty = false ∨ m.park.isSome ∨ m.st ≠ .running then s.after 1 (.trapDelivery c x)
  else
    match firstTrap m.traps with
    | none => s.modCtx c x fun k => { k with delivering := false }
    | some t => if s.deliverable c x then s.takeTrap c x t else s.undeliverable c x t
def execTrapDelivery (s : State) : R :=
  match s.ev with
  | some (.trapDelivery c x) => .next (s.trapDelivery c x)
  | _ => .fault .noPendingEvent

/-! ## Machine checks (05 R88, 21 R341) -/

/-- Physical or coordinate address of a key: a store by the lowest core of its unit. -/
def keyAddr (k : Nat) : Word :=
  if k < 2 ^ 60 then BitVec.ofNat 64 k
  else if isStoreKey k then
    let c := keyCore k
    BitVec.ofNat 64 (2 ^ 63 + levelOfKey k * 2 ^ 58 + coreX c * 2 ^ 50 + coreY c * 2 ^ 42 + k % 2 ^ 22)
  else BitVec.ofNat 64 (codedFrame k)
/-- The die that a key of HBM or of a store belongs to. -/
def keyDie (k : Nat) : Option (BitVec 3) :=
  if k < 2 ^ 57 then none
  else if k < 2 ^ 58 then some (BitVec.ofNat 3 ((k - 2 ^ 57) / 2 ^ 31 / 64))
  else if isStoreKey k then some (dieOf (keyCore k))
  else none
/-- The die whose %supv takes the hub's notices: the lowest that names a core. -/
def State.hubDie (s : State) : BitVec 3 :=
  BitVec.ofNat 3 (((List.range 8).find? fun i => (s.supv[i]?.getD 0).getLsbD 63).getD 0)
/-- MACHINE_CHECK: the consumer, where it is a thread, halts, and the notice goes to %supv. A copy and a task end in steps
of their own. -/
def State.machineCheck (s : State) (src key : Nat) (who : Option Agent) : State :=
  let s := if src = 4 ∧ isCoded key then s.bumpSurface (codedSurface key) 16 else s
  let (syn, s) := (Config.freeWord s.fresh, ({ s with fresh := s.fresh + 1 } : State).msix 1)
  match who with
  | none => s.notify ((keyDie key).getD s.hubDie) { code := src, cause := 12, addr := keyAddr key, w4 := syn }
  | some a =>
    let i := s.agentInfo a
    let note : Word → Notice := fun w3 =>
      { code := src, cause := 12, addr := keyAddr key, who := whoWord i.core i.ctx i.priv.code i.pkg i.asid, w3 := w3, w4 := syn }
    match a with
    | .park c x | .fetch c x => (s.haltCtx c x (.trap 12)).notify (dieOf c) (note (s.ctx c x).pc)
    | _ => s.notify (dieOf i.core) (note i.w5)
def execMachineCheck (s : State) : R :=
  match s.ev with
  | some (.machineCheck src key who) => .next (s.machineCheck src key who)
  | _ => .fault .noPendingEvent

/-! ## Posted operations (11 R187, R188) -/

/-- A launch's first error cause is kept, and its record's Status word is written: in a domain launch by the coordinator, to
which another package's Done carries the cause (11 R188, 03 R49). -/
def State.failLaunch (s : State) (num : BitVec 32) (cause : Nat) : State :=
  match s.launches.find? fun l => l.num == num with
  | none => s
  | some l =>
    if l.status = 3 then s
    else
      let id := s.fresh
      let s := s.modLaunch num fun l => { l with status := 3, cause := cause }
      if l.coord.any fun c => c != s.pkgNum then s
      else
      ({ s with
          fresh := s.fresh + 1
          jobs := s.jobs ++ [{ id := id, kind := .status num, quad := l.quad, asid := l.recAsid
                               acc := some (writeAcc (l.recAddr + 0x50) 8 (BitVec.ofNat 64 (3 + 256 * cause))) }] } :
        State).after 1 (.launchAccept id)

/-- An operation that its home refuses: its launch fails and %supv is told (11 R188). -/
def State.refuse (s : State) (q : RemReq) (cause code : Nat) : State :=
  (s.failLaunch q.launch cause).notify (dieOf q.core)
    { code := 19, addr := q.addr, who := whoWord q.core q.ctx q.priv s.pkgNum q.asid, w3 := q.launch.setWidth 64
      w4 := BitVec.ofNat 64 (if cause = 6 then 6 + 256 * code else 7) }

/-- POSTED_ACK: the home's acknowledgement, with 0 or a refusal: 1 second write, 2 class violation, 3 tag machine check,
4 uncorrectable error, 7 containment of the home. -/
def State.postedAck (s : State) (id refusal : Nat) : State :=
  match s.home id with
  | none => s
  | some h =>
    let q := h.req
    let s := ({ s with homes := s.homes.filter fun k => k.id != id } : State).rememberId q.id
    let s := s.modCtx q.core q.ctx fun t => if t.tid = h.tid then { t with posted := t.posted - 1 } else t
    let s := if refusal = 0 ∧ (q.addr.extractLsb' 52 5 ≠ s.pkgNum ∨ h.acc.map.any fun m => !m.isBlock) then
        s.markPlain q.core q.ctx h.tid none else s
    let s := if refusal = 0 then s else s.refuse q (if refusal = 7 then 7 else 6) refusal
    if h.counted then s.settle q.launch h.pre else s
def execPostedAck (s : State) : R :=
  match s.ev with
  | some (.postedAck id r) => .next (s.postedAck id r)
  | _ => .fault .noPendingEvent

end Sys2Proof.Machine
end

