-- ==== Sys2Proof/Machine/FaultEvents.lean ====
section
/-! DEFINITION. Notices, emulation requests, walks, page faults, fetch and the home hub's requests (07 R112, R387; 21
R333–R340, R388; 05 R79). -/
namespace Sys2Proof.Machine

/-! ## Notices and requests to firmware -/

/-- The core that a %supv or %fltsvc register names, none while V = 0 (21 Table 21-8). -/
def targetOf (w : Word) : Option CoreId := if w.getLsbD 63 then some (w.setWidth 16) else none
def State.supvOf (s : State) (die : BitVec 3) : Option CoreId := targetOf s.supv[die.toNat]
/-- A message or notice lost for want of a target is counted in the die's status (21 R336). -/
def State.countLost (s : State) (die : BitVec 3) : State :=
  { s with sys := { s.sys with lost := s.sys.lost.set die.toNat (s.sys.lost[die.toNat] + 1) } }

/-- SUPERVISOR_NOTICE (21 R388, Table 21-12). -/
def State.supervisorNotice (s : State) (die : BitVec 3) (n : Notice) : State :=
  match s.supvOf die with
  | none => s.countLost die
  | some t =>
    s.hwMsg t (n.who.extractLsb' 32 16) (n.who.extractLsb' 48 4) 3
      [BitVec.ofNat 64 (n.undelivered % 256 * 65536 + n.code % 256 * 256 + n.cause % 256), n.addr, n.who, n.w3, n.w4, n.w5,
       n.w6, s.cycW]
def execSupervisorNotice (s : State) : R :=
  match s.ev with
  | some (.supervisorNotice d n) => .next (s.supervisorNotice d n)
  | _ => .fault .noPendingEvent

/-- What a context's I-TLB says of its PC, an address of this package. -/
def State.fetchMap (s : State) (c : CoreId) (x : CtxId) : Option Map :=
  let t := s.ctx c x
  let off := t.pc.toNat % 2 ^ 52
  if t.pc.extractLsb' 52 5 = s.pkgNum then
    (findTlb (s.core c).itlb t.asid off t.priv 3).map fun e => s.leafMap e off
  else none
/-- Key of the fetch block at a context's PC; code of another package is held under the name of its line. -/
def State.fetchKey (s : State) (c : CoreId) (x : CtxId) : Option Nat :=
  let t := s.ctx c x
  let off := t.pc.toNat % 2 ^ 52
  let half := off % 64 / 32 * 32
  if t.pc.extractLsb' 52 5 = s.pkgNum then (s.fetchMap c x).map fun m => m.key + half
  else some (aliasLine (t.pc.extractLsb' 52 5) t.asid off * 64 + half)
/-- The fetch block there, as the code cache holds it. -/
def State.codeAt (s : State) (c : CoreId) (x : CtxId) : Option (BitVec 256) :=
  (s.fetchKey c x).bind fun k => SMap.get none (s.core c).code k

/-- ILLEGAL_ENCODING: the thread issues nothing further and its context is halting (07 R112). The 16 bytes that its request
will carry are those that were fetched (07 Table 7-12). -/
def State.illegalEncoding (s : State) (c : CoreId) (x : CtxId) (reason len : Nat) : State :=
  let bits := (((s.codeAt c x).getD 0) >>> (8 * ((s.ctx c x).pc.toNat % 32))).setWidth 128
  (s.startHalt c x (.illegal reason len bits)).after 1 (.emulationRequest c x reason)
def execIllegalEncoding (s : State) : R :=
  match s.ev with
  | some (.illegalEncoding c x r) =>
    .next (s.illegalEncoding c x (r % 16) (r / 16))
  | _ => .fault .noPendingEvent

/-- Every access that the thread issued has been performed: its operations, its posted ones and its clears (07 R113). -/
def State.allPerformed (s : State) (c : CoreId) (x : CtxId) : Bool :=
  ((s.core c).opsOf x).isEmpty && (s.ctx c x).posted == 0 &&
    (s.core c).clrs.all fun r => !(r.ctx == x && r.tid == (s.ctx c x).tid)
/-- EMULATION_REQUEST: once no operation is outstanding the context is halted, and once every access of the thread has been
performed the request is sent (07 R112, R113, Table 7-12). -/
def State.emulationRequest (s : State) (c : CoreId) (x : CtxId) (reason : Nat) : State :=
  let t := s.ctx c x
  match t.halt with
  | some (.illegal r len bits) =>
    if r ≠ reason then s
    else if ((s.core c).opsOf x).isEmpty = false then s.after 1 (.emulationRequest c x reason)
    else
      let s := s.modCtx c x fun m => { m with st := .halted }
      if s.allPerformed c x = false then s.after 1 (.emulationRequest c x reason)
      else
      match s.supvOf (dieOf c) with
      | none => s.countLost (dieOf c)
      | some d =>
        s.hwMsg d c x 2
          [(t.asid.setWidth 64 <<< 32) ||| BitVec.ofNat 64 (reason % 256 * 2 ^ 24 + len % 16 * 2 ^ 20) |||
             (x.setWidth 64 <<< 16) ||| c.setWidth 64,
           t.pc, bits.setWidth 64, bits.extractLsb' 64 64]
  | _ => s
def execEmulationRequest (s : State) : R :=
  match s.ev with
  | some (.emulationRequest c x r) => .next (s.emulationRequest c x r)
  | _ => .fault .noPendingEvent

/-! ## Walks (21 R337–R340) -/

/-- A queued walk of the group starts when a walker is free (21 R339). -/
def State.startWalk (s : State) (g : BitVec 16) : State :=
  match s.walks.find? fun w => w.grp == g && !w.started with
  | none => s
  | some w =>
    ({ s with walks := s.walks.map fun v => if v.id = w.id then { v with started := true } else v } : State).afterFree
      (.walk g w.id)
/-- A translation is cached, from a walk that has succeeded for some agent (21 R340). -/
def State.keepWalk (s : State) (w : Walk) (e : TlbEnt) : State :=
  let g := if w.grp = 0xFFFF then none else some w.grp
  if (s.l2 g).contains e then s else (s.rememberTable w.grp.toNat e (w.va.toNat % 2 ^ 52)).putL2 g e
/-- A walk's result reaches one of its waiters. -/
def State.walkResult (s : State) (w : Walk) (r : WalkRes) (who : Agent) : State :=
  let i := s.agentInfo who
  match s.acc who with
  | none => s
  | some a =>
    if a.st ≠ .walking ∨ a.va.toNat / 4096 ≠ w.va.toNat / 4096 then s
    else
      match r with
      | .busy _ => s
      | .bad k _ => ((s.sample i.grp none).modAcc who fun b => { b with pte := some k }).answer who 1 (.bad who.idx)
      | .leaf e _ =>
        let s := s.sample i.grp (some e.pte)
        match leafFault e.e1 i.priv (s.accKind who) with
        | some k => s.fail who k (pteSize e.e0 / 4) e.e0 e.e1 a.va
        | none => (((s.keepWalk w e).putL1 who e).translated who e a.va).resumeAgent who 0
      | .fault k l e0 e1 _ => (s.sample i.grp none).fail who k l e0 e1 a.va
/-- The walk has read a table of the second tier. -/
def WalkRes.tier2 : WalkRes → Bool
  | .bad _ t | .leaf _ t | .fault _ _ _ _ t => t
  | .busy _ => false
/-- The event "second-tier walk" is counted once, at the core of the agent that began the walk (21 R337). -/
def State.countWalk (s : State) (w : Walk) (r : WalkRes) : State :=
  match w.waiters.head? with
  | some who =>
    let i := s.agentInfo who
    if r.tier2 ∧ i.pkg = s.pkgNum ∧ i.code ≠ 6 then s.count i.core 16 else s
  | none => s
/-- WALK: the walk completes with a translation, which is cached, or with a fault, which installs nothing. -/
def State.walk (s : State) (g : BitVec 16) (id : Nat) : State :=
  match s.walks.find? fun w => w.id == id && w.grp == g with
  | none => s
  | some w =>
    let off := w.va.toNat % 2 ^ 52
    match if w.root then s.walkAll w.asid off else s.walkVia g.toNat w.asid off with
    | .busy k => (s.nudge k).after 1 (.walk g id)
    | r =>
      let s : State := { s with walks := s.walks.filter fun v => v.id != id }
      (w.waiters.foldl (fun s who => s.walkResult w r who) (s.countWalk w r)).startWalk g
def execWalk (s : State) : R :=
  match s.ev with
  | some (.walk g id) => .next (s.walk g id)
  | _ => .fault .noPendingEvent

/-! ## Faults (21 R333–R336) -/

def faultKey (table entry : Nat) : Nat := table * 65536 + entry
def State.faultEnt (s : State) (table entry : Nat) : Option FaultEnt := SMap.get none s.faults (faultKey table entry)
def State.setFault (s : State) (table entry : Nat) (e : Option FaultEnt) : State :=
  { s with faults := SMap.set none s.faults (faultKey table entry) e }
/-- Handle of 21 Table 21-5. -/
def handleOf (seq : BitVec 12) (table entry : Nat) : BitVec 32 :=
  seq ++ BitVec.ofNat 4 table ++ BitVec.ofNat 16 entry
/-- The fault record (21 Table 21-6). -/
def faultWords (f : FaultInfo) (h : BitVec 32) (cyc : Nat) : List Word :=
  [BitVec.ofNat 64 (f.level % 8 * 2 ^ 48 + f.access % 8 * 2 ^ 44 + f.agent % 8 * 2 ^ 40 + f.kind % 256 * 2 ^ 32) ||| h.setWidth 64,
   f.addr, whoWord f.core f.ctx f.priv f.pkg f.asid, f.e0, f.e1, f.w5, f.w6, BitVec.ofNat 64 cyc]
/-- The entries of a table. -/
def State.tableEnts (s : State) (t : Nat) : List (Nat × FaultEnt) :=
  s.faults.filterMap fun e => if e.1 / 65536 = t then e.2.map fun f => (e.1 % 65536, f) else none
def tableCap (t : Nat) : Nat := if t = 8 then 256 else 4096
/-- The service core of a table, none while its register has V = 0. The home fault queue's, this package's own far atomics
and posted operations among them, is named by BAR0 0x3018 (log entry 77). -/
def State.faultTarget (s : State) (t : Nat) : Option CoreId :=
  if h : t < 8 then targetOf s.fltsvc[t] else targetOf (s.bar 0x3018)

/-- A fault is abandoned for an agent (15 R268): a thread halts and a notice names it, as it does any agent whose fault
message has no target (21 R388); any other agent ends its access. -/
def State.abandon (s : State) (who : Agent) (f : FaultInfo) (h : BitVec 32) (unsent : Bool := false) : State :=
  let note : Notice :=
    { code := 17, addr := f.addr, who := whoWord f.core f.ctx f.priv f.pkg f.asid, w3 := h.setWidth 64
      w4 := (faultWords f h 0).headD 0 }
  let thread : Bool := match who with
    | .lsu .. | .clr .. | .park .. | .fetch .. => true
    | .home i => (s.home i).any fun h => h.req.who.isSome
    | _ => false
  let s := if thread ∨ unsent then s.notify (dieOf f.core) note else s
  match who with
  | .park c x | .fetch c x => ((s.setAcc who none).haltCtx c x (.trap 0)).after 1 (s.resumeEvent who)
  | .home i => (s.modHome i fun r => { r with fault := (h.setWidth 64, note.w4) }).answer who 1 (.abandoned 0)
  | _ => s.answer who 1 (.abandoned who.idx)

/-- FAULT_POST: the fault joins a matching entry, takes a new one and sends its message, or finds the table full. -/
def State.faultPost (s : State) (who : Agent) (f : FaultInfo) : State :=
  match s.acc who with
  | none => s
  | some a =>
    if a.st ≠ .faulted then s
    else
      let ents := s.tableEnts f.table
      match ents.find? fun e => e.2.info.asid == f.asid && e.2.info.addr.toNat / 4096 == f.addr.toNat / 4096 &&
          e.2.info.access == f.access && e.2.info.kind == f.kind with
      | some (i, e) => s.setFault f.table i (some { e with waiters := e.waiters ++ [who] })
      | none =>
        match s.faultTarget f.table with
        | none =>
          let s := if (f.agent ≤ 3 ∨ f.agent = 5) ∧ f.pkg = s.pkgNum then s.count f.core 13 else s
          (s.countLost (dieOf f.core)).abandon who f 0 true
        | some t =>
          match (List.range (min (ents.length + 1) (tableCap f.table))).find? fun i => ents.all fun e => e.1 != i with
          | none =>
            match who with
            | .home i =>
              match s.home i with
              | some h =>
                if h.req.id.extractLsb' 35 5 = s.pkgNum then s.after 1024 (.remoteRetry i)
                else { s with homes := s.homes.filter fun k => k.id != i, outbox := s.outbox ++ [.reply h.req.id (.retry 0)] }
              | none => s
            | _ => (if f.agent = 6 then s else s.count f.core 12).after 256 (.faultTableRetry who)
          | some i =>
            let seq := SMap.get 0 s.faultSeq (faultKey f.table i) + 1
            let s : State := { s with faultSeq := SMap.set 0 s.faultSeq (faultKey f.table i) seq }
            (s.setFault f.table i (some { info := f, seq := seq, cyc := s.cyc, waiters := [who] })).hwMsg t f.core f.ctx 1
              (faultWords f (handleOf seq f.table i) s.cyc)
def execFaultPost (s : State) : R :=
  match s.ev with
  | some (.faultPost who f) => .next (s.faultPost who f)
  | _ => .fault .noPendingEvent

/-- The access of an agent that waited at its replay point is translated and made again. -/
def State.replay (s : State) (who : Agent) : State :=
  match s.acc who with
  | some a =>
    if a.st = .faulted then (s.modAcc who fun b => { b with st := .fresh, map := none, root := true }).resumeAgent who 1 else s
  | none => s
def execFaultTableRetry (s : State) : R :=
  match s.ev with
  | some (.faultTableRetry who) => .next (s.replay who)
  | _ => .fault .noPendingEvent

/-- The writes that the answering thread issued before its FLTRPL are performed (21 R335). -/
def State.replyReady (s : State) (e : FaultEnt) : Bool :=
  match e.issuer with
  | none => true
  | some (c, x, tid, n) =>
    ((s.core c).opsBefore x tid n).all (fun o => !o.isWrite) &&
      s.homes.all fun h => !(h.req.core == c && h.req.ctx == x && h.tid == tid && h.req.posted && decide (h.op < n))
/-- FAULT_REPLAY: FLTRPL's answer reaches every waiter of the entry, once the thread's earlier writes are performed (21 R335,
15 R268). -/
def State.faultReplay (s : State) (t i : Nat) (outcome : BitVec 2) : State :=
  match s.faultEnt t i with
  | none => s
  | some e =>
    if s.replyReady e = false then s.after 1 (.faultReplay t i outcome)
    else
      let s := s.setFault t i none
      if outcome = 0 then e.waiters.foldl (fun s w => s.replay w) s
      else
        let h := handleOf e.seq t i
        e.waiters.foldl (fun s w =>
          s.abandon w (s.faultInfo w e.info.kind e.info.level e.info.e0 e.info.e1
            (((s.acc w).map Access.va).getD e.info.addr) e.info.access) h) s
def execFaultReplay (s : State) : R :=
  match s.ev with
  | some (.faultReplay t i o) => .next (s.faultReplay t i o)
  | _ => .fault .noPendingEvent

/-! ## Fetch (07 R95, R387) -/

/-- Install a fetch block; where the code ways are full, a block of the device's choice goes (07 R387). -/
def Core.putCode (k : Core) (key : Nat) (x : BitVec 256) (victim : Nat) : Core :=
  let cap := popCount k.ways * 128
  let l := k.code.filter fun e => e.1 != key
  let l := if l.length < cap then l else l.eraseIdx (victim % l.length)
  { k with code := SMap.set none l key (some x) }
/-- A fetch ends: the context competes again. -/
def Ctx.endFetch (t : Ctx) : Ctx :=
  { t with acc := none, park := none, st := if t.st = .parked then .running else t.st }
/-- FETCH_BLOCK_FILL: the block at a fetch's address is read as a load would be and installed. Its class violation has the
issue kind and length 0 (log entry 72). -/
def State.fetchBlockFill (s : State) (c : CoreId) (x : CtxId) : State :=
  let who := Agent.fetch c x
  let t := s.ctx c x
  if t.park ≠ some .fetch then s
  else
    match t.acc with
    | none => s
    | some a =>
      match a.st with
      | .fresh => s.go who
      | .done =>
        let key := match a.map with
          | some m => m.key
          | none => aliasLine (a.va.extractLsb' 52 5) t.asid (a.va.toNat % 2 ^ 52) * 64
        let (v, s) := s.choose 4096
        (s.modCore c fun k => k.putCode (key + a.va.toNat % 64 / 32 * 32)
          (a.rdata.extractLsb' (8 * (a.va.toNat % 64 / 32 * 32)) 256) v).modCtx c x Ctx.endFetch
      | .failed =>
        let s := s.modCtx c x Ctx.endFetch
        if a.cause = 12 then s.checkFail a who
        else s.raise c x { kind := 0, cause := a.cause, pc := t.pc, addr := t.pc, order := (s.core c).nextId }
      | _ => s
def execFetchBlockFill (s : State) : R :=
  match s.ev with
  | some (.fetchBlockFill c x _) => .next (s.fetchBlockFill c x)
  | _ => .fault .noPendingEvent

/-! ## Requests at the home hub (21 R338, 11 R186–R188) -/

/-- Refusal code of a posted operation by its access's failure. An abandoned fault and a dead owner, for which 21 Table 21-13
has no code, give 4 (log entry 78). -/
def refusalOf (cause : Nat) (tagBad : Bool) : Nat :=
  match cause with
  | 2 => 1
  | 5 => 2
  | 12 => if tagBad then 3 else 4
  | _ => 4
/-- The reply that a performed or refused request carries (21 R338, 11 R188). -/
def HomeReq.reply (h : HomeReq) (i code : Nat) : Reply :=
  let a := h.acc
  if a.st = .failed then
    if h.req.posted then .refusal i code
    else if a.cause = 256 then .abandoned i h.fault.1 h.fault.2
    else if a.cause = 12 then .bad i
    else .trap i a.cause
  else if a.st = .notFull then .notFull i
  else if a.st = .placed then .placed i
  else if a.st = .relist then .refused i
  else
    match a.op with
    | .rmw .. => if h.req.posted then .ack i else .old i (a.rdata.setWidth 128)
    | .write .. | .clear _ => .ack i
    | .ldq | .ldtry | .bwait => .tag i a.tag a.written a.rdata
    | .locate => match a.map with | some m => .block i m.blk m.n | none => .ack i
    | _ => .data i a.rdata
/-- A request is performed or refused: its reply, value or acknowledgement goes back (21 R338, 11 R187, R188). A far atomic
whose fault was abandoned is refused besides (15 R268). -/
def State.finishHome (s : State) (h : HomeReq) : State :=
  let a := h.acc
  let code := if a.st = .failed then refusalOf a.cause (a.map.any fun m => m.isBlock && (s.tagOf m.blk m.n).isNone) else 0
  if h.req.posted ∧ h.req.id.extractLsb' 35 5 = s.pkgNum then
    let a := sgIdx h.req.core
    s.meshAfter (s.hubRouter a) a .response (.postedAck h.id code)
  else
    let s := ({ s with homes := s.homes.filter fun k => k.id != h.id } : State).rememberId h.req.id
    match h.req.who with
    | some who =>
      let s := if a.st = .failed then (if a.cause = 256 then s.refuse h.req 6 code else s)
        else if opWrites a.op (a.rdata.setWidth 128) then s.markPlain h.req.core h.req.ctx h.tid a.map else s
      (s.modAcc who fun b => { b with map := a.map, pte := a.pte }).answerHub who (h.reply who.idx code)
    | none => { s with outbox := s.outbox ++ [.reply h.req.id (h.reply 0 code)] }

/-- An earlier request of the same thread to the same line, which the home performs first (11 R187). Those of another package
come in the order in which its threads sent them. -/
def State.homeWaits (s : State) (h : HomeReq) : Bool :=
  let from' := fun (k : HomeReq) => (k.req.id.extractLsb' 35 5 : BitVec 5)
  s.homes.any fun k => k.req.core == h.req.core && k.req.ctx == h.req.ctx && k.tid == h.tid && from' k == from' h &&
    decide (if from' h = s.pkgNum then k.op < h.op else k.id < h.id) && k.run.isNone &&
    k.req.addr.extractLsb' 52 5 == s.pkgNum && k.acc.st != .done && k.acc.st != .failed && k.acc.st != .placed &&
    s.sameLine h.req.core h.req.asid { k.acc with va := k.req.addr } { h.acc with va := h.req.addr }
/-- An atomic or posted operation, which its home keeps behind the thread's earlier ones to the line (11 R185, R187). -/
def HomeReq.ordered (h : HomeReq) : Bool :=
  h.req.posted || (match h.req.op with | .rmw .. => true | _ => false)
/-- REMOTE_REQUEST: the home hub translates a request and performs it, at most once (21 R338). -/
def State.remoteRequest (s : State) (r : RemReq) : State :=
  match s.homes.find? fun h => h.req.id == r.id with
  | none =>
    if s.doneIds.contains r.id ∨ r.id.extractLsb' 35 5 = s.pkgNum then s
    else
      let id := s.fresh
      let a : Access := { va := r.addr, mask := BitVec.allOnes 64, op := r.op }
      let run : Option ClrRun := match r.op with
        | .clear n => some { id := id, ctx := r.ctx, tid := 0, pc := 0, va := r.addr, asid := r.asid, priv := Priv.ofCode r.priv,
                             count := n, acc := a }
        | _ => none
      let s : State := { s with fresh := s.fresh + 1, homes := s.homes ++ [{ id := id, req := r, acc := a, run := run }] }
      if run.isSome then s.after 0 (.clrAtHome (.home id) 0) else s.after 0 (.remoteRequest r)
  | some h =>
    match h.acc.st with
    | .fresh =>
      if h.ordered ∧ s.homeWaits h then s.after 1 (.remoteRequest r) else s.go (.home h.id)
    | .done | .failed | .notFull | .relist => s.finishHome h
    | .placed =>
      { s with homes := s.homes.filter fun k => k.id != h.id, outbox := s.outbox ++ [.reply h.req.id (h.reply 0 0)] }
    | _ => s
def execRemoteRequest (s : State) : R :=
  match s.ev with
  | some (.remoteRequest r) => .next (s.remoteRequest r)
  | some (.requestLeave p r) => .next { s with outbox := s.outbox ++ [.request p r] }
  | some (.hubAccess who) => .next (s.hubAccess who)
  | _ => .fault .noPendingEvent

/-- REMOTE_RETRY: a request that the home turned away is sent again with its id, which numbers from 2^40 name (21 R338). -/
def State.remoteRetry (s : State) (id : Nat) : State :=
  if 2 ^ 40 ≤ id then
    match s.sys.tokens.find? fun t => t.req.id.toNat == id - 2 ^ 40 with
    | some t => { s with outbox := s.outbox ++ [.request t.pkg t.req] }
    | none => s
  else
    match s.home id with
    | none => s
    | some h =>
      let s := s.modHome id fun k => { k with acc := { k.acc with st := .fresh, map := none } }
      let p := h.req.addr.extractLsb' 52 5
      if p = s.pkgNum then s.go (.home id) else { s with outbox := s.outbox ++ [.request p h.req] }
def execRemoteRetry (s : State) : R :=
  match s.ev with
  | some (.remoteRetry id) => .next (s.remoteRetry id)
  | _ => .fault .noPendingEvent

/-- REMOTE_TOKEN_WAKE: the reader that a token names proceeds as though the block had filled at home: a suspended one's
continuation is placed, and one that is about to suspend is placed then (05 R79, 03 R40). -/
def State.remoteTokenWake (s : State) (tok : BitVec 32) : State :=
  match s.sys.tokens.find? fun t => t.req.id.setWidth 32 == tok with
  | none => s
  | some t =>
    let who := t.who
    let s : State := { s with sys := { s.sys with tokens := s.sys.tokens.filter fun u => u != t } }
    match t.cont with
    | some (.cont a c asid prio pinned) => s.wakeCont 0 (a.setWidth 64) c asid prio pinned
    | _ =>
    match s.acc who with
    | some a =>
      if (match who with | .lsu c o _ => (s.op c o).any fun (p : Op) => p.suspends | _ => false) then s
      else if a.st = .sent ∨ a.st = .placed then (s.modAcc who fun b => { b with st := .fresh }).resumeAgent who 1 else s
    | none => s
def execRemoteTokenWake (s : State) : R :=
  match s.ev with
  | some (.remoteTokenWake t) => .next (s.remoteTokenWake t)
  | _ => .fault .noPendingEvent

end Sys2Proof.Machine
end

