-- ==== Sys2Proof/Machine/Copy.lean ====
section
/-! DEFINITION. Copy commands, the copy engine and the tag table (13 R211–R237; 05 R83). -/
namespace Sys2Proof.Machine

/-! ## Compact addresses (13 Table 13-6) -/

def compactAddr (a : Word) : BitVec 52 :=
  if isCoord a then
    1#1 ++ a.extractLsb' 62 1 ++ a.extractLsb' 58 2 ++ a.extractLsb' 50 8 ++ a.extractLsb' 42 8 ++ 0#16 ++ a.extractLsb' 6 16
  else 0#1 ++ a.extractLsb' 6 51
def expandAddr (x : BitVec 52) : Word :=
  if x.getLsbD 51 then
    1#1 ++ x.extractLsb' 50 1 ++ 0#2 ++ x.extractLsb' 48 2 ++ x.extractLsb' 40 8 ++ x.extractLsb' 32 8 ++ 0#20 ++
      x.extractLsb' 0 16 ++ 0#6
  else 0#7 ++ x.extractLsb' 0 51 ++ 0#6

/-- Words +0x00 and +0x08 of a command (13 Table 13-5). -/
def cmdWord0 (o : CopyOpt) (dst : Word) : Word := 0#7 ++ BitVec.ofBool o.bar ++ o.barrier ++ o.queue ++ compactAddr dst
def cmdWord1 (src : Word) (len : Nat) : Word := BitVec.ofNat 12 (len / 64 - 1) ++ compactAddr src
def Cmd.bar (m : Cmd) : Bool := m.word0.getLsbD 56
def Cmd.barrier (m : Cmd) : BitVec 2 := m.word0.extractLsb' 54 2
def Cmd.queue (m : Cmd) : BitVec 2 := m.word0.extractLsb' 52 2
def Cmd.len (m : Cmd) : Nat := 64 * ((m.word1.extractLsb' 52 12).toNat + 1)
/-- Addresses of the granule in progress, confined to the offset field for a coordinate address (13 R206). -/
def Cmd.dst (m : Cmd) : Word := laneEa (expandAddr (m.word0.setWidth 52)) (BitVec.ofNat 64 m.off)
def Cmd.src (m : Cmd) : Word := laneEa (expandAddr (m.word1.setWidth 52)) (BitVec.ofNat 64 m.off)

/-! ## Issue (13 R223–R226) -/

/-- A run that a copy instruction forms a command for. -/
structure CopyPart where
  dst : Word
  src : Word
  len : Nat
deriving DecidableEq, Repr

/-- What the first steps of 13 R225 and the forming of commands answer: a trap's cause, address and detail, failing data, or
the runs. -/
inductive CopyForm where
  | trap (cause : Nat) (addr : Word) (detail : Nat)
  /-- A list entry's granule fails its check. -/
  | bad (key : Nat)
  | parts (l : List CopyPart)
deriving DecidableEq, Repr

/-- Step 7 of 13 R225: every source and destination, start and end; of an empty run the start alone. -/
def State.copyEnds (s : State) (l : List CopyPart) : Option (Nat × Word) :=
  l.findSome? fun q =>
    let last : Word := BitVec.ofNat 64 (q.len - 1)
    (if q.len = 0 then [q.dst, q.src] else [q.dst, laneEa q.dst last, q.src, laneEa q.src last]).findSome? fun a =>
      match s.checkAddr s.slot a with
      | .error cause => some (cause, a)
      | .ok _ => none

/-- Not a multiple of 64. -/
def odd64 (a : Word) : Bool := a.toNat % 64 != 0

/-- COPY's runs of at most 256 KiB. -/
def copyForm (dst src len : Word) : CopyForm :=
  let l := len.toNat
  if 8 * 2 ^ 20 < l then .trap 8 0 1
  else if odd64 len then .trap 1 0 0
  else if odd64 dst then .trap 1 dst 0
  else if odd64 src then .trap 1 src 0
  else if l = 0 then .parts [⟨dst, src, 0⟩]
  else .parts ((List.range ((l + 262143) / 262144)).map fun k =>
    ⟨laneEa dst (BitVec.ofNat 64 (262144 * k)), laneEa src (BitVec.ofNat 64 (262144 * k)), min 262144 (l - 262144 * k)⟩)
/-- COPYS's rows. -/
def copysForm (dst src len rows srcStride dstStride : Word) : CopyForm :=
  if 262144 < len.toNat ∨ rows = 0 ∨ 32 < rows.toNat then .trap 8 0 1
  else if odd64 len ∨ odd64 srcStride ∨ odd64 dstStride then .trap 1 0 0
  else if odd64 dst then .trap 1 dst 0
  else if odd64 src then .trap 1 src 0
  else .parts ((List.range rows.toNat).map fun r =>
    ⟨laneEa dst (BitVec.ofNat 64 r * dstStride), laneEa src (BitVec.ofNat 64 r * srcStride), len.toNat⟩)
/-- Entry `i` of a COPYG list in the local store of the issuing core. -/
def State.listKey (s : State) (list : Word) (i : Nat) : Nat :=
  localKey s.slot + coordOff (laneEa list (BitVec.ofNat 64 (8 * i)))
def State.listWord (s : State) (list : Word) (i : Nat) : Word := s.word (s.listKey list i)
/-- COPYG's elements: `scatter` swaps source and destination. -/
def State.copygForm (s : State) (scatter : Bool) (base list len count : Word) : CopyForm :=
  if 262144 < len.toNat ∨ count = 0 ∨ 32 < count.toNat then .trap 8 0 1
  else if odd64 len then .trap 1 0 0
  else if odd64 base then .trap 1 base 0
  else if ¬isCoord list ∨ coordLevel list ≠ 0 then .trap 5 list 0
  else
    let ends := [list, laneEa list (BitVec.ofNat 64 (8 * count.toNat - 1))]
    match ends.findSome? fun a => (match s.checkAddr s.slot a with | .error e => some (e, a) | .ok _ => none) with
    | some e => .trap e.1 e.2 0
    | none =>
      if aligned list 8 = false then .trap 1 list 0
      else
        match ((List.range count.toNat).map (s.listKey list)).find? fun k => s.eccOf k == 2 with
        | some k => .bad (k / 64 * 64)
        | none =>
        let es := (List.range count.toNat).map fun i => s.listWord list i
        match es.find? odd64 with
        | some e => .trap 1 e 0
        | none =>
          .parts ((List.range count.toNat).map fun i =>
            let e := es.getD i 0
            let m := laneEa base (BitVec.ofNat 64 i * len)
            if scatter then ⟨e, m, len.toNat⟩ else ⟨m, e, len.toNat⟩)

/-- Admit `l` runs as commands of the issuing thread (13 R226). -/
def State.admitCopies (s : State) (c : Ctx) (o : CopyOpt) (l : List CopyPart) : State :=
  let n := s.opId
  (s.modCore s.slot fun k =>
    { k with
      nextId := k.nextId + l.length
      cmds := k.cmds ++ (List.range l.length).map fun i =>
        let q := l.getD i ⟨0, 0, 64⟩
        { seq := n + i, ctx := s.cx, tid := c.tid, pc := c.pc, word0 := cmdWord0 o q.dst, word1 := cmdWord1 q.src q.len,
          asid := c.asid, priv := c.priv, launch := c.launch, held := c.batch } }).after 1 (.copyAdmit s.slot s.cx)
/-- Room for `n` more commands of the context's thread and of the core (13 R211). -/
def Core.copyRoom (k : Core) (x : CtxId) (n : Nat) : Bool :=
  decide ((k.cmdsOf x).length + n ≤ 32) && decide (k.cmds.length + n ≤ 96)

/-- A copy instruction (13 R225, R226; 19 R390): its checks, then its commands once earlier writes have drained and there
is room; at the thread's limit it closes an open batch. -/
def copyInstr (p : Pred) (o : CopyOpt) (s : State) (form : Ctx → State → CopyForm) : R :=
  issue .any p 16 s fun c t =>
    match form c t with
    | .trap cause a d => .trap cause a d 1
    | .bad k => .ok (t.checkAtIssue c k)
    | .parts l =>
      match t.copyEnds l with
      | some e => .trap e.1 e.2 0 1
      | none =>
        if l.all fun q => q.len == 0 then .ok (s.skipped 16)
        else if (t.myCore.drained t.cx) = false then .lose
        else if t.myCore.copyRoom t.cx l.length then .ok (t.admitCopies c o l)
        else .lose fun s => if 32 < (s.myCore.cmdsOf s.cx).length + l.length then s.closeBatch s.slot s.cx else s

def execCopy (p : Pred) (o : CopyOpt) (a b c : G) (s : State) : R :=
  copyInstr p o s fun k _ => copyForm (k.getG a) (k.getG b) (k.getG c)
def execCopys (p : Pred) (o : CopyOpt) (a b c e1 e2 e3 : G) (s : State) : R :=
  copyInstr p o s fun k _ => copysForm (k.getG a) (k.getG b) (k.getG c) (k.getG e1) (k.getG e2) (k.getG e3)
def execCopygG (p : Pred) (o : CopyOpt) (a b c e1 : G) (s : State) : R :=
  copyInstr p o s fun k t => t.copygForm false (k.getG a) (k.getG b) (k.getG c) (k.getG e1)
def execCopygS (p : Pred) (o : CopyOpt) (a b c e1 : G) (s : State) : R :=
  copyInstr p o s fun k t => t.copygForm true (k.getG a) (k.getG b) (k.getG c) (k.getG e1)

/-! ## Batches and waits (13 R227–R233) -/

def State.closeMine (s : State) : State := s.closeBatch s.slot s.cx
def execCbatchOpen (p : Pred) (s : State) : R :=
  issue .any p 8 s fun _ t => .ok (t.closeMine.modMe fun m => { m with batch := true })
def execCbatchClose (p : Pred) (s : State) : R := issue .any p 8 s fun _ t => .ok t.closeMine
def execCwait (p : Pred) (mask : BitVec 4) (s : State) : R :=
  issue .any p 8 s fun c t =>
    let t := t.closeMine
    .ok (if t.myCore.pendingCmds t.cx mask t.opId then t.parkMe c (.cwait mask t.opId) else t)
def execCbinit (p : Pred) (k : BitVec 2) (count : BitVec 32) (s : State) : R :=
  issue .any p 12 s fun _ t =>
    .ok (t.modMe fun m => { m with bars := m.bars.set k.toNat { pending := count, armed := true, init := count } })
def execCbwait (p : Pred) (k : BitVec 2) (s : State) : R :=
  issue .any p 8 s fun c t =>
    let t := t.closeMine
    let b := t.me.bars[k.toNat]
    .ok (if b.armed = false then t
      else if b.pending = 0 then t.modMe fun m => { m with bars := m.bars.set k.toNat { b with armed := false } }
      else t.parkMe c (.cbwait k))
/-- Tickets of the thread's tasks outstanding in the queues of a mask. -/
def State.taskTickets (s : State) (c : CoreId) (x : CtxId) (mask : BitVec 8) : List Word :=
  let t := s.ctx c x
  s.sgs.flatMap fun e =>
    (e.2.tasks.filter fun k =>
      k.core == c && k.ctx == x && k.tid == t.tid && k.st != .done && mask.getLsbD k.queue.toNat).map Task.ticket
def execCqf (p : Pred) (a : G) (s : State) : R :=
  issue .any p 8 s fun c t =>
    let t := t.closeMine
    let g := c.getG a
    let m : BitVec 4 := g.setWidth 4
    let l := t.taskTickets t.slot t.cx (g.extractLsb' 4 8)
    .ok (if t.myCore.pendingCmds t.cx m t.opId ∨ l ≠ [] then t.parkMe c (.cqf m (g.extractLsb' 4 8) t.opId l) else t)

/-- 13 Table 13-9. -/
def Core.cstat (k : Core) (x : CtxId) : Word :=
  let mine := k.cmdsOf x
  let q := fun i : BitVec 2 => (mine.filter fun m => !m.held && m.queue == i).length
  let t := k.ctx x
  let armed := (List.range 4).foldl (fun a i => a + if (t.bars[i]?.map Barrier.armed).getD false then 2 ^ i else 0) 0
  BitVec.ofNat 64 (q 0 + q 1 * 2 ^ 8 + q 2 * 2 ^ 16 + q 3 * 2 ^ 24 + (mine.filter fun m => m.held).length * 2 ^ 32 +
    (if t.batch then 2 ^ 40 else 0) + armed * 2 ^ 44 + (96 - k.cmds.length) * 2 ^ 56)
def execCstat (p : Pred) (d : G) (s : State) : R :=
  issue .any p 8 s fun _ t => .ok (t.putG d (t.myCore.cstat t.cx))
def execCstatBar (p : Pred) (k : BitVec 2) (d : G) (s : State) : R :=
  issue .any p 8 s fun c t =>
    let b := c.bars[k.toNat]
    .ok (t.putG d ((if b.armed then 1 <<< 63 else 0) ||| b.pending.setWidth 64))

/-! ## The tag table (13 R234–R237, 05 Table 5-8) -/

def tagKey (c : CoreId) (i : Nat) : Nat := localKey c + 0xBC00 + 16 * i
/-- Words 63:0 and 127:64 of an entry. -/
def State.tagLo (s : State) (c : CoreId) (i : Nat) : Word := s.word (tagKey c i)
def State.tagHi (s : State) (c : CoreId) (i : Nat) : Word := s.word (tagKey c i + 8)
def State.setTag (s : State) (c : CoreId) (i : Nat) (hi lo : Word) : State :=
  (s.rawWrite (tagKey c i) (spanMask (tagKey c i % 64) 16)
    (((hi ++ lo : BitVec 128).setWidth 512) <<< (8 * (tagKey c i % 64)))).localWritten c (0xBC00 + 16 * i)
def tagMatch (lo : Word) (blk : Word) : Bool := lo.getLsbD 0 && lo.extractLsb' 6 58 == blk.extractLsb' 6 58
/-- TAGL; with a generation, TAGL.G. -/
def State.tagl (s : State) (c : CoreId) (blk : Word) (gen : Option (BitVec 6)) : Word :=
  let l := List.range 64
  let hitGen := fun i => gen.all fun g => (s.tagHi c i).setWidth 6 == g
  match l.find? fun i => tagMatch (s.tagLo c i) blk && hitGen i with
  | some i =>
    BitVec.ofNat 64 (i * 2 ^ 24 + ((s.tagHi c i).setWidth 6).toNat * 2 ^ 16 + ((s.tagHi c i).extractLsb' 32 10).toNat * 64)
  | none =>
    match l.find? fun i => gen.isSome && tagMatch (s.tagLo c i) blk with
    | some i => BitVec.ofNat 64 (2 ^ 63 + 2 ^ 31 + i * 2 ^ 24)
    | none =>
      match l.find? fun i => !(s.tagLo c i).getLsbD 0 with
      | some i => BitVec.ofNat 64 (2 ^ 63 + i * 2 ^ 24)
      | none => BitVec.ofNat 64 (2 ^ 63 + 2 ^ 30)
/-- Entry `i` as an access to the own local store. -/
def tagAccess (i : Nat) : Access :=
  { va := 0xC00000000000BC00 + BitVec.ofNat 64 (16 * i), mask := 0, op := .read }
/-- A tag-table instruction: it issues once the thread's earlier accesses let its own be made in the slot, and halts on an entry
among those it reads that fails its check (13 R234, 05 R88). -/
def tagInstr (p : Pred) (s : State) (on : Ctx → List Nat) (reads : Bool) (body : Ctx → State → State) : R :=
  issue .any p 8 s fun c t =>
    if t.localHeld c ((on c).map tagAccess) then .lose
    else match (on c).find? fun i => reads && t.eccOf (tagKey t.slot i) == 2 with
      | some i => .ok (t.checkAtIssue c (tagKey t.slot i / 64 * 64))
      | none => .ok (body c t)
def execTagl (p : Pred) (d a : G) (s : State) : R :=
  tagInstr p s (fun _ => List.range 64) true fun c t => t.putG d (t.tagl t.slot (c.getG a) none)
def execTaglG (p : Pred) (d a b : G) (s : State) : R :=
  tagInstr p s (fun _ => List.range 64) true fun c t => t.putG d (t.tagl t.slot (c.getG a) (some ((c.getG b).setWidth 6)))
def execTags (p : Pred) (a b c : G) (s : State) : R :=
  tagInstr p s (fun k => [(k.getG a).toNat % 64]) false fun k t =>
    let hi : Word := 0#22 ++ (k.getG c).extractLsb' 6 10 ++ 0#26 ++ (k.getG c).extractLsb' 16 6
    let lo : Word := (k.getG b).extractLsb' 6 58 ++ 0#5 ++ 1#1
    t.setTag t.slot ((k.getG a).toNat % 64) hi lo
/-- Clear V of an entry. -/
def State.tagDrop (s : State) (c : CoreId) (i : Nat) : State :=
  s.setTag c i (s.tagHi c i) (s.tagLo c i &&& ~~~1)
def execTagi (p : Pred) (a : G) (s : State) : R :=
  tagInstr p s (fun c => [(c.getG a).toNat % 64]) true fun c t => t.tagDrop t.slot ((c.getG a).toNat % 64)
def execTagiAll (p : Pred) (s : State) : R :=
  tagInstr p s (fun _ => List.range 64) true fun _ t => (List.range 64).foldl (fun t i => t.tagDrop t.slot i) t
def execTagiBlk (p : Pred) (a : G) (s : State) : R :=
  tagInstr p s (fun _ => List.range 64) true fun c t =>
    (List.range 64).foldl (fun t i =>
      if (t.tagLo t.slot i).extractLsb' 6 58 = (c.getG a).extractLsb' 6 58 then t.tagDrop t.slot i else t) t

/-! ## The copy engine (13 R213–R222) -/

/-- A command heads its queue. -/
def Core.heads (k : Core) (m : Cmd) : Bool :=
  !m.held && k.cmds.all fun q => !(q.ctx == m.ctx && q.tid == m.tid && q.queue == m.queue && decide (q.seq < m.seq))
/-- A beat that it has started is not yet performed. -/
def Cmd.busy (m : Cmd) : Bool := decide (m.off < m.started)
/-- It waits on presence, on a fault reply or for room. -/
def Cmd.waits (m : Cmd) : Bool :=
  m.acc.any fun a => a.st == .placed || a.st == .notFull || a.st == .faulted || a.st == .relist
/-- It can start a beat (13 R215). -/
def Core.canStart (k : Core) (m : Cmd) : Bool := k.heads m && !m.waits && decide (max m.off m.started < m.len)
/-- Where the beat that begins at an offset ends: at the next 256-byte boundary of either side, or at the last granule. -/
def Cmd.beatEnd (m : Cmd) (off : Nat) : Nat :=
  let n : Cmd := { m with off := off }
  min m.len (off + min (256 - n.src.toNat % 256) (256 - n.dst.toNat % 256))
/-- What the thread issued before the copy instruction comes first: an operation that acquires, an access to the same bytes, a
clear of them, a posted operation to them (13 R214, 05 R75, 19 R316). -/
def State.copyWaits (s : State) (c : CoreId) (m : Cmd) (a : Access) : Bool :=
  !s.inOrder c m.ctx m.tid m.seq m.asid a false
/-- Make the access that a command holds, in its order. -/
def State.copyAccess (s : State) (c : CoreId) (m : Cmd) : State :=
  match m.acc with
  | none => s
  | some a =>
    if s.copyWaits c m a = false then s.go (.copy c m.seq)
    else if s.agenda.contains (s.cyc + 1, .copyBeat c) then s else s.after 1 (.copyBeat c)
/-- Read the next granule, the first one of a beat where the beats started so far end here. -/
def State.copyRead (s : State) (c : CoreId) (m : Cmd) : State :=
  let m := { m with started := max m.started (m.beatEnd m.off), issued := true, writing := false
                    acc := some { va := m.src, mask := BitVec.allOnes 64, op := .read } }
  (s.modCmd c m.seq fun _ => m).copyAccess c m
/-- The trap of a failed granule access (13 Table 13-7): cause and detail. -/
def copyTrap (cause : Nat) : Nat × Nat :=
  match cause with
  | 12 => (8, 3)
  | 256 => (8, 5)
  | 257 => (8, 2)
  | 258 => (8, 4)
  | k => (k, 0)
/-- Start a command's next beat. Behind an earlier one in flight its first read is on its way until that one is performed, so
that the result is PerformCommand's. -/
def State.copyStart (s : State) (c : CoreId) (m : Cmd) : State :=
  if m.busy then s.modCmd c m.seq fun m => { m with started := m.beatEnd m.started } else s.copyRead c m
/-- A command whose access has answered goes on: the granule read is written, the granule written is followed by the next of
the beats started, or is the command's last. -/
def State.copyGo (s : State) (c : CoreId) (m : Cmd) : State :=
  match m.acc with
  | none => s
  | some a =>
    match a.st with
    | .fresh => s.copyAccess c m
    | .done =>
      if m.writing = false then
        let m := { m with writing := true, data := a.rdata
                          acc := some { va := m.dst, mask := BitVec.allOnes 64, op := .write (BitVec.allOnes 64) a.rdata } }
        (s.modCmd c m.seq fun _ => m).copyAccess c m
      else
        let m := { m with off := m.off + 64, writing := false, acc := none }
        if m.len ≤ m.off then (s.modCmd c m.seq fun _ => m).after 0 (.copyCommandComplete c m.seq)
        else if m.busy then s.copyRead c m
        else s.modCmd c m.seq fun _ => m
    | .failed =>
      let s := if a.cause = 12 then s.checkFail a (.copy c m.seq) else s
      let t := copyTrap a.cause
      (s.modCmd c m.seq fun m => { m with acc := none }).after 0 (.copyCommandEnd c m.seq t.1 t.2)
    | .relist =>
      if s.agenda.any fun e => e.2 == .waiterRetry (.copy c m.seq) then s
      else s.after 64 (.waiterRetry (.copy c m.seq))
    | _ => s
/-- The next command in the rotation by context and queue that can start a beat. -/
def Core.nextBeat (k : Core) : Option Cmd :=
  (k.cmds.filter k.canStart).foldl (fun w m =>
    let d := fun q : Cmd => (4 * q.ctx.toNat + q.queue.toNat + 127 - k.rot) % 64
    match w with
    | none => some m
    | some v => if d m < d v then some m else some v) none
/-- COPY_BEAT: commands with answers go on, and at most one beat is started in a cycle (13 R215). -/
def State.copyBeat (s : State) (c : CoreId) : State :=
  let s := (s.core c).cmds.foldl (fun s q =>
    match s.cmd c q.seq with
    | some m => if m.busy then s.copyGo c m else s
    | none => s) s
  match (s.core c).nextBeat with
  | none => s
  | some m =>
    if s.cyc < (s.core c).beatAt then s.after 1 (.copyBeat c)
    else
      let s := (s.modCore c fun k => { k with beatAt := s.cyc + 1, rot := 4 * m.ctx.toNat + m.queue.toNat }).copyStart c m
      if ((s.core c).nextBeat).isSome then s.after 1 (.copyBeat c) else s
def execCopyBeat (s : State) : R :=
  match s.ev with
  | some (.copyBeat c) => .next (s.copyBeat c)
  | _ => .fault .noPendingEvent

/-- A context's withdrawn commands are issued again, in list order, once the thread and the core have room for all of
them; absolute addresses of another core take their traps as commands end (03 R60, 13 R226). -/
def State.reissue (s : State) (c : CoreId) (x : CtxId) : State :=
  let k := s.core c
  let t := k.ctx x
  let n := t.withdrawn.length
  (s.modCore c fun k =>
    { (k.setCtx x { k.ctx x with withdrawn := [] }) with
      nextId := k.nextId + n
      cmds := k.cmds ++ (List.range n).map fun i =>
        let w := t.withdrawn.getD i (0, 0)
        { seq := k.nextId + i, ctx := x, tid := t.tid, pc := t.pc, word0 := w.1, word1 := w.2, asid := t.asid,
          priv := t.priv, launch := t.launch } }).after 1 (.copyBeat c)
/-- COPY_ADMIT: commands that have room enter their queues. A restored thread's withdrawn commands wait for room here,
and the context runs once they have it. -/
def State.copyAdmit (s : State) (c : CoreId) (x : CtxId) : State :=
  let t := s.ctx c x
  if t.withdrawn ≠ [] ∧ t.st = .reserved then
    if (s.core c).copyRoom x t.withdrawn.length then
      (s.reissue c x).modCtx c x fun t => { t with st := .running, filling := none, progress := 0 }
    else s.after 1 (.copyAdmit c x)
  else s.copyBeat c
def execCopyAdmit (s : State) : R :=
  match s.ev with
  | some (.copyAdmit c x) => .next (s.copyAdmit c x)
  | _ => .fault .noPendingEvent

/-- COPY_COMMAND_COMPLETE: the bytes are subtracted from an armed barrier, the excess is counted, and waits end (13 R215,
R220). -/
def State.copyComplete (s : State) (c : CoreId) (q : Nat) : State :=
  match s.cmd c q with
  | none => s
  | some m =>
    let s := s.modCore c fun k => { k with cmds := k.cmds.filter fun n => n.seq != q }
    let t := s.ctx c m.ctx
    let b := t.bars[m.barrier.toNat]
    let s :=
      if m.bar ∧ b.armed ∧ t.tid = m.tid ∧ ¬m.orphan then
        let s := if b.pending.toNat < m.len then s.count c 7 else s
        s.modCtx c m.ctx fun t =>
          { t with bars := t.bars.set m.barrier.toNat { b with pending := BitVec.ofNat 32 (b.pending.toNat - m.len) } }
      else s
    (s.wakeCopyPark c m.ctx).after 1 (.copyBeat c)
def execCopyCommandComplete (s : State) : R :=
  match s.ev with
  | some (.copyCommandComplete c q) => .next (s.copyComplete c q)
  | _ => .fault .noPendingEvent

/-- COPY_COMMAND_END: the command and the later ones of its queue end, and the thread takes one trap (13 R218). -/
def State.copyEnd (s : State) (c : CoreId) (q cause detail : Nat) : State :=
  match s.cmd c q with
  | none => s
  | some m =>
    let s := s.modCore c fun k =>
      { k with cmds := k.cmds.filter fun n =>
          !(n.seq == q || (n.ctx == m.ctx && n.tid == m.tid && n.queue == m.queue && decide (q < n.seq) && !n.held)) }
    let s := if m.orphan then s.wakeCopyPark c m.ctx else
      s.after 0 (.deferredTrapReport c m.ctx m.tid
        { kind := 2, cause := cause, pc := m.pc, addr := if m.writing then m.dst else m.src, off := m.off
          detail := detail, source := 1, w4 := m.word0, w5 := m.word1 })
    s.after 1 (.copyBeat c)
def execCopyCommandEnd (s : State) : R :=
  match s.ev with
  | some (.copyCommandEnd c q cause detail) => .next (s.copyEnd c q cause detail)
  | _ => .fault .noPendingEvent

end Sys2Proof.Machine
end

