-- ==== Sys2Proof/Machine/Sync.lean ====
section
/-! DEFINITION. Fences, barriers, triggers, waits, sleeps, suspensions and yields (03 R39–R42, 15 R243–R249). -/
namespace Sys2Proof.Machine

/-! ## FENCE (15 R243) -/

/-- Round trips of the probes that a touched-bank mask asks for; the plain-line cache's is not given. -/
def fenceProbes (m : BitVec 64) : List (Option Nat) :=
  ((List.range 48).filter fun i => m.getLsbD i).map (fun i => some (if i < 16 then 2 else if i < 32 then 6 else 10)) ++
    (if m.getLsbD 49 then [none] else [])
/-- A load, a presence read or an atomic of the thread is outstanding. -/
def Core.readsOut (k : Core) (x : CtxId) : Bool :=
  (k.opsOf x).any fun o => o.kind.blockRead || o.kind.isRmw || (match o.kind with | .ldq _ => true | _ => false)
/-- A store of the thread has not left the store buffer. -/
def Core.storesOpen (k : Core) (x : CtxId) : Bool :=
  (k.opsOf x).any fun o => match o.kind with | .store => o.accs.any fun a => a.st.open | _ => false
/-- How far a fence has come: its wait goes on, it returns, or its probes are to be sent. -/
inductive FenceStep where
  | wait | ret | probe
deriving DecidableEq, Repr
def Core.fenceStep (k : Core) (x : CtxId) (scope : Scope) (order : Order) : FenceStep :=
  if k.readsOut x then .wait
  else if order = 1 then .ret
  else if scope = 0 then (if k.storesOpen x then .wait else .ret)
  else if k.drained x then .probe else .wait
/-- A fence's step; at scope .sys it waits besides until the devices of the second-tier memory that the thread has written
have acknowledged it (19 R326). -/
def State.fenceStep (s : State) (c : CoreId) (x : CtxId) (scope : Scope) (order : Order) : FenceStep :=
  match (s.core c).fenceStep x scope order with
  | .probe => if scope = 7 ∧ s.devClean c x = false then .wait else .probe
  | f => f
/-- A fence looks again at what it waits for in the next cycle; what a .sys fence waits for is written back. -/
def State.fenceWait (s : State) (c : CoreId) (x : CtxId) (scope : Scope) (order : Order) : State :=
  let s := if scope = 7 ∧ order ≠ 1 ∧ (s.core c).drained x then s.pushDev c x else s
  s.after 1 (.probeEcho c x (s.ctx c x).tid)
/-- Send a parked fence's probes; with none to send it returns. -/
def State.sendProbes (s : State) (c : CoreId) (x : CtxId) (scope : Scope) (order : Order) : State :=
  let t := s.ctx c x
  match fenceProbes t.touched with
  | [] => s.unpark c x fun t => { t with touched := 0 }
  | l =>
    let s := s.modCtx c x fun t => { t with park := some (.fence scope order l.length true) }
    l.foldl (fun s d => match d with | some d => s.after d (.probeEcho c x t.tid) | none => s.afterFree (.probeEcho c x t.tid)) s
/-- A bank holds a write that it has accepted from a core: it has not echoed the probe (15 R243). -/
def State.bankHolds (s : State) (c : CoreId) : Bool :=
  s.held.any fun h => (s.agentInfo h.who).pkg == s.pkgNum && s.agentCore h.who == c && (s.acc h.who).any fun a => !a.op.reads
/-- PROBE_ECHO: a fence goes on: with an echo once its probes are out, or with a further look at its waits. -/
def State.probeEcho (s : State) (c : CoreId) (x : CtxId) (tid : Nat) : State :=
  let t := s.ctx c x
  if t.tid ≠ tid then s
  else
    match t.park with
    | some (.fence scope order n sent) =>
      if sent ∧ s.bankHolds c then s.after 1 (.probeEcho c x tid)
      else if sent then
        if n ≤ 1 then s.unpark c x fun t => { t with touched := 0 }
        else s.modCtx c x fun t => { t with park := some (.fence scope order (n - 1) true) }
      else
        match s.fenceStep c x scope order with
        | .wait => s.fenceWait c x scope order
        | .ret => s.unpark c x
        | .probe => s.sendProbes c x scope order
    | _ => s
def execProbeEcho (s : State) : R :=
  match s.ev with
  | some (.probeEcho c x tid) => .next (s.probeEcho c x tid)
  | _ => .fault .noPendingEvent
def execFence (p : Pred) (scope : Scope) (order : Order) (s : State) : R :=
  issue .any p 8 s fun c t =>
    .ok (match t.fenceStep t.slot t.cx scope order with
      | .ret => t
      | .wait => (t.parkMe c (.fence scope order 0 false)).fenceWait t.slot t.cx scope order
      | .probe => (t.parkMe c (.fence scope order 0 false)).sendProbes t.slot t.cx scope order)

/-! ## BAR, TRIG (15 R244–R246) -/

/-- A member arrives at a barrier of its gang. -/
def State.arrive (s : State) (t : Ctx) (k : BitVec 2) (comb : Option Word) : State :=
  (s.modGang t.launch t.gang fun g =>
    let g := if (g.arrived k).contains t.member then g else g.setArrived k (g.arrived k ++ [t.member])
    match comb with
    | some w => if t.member = 0 then { g with comb := (k, w) :: g.comb.filter fun e => e.1 != k } else g
    | none => g).checkBarrier t.launch t.gang k
def execBar (p : Pred) (k : BitVec 2) (s : State) : R :=
  issue .any p 8 s fun c t =>
    .ok (if c.lvl = 0 then t else (t.parkMe c (.bar k false)).arrive c k none)
def execBarComb (p : Pred) (k : BitVec 2) (a : G) (s : State) : R :=
  issue .any p 8 s fun c t =>
    if c.lvl = 0 then .ok t
    else if c.member = 0 ∧ odd64 (c.getG a) then .trap 1 (c.getG a) 0 0 fun s => s.arrive c k none
    else .ok ((t.parkMe c (.bar k true)).arrive c k (some (c.getG a)))

/-- Every access that the member issued before its BAR is performed, its clears among them. -/
def State.performed (s : State) (m : CoreId × CtxId) : Bool :=
  ((s.core m.1).opsOf m.2).all (fun o => o.accs.all fun a => !a.st.open) && (s.ctx m.1 m.2).posted == 0 &&
    (s.core m.1).clrs.all fun r => !(r.ctx == m.2 && r.tid == (s.ctx m.1 m.2).tid)
/-- The members of a barrier resume; a failed write of the sums is member 0's trap at its BAR (15 R245). -/
def State.releaseBar (s : State) (n i : BitVec 32) (k : BitVec 2) (g : Gang) : State :=
  let s := s.modGang n i fun g =>
    { (g.setArrived k []) with comb := g.comb.filter fun e => e.1 != k, due := g.due.filter fun e => e.1 != k }
  g.members.foldl (fun s m =>
    let t := s.ctx m.1 m.2
    if t.atBar n i k = false then s
    else
      match t.acc with
      | some a =>
        let s := s.setAcc (.park m.1 m.2) none
        if a.st = .failed ∧ t.member ≠ 0 then
          let s := s.unpark m.1 m.2
          if a.cause = 12 then s.after 0 (.machineCheck (s.checkOf a).1 (s.checkOf a).2 none) else s
        else if a.st = .failed then
          if a.cause = 12 then s.checkFail a (.park m.1 m.2)
          else
            (s.modCtx m.1 m.2 fun t => { t with park := none, st := .running }).raise m.1 m.2
              { kind := 0, cause := a.cause, pc := t.pc, len := 2, addr := a.va, order := (s.core m.1).nextId }
        else s.unpark m.1 m.2
      | none => s.unpark m.1 m.2) s
/-- BARRIER_RESUME: the sums' write goes on, and the members resume once it has been performed, their accesses are
performed and the delay has passed. -/
def State.barrierResume (s : State) (n i : BitVec 32) (k : BitVec 2) : State :=
  match s.gang? n i with
  | none => s
  | some g =>
    match g.due.find? fun e => e.1 == k with
    | none => s
    | some (_, due) =>
      let sums := (s.sumsAt g k).bind fun m => (s.ctx m.1 m.2).acc.map fun a => (m, a)
      match sums with
      | some (m, a) =>
        if a.st = .fresh then s.go (.park m.1 m.2)
        else if a.st ≠ .done ∧ a.st ≠ .failed then s
        else if s.cyc < due then s
        else if g.members.all fun m => !(s.ctx m.1 m.2).atBar n i k || s.performed m then s.releaseBar n i k g
        else s.after 1 (.barrierResume n i k)
      | none =>
        if s.cyc < due then s
        else if g.members.all fun m => !(s.ctx m.1 m.2).atBar n i k || s.performed m then s.releaseBar n i k g
        else s.after 1 (.barrierResume n i k)
def execBarrierResume (s : State) : R :=
  match s.ev with
  | some (.barrierResume n i k) => .next (s.barrierResume n i k)
  | _ => .fault .noPendingEvent

def execTrig (p : Pred) (s : State) : R := issue .any p 8 s fun _ t => .ok (t.triggerThread t.slot t.cx)

/-! ## WAITL (15 R247) -/

/-- Checks at issue: alignment, levels 1–3, then the address's form. -/
def State.checkWaitl (s : State) (ea : Word) : Option (Nat × Word) :=
  if aligned ea 8 = false then some (1, ea)
  else if isCoord ea ∧ coordLevel ea ≠ 0 ∧ coordLevel ea < 4 then some (5, ea)
  else s.checkEa ea 8
def waitlBody (p : Pred) (host : Bool) (d a b : G) (deadline : Ctx → Option Word) (s : State) : R :=
  issue .any p 8 s fun c t =>
    let ea := c.getG a
    match t.checkWaitl ea with
    | some e => .trap e.1 e.2
    | none =>
      let t := (t.parkMe c (.waitl d (c.getG b) (deadline c) host)).setAcc (.park t.slot t.cx) (some (readAcc ea 8))
      let t := t.after 1 (.waitlWake t.slot t.cx c.tid)
      .ok (match deadline c with
        | some w => if t.cyc % 2 ^ 64 < w.toNat then t.after (w.toNat - t.cyc % 2 ^ 64) (.sleepDeadline t.slot t.cx c.tid) else t
        | none => t)
def execWaitl (p : Pred) (host : Bool) (d a b : G) (s : State) : R := waitlBody p host d a b (fun _ => none) s
def execWaitlDl (p : Pred) (host : Bool) (d a b c : G) (s : State) : R :=
  waitlBody p host d a b (fun k => some (k.getG c)) s

/-- The page is of the second tier, or of another package: the word is read again every 4,096 cc. -/
def Access.polled (a : Access) : Bool := match a.map with | some m => decide (m.tier ≠ 0) | none => !isCoord a.va
/-- WAITL goes on: its read is made in the thread's order, its value compared, and it returns or watches. -/
def State.waitlGo (s : State) (c : CoreId) (x : CtxId) (tid : Nat) : State :=
  let t := s.ctx c x
  let who := Agent.park c x
  if t.tid ≠ tid then s
  else
    match t.park, t.acc with
    | some (.waitl d old deadline _), some a =>
      match a.st with
      | .fresh =>
        if s.inOrder c x tid (s.core c).nextId t.asid a false then s.go who else s.after 1 (.waitlWake c x tid)
      | .performed => (s.modAcc who fun b => { b with st := .fresh, map := none }).go who
      | .done =>
        let v : Word := (a.rdata >>> (8 * (a.va.toNat % 64))).setWidth 64
        if v = old ∧ ¬deadline.any (fun w => decide (w.toNat ≤ s.cyc % 2 ^ 64)) then
          let s := s.modAcc who fun b => { b with st := .performed }
          if a.polled then s.after 4096 (.waitlPoll c x tid) else s
        else (s.setAcc who none).unpark c x fun t => t.setG d v
      | .failed =>
        let s := s.setAcc who none
        if a.cause = 12 then s.checkFail a who
        else (s.unpark c x).raise c x { kind := 1, cause := a.cause, pc := t.pc, addr := a.va, order := (s.core c).nextId }
      | _ => s
    | _, _ => s
def execWaitlWake (s : State) : R :=
  match s.ev with
  | some (.waitlWake c x tid) => .next (s.waitlGo c x tid)
  | _ => .fault .noPendingEvent
def execWaitlPoll (s : State) : R :=
  match s.ev with
  | some (.waitlPoll c x tid) => .next (s.waitlGo c x tid)
  | _ => .fault .noPendingEvent

/-! ## SLEEP (15 R248) -/

def sleepBody (p : Pred) (mb : Bool) (d a : G) (s : State) : R :=
  issue .any p 8 s fun c t =>
    let w := c.getG a
    let now := t.cyc % 2 ^ 64
    if w ≠ BitVec.allOnes 64 ∧ w.toNat ≤ now then .ok (t.putG d 0)
    else if mb ∧ t.myCore.mbox ≠ [] then .ok (t.putG d 1)
    else
      let t := t.parkMe c (.sleep d w mb)
      .ok (if w = BitVec.allOnes 64 then t else t.after (w.toNat - now) (.sleepDeadline t.slot t.cx c.tid))
def execSleep (p : Pred) (d a : G) (s : State) : R := sleepBody p false d a s
def execSleepM (p : Pred) (d a : G) (s : State) : R := sleepBody p true d a s
/-- SLEEP_DEADLINE: the deadline of a SLEEP has come, or of a WAITL.DL, which reads once more. -/
def State.sleepDeadline (s : State) (c : CoreId) (x : CtxId) (tid : Nat) : State :=
  let t := s.ctx c x
  if t.tid ≠ tid then s
  else
    match t.park with
    | some (.sleep d w _) => if w.toNat ≤ s.cyc % 2 ^ 64 then s.unpark c x fun t => t.setG d 0 else s
    | some (.waitl ..) => s.waitlGo c x tid
    | _ => s
def execSleepDeadline (s : State) : R :=
  match s.ev with
  | some (.sleepDeadline c x tid) => .next (s.sleepDeadline c x tid)
  | _ => .fault .noPendingEvent

/-! ## Suspension and YIELD (03 R36, R40; 15 R249) -/

/-- A continuation record of a thread that resumes at `pc` (03 Table 3-2). -/
def Ctx.contRecord (t : Ctx) (pc : Word) : Granule :=
  granuleOf
    [BitVec.ofNat 64 ((if t.triggered then 2 ^ 53 else 0) + (if t.pinned then 2 ^ 50 else 0)) |||
       (t.prio.setWidth 64 <<< 48) ||| (pc.setWidth 48).setWidth 64,
     t.getG 29, t.member ++ t.launch ++ t.asid, t.getG 1, t.getG 2, t.getG 3, t.getG 4, t.getG 5]
/-- The record's address. -/
def Ctx.recAddr (t : Ctx) : Word := t.getG 29 - 64
/-- The write of the record. -/
def Ctx.recWrite (t : Ctx) (pc : Word) : Access :=
  { va := t.recAddr, mask := BitVec.allOnes 64, op := .write (BitVec.allOnes 64) (t.contRecord pc) }
/-- The trap that a record's address raises at issue (03 R40). -/
def Ctx.recTrap (t : Ctx) : Option Nat :=
  if odd64 t.recAddr then some 1 else if isCoord t.recAddr then some 5 else none

/-- Give up a suspension: the access has not been issued. -/
def State.cancelSuspend (s : State) (c : CoreId) (x : CtxId) (o : Op) : State :=
  (s.modCore c fun k => k.dropOp o.id).modCtx c x fun t => { t with st := .running, park := none, acc := none, pc := o.pc }
/-- An issue trap of the waiting access (03 R40). -/
def State.suspendTrap (s : State) (c : CoreId) (x : CtxId) (o : Op) (cause : Nat) : State :=
  (s.cancelSuspend c x o).raise c x
    { kind := 0, cause := cause, pc := o.pc, len := o.len / 4, addr := (s.ctx c x).recAddr, order := o.id }
/-- The access of an operation that waits, with its place. -/
def Op.waitMap (o : Op) : Option Map := (o.acc? (firstNotFull o)).bind Access.map
/-- Step 3 of 03 R40: the descriptor is placed and the context freed; where the block has filled meanwhile the
continuation is placed at once; where the list is full it is tried again after 64 cc. -/
def State.suspendPlace (s : State) (c : CoreId) (x : CtxId) (o : Op) (m : Map) : State :=
  let t := s.ctx c x
  let a : BitVec 48 := t.recAddr.setWidth 48
  match s.tagOf m.blk m.n with
  | none => (s.cancelSuspend c x o).after 0 (.machineCheck 3 m.blk (some (.park c x)))
  | some g =>
    if g.st = 2 then ((s.wakeCont m.blk t.recAddr c t.asid t.prio t.pinned).modCore c fun k => k.dropOp o.id).freeCtx c x
    else if s.listRoom m.blk then
      ((s.placeWaiter m.blk m.n (.cont a c t.asid t.prio t.pinned)).modCore c fun k => k.dropOp o.id).freeCtx c x
    else (s.count c 3).after 64 (.suspension c x o.id)
/-- Step 3 of 03 R40 for a reader whose token waits at another package's home: this hub keeps the token against the
continuation; where the token has woken meanwhile the continuation is placed at once (05 R76, R79). -/
def State.suspendRemote (s : State) (c : CoreId) (x : CtxId) (o : Op) : State :=
  let t := s.ctx c x
  let mine := fun (u : RemOut) => match u.who with | .lsu k i _ => k == c && i == o.id | _ => false
  let d : Desc := .cont (t.recAddr.setWidth 48) c t.asid t.prio t.pinned
  let keep := fun (u : RemOut) => if mine u then { u with cont := some d } else u
  let s := if s.sys.tokens.any mine then { s with sys := { s.sys with tokens := s.sys.tokens.map keep } }
    else s.wakeCont 0 t.recAddr c t.asid t.prio t.pinned
  (s.modCore c fun k => k.dropOp o.id).freeCtx c x
/-- The descriptor of a suspension goes to the block's home. -/
def State.suspendAt (s : State) (c : CoreId) (x : CtxId) (o : Op) : State :=
  match o.waitMap with
  | some m => if m.isBlock then s.suspendPlace c x o m else s.suspendRemote c x o
  | none => s.suspendRemote c x o
/-- A suspension begins once nothing else of the thread is outstanding and its clears are reported; a pending trap comes
first. -/
def State.suspendStart (s : State) (c : CoreId) (x : CtxId) (o : Op) : State :=
  let t := s.ctx c x
  if t.delivering ∨ ¬t.traps.isEmpty then s.cancelSuspend c x o
  else if ((s.core c).opsOf x).any (fun p => p.id != o.id) ∨ t.posted ≠ 0 ∨ s.reportsDue c x then
    s.after 1 (.suspension c x o.id)
  else
    match t.recTrap with
    | some cause => s.suspendTrap c x o cause
    | none =>
      (s.modCtx c x fun t => { t with st := .parked, park := some (.suspend o.id), acc := some (t.recWrite o.pc) }).go (.park c x)
/-- The record's write goes on. -/
def State.suspendWrite (s : State) (c : CoreId) (x : CtxId) (o : Op) : State :=
  let who := Agent.park c x
  match (s.ctx c x).acc with
  | none => s.suspendAt c x o
  | some a =>
    match a.st with
    | .fresh => s.go who
    | .done => (s.setAcc who none).suspendAt c x o
    | .failed =>
      if a.cause = 12 then (s.cancelSuspend c x o).checkFail a who else s.suspendTrap c x o a.cause
    | _ => s
/-- A YIELD's record cannot be written: an issue trap of the YIELD (15 R249). -/
def State.yieldTrap (s : State) (c : CoreId) (x : CtxId) (cause : Nat) : State :=
  (s.modCtx c x fun t => { t with st := .running, park := none }).raise c x
    { kind := 0, cause := cause, pc := (s.ctx c x).pc, len := 2, addr := (s.ctx c x).recAddr, order := (s.core c).nextId }
/-- YIELD goes on: once nothing of the thread is outstanding its record's address is checked, the record is written and
queued, and the context freed (15 R249). -/
def State.yieldGo (s : State) (c : CoreId) (x : CtxId) : State :=
  let t := s.ctx c x
  let who := Agent.park c x
  match t.acc with
  | none =>
    if t.delivering ∨ ¬t.traps.isEmpty then s.modCtx c x fun t => { t with st := .running, park := none }
    else if ((s.core c).opsOf x).isEmpty = false ∨ t.posted ≠ 0 ∨ s.reportsDue c x then s.after 1 (.suspension c x 0)
    else
      match t.recTrap with
      | some cause => s.yieldTrap c x cause
      | none => (s.setAcc who (some (t.recWrite (t.pc + 8)))).go who
  | some a =>
    match a.st with
    | .fresh => s.go who
    | .done =>
      (s.pushRq c { addr := t.recAddr, prio := t.prio, pinned := t.pinned, asid := t.asid, enq := s.cyc }).freeCtx c x
    | .failed =>
      let s := s.setAcc who none
      if a.cause = 12 then s.checkFail a who else s.yieldTrap c x a.cause
    | _ => s
def State.suspension (s : State) (c : CoreId) (x : CtxId) (id : Nat) : State :=
  match (s.ctx c x).park with
  | some .yieldDrain => s.yieldGo c x
  | some (.suspend i) => if i = id then (match s.op c id with | some o => s.suspendWrite c x o | none => s) else s
  | none => match s.op c id with | some o => if o.suspends then s.suspendStart c x o else s | none => s
  | some .window => match s.op c id with | some o => if o.suspends then s.suspendStart c x o else s | none => s
  | _ => s
def execSuspension (s : State) : R :=
  match s.ev with
  | some (.suspension c x o) => .next (s.suspension c x o)
  | _ => .fault .noPendingEvent

/-- YIELD gives the context back where the thread may suspend. What it checks and writes is what g29 and g1–g5 hold once the
thread's operations are done. -/
def Core.mayYield (k : Core) (x : CtxId) : Bool :=
  let t := k.ctx x
  !t.pinned && t.lvl == 0 && x != 0 && !k.copying x
def execYield (p : Pred) (s : State) : R :=
  issue .any p 8 s fun c t =>
    .ok (if t.myCore.mayYield t.cx then (t.parkMe c .yieldDrain).after 1 (.suspension t.slot t.cx 0) else t)

end Sys2Proof.Machine
end

