-- ==== Sys2Proof/Machine/Sched.lean ====
section
/-! DEFINITION. Ready queues and deques as instructions use them, dispatch, steals, balancing, and the filling of a context
from a record or an image (03 R36–R38, R51–R54, R58, R60, R389; 15 R250–R253). -/
namespace Sys2Proof.Machine

/-! ## The deque and its spill (03 R52, 15 R250) -/

def RqEnt.dequeWords (e : RqEnt) : Word × Word :=
  ((e.addr &&& ~~~0x3F#64) ||| (if e.pinned then 4 else 0), e.asid.setWidth 64)
/-- The deque's spill, oldest first. -/
def State.spillList (s : State) (c : CoreId) : List RqEnt :=
  match (s.core c).region with
  | none => []
  | some (b, z) =>
    (List.range (s.dequeSpill c)).map fun i =>
      let a := b + z / 2 + 64 + 16 * i
      { addr := s.ownWord a &&& ~~~0x3F#64, prio := 0, pinned := (s.ownWord a).getLsbD 2
        asid := (s.ownWord (a + 8)).setWidth 16, enq := 0 }
def State.setSpillList (s : State) (c : CoreId) (l : List RqEnt) : State :=
  match (s.core c).region with
  | none => s
  | some (b, z) =>
    ((List.range l.length).foldl (fun s i =>
      match l[i]? with
      | none => s
      | some e =>
        let a := b + z / 2 + 64 + 16 * i
        (s.setOwnWord a (RqEnt.dequeWords e).1).setOwnWord (a + 8) (RqEnt.dequeWords e).2) s).setOwnWord (b + z / 2)
      (BitVec.ofNat 64 l.length)
/-- Push as newest: the oldest hardware entry spills when the 32 are full; none where the spill is full. -/
def State.dequePush (s : State) (c : CoreId) (e : RqEnt) : Option State :=
  let k := s.core c
  match k.deque with
  | [] => some (s.modCore c fun k => { k with deque := [e] })
  | o :: r =>
    if k.deque.length < 32 then some (s.modCore c fun k => { k with deque := k.deque ++ [e] })
    else if k.region.isSome ∧ s.dequeSpill c < k.spillCap then
      some ((s.setSpillList c (s.spillList c ++ [o])).modCore c fun k => { k with deque := r ++ [e] })
    else none
/-- The newest entry, hardware before spill. -/
def State.dequeNewest (s : State) (c : CoreId) : Option (RqEnt × State) :=
  match (s.core c).deque.getLast? with
  | some e => some (e, s.modCore c fun k => { k with deque := k.deque.dropLast })
  | none =>
    match (s.spillList c).getLast? with
    | some e => some (e, s.setSpillList c (s.spillList c).dropLast)
    | none => none
/-- The oldest entry whose pinned bit is 0. -/
def State.dequeOldest (s : State) (c : CoreId) : Option (RqEnt × State) :=
  match (s.spillList c).find? fun e => !e.pinned with
  | some e => some (e, s.setSpillList c ((s.spillList c).erase e))
  | none =>
    match (s.core c).deque.find? fun e => !e.pinned with
    | some e => some (e, s.modCore c fun k => { k with deque := k.deque.erase e })
    | none => none

/-- Cycles that a probe takes: within the tile, or the group (03 R51). -/
def probeDelay (i : Nat) : Nat := if i < 15 then 4 else 8
/-- A steal or a retry of the context is already under way. -/
def State.seeking (s : State) (c : CoreId) (x : CtxId) : Bool :=
  s.agenda.any fun e => match e.2 with
    | .steal d y _ | .dispatchRetry d y => d == c && y == x
    | _ => false
/-- Every empty context of the other cores of the group goes on looking for work; one that has not looked since reset is
found at some point of its 63 probes or of the 256 cc that follow them (03 R51; log entry 33). -/
def State.kickGroup (s : State) (c : CoreId) : State :=
  ((groupCores (groupOf c)).flatMap fun d =>
    if d = c ∨ s.present d = false then []
    else ((s.core d).empties.filter fun x => !s.seeking d x).map fun x => (d, x)).foldl (fun s p =>
      let r := s.choose (63 + 256)
      if r.1 < 63 then r.2.after (probeDelay r.1) (.steal p.1 p.2 r.1) else r.2.after (r.1 - 62) (.dispatchRetry p.1 p.2)) s

def spawnBody (p : Pred) (pin : Bool) (a : G) (s : State) : R :=
  issue .any p 8 s fun c t =>
    if odd64 (c.getG a) then .trap 1 (c.getG a)
    else if t.myCore.drained t.cx = false then .lose
    else
      match t.dequePush t.slot { addr := c.getG a, prio := 0, pinned := pin, asid := c.asid, enq := t.cyc } with
      | none => .lose
      | some u => .ok ((u.kick u.slot).kickGroup u.slot)
def execSpawn (p : Pred) (pin : Bool) (a : G) (s : State) : R := spawnBody p pin a s
def execTpop (p : Pred) (d : G) (s : State) : R :=
  issue .any p 8 s fun _ t =>
    .ok (match t.dequeNewest t.slot with
      | none => t.putG d 0
      | some (e, u) => u.putG d (RqEnt.dequeWords e).1)

/-! ## RQPUSH, RQPOP (15 R251, R252) -/

def rqEntOf (c : Ctx) (addr pr : Word) (now : Nat) : RqEnt :=
  { addr := addr, prio := pr.setWidth 2, pinned := pr.getLsbD 2, asid := c.asid, enq := now }
def execRqpush (p : Pred) (a b : G) (s : State) : R :=
  issue .any p 8 s fun c t =>
    if odd64 (c.getG a) then .trap 1 (c.getG a)
    else if t.myCore.drained t.cx = false then .lose
    else .ok (t.pushRq t.slot (rqEntOf c (c.getG a) (c.getG b) t.cyc))
def execRqpushCore (p : Pred) (a b k : G) (s : State) : R :=
  issue .any p 8 s fun c t =>
    let d : CoreId := (c.getG k).setWidth 16
    if odd64 (c.getG a) then .trap 1 (c.getG a)
    else if t.reachable t.slot d = false then .trap 4 0
    else if t.myCore.drained t.cx = false then .lose
    else .ok (t.meshAfter (sgIdx t.slot) (sgIdx d) .wake (.wakeMessage d (rqEntOf c (c.getG a) (c.getG b) t.cyc)))

/-- Move the ring's head entries, then held pushes, to where there is room (03 R52). -/
def State.refill (s : State) (c : CoreId) : Nat → State
  | 0 => s
  | n + 1 =>
    let s := s.refill c n
    match (s.core c).region with
    | none => s
    | some (b, _) =>
      if (s.core c).rq.length < 64 ∧ s.ringCount c ≠ 0 then
        let h := s.ownWord b
        let a := b + 64 + 16 * (h.toNat % (s.core c).spillCap)
        let e := RqEnt.ofWords (s.ownWord a) (s.ownWord (a + 8))
        (s.setOwnWord b (h + 1)).modCore c fun k => { k with rq := k.rq ++ [e] }
      else s
/-- RING_REFILL: the hardware queue takes what the ring holds, and held pushes go on. -/
def State.ringRefill (s : State) (c : CoreId) : State :=
  let s := s.refill c 64
  ((s.pushHeld c (s.core c).wake).pushNet c).kick c
def execRingRefill (s : State) : R :=
  match s.ev with
  | some (.ringRefill c) => .next (s.ringRefill c)
  | _ => .fault .noPendingEvent

/-- The result words of a popped entry. -/
def rqResult (e : Option RqEnt) : Word × Word :=
  match e with
  | none => (0, 0)
  | some e => (e.word0, e.asid.setWidth 64)
def popBody (p : Pred) (d : G) (s : State) (pick : Ctx → List RqEnt → Option RqEnt) : R :=
  issue .c0 p 8 s fun c t =>
    let t := (t.refill t.slot 64).modCore t.slot fun k => k.aged t.cyc
    let e := pick c t.myCore.rq
    let t := match e with | some e => t.takeRq t.slot e | none => t
    .ok ((t.putG d (rqResult e).1).putG (d + 1) (rqResult e).2)
def execRqpop (p : Pred) (d : G) (s : State) : R := popBody p d s fun _ q => bestOf q
def execRqpopP (p : Pred) (d a : G) (s : State) : R := popBody p d s fun c q => headOf q ((c.getG a).setWidth 2)
/-- Entries of a priority in the ring. -/
def State.ringPrio (s : State) (c : CoreId) (p : Nat) : Nat :=
  match (s.core c).region with
  | none => 0
  | some (b, _) =>
    ((List.range (s.ringCount c)).filter fun i =>
      (s.ownWord (b + 64 + 16 * (((s.ownWord b).toNat + i) % (s.core c).spillCap))).toNat % 4 == p).length
def State.rqCount (s : State) (c : CoreId) (p : Nat) : Nat :=
  min 0xFFFF (((s.core c).rq.filter fun e => e.prio.toNat == p).length + s.ringPrio c p)
def execRqpopCnt (p : Pred) (d : G) (s : State) : R :=
  issue .c0 p 8 s fun _ t =>
    .ok (t.putG d (BitVec.ofNat 64 ((List.range 4).foldl (fun a i => a + t.rqCount t.slot i * 2 ^ (16 * i)) 0)))

/-! ## Filling a context (03 R37, R38, R60; 15 R253) -/

/-- A rejected record: the notice names it, and the context becomes empty (03 R38). -/
def State.rejectRecord (s : State) (c : CoreId) (x : CtxId) (launch : Word) (reason : Nat) : State :=
  let t := s.ctx c x
  let e := t.filling.map Prod.fst
  (s.notify (dieOf c)
    { code := 18, addr := (e.map RqEnt.addr).getD 0
      who := whoWord c x ((s.core c).privOf x).code s.pkgNum ((e.map RqEnt.asid).getD 0)
      w3 := launch, w4 := BitVec.ofNat 64 reason }).freeCtx c x
/-- Reserve a context and read 64 bytes for it. A filling that a TSTART overtakes is given up (log entry 79). -/
def State.startFilling (s : State) (c : CoreId) (x : CtxId) (e : RqEnt) (window : Option (Nat × Nat)) : State :=
  (({ s with sys := { s.sys with tokens := s.sys.tokens.filter fun t => t.who != .disp c x } } : State).modCtx c x fun t =>
    { tid := t.tid + 1, st := .reserved, filling := some (e, window, false)
      acc := some { va := e.addr &&& ~~~0x3F#64, mask := BitVec.allOnes 64, op := .read } }).after 1 (.resumeContinuation c x)

/-- The die's table holds an entry for the launch (03 R45). -/
def State.hasEntry (s : State) (die : BitVec 3) (l : BitVec 32) : Bool := s.active.contains (die, l)
def State.launch? (s : State) (n : BitVec 32) : Option Launch := s.launches.find? fun l => l.num == n
/-- The die can start a thread of a launch: its table holds the launch's entry, or no service core has accepted a launch of
that number, so that there is none to receive (03 R45; 26 Table 26-3 step 6; log entry 68). -/
def State.canStart (s : State) (die : BitVec 3) (l : BitVec 32) : Bool := s.hasEntry die l || (s.launch? l).isNone

/-- R38's checks of a record read under `asid`: the reason of a rejection. -/
def State.recordBad (s : State) (r : Granule) (asid : BitVec 16) : Option Nat :=
  let own : BitVec 16 := (r.word 2).setWidth 16
  if (r.word 0).extractLsb' 54 10 ≠ 0 then some 1
  else if own ≠ asid then some 2
  else match s.launch? ((r.word 2).extractLsb' 16 32) with
    | some l => if l.asid = own then none else some 2
    | none => none

/-- A package answers a domain launch's Go once every member has started (23 R363). -/
def State.checkStarted (s : State) (n : BitVec 32) : State :=
  match s.launch? n with
  | none => s
  | some l =>
    match l.coord with
    | none => s
    | some p =>
      if l.phase = 3 ∧ l.begun = l.share * l.members then
        let s := s.modLaunch n fun l => { l with phase := 4 }
        let s : State := { s with gangs := s.gangs.filter fun g => !(g.launch == n && g.level == 0) }
        if p = s.pkgNum then s.afterFree (.started n s.pkgNum) else { s with outbox := s.outbox ++ [.launch p "Started" n 0] }
      else s

/-- A context started from a record (03 R37, R47; 15 R253). A thread's current priority (03 R40) is that of the entry that
dispatch took, which a deque entry's is not given as and is 0; TSTART's is the record's (log entry 80). -/
def State.startThread (s : State) (c : CoreId) (x : CtxId) (r : Granule) (e : RqEnt) (window : Option (Nat × Nat)) : State :=
  let n : BitVec 32 := (r.word 2).extractLsb' 16 32
  let l := s.launch? n
  let gangRec := (r.word 0).getLsbD 52 && window.isSome
  let t0 := s.ctx c x
  let g : Ctx := { tid := t0.tid }
  let g := ((((((g.setG 1 (r.word 3)).setG 2 (r.word 4)).setG 3 (r.word 5)).setG 4 (r.word 6)).setG 5 (r.word 7)).setG 29
    (r.word 1))
  let t : Ctx := { g with
    st := .running
    p := (Vector.replicate 8 0).set 0 0xFFFFFFFF
    pc := (r.word 0) &&& 0xFFFFFFFFFFFF
    asid := (r.word 2).setWidth 16
    launch := n
    member := (r.word 2).extractLsb' 48 16
    gang := if gangRec then (r.word 4).setWidth 32 else 0
    lvl := if gangRec then (l.map Launch.level).getD 0 else 0
    gangMember := gangRec && (l.map Launch.level).getD 0 != 0
    fmt := (l.map Launch.fmt).getD (Config.freeWord s.fresh)
    scl := (l.map Launch.scl).getD (Config.freeWord (s.fresh + 1))
    triggered := (r.word 0).getLsbD 53
    pinned := (r.word 0).getLsbD 50
    prio := if window.isSome then (r.word 0).extractLsb' 48 2 else e.prio
    priv := (s.core c).privOf x
    winSize := (window.map Prod.fst).getD 0
    winOff := (window.map Prod.snd).getD 0 }
  let t := { t with pc := s.extPc t.pc }
  let s := ({ s with fresh := s.fresh + 2 } : State).modCtx c x fun _ => t
  let s := if gangRec ∧ t.lvl ≠ 0 then s.modGang n t.gang fun g => { g with started := g.started ++ [t.member] } else s
  if gangRec then (s.modLaunch n fun l => { l with begun := l.begun + 1 }).checkStarted n else s

/-- The image under restoration: its address, its window, and the number of its granules that come before the registers. -/
def isLocalAddr (a : Word) : Bool := isCoord a && coordLevel a == 0
/-- Granule `i` of a restore: the header, the window when it is copied, then the image's remaining 23 granules (03 Table
3-14): its address, and what it is. -/
inductive ImagePart where
  | header | window (i : Nat) | image (i : Nat) | past
deriving DecidableEq, Repr
def imagePart (addr : Word) (win i : Nat) : ImagePart :=
  let w := if isLocalAddr addr then 0 else win
  if i = 0 then .header else if i ≤ w then .window (i - 1) else if i ≤ w + 23 then .image (i - w) else .past
def partAddr (addr : Word) (p : ImagePart) : Word :=
  match p with
  | .header | .past => addr
  | .window i => laneEa addr (BitVec.ofNat 64 (0x600 + 64 * i))
  | .image i => laneEa addr (BitVec.ofNat 64 (64 * i))
/-- Registers that an image's granule holds (03 Table 3-14). -/
def Ctx.loadImage (t : Ctx) (i : Nat) (r : Granule) : Ctx :=
  if i ≤ 4 then t.setGs (8 * (i - 1)) r 0 8
  else if i ≤ 12 then
    (t.setV (BitVec.ofNat 4 (2 * (i - 5))) (r.setWidth 256)).setV (BitVec.ofNat 4 (2 * (i - 5) + 1)) (r.extractLsb' 256 256)
  else if i = 13 then
    { t with
      p := Vector.ofFn fun j : Fin 8 => r.extractLsb' (32 * j.val) 32
      rnd := rndWrite (r.word 4), fmt := r.word 5, scl := r.word 6
      gang := (r.word 7).setWidth 32, member := (r.word 7).extractLsb' 32 16 }
  else if i = 14 then
    { t with bars := Vector.ofFn fun j : Fin 4 =>
        { pending := (r.word (2 * j.val)).setWidth 32, armed := (r.word (2 * j.val)).getLsbD 63
          init := (r.word (2 * j.val + 1)).setWidth 32 } }
  else if i = 15 then t
  else
    { t with withdrawn := t.withdrawn ++ (List.range 4).map fun j => (r.word (2 * j), r.word (2 * j + 1)) }
/-- The header sets the thread's record fields, its window and the number of its withdrawn copies (03 Table 3-15). -/
def State.loadHeader (s : State) (c : CoreId) (x : CtxId) (r : Granule) (e : RqEnt) (tstart : Bool) : State :=
  s.modCtx c x fun t =>
    { t with
      pc := s.extPc ((r.word 0) &&& 0xFFFFFFFFFFFF), asid := (r.word 2).setWidth 16
      launch := (r.word 2).extractLsb' 16 32, member := (r.word 2).extractLsb' 48 16
      triggered := (r.word 0).getLsbD 53, pinned := (r.word 0).getLsbD 50
      prio := if tstart then (r.word 0).extractLsb' 48 2 else e.prio
      priv := (s.core c).privOf x
      winSize := ((r.word 4).extractLsb' 16 9).toNat, winOff := ((r.word 4).setWidth 16).toNat
      withdrawnLen := ((r.word 3).extractLsb' 4 6).toNat }

/-- The next granule of a restore is read. -/
def State.restoreNext (s : State) (c : CoreId) (x : CtxId) (e : RqEnt) : State :=
  let t := s.ctx c x
  match imagePart e.addr t.winSize t.progress with
  | .past =>
    let t' : Ctx := { t with withdrawn := t.withdrawn.take t.withdrawnLen, withdrawnLen := 0, acc := none, lvl := 0 }
    if t'.withdrawn = [] then
      s.modCtx c x fun _ => { t' with st := .running, filling := none, progress := 0 }
    else (s.modCtx c x fun _ => t').after 1 (.copyAdmit c x)
  | p =>
    (s.modCtx c x fun t =>
      { t with acc := some { va := partAddr e.addr p, mask := BitVec.allOnes 64, op := .read } }).after 1 (.restore c x)
/-- A granule of a restore has arrived. -/
def State.restoreGot (s : State) (c : CoreId) (x : CtxId) (e : RqEnt) (tstart : Bool) (r : Granule) : State :=
  let t := s.ctx c x
  match imagePart e.addr t.winSize t.progress with
  | .header =>
    match s.recordBad r e.asid with
    | some why => s.rejectRecord c x ((r.word 2).extractLsb' 16 32 |>.setWidth 64) why
    | none =>
      let s := s.loadHeader c x r e tstart
      let t := s.ctx c x
      if (s.core c).inScratch t.winOff (64 * t.winSize) = false ∨ 256 < t.winSize then
        s.rejectRecord c x (t.launch.setWidth 64) 3
      else if s.canStart (dieOf c) t.launch then
        (s.modCtx c x fun t => { t with progress := 1 }).restoreNext c x e
      else (s.modCtx c x fun t => { t with awaitsLaunch := true }).afterFree (.launchTableFill (dieOf c) t.launch)
  | .window i =>
    ((s.rawWrite (localKey c + t.winOff + 64 * i) (BitVec.allOnes 64) r).modCtx c x fun t =>
      { t with progress := t.progress + 1 }).restoreNext c x e
  | .image i => (s.modCtx c x fun t => { (t.loadImage i r) with progress := t.progress + 1 }).restoreNext c x e
  | .past => s

/-- A record has been read: it is rejected, names an image to restore, or starts the context once the die holds the
launch's entry. -/
def State.recordGot (s : State) (c : CoreId) (x : CtxId) (e : RqEnt) (window : Option (Nat × Nat)) (r : Granule) : State :=
  let n : BitVec 32 := (r.word 2).extractLsb' 16 32
  match s.recordBad r e.asid with
  | some why => s.rejectRecord c x (n.setWidth 64) why
  | none =>
    if (r.word 0).getLsbD 51 then
      let e := { e with addr := r.word 1 }
      (s.modCtx c x fun t =>
        { t with filling := some (e, window, true), progress := 0
                 acc := some { va := e.addr, mask := BitVec.allOnes 64, op := .read } }).after 1 (.restore c x)
    else if window.any fun w => decide (256 < w.1) || !(s.core c).inScratch w.2 (64 * w.1) then
      s.rejectRecord c x (n.setWidth 64) 3
    else if s.canStart (dieOf c) n then
      let s := s.startThread c x r e window
      match s.withdrawnConts.find? fun w => w.1 == e.addr && w.2.1 == e.asid with
      | some w =>
        ({ s with withdrawnConts := s.withdrawnConts.erase w } : State).modCtx c x fun t =>
          { t with withdrawnAt := some (keyAddr w.2.2) }
      | none => s
    else (s.modCtx c x fun t => { t with awaitsLaunch := true }).afterFree (.launchTableFill (dieOf c) n)

/-- The reads for a reserved context go on: RESUME_CONTINUATION and RESTORE. -/
def State.fillGo (s : State) (c : CoreId) (x : CtxId) : State :=
  let t := s.ctx c x
  match t.st, t.filling, t.acc with
  | .reserved, some (e, w, img), some a =>
    match a.st with
    | .fresh =>
      if isCoord a.va ∧ ¬(isLocalAddr a.va ∧ w.isSome) then s.rejectRecord c x 0 6
      else s.go (.disp c x)
    | .done =>
      let s := s.modCtx c x fun t => { t with awaitsLaunch := false }
      if img then s.restoreGot c x e w.isSome a.rdata
      else s.recordGot c x e w a.rdata
    | .failed => s.rejectRecord c x 0 (if a.cause = 12 then 4 else if a.cause = 256 then 5 else 6)
    | _ => s
  | _, _, _ => s
def execResumeContinuation (s : State) : R :=
  match s.ev with
  | some (.resumeContinuation c x) => .next (s.fillGo c x)
  | _ => .fault .noPendingEvent
def execRestore (s : State) : R :=
  match s.ev with
  | some (.restore c x) => .next (s.fillGo c x)
  | _ => .fault .noPendingEvent

/-- LAUNCH_TABLE_FILL: the accepting service core enters a launch in a die's table, once an entry is free, and the
contexts of the die that wait for it go on (03 R45). -/
def State.launchTableFill (s : State) (die : BitVec 3) (n : BitVec 32) : State :=
  let go : State → State := fun s => s.cores.foldl (fun s k =>
    let c : CoreId := BitVec.ofNat 16 k.1
    if dieOf c ≠ die then s
    else (List.finRange 16).foldl (fun s i =>
      let x : CtxId := BitVec.ofFin i
      if (s.ctx c x).awaitsLaunch then s.after 1 (.resumeContinuation c x) else s) s) s
  if s.canStart die n then go s
  else if 256 ≤ (s.active.filter fun e => e.1 == die).length then s.after 64 (.launchTableFill die n)
  else go { s with active := s.active ++ [(die, n)] }
def execLaunchTableFill (s : State) : R :=
  match s.ev with
  | some (.launchTableFill d n) => .next (s.launchTableFill d n)
  | _ => .fault .noPendingEvent

/-! ## Dispatch (03 R51) -/

/-- The cores that a thief probes, in order: its tile from its own index on, then the other tiles of its group. -/
def stealOrder (c : CoreId) : List CoreId :=
  let x0 := coreX c / 4 * 4
  let y0 := coreY c / 4 * 4
  let tile := (List.range 15).map fun i => let j := (idxTile c + 1 + i) % 16; mkCore (x0 + j % 4) (y0 + j / 4)
  let gx := coreX c / 8 * 8
  let gy := coreY c / 8 * 8
  let t0 := coreX c / 4 % 2 + 2 * (coreY c / 4 % 2)
  tile ++ (List.range 3).flatMap fun i =>
    let t := (t0 + 1 + i) % 4
    (List.range 16).map fun j => mkCore (gx + 4 * (t % 2) + j % 4) (gy + 4 * (t / 2) + j / 4)
/-- DISPATCH: an empty context, once a TREAP that waited for it has had its slot, is filled from the ready queue, then from the core's own deque, then by a steal. -/
def State.dispatch (s : State) (c : CoreId) (x : CtxId) : State :=
  if (s.ctx c x).reapWaits then (s.modCtx c x fun t => { t with reapWaits := false }).offerCtx c x
  else if x = 0 ∨ s.present c = false then s
  else if (s.ctx c x).st ≠ .empty then
    if (s.core c).rq.isEmpty ∧ (s.core c).deque.isEmpty then s else s.kick c
  else
    let s := s.modCore c fun k => k.aged s.cyc
    match bestOf (s.core c).rq with
    | some e => (s.takeRq c e).startFilling c x e none
    | none =>
      match s.dequeNewest c with
      | some (e, s) => s.startFilling c x e none
      | none => if s.seeking c x then s else s.after (probeDelay 0) (.steal c x 0)
def execDispatch (s : State) : R :=
  match s.ev with
  | some (.dispatch c x) => .next (s.dispatch c x)
  | _ => .fault .noPendingEvent
/-- DISPATCH_RETRY: 256 cc after a dispatch found nothing. -/
def execDispatchRetry (s : State) : R :=
  match s.ev with
  | some (.dispatchRetry c x) => .next (s.dispatch c x)
  | _ => .fault .noPendingEvent
/-- STEAL: one probe of a neighbour's deque ends. -/
def State.steal (s : State) (c : CoreId) (x : CtxId) (i : Nat) : State :=
  if (s.ctx c x).st ≠ .empty then s
  else
    match (stealOrder c)[i]? with
    | none => s.after 256 (.dispatchRetry c x)
    | some v =>
      match (if s.present v then s.dequeOldest v else none) with
      | some (e, s) => s.startFilling c x e none
      | none =>
        if i + 1 < (stealOrder c).length then s.after (probeDelay (i + 1)) (.steal c x (i + 1))
        else s.after 256 (.dispatchRetry c x)
def execSteal (s : State) : R :=
  match s.ev with
  | some (.steal c x i) => .next (s.steal c x i)
  | _ => .fault .noPendingEvent

/-! ## Wake messages and balancing (03 R53) -/

/-- WAKE_MESSAGE: the entry is enqueued at its priority. -/
def execWakeMessage (s : State) : R :=
  match s.ev with
  | some (.wakeMessage c e) => .next ((s.pushRq c e).after 1 (.pushBalance c))
  | _ => .fault .noPendingEvent
/-- GROUP_LOAD_REFRESH: the group's register takes each present core's load, and its full queues are balanced. -/
def State.groupLoadRefresh (s : State) (g : BitVec 16) : State :=
  (groupCores g.toNat).foldl (fun s c =>
    if s.present c then
      let s : State := { s with loads := SMap.set 0 s.loads c.toNat (s.loadOf c) }
      if (s.core c).rqhi.toNat % 256 < (s.core c).rq.length then s.after 1 (.pushBalance c) else s
    else s) s
def execGroupLoadRefresh (s : State) : R :=
  match s.ev with
  | some (.groupLoadRefresh g) => .next (s.groupLoadRefresh g)
  | _ => .fault .noPendingEvent
def State.regLoad (s : State) (c : CoreId) : Nat := SMap.get 0 s.loads c.toNat
/-- The oldest unpinned entry of the lowest-numbered priority that holds one. -/
def pushable (q : List RqEnt) : Option RqEnt := bestOf (q.filter fun e => !e.pinned)
/-- PUSH_BALANCE: a queue above %rqhi sends one entry to a core whose load is at least 2 lower. -/
def State.pushBalance (s : State) (c : CoreId) : State :=
  let k := s.core c
  let hi := k.rqhi.toNat % 256
  if k.rq.length ≤ hi ∨ hi = 255 ∨ s.cyc < k.pushedAt then s
  else
    let best := ((groupCores (groupOf c)).filter fun d => s.present d).foldl (fun b d =>
      match b with
      | none => some d
      | some v => if s.regLoad d < s.regLoad v then some d else some v) none
    match best, pushable k.rq with
    | some d, some e =>
      if s.regLoad d + 2 ≤ s.regLoad c then
        ((s.takeRq c e).modCore c fun k => { k with pushedAt := s.cyc + 16 }).meshAfter (sgIdx c) (sgIdx d) .wake
          (.wakeMessage d e)
      else s
    | _, _ => s
def execPushBalance (s : State) : R :=
  match s.ev with
  | some (.pushBalance c) => .next (s.pushBalance c)
  | _ => .fault .noPendingEvent

/-! ## TSTART (15 R253) -/

/-- The record as the issue slot can read it: from the local store, or through a walk of its address. -/
def State.peekRecord (s : State) (c : Ctx) (a : Word) : Option Granule :=
  match s.checkAddr s.slot a with
  | .ok (.store 0 t off) => s.rawRead (localKey t + off / 64 * 64)
  | .ok (.global pkg off) =>
    if pkg ≠ s.pkgNum then none
    else
      match s.walkAll c.asid off with
      | .leaf e _ =>
        if (leafFault e.e1 c.priv 0).isSome ∨ e.e0.getLsbD 3 then none
        else match s.plainRead (s.leafMap e off).key with
          | .ok g => some g
          | _ => none
      | _ => none
  | _ => none
/-- 15 Table 15-2. -/
def State.tstartStatus (s : State) (c : Ctx) (x : CtxId) (rec : Word) (win : Word) : Nat :=
  let k := s.myCore
  let st := (k.ctx x).st
  let r := s.peekRecord c rec
  let size := (win.extractLsb' 16 9).toNat
  let full := r.any fun g => (g.word 0).getLsbD 51
  if x = 0 ∨ (st ≠ .empty ∧ st ≠ .reserved) then 1
  else if !full && r.isSome && (decide (256 < size) || !k.inScratch (win.setWidth 16).toNat (64 * size)) then 2
  else if r.any fun g => (g.word 0).getLsbD 52 && !full &&
      !s.hasEntry (dieOf s.slot) ((g.word 2).extractLsb' 16 32) then 3
  else 0
def execTstart (p : Pred) (d a b c : G) (s : State) : R :=
  issue .c0 p 8 s fun k t =>
    let x : CtxId := (k.getG a).setWidth 4
    let st := t.tstartStatus k x (k.getG b) (k.getG c)
    let t := t.putG d (BitVec.ofNat 64 st)
    let w := k.getG c
    .ok (if st ≠ 0 then t
      else t.startFilling t.slot x { addr := k.getG b, prio := 0, pinned := false, asid := k.asid, enq := t.cyc }
        (some ((w.extractLsb' 16 9).toNat, (w.setWidth 16).toNat)))

end Sys2Proof.Machine
end

