-- ==== Sys2Proof/Machine/Preempt.lean ====
section
/-! DEFINITION. Retirement, the mailbox, reaps, pre-emption, evacuation, holds and the emulation window (03 R42, R55–R60; 07 R112,
R113; 15 R241, R254–R263, R269, R270; 13 R222; 17 R288). -/
namespace Sys2Proof.Machine

/-! ## TEXIT (15 R255) -/

def execTexit (p : Pred) (s : State) : R :=
  issue .any p 8 s fun c t =>
    let t := t.closeMine
    .ok (if t.myCore.cmdsOf t.cx ≠ [] ∨ t.reportsDue t.slot t.cx then t.parkMe c .texit else t.retire t.slot t.cx)

/-! ## State codes (15 Table 15-3) -/

def Ctx.code (t : Ctx) : Nat :=
  if t.halt.isSome ∨ t.reaping then 4
  else match t.st with
    | .empty => 0 | .reserved => 1 | .running => 2 | .parked => 3 | .halted => 4 | .saving => 5

/-! ## The mailbox (15 R259–R263) -/

/-- Granules waiting, the timer notice apart. -/
def Core.mboxCount (k : Core) : Nat := (k.mbox.filter fun e => !e.timer).length
/-- What a RECV of a context sees: while another context is bound, the timer notice only (15 R262). -/
def Core.mboxHead (k : Core) (x : CtxId) : Option MboxEnt :=
  if k.bound.all fun b => b == x then k.mbox.head? else k.mbox.find? fun e => e.timer
/-- Info word (15 Table 15-4). -/
def infoWord (e : MboxEnt) (left : Nat) : Word :=
  let m := e.msg
  BitVec.ofNat 64 (left % 64 * 2 ^ 53 + m.pkg.toNat * 2 ^ 48 + m.asid.toNat * 2 ^ 32 + m.kind.toNat * 2 ^ 24 +
    (if m.last then 2 ^ 21 else 0) + (if m.first then 2 ^ 20 else 0) + m.ctx.toNat * 2 ^ 16 + m.src.toNat)
/-- Remove an entry for a context: a Start without End binds the mailbox, an End ends the binding. -/
def Core.takeMbox (k : Core) (x : CtxId) (e : MboxEnt) : Core :=
  { k with
    mbox := k.mbox.erase e
    bound := if e.timer then k.bound else if e.msg.last then none else if e.msg.first then some x else k.bound }
/-- The registers that a RECV writes. -/
def State.deliver (s : State) (c : CoreId) (x : CtxId) (d : Pair) (g : G) (e : MboxEnt) : State :=
  let s := s.modCore c fun k => k.takeMbox x e
  let w := infoWord e (s.core c).mboxCount
  s.modCtx c x fun t => (t.setPair d e.msg.data).setG g w

/-- May a granule enter the mailbox's input: room for it, and its packet holds the input or none does (15 R259). -/
def Core.admits (k : Core) (m : Msg) : Bool :=
  decide (k.mboxCount < 32) &&
    (match k.inLock with
     | none => m.first
     | some l => !m.first && l == (m.pkg, m.src, m.ctx))
/-- The first of the waiting granules that may enter, its source's earlier ones first. -/
def Core.nextIn (k : Core) : List Msg → List Msg → Option Msg
  | _, [] => none
  | seen, m :: r =>
    if k.admits m ∧ ¬seen.any (fun n => n.pkg == m.pkg && n.src == m.src) then some m else k.nextIn (seen ++ [m]) r
/-- A granule enters; the rest of a reaped binder's packet is discarded as it arrives (15 R262). -/
def Core.enter (k : Core) (m : Msg) : Core :=
  { k with
    inQ := k.inQ.erase m
    inLock := if m.last then none else some (m.pkg, m.src, m.ctx)
    dropPacket := k.dropPacket && !m.last
    mbox := if k.dropPacket ∧ ¬m.first then k.mbox else k.mbox ++ [{ msg := m }] }
/-- Parked SLEEP.Ms end when the mailbox holds something (15 R248). -/
def State.wakeSleepers (s : State) (c : CoreId) : State :=
  if (s.core c).mbox.isEmpty then s
  else (List.finRange 16).foldl (fun s i =>
    let x : CtxId := BitVec.ofFin i
    match (s.ctx c x).park with
    | some (.sleep d _ true) => s.unpark c x fun t => t.setG d 1
    | _ => s) s
/-- One parked RECV, the first in the order of parking that sees a granule, is served (15 R260). -/
def State.serveOne (s : State) (c : CoreId) : State :=
  let k := s.core c
  match k.recvOrder.find? fun x => (k.mboxHead x).isSome with
  | none => s
  | some x =>
    let s := s.modCore c fun k => { k with recvOrder := k.recvOrder.erase x }
    match (k.ctx x).park, k.mboxHead x with
    | some (.recv d g), some e => (s.deliver c x d g e).unpark c x
    | _, _ => s
/-- Granules enter the mailbox, and sleepers and parked RECVs go on, until nothing moves. -/
def State.pumpMbox (s : State) (c : CoreId) : Nat → State
  | 0 => s
  | n + 1 =>
    let s := match (s.core c).nextIn [] (s.core c).inQ with
      | some m => s.modCore c fun k => k.enter m
      | none => s
    ((s.wakeSleepers c).serveOne c).pumpMbox c n
def State.pump (s : State) (c : CoreId) : State := s.pumpMbox c ((s.core c).inQ.length + 17)
/-- What a reap leaves of a mailbox whose binder it discards: the rest of the packet is gone, up to its End, and so is what
arrives of it where its End is not yet there (15 R262; log entry 69). -/
def dropRest : List MboxEnt → Bool × List MboxEnt
  | [] => (true, [])
  | e :: r => if e.timer then ((dropRest r).1, e :: (dropRest r).2) else if e.msg.last then (false, r) else dropRest r
/-- The binding of a context ends with its reap. -/
def Core.unbind (k : Core) (x : CtxId) : Core :=
  if k.bound = some x then { k with bound := none, dropPacket := (dropRest k.mbox).1, mbox := (dropRest k.mbox).2 } else k

/-! ## TREAP (15 R254) -/

/-- An access that waits on a block: a reap discards its wait. One that waits for a fault's reply is outstanding with its
replay (03 R56). -/
def AccSt.waits : AccSt → Bool
  | .placed | .relist | .notFull => true
  | _ => false
/-- An operation whose accesses have all ended, or wait on blocks. -/
def Op.ends (o : Op) : Bool := !o.accs.isEmpty && o.accs.all fun a => a.st == .done || a.st == .failed || a.st.waits
/-- Operations of a reaped thread that nothing in flight keeps outstanding end without effect: its counted stores leave the
launch's count, and the rest end as their answers arrive (15 R254). -/
def State.reapOps (s : State) (c : CoreId) (x : CtxId) : State :=
  ((s.core c).ops.filter fun o => o.ctx == x && o.ends).foldl (fun s o => s.endOp c { o with trap := none } id) s
/-- Commands of a reaped thread, and its place among the parked RECVs (13 R222, 15 R254). -/
def Core.reapUnits (k : Core) (x : CtxId) (tid : Nat) : Core :=
  { k with
    cmds := (k.cmds.filter fun m => !(m.ctx == x && m.tid == tid && !m.issued)).map fun m =>
      if m.ctx = x ∧ m.tid = tid then { m with orphan := true } else m
    recvOrder := k.recvOrder.filter fun y => y != x }
/-- Tasks of a reaped thread: those in state 1 or 3 end with cause 12, the others run to their end (17 R288). -/
def State.reapTasks (s : State) (c : CoreId) (x : CtxId) (tid : Nat) : State :=
  s.sgs.foldl (fun s e =>
    e.2.tasks.foldl (fun s k =>
      if k.core = c ∧ k.ctx = x ∧ k.tid = tid then
        let g : BitVec 8 := BitVec.ofNat 8 e.1
        let s := s.modTask g k.ticket fun k => { k with reaped := true }
        if (k.st = .issued ∨ k.st = .presence ∨ k.st = .ready) ∧ ¬k.acc.any fun a => a.st == .faulted then
          s.after 0 (.taskEndError g k.ticket 12) else s
      else s) s) s
/-- A running, parked or halted thread is discarded. -/
def State.reap (s : State) (c : CoreId) (x : CtxId) : State :=
  let t := s.ctx c x
  let s := (s.exitThread c x).failLaunch t.launch 8
  let s := ((s.modCore c fun k => (k.reapUnits x t.tid).unbind x).reapTasks c x t.tid).pump c
  (s.modCtx c x fun _ => { tid := t.tid + 1, st := .halted, reaping := true }).after 1 (.haltTakeEffect c x)
def execTreap (p : Pred) (d a : G) (s : State) : R :=
  issue .c0 p 8 s fun k t =>
    let x : CtxId := (k.getG a).setWidth 4
    let u := t.ctx t.slot x
    let t' := t.putG d (BitVec.ofNat 64 u.code)
    if u.st = .saving then .lose fun s => s.modCtx s.slot x fun m => { m with reapWaits := true }
    else if x = 0 ∨ u.st = .empty ∨ u.reaping then .ok (t'.modCtx t.slot x fun m => { m with reapWaits := false })
    else if u.st = .reserved then .ok (t'.freeCtx t.slot x)
    else .ok (t'.reap t.slot x)

/-! ## PREEMPT (03 R42, R55–R57; 15 R256) -/

/-- Local-store offset of a save slot, and whether %savebase has it wholly in scratch ways. -/
def Core.slotOff (k : Core) (i : Nat) : Nat := (k.savebase.toNat / 512 % 128) * 512 + 1536 * i
def Core.slotGood (k : Core) (i : Nat) : Bool :=
  decide (i < k.savebase.toNat / 65536 % 32) && k.inScratch (k.slotOff i) 1536
/-- A context parked on a block: at the end of a window, or while its suspension is placed. -/
def Core.blockPark (k : Core) (x : CtxId) : Bool :=
  match (k.ctx x).park with
  | some .window => (k.opsOf x).any fun o => o.accs.any fun a => a.st == .placed || a.st == .relist || a.st == .notFull
  | some (.suspend _) => true
  | _ => false
/-- A park that an accepted pre-emption ends without effect; its instruction executes again after the restore. -/
def Park.yields : Park → Bool
  | .sleep .. | .waitl .. | .recv .. | .cwait .. | .cbwait _ | .cqf .. => true
  | _ => false
def Core.preemptStatus (k : Core) (x : CtxId) (slot : Nat) : Nat :=
  let t := k.ctx x
  if k.slotGood slot = false ∨ x = 0 ∨ t.code = 0 ∨ t.code = 1 ∨ t.code = 4 ∨ t.code = 5 ∨ t.lvl ≠ 0 ∨ t.preempt.isSome then 1
  else if t.inHandler ∨ ¬t.traps.isEmpty then 0
  else if (t.st = .parked ∧ k.blockPark x) ∨ k.bound = some x then 2
  else 0
def execPreempt (p : Pred) (d a b : G) (s : State) : R :=
  issue .c0 p 8 s fun k t =>
    let x : CtxId := (k.getG a).setWidth 4
    let slot := (k.getG b).toNat % 32
    let st := t.myCore.preemptStatus x slot
    let t := t.putG d (BitVec.ofNat 64 st)
    .ok (if st = 1 then t
      else
        let t := t.rawWrite (localKey t.slot + t.myCore.slotOff slot) 0xFF 0
        (t.modCore t.slot fun k =>
          let m : Ctx := { k.ctx x with preempt := some (BitVec.ofNat 5 slot) }
          if st = 0 ∧ m.park.any Park.yields then
            { (k.setCtx x { m with park := none, acc := none, st := .running, yielded := true }) with
              recvOrder := k.recvOrder.filter fun y => y != x }
          else k.setCtx x m).after 1 (.preemptTakeEffect t.slot x))
def execPreemptQ (p : Pred) (d a : G) (s : State) : R :=
  issue .c0 p 8 s fun k t => .ok (t.putG d (BitVec.ofNat 64 (t.ctx t.slot ((k.getG a).setWidth 4)).code))

/-- An instruction boundary at which a pre-emption or a hold may take effect: no trap is pending, and no clear unreported (03
R56; 11 R180; 15 R262; 21 R332). -/
def State.boundary (s : State) (c : CoreId) (x : CtxId) : Bool :=
  let k := s.core c
  let t := k.ctx x
  t.packet == 0 && (k.opsOf x).isEmpty && t.park.isNone && !t.inHandler && !t.delivering && t.withdrawnAt.isNone &&
    k.bound != some x && !s.reportsDue c x && t.halt.isNone && t.st == .running
/-- No task of the thread is outstanding (17 R288). -/
def State.noTasks (s : State) (c : CoreId) (x : CtxId) : Bool := (s.taskTickets c x 0xFF).isEmpty
/-- PREEMPT_TAKE_EFFECT: the context is saving; copies with no beat in the network are withdrawn, and the batch is no
longer open (03 R57, 13 R221). -/
def State.preemptTakeEffect (s : State) (c : CoreId) (x : CtxId) : State :=
  let t := s.ctx c x
  if t.preempt.isNone ∨ t.st = .saving ∨ t.st = .empty then s
  else if s.boundary c x ∧ s.noTasks c x then
    (s.modCore c fun k =>
      let mine := (k.cmdsOf x).filter fun m => !m.issued
      { (k.setCtx x { k.ctx x with st := .saving, batch := false, progress := 0
                                   withdrawn := mine.map fun m => (m.word0, m.word1) }) with
        cmds := k.cmds.filter fun m => !(m.ctx == x && m.tid == t.tid && !m.issued) }).after 1 (.saveWrite c x)
  else s.after 1 (.preemptTakeEffect c x)
def execPreemptTakeEffect (s : State) : R :=
  match s.ev with
  | some (.preemptTakeEffect c x) => .next (s.preemptTakeEffect c x)
  | _ => .fault .noPendingEvent

/-- Absolute level-0 address of a local-store offset of a core (01 R14; 16 and 22's images; log entry 29). -/
def absLocal (c : CoreId) (off : Nat) : Word := BitVec.ofNat 64 (2 ^ 63 + coreX c * 2 ^ 50 + coreY c * 2 ^ 42 + off)
/-- Granule `i` of the slot that a context saves to (03 Tables 3-14, 3-15). -/
def Ctx.saveGranule (t : Ctx) (c : CoreId) (x : CtxId) (off i : Nat) : Granule :=
  let armed := (List.range 4).foldl (fun a j => a + if ((t.bars[j]?).map Barrier.armed).getD false then 2 ^ j else 0) 0
  if i = 0 then
    granuleOf
      [((t.contRecord t.pc).word 0) ||| (1 <<< 51), absLocal c off, t.member ++ t.launch ++ t.asid,
       BitVec.ofNat 64 (t.withdrawn.length * 16 + armed), BitVec.ofNat 64 (t.winSize * 65536 + t.winOff),
       (x.setWidth 64 <<< 16) ||| c.setWidth 64, 0, 0]
  else if i ≤ 4 then granuleOf ((List.range 8).map fun j => t.getG (BitVec.ofNat 5 (8 * (i - 1) + j)))
  else if i ≤ 12 then t.getV (BitVec.ofNat 4 (2 * (i - 5) + 1)) ++ t.getV (BitVec.ofNat 4 (2 * (i - 5)))
  else if i = 13 then
    granuleOf ((List.range 4).map (fun j => t.getP (BitVec.ofNat 3 (2 * j + 1)) ++ t.getP (BitVec.ofNat 3 (2 * j))) ++
      [t.rnd, t.fmt, t.scl, (t.member.setWidth 64 <<< 32) ||| t.gang.setWidth 64])
  else if i = 14 then
    granuleOf ((List.range 4).flatMap fun j =>
      let b := (t.bars[j]?).getD {}
      [b.pending.setWidth 64 ||| (if b.armed then 1 <<< 63 else 0), b.init.setWidth 64])
  else if i = 15 then 0
  else
    granuleOf ((List.range 4).flatMap fun j =>
      let w := t.withdrawn.getD (4 * (i - 16) + j) (0, 0)
      [w.1, w.2])
/-- SAVE_WRITE: once the issued copies have completed and every store is acknowledged, one granule of the slot a cycle;
the context becomes empty with the last. A trap that a copy reports first is taken first. -/
def State.saveWrite (s : State) (c : CoreId) (x : CtxId) : State :=
  let t := s.ctx c x
  match t.st, t.preempt with
  | .saving, some slot =>
    if t.progress = 0 ∧ ¬t.traps.isEmpty then
      ((s.reissue c x).modCtx c x fun t => { t with st := .running }).after 1 (.preemptTakeEffect c x)
    else if (s.core c).cmdsOf x ≠ [] ∨ (s.core c).drained x = false ∨ s.reportsDue c x then s.after 1 (.saveWrite c x)
    else
      let off := (s.core c).slotOff slot.toNat
      let s := s.rawWrite (localKey c + off + 64 * t.progress) (BitVec.allOnes 64) (t.saveGranule c x off t.progress)
      if 23 ≤ t.progress then s.freeCtx c x
      else (s.modCtx c x fun t => { t with progress := t.progress + 1 }).after 1 (.saveWrite c x)
  | _, _ => s
def execSaveWrite (s : State) : R :=
  match s.ev with
  | some (.saveWrite c x) => .next (s.saveWrite c x)
  | _ => .fault .noPendingEvent

/-! ## EVAC (03 R59, 15 R257) -/

/-- Granule `i` of an evacuation: where it goes and what it holds: the slot with the destination in header word +0x08,
then the window. -/
def State.evacPart (s : State) (c : CoreId) (slot : Nat) (dest : Word) (i : Nat) : Option Access :=
  let base := localKey c + (s.core c).slotOff slot
  let w := (s.word (base + 0x20)).toNat
  let size := w / 65536 % 512
  let off := w % 65536
  let g := if i = 0 then (s.granule base).setWord 1 dest
    else if i < 24 then s.granule (base + 64 * i)
    else s.granule (localKey c + off + 64 * (i - 24))
  if i < 24 + size then
    some { va := dest + BitVec.ofNat 64 (64 * i), mask := BitVec.allOnes 64, op := .write (BitVec.allOnes 64) g }
  else none
/-- The granule that part `i` of an evacuation reads, where it fails its check (05 R88). -/
def State.evacBad (s : State) (c : CoreId) (slot : Nat) (i : Nat) : Option Nat :=
  let base := localKey c + (s.core c).slotOff slot
  let k := if i < 24 then base + 64 * i else localKey c + (s.word (base + 0x20)).toNat % 65536 + 64 * (i - 24)
  if s.eccOf k = 2 then some (k / 64 * 64) else none
def execEvac (p : Pred) (d a b : G) (s : State) : R :=
  issue .c0 p 8 s fun k t =>
    let slot := (k.getG a).toNat % 32
    let dest := k.getG b
    if odd64 dest then .trap 1 dest
    else if isCoord dest then .trap 5 dest
    else
      match t.checkAddr t.slot dest with
      | .error cause => .trap cause dest
      | .ok _ =>
        if t.myCore.savebase.toNat / 65536 % 32 ≤ slot then .ok (t.putG d 1)
        else match t.evacBad t.slot slot 0 with
        | some key => .ok (t.checkAtIssue k key)
        | none =>
        if (t.word (localKey t.slot + t.myCore.slotOff slot)).getLsbD 51 = false then .ok (t.putG d 1)
        else
          .ok (((t.parkMe k (.evac d slot dest 0)).setAcc (.park t.slot t.cx) (t.evacPart t.slot slot dest 0)).after 1
            (.evacAcknowledged t.slot))
/-- EVAC_ACKNOWLEDGED: a granule of the evacuation is acknowledged; after the last, context 0 goes on. -/
def State.evacGo (s : State) (c : CoreId) : State :=
  let t := s.ctx c 0
  let who := Agent.park c 0
  match t.park, t.acc with
  | some (.evac d slot dest n), some a =>
    match a.st with
    | .fresh => s.go who
    | .done =>
      match s.evacPart c slot dest (n + 1) with
      | some b =>
        match s.evacBad c slot (n + 1) with
        | some key => (s.setAcc who none).after 0 (.machineCheck 1 key (some who))
        | none => ((s.modCtx c 0 fun t => { t with park := some (.evac d slot dest (n + 1)) }).setAcc who (some b)).go who
      | none => (s.setAcc who none).unpark c 0 fun t => t.setG d 0
    | .failed =>
      let s := s.setAcc who none
      if a.cause = 12 then s.checkFail a who
      else (s.unpark c 0).raise c 0 { kind := 1, cause := a.cause, pc := t.pc, addr := a.va, order := (s.core c).nextId }
    | _ => s
  | _, _ => s
def execEvacAcknowledged (s : State) : R :=
  match s.ev with
  | some (.evacAcknowledged c) => .next (s.evacGo c)
  | _ => .fault .noPendingEvent

/-! ## HOLDT, RESUMET (15 R269) -/

/-- A thread name (15 R241). -/
def nameCore (w : Word) : CoreId := w.setWidth 16
def nameCtx (w : Word) : CtxId := w.extractLsb' 16 4
def execHoldt (p : Pred) (d a : G) (s : State) : R :=
  issue .sOnly p 8 s fun k t =>
    let c := nameCore (k.getG a)
    let x := nameCtx (k.getG a)
    if t.reachable t.slot c = false then .trap 4 0
    else
      let u := t.ctx c x
      .ok (if x = 0 ∨ u.st = .empty ∨ u.st = .reserved ∨ u.st = .saving then t.putG d 1
        else if u.st = .halted then t.putG d 2
        else
          (((t.parkMe k (.holdt d c x)).modCtx c x fun m => { m with hold := true }).after 1 (.haltTakeEffect c x)).after 4096
            (.holdtTimeout t.slot t.cx t.cyc))
/-- Issuers parked in HOLDT for a thread go on with a status. -/
def State.holdtDone (s : State) (c : CoreId) (x : CtxId) : State :=
  s.cores.foldl (fun s e =>
    (List.finRange 16).foldl (fun s i =>
      let d : CoreId := BitVec.ofNat 16 e.1
      let y : CtxId := BitVec.ofFin i
      match (s.ctx d y).park with
      | some (.holdt g c' x') =>
        if c' = c ∧ x' = x then
          ({ s with agenda := s.agenda.filter fun e => match e.2 with
              | .holdtTimeout d' y' _ => !(d' == d && y' == y)
              | _ => true } : State).unpark d y fun t => t.setG g 0
        else s
      | _ => s) s) s
/-- HALT_TAKE_EFFECT: a halting context is halted once nothing of it is outstanding, a held one at an instruction
boundary, and a reaped one becomes empty (07 R112, 15 R254, R269). -/
def State.haltTakeEffect (s : State) (c : CoreId) (x : CtxId) : State :=
  let k := s.core c
  let t := k.ctx x
  if t.reaping then
    let s := s.reapOps c x
    if (s.core c).ops.any fun o => o.ctx == x then s.after 1 (.haltTakeEffect c x)
    else (s.modCtx c x fun t => { t with reaping := false }).freeCtx c x
  else if t.st = .halted then (if t.hold then (s.modCtx c x fun t => { t with hold := false }).holdtDone c x else s)
  else if t.st = .empty ∨ t.st = .reserved then s
  else
    match t.halt with
    | some (.illegal ..) => if t.hold then s.after 1 (.haltTakeEffect c x) else s
    | some _ =>
      if (k.opsOf x).isEmpty then
        let s := s.modCtx c x fun t => { t with st := .halted, delivering := false, hold := false }
        if t.hold then s.holdtDone c x else s
      else s.after 1 (.haltTakeEffect c x)
    | none =>
      if t.hold = false then s
      else if s.boundary c x then
        (s.modCtx c x fun t => { t with st := .halted, halt := some .hold, hold := false }).holdtDone c x
      else s.after 1 (.haltTakeEffect c x)
def execHaltTakeEffect (s : State) : R :=
  match s.ev with
  | some (.haltTakeEffect c x) => .next (s.haltTakeEffect c x)
  | _ => .fault .noPendingEvent
/-- HOLDT_TIMEOUT: the issuer goes on with status 3, and the hold stays in force. -/
def State.holdtTimeout (s : State) (c : CoreId) (x : CtxId) : State :=
  match (s.ctx c x).park with
  | some (.holdt d ..) => s.unpark c x fun t => t.setG d 3
  | _ => s
def execHoldtTimeout (s : State) : R :=
  match s.ev with
  | some (.holdtTimeout c x _) => .next (s.holdtTimeout c x)
  | _ => .fault .noPendingEvent
def execResumet (p : Pred) (d a : G) (s : State) : R :=
  issue .sOnly p 8 s fun k t =>
    let c := nameCore (k.getG a)
    let x := nameCtx (k.getG a)
    if t.reachable t.slot c = false then .trap 4 0
    else
      let u := t.ctx c x
      .ok (if u.st ≠ .halted ∨ u.reaping then (t.modCtx c x fun m => { m with hold := false }).putG d 1
        else if u.halt = some .containment then t.putG d 2
        else
          let due := !u.traps.isEmpty && !u.inHandler
          let t := (t.modCtx c x fun m => { m with st := .running, halt := none, delivering := due }).putG d 0
          if due then t.after 1 (.trapDelivery c x) else t)

/-! ## The emulation window (07 R113, 15 R270) -/

def Ctx.emuRead (t : Ctx) (i : Nat) : Word :=
  if i < 0x20 then t.getG (BitVec.ofNat 5 i)
  else if 0x40 ≤ i ∧ i < 0x80 then (t.getV (BitVec.ofNat 4 ((i - 0x40) / 4))).extractLsb' (64 * (i % 4)) 64
  else if 0x80 ≤ i ∧ i < 0x88 then (t.getP (BitVec.ofNat 3 (i - 0x80))).setWidth 64
  else if i = 0xC0 then t.pc
  else if i = 0xC1 then t.rnd
  else if i = 0xC2 then t.asid.setWidth 64
  else 0
def Ctx.emuWrite (t : Ctx) (i : Nat) (x : Word) : Ctx :=
  if i < 0x20 then t.setG (BitVec.ofNat 5 i) x
  else if 0x40 ≤ i ∧ i < 0x80 then
    let v : V := BitVec.ofNat 4 ((i - 0x40) / 4)
    let m : BitVec 256 := (BitVec.ofNat 256 (2 ^ 64 - 1)) <<< (64 * (i % 4))
    t.setV v ((t.getV v &&& ~~~m) ||| ((x.setWidth 256) <<< (64 * (i % 4))))
  else if 0x80 ≤ i ∧ i < 0x88 then t.setP (BitVec.ofNat 3 (i - 0x80)) (x.setWidth 32)
  else if i = 0xC0 then { t with pc := x }
  else if i = 0xC1 then { t with rnd := rndWrite x }
  else t
def emuBody (p : Pred) (d : Option G) (a b : G) (value : Ctx → Word) (s : State) : R :=
  issue .sOnly p 8 s fun k t =>
    let c := nameCore (k.getG a)
    if t.reachable t.slot c = false then .trap 4 0
    else
      .ok ((t.parkMe k (.emu d c (nameCtx (k.getG a)) ((k.getG b).toNat % 4096) (value k))).meshAfter (sgIdx t.slot) (sgIdx c)
        .request (.emulationRoundTrip t.slot t.cx))
def execEmur (p : Pred) (d a b : G) (s : State) : R := emuBody p (some d) a b (fun _ => 0) s
def execEmuw (p : Pred) (a b c : G) (s : State) : R := emuBody p none a b (fun k => k.getG c) s
/-- The answer of an emulation access leaves its target. -/
def State.emuReply (s : State) (target c : CoreId) (x : CtxId) (w : Word) : State :=
  s.meshAfter (sgIdx target) (sgIdx c) .response (.emulationAnswer c x w)
/-- EMULATION_ROUND_TRIP: the read or write reaches its target: of a halted thread it is performed once every access that the
thread issued has been, and its answer goes back (15 R270). -/
def State.emulationRoundTrip (s : State) (c : CoreId) (x : CtxId) : State :=
  match (s.ctx c x).park with
  | some (.emu d tc tx i v) =>
    if (s.ctx tc tx).st ≠ .halted then (s.count c 15).emuReply tc c x 0
    else if s.allPerformed tc tx = false then s.after 1 (.emulationRoundTrip c x)
    else
      match d with
      | some _ => s.emuReply tc c x ((s.ctx tc tx).emuRead i)
      | none => (s.modCtx tc tx fun t => t.emuWrite i v).emuReply tc c x 0
  | _ => s
/-- The answer of EMUR or EMUW is back: the park ends. -/
def State.emulationAnswer (s : State) (c : CoreId) (x : CtxId) (w : Word) : State :=
  match (s.ctx c x).park with
  | some (.emu (some d) ..) => s.unpark c x fun t => t.setG d w
  | some (.emu none ..) => s.unpark c x
  | _ => s
def execEmulationRoundTrip (s : State) : R :=
  match s.ev with
  | some (.emulationRoundTrip c x) => .next (s.emulationRoundTrip c x)
  | some (.emulationAnswer c x w) => .next (s.emulationAnswer c x w)
  | _ => .fault .noPendingEvent

end Sys2Proof.Machine
end

