-- ==== Sys2Proof/Machine/Mailbox.lean ====
section
/-! DEFINITION. Messages, the mailbox and the core timer (15 R258–R264, 01 R18). -/
namespace Sys2Proof.Machine

/-! ## Arrival -/

/-- MAILBOX_ARRIVAL: a granule reaches its target's mailbox input. -/
def execMailboxArrival (s : State) : R :=
  match s.ev with
  | some (.mailboxArrival m) => .next ((s.modCore m.dst fun k => { k with inQ := k.inQ ++ [m] }).pump m.dst)
  | _ => .fault .noPendingEvent
/-- GANG_START_RECORD: the gang placer's record reaches the core as a message of Kind 4, from the core itself (15 R258). -/
def execGangStartRecord (s : State) : R :=
  match s.ev with
  | some (.gangStartRecord c r) =>
    .next ((s.modCore c fun k => { k with inQ := k.inQ ++
      [{ dst := c, pkg := s.pkgNum, kind := 4, src := c, ctx := 0, asid := 0, first := true, last := true, data := r }] }).pump c)
  | _ => .fault .noPendingEvent

/-! ## SEND (15 R259) -/

/-- The target is absent, outside the partition, or above Top. -/
def State.sendBad (s : State) (w : Word) : Bool :=
  let p : BitVec 5 := w.extractLsb' 16 5
  if s.pkgTop.toNat < p.toNat then true
  else if p = s.pkgNum then s.reachable s.slot (w.setWidth 16) = false
  else false
def execSend (p : Pred) (st en : Bool) (a : G) (b : Pair) (s : State) : R :=
  issue .any p 8 s fun c t =>
    let w := c.getG a
    if t.sendBad w then .trap 4 0
    else if 16 ≤ t.myCore.sendQ.length ∨ t.myCore.drained t.cx = false then .lose
    else
      let last := en || c.packet == 3
      let m : Msg := { dst := w.setWidth 16, pkg := w.extractLsb' 16 5, kind := 0, src := t.slot, ctx := t.cx, asid := c.asid
                       first := c.packet == 0, last := last, data := c.getPair b }
      let _ := st
      .ok (((t.modMe fun k => { k with packet := if last then 0 else c.packet + 1 }).modCore t.slot fun k =>
        { k with sendQ := k.sendQ ++ [m] }).afterFree (.meshCreditReturn t.slot))
/-- A granule of a core waits in the network for its target's mailbox: the credits stop the core's queue (15 R259, 01 R18;
log entry 81). -/
def State.sendStopped (s : State) (c : CoreId) : Bool :=
  s.cores.any fun e => e.2.inQ.any fun m => m.kind == 0 && m.src == c && m.pkg == s.pkgNum
/-- MESH_CREDIT_RETURN: the head of the send queue enters the mesh once its credits allow it. In the queue `pkg` names the
target; on the way it names the source. -/
def State.meshCredit (s : State) (c : CoreId) : State :=
  match (s.core c).sendQ with
  | [] => s
  | m :: r =>
    if s.sendStopped c then s.after 1 (.meshCreditReturn c)
    else
      let s := s.modCore c fun k => { k with sendQ := r }
      let m' := { m with pkg := s.pkgNum }
      if m.pkg = s.pkgNum then s.sendMsg m' else { s with outbox := s.outbox ++ [.message m' m.pkg] }
def execMeshCreditReturn (s : State) : R :=
  match s.ev with
  | some (.meshCreditReturn c) => .next (s.meshCredit c)
  | _ => .fault .noPendingEvent

/-! ## RECV (15 R260) -/

def execRecv (p : Pred) (d : Pair) (c : G) (s : State) : R :=
  issue .any p 8 s fun k t =>
    .ok (match t.myCore.mboxHead t.cx with
      | some e => (t.deliver t.slot t.cx d c e).pump t.slot
      | none => (t.parkMe k (.recv d c)).modCore t.slot fun k => { k with recvOrder := k.recvOrder ++ [t.cx] })
def execRecvT (p : Pred) (d : Pair) (c : G) (s : State) : R :=
  issue .any p 8 s fun _ t =>
    .ok (match t.myCore.mboxHead t.cx with
      | some e => (t.deliver t.slot t.cx d c e).pump t.slot
      | none => t.putG c (1 <<< 63))
/-- %mbox (15 Table 15-5). -/
def Core.mboxWord (k : Core) : Word :=
  BitVec.ofNat 64 (k.mboxCount + (match k.bound with | some b => 256 + b.toNat * 4096 | none => 0) +
    (if k.mbox.any MboxEnt.timer then 65536 else 0))

/-! ## The timer (15 R261, R264) -/

def timerArmed (w : Word) : Bool := w.getLsbD 63
def timerDeadline (w : Word) : Nat := w.toNat % 2 ^ 62
/-- The timer is armed: it fires at its deadline, at the earliest in the next cycle. -/
def State.armTimer (s : State) (c : CoreId) : State :=
  let w := (s.core c).timer
  if timerArmed w then s.after (max 1 (timerDeadline w - s.cyc % 2 ^ 64)) (.timerFire c) else s
/-- A timer notice takes the reserved place; at most one waits. -/
def Core.timerNotice (k : Core) (c : CoreId) (pkg : BitVec 5) : Core :=
  if k.mbox.any MboxEnt.timer then k
  else
    { k with mbox := k.mbox ++
      [{ timer := true
         msg := { dst := c, pkg := pkg, kind := 5, src := c, ctx := 0, asid := 0, first := true, last := true, data := 0 } }] }
/-- TIMER_FIRE: an armed timer whose deadline has come. -/
def State.timerFire (s : State) (c : CoreId) : State :=
  let w := (s.core c).timer
  if timerArmed w ∧ timerDeadline w ≤ s.cyc % 2 ^ 64 then
    (s.modCore c fun k =>
      { (k.timerNotice c s.pkgNum) with timer := (w &&& 0x7FFFFFFFFFFFFFFF) ||| 0x4000000000000000 }).pump c
  else s
def execTimerFire (s : State) : R :=
  match s.ev with
  | some (.timerFire c) => .next (s.timerFire c)
  | _ => .fault .noPendingEvent
/-- Armed with a deadline; Fired stays. -/
def State.setDeadline (s : State) (d : Word) : State :=
  (s.modCore s.slot fun k =>
    { k with timer := (k.timer &&& 0x4000000000000000) ||| 0x8000000000000000 ||| (d &&& 0x3FFFFFFFFFFFFFFF) }).armTimer s.slot
def execTimer (p : Pred) (a : G) (s : State) : R := issue .c0 p 8 s fun k t => .ok (t.setDeadline (k.getG a))
def execTimerRel (p : Pred) (a : G) (s : State) : R := issue .c0 p 8 s fun k t => .ok (t.setDeadline (t.cycW + k.getG a))
def execTimerOff (p : Pred) (s : State) : R :=
  issue .c0 p 8 s fun _ t => .ok (t.modCore t.slot fun k => { k with timer := k.timer &&& 0x7FFFFFFFFFFFFFFF })

end Sys2Proof.Machine
end

