-- ==== Sys2Proof/Machine/System.lean ====
section
/-! DEFINITION. Traps and returns, special registers, translation invalidates, fault replies, snapshots, counters and the
ways of the stores (15 R265–R274; 07 R108; 05 R69, R81, R84). -/
namespace Sys2Proof.Machine

/-! ## TRAP, ERET (15 R265, 21 R331) -/

def execTrap (p : Pred) (code : BitVec 32) (s : State) : R :=
  issue .any p 8 s fun _ _ => .trap 11 (code.setWidth 64)
def eretBody (p : Pred) (next : Bool) (s : State) : R :=
  issue .any p 8 s fun c t =>
    let k := t.recordKey t.slot t.cx
    if c.inHandler = false then .trap 10 0
    else if t.eccOf k = 2 then .ok (t.checkAtIssue c k)
    else .ok (t.returnTrap t.slot t.cx next)
def execEret (p : Pred) (s : State) : R := eretBody p false s
def execEretNext (p : Pred) (s : State) : R := eretBody p true s

/-! ## MOVS (07 Table 7-10) -/

/-- Table 1-3, 1-4, 1-5. -/
def coreWord (c : CoreId) : Word :=
  BitVec.ofNat 64 ((quadOf c).toNat * 2 ^ 19 + (dieOf c).toNat * 2 ^ 16) ||| c.setWidth 64
def ctxWord (x : CtxId) (p : Priv) : Word := (p.code.setWidth 64 <<< 4) ||| x.setWidth 64
def State.pkgWord (s : State) (c : CoreId) : Word := (s.pkg &&& 0x1F1F) ||| ((s.partOf c).setWidth 64 <<< 16)
def State.readSr (s : State) (c : CoreId) (x : CtxId) (pc : Word) (sr : Nat) : Word :=
  let k := s.core c
  let t := k.ctx x
  if h : sr < 0x28 ∧ 0x20 ≤ sr then (k.evc[sr - 0x20]'(by omega)).setWidth 64
  else match sr with
  | 0x00 => pc
  | 0x01 => ctxWord x t.priv
  | 0x02 => coreWord c
  | 0x03 => s.pkgWord c
  | 0x04 => t.asid.setWidth 64
  | 0x05 => t.lvl.setWidth 64
  | 0x06 => (t.member.setWidth 64 <<< 32) ||| t.gang.setWidth 64
  | 0x07 => t.launch.setWidth 64
  | 0x08 => t.fmt
  | 0x09 => t.scl
  | 0x0A => t.rnd
  | 0x0B => s.cycW
  | 0x0C => k.tvec
  | 0x10 => k.savebase
  | 0x11 => k.rqspill
  | 0x12 => k.age
  | 0x13 => k.rqhi
  | 0x14 => k.timer
  | 0x15 => k.mboxWord
  | 0x18 => s.heatk
  | 0x19 => s.heatd
  | 0x1A => s.fltsvc[(dieOf c).toNat]
  | 0x1B => s.supv[(dieOf c).toNat]
  | _ => 0
/-- What a write of a special register does at a level. -/
inductive SrAccess where
  | trap | ignore | write
deriving DecidableEq, Repr
def srAccess (sr : Nat) (p : Priv) : SrAccess :=
  if sr = 0x0A then .write
  else if p = .u then .trap
  else match sr with
  | 0x00 | 0x15 => .trap
  | 0x01 | 0x02 | 0x03 | 0x05 | 0x06 | 0x07 | 0x08 | 0x09 | 0x0B => .ignore
  | 0x10 | 0x11 | 0x12 | 0x13 | 0x14 => if p = .m then .write else .trap
  | 0x1A | 0x1B => if p = .s then .write else .trap
  | _ => .write
/-- A write of %timer sets its fields; Fired is cleared by a one (15 Table 15-6). -/
def timerWrite (old x : Word) : Word :=
  (x &&& 0xBFFFFFFFFFFFFFFF) ||| (old &&& 0x4000000000000000 &&& ~~~x)
def State.writeSr (s : State) (c : CoreId) (x : CtxId) (sr : Nat) (w : Word) : State :=
  if h : sr < 0x28 ∧ 0x20 ≤ sr then
    s.modCore c fun k => { k with evc := k.evc.set (sr - 0x20) (w.setWidth 32) (by omega) }
  else match sr with
  | 0x04 => s.modCtx c x fun t => { t with asid := w.setWidth 16 }
  | 0x0A => s.modCtx c x fun t => { t with rnd := rndWrite w }
  | 0x0C => s.modCore c fun k => { k with tvec := w &&& 0xFFFFFFFFFFFCFC01 }
  | 0x10 => s.modCore c fun k => { k with savebase := w &&& 0x1FFE00 }
  | 0x11 => (s.modCore c fun k => { k with rqspill := w &&& 0xFFFFFFFFFFFFF00F }).after 1 (.ringRefill c)
  | 0x12 => s.modCore c fun k => { k with age := w &&& 0xFFFFFF }
  | 0x13 => s.modCore c fun k => { k with rqhi := w &&& 0xFF }
  | 0x14 => (s.modCore c fun k => { k with timer := timerWrite k.timer w }).armTimer c
  | 0x18 => { s with heatk := w &&& 0xF }
  | 0x19 => { s with heatd := w &&& 0x3F }
  | 0x1A => { s with fltsvc := s.fltsvc.set (dieOf c).toNat (w &&& 0x800000000000FFFF) }
  | 0x1B => { s with supv := s.supv.set (dieOf c).toNat (w &&& 0x800000000000FFFF) }
  | _ => s
/-- An outstanding operation of the thread that can set a flag (09 R126). -/
def Core.flagsOut (k : Core) (x : CtxId) : Bool :=
  (k.opsOf x).any fun o => match o.kind with | .calcV .. => true | _ => false
def execMovsRead (p : Pred) (d : G) (sr : BitVec 7) (s : State) : R :=
  issue .any p 8 s fun c t =>
    if sr = 0x0A ∧ t.myCore.flagsOut t.cx then .lose
    else .ok (t.putG d (t.readSr t.slot t.cx c.pc sr.toNat))
/-- A write that Table 7-10 forbids at the issuer's level is a privilege failure: step 2 of Table 7-6, before the predicate. -/
def execMovsWrite (p : Pred) (sr : BitVec 7) (a : G) (s : State) : R :=
  if srAccess sr.toNat s.me.priv = .trap then .next (s.issueTrap 8 10 0)
  else issue .any p 8 s fun c t =>
    .ok (if srAccess sr.toNat c.priv = .write then t.writeSr t.slot t.cx sr.toNat (c.getG a) else t)

/-! ## MOVC (05 R69; 07 R108; 15 R266) -/

/-- The store that a selector's register belongs to, and the register's index in `rgns`. -/
def rgnStore (c : CoreId) (sel : BitVec 7) : Nat := storeKey ((sel.toNat - 0x40) / 4 + 1) c
def rgnIdx (c : CoreId) (sel : BitVec 7) : Nat := 4 * (rgnStore c sel / 2 ^ 22) + sel.toNat % 4
def State.rgn (s : State) (c : CoreId) (sel : BitVec 7) : Word := SMap.get 0 s.rgns (rgnIdx c sel)
def execMovcRead (p : Pred) (d : G) (sr : BitVec 7) (s : State) : R :=
  issue .any p 8 s fun _ t => .ok (t.putG d (t.rgn t.slot sr))
def execMovcWrite (p : Pred) (sr : BitVec 7) (a : G) (s : State) : R :=
  issue .c0 p 8 s fun c t => .ok ((t.parkMe c (.movc sr (c.getG a))).afterFree (.storeWipeDone t.slot))
/-- Keys of a region register's extent within its store. -/
def rgnExtent (store : Nat) (w : Word) : Nat × Nat :=
  if w.getLsbD 63 then
    let z := storeSize (levelOfKey store)
    (store + min z ((w.setWidth 16).toNat * 4096), store + min z ((w.extractLsb' 16 16).toNat * 4096))
  else (store, store)
/-- The lowest block of an extent of a store whose tag state is deferred. -/
def State.deferredIn (s : State) (level : Nat) (t : CoreId) (e : Nat × Nat) : Option Nat :=
  (s.atoms.find? fun a =>
    decide (e.1 ≤ 64 * a.1 ∧ 64 * a.1 < e.2) &&
      (let m := s.storeMap level t (64 * a.1 - storeKey level t)
       m.blk == 64 * a.1 && (s.tagOf m.blk m.n).any fun g => g.st == 1)).map fun a => 64 * a.1
/-- MOVC's write: refused by a deferred block of the old or the new extent, else both extents are wiped (05 R69). -/
def State.movcDone (s : State) (c : CoreId) (sel : BitVec 7) (v : Word) : State :=
  let t := s.ctx c 0
  let st := rgnStore c sel
  let new := v &&& 0x80000007FFFFFFFF
  let e0 := rgnExtent st (s.rgn c sel)
  let e1 := rgnExtent st new
  let l := (sel.toNat - 0x40) / 4 + 1
  match (s.deferredIn l c e0).or (s.deferredIn l c e1) with
  | some b =>
    (s.modCtx c 0 fun t => { t with park := none, st := .running }).raise c 0
      { kind := 0, cause := 3, pc := t.pc, len := 2, addr := keyAddr b, order := (s.core c).nextId }
  | none =>
    let s : State := { s with rgns := SMap.set 0 s.rgns (rgnIdx c sel) new }
    ((((s.wipe e0.1 e0.2).wipe e1.1 e1.2).releaseIn e0.1 e0.2).releaseIn e1.1 e1.2).unpark c 0

/-! ## WAYM, SGWAY (05 R81, R84; 15 R273, R274) -/

/-- A way holds part of a save slot. -/
def Core.slotWay (k : Core) (w : Nat) : Bool :=
  let b := k.slotOff 0
  let e := k.slotOff (k.savebase.toNat / 65536 % 32)
  decide (b < e) && decide (w * 4096 < e) && decide (b < (w + 1) * 4096)
def Core.waymBad (k : Core) (m : BitVec 12) : Bool :=
  decide (popCount m < 2) || m.getLsbD 11 ||
    (List.range 12).any fun w => m.getLsbD w && !k.ways.getLsbD w && k.slotWay w
def execWaym (p : Pred) (d a : G) (s : State) : R :=
  issue .c0 p 8 s fun c t =>
    let m : BitVec 12 := (c.getG a).setWidth 12
    let k := t.myCore
    if k.waymBad m then .ok (t.putG d 1)
    else
      let changed := (List.range 12).filter fun w => m.getLsbD w != k.ways.getLsbD w
      let scratch := (changed.filter fun w => !m.getLsbD w).length
      let t := changed.foldl (fun t w =>
        t.wipe (localKey t.slot + w * 4096) (localKey t.slot + (w + 1) * 4096)) t
      .ok (((t.modCore t.slot fun k => { k with ways := m, code := [], wayBusy := true }).parkMe c (.waym d scratch)).after
        (max 1 (64 * scratch)) (.storeWipeDone t.slot))
def execSgway (p : Pred) (d a : G) (s : State) : R :=
  issue .c0 p 8 s fun c t =>
    let m : BitVec 16 := (c.getG a).setWidth 16
    if m = 0 ∨ 8 < popCount m then .ok (t.putG d 1)
    else
      let sg := sgIdx t.slot
      let first := (t.sgwayAt sg).isNone
      let t : State := { t with sgway := t.sgway ++ [(sg, t.slot, m, 0)] }
      let t := t.parkMe c (.sgway d)
      .ok (if first then t.afterFree (.storeWipeDone t.slot) else t)
/-- Step 4 of Table 5-9: a waiting list drained as a withdrawal. -/
def State.withdrawWaiter (s : State) (w : Waiter) : State :=
  match w.desc with
  | .cont a c asid prio pinned =>
    ({ s with withdrawnConts := s.withdrawnConts ++ [(a.setWidth 64, asid, w.blk)] } : State).wakeCont w.blk (a.setWidth 64) c asid
      prio pinned
  | .parked who .. => s.answer who 1 (.trap who.idx 7)
  | .task sg tk => s.answer (.task sg tk) 1 (.trap 0 7)
  | .copy c _ _ q => s.answer (.copy c q) 1 (.trap 0 257)
  | .token .. => s
/-- Evict lines of one set, of the cache's choice. -/
def State.trimSet (s : State) (sg : BitVec 8) (l : List Nat) : Nat → State
  | 0 => s
  | n + 1 =>
    let r := s.choose l.length
    (r.2.cacheEvict sg (l.getD r.1 0)).trimSet sg (l.eraseIdx r.1) n
/-- Lines of a cache's set, and the sets that hold more lines than a number of ways. -/
def State.setLines (s : State) (sg : BitVec 8) (i : Nat) : List Nat :=
  (linesOf s.coh.lines sg.toNat).filter fun l => cacheSet l == i
def State.overfull (s : State) (sg : BitVec 8) (ways : Nat) : List Nat :=
  (((linesOf s.coh.lines sg.toNat).map cacheSet).eraseDups).filter fun i => decide (ways < (s.setLines sg i).length)
/-- Lines of the cache that lie in the ways that leave it are written back and invalidated; which way holds a line is the
cache's choice (05 Table 5-9, step 1). -/
def State.trimCache (s : State) (sg : BitVec 8) (ways : Nat) : State :=
  if s.agenda.any fun e => match e.2 with | .snoopFilterEvict d l => d == dieOfSg sg && (s.lineAt sg l).st != .i | _ => false
  then s
  else (s.overfull sg ways).foldl (fun s i => let l := s.setLines sg i; s.trimSet sg l (l.length - ways)) s
/-- A copy that an SGWAY lets run on has not ended. One that waits on a block of a way that leaves block use does not end
before the withdrawal. -/
def State.runsOn (s : State) (sg : BitVec 8) (m : Cmd) : Bool :=
  m.before.contains sg && !(m.acc.any fun a => a.st == .placed && a.map.any fun p => s.leaving p.blk)
/-- Addresses of the granules of a copy that their stores have accepted: those it has gone past, the source granule that it has
read, and the access in progress where it is performed. -/
def Cmd.accepted (m : Cmd) : List Word :=
  let done := (List.range (m.off / 64)).flatMap fun i =>
    let n : Cmd := { m with off := 64 * i }
    [n.src, n.dst]
  let now := (m.acc.filter fun a => a.st == .performed || a.st == .done).map Access.va
  done ++ (if m.writing then [m.src] else []) ++ now.toList
/-- An address of a core lies in a way of the supergroup that its running SGWAY takes out of block use. -/
def State.leavingVa (s : State) (sg : BitVec 8) (c : CoreId) (va : Word) : Bool :=
  match s.checkAddr c va with
  | .ok (.store l t o) => l == 3 && sgIdx t == sg && s.leaving (storeKey l t + o)
  | _ => false
/-- Steps 1 and 2 of Table 5-9 begin: copies with an accepted beat in the ways run on. -/
def State.sgwayBegin (s : State) (sg : BitVec 8) : State :=
  let mark := fun (c : CoreId) (m : Cmd) =>
    if m.accepted.any fun va => s.leavingVa sg c va then { m with before := sg :: m.before } else m
  { s with cores := s.cores.map fun e => (e.1, { e.2 with cmds := e.2.cmds.map (mark (BitVec.ofNat 16 e.1)) }) }
/-- The SGWAY is over for every copy. -/
def State.sgwayEnd (s : State) (sg : BitVec 8) : State :=
  let clear := fun m : Cmd => { m with before := m.before.filter fun g => g != sg }
  { s with cores := s.cores.map fun e => (e.1, { e.2 with cmds := e.2.cmds.map clear }) }
/-- Steps 1 and 2 are over: no line is left in the ways that join block use, and every copy that ran on has ended. -/
def State.sgwayReady (s : State) (sg : BitVec 8) (m : BitVec 16) : Bool :=
  (s.overfull sg (popCount (s.plainWays sg.toNat &&& m))).isEmpty && s.cores.all fun e => e.2.cmds.all fun k =>
    !s.runsOn sg k
/-- Steps 3 to 5 of SGWAY for one supergroup (05 Table 5-9). -/
def State.sgwayDone (s : State) (sg : BitVec 8) (m : BitVec 16) : State :=
  let st := 2 ^ 63 + sg.toNat * 2 ^ 22
  let old := s.plainWays sg.toNat
  let leave := (List.range 16).filter fun w => m.getLsbD w && !old.getLsbD w
  let join := (List.range 16).filter fun w => !m.getLsbD w && old.getLsbD w
  let inLeave := fun k : Nat => decide (st ≤ k) && decide (k < st + 2 ^ 22) && leave.contains (k % 2 ^ 22 / 262144)
  let gone := s.waiters.filter fun w => inLeave w.blk
  let held := s.banks.filter fun b => ((s.acc b.who).bind Access.map).any fun a => inLeave a.key
  let s := (leave ++ join).foldl (fun s w => s.wipe (st + w * 262144) (st + (w + 1) * 262144)) s
  let s := gone.foldl (fun s w => s.withdrawWaiter w) s
  let late := (s.held.filter fun h => inLeave h.blk).map fun h => h.who
  let s : State := { s with banks := s.banks.filter fun b => !held.contains b
                            held := s.held.filter fun h => !inLeave h.blk }
  let s : State := { s with sgWays := SMap.set 0 s.sgWays sg.toNat (m ^^^ 0xF000) }
  (held.map (fun b => b.who) ++ late).foldl (fun s w =>
    match w with
    | .copy .. | .task .. => s.answer w 1 (.trap 0 6)
    | .clr .. => s.performAt w 1
    | _ => s.answer w 1 (.trap w.idx 5)) s
/-- STORE_WIPE_DONE: context 0's MOVC, WAYM or SGWAY ends. -/
def State.storeWipeDone (s : State) (c : CoreId) : State :=
  match (s.ctx c 0).park with
  | some (.movc sel v) => s.movcDone c sel v
  | some (.waym d _) => (s.modCore c fun k => { k with wayBusy := false }).unpark c 0 fun t => t.setG d 0
  | some (.sgway d) =>
    let sg := sgIdx c
    match s.sgwayAt sg with
    | some (i, m) =>
      if i ≠ c then s
      else if s.sgway.any (fun e => e.1 == sg && e.2.1 == c && e.2.2.2 == 0) then
        (({ s with sgway := s.sgway.map fun e => if e.1 = sg ∧ e.2.1 = c then (e.1, e.2.1, e.2.2.1, 1) else e } :
          State).sgwayBegin sg |>.trimCache sg (popCount (s.plainWays sg.toNat &&& m))).after 1 (.storeWipeDone c)
      else if s.sgwayReady sg m = false then
        (s.trimCache sg (popCount (s.plainWays sg.toNat &&& m))).after 1 (.storeWipeDone c)
      else
        let s := ((s.sgwayDone sg m).sgwayEnd sg).unpark c 0 fun t => t.setG d 0
        let s : State := { s with sgway := (s.sgway.filter fun e => e.1 == sg).tail ++ s.sgway.filter fun e => e.1 != sg }
        match s.sgwayAt sg with
        | some (j, _) => s.afterFree (.storeWipeDone j)
        | none => s
    | none => s
  | _ => s
def execStoreWipeDone (s : State) : R :=
  match s.ev with
  | some (.storeWipeDone c) => .next (s.storeWipeDone c)
  | _ => .fault .noPendingEvent

/-! ## TLBI, TLBSYNC (15 R267) -/

/-- Every access of the package that holds a translation of this package and is not yet performed; waiters at a home do
not use one any more. -/
def Access.usesTlb (a : Access) : Bool :=
  !isCoord a.va && (match a.st with
    | .walking => true
    | .sent | .bank | .fresh => a.map.isSome
    | _ => false)
/-- The agent that holds a context's own access: a fetch, the filling of a reserved context, or a parked instruction. -/
def Ctx.agent (t : Ctx) (c : CoreId) (x : CtxId) : Agent :=
  if t.park = some .fetch then .fetch c x else if t.st = .reserved then .disp c x else .park c x
/-- Every agent that holds an access. -/
def State.agents (s : State) : List Agent :=
  (s.cores.flatMap fun e =>
    let c : CoreId := BitVec.ofNat 16 e.1
    (e.2.ops.flatMap fun o => (List.range o.accs.length).map fun i => Agent.lsu c o.id i) ++
      ((List.finRange 16).map fun i => (e.2.ctx (BitVec.ofFin i)).agent c (BitVec.ofFin i)) ++
      (e.2.cmds.map fun m => Agent.copy c m.seq) ++ (e.2.clrs.map fun r => Agent.clr c r.id)) ++
  (s.sgs.flatMap fun e => e.2.tasks.map fun t => Agent.task (BitVec.ofNat 8 e.1) t.ticket) ++
  (s.homes.map fun h => Agent.home h.id) ++ (s.jobs.map fun j => Agent.serv j.id)
def State.translating (s : State) : List Agent := s.agents.filter fun w => (s.acc w).any Access.usesTlb
/-- An entry that a TLBI keeps. -/
def Tlbi.keeps (t : Tlbi) (e : TlbEnt) : Bool :=
  match t.kind with
  | 0 => !(e.asid == t.asid && t.va.toNat % 2 ^ 52 / 2 ^ e.bits * 2 ^ e.bits == e.base)
  | 1 => e.asid != t.asid
  | _ => false
def tlbiBody (p : Pred) (s : State) (mk : Ctx → State → Option Tlbi) : R :=
  issue .sOnly p 8 s fun c t =>
    .ok (match mk c t with
      | none => t.count t.slot 11
      | some q => ({ t with tlbis := t.tlbis ++ [q] } : State).afterFree (.tlbiTakesEffect t.slot t.cx))
def execTlbiVa (p : Pred) (a b : G) (s : State) : R :=
  tlbiBody p s fun c t =>
    let va := c.getG a
    if isCoord va ∨ va.extractLsb' 52 5 ≠ t.pkgNum then none
    else some { core := t.slot, ctx := t.cx, tid := c.tid, kind := 0, asid := (c.getG b).setWidth 16, va := va }
def execTlbiAsid (p : Pred) (b : G) (s : State) : R :=
  tlbiBody p s fun c t =>
    some { core := t.slot, ctx := t.cx, tid := c.tid, kind := 1, asid := (c.getG b).setWidth 16, va := 0 }
def execTlbiAll (p : Pred) (s : State) : R :=
  tlbiBody p s fun c t => some { core := t.slot, ctx := t.cx, tid := c.tid, kind := 2, asid := 0, va := 0 }
/-- TLBI_TAKES_EFFECT: the thread's oldest TLBI on its way drops its entries; a TLBSYNC goes on once every access that
was using one has finished. -/
def State.tlbiTakesEffect (s : State) (c : CoreId) (x : CtxId) : State :=
  let mine := fun q : Tlbi => q.core == c && q.ctx == x
  let s := match s.tlbis.find? fun q => mine q && !q.done with
    | some q =>
      let s := s.dropTlb q.keeps
      { s with tlbis := s.tlbis.map fun r => if r = q then { r with done := true, users := s.translating } else r }
    | none => s
  let now := s.translating
  let s : State := { s with tlbis := (s.tlbis.map fun q =>
      if q.done then { q with users := q.users.filter fun u => now.contains u } else q).filter fun q =>
    !(q.done && q.users.isEmpty) }
  match (s.ctx c x).park with
  | some .tlbsync =>
    if s.tlbis.any mine then
      if s.agenda.any fun e => e.2 == .tlbiTakesEffect c x then s else s.after 1 (.tlbiTakesEffect c x)
    else s.unpark c x
  | _ => s
def execTlbiTakesEffect (s : State) : R :=
  match s.ev with
  | some (.tlbiTakesEffect c x) => .next (s.tlbiTakesEffect c x)
  | _ => .fault .noPendingEvent
def execTlbsync (p : Pred) (s : State) : R :=
  issue .sOnly p 8 s fun c t =>
    .ok (if t.tlbis.any fun q => q.core == t.slot && q.ctx == t.cx then
        (t.parkMe c .tlbsync).after 1 (.tlbiTakesEffect t.slot t.cx)
      else t)

/-! ## FLTRD, FLTRPL (15 R268) -/

/-- Table and entry of a handle that is outstanding and not yet answered. -/
def State.handle? (s : State) (h : BitVec 32) : Option (Nat × Nat × FaultEnt) :=
  let t := (h.extractLsb' 16 4).toNat
  let i := (h.setWidth 16).toNat
  match s.faultEnt t i with
  | some e =>
    if e.seq = h.extractLsb' 20 12 ∧ e.issuer = none then some (t, i, e) else none
  | none => none
def execFltrd (p : Pred) (d a b : G) (s : State) : R :=
  issue .sOnly p 8 s fun c t =>
    let h : BitVec 32 := (c.getG a).setWidth 32
    .ok (t.putG d (match t.handle? h with
      | some (_, _, e) => (faultWords e.info h e.cyc).getD ((c.getG b).toNat % 8) 0
      | none => BitVec.allOnes 64))
/-- The core at which an abandoned fault counts (25 R382). -/
def State.faultCore (s : State) (f : FaultInfo) : CoreId :=
  if (f.agent ≤ 3 ∨ f.agent = 5) ∧ f.pkg = s.pkgNum then f.core else s.slot
def execFltrpl (p : Pred) (a b : G) (s : State) : R :=
  issue .sOnly p 8 s fun c t =>
    let o : BitVec 2 := (c.getG b).setWidth 2
    .ok (match t.handle? ((c.getG a).setWidth 32) with
      | none => t.count t.slot 14
      | some (u, i, e) =>
        let t := if o = 0 then t else t.count (t.faultCore e.info) 13
        let t := if o = 0 ∨ o = 1 then t else t.count (t.faultCore e.info) 13
        (t.setFault u i (some { e with issuer := some (t.slot, t.cx, c.tid, t.opId) })).after 0 (.faultReplay u i o))

/-! ## SNAP and counters (15 R271, R272) -/

/-- The snapshot trigger of a partition: its blocks latch at the first multiple of 64 at least 64 cycles on; a trigger
before a pending latch is merged with it. -/
def State.snapTrigger (s : State) (p : BitVec 2) : State :=
  if s.snapAt.any fun e => e.1 == p then s
  else
    let at0 := (s.cyc + 64 + 63) / 64 * 64
    ({ s with snapAt := s.snapAt ++ [(p, at0)] } : State).after (at0 - s.cyc) (.snapshotLatch p)
def execSnap (p : Pred) (s : State) : R := issue .c0s p 8 s fun _ t => .ok (t.snapTrigger (t.partOf t.slot))
def execCntrd (p : Pred) (d a : G) (s : State) : R :=
  issue .any p 8 s fun c t =>
    .ok (t.putG d ((t.myCore.evc[(c.getG a).toNat % 8]'(Nat.mod_lt _ (by decide))).setWidth 64))
def execCntclr (p : Pred) (a : G) (s : State) : R :=
  issue .c0s p 8 s fun c t =>
    .ok (t.modCore t.slot fun k =>
      { k with evc := Vector.ofFn fun j : Fin 8 => if (c.getG a).getLsbD j.val then 0 else k.evc[j]
               clearing := k.clearing ||| (c.getG a).setWidth 8 })

end Sys2Proof.Machine
end

