-- ==== Sys2Proof/Machine/Launch.lean ====
section
/-! DEFINITION. Launches: acceptance, gang placement, the trigger and completion blocks, domain launches, and deadlock
(03 R43–R49, R61–R63; 23 R362–R364). -/
namespace Sys2Proof

/-- A pending step that holds no work of a unit: looks for work, timeouts that find none, and refreshes. -/
def Event.quiet : Event → Bool
  | .steal .. | .dispatchRetry .. | .dispatch .. | .groupLoadRefresh _ | .startedTimeout _ | .holdtTimeout .. | .pushBalance _
  | .ringRefill _ | .deadlockDeclare _ | .sleepDeadline .. | .powerLimit | .powerLimitClear | .waitlPoll .. | .queueFetch _
  | .agentAnswerTimeout .. | .apertureFaultTimeout _ | .snapshotLatch _ | .waiterRetry (.task ..) | .waiterRetry (.copy ..) => true
  | _ => false
/-- A step that a quadrant's service core takes (03 R45–R49, 23 R363, 25 R367, R370). -/
def Event.served : Event → Bool
  | .launchAccept _ | .gangPlace .. | .triggerWrite _ | .completionWrite _ | .reserve _ | .rack .. | .rnak .. | .release _ | .go _
  | .started .. | .startedTimeout _ | .halt .. | .haltAnswer .. | .trigMessage .. | .done .. | .queueFetch _
  | .apertureRead _ _ _ _ (some _) | .apertureWrite _ _ _ (some _) => true
  | _ => false
/-- The line and the agent of a coherence message (23 Table 23-1). -/
def Event.coherence : Event → Option (Nat × Option AgentId)
  | .rds r | .rdx r | .upg r => some (r.line, some r.agent)
  | .wbd l a .. | .invack l a .. | .data _ l a .. | .datax _ l a .. | .cmpMsg _ l a .. | .censusReport l a .. => some (l, some a)
  | .inv l .. | .fwds l .. | .fwdx l .. | .memrdData l _ | .memwrAck l | .directoryRecall l => some (l, none)
  | _ => none
/-- The agent for which a pending step acts, where it names one. -/
def Event.agent? : Event → Option Agent
  | .clrAtHome w _ | .watchIncrement w _ | .blockReadAtHome w _ | .blockWriteGranule w _ | .blockFillRelease _ _ w
  | .waiterRetry w | .faultPost w _ | .faultTableRetry w | .farAtomic w | .agentReply w _ | .machineCheck _ _ (some w)
  | .storeArrival w .. | .replySend w .. | .hubReply w _ | .hubAccess w => some w
  | _ => none
/-- The core that a pending step names. -/
def Event.core? : Event → Option CoreId
  | .illegalEncoding c .. | .emulationRequest c .. | .fetchBlockFill c .. | .longLatencyComplete c .. | .suspension c ..
  | .deferredTrapReport c .. | .trapDelivery c _ | .wakeMessage c _
  | .resumeContinuation c _ | .preemptTakeEffect c _ | .saveWrite c _ | .restore c _ | .haltTakeEffect c _ | .timerFire c
  | .waitlWake c .. | .copyAdmit c _ | .copyBeat c | .copyCommandComplete c _ | .copyCommandEnd c .. | .meshCreditReturn c
  | .probeEcho c .. | .evacAcknowledged c | .tlbiTakesEffect c _ | .emulationRoundTrip c _ | .emulationAnswer c .. | .graftTableAccessReturn c _
  | .storeWipeDone c | .gangStartRecord c _ | .gangOffer c _ => some c
  | .mailboxArrival m => some m.dst
  | .walk g _ => if g = 0xFFFF then none else some (BitVec.ofNat 16 (g.toNat / 256 * 8 * 256 + g.toNat % 256 * 8))
  | .groupLoadRefresh g => some (BitVec.ofNat 16 (g.toNat / 256 * 8 * 256 + g.toNat % 256 * 8))
  | .taskAccept g _ | .taskPresenceCheck g _ | .taskIssue g | .configurationChange g _ | .taskKstep g _ | .taskDWrite g _
  | .taskComplete g _ | .taskEndError g .. | .taskFault g .. | .graftInvocation g _ | .graftRestart g _ | .graftCommit g _ =>
    some (BitVec.ofNat 16 (g.toNat / 16 * 16 * 256 + g.toNat % 16 * 16))
  | _ => none
end Sys2Proof
namespace Sys2Proof.Machine

/-! ## Launch records (03 Table 3-5, 23 Table 23-7) -/

/-- The doubleword at an offset of a byte list; bytes past its end read zero. -/
def bytesWord (l : List Byte) (o : Nat) : Word :=
  (List.range 8).foldl (fun a i => a ||| (((l.getD (o + i) 0).setWidth 64) <<< (8 * i))) 0
/-- Packages that a domain extension names, ascending. -/
def namedPkgs (w : Word) : List (BitVec 5) := ((List.range 32).filter fun i => w.getLsbD i).map fun i => BitVec.ofNat 5 i

/-- The launch that a record describes. -/
def launchOf (b : List Byte) (addr : Word) (asid : BitVec 16) (quad : BitVec 2) : Launch :=
  let w := fun o => bytesWord b o
  { num := (w 0x08).extractLsb' 32 32, recAddr := addr, recAsid := asid, quad := quad
    dies := (w 0).extractLsb' 56 8, power := (w 0).extractLsb' 48 8, members := ((w 0).extractLsb' 32 16).toNat
    asid := (w 0).extractLsb' 16 16, level := (w 0).extractLsb' 10 2, prio := (w 0).extractLsb' 8 2
    gangs := ((w 0x08).setWidth 32).toNat, entry := w 0x10, args := w 0x18, frame := w 0x20, stride := w 0x28
    completion := w 0x30, trigger := w 0x38, fmt := w 0x40, scl := w 0x48, status := 1
    last := ((w 0x08).setWidth 32).toNat }
/-- Members that a level admits (03 Table 3-4). -/
def maxMembers (lvl : BitVec 2) : Nat := if lvl = 0 then 1 else if lvl = 1 then 15 else if lvl = 2 then 16 else 64
def State.diePresent (s : State) (d : BitVec 3) : Bool := (List.range 32).any fun i => s.sgPresent (dieSg d i)
/-- The dies that receive a launch's gangs, lowest first: named, present, and in the accepting service core's partition. -/
def State.launchDies (s : State) (l : Launch) : List (BitVec 3) :=
  ((List.range 8).map fun i => BitVec.ofNat 3 i).filter fun d =>
    l.uses d && s.diePresent d &&
      (l.coord.any (fun c => c != s.pkgNum) || s.sys.parts[d.toNat / 2]? == some s.sys.parts[l.quad.toNat])
/-- The cause of a rejection that the record alone shows (03 Table 3-5a, 23 R362). -/
def State.launchBad (s : State) (b : List Byte) (l : Launch) : Option Nat :=
  let w := fun o => bytesWord b o
  let domain := decide (128 < b.length)
  let pk := w 0x80
  if (w 0).setWidth 8 ≠ 1#8 ∨ (w 0).extractLsb' 12 4 ≠ 0#4 ∨
      [0x58, 0x60, 0x68, 0x70, 0x78].any (fun o => w o != 0) then some 1
  else if l.members = 0 ∨ maxMembers l.level < l.members ∨ l.gangs = 0 ∨ l.stride.toNat % 64 ≠ 0 then some 2
  else if s.launchDies l = [] then some 3
  else if domain && (decide (l.gangs ≠ ((w 0x88).setWidth 32).toNat * (namedPkgs pk).length) ||
      (namedPkgs pk).any (fun p => decide (s.pkgTop.toNat < p.toNat)) || decide (pk.extractLsb' 32 32 ≠ 0#32) ||
      decide ((w 0x88).extractLsb' 32 32 ≠ 0#32) || [0x90, 0x98, 0xA0, 0xA8, 0xB0, 0xB8].any (fun o => w o != 0)) then some 9
  else none

/-! ## Placement (03 R47) -/

def dieCores (d : BitVec 3) : List CoreId :=
  (List.range 64).flatMap fun y => (List.range 128).map fun x =>
    mkCore (d.toNat % 2 * 128 + x) (d.toNat / 2 * 64 + y)
/-- The units of a level on a die, ascending: their cores by index within the unit. -/
def unitsOf (d : BitVec 3) (lvl : BitVec 2) : List (List CoreId) :=
  let x0 := d.toNat % 2 * 128
  let y0 := d.toNat / 2 * 64
  if lvl = 2 then
    (List.range 16).flatMap fun ty => (List.range 32).map fun tx =>
      (List.range 16).map fun i => mkCore (x0 + 4 * tx + i % 4) (y0 + 4 * ty + i / 4)
  else if lvl = 3 then
    (List.range 8).flatMap fun gy => (List.range 16).map fun gx =>
      (List.range 64).map fun i =>
        mkCore (x0 + 8 * gx + 4 * (i / 16 % 2) + i % 4) (y0 + 8 * gy + 4 * (i / 32) + i % 16 / 4)
  else (dieCores d).map fun c => [c]
def State.emptyOf (s : State) (c : CoreId) : List CtxId := if s.present c then (s.core c).empties else []
/-- Where the members of a gang go in a unit, in index order. -/
def State.placeIn (s : State) (lvl : BitVec 2) (members : Nat) (u : List CoreId) : Option (List (CoreId × CtxId)) :=
  if lvl = 2 ∨ lvl = 3 then
    let cs := (u.filter fun c => !(s.emptyOf c).isEmpty).insertionSort fun a b =>
      (s.emptyOf b).length ≤ (s.emptyOf a).length
    if members ≤ cs.length then some ((cs.take members).map fun c => (c, (s.emptyOf c).headD 1)) else none
  else
    match u with
    | c :: _ => if members ≤ (s.emptyOf c).length then some (((s.emptyOf c).take members).map fun x => (c, x)) else none
    | [] => none
/-- The unit with the most empty contexts among those with enough, the lowest on a tie. -/
def State.choosePlace (s : State) (d : BitVec 3) (lvl : BitVec 2) (members : Nat) : Option (List (CoreId × CtxId)) :=
  ((unitsOf d lvl).foldl (fun (best : Nat × Option (List (CoreId × CtxId))) u =>
    match s.placeIn lvl members u with
    | none => best
    | some m =>
      let n := (u.map fun c => (s.emptyOf c).length).sum
      if best.2.isNone ∨ best.1 < n then (n, some m) else best) (0, none)).2
/-- The gang start record of a member (03 R47, Table 3-2). -/
def Launch.startRecord (l : Launch) (gang i : Nat) : Granule :=
  let t := gang * l.members + i
  let m : BitVec 16 := BitVec.ofNat 16 (if l.level = 0 then t else i)
  granuleOf
    [(1 <<< 52) ||| (l.prio.setWidth 64 <<< 48) ||| (l.entry.setWidth 48).setWidth 64,
     l.frame + BitVec.ofNat 64 t * l.stride, m ++ l.num ++ l.asid, l.args, BitVec.ofNat 64 gang, BitVec.ofNat 64 i, 0, 0]
/-- Send the start records of a placed gang: messages, which enter the mesh at the hub port that serves the core's row (15 R258;
log entry 74). -/
def State.sendRecords (s : State) (l : Launch) (gang : Nat) (ms : List (CoreId × CtxId)) : State :=
  (List.range ms.length).foldl (fun s i =>
    match ms[i]? with
    | some m => s.meshAfter (s.hubRouter (sgIdx m.1)) (sgIdx m.1) .request (.gangStartRecord m.1 (l.startRecord gang i))
    | none => s) s
/-- Tell a domain launch's coordinator. -/
def State.tell (s : State) (p : BitVec 5) (what : String) (n : BitVec 32) (own : Event) : State :=
  if p = s.pkgNum then s.afterFree own else { s with outbox := s.outbox ++ [.launch p what n 0] }
/-- Every context of the launch's gangs is reserved: the package answers (23 R363). -/
def State.reservedAll (s : State) (l : Launch) : State :=
  match l.coord with
  | some p =>
    if l.phase = 1 ∧ l.last ≤ l.next then (s.modLaunch l.num fun l => { l with phase := 2 }).tell p "RAck" l.num (.rack l.num s.pkgNum)
    else s
  | none => s
/-- Place the launch's next gang on a die, where its placer can at once. -/
def State.placeOn (s : State) (l : Launch) (d : BitVec 3) : Option State :=
  if l.placing = false then none
  else
    match s.choosePlace d l.level l.members with
    | none => none
    | some ms =>
      let s := ms.foldl (fun s m => s.modCtx m.1 m.2 fun t => { tid := t.tid + 1, st := .reserved }) s
      let s : State := if l.level = 0 ∧ l.phase ≠ 1 then s
        else { s with gangs := s.gangs ++ [{ launch := l.num, index := BitVec.ofNat 32 l.next, level := l.level, members := ms }] }
      let s := if l.phase = 1 then s else s.sendRecords l l.next ms
      let s := s.modLaunch l.num fun l => { l with next := l.next + 1, placed := l.placed + 1 }
      some (s.reservedAll { l with next := l.next + 1 })
/-- GANG_PLACE: the service core offers the launch's next gang to a die's placer; a gang that it cannot place goes to the
next die, and waits when none can. -/
def State.gangPlace (s : State) (n : BitVec 32) (d : BitVec 3) : State :=
  match s.launch? n with
  | none => s
  | some l =>
    let ds := s.launchDies l
    if d ∉ ds then s
    else
      match s.placeOn l d with
      | some t => if l.next + 1 < l.last then t.after 1 (.gangPlace n (ds.headD 0)) else t
      | none =>
        match ds.find? fun e => decide (d.toNat < e.toNat) with
        | some e => if l.next < l.last then s.after 1 (.gangPlace n e) else s
        | none => s
def execGangPlace (s : State) : R :=
  match s.ev with
  | some (.gangPlace n d) => .next (s.gangPlace n d)
  | _ => .fault .noPendingEvent
/-- A waiting gang is offered to its launch's dies, lowest first. -/
def State.offerOne (s : State) (n : BitVec 32) : State :=
  match s.launch? n with
  | none => s
  | some l =>
    match (s.launchDies l).findSome? fun d => s.placeOn l d with
    | some t => t
    | none => s
/-- GANG_OFFER: a context fell empty: the gangs that wait for a context of its die are offered it before dispatch is. -/
def State.gangOffer (s : State) (c : CoreId) (x : CtxId) : State :=
  let s := s.launches.foldl (fun s l =>
    if l.placing ∧ dieOf c ∈ s.launchDies l then s.offerOne l.num else s) s
  if x ≠ 0 ∧ (s.ctx c x).st = .empty then s.after 0 (.dispatch c x) else s
def execGangOffer (s : State) : R :=
  match s.ev with
  | some (.gangOffer c x) => .next (s.gangOffer c x)
  | _ => .fault .noPendingEvent

/-! ## Blocks of a launch (03 R46, R48, R49) -/

/-- A service core's job on a completion or trigger block: its page is translated, by its home where that is another package,
and it goes on with a block of 64 bytes, or otherwise. -/
def State.onBlock (s : State) (j : Nat) (a : Access) (good : State → Access → Map → State) (bad : State → State) : State :=
  match s.checkAddr 0 a.va with
  | .ok (.global pkg _) =>
    if pkg ≠ s.pkgNum then s.sendRemote (.serv j) pkg a
    else
      let s := if a.map.isNone then s.translate (.serv j) else s
      match s.acc (.serv j) with
      | some b =>
        match b.map with
        | some m => if b.st ≠ .fresh then s else if m.isBlock && m.n == 0 then good s b m else bad s
        | none => s
      | none => s
  | _ => bad s
def State.dropJob (s : State) (j : Nat) : State := { s with jobs := s.jobs.filter fun k => k.id != j }
def statusWord (status cause : Nat) : Word := BitVec.ofNat 64 (status + 256 * cause)
/-- A job that writes a launch record's Status word. -/
def State.writeStatus (s : State) (l : Launch) (w : Word) : State :=
  let id := s.fresh
  ({ s with fresh := s.fresh + 1
            jobs := s.jobs ++ [{ id := id, kind := .status l.num, quad := l.quad, asid := l.recAsid
                                 acc := some (writeAcc (l.recAddr + 0x50) 8 w) }] } : State).after 1 (.launchAccept id)
/-- A record is rejected: its Status word is written and nothing starts (03 R46). -/
def State.rejectLaunch (s : State) (j : Job) (l : Launch) (cause : Nat) : State :=
  (s.modJob j.id fun k =>
    { k with kind := .status l.num, asid := l.recAsid, acc := some (writeAcc (l.recAddr + 0x50) 8 (statusWord 3 cause)) }).after 1
    (.launchAccept j.id)
/-- Every die table that the launch uses has room (03 R45). -/
def State.tablesFree (s : State) (l : Launch) : Bool :=
  (s.launchDies l).all fun d => s.hasEntry d l.num || decide ((s.active.filter fun e => e.1 == d).length < 256)
def State.enterTables (s : State) (l : Launch) : State :=
  { s with active := s.active ++ ((s.launchDies l).filter fun d => !s.hasEntry d l.num).map fun d => (d, l.num) }
/-- An accepted launch begins: its gangs are offered, or a domain launch's packages are asked (03 R47, 23 R363). -/
def State.beginLaunch (s : State) (b : List Byte) (l : Launch) : State :=
  if 128 < b.length then
    let ps := namedPkgs (bytesWord b 0x80)
    let s : State := { s with launches := s.launches ++ [{ l with last := 0, coord := some s.pkgNum, pkgs := ps }] }
    let msg : Reserve := { launch := l.num, coord := s.pkgNum, record := b, pkgs := ps }
    (ps.foldl (fun s p =>
      if p = s.pkgNum then s.afterFree (.reserve msg) else { s with outbox := s.outbox ++ [.reserve p msg] }) s).writeStatus l
      (statusWord 1 0)
  else
    ((({ s with launches := s.launches ++ [l] } : State).enterTables l).writeStatus l (statusWord 1 0)).after 1
      (.gangPlace l.num ((s.launchDies l).headD 0))
/-- LAUNCH_ACCEPT: the service core checks a record, translates its blocks' addresses, waits for room in the tables, and
begins the launch; or it writes a Status word. -/
def State.launchAccept (s : State) (id : Nat) : State :=
  match s.job id with
  | none => s
  | some j =>
    match j.kind, j.acc with
    | .status n, some a =>
      match a.st with
      | .fresh =>
        let a := match s.launch? n with
          | some l => if a.va = l.recAddr + 0x50 ∧ a.map.isNone then writeAcc a.va 8 (statusWord l.status l.cause) else a
          | none => a
        (s.setAcc (.serv id) (some a)).go (.serv id)
      | .done | .failed => s.dropJob id
      | _ => s
    | .launch addr asid _, none =>
      let l := launchOf j.buf addr asid j.quad
      match s.launchBad j.buf l with
      | some cause => s.rejectLaunch j l cause
      | none =>
        (s.modJob id fun k => { k with asid := l.asid, phase := 1
                                       acc := some { va := l.completion, mask := 0, op := .locate } }).after 1 (.launchAccept id)
    | .launch addr asid _, some a =>
      let l := launchOf j.buf addr asid j.quad
      let next : State → Nat → State := fun s blk =>
        if j.phase = 1 ∧ l.trigger ≠ 0 then
          (s.modJob id fun k => { k with phase := 2, blk := blk
                                         acc := some { va := l.trigger, mask := 0, op := .locate } }).after 1 (.launchAccept id)
        else if j.phase = 2 ∧ blk ≠ 0 ∧ j.blk = blk then s.rejectLaunch j l 4
        else if s.tablesFree l then (s.dropJob id).beginLaunch j.buf l
        else (s.modJob id fun k => { k with phase := 3 }).after 64 (.launchAccept id)
      if j.phase = 3 then next s 0
      else
        match a.st with
        | .fresh => s.onBlock id a (fun s _ m => next s (m.blk + 1)) fun s => s.rejectLaunch j l 4
        | .done =>
          match a.map with
          | some m => if m.n = 0 then next s ((a.va.extractLsb' 52 5).toNat * 2 ^ 128 + 2 ^ 133 + m.blk) else s.rejectLaunch j l 4
          | none => s.rejectLaunch j l 4
        | .failed => s.rejectLaunch j l 4
        | _ => s
    | _, _ => s
def execLaunchAccept (s : State) : R :=
  match s.ev with
  | some (.launchAccept j) => .next (s.launchAccept j)
  | _ => .fault .noPendingEvent

/-- The record of a completion or trigger block (03 Table 3-6). -/
def Launch.blockRecord (l : Launch) (count : Nat) (cyc : Word) : Granule :=
  granuleOf [l.num.setWidth 64, if l.status = 3 then BitVec.ofNat 64 l.cause else 0, BitVec.ofNat 64 count, cyc]
/-- A block that cannot take its write (03 R49): cause 5 and a notice. -/
def State.blockRefused (s : State) (l : Launch) (addr : Word) (which : Nat) : State :=
  ((s.failLaunch l.num 5).notify (2 * l.quad.setWidth 3))
    { code := 20, addr := addr, who := whoWord 0 0 0 s.pkgNum l.asid, w3 := l.num.setWidth 64, w4 := BitVec.ofNat 64 which }
/-- The write of a launch's block under a job of its own; `fin` is what follows it. -/
def State.blockWrite (s : State) (l : Launch) (kind : JobKind) (addr : Word) (count which : Nat) (fin : State → State) : State :=
  match s.jobs.find? fun j => j.kind == kind with
  | none =>
    let id := s.fresh
    ({ s with fresh := s.fresh + 1
              jobs := s.jobs ++ [{ id := id, kind := kind, quad := l.quad, asid := l.asid
                                   acc := some { va := addr, mask := BitVec.allOnes 64
                                                 op := .write (BitVec.allOnes 64) (l.blockRecord count s.cycW) } }] } :
      State).after 1 (if which = 1 then .triggerWrite l.num else .completionWrite l.num)
  | some j =>
    match j.acc with
    | none => s
    | some a =>
      match a.st with
      | .fresh =>
        s.onBlock j.id a
          (fun s b m =>
            let b := { b with op := .write (BitVec.allOnes 64) (l.blockRecord count s.cycW) }
            (s.setAcc (.serv j.id) (some b)).dispatchAcc (.serv j.id) b m)
          fun s => fin ((s.dropJob j.id).blockRefused l addr which)
      | .done => fin (s.dropJob j.id)
      | .failed => fin ((s.dropJob j.id).blockRefused l addr which)
      | _ => s
/-- TRIGGER_WRITE: hardware writes the trigger block (03 R48). -/
def State.triggerWrite (s : State) (n : BitVec 32) : State :=
  match s.launch? n with
  | none => { s with jobs := s.jobs.filter fun j => j.kind != .trig n }
  | some l => s.blockWrite l (.trig n) l.trigger (if l.coord.isSome then l.gangs else l.triggered) 1 id
def execTriggerWrite (s : State) : R :=
  match s.ev with
  | some (.triggerWrite n) => .next (s.triggerWrite n)
  | _ => .fault .noPendingEvent
/-- COMPLETION_WRITE: hardware writes the completion block, then the Status word, and frees the launch's entries (03 R48,
R49). It follows the trigger block's write. -/
def State.completionWrite (s : State) (n : BitVec 32) : State :=
  match s.launch? n with
  | none => s
  | some l =>
    if s.jobs.any (fun j => j.kind == .trig n) then s.after 1 (.completionWrite n)
    else
      s.blockWrite l (.compl n) l.completion (if l.coord.isSome then l.gangs else l.retired) 2 fun s =>
        match s.launch? n with
        | some l => (if l.status = 3 then s else s.writeStatus { l with num := 0 } (statusWord 2 0)).dropLaunch n
        | none => s
def execCompletionWrite (s : State) : R :=
  match s.ev with
  | some (.completionWrite n) => .next (s.completionWrite n)
  | _ => .fault .noPendingEvent

/-! ## Domain launches (23 R363, R364) -/

/-- RESERVE: a package enters a domain launch and reserves the contexts of its gangs, or answers RNak. -/
def State.reserveLaunch (s : State) (m : Reserve) : State :=
  let l0 := launchOf m.record ((s.launch? m.launch |>.map Launch.recAddr).getD 0) 0 0
  let own := s.launch? m.launch
  let g := ((bytesWord m.record 0x88).setWidth 32).toNat
  let k := (m.pkgs.filter fun p => decide (p.toNat < s.pkgNum.toNat)).length
  let l : Launch := { own.getD l0 with coord := some m.coord, phase := 1, first := k * g, next := k * g, last := k * g + g }
  if s.launchDies l = [] then s.tell m.coord "RNak" m.launch (.rnak m.launch s.pkgNum)
  else if s.tablesFree l = false then s.after 64 (.reserve m)
  else
    let s : State := { s with launches := (s.launches.filter fun q => q.num != m.launch) ++ [l] }
    ((s.enterTables l).after 1 (.gangPlace l.num ((s.launchDies l).headD 0))).reservedAll l
def execReserve (s : State) : R :=
  match s.ev with
  | some (.reserve m) => .next (s.reserveLaunch m)
  | _ => .fault .noPendingEvent
/-- Send a message to every package of a domain launch. -/
def State.tellAll (s : State) (l : Launch) (what : String) (own : Event) : State :=
  l.pkgs.foldl (fun s p => s.tell p what l.num own) s
/-- Every named package has sent an answer. -/
def Launch.allIn (l : Launch) (a : List (BitVec 5)) : Bool := l.pkgs.all fun p => a.contains p
/-- RACK: after the last, the coordinator sends Go and waits 2^20 cycles for Started. -/
def State.rackMsg (s : State) (n : BitVec 32) (p : BitVec 5) : State :=
  let s := s.modLaunch n fun l => { l with racks := l.racks.erase p ++ [p] }
  match s.launch? n with
  | some l => if l.allIn l.racks ∧ l.status = 1 then (s.tellAll l "Go" (.go n)).after (2 ^ 20) (.startedTimeout n) else s
  | none => s
def execRack (s : State) : R :=
  match s.ev with
  | some (.rack n p) => .next (s.rackMsg n p)
  | _ => .fault .noPendingEvent
/-- RNAK: the coordinator sends Release to every package, and the launch ends with cause 10. -/
def State.rnakMsg (s : State) (n : BitVec 32) : State :=
  match s.launch? n with
  | some l => if l.status = 3 then s else ((s.failLaunch n 10).tellAll l "Release" (.release n)).afterFree (.release n)
  | none => s
def execRnak (s : State) : R :=
  match s.ev with
  | some (.rnak n _) => .next (s.rnakMsg n)
  | _ => .fault .noPendingEvent
/-- The contexts that a launch still has reserved become empty, and its gangs are forgotten. -/
def State.releaseGangs (s : State) (n : BitVec 32) : State :=
  let gs := s.gangs.filter fun g => g.launch == n
  let s : State := { s with gangs := s.gangs.filter fun g => g.launch != n }
  gs.foldl (fun s g => g.members.foldl (fun s m => if (s.ctx m.1 m.2).st = .reserved then s.freeCtx m.1 m.2 else s) s) s
/-- RELEASE: reserved contexts and table entries are freed. -/
def execRelease (s : State) : R :=
  match s.ev with
  | some (.release n) => .next ((s.dropLaunch n).releaseGangs n)
  | _ => .fault .noPendingEvent
/-- GO: the package starts its gangs. -/
def State.goLaunch (s : State) (n : BitVec 32) : State :=
  match s.launch? n with
  | none => s
  | some l =>
    let gs := s.gangs.filter fun g => g.launch == n
    let s := s.modLaunch n fun l => { l with phase := 3 }
    gs.foldl (fun s g => s.sendRecords l g.index.toNat g.members) s
def execGo (s : State) : R :=
  match s.ev with
  | some (.go n) => .next (s.goLaunch n)
  | _ => .fault .noPendingEvent
def execStarted (s : State) : R :=
  match s.ev with
  | some (.started n p) => .next (s.modLaunch n fun l => { l with starts := l.starts.erase p ++ [p] })
  | _ => .fault .noPendingEvent
/-- A domain launch is put into containment: cause 11, and Halt to every named package. -/
def State.containLaunch (s : State) (n : BitVec 32) : State :=
  match s.launch? n with
  | none => s
  | some l =>
    if l.pkgs = [] ∨ l.contained then s
    else ((s.failLaunch n 11).modLaunch n fun l => { l with contained := true, complDone := true }).tellAll l "Halt"
      (.halt n s.pkgNum)
/-- STARTED_TIMEOUT: a Started is missing 2^20 cycles after Go. -/
def State.startedTimeout (s : State) (n : BitVec 32) : State :=
  match s.launch? n with
  | some l => if l.allIn l.starts then s else s.containLaunch n
  | none => s
def execStartedTimeout (s : State) : R :=
  match s.ev with
  | some (.startedTimeout n) => .next (s.startedTimeout n)
  | _ => .fault .noPendingEvent
/-- Contexts that satisfy a test. -/
def State.ctxsWhere (s : State) (f : Ctx → Bool) : List (CoreId × CtxId) :=
  s.cores.flatMap fun e =>
    ((List.finRange 16).filter fun i => f (e.2.ctx (BitVec.ofFin i))).map fun i => (BitVec.ofNat 16 e.1, BitVec.ofFin i)
/-- HALT: the launch's started members halt with the containment trap, its reserved contexts are released, and the
coordinator is answered. -/
def State.haltLaunch (s : State) (n : BitVec 32) (coord : BitVec 5) : State :=
  let s := (s.ctxsWhere fun t => t.launch == n && t.gangMember || (t.launch == n && t.launch != 0)).foldl
    (fun s m => s.containCtx m.1 m.2 0) s
  let s := (s.releaseGangs n).tell coord "HaltAnswer" n (.haltAnswer n s.pkgNum)
  if coord = s.pkgNum then s else s.dropLaunch n
def execHalt (s : State) : R :=
  match s.ev with
  | some (.halt n c) => .next (s.haltLaunch n c)
  | _ => .fault .noPendingEvent
/-- Once every live package has answered Halt, the completion block is written. -/
def State.checkHalted (s : State) (n : BitVec 32) : State :=
  match s.launch? n with
  | some l =>
    if l.contained && l.pkgs.all (fun q => l.halts.contains q || s.pkgDead q) then s.after 1 (.completionWrite n) else s
  | none => s
/-- HALT_ANSWER: a package has halted the launch. -/
def State.haltAnswer (s : State) (n : BitVec 32) (p : BitVec 5) : State :=
  (s.modLaunch n fun l => { l with halts := l.halts.erase p ++ [p] }).checkHalted n
/-- Agents of some packages are dead: a launch of this coordinator that one of them has not answered Started for is put into
containment, and one already there waits only for the live ones. -/
def State.launchesDead (s : State) (pkgs : List (BitVec 5)) : State :=
  (s.launches.filter fun l => l.coord == some s.pkgNum && l.pkgs.any fun p => pkgs.contains p).foldl
    (fun s l =>
      if l.contained then s.checkHalted l.num
      else if l.pkgs.any fun p => pkgs.contains p && !l.starts.contains p then (s.containLaunch l.num).checkHalted l.num else s) s
def execHaltAnswer (s : State) : R :=
  match s.ev with
  | some (.haltAnswer n p) => .next (s.haltAnswer n p)
  | _ => .fault .noPendingEvent
/-- TRIG_MESSAGE: after the last, the coordinator writes the trigger block. -/
def State.trigMsg (s : State) (n : BitVec 32) (p : BitVec 5) : State :=
  let s := s.modLaunch n fun l => { l with trigs := l.trigs.erase p ++ [p] }
  match s.launch? n with
  | some l => if l.allIn l.trigs then s.after 1 (.triggerWrite n) else s
  | none => s
def execTrigMessage (s : State) : R :=
  match s.ev with
  | some (.trigMessage n p) => .next (s.trigMsg n p)
  | _ => .fault .noPendingEvent
/-- DONE: after the last, the coordinator writes the completion block, with the first cause that one carries (11 R188). -/
def State.doneMsg (s : State) (n : BitVec 32) (p : BitVec 5) (cause : Nat) : State :=
  let s := (if cause = 0 then s else s.failLaunch n cause).modLaunch n fun l => { l with dones := l.dones.erase p ++ [p] }
  match s.launch? n with
  | some l => if l.allIn l.dones && !l.contained then s.after 1 (.completionWrite n) else s
  | none => s
def execDone (s : State) : R :=
  match s.ev with
  | some (.done n p x) => .next (s.doneMsg n p x)
  | _ => .fault .noPendingEvent

/-! ## Deadlock (03 R61–R63) -/

/-- A park without an armed wake (03 R61). -/
def Park.idle : Park → Bool
  | .recv .. | .bar .. | .cwait .. | .cbwait .. | .cqf .. | .window | .suspend _ | .lyr .. => true
  | .sleep _ w _ => w == BitVec.allOnes 64
  | .waitl _ _ d host => d.isNone && !host
  | _ => false
/-- A parked context waits on a block whose descriptor is placed, or on a descriptor still to be placed. -/
def Core.blockWait (k : Core) (x : CtxId) : Bool :=
  match (k.ctx x).park with
  | some .window => (k.opsOf x).any fun o => o.accs.any fun a => a.st == .placed || a.st == .relist
  | some (.suspend _) => (k.ctx x).acc.isNone
  | _ => true
def Core.ctxIdle (k : Core) (x : CtxId) : Bool :=
  let t := k.ctx x
  match t.st with
  | .empty | .halted => true
  | .parked => t.park.any Park.idle && k.blockWait x
  | _ => false
/-- A core's all-parked line. -/
def State.allParked (s : State) (c : CoreId) : Bool :=
  let k := s.core c
  ((List.finRange 16).all fun i => k.ctxIdle (BitVec.ofFin i)) && k.rq.isEmpty && k.wake.isEmpty && k.wakeNet.isEmpty && k.deque.isEmpty &&
    s.ringCount c == 0 && s.dequeSpill c == 0
def coreOfSg (g : BitVec 8) : CoreId := mkCore (g.toNat % 16 * 16) (g.toNat / 16 * 16)
/-- A core belongs to the partition whose lowest quadrant is `p`. -/
def State.inPart (s : State) (p : BitVec 2) (c : CoreId) : Bool := s.partOf c == p
/-- A context that R62 counts as a waiter. -/
def State.parkedWaiters (s : State) (p : BitVec 2) : List (CoreId × CtxId) :=
  s.cores.flatMap fun e =>
    let c : CoreId := BitVec.ofNat 16 e.1
    if s.inPart p c ∧ s.present c then
      ((List.finRange 16).filter fun i => decide ((e.2.ctx (BitVec.ofFin i)).st = .parked)).map fun i => (c, BitVec.ofFin i)
    else []
/-- Home of a block: kind and number (03 Table 3-17), and a core of its unit or die. -/
def State.homeOf (s : State) (blk : Nat) : Nat × Nat × CoreId :=
  if blk < 2 ^ 52 then
    let k := s.controller blk
    (3, k, mkCore (k / 4 % 2 * 128) (k / 8 * 64))
  else if blk < 2 ^ 62 then
    let i := (blk - 2 ^ 61) / 2 ^ 22
    (0, i / 64 * 256 + i % 64, mkCore (i % 64 * 4) (i / 64 * 4))
  else if blk < 2 ^ 63 then
    let i := (blk - 2 ^ 62) / 2 ^ 22
    (1, i / 32 * 256 + i % 32, mkCore (i % 32 * 8) (i / 32 * 8))
  else
    let i := (blk - 2 ^ 63) / 2 ^ 22
    (2, i / 16 * 256 + i % 16, mkCore (i % 16 * 16) (i / 16 * 16))
def State.partWaiters (s : State) (p : BitVec 2) : List Waiter := s.waiters.filter fun w => s.inPart p (s.homeOf w.blk).2.2
/-- A context 0 that idles in SLEEP.M without a deadline. -/
def State.idleKernel (s : State) (m : CoreId × CtxId) : Bool :=
  m.2 == 0 && (match (s.ctx m.1 m.2).park with | some (.sleep _ w true) => w == BitVec.allOnes 64 | _ => false)
/-- The retry of a suspension whose descriptor finds no room: its context counts as parked on the block (03 R40, R61). -/
def State.listRetry (s : State) (e : Event) : Bool :=
  match e with
  | .suspension c x _ => (s.ctx c x).acc.isNone && (match (s.ctx c x).park with | some (.suspend _) => true | _ => false)
  | _ => false
/-- A service core's job that only waits, and so holds no detection off: the owner's wait on TailAddr, and a launch's wait for
room in the tables (03 R62). -/
def Job.waits (j : Job) : Bool :=
  match j.kind with
  | .fetch _ => true
  | .launch .. => j.phase == 3
  | _ => j.acc.any fun a => a.st == .placed
/-- A service core's job is work of a partition. -/
def State.jobBusy (s : State) (p : BitVec 2) (j : Nat) : Bool :=
  (s.job j).any fun k => s.sys.parts[k.quad.toNat] == p && !k.waits
/-- An agent acts for a partition, or may: a request of another package may be for any. -/
def State.actsIn (s : State) (p : BitVec 2) (who : Agent) : Bool :=
  match who with
  | .serv j => s.jobBusy p j
  | .home i => (s.home i).any fun h => h.req.id.extractLsb' 35 5 != s.pkgNum || s.inPart p h.req.core
  | .token .. => true
  | w => s.inPart p (s.agentCore w)
def State.dieInPart (s : State) (p : BitVec 2) (d : BitVec 3) : Bool := s.sys.parts[d.toNat / 2]? == some p
/-- A line's home is in a partition. -/
def State.lineInPart (s : State) (p : BitVec 2) (line : Nat) : Bool :=
  !isAlias line && s.inPart p (s.homeOf (64 * line)).2.2
def State.agentInPart (s : State) (p : BitVec 2) (a : AgentId) : Bool := (s.dieOfAgent a).any (s.dieInPart p)
/-- A pending step is work of a partition, or may be: a message in its mesh or its hubs, or a busy unit. -/
def State.worksIn (s : State) (p : BitVec 2) (e : Event) : Bool :=
  let launchIn := fun n => (s.launch? n).any fun l => s.sys.parts[l.quad.toNat] == p
  match e, e.coherence with
  | _, some (l, a) => s.lineInPart p l || a.any (s.agentInPart p)
  | .lineMiss l .., _ => s.lineInPart p l
  | .snoopFilterEvict d _, _ | .supervisorNotice d _, _ => s.dieInPart p d
  | .faultReplay t _ _, _ => decide (8 ≤ t) || s.sys.parts[t / 2]? == some p
  | .gangPlace n _, _ | .triggerWrite n, _ | .completionWrite n, _ => launchIn n
  | .launchAccept j, _ => s.jobBusy p j
  | .remoteRequest r, _ | .requestLeave _ r, _ => r.id.extractLsb' 35 5 != s.pkgNum || s.inPart p r.core
  | .remoteRetry i, _ | .postedAck i _, _ => (s.home i).any fun h => s.inPart p h.req.core
  | .drainDescriptor b _, _ => s.inPart p (s.homeOf b).2.2
  | .walk _ i, _ => s.walks.any fun w => w.id == i && w.waiters.any (s.actsIn p)
  | e, _ =>
    match e.core?, e.agent? with
    | some c, _ => s.inPart p c
    | none, some w => s.actsIn p w
    | none, none => true
/-- A command of a copy queue waits on presence, itself or behind the command that does (13 R217). -/
def Core.cmdWaits (k : Core) (m : Cmd) : Bool :=
  let onBlock := fun m : Cmd => m.acc.any fun a => a.st == .placed || a.st == .relist
  m.held || onBlock m ||
    (m.acc.isNone && decide (m.started ≤ m.off) && k.cmds.any fun e => decide (e.seq < m.seq) && e.ctx == m.ctx && e.queue == m.queue && onBlock e)
/-- The conditions of R62 hold in a partition. -/
def State.deadlocked (s : State) (p : BitVec 2) : Bool :=
  let cs := (s.cores.map fun e => (BitVec.ofNat 16 e.1 : CoreId)).filter fun c => s.inPart p c && s.present c
  let mine := s.actsIn p
  (!(s.partWaiters p).isEmpty || (s.parkedWaiters p).any fun m => !s.idleKernel m) &&
    cs.all (fun c => s.allParked c && !timerArmed (s.core c).timer && (s.core c).sendQ.isEmpty && (s.core c).inQ.isEmpty &&
      (s.core c).clrs.isEmpty && (s.core c).cmds.all (s.core c).cmdWaits) &&
    (s.agenda.all fun e => e.2.quiet || s.listRetry e.2 || !s.worksIn p e.2) &&
    (s.sys.waiting.all fun m => m.2.2.2.quiet || !s.worksIn p m.2.2.2) &&
    ((s.coh.queue ++ s.coh.net ++ s.coh.fenced).all fun r => !s.lineInPart p r.line) &&
    (s.coh.dieReqs.all fun r => !s.dieInPart p r.die) &&
    (s.banks.all fun b => !mine b.who) && (s.homes.all fun h => !mine (.home h.id)) &&
    (s.walks.all fun w => w.waiters.all fun a => !mine a) && (s.sys.tokens.all fun t => !s.inPart p t.req.core) &&
    (s.jobs.all fun j => !s.jobBusy p j.id) &&
    (s.faults.all fun e => e.2.isNone || (decide (e.1 / 65536 < 8) && s.sys.parts[e.1 / 65536 / 2]? != some p)) &&
    ((s.partWaiters p).all fun w => match w.desc with | .token .. => false | _ => true) &&
    (s.sgs.all fun e => !s.inPart p (coreOfSg (BitVec.ofNat 8 e.1)) ||
      e.2.tasks.all fun t => t.st == .done || t.acc.any fun a => a.st == .placed || a.st == .relist)

/-- Park reason of a context with no descriptor (03 Table 3-17). The table gives 9 for a suspension only; a context parked at
the end of a window whose own descriptor a full list refused, for which it gives none, has it too (log entry 82). -/
def Park.reason : Park → Nat
  | .recv .. => 1
  | .bar k _ => 2 + 16 * k.toNat
  | .sleep .. => 3
  | .waitl .. => 4
  | .cwait .. => 5
  | .cbwait .. => 6
  | .cqf .. => 7
  | .lyr .. => 8
  | .suspend _ | .window => 9
  | _ => 0
/-- The PC of the instruction that a context is parked in: of the waiting access, where a window or a suspension waits. -/
def Core.parkPc (k : Core) (x : CtxId) : Word :=
  let t := k.ctx x
  match t.park with
  | some (.suspend i) => ((k.findOp i).map Op.pc).getD t.pc
  | some .window =>
    (((k.opsOf x).find? fun o => o.accs.any fun a => a.st == .relist || a.st == .notFull).map Op.pc).getD t.pc
  | _ => t.pc
/-- Census entries, in order: the waiting lists by home, each in list order (05 R77: the hardware table, then the spill
region), then the contexts that hold no descriptor. -/
def State.census (s : State) (p : BitVec 2) : List (List Word) :=
  let rank : Waiter → Nat := fun w => let h := s.homeOf w.blk; h.1 * 2 ^ 32 + 2 * h.2.1 + if w.slot.isSome then 1 else 0
  let ws := (s.partWaiters p).insertionSort fun a b => rank a ≤ rank b
  let named := fun (m : CoreId × CtxId) => ws.any fun w =>
    match w.desc with
    | .parked who .. => let i := s.agentInfo who; i.core == m.1 && i.ctx == m.2
    | _ => false
  (ws.map fun w =>
    let d := s.descWords w.desc
    let h := s.homeOf w.blk
    [keyAddr w.blk, d.1, d.2, BitVec.ofNat 64 (h.1 * 2 ^ 56 + h.2.1)]) ++
  ((s.parkedWaiters p).filter fun m => !named m).map fun m =>
    let t := s.ctx m.1 m.2
    [(s.core m.1).parkPc m.2, ((1 : Word) <<< 61) ||| ((m.2.setWidth 64 : Word) <<< 16) ||| m.1.setWidth 64,
     BitVec.ofNat 64 ((t.park.map Park.reason).getD 0), BitVec.ofNat 64 (4 * 2 ^ 56 + m.1.toNat)]
/-- Write doublewords from a frame key on, untranslated. -/
def State.putWords (s : State) (k : Nat) (l : List Word) : State :=
  (List.range l.length).foldl (fun s i => s.setOwnWord (k + 8 * i) (l.getD i 0)) s
/-- DEADLOCK_DECLARE: the census is written and the notice sent; detection is disarmed until a line is lowered. -/
def State.deadlockDeclare (s : State) (p : BitVec 2) : State :=
  if s.armed.getLsbD p.toNat = false ∨ s.deadlocked p = false then s
  else
    let s := ({ s with armed := s.armed &&& ~~~((1 : BitVec 4) <<< p.toNat) } : State).msix 2
    let es := s.census p
    let base := s.bar 0x8000
    let size := (s.bar 0x8008).toNat
    let n := if size = 0 then 0 else min es.length ((size - 64) / 32)
    let s := if size = 0 then s
      else
        (s.putWords base.toNat [BitVec.ofNat 64 es.length, BitVec.ofNat 64 n, if n = es.length then 0 else 1, s.cycW, 0, 0, 0, 0]).putWords
          (base.toNat + 64) (es.take n).flatten
    let dies := ((List.range 8).map fun i => (BitVec.ofNat 3 i : BitVec 3)).filter fun d =>
      s.sys.parts[d.toNat / 2]? == some p
    match dies.find? fun d => (s.supvOf d).isSome with
    | some d => s.notify d { code := 22, cause := 13, addr := base, w4 := BitVec.ofNat 64 es.length, w5 := BitVec.ofNat 64 n }
    | none => s.countLost (dies.headD 0)
def execDeadlockDeclare (s : State) : R :=
  match s.ev with
  | some (.deadlockDeclare p) => .next (s.deadlockDeclare p)
  | _ => .fault .noPendingEvent

end Sys2Proof.Machine
end

