-- ==== Sys2Proof/Machine/Matrix.lean ====
section
/-! DEFINITION. Matrix arithmetic: operand pairs, scale words, the window sum and its rounding, K-steps, the conversion of D,
and the quantiser of a graft (09 R136–R145, 17 R291, R295). -/
namespace Sys2Proof.Machine

/-! ## Operand pairs (09 Table 9-6) -/

/-- What a pair of operand types runs as. -/
structure PairInfo where
  /-- Elements per K-step. -/
  elems : Nat
  /-- Both types are integer formats. -/
  ints : Bool
  /-- Scales are ignored. -/
  noScale : Bool := false
  cc : Nat := 128
deriving DecidableEq, Repr

def pairInfo (a b : Ty) : Option PairInfo :=
  match a, b with
  | .bf16, .bf16 | .f16, .f16 => some { elems := 192, ints := false, noScale := true }
  | .e4m3, .e4m3 | .e4m3, .e5m2 | .e5m2, .e4m3 | .e5m2, .e5m2 => some { elems := 384, ints := false }
  | .e3m2, .e3m2 | .e3m2, .e2m3 | .e2m3, .e3m2 | .e2m3, .e2m3 => some { elems := 512, ints := false }
  | .e2m1, .e2m1 => some { elems := 768, ints := false }
  | .s8, .s8 => some { elems := 384, ints := true }
  | .s4, .s4 => some { elems := 768, ints := true }
  | .t2, .t2 => some { elems := 1536, ints := true }
  | .s4, .s8 | .s8, .s4 => some { elems := 384, ints := true }
  | .t2, .s8 | .s8, .t2 => some { elems := 384, ints := true, cc := 32 }
  | _, _ => none

/-! ## Element values -/

/-- An exact element, and whether it is the .t2 code 0b10. A zero integer is +0, and a product's sign is the exclusive or of its
factors' signs, for integer formats on the float path too: 0 times a negative integer is −0 (DESIGN CHOICE, log 85; 09 R141
gives integers no signed zero). -/
def elemVal (t : Ty) (bits : Nat) : FVal × Bool :=
  match Ty.fmt? t with
  | some f => (f.decode bits, false)
  | none => let v := intValue t bits; (.fin (v.1 < 0) v.1.natAbs 0, v.2)
/-- Factors of a 32-element sub-group `n`: 2^(E − 127) and 4 + nudge, in quarters; none for the NaN scale (09 Table 9-7). -/
def scaleOf (w : BitVec 16) (n : Nat) : Option (Int × Nat) :=
  let e := (w.extractLsb' 8 8).toNat
  if e = 255 then none else some ((e : Int) - 127, 4 + (w.extractLsb' (2 * n) 2).toNat)
/-- A value times 2^e · k / 4, exactly. -/
def FVal.scale (x : FVal) (f : Int × Nat) : FVal :=
  match x with
  | .fin s m e => .fin s (m * f.2) (e + f.1 - 2)
  | y => y
/-- Status bits of Table 17-4. -/
def stInvalid : Word := 0x100
def stOverflow : Word := 0x200
def stNanScale : Word := 0x400
def stFmtErr : Word := 0x800
def stSatS32 : Word := 0x1000

def FVal.isNan : FVal → Bool
  | .nan .. => true
  | _ => false
/-- The product of two elements; zero times infinity is NaN and invalid (09 R141). -/
def prodVal (x y : FVal) : FVal × Word :=
  if x.isNan ∨ y.isNan then (.nan false true 0, 0)
  else match mulVal x y with
    | some v => (v, 0)
    | none => (.nan false true 0, stInvalid)
/-- An exact sum: NaN and infinities as 09 R141; the sign of a zero as 09 R135 under a mode. -/
def exactVals (mode : RMode) (xs : List FVal) : FVal × Word :=
  if xs.any FVal.isNan then (.nan false true 0, 0)
  else if xs.contains (.inf false) ∧ xs.contains (.inf true) then (.nan false true 0, stInvalid)
  else if xs.contains (.inf false) then (.inf false, 0)
  else if xs.contains (.inf true) then (.inf true, 0)
  else
    let ts := xs.filterMap fun x => match x with | .fin s m e => some (s, m, e) | _ => none
    let z := exactSum ts
    if z.1 = 0 then
      (.fin (if ts.all fun t => !t.1 then false else if ts.all fun t => t.1 then true else decide (mode = .down)) 0 0, 0)
    else (.fin (z.1 < 0) z.1.natAbs z.2, 0)

/-! ## WindowSum and RoundFP32 (09 R141, R142) -/

/-- Is |a| above |b|, for finite terms? -/
def magAbove (a b : Bool × Nat × Int) : Bool :=
  let e := min a.2.2 b.2.2
  decide (b.2.1 * 2 ^ (b.2.2 - e).toNat < a.2.1 * 2 ^ (a.2.2 - e).toNat)
/-- The sign of the nonzero term of largest magnitude, the earliest of them on a tie. -/
def largestSign : List (Bool × Nat × Int) → Option (Bool × Nat × Int)
  | [] => none
  | t :: r =>
    match largestSign r with
    | none => some t
    | some u => if magAbove u t then some u else some t
/-- The rounded window sum as an .f32 encoding, and status bits. -/
def windowSum (mode : RMode) (xs : List FVal) : Nat × Word :=
  if xs.any FVal.isNan then (fmtF32.defaultNan, 0)
  else if xs.contains (.inf false) ∧ xs.contains (.inf true) then (fmtF32.defaultNan, stInvalid)
  else if xs.contains (.inf false) then (fmtF32.infBits false, 0)
  else if xs.contains (.inf true) then (fmtF32.infBits true, 0)
  else
    let ts := xs.filterMap fun x => match x with | .fin s m e => some (s, m, e) | _ => none
    let nz := ts.filter fun t => t.2.1 != 0
    match nz with
    | [] =>
      (fmtF32.zero (ts.all (fun t => t.1) || (mode == .down && !ts.all fun t => !t.1)), 0)
    | t :: _ =>
      let top := nz.foldl (fun a x => max a ((bitLen x.2.1 : Int) - 1 + x.2.2)) ((bitLen t.2.1 : Int) - 1 + t.2.2)
      let lsb := top - 63
      let part := fun (x : Bool × Nat × Int) =>
        if lsb ≤ x.2.2 then x.2.1 * 2 ^ (x.2.2 - lsb).toNat else x.2.1 / 2 ^ (lsb - x.2.2).toNat
      let rest := fun (x : Bool × Nat × Int) => decide (x.2.2 < lsb) && x.2.1 % 2 ^ (lsb - x.2.2).toNat != 0
      let hi : Int := nz.foldl (fun a x => if x.1 then a - (part x : Int) else a + (part x : Int)) 0
      let sticky := nz.any rest
      if hi = 0 ∧ ¬sticky then (fmtF32.zero (mode == .down), 0)
      else
        let s := if hi = 0 then ((largestSign nz).map fun x => x.1).getD false else decide (hi < 0)
        let r := roundTo fmtF32 { mode := mode } false s hi.natAbs lsb sticky
        (r.1, if r.2 &&& fOverflow = 0 then 0 else stOverflow)

/-! ## K-steps (09 R139, R140, R143) -/

/-- One operand row or column of a K-step: its elements' encodings and its scale words by group of the step, none where
scales are disabled. -/
structure Strip where
  ty : Ty
  elems : List Nat
  scales : Option (List (BitVec 16))
deriving DecidableEq, Repr

def Strip.val (x : Strip) (k : Nat) : FVal := (elemVal x.ty (x.elems.getD k 0)).1
/-- The factor of sub-group `s` of the step; none for the NaN scale. -/
def Strip.factor (x : Strip) (s : Nat) : Option (Option (Int × Nat)) :=
  match x.scales with
  | none => some none
  | some l => (scaleOf (l.getD (s / 4) 0x7F00) (s % 4)).map some
def FVal.scaleBy (x : FVal) : Option (Int × Nat) → FVal
  | none => x
  | some f => x.scale f
/-- Sub-group `s`: its scaled term, and status bits (09 R139, R140). -/
def subTerm (mode : RMode) (floaty : Bool) (a b : Strip) (s : Nat) : FVal × Word :=
  let ps := (List.range 32).map fun t => prodVal (a.val (32 * s + t)) (b.val (32 * s + t))
  let p := exactVals mode (ps.map Prod.fst)
  let st := ps.foldl (fun w x => w ||| x.2) p.2
  match a.factor s, b.factor s with
  | some fa, some fb => ((p.1.scaleBy fa).scaleBy fb, st)
  | _, _ => (if floaty then .nan false true 0 else .fin false 0 0, st ||| stNanScale)
/-- KStep on the float path: the new accumulator, status bits, and how many sub-groups met a NaN scale. -/
def kstepFloat (mode : RMode) (i : PairInfo) (acc : Nat) (a b : Strip) : Nat × Word × Nat :=
  let ts := (List.range (i.elems / 32)).map fun s => subTerm mode (!i.ints) a b s
  let w := windowSum mode (fmtF32.decode acc :: ts.map Prod.fst)
  (w.1, ts.foldl (fun f t => f ||| t.2) w.2, (ts.filter fun t => t.2 &&& stNanScale != 0).length)
/-- KStep on the integer path: the exact sum is added and clamped once (09 R143). -/
def kstepInt (i : PairInfo) (acc : Nat) (a b : Strip) : Nat × Word :=
  let p : Int := (List.range i.elems).foldl (fun z k =>
    z + (intValue a.ty (a.elems.getD k 0)).1 * (intValue b.ty (b.elems.getD k 0)).1) ((BitVec.ofNat 32 acc).toInt + 0)
  if p < -(2 ^ 31) then (2 ^ 31, stSatS32)
  else if 2 ^ 31 - 1 < p then (2 ^ 31 - 1, stSatS32)
  else ((p % 2 ^ 32).toNat, 0)
/-- Elements of a strip that read as 0b10 (09 R121). -/
def Strip.formatErrors (x : Strip) : Nat := (x.elems.filter fun e => x.ty == .t2 && e == 2).length

/-- C as the first accumulator (09 R140). -/
def accOfC (t : Ty) (bits : Nat) : Nat :=
  match Ty.fmt? t with
  | none => bits
  | some f =>
    match f.decode bits with
    | .nan .. => fmtF32.defaultNan
    | .inf s => fmtF32.infBits s
    | .fin s m e => (roundTo fmtF32 {} false s m e).1
/-- D from an accumulator, and status bits (09 R144). -/
def dOfAcc (t : Ty) (mode : RMode) (sat : Bool) (s : Int) (acc : Nat) : Nat × Word :=
  match Ty.fmt? t with
  | none => (acc, 0)
  | some f =>
    match fmtF32.decode acc with
    | .nan .. => (f.defaultNan, 0)
    | .inf g => (if f.top = .ieee ∨ ¬sat then f.infBits g else f.maxBits g, 0)
    | .fin g m e =>
      let r := roundTo f { mode := mode, sat := sat } true g m (e + s)
      (r.1, if r.2 &&& fOverflow = 0 then 0 else stOverflow)

/-! ## The quantiser (17 R295) -/

/-- RNE_FP32. -/
def rneF32 (x : FVal) : Nat × Word :=
  match x with
  | .nan .. => (fmtF32.defaultNan, 0)
  | .inf s => (fmtF32.infBits s, 0)
  | .fin s m e => let r := roundTo fmtF32 {} false s m e; (r.1, if r.2 &&& fOverflow = 0 then 0 else stOverflow)
/-- |x| ≤ 7 · 2^e. -/
def within7 (m : Nat) (x e : Int) : Bool :=
  let k := min x e
  decide (m * 2 ^ (x - k).toNat ≤ 7 * 2 ^ (e - k).toNat)
/-- The smallest exponent from `e` on, within `n` tries, that admits every difference. -/
def leastExp (ds : List (Nat × Int)) (e : Int) : Nat → Int
  | 0 => e
  | n + 1 => if ds.all fun d => within7 d.1 d.2 e then e else leastExp ds (e + 1) n
/-- A group's exponent and its quantised differences; no exponent where a difference is NaN or infinite. -/
def quantGroup (emin : Int) (ds : List FVal) : Option Int × List Int :=
  if ds.all fun d => match d with | .fin .. => true | _ => false then
    let e := leastExp (ds.filterMap fun d => match d with | .fin _ m x => some (m, x) | _ => none) emin 512
    (some e, ds.map fun d => match d with
      | .fin s m x =>
        let q := (roundAt .rne s m (x - e) 0).1
        let z : Int := if s then -(q : Int) else q
        max (-7) (min 7 z)
      | _ => 0)
  else (none, ds.map fun _ => 0)

end Sys2Proof.Machine
end

