-- ==== Sys2Proof/Machine/Task.lean ====
section
/-! DEFINITION. Matrix tasks: submission, acceptance, presence, issue to the engines, K-steps, D rows and the ends of tasks
(17 R276–R290, R299–R301). -/
namespace Sys2Proof.Machine

/-! ## The record's fields (17 Tables 17-2, 17-3) -/

def Task.w (k : Task) (i : Nat) : Word := k.words.getD i 0
def bitsOf (w : Word) (lo n : Nat) : Nat := w.toNat / 2 ^ lo % 2 ^ n
def Task.op (k : Task) : Nat := bitsOf (k.w 0) 0 4
def Task.tyA? (k : Task) : Option Ty := Ty.ofCode? ((k.w 0).extractLsb' 8 6)
def Task.tyB? (k : Task) : Option Ty := Ty.ofCode? ((k.w 0).extractLsb' 16 6)
def Task.tyC? (k : Task) : Option Ty := Ty.ofCode? ((k.w 0).extractLsb' 24 6)
def Task.tyD? (k : Task) : Option Ty := Ty.ofCode? ((k.w 0).extractLsb' 32 6)
def Task.tyA (k : Task) : Ty := k.tyA?.getD .f32
def Task.tyB (k : Task) : Ty := k.tyB?.getD .f32
def Task.tyC (k : Task) : Ty := k.tyC?.getD .f32
def Task.tyD (k : Task) : Ty := k.tyD?.getD .f32
def Task.steps (k : Task) : Nat := bitsOf (k.w 0) 40 8
def Task.cls (k : Task) : Nat := bitsOf (k.w 0) 48 2
def Task.cfg (k : Task) : Word := k.w 12
def Task.m (k : Task) : Nat := bitsOf k.cfg 0 6
def Task.n (k : Task) : Nat := bitsOf k.cfg 8 6
def Task.mode (k : Task) : RMode := RMode.ofCode (bitsOf k.cfg 16 3)
def Task.sat (k : Task) : Bool := k.cfg.getLsbD 24
def Task.cfgId (k : Task) : BitVec 32 := k.cfg.extractLsb' 32 32
def Task.graftIdx (k : Task) : BitVec 16 := (k.w 11).setWidth 16
/-- The output scale exponent, signed. -/
def Task.outExp (k : Task) : Int := ((k.w 11).extractLsb' 16 8).toInt
def Task.pair (k : Task) : PairInfo :=
  (do pairInfo (← k.tyA?) (← k.tyB?)).getD { elems := 128, ints := false }
def Task.depth (k : Task) : Nat := k.pair.elems * k.steps
/-- Scales are read for an operand (09 R136). -/
def Task.scaledA (k : Task) : Bool := k.w 9 != 0 && !k.pair.noScale
def Task.scaledB (k : Task) : Bool := k.w 10 != 0 && !k.pair.noScale
/-- The path that the task accumulates on. -/
def Task.floats (k : Task) : Bool := k.op == 2 || !k.pair.ints || k.w 9 != 0 || k.w 10 != 0
/-- Bytes of an output row, and its granules. -/
def Task.rowBytes (k : Task) : Nat := k.n * k.tyD.bytes
def Task.rowGranules (k : Task) : Nat := (k.rowBytes + 63) / 64

/-! ## The checks of acceptance (17 Table 17-5, causes 1 to 3) -/

/-- Reserved bits of the record, and of the configuration block. -/
def Task.recReserved (k : Task) : Bool :=
  (k.w 0) &&& 0xFFFC00C0C0C0C0F0 != 0 || bitsOf (k.w 11) 24 40 != 0
def Task.cfgReserved (k : Task) : Bool :=
  k.cfg &&& 0xFEF8C0C0 != 0 || k.w 13 != 0 || k.w 14 != 0 || k.w 15 != 0
def Task.form1 (k : Task) : Bool :=
  k.recReserved || decide (2 < k.op) || k.steps == 0 ||
    (k.op != 1 && (bitsOf (k.w 0) 24 6 != 0 || k.w 6 != 0))
def Task.form2 (k : Task) : Bool :=
  k.cfgReserved || k.m == 0 || decide (32 < k.m) || k.n == 0 || decide (32 < k.n) || decide (6 ≤ bitsOf k.cfg 16 3)
def isFloatC (t : Ty) : Bool := t == .f32 || t == .f16 || t == .bf16
def isFloatD (t : Ty) : Bool := isFloatC t || t == .e4m3 || t == .e5m2
/-- The types break R136, R137 or R291. -/
def Task.pairBad (k : Task) : Bool :=
  match k.tyA?, k.tyB?, k.tyD? with
  | some a, some b, some d =>
    match pairInfo a b with
    | none => true
    | some _ =>
      (if k.floats then !isFloatD d else d != .s32) ||
        (k.op == 1 && (match k.tyC? with
          | none => true
          | some c => if k.floats then !isFloatC c else c != .s32)) ||
        (k.op == 2 && (!(a == .s8 || a == .e4m3 || a == .bf16) || k.depth % 128 != 0))
  | _, _, _ => true
def Task.alignBad (k : Task) (cfgRead : Bool) : Bool :=
  let off := fun (i w : Nat) => (k.w i).toNat % w != 0
  off 2 32 || off 3 32 || off 4 32 || off 5 32 || off 6 64 || off 7 64 || off 8 64 || off 9 2 || off 10 2 || off 1 32 ||
    (cfgRead && decide (1 < k.m) && decide ((k.w 8).toNat < 64 * k.rowGranules))
/-- The first of causes 1 to 3 that holds; a misaligned configuration block is not read. -/
def Task.formError (k : Task) (cfgRead : Bool) : Option Nat :=
  if k.form1 ∨ (cfgRead ∧ k.form2) then some 1
  else if k.pairBad then some 2
  else if k.alignBad cfgRead then some 3
  else none

/-! ## Where a task reads (17 R280) -/

/-- Granules that hold `len` bytes from an address. -/
def spanGranules (a : Word) (len : Nat) : List Word :=
  (List.range ((a.toNat % 64 + len + 63) / 64)).map fun j => BitVec.ofNat 64 (a.toNat / 64 * 64 + 64 * j)
def rowAt (base stride : Word) (i : Nat) : Word := base + BitVec.ofNat 64 i * stride
/-- Each place once, in ascending address order. -/
def inOrder (l : List Word) : List Word := ((l.map BitVec.toNat).foldr insertAsc []).map (BitVec.ofNat 64)
/-- Granules of the strips of an operand over K-steps `t` to `t + c − 1`. -/
def stripPlaces (base stride : Word) (rows elems width t c : Nat) : List Word :=
  inOrder ((List.range rows).flatMap fun i =>
    spanGranules (rowAt base stride i + BitVec.ofNat 64 (t * (elems * width / 8))) (c * (elems * width / 8)))
/-- Address of the scale word of row `i` and group `g`. -/
def scaleAt (base : Word) (depth i g : Nat) : Word := base + BitVec.ofNat 64 (2 * (i * (depth / 128) + g))
def scalePlaces (base : Word) (depth rows elems t c : Nat) : List Word :=
  inOrder ((List.range rows).flatMap fun i =>
    spanGranules (scaleAt base depth i (t * elems / 128)) (2 * (c * elems / 128)))
def Task.placesA (k : Task) (t c : Nat) : List Word := stripPlaces (k.w 2) (k.w 3) k.m k.pair.elems k.tyA.width t c
def Task.placesB (k : Task) (t c : Nat) : List Word := stripPlaces (k.w 4) (k.w 5) k.n k.pair.elems k.tyB.width t c
/-- Rows of C from `first` on. -/
def Task.placesC (k : Task) (first : Nat) : List Word :=
  if k.op = 1 then
    inOrder (((List.range k.m).drop first).flatMap fun i => spanGranules (rowAt (k.w 6) (k.w 8) i) (k.n * k.tyC.bytes))
  else []
def Task.placesS (k : Task) (t c : Nat) : List Word :=
  (if k.scaledA then scalePlaces (k.w 9) k.depth k.m k.pair.elems t c else []) ++
    if k.scaledB then scalePlaces (k.w 10) k.depth k.n k.pair.elems t c else []
/-- The order of the presence check (17 R283). -/
def Task.presencePlaces (k : Task) : List Word :=
  k.placesA 0 k.steps ++ k.placesB 0 k.steps ++ k.placesC 0 ++ k.placesS 0 k.steps

/-! ## Operands in the engine's buffer -/

def bufByte (buf : List (Word × Granule)) (a : Word) : Nat :=
  match buf.find? fun e => e.1 == (a &&& ~~~63) with
  | some e => (byteOf e.2 (a.toNat % 64)).toNat
  | none => 0
/-- `n` bytes, little-endian. -/
def bufNat (buf : List (Word × Granule)) (a : Word) : Nat → Nat
  | 0 => 0
  | n + 1 => bufByte buf a + 256 * bufNat buf (a + 1) n
/-- Element `k` of a row of packed `w`-bit elements (09 Table 9-3). -/
def bufElem (buf : List (Word × Granule)) (row : Word) (w k : Nat) : Nat :=
  bufNat buf (row + BitVec.ofNat 64 (w * k / 8)) ((w * k % 8 + w + 7) / 8) / 2 ^ (w * k % 8) % 2 ^ w
/-- The strip of a row over K-steps `t` to `t + c − 1`. -/
def Task.strip (k : Task) (isB : Bool) (i t c : Nat) : Strip :=
  let ty := if isB then k.tyB else k.tyA
  let row := if isB then rowAt (k.w 4) (k.w 5) i else rowAt (k.w 2) (k.w 3) i
  let e := k.pair.elems
  let base := if isB then k.w 10 else k.w 9
  { ty := ty
    elems := (List.range (c * e)).map fun j => bufElem k.buf row ty.width (t * e + j)
    scales := if (if isB then k.scaledB else k.scaledA) then
        some ((List.range (c * e / 128)).map fun g => BitVec.ofNat 16 (bufNat k.buf (scaleAt base k.depth i (t * e / 128 + g)) 2))
      else none }

/-! ## Making a task's accesses -/

/-- What an access of a task may reach: the record and configuration block, an operand, a presence check, and a graft's
weights (17 R278–R280, R291). -/
inductive TaskRule where
  | plain
  | operand
  | presence
  | weight (idx : BitVec 8)
deriving DecidableEq, Repr

/-- Make the access that a task holds. -/
def State.taskGo (s : State) (g : BitVec 8) (tk : Word) (rule : TaskRule) : State :=
  let who := Agent.task g tk
  match s.acc who with
  | none => s
  | some a =>
    if a.st ≠ .fresh then s
    else
      let c := s.agentCore who
      match s.checkAddr c a.va with
      | .error _ => s.answer who 1 (.trap 0 5)
      | .ok (.store l t off) =>
        if (rule = .operand ∨ rule = .presence) ∧ 1 ≤ l ∧ sgIdx t = g then s.presentAt who l t off
        else s.answer who 1 (.trap 0 5)
      | .ok (.global pkg _) =>
        if pkg ≠ s.pkgNum then
          match rule with
          | .weight _ => s.answer who 1 (.trap 0 5)
          | _ => s.sendRemote who pkg a
        else
          let s := if a.map.isNone then s.translate who else s
          match s.acc who with
          | none => s
          | some b =>
            match b.map with
            | none => s
            | some m =>
              if b.st ≠ .fresh then s
              else
                match rule with
                | .plain => if m.isBlock then s.answer who 1 (.trap 0 5) else s.dispatchAcc who b m
                | .weight i => if m.isBlock ∧ m.watch = some i then s.dispatchAcc who b m else s.answer who 1 (.trap 0 5)
                | .presence => if m.isBlock then s.dispatchAcc who b m else s.answer who 1 (.data 0 0)
                | .operand => s.dispatchAcc who b m

/-- Task cause of a failed access (17 Table 17-5). -/
def taskCause (c : Nat) : Nat :=
  match c with
  | 4 | 5 => 4
  | 2 => 5
  | 7 => 6
  | 6 => 7
  | 12 => 10
  | 256 => 14
  | 258 => 11
  | _ => 4
/-- Trap cause of a task cause. -/
def taskTrap (c : Nat) : Nat :=
  match c with
  | 4 => 5
  | 5 => 2
  | 6 => 7
  | 7 => 6
  | 8 => 9
  | _ => 8

/-- Cycle a scheduler's issue. -/
def State.kickIssue (s : State) (g : BitVec 8) : State :=
  if s.agenda.any fun e => e.2 == .taskIssue g && decide (s.cyc < e.1) then s else s.after 1 (.taskIssue g)
/-- Every scheduler looks again: a graft record is free. -/
def State.kickAll (s : State) : State := s.sgs.foldl (fun s e => s.kickIssue (BitVec.ofNat 8 e.1)) s
/-- Acceptance goes on with the first task not yet accepted (17 R282). -/
def State.kickAccept (s : State) (g : BitVec 8) : State :=
  match (s.sg g).tasks.find? fun t => t.st == .issued with
  | some t => s.after 1 (.taskAccept g t.ticket)
  | none => s
def State.modEngine (s : State) (g : BitVec 8) (e : Nat) (f : Engine → Engine) : State :=
  let x := s.sg g
  if h : e < 4 then s.setSg g { x with engines := x.engines.set e (f x.engines[e]) } else s
def State.engine (s : State) (g : BitVec 8) (e : Nat) : Engine := ((s.sg g).engines[e]?).getD {}
/-- A GRAFT's record is no longer held by its engine (17 R292). -/
def State.dropHold (s : State) (g : BitVec 8) (k : Task) : State :=
  (s.modEngine g k.engine fun e => { e with holds := none }).kickAll
/-- A running task leaves its engine: its tile is free and its record is no longer held (17 R289, R292). -/
def State.leaveEngine (s : State) (g : BitVec 8) (k : Task) : State :=
  let s := s.modTask g k.ticket fun k => { k with kstep := 0, accs := [], buf := [], step := 0, writing := false, begun := false, changes := false }
  if k.op = 2 then s.dropHold g k else s.kickIssue g

/-- A task's failed access ends it. At acceptance a record that cannot be read is not written either. -/
def State.taskFailed (s : State) (g : BitVec 8) (k : Task) (a : Access) : State :=
  let s := if a.cause = 12 then s.checkFail a (.task g k.ticket) else s
  let c := taskCause a.cause
  let noRec := k.st == .issued && a.va.toNat / 128 == k.record.toNat / 128
  let s := if k.st = .running then s.leaveEngine g k else s
  (s.modTask g k.ticket fun k =>
    { k with bad := a.va, acc := none, st := if noRec then .ending else k.st, fin := if noRec then some c else k.fin
             last := noRec }).after 0
    (.taskEndError g k.ticket c)

/-- Drive the access that a task holds; `ok` goes on with its granule. A block that the engine finds not full sends the
task back to the waiting set (17 R289). -/
def State.taskDrive (s : State) (g : BitVec 8) (k : Task) (rule : TaskRule) (ok : State → Granule → State) : State :=
  match k.acc with
  | none => s
  | some a =>
    match a.st with
    | .fresh => s.taskGo g k.ticket rule
    | .done => ok (s.modTask g k.ticket fun k => { k with acc := none }) a.rdata
    | .failed => s.taskFailed g k a
    | .placed | .relist =>
      if k.st = .running then s.after 0 (.taskFault g k.ticket true)
      else
        let s := s.modTask g k.ticket fun k => { k with st := .waiting }
        if a.st = .relist ∧ (s.agenda.all fun e => e.2 != .waiterRetry (.task g k.ticket)) then
          s.after 64 (.waiterRetry (.task g k.ticket)) else s
    | _ => s
/-- Give a task an access and make it. -/
def State.taskAccess (s : State) (g : BitVec 8) (tk : Word) (rule : TaskRule) (a : Access) : State :=
  (s.setAcc (.task g tk) (some a)).taskGo g tk rule
def granuleRead (va : Word) : Access := { va := va, mask := BitVec.allOnes 64, op := .read }

/-! ## The record's status (17 Table 17-4) -/

/-- Status as it stands in a state: Passes, Reason and Grafted are received when the task ends (17 R296). -/
def Task.statusWord (k : Task) (st cause : Nat) : Word :=
  k.status ||| BitVec.ofNat 64 (st + if st < 3 then 0 else
    k.passes % 2 ^ 32 * 2 ^ 32 + cause * 2 ^ 24 + k.reason * 2 ^ 21 +
      if k.op = 2 ∧ k.committed ∧ k.reason = 0 then 2 ^ 20 else 0)
def Task.rowsWord (k : Task) : Word := BitVec.ofNat 64 ((if k.committed then 2 ^ 63 else 0) + k.rows)
/-- The write of Committed and Rows alone: word +0x60 of the record (17 R296). -/
def Task.rowsWrite (k : Task) : Access :=
  { va := k.record + 0x40, mask := 0x000000FF00000000
    op := .write 0x000000FF00000000 (granuleOf [0, 0, 0, 0, k.rowsWord, 0, 0, 0]) }
/-- Write words 4 to 6 of the record's second granule, as chosen. -/
def Task.recWrite (k : Task) (rows ticket : Bool) (st cause : Nat) : Access :=
  let mask : BitVec 64 := (if rows then 0x000000FF00000000 else 0) ||| 0x0000FF0000000000 |||
    (if ticket then 0x00FF000000000000 else 0)
  { va := k.record + 0x40, mask := mask
    op := .write mask (granuleOf [0, 0, 0, 0, k.rowsWord, k.statusWord st cause, k.ticket, 0]) }

/-! ## MTASK, MTQRY, MTCAN (17 R299–R301) -/

/-- The outstanding tasks of a context's thread in its supergroup's scheduler. -/
def State.tasksOf (s : State) (c : CoreId) (x : CtxId) : List Task :=
  (s.sg (sgIdx c)).tasks.filter fun k => k.core == c && k.ctx == x && k.tid == (s.ctx c x).tid
def State.submit (s : State) (c : Ctx) (q : BitVec 3) (d : G) (a : Word) : State :=
  let g := sgIdx s.slot
  let x := s.sg g
  let n := x.seq + 1
  let tk : Word := (g.setWidth 64 <<< 48) ||| n.setWidth 64
  let k : Task := { ticket := tk, record := a, queue := q, core := s.slot, ctx := s.cx, tid := c.tid, pc := c.pc,
                    asid := c.asid, priv := c.priv, launch := c.launch }
  ((s.setSg g { x with seq := n, tasks := x.tasks ++ [k] }).putG d tk).kickAccept g
def execMtask (p : Pred) (q : BitVec 3) (d a : G) (s : State) : R :=
  issue .any p 8 s fun c t =>
    let r := c.getG a
    if r.toNat % 128 ≠ 0 then .trap 1 r
    else
      match t.checkAddr t.slot r with
      | .error e => .trap e r
      | .ok (.store ..) => .trap 5 r
      | .ok (.global ..) =>
        if 32 ≤ (t.tasksOf t.slot t.cx).length ∨ 256 ≤ (t.sg (sgIdx t.slot)).tasks.length ∨
            t.myCore.drained t.cx = false then .lose
        else .ok (t.submit c q d r)
/-- 17 R300. -/
def Task.query (k : Task) : Nat :=
  if k.st = .running ∨ k.st = .ending then 4
  else if k.st = .faulted ∨ k.acc.any (fun a => a.st == .faulted) then 5
  else match k.st with
    | .issued => 1
    | .waiting => 2
    | _ => 3
def execMtqry (p : Pred) (d a : G) (s : State) : R :=
  issue .any p 8 s fun c t =>
    .ok (t.putG d (BitVec.ofNat 64
      ((((t.tasksOf t.slot t.cx).find? fun k => k.ticket == c.getG a).map Task.query).getD 0)))
def execMtqryQ (p : Pred) (d : G) (s : State) : R :=
  issue .any p 8 s fun _ t =>
    let l := t.tasksOf t.slot t.cx
    .ok (t.putG d (BitVec.ofNat 64 ((List.range 8).foldl
      (fun z i => z + (l.filter fun k => k.queue.toNat == i).length * 256 ^ i) 0)))
def execMtcan (p : Pred) (d a : G) (s : State) : R :=
  issue .any p 8 s fun c t =>
    .ok (match (t.tasksOf t.slot t.cx).find? fun k => k.ticket == c.getG a with
      | none => t.putG d 2
      | some k =>
        if k.query = 4 ∨ k.query = 5 then t.putG d 1
        else
          let g := sgIdx t.slot
          (((t.putG d 0).modTask g k.ticket fun k => { k with st := .ending, fin := some 12, begun := k.st != .issued }).after 0
            (.taskEndError g k.ticket 12)).kickAccept g)

/-! ## TASK_ACCEPT (17 R282) -/

def granuleWords (x : Granule) : List Word := (List.range 8).map x.word
/-- The words that a step of acceptance reads: the record's 8 and 4, then the configuration block's 4. -/
def Task.takeWords (k : Task) (x : Granule) : Task :=
  { k with
    step := k.step + 1
    words := k.words ++ (if k.step = 0 then granuleWords x
      else if k.step = 1 then (granuleWords x).take 4
      else ((granuleWords x).drop ((k.w 1).toNat % 64 / 8)).take 4) }
def State.taskEnd (s : State) (g : BitVec 8) (tk : Word) (cause : Nat) : State := s.after 0 (.taskEndError g tk cause)
/-- The next thing that acceptance does: a read, the checks, or the write of Rows, Status and Ticket. -/
def State.acceptNext (s : State) (g : BitVec 8) (k : Task) : State :=
  if k.step = 0 then s.taskAccess g k.ticket .plain (granuleRead k.record)
  else if k.step = 1 then s.taskAccess g k.ticket .plain (granuleRead (k.record + 0x40))
  else if k.step = 2 then
    if (k.w 1).toNat % 32 ≠ 0 then s.taskEnd g k.ticket ((k.formError false).getD 3)
    else s.taskAccess g k.ticket .plain (granuleRead (BitVec.ofNat 64 ((k.w 1).toNat / 64 * 64)))
  else if k.step = 3 then
    match k.formError true with
    | some c => s.taskEnd g k.ticket c
    | none =>
      let power := ((s.launches.find? fun l => l.num == k.launch).map fun l => l.power.toNat).getD 0
      (s.modTask g k.ticket fun k => { k with step := 4, power := if k.ctx = 0 then 0 else power }).taskAccess g k.ticket .plain
        (k.recWrite true true 1 0)
  else
    ((s.modTask g k.ticket fun k => { k with st := .presence, step := 0 }).after 1 (.taskPresenceCheck g k.ticket)).kickAccept g
def State.taskAccept (s : State) (g : BitVec 8) (tk : Word) : State :=
  match s.task g tk with
  | none => s
  | some k =>
    if k.st ≠ .issued then s
    else if ((s.sg g).tasks.find? fun t => t.st == .issued).map Task.ticket ≠ some tk then s
    else if k.acc.isNone then s.acceptNext g k
    else s.taskDrive g k .plain fun s x =>
      if k.step < 4 then
        let s := s.modTask g tk fun k => k.takeWords x
        match s.task g tk with
        | some k => s.acceptNext g k
        | none => s
      else s.acceptNext g { k with step := 5 }
def execTaskAccept (s : State) : R :=
  match s.ev with
  | some (.taskAccept g t) => .next (s.taskAccept g t)
  | _ => .fault .noPendingEvent

/-! ## TASK_PRESENCE_CHECK (17 R283, R289) -/

/-- The next location, or the task is ready. -/
def State.presenceNext (s : State) (g : BitVec 8) (k : Task) : State :=
  match k.presencePlaces[k.step]? with
  | some a => (s.modTask g k.ticket fun k => { k with st := .presence }).taskAccess g k.ticket .presence (granuleRead a)
  | none => (s.modTask g k.ticket fun k => { k with st := .ready, step := 0, acc := none }).kickIssue g
/-- A task's presence check goes on at the location that it has reached; a task that faulted in its engine is ready again
once its fault is answered. -/
def State.taskPresence (s : State) (g : BitVec 8) (tk : Word) : State :=
  match s.task g tk with
  | none => s
  | some k =>
    match k.st with
    | .presence | .waiting =>
      if k.acc.isNone then s.presenceNext g k
      else s.taskDrive g k .presence fun s _ =>
        let s := s.modTask g tk fun k => { k with step := k.step + 1 }
        s.presenceNext g { k with step := k.step + 1 }
    | .faulted =>
      match k.acc with
      | some a =>
        if a.st = .failed then s.taskFailed g k a
        else if a.st = .faulted then s
        else (s.modTask g tk fun k => { k with st := .ready, acc := none, step := 0 }).kickIssue g
      | none => s
    | _ => s
def execTaskPresenceCheck (s : State) : R :=
  match s.ev with
  | some (.taskPresenceCheck g t) => .next (s.taskPresence g t)
  | _ => .fault .noPendingEvent

/-! ## TASK_ISSUE, CONFIGURATION_CHANGE (17 R276, R284–R286) -/

def Task.sameQueue (a b : Task) : Bool := a.core == b.core && a.ctx == b.ctx && a.tid == b.tid && a.queue == b.queue
/-- An engine holds a graft record. -/
def State.recordHeld (s : State) (i : BitVec 16) : Bool := s.sgs.any fun e => e.2.engines.any fun n => n.holds == some i
/-- Key of a graft record, and the record, none where it cannot be read (17 R292). -/
def State.graftKey (s : State) (i : BitVec 16) : Nat := (s.bar 0x3000).toNat + 64 * i.toNat
def State.graftRec (s : State) (i : BitVec 16) : Option Granule := s.rawRead (s.graftKey i)
def recTenant (r : Granule) : BitVec 16 := r.extractLsb' 16 16
/-- An LYRDROP waits for the records of a tenant (17 R305). -/
def State.dropping (s : State) (asid : BitVec 16) : Bool :=
  s.cores.any fun e => e.2.ctxs.any fun t =>
    match t.park with
    | some (.lyr _ 5 a _) => a.setWidth 16 == asid
    | _ => false
def State.taskReady (s : State) (g : BitVec 8) (k : Task) : Bool :=
  k.st == .ready && (((s.sg g).tasks.takeWhile fun q => q.ticket != k.ticket).all fun q => !q.sameQueue k) &&
    (k.op != 2 || (!s.recordHeld k.graftIdx && !((s.graftRec k.graftIdx).any fun r => s.dropping (recTenant r))))
/-- The tasks in the engines: from their issue until they have left or reached state 3. -/
def Sg.running (x : Sg) : List Task := x.tasks.filter fun k => k.st == .running || (k.st == .ending && k.fin == some 0)
/-- 17 R286; under a power limit every budget counts half (25 R381). -/
def Sg.powerOk (x : Sg) (k : Task) (halved : Bool) : Bool :=
  let run := x.running
  let caps := ((k :: run).map Task.power).filter fun p => p != 0
  run.isEmpty || caps.isEmpty || decide ((if halved then 2 else 1) * ((run.map Task.cls).sum + k.cls) ≤ caps.foldl min 255)
/-- 17 R285. -/
def Sg.engineFree (x : Sg) (k : Task) (e : Nat) : Bool :=
  let l := x.running.filter fun q => q.engine == e
  decide (l.length < 4) && l.all (fun q => q.op != 2) && (k.op != 2 || l.isEmpty)
def Sg.engineFor (x : Sg) (k : Task) : Option Nat :=
  let l := (List.range 4).filter (x.engineFree k)
  (l.find? fun e => (x.engines[e]?).any fun n => n.config == k.cfgId).or l.head?
/-- The tasks that are ready in this cycle, and since when (17 R284, R285). -/
def State.markReady (s : State) (g : BitVec 8) : State :=
  let x := s.sg g
  s.setSg g { x with tasks := x.tasks.map fun k =>
    { k with readyAt := if s.taskReady g k then k.readyAt.or (some s.cyc) else none } }
/-- The first ready task that may issue, up to one that has been ready for 4,096 cc. -/
def State.pickTask (s : State) (g : BitVec 8) : List Task → Option (Task × Nat)
  | [] => none
  | k :: r =>
    if s.taskReady g k then
      match (s.sg g).engineFor k, (s.sg g).powerOk k s.sys.halved with
      | some e, true => some (k, e)
      | _, _ => if k.readyAt.any fun t => decide (t + 4096 ≤ s.cyc) then none else s.pickTask g r
    else s.pickTask g r
def Task.startEvent (k : Task) (g : BitVec 8) : Event := if k.op = 2 then .graftInvocation g k.ticket else .taskKstep g k.ticket
def State.taskIssue (s : State) (g : BitVec 8) : State :=
  let s := s.markReady g
  match s.pickTask g (s.sg g).tasks with
  | none => s
  | some (k, e) =>
    let s := s.modTask g k.ticket fun k =>
      { k with st := .running, engine := e, step := 0, kstep := 0, passes := if k.committed then k.passes else 0, accs := []
               buf := [], acc := none, readyAt := none, issuedAt := s.cyc, changes := (s.engine g e).config != k.cfgId }
    let s := if k.op = 2 then (s.modEngine g e fun n => { n with holds := some k.graftIdx }).kickAll else s
    let s := s.kickIssue g
    s.after 1 (if (s.engine g e).config = k.cfgId then k.startEvent g else .configurationChange g k.ticket)
def execTaskIssue (s : State) : R :=
  match s.ev with
  | some (.taskIssue g) => .next (s.taskIssue g)
  | _ => .fault .noPendingEvent
/-- Every task that issued to the engine before this one has run to its end. -/
def State.drained (s : State) (g : BitVec 8) (k : Task) : Bool :=
  (s.sg g).running.all fun q => !(q.engine == k.engine && decide (q.issuedAt < k.issuedAt))
/-- The engine drains, takes the configuration id, and is busy for 16 cycles. -/
def State.configurationChange (s : State) (g : BitVec 8) (tk : Word) : State :=
  match s.task g tk with
  | none => s
  | some k =>
    if k.st ≠ .running ∨ k.changes = false then s
    else if s.drained g k = false ∨ s.cyc < (s.engine g k.engine).busyUntil then s.after 1 (.configurationChange g tk)
    else
      ((((s.modTask g tk fun k => { k with changes := false }).modEngine g k.engine fun e =>
        { e with config := k.cfgId, busyUntil := s.cyc + 16 }).count k.core 8).after 16 (k.startEvent g)).kickIssue g
def execConfigurationChange (s : State) : R :=
  match s.ev with
  | some (.configurationChange g t) => .next (s.configurationChange g t)
  | _ => .fault .noPendingEvent

/-! ## TASK_KSTEP (09 R140–R143, 17 R277, R289) -/

/-- The record says that the task is running; then `next`. -/
def State.taskBegin (s : State) (g : BitVec 8) (k : Task) (next : State → Task → State) : State :=
  if k.begun then next s k
  else if k.acc.isNone then s.taskAccess g k.ticket .plain (k.recWrite false false 2 0)
  else s.taskDrive g k .plain fun s _ =>
    let s := s.modTask g k.ticket fun k => { k with begun := true }
    next s { k with begun := true, acc := none }
/-- Read a list of places into the buffer, from the task's step on; then `next`. -/
def State.gather (s : State) (g : BitVec 8) (k : Task) (places : List Word) (rule : Nat → TaskRule)
    (next : State → Task → State) : State :=
  let more := fun (s : State) (k : Task) =>
    match places[k.step]? with
    | none => next s k
    | some a => s.taskAccess g k.ticket (rule k.step) (granuleRead a)
  match k.acc with
  | none => more s k
  | some a =>
    s.taskDrive g k (rule k.step) fun s x =>
      let k := { k with acc := none, buf := (a.va, x) :: k.buf, step := k.step + 1 }
      more (s.modTask g k.ticket fun _ => k) k
/-- Matrix entries in row order. -/
def Task.cells (k : Task) : List (Nat × Nat) := (List.range k.m).flatMap fun i => (List.range k.n).map fun j => (i, j)
/-- The first accumulators. -/
def Task.firstAccs (k : Task) : List (BitVec 32) :=
  if k.op = 1 then
    k.cells.map fun p =>
      let w := k.tyC.bytes
      BitVec.ofNat 32 (accOfC k.tyC (bufNat k.buf (rowAt (k.w 6) (k.w 8) p.1 + BitVec.ofNat 64 (p.2 * w)) w))
  else List.replicate (k.m * k.n) 0
/-- One K-step of every accumulator: the new ones, status bits, NaN scales met and format errors. An element 0b10 counts one
format error for each K-step and row or column that reads it, not one for each product it enters (DESIGN CHOICE, log 84). -/
def Task.compute (k : Task) (t : Nat) : List (BitVec 32) × Word × Nat × Nat :=
  let as := (List.range k.m).map fun i => k.strip false i t 1
  let bs := (List.range k.n).map fun j => k.strip true j t 1
  let none' : Strip := { ty := .f32, elems := [], scales := none }
  let rs := (k.cells.zip k.accs).map fun p =>
    let a := as.getD p.1.1 none'
    let b := bs.getD p.1.2 none'
    if k.floats then kstepFloat k.mode k.pair p.2.toNat a b
    else let r := kstepInt k.pair p.2.toNat a b; (r.1, r.2, 0)
  let fe := ((as ++ bs).map Strip.formatErrors).sum
  (rs.map fun r => BitVec.ofNat 32 r.1, rs.foldl (fun w r => w ||| r.2.1) (if fe = 0 then 0 else stFmtErr),
    (rs.map fun r => r.2.2).sum, fe)
/-- The K-steps of a task that issued to the engine earlier stand before this one's (17 R277). -/
def State.behind (s : State) (g : BitVec 8) (k : Task) : Bool :=
  (s.sg g).running.any fun q => q.engine == k.engine && decide (q.issuedAt < k.issuedAt) && !q.writing
/-- With its operands read, a task runs its K-step when the engine comes to it. A task whose id the engine had when it issued,
and has lost since to a task before it, has the engine change back. -/
def State.runStep (s : State) (g : BitVec 8) (k : Task) : State :=
  if s.cyc < (s.engine g k.engine).busyUntil ∨ s.behind g k then s.after 1 (.taskKstep g k.ticket)
  else if (s.engine g k.engine).config ≠ k.cfgId then
    (s.modTask g k.ticket fun k => { k with changes := true }).after 1 (.configurationChange g k.ticket)
  else
    let r := k.compute k.kstep
    let last := k.kstep + 1 == k.steps
    let s := (s.countN k.core 6 r.2.2.1).countN k.core 5 r.2.2.2
    let s := s.modTask g k.ticket fun k =>
      { k with accs := r.1, status := k.status ||| r.2.1, kstep := k.kstep + 1, passes := k.passes + 1, buf := [], step := 0
               writing := last }
    let s := s.modEngine g k.engine fun e => { e with busyUntil := s.cyc + k.pair.cc }
    if last then s.after k.pair.cc (.taskDWrite g k.ticket) else s.after 1 (.taskKstep g k.ticket)
/-- C rows, then the operands of the next K-step. -/
def State.stepNext (s : State) (g : BitVec 8) (k : Task) : State :=
  if k.accs = [] then
    s.gather g k (k.placesC k.rows) (fun _ => .operand) fun s k =>
      let s := s.modTask g k.ticket fun _ => { k with accs := k.firstAccs, buf := [], step := 0 }
      s.after (if k.op = 1 then k.m else 1) (.taskKstep g k.ticket)
  else
    s.gather g k (k.placesA k.kstep 1 ++ k.placesB k.kstep 1 ++ k.placesS k.kstep 1) (fun _ => .operand)
      fun s k => s.runStep g k
def State.taskKstep (s : State) (g : BitVec 8) (tk : Word) : State :=
  match s.task g tk with
  | none => s
  | some k =>
    if k.st ≠ .running ∨ k.writing ∨ k.op = 2 ∨ k.changes then s
    else s.taskBegin g k fun s k => s.stepNext g k
def execTaskKstep (s : State) : R :=
  match s.ev with
  | some (.taskKstep g t) => .next (s.taskKstep g t)
  | _ => .fault .noPendingEvent

/-! ## TASK_D_WRITE (09 R144, 17 R290) -/

/-- Row `i` of D: its bytes, little-endian, and the flags of its conversions. -/
def Task.rowOut (k : Task) (i : Nat) : Nat × Word :=
  (List.range k.n).foldr (fun j z =>
    let acc := ((k.accs[i * k.n + j]?).getD 0).toNat
    let d := if k.floats then dOfAcc k.tyD k.mode k.sat k.outExp acc else (acc, 0)
    (d.1 + z.1 * 2 ^ k.tyD.width, d.2 ||| z.2)) (0, 0)
/-- The write of granule `j` of row `i`. -/
def Task.rowWrite (k : Task) (i j : Nat) : Access :=
  let n := min 64 (k.rowBytes - 64 * j)
  let m := spanMask 0 n
  { va := rowAt (k.w 7) (k.w 8) i + BitVec.ofNat 64 (64 * j), mask := m
    op := .write m (BitVec.ofNat 512 ((k.rowOut i).1 / 2 ^ (512 * j))) }
/-- The next granule of D, or the task is complete. -/
def State.rowNext (s : State) (g : BitVec 8) (k : Task) : State :=
  if k.m ≤ k.rows then
    let k := { k with st := .ending, fin := some 0, last := true }
    let s := s.modTask g k.ticket fun _ => k
    s.taskAccess g k.ticket .plain (k.recWrite true false 3 0)
  else s.taskAccess g k.ticket .operand (k.rowWrite k.rows k.step)
def State.taskDWrite (s : State) (g : BitVec 8) (tk : Word) : State :=
  match s.task g tk with
  | none => s
  | some k =>
    if k.st ≠ .running ∨ ¬k.writing then s
    else if k.acc.isNone then s.rowNext g k
    else s.taskDrive g k .operand fun s _ =>
      let k := if k.step + 1 = k.rowGranules then
          { k with acc := none, step := 0, rows := k.rows + 1, status := k.status ||| (k.rowOut k.rows).2 }
        else { k with acc := none, step := k.step + 1 }
      (s.modTask g tk fun _ => k).rowNext g k
def execTaskDWrite (s : State) : R :=
  match s.ev with
  | some (.taskDWrite g t) => .next (s.taskDWrite g t)
  | _ => .fault .noPendingEvent

/-! ## Ends (17 R287, R288, R290) -/

/-- The trap of a task that ended with a cause, or a notice where its thread has retired. -/
def State.taskReport (s : State) (k : Task) (cause : Nat) : State :=
  let t := s.ctx k.core k.ctx
  let r : Trap := { kind := 2, cause := taskTrap cause, pc := k.pc, addr := k.bad, detail := cause, source := 2
                    w4 := k.ticket, w5 := k.record }
  if k.reaped then s
  else if t.tid = k.tid ∧ t.st ≠ .empty ∧ t.st ≠ .reserved then s.after 0 (.deferredTrapReport k.core k.ctx k.tid r)
  else
    s.notify (dieOf k.core)
      { code := 21, cause := taskTrap cause, addr := k.record
        who := whoWord k.core k.ctx k.priv.code s.pkgNum k.asid, w3 := k.ticket, w4 := BitVec.ofNat 64 cause }
/-- A task is no longer outstanding. -/
def State.finishTask (s : State) (g : BitVec 8) (k : Task) (cause : Nat) : State :=
  let x := s.sg g
  let later := (x.tasks.dropWhile fun q => q.ticket != k.ticket).drop 1
  let s := s.setSg g { x with tasks := x.tasks.filter fun q => q.ticket != k.ticket }
  let s := if k.op = 2 ∧ k.fin = some 0 then s.dropHold g k else s
  let s :=
    if 1 ≤ cause ∧ cause ≤ 11 then
      (later.filter fun q => q.sameQueue k).foldl (fun s q => s.taskEnd g q.ticket 13) (s.taskReport k cause)
    else if (s.ctx k.core k.ctx).tid = k.tid then s.wakeCopyPark k.core k.ctx else s
  (s.kickIssue g).kickAccept g
/-- TASK_COMPLETE: the final Status is written, after every D write has been acknowledged. Where it cannot be written the task
ends with that cause, once a machine check has named it. -/
def State.taskComplete (s : State) (g : BitVec 8) (tk : Word) : State :=
  match s.task g tk with
  | none => s
  | some k =>
    if k.st ≠ .ending ∨ k.fin ≠ some 0 then s
    else
      match k.acc with
      | none => s.finishTask g k 0
      | some a =>
        match a.st with
        | .fresh => s.taskGo g tk .plain
        | .done => s.finishTask g k 0
        | .failed =>
          let s := if a.cause = 12 then s.checkFail a (.task g tk) else s
          let s := if k.op = 2 then s.dropHold g k else s
          (s.modTask g tk fun k => { k with acc := none, bad := a.va, fin := some (taskCause a.cause) }).taskEnd g tk (taskCause a.cause)
        | _ => s
def execTaskComplete (s : State) : R :=
  match s.ev with
  | some (.taskComplete g t) => .next (s.taskComplete g t)
  | _ => .fault .noPendingEvent

/-- An access on its way: its answer is awaited before the task's last write. -/
def AccSt.flying : AccSt → Bool
  | .bank | .sent | .walking | .performed => true
  | _ => false
/-- TASK_END_ERROR: a task ends with a cause: state 5 where it is cancelled, else 4. A task not yet accepted gets its
Status alone, and its Ticket where it is cancelled. Once its record is written, later tasks of its queue end and its
thread is told. -/
def State.taskEndError (s : State) (g : BitVec 8) (tk : Word) (cause : Nat) : State :=
  match s.task g tk with
  | none => s
  | some k =>
    let k := if k.st = .ending then k
      else { k with fin := some cause, begun := k.st != .issued, st := .ending, last := false }
    let c := k.fin.getD cause
    let s := s.modTask g tk fun _ => k
    if c = 0 then s
    else if k.last then
      match k.acc with
      | none => s.finishTask g k c
      | some a =>
        match a.st with
        | .fresh => s.taskGo g tk .plain
        | .done => s.finishTask g k c
        | .failed =>
          let s := if a.cause = 12 then s.checkFail a (.task g tk) else s
          (s.modTask g tk fun k => { k with acc := none }).taskEnd g tk c
        | _ => s
    else if k.acc.any fun a => a.st.flying then s
    else
      let s := s.modTask g tk fun k => { k with last := true }
      s.taskAccess g tk .plain
        (k.recWrite (k.begun) (c == 12) (if c = 12 then 5 else 4) c)
def execTaskEndError (s : State) : R :=
  match s.ev with
  | some (.taskEndError g t c) => .next (s.taskEndError g t c)
  | _ => .fault .noPendingEvent

/-! ## TASK_FAULT (17 R289) -/

inductive NoteRes where
  | busy (key : Nat)
  | unable
  | done (s : State)

/-- A write of a scheduler to a record of another package: the hub keeps it until it is acknowledged, as it does a posted
operation; it is no thread's (21 R338, 11 R188). -/
def State.noteAbroad (s : State) (g : BitVec 8) (k : Task) (w : Access) : State :=
  let pkg : BitVec 5 := w.va.extractLsb' 52 5
  let c : CoreId := mkCore (g.toNat % 16 * 16) (g.toNat / 16 * 16)
  let r : RemReq := { id := s.newId c, asid := k.asid, priv := k.priv.code, core := k.core, ctx := k.ctx, addr := w.va, op := w.op
                      posted := true, launch := k.launch, who := none }
  if s.pkgDead pkg then s
  else
    ({ s with fresh := s.fresh + 1, homes := s.homes ++ [{ id := s.fresh, req := r, acc := w, tid := 2 ^ 64 }] } : State).hubAfter c
      (.requestLeave pkg r)
/-- Write Rows and State 2 into a record, which the engine translates itself; a record homed elsewhere is sent. -/
def State.taskNote (s : State) (g : BitVec 8) (k : Task) : NoteRes :=
  let w := k.recWrite true false 2 0
  let off := w.va.toNat % 2 ^ 52
  if w.va.extractLsb' 52 5 ≠ s.pkgNum then .done (s.noteAbroad g k w)
  else
    match s.walkAll k.asid off, w.op with
    | .busy k, _ => .busy k
    | .leaf e _, .write m x =>
      if (leafFault e.e1 k.priv 1).isSome ∨ (s.leafMap e off).isBlock then .unable
      else
        match s.plainWrite (s.leafMap e off).key m x with
        | some t => .done t
        | none => .busy (s.leafMap e off).key
    | _, _ => .unable
/-- A running task leaves its engine for a fault, or for the waiting set after a presence retry. -/
def State.taskFault (s : State) (g : BitVec 8) (tk : Word) (presence : Bool) : State :=
  match s.task g tk with
  | none => s
  | some k =>
    if k.st ≠ .running then s
    else
      let leave := fun (s : State) =>
        let s := s.leaveEngine g k
        if presence then
          let at0 := (k.presencePlaces.findIdx fun a => k.acc.any fun b => b.va.toNat / 64 == a.toNat / 64)
          let s := (s.modTask g tk fun q => { q with st := .waiting, step := at0 }).count k.core 9
          if k.acc.any fun a => a.st == .relist then s.after 64 (.waiterRetry (.task g tk)) else s
        else s.modTask g tk fun q => { q with st := .faulted }
      match s.taskNote g k with
      | .busy key => (s.nudge key).after 1 (.taskFault g tk presence)
      | .unable => leave s
      | .done t => leave t
def execTaskFault (s : State) : R :=
  match s.ev with
  | some (.taskFault g t p) => .next (s.taskFault g t p)
  | _ => .fault .noPendingEvent

end Sys2Proof.Machine
end

