-- ==== Sys2Proof/Machine/Graft.lean ====
section
/-! DEFINITION. Layer grafting: GRAFT invocations, their restart and commit, and the instructions of the graft table (17
R291–R297, R302–R305). -/
namespace Sys2Proof.Machine

/-! ## The graft record, partition and store (17 Tables 17-6, 17-7) -/

def recEmax (r : Granule) : Int := (r.extractLsb' 56 8).toInt
def recEmin (r : Granule) : Int := (r.extractLsb' 48 8).toInt
def recD (r : Granule) : Nat := (r.extractLsb' 40 8).toNat
def recR (r : Granule) : Nat := (r.extractLsb' 32 8).toNat
def recValid (r : Granule) : Bool := r.getLsbD 15
def recVersion (r : Granule) : BitVec 7 := r.extractLsb' 8 7
def recWatch (r : Granule) : BitVec 8 := r.extractLsb' 96 8
def recWatched (r : Granule) : BitVec 32 := r.extractLsb' 64 32
def recX (r : Granule) : Nat := (r.word 2).toNat
def recY (r : Granule) : Nat := (r.word 3).toNat
def recReq (r : Granule) : Bool := (r.word 4).getLsbD 63
def recInv (r : Granule) : Nat := (r.word 4).toNat % 256
def recM (r : Granule) : Nat := ((r.word 6).extractLsb' 40 8).toNat
def recN (r : Granule) : Nat := ((r.word 6).extractLsb' 32 8).toNat
def recK (r : Granule) : Nat := ((r.word 6).extractLsb' 0 32).toNat
/-- Bits `lo + n − 1 : lo` of a word replaced. -/
def putBits (w : Word) (lo n x : Nat) : Word :=
  (w &&& ~~~(BitVec.ofNat 64 ((2 ^ n - 1) * 2 ^ lo))) ||| BitVec.ofNat 64 (x % 2 ^ n * 2 ^ lo)
def recFree (r : Granule) : Bool := recTenant r == 0 && !recValid r
def State.setRec (s : State) (i : BitVec 16) (r : Granule) : State := s.rawWrite (s.graftKey i) (BitVec.allOnes 64) r
/-- A tenant's partition entry as it is read: its line is busy, it fails its check, or its base, limit and V. -/
inductive PartRead where
  | busy
  | bad
  | ok (p : Nat × Nat × Bool)
deriving DecidableEq, Repr
def State.partKey (s : State) (asid : BitVec 16) : Nat := (s.bar 0x3008).toNat + 16 * asid.toNat
def State.partition (s : State) (asid : BitVec 16) : PartRead :=
  let k := s.partKey asid
  match s.plainRead k with
  | .busy => .busy
  | .bad => .bad
  | .ok g =>
    let a : Word := g.extractLsb' (8 * (k % 64)) 64
    let b : Word := g.extractLsb' (8 * (k % 64) + 64) 64
    .ok (a.toNat / 4096 * 4096, b.toNat / 4096 * 4096, a.getLsbD 0)
def State.watchVersion (s : State) (i : BitVec 8) : BitVec 32 := SMap.get 0 s.watch i.toNat
/-- An FP32 word of the graft store. -/
def State.storeWord32 (s : State) (k : Nat) : Option (BitVec 32) := (s.rawRead k).map fun g => g.extractLsb' (8 * (k % 64)) 32
def State.setStore32 (s : State) (k : Nat) (x : BitVec 32) : State :=
  s.rawWrite k (spanMask (k % 64) 4) ((x.setWidth 512) <<< (8 * (k % 64)))
/-- `n` words of the store from a key; none where one fails its check. -/
def State.storeRead (s : State) (k : Nat) : Nat → Option (List (BitVec 32))
  | 0 => some []
  | n + 1 => do return (← s.storeWord32 k) :: (← s.storeRead (k + 4) n)
def State.storeWrite (s : State) (k : Nat) : List (BitVec 32) → State
  | [] => s
  | x :: l => (s.setStore32 k x).storeWrite (k + 4) l

/-! ## The pre-pass and the products (17 R295) -/

/-- NaN scales that the sub-groups of a cell meet over all K-steps, each as one of a refresh (09 R139). -/
def nanScalesOf (a b : Strip) (depth : Nat) : Nat :=
  ((List.range (depth / 32)).filter fun s => (a.factor s).isNone || (b.factor s).isNone).length
/-- An element times its scale and nudge. A NaN scale gives NaN for a float format and zero for an integer one (09 R139). -/
def Strip.full (x : Strip) (k : Nat) : FVal :=
  match x.factor (k / 32) with
  | some f => (x.val k).scaleBy f
  | none => if (Ty.fmt? x.ty).isSome then .nan false true 0 else .fin false 0 0
def f32Val (b : BitVec 32) : FVal := fmtF32.decode b.toNat
def FVal.negate : FVal → FVal
  | .fin s m e => .fin (!s) m e
  | .inf s => .inf (!s)
  | x => x
def rne (x : FVal) : BitVec 32 := BitVec.ofNat 32 (rneF32 x).1
def rneSum (l : List FVal) : BitVec 32 := rne (exactVals .rne l).1

/-- What a GRAFT works out: its reason, X̂ and Y as they become, status bits, and plane passes or K-steps. -/
structure GraftOut where
  reason : Nat
  x : List (BitVec 32)
  y : List (BitVec 32)
  status : Word := 0
  passes : Nat := 0
  nanScales : Nat := 0
  fmtErrs : Nat := 0
deriving DecidableEq, Repr

/-- A column's group: exponent, quantised differences. -/
structure GraftGroup where
  e : Option Int
  q : List Int
deriving DecidableEq, Repr

def GraftGroup.nz (g : GraftGroup) : Bool := g.q.any fun z => z != 0

/-- X of column `j`, rounded to FP32. -/
def Task.xCol (k : Task) (b : Strip) : List (BitVec 32) := (List.range k.depth).map fun i => rne (b.full i)
/-- The groups of a column against X̂. -/
def groupsOf (r : Granule) (x xh : List (BitVec 32)) (depth : Nat) : List GraftGroup :=
  let d := (x.zip xh).map fun p => f32Val (rneSum [f32Val p.1, (f32Val p.2).negate])
  (List.range (depth / 128)).map fun g =>
    let z := quantGroup (recEmin r) ((d.drop (128 * g)).take 128)
    { e := z.1, q := z.2 }
/-- The refresh reason, 0 for a delta. -/
def graftReason (r : Granule) (v0 : BitVec 32) (gs : List GraftGroup) : Nat :=
  if ¬recValid r then 1
  else if recReq r then 2
  else if v0 ≠ recWatched r then 3
  else if recR r ≤ recInv r then 4
  else if gs.any fun g => (match g.e with | none => true | some e => decide (recEmax r < e)) then 5
  else if recD r * gs.length < 256 * (gs.filter GraftGroup.nz).length then 6
  else 0
/-- Plane passes: plane `b` of a K-step runs when some column has that bit set in some |q| of the step (17 R296). -/
def planePasses (qs : List (List Int)) (elems steps : Nat) : Nat :=
  ((List.range steps).map fun t =>
    ((List.range 3).filter fun b => qs.any fun q =>
      ((q.drop (t * elems)).take elems).any fun z => z.natAbs.testBit b).length).sum
/-- The delta of one cell: the exact sum over the nonzero differences, added to Y and rounded once. -/
def deltaCell (mode : RMode) (a : Strip) (gs : List GraftGroup) (y : BitVec 32) : BitVec 32 × Word :=
  let ts := ((List.range gs.length).zip gs).flatMap fun p =>
    match p.2.e with
    | none => []
    | some e => ((List.range p.2.q.length).zip p.2.q).filterMap fun c =>
        if c.2 = 0 then none else some (prodVal (a.full (128 * p.1 + c.1)) (.fin (c.2 < 0) c.2.natAbs e))
  let z := exactVals mode (ts.map Prod.fst)
  let t := exactVals .rne [f32Val y, z.1]
  let w := rneF32 t.1
  (BitVec.ofNat 32 w.1, ts.foldl (fun w x => w ||| x.2) (z.2 ||| t.2 ||| w.2))
/-- A refresh's accumulators: a GEMM of A and B over all K-steps. -/
def Task.refresh (k : Task) : Nat → List (BitVec 32) × Word × Nat × Nat
  | 0 => (List.replicate (k.m * k.n) 0, 0, 0, 0)
  | t + 1 =>
    let p := k.refresh t
    let r := { k with accs := p.1 }.compute t
    (r.1, p.2.1 ||| r.2.1, p.2.2.1 + r.2.2.1, p.2.2.2 + r.2.2.2)
/-- The invocation, from the operands in the buffer, X̂ and Y as stored. -/
def Task.graft (k : Task) (r : Granule) (xh y : List (BitVec 32)) : GraftOut :=
  let as := (List.range k.m).map fun i => k.strip false i 0 k.steps
  let bs := (List.range k.n).map fun j => k.strip true j 0 k.steps
  let xs := bs.map k.xCol
  let cols := ((List.range k.n).zip xs).map fun p => groupsOf r p.2 ((xh.drop (p.1 * k.depth)).take k.depth) k.depth
  let reason := graftReason r k.v0 cols.flatten
  if reason ≠ 0 then
    let z := k.refresh k.steps
    { reason := reason, x := xs.flatten, y := z.1, status := z.2.1, passes := k.steps, nanScales := z.2.2.1, fmtErrs := z.2.2.2 }
  else
    let xnew := (cols.zip ((List.range k.n).map fun j => (xh.drop (j * k.depth)).take k.depth)).flatMap fun c =>
      (c.2.zip (c.1.flatMap fun g => g.q.map fun z => (g.e, z))).map fun p =>
        match p.2.1 with
        | some e => if p.2.2 = 0 then p.1 else rneSum [f32Val p.1, .fin (p.2.2 < 0) p.2.2.natAbs e]
        | none => p.1
    let none' : Strip := { ty := .f32, elems := [], scales := none }
    let cells := k.cells.map fun c => deltaCell .rne (as.getD c.1 none') (cols.getD c.2 []) ((y[c.1 * k.n + c.2]?).getD 0)
    let fe := ((as ++ bs).map Strip.formatErrors).sum
    let ns := (k.cells.map fun c => nanScalesOf (as.getD c.1 none') (bs.getD c.2 none') k.depth).sum
    { reason := 0, x := xnew, y := cells.map Prod.fst
      status := cells.foldl (fun w c => w ||| c.2) ((if fe = 0 then 0 else stFmtErr) ||| if ns = 0 then 0 else stNanScale)
      passes := planePasses (cols.map fun c => c.flatMap GraftGroup.q) k.pair.elems k.steps, nanScales := ns, fmtErrs := fe }

/-! ## GRAFT_INVOCATION, GRAFT_RESTART, GRAFT_COMMIT -/

/-- A GRAFT ends with a cause found in the engine. -/
def State.graftEnd (s : State) (g : BitVec 8) (k : Task) (cause : Nat) : State :=
  (s.leaveEngine g k).taskEnd g k.ticket cause
def State.graftBad (s : State) (g : BitVec 8) (k : Task) (key : Nat) : State :=
  (s.after 0 (.machineCheck 2 key (some (.task g k.ticket)))).graftEnd g k 10
/-- Go on with the keys of X̂ and Y of a record, its tenant's partition with the record's offsets. While the entry's line is
busy the step `e` is taken again; an entry that fails its check ends the task. -/
def State.graftStore (s : State) (g : BitVec 8) (k : Task) (r : Granule) (e : Event) (f : Nat × Nat → State) : State :=
  match s.partition (recTenant r) with
  | .busy => (s.nudge (s.partKey (recTenant r))).after 1 e
  | .bad => s.graftBad g k (s.partKey (recTenant r))
  | .ok p => f (p.1 + recX r, p.1 + recY r)
/-- The D rows of a committed GRAFT: Y as the store holds it. -/
def State.graftRows (s : State) (g : BitVec 8) (k : Task) (r : Granule) : State :=
  s.graftStore g k r (.graftInvocation g k.ticket) fun p =>
    match s.storeRead p.2 (k.m * k.n) with
    | none => s.graftBad g k p.2
    | some y => (s.modTask g k.ticket fun k => { k with accs := y, writing := true, step := 0 }).after 1 (.taskDWrite g k.ticket)
/-- The start of an invocation: its tenant and shape, and the watch version before any weight is read. -/
def State.graftBegin (s : State) (g : BitVec 8) (k : Task) (next : State → Task → State) : State :=
  match s.graftRec k.graftIdx with
  | none => s.graftBad g k (s.graftKey k.graftIdx)
  | some r =>
    if recTenant r ≠ k.asid then s.graftEnd g k 8
    else if k.committed then next s k
    else if recK r ≠ k.depth ∨ recN r ≠ k.n ∨ recM r ≠ k.m then s.graftEnd g k 9
    else
      let k := { k with v0 := s.watchVersion (recWatch r), buf := [], step := 0 }
      next (s.modTask g k.ticket fun _ => k) k
/-- With every operand read, the version is compared again; then the engine works until the commit. A refresh reads no Y. -/
def State.graftRun (s : State) (g : BitVec 8) (k : Task) (r : Granule) : State :=
  if s.watchVersion (recWatch r) ≠ k.v0 then s.after 1 (.graftRestart g k.ticket)
  else
    s.graftStore g k r (.graftInvocation g k.ticket) fun p =>
      match s.storeRead p.1 (k.depth * k.n) with
      | none => s.graftBad g k p.1
      | some xh =>
        let y := s.storeRead p.2 (k.m * k.n)
        let o := k.graft r xh (y.getD [])
        if o.reason = 0 ∧ y.isNone then s.graftBad g k p.2
        else
        let work := if o.reason = 0 then 32 * o.passes else k.pair.cc * k.steps
        let time := (k.n * k.depth / 128 + 3) / 4 + work + (4 * k.depth * k.n + 4 * k.m * k.n + 255) / 256
        (((s.modTask g k.ticket fun k =>
          { k with reason := o.reason, xnew := o.x, ynew := o.y, passes := o.passes, status := k.status ||| o.status
                   buf := [] }).countN k.core 6 o.nanScales).countN k.core 5 o.fmtErrs).after (max 1 time)
          (.graftCommit g k.ticket)
/-- After the commit: Committed is written to word +0x60 of the task's record and to no other, then the D rows. -/
def State.graftAfter (s : State) (g : BitVec 8) (k : Task) (r : Granule) : State :=
  if k.acc.isNone then s.taskAccess g k.ticket .plain k.rowsWrite
  else s.taskDrive g k .plain fun s _ => s.graftRows g k r
def State.graftGo (s : State) (g : BitVec 8) (k : Task) : State :=
  match s.graftRec k.graftIdx with
  | none => s.graftBad g k (s.graftKey k.graftIdx)
  | some r =>
    if k.committed then s.graftAfter g k r
    else
      let na := (k.placesA 0 k.steps).length
      s.gather g k (k.placesA 0 k.steps ++ k.placesB 0 k.steps ++ k.placesS 0 k.steps)
        (fun i => if i < na then .weight (recWatch r) else .operand) fun s k => s.graftRun g k r
def State.graftInvocation (s : State) (g : BitVec 8) (tk : Word) : State :=
  match s.task g tk with
  | none => s
  | some k =>
    if k.st ≠ .running ∨ k.writing ∨ k.op ≠ 2 ∨ k.changes then s
    else if k.begun then s.graftGo g k
    else s.taskBegin g k fun s k => s.graftBegin g k fun s k => s.graftGo g k
def execGraftInvocation (s : State) : R :=
  match s.ev with
  | some (.graftInvocation g t) => .next (s.graftInvocation g t)
  | _ => .fault .noPendingEvent
/-- GRAFT_RESTART: back to the start of the invocation, with nothing written. -/
def State.graftRestart (s : State) (g : BitVec 8) (tk : Word) : State :=
  match s.task g tk with
  | none => s
  | some k =>
    if k.st ≠ .running ∨ k.committed then s
    else (s.count k.core 10).graftBegin g { k with acc := none } fun s k => s.graftGo g k
def execGraftRestart (s : State) : R :=
  match s.ev with
  | some (.graftRestart g t) => .next (s.graftRestart g t)
  | _ => .fault .noPendingEvent
/-- The record after a commit (17 R296). -/
def committedRec (r : Granule) (reason : Nat) (v0 : BitVec 32) : Granule :=
  if reason = 0 then
    (r.setWord 4 (putBits (r.word 4) 0 8 (recInv r + 1))).setWord 5
      (putBits (r.word 5) 48 16 (min 65535 (bitsOf (r.word 5) 48 16 + 1)))
  else
    let w0 := putBits (putBits (r.word 0) 15 1 1) 8 7 ((recVersion r).toNat + 1)
    let lo := 8 * (reason - 1)
    ((((r.setWord 0 w0).setWord 1 (putBits (r.word 1) 0 32 v0.toNat))).setWord 4 1).setWord 5
      (putBits (r.word 5) lo 8 (min 255 (bitsOf (r.word 5) lo 8 + 1)))
/-- GRAFT_COMMIT: X̂ and Y, the record, then Committed. -/
def State.graftCommit (s : State) (g : BitVec 8) (tk : Word) : State :=
  match s.task g tk with
  | none => s
  | some k =>
    if k.st ≠ .running ∨ k.committed then s
    else
      match s.graftRec k.graftIdx with
      | none => s.graftBad g k (s.graftKey k.graftIdx)
      | some r =>
        s.graftStore g k r (.graftCommit g tk) fun p =>
          let s := ((s.storeWrite p.1 k.xnew).storeWrite p.2 k.ynew).setRec k.graftIdx (committedRec r k.reason k.v0)
          let k := { k with committed := true, xnew := [], ynew := [], acc := none }
          (s.modTask g tk fun _ => k).graftAfter g k r
def execGraftCommit (s : State) : R :=
  match s.ev with
  | some (.graftCommit g t) => .next (s.graftCommit g t)
  | _ => .fault .noPendingEvent

/-! ## LYRINIT, LYRQ, LYRREF, LYRDROP (17 R298, R302–R305) -/

/-- Park at the graft table; its access falls due after a free latency. -/
def State.lyrPark (s : State) (c : Ctx) (d : G) (op : Nat) (a b : Word) : State :=
  (s.parkMe c (.lyr d op a b)).afterFree (.graftTableAccessReturn s.slot s.cx)
def execLyrinit (p : Pred) (d a b : G) (s : State) : R :=
  issue .any p 8 s fun c t =>
    let im := c.getG b
    if im.toNat % 64 ≠ 0 then .trap 1 im
    else if isCoord im ∧ coordLevel im ≠ 0 then .trap 5 im
    else
      match t.checkAddr t.slot im with
      | .error e => .trap e im
      | .ok _ => .ok (((t.parkMe c (.lyr d 0 (c.getG a) im)).setAcc (.park t.slot t.cx) (some (granuleRead im))).afterFree
          (.graftTableAccessReturn t.slot t.cx))
def execLyrq (p : Pred) (d a b : G) (s : State) : R :=
  issue .any p 8 s fun c t => .ok (t.lyrPark c d 1 (c.getG a) (c.getG b))
def execLyrqX (p : Pred) (d b : G) (s : State) : R :=
  issue .any p 8 s fun c t =>
    if (c.getG b).toNat % 8 ≠ 0 then .trap 1 (c.getG b) else .ok (t.lyrPark c d 2 0 (c.getG b))
def execLyrqW (p : Pred) (d b : G) (s : State) : R :=
  issue .any p 8 s fun c t => .ok (t.lyrPark c d 3 0 (c.getG b))
def execLyrref (p : Pred) (d a : G) (s : State) : R :=
  issue .any p 8 s fun c t => .ok (t.lyrPark c d 4 (c.getG a) 0)
def execLyrdrop (p : Pred) (d a : G) (s : State) : R :=
  issue .sOnly p 8 s fun c t => .ok (t.lyrPark c d 5 (c.getG a) 0)

/-- The image's fields are refused (17 R302, status 1). -/
def imageBad (im : Granule) : Bool :=
  recR im == 0 || decide (recEmax im < recEmin im) || recK im % 128 != 0 || decide (recK im < 128) ||
    decide (97920 < recK im) || recN im == 0 || decide (32 < recN im) || recM im == 0 || decide (32 < recM im) ||
    recX im % 256 != 0 || recY im % 256 != 0
/-- The image's ranges do not lie in the partition, or overlap (status 2). -/
def rangesBad (im : Granule) (p : Nat × Nat × Bool) : Bool :=
  let z := p.2.1 - p.1
  let x := recX im
  let y := recY im
  let nx := 4 * recK im * recN im
  let ny := 4 * recM im * recN im
  !p.2.2 || decide (z < x + nx) || decide (z < y + ny) || (decide (x < y + ny) && decide (y < x + nx))
/-- The record that LYRINIT makes. -/
def initRec (r im : Granule) (asid : BitVec 16) : Granule :=
  let w0 := putBits (putBits (putBits (im.word 0) 16 16 asid.toNat) 15 1 0) 8 7 ((recVersion r).toNat + 1)
  granuleOf [w0, (im.word 1) &&& 0xFF00000000, im.word 2, im.word 3, 0, 0, (im.word 6) &&& 0xFFFFFFFFFFFF, 0]
/-- An LYR's access returns: its result goes to `d`. -/
def State.lyrDone (s : State) (c : CoreId) (x : CtxId) (d : G) (v : Word) : State :=
  (s.setAcc (.park c x) none).unpark c x fun t => t.setG d v
def State.lyrTrap (s : State) (c : CoreId) (x : CtxId) (cause : Nat) (addr : Word) : State :=
  let pc := (s.ctx c x).pc
  ((s.setAcc (.park c x) none).unpark c x).raise c x
    { kind := 1, cause := cause, pc := pc, addr := addr, order := (s.core c).nextId }
/-- LYRINIT's image cannot be read where it stands: an issue trap of the LYRINIT (17 R302). -/
def State.imageTrap (s : State) (c : CoreId) (x : CtxId) (cause : Nat) (addr : Word) : State :=
  ((s.setAcc (.park c x) none).modCtx c x fun t => { t with st := .running, park := none }).raise c x
    { kind := 0, cause := cause, pc := (s.ctx c x).pc, len := 2, addr := addr, order := (s.core c).nextId }
/-- A read of the tables fails its check: the context halts with a machine check. -/
def State.lyrBad (s : State) (c : CoreId) (x : CtxId) (key : Nat) : State :=
  (s.setAcc (.park c x) none).after 0 (.machineCheck 2 key (some (.park c x)))
/-- Free every record of a tenant: how many, and the state. -/
def State.dropRecords (s : State) (asid : BitVec 16) : Nat → Nat × State
  | 0 => (0, s)
  | n + 1 =>
    let p := s.dropRecords asid n
    match p.2.graftRec (BitVec.ofNat 16 n) with
    | none => p
    | some r =>
      if recTenant r = asid then
        (p.1 + 1, p.2.setRec (BitVec.ofNat 16 n) (granuleOf [putBits 0 8 7 ((recVersion r).toNat + 1), 0, 0, 0, 0, 0, 0, 0]))
      else p
/-- An engine holds a record of a tenant. -/
def State.tenantHeld (s : State) (asid : BitVec 16) : Bool :=
  s.sgs.any fun e => e.2.engines.any fun n =>
    match n.holds with
    | some i => (s.graftRec i).any fun r => recTenant r == asid
    | none => false
/-- Go on with the issuer's partition entry, once its line is free; one that fails its check halts the context. -/
def State.lyrPartition (s : State) (c : CoreId) (x : CtxId) (asid : BitVec 16) (f : Nat × Nat × Bool → State) : State :=
  match s.partition asid with
  | .busy => (s.nudge (s.partKey asid)).after 1 (.graftTableAccessReturn c x)
  | .bad => s.lyrBad c x (s.partKey asid)
  | .ok p => f p
/-- LYRINIT's access at the tables, with its image. -/
def State.lyrinitDo (s : State) (c : CoreId) (x : CtxId) (d : G) (i : BitVec 16) (im : Granule) : State :=
  let asid := (s.ctx c x).asid
  match s.graftRec i with
  | none => s.lyrBad c x (s.graftKey i)
  | some r =>
    if ¬recFree r ∧ recTenant r ≠ asid then s.lyrTrap c x 9 0
    else if imageBad im then s.lyrDone c x d 1
    else
      s.lyrPartition c x asid fun p =>
        if rangesBad im p then s.lyrDone c x d 2
        else (s.setRec i (initRec r im asid)).lyrDone c x d 0
/-- The record forms of LYRQ and LYRREF. -/
def State.lyrRecord (s : State) (c : CoreId) (x : CtxId) (d : G) (op : Nat) (i : BitVec 16) (b : Word) : State :=
  let t := s.ctx c x
  match s.graftRec i with
  | none => s.lyrBad c x (s.graftKey i)
  | some r =>
    if op = 4 ∧ recFree r then s.lyrDone c x d 1
    else if t.priv ≠ .s ∧ recTenant r ≠ t.asid then s.lyrTrap c x 9 0
    else if op = 1 then s.lyrDone c x d (r.word (b.toNat % 8))
    else (s.setRec i (r.setWord 4 (r.word 4 ||| (1 <<< 63)))).lyrDone c x d 0
/-- LYRQ.X. -/
def State.lyrStore (s : State) (c : CoreId) (x : CtxId) (d : G) (off : Word) : State :=
  let asid := (s.ctx c x).asid
  s.lyrPartition c x asid fun p =>
    if ¬p.2.2 ∨ p.2.1 - p.1 ≤ off.toNat then s.lyrTrap c x 5 off
    else
      match s.rawWord (p.1 + off.toNat) with
      | some v => s.lyrDone c x d v
      | none => s.lyrBad c x (p.1 + off.toNat)
/-- LYRDROP. -/
def State.lyrDrop (s : State) (c : CoreId) (x : CtxId) (d : G) (asid : BitVec 16) : State :=
  if asid = 0 then s.lyrDone c x d 0
  else
    s.lyrPartition c x asid fun p =>
      let r := s.dropRecords asid 65536
      let s := if p.2.2 then
          (List.range ((p.2.1 - p.1) / 64)).foldl (fun (t : State) i => t.rawWrite (p.1 + 64 * i) (BitVec.allOnes 64) 0) r.2
        else r.2
      (s.lyrDone c x d (BitVec.ofNat 64 r.1)).kickAll
/-- GRAFT_TABLE_ACCESS_RETURN: once no engine holds the records that it acts on, the access is performed. -/
def State.lyrReturn (s : State) (c : CoreId) (x : CtxId) : State :=
  let t := s.ctx c x
  let again := s.after 1 (.graftTableAccessReturn c x)
  match t.park with
  | some (.lyr d op a b) =>
    let i : BitVec 16 := a.setWidth 16
    match op, t.acc with
    | 0, some q =>
      match q.st with
      | .fresh => s.go (.park c x)
      | .done => if s.recordHeld i then again else s.lyrinitDo c x d i q.rdata
      | .failed =>
        if q.cause = 12 then (s.setAcc (.park c x) none).checkFail q (.park c x)
        else s.imageTrap c x q.cause q.va
      | _ => s
    | 2, _ => s.lyrStore c x d b
    | 3, _ => s.lyrDone c x d ((s.watchVersion (b.setWidth 8)).setWidth 64)
    | 5, _ => if i ≠ 0 ∧ s.tenantHeld i then again else s.lyrDrop c x d i
    | _, _ => if s.recordHeld i then again else s.lyrRecord c x d op i b
  | _ => s
def execGraftTableAccessReturn (s : State) : R :=
  match s.ev with
  | some (.graftTableAccessReturn c x) => .next (s.lyrReturn c x)
  | _ => .fault .noPendingEvent

end Sys2Proof.Machine
end

