-- ==== Sys2Proof/Machine/Coherence.lean ====
section
/-! DEFINITION. Coherence of plain lines: the hub's directory and transactions, the dies' answers, slice failure, containment
and rejoin (23 R343–R359; 11 R185; 05 R80). -/
namespace Sys2Proof.Machine

/-! ## The directory (23 R347, R348) -/

/-- The slice of an index under Remap (23 R356), which is held against its reset value, the identity. -/
def State.remap (s : State) (i : Nat) : Nat := ((s.bar 0x8020).toNat / 8 ^ i % 8) ^^^ i
/-- Key of way `w` of the set that holds a line. -/
def State.dirKey (s : State) (line w : Nat) : Nat := s.remap (line % 8) * 2 ^ 19 + line / 8 % 32768 * 16 + w
def State.dirAt (s : State) (k : Nat) : DirEnt := SMap.get {} s.coh.dir k
def State.setDir (s : State) (k : Nat) (e : DirEnt) : State :=
  { s with coh := { s.coh with dir := SMap.set {} s.coh.dir k e } }
def State.waysOf (s : State) (line : Nat) : List Nat := (List.range 16).map (s.dirKey line)
/-- Key and entry of a line; none at HI. -/
def State.dirFind (s : State) (line : Nat) : Option (Nat × DirEnt) :=
  ((s.waysOf line).map fun k => (k, s.dirAt k)).find? fun e => e.2.line == line && e.2.st != .free
/-- A way becomes the most recent of its set. -/
def State.touchDir (s : State) (line k : Nat) : State :=
  let old := (s.dirAt k).age
  (s.waysOf line).foldl (fun s w =>
    let e := s.dirAt w
    if w = k then s.setDir w { e with age := 0 }
    else if e.st ≠ .free ∧ e.age < old then s.setDir w { e with age := e.age + 1 } else s) s

def DirEnt.owned (e : DirEnt) : Bool := e.st == .ho || e.st == .hx
/-- An agent counts as a holder. -/
def DirEnt.holds (e : DirEnt) (a : AgentId) : Bool :=
  (e.owned && e.owner == a) || e.ptrs.contains a || (e.coarse && e.pkgs.getLsbD (a.toNat / 8))
/-- Add a sharer: a fifth switches to coarse mode. -/
def DirEnt.share (e : DirEnt) (a : AgentId) : DirEnt :=
  if e.coarse then { e with pkgs := e.pkgs ||| (1 <<< (a.toNat / 8)) }
  else if e.ptrs.contains a then e
  else if e.ptrs.length < 4 then { e with ptrs := e.ptrs ++ [a] }
  else { e with coarse := true, ptrs := []
                pkgs := (a :: e.ptrs).foldl (fun m b => m ||| (1 <<< (b.toNat / 8))) 0 }
/-- A die of the domain is present: of this package as its map says, of another as it is built (log entry 47). -/
def State.agentPresent (s : State) (a : AgentId) : Bool :=
  match s.dieOfAgent a with
  | some d => s.diePresent d
  | none => (Config.peerDies (a.extractLsb' 3 5)).getLsbD (a.toNat % 8)
/-- The sharers to invalidate: the pointers, or every present die of every marked package. -/
def State.sharers (s : State) (e : DirEnt) : List AgentId :=
  if e.coarse then
    (List.range 256).filterMap fun i =>
      let a : AgentId := BitVec.ofNat 8 i
      if e.pkgs.getLsbD (i / 8) ∧ s.agentPresent a then some a else none
  else e.ptrs

/-! ## Messages -/

def State.isDead (s : State) (a : AgentId) : Bool := s.coh.dead.contains a
/-- A message about a line to or from an agent (23 Table 23-1). -/
def State.cohMsg (s : State) (k : CohKind) (line : Nat) (a : AgentId) : CohMsg :=
  { kind := k, line := line, agent := a, inc := s.incOf a }
/-- A message of the hub to an agent: a die of this package, or over Milhan. -/
def State.toAgent (s : State) (a : AgentId) (e : BitVec 3 → Event) (m : CohMsg) : State :=
  match s.dieOfAgent a with
  | some d => s.afterFree (e d)
  | none => { s with outbox := s.outbox ++ [.coh (a.extractLsb' 3 5) m] }
def State.sendCmp (s : State) (line : Nat) (a : AgentId) (err : Bool) : State :=
  s.toAgent a (fun _ => .cmpMsg false line a (s.incOf a) err) { s.cohMsg .cmp line a with err := err }
/-- The data that answers a request. The first request of a die of another package is answered under its request id, with the
home's frame line (23 R345). -/
def State.sendData (s : State) (line : Nat) (r : CohReq) (excl : Bool) (x : Granule) (dirty err : Bool) : State :=
  let a := r.agent
  match r.id with
  | some id => { s with outbox := s.outbox ++ [.reply id (.line 0 line excl dirty err x)] }
  | none =>
    s.toAgent a (fun _ => if excl then .datax false line a (s.incOf a) x dirty false err else .data false line a (s.incOf a) x dirty false err)
      { s.cohMsg (if excl then .dataX else .data) line a with data := x, dirty := dirty, err := err }
/-- An answer to Inv, FwdS or FwdX that does not come within 2^20 cycles puts its agent into containment (23 R357). -/
def State.watchAnswer (s : State) (line : Nat) (a : AgentId) : State := s.after (2 ^ 20) (.agentAnswerTimeout line a s.cyc)
def State.sendInv (s : State) (line : Nat) (rcl : Bool) (a : AgentId) : State :=
  (s.toAgent a (fun d => .inv line d rcl) { s.cohMsg .inv line a with rcl := rcl }).watchAnswer line a
def State.sendFwd (s : State) (line : Nat) (excl rcl : Bool) (o q : AgentId) : State :=
  (s.toAgent o (fun d => if excl then .fwdx line d q rcl else .fwds line d q)
    { s.cohMsg (if excl then .fwdX else .fwdS) line o with requester := q, rcl := excl && rcl }).watchAnswer line o
/-- MemRd and MemWr at the line's channel or port. -/
def State.sendMemRd (s : State) (line : Nat) : State := s.afterFree (.memrdData line ((s.memRead (64 * line)).getD 0))
def State.sendMemWr (s : State) (line : Nat) (x : Granule) : State :=
  (s.memWrite (64 * line) (BitVec.allOnes 64) x).afterFree (.memwrAck line)

/-! ## Transactions (23 R349–R354) -/

def State.txn? (s : State) (line : Nat) : Option Txn := s.coh.txns.find? fun t => t.line == line
def State.modTxn (s : State) (line : Nat) (f : Txn → Txn) : State :=
  { s with coh := { s.coh with txns := s.coh.txns.map fun t => if t.line = line then f t else t } }
/-- Open a transaction: the entry takes its transient state and Busy; Inv and a forward go out, and MemRd where asked.
What a dead agent owes is taken as received; a dead owner gives Err (23 R358). -/
def State.openTxn (s : State) (k : Nat) (t : Txn) (st : DirSt) (inv : List AgentId) (fwd : Option AgentId)
    (excl rcl : Bool) (q : AgentId) : State :=
  let live := inv.filter fun a => !s.isDead a
  let err := t.err || fwd.any s.isDead
  let fwd := if err then none else fwd
  let t := { t with asked := live ++ fwd.toList, needAcks := live, fwd := fwd, sentAt := s.cyc, err := err }
  let s := s.setDir k { s.dirAt k with st := st, busy := true }
  let s : State := { s with coh := { s.coh with txns := s.coh.txns ++ [t] } }
  let s := live.foldl (fun s a => s.sendInv t.line rcl a) s
  let s := match fwd with | some o => s.sendFwd t.line excl rcl o q | none => s
  if t.needMem then s.sendMemRd t.line else s
/-- The answer to a request whose waits are over. -/
def State.answerReq (s : State) (t : Txn) (k : ReqKind) (r : CohReq) : State :=
  let a := r.agent
  let err := t.err || t.memBad
  let x := (t.got.map Prod.fst).getD 0
  let dirty := (t.got.map Prod.snd).getD false
  let s := s.modTxn t.line fun t => { t with answered := true }
  match k, t.prior.st with
  | .upg, _ => s.sendCmp t.line a err
  | .rds, .hs | .rds, .ho | .rds, .hx => s.sendData t.line r false x dirty err
  | _, _ => s.sendData t.line r true x dirty err

def Txn.waits (t : Txn) : Bool := !t.needAcks.isEmpty || t.fwd.isSome || t.needMem || t.needWr
/-- A request that waits for nothing is answered at once. -/
def State.answerNow (s : State) (line : Nat) : State :=
  match s.txn? line with
  | some t =>
    match t.req with
    | some (.rd k r) => if t.waits then s else s.answerReq t k r
    | _ => s
  | none => s
/-- A recall of a line's entry, for a victim, a far atomic or an access of this package (23 R354, R355). -/
def State.recallTxn (s : State) (k : Nat) (e : DirEnt) (req : Option HubReq) (want : Option Nat := none) : State :=
  let o := if e.owned then some e.owner else none
  let s := { s with sys := { s.sys with recalls := s.sys.recalls + 1 } }
  let s := State.openTxn s k { line := e.line, req := req, prior := e, want := want } (if e.owned then .xrA else .srA)
    ((s.sharers e).filter fun a => some a != o) o true true 0
  if (s.txn? e.line).any Txn.waits then s else s.after 0 (.directoryRecall e.line)

/-- The way for a new entry: free, or else the least recent that is not busy, the lowest on a tie, to be recalled. An entry
with a dead owner stays (23 R358). -/
def State.victim (s : State) (line : Nat) : Option (Nat × DirEnt) :=
  let l := (s.waysOf line).map fun k => (k, s.dirAt k)
  (l.find? fun e => e.2.st == .free && !e.2.busy).or
    ((l.filter fun e => !e.2.busy && !(e.2.owned && s.isDead e.2.owner)).foldl (fun b e =>
      match b with
      | none => some e
      | some v => if v.2.age < e.2.age then some e else some v) none)

/-- A read or upgrade at a stable state (23 Table 23-4); false where it waits for a way (R355). -/
def State.startRd (s : State) (kind : ReqKind) (r : CohReq) : State × Bool :=
  let q := r.agent
  match s.dirFind r.line with
  | none =>
    let kind := if kind = .upg then .rdx else kind
    match s.victim r.line with
    | none => (s, false)
    | some (k, e) =>
      if e.st = .free then
        let new : DirEnt := { line := r.line, st := .ixD, owner := q, age := 15 }
        (((s.setDir k new).touchDir r.line k).openTxn k { line := r.line, req := some (.rd kind r), prior := {}, needMem := true }
          .ixD [] none false false q, true)
      else if s.coh.txns.any fun t => t.want == some r.line then (s, false)
      else (s.recallTxn k e none (some r.line), false)
  | some (k, e) =>
    let s := s.touchDir r.line k
    let kind := if kind = .upg ∧ ¬e.holds q then .rdx else kind
    let t : Txn := { line := r.line, req := some (.rd kind r), prior := e }
    let others := (s.sharers e).filter fun a => a != q
    let o := if e.owned then some e.owner else none
    ((match kind with
    | .rds =>
      if e.owned then s.openTxn k t .xoF [] o false false q
      else s.openTxn k { t with needMem := true } .hs [] none false false q
    | .rdx =>
      if e.owned then s.openTxn k t .xxF (others.filter fun a => some a != o) o true false q
      else s.openTxn k { t with needMem := true } .sxA others none true false q
    | .upg => s.openTxn k { t with err := e.owned && s.isDead e.owner } .sxA ((others ++ o.toList).eraseDups.filter fun a => a != q) none true false q).answerNow r.line, true)

/-- What is left of an entry when its owner has given the line up. -/
def DirEnt.disown (e : DirEnt) : DirEnt :=
  if e.ptrs.isEmpty ∧ ¬e.coarse then {} else { e with st := .hs, owner := 0, busy := false }
/-- A WbD at a stable state. -/
def State.startWb (s : State) (line : Nat) (a : AgentId) (inc : BitVec 8) (x : Granule) (dirty : Bool) : State :=
  match s.dirFind line with
  | some (k, e) =>
    if ¬(e.owned ∧ e.owner = a) then s.sendCmp line a false
    else if dirty then
      (s.openTxn k { line := line, req := some (.wb line a inc x dirty), prior := e, needWr := true } .xiW [] none false false a).sendMemWr
        line x
    else (s.setDir k e.disown).sendCmp line a false
  | none => s.sendCmp line a false

/-- A far operation at its home: the channel's atomic unit reads, writes and answers (11 R185). -/
def State.farPerform (s : State) (who : Agent) : State :=
  match s.acc who with
  | none => s
  | some a =>
    match a.map with
    | none => s
    | some m =>
      let d := 1 + Config.freeDelay s.fresh
      let s : State := { s with fresh := s.fresh + 1 }
      match s.memRead m.key with
      | none => s.answer who d (.bad who.idx)
      | some g =>
        match a.op with
        | .rmw f w ty b x =>
          let r := rmwGranule g (a.va.toNat % 64) w f ty b x
          (match r.2 with
          | some g' => s.memWrite m.key (BitVec.allOnes 64) g'
          | none => s).answer who d (.old who.idx r.1)
        | .write mask x => (s.memWrite m.key mask x).answer who d (.ack who.idx)
        | _ => s.answer who d (.data who.idx g)
/-- A far operation on a line: at once where it has no entry, else behind its recall. -/
def State.startFar (s : State) (line : Nat) (who : Agent) : State :=
  match s.dirFind line with
  | none => s.farPerform who
  | some (k, e) => s.recallTxn k e (some (.far line who))

/-- The slice that a line's index lies in. -/
def State.sliceOf (s : State) (line : Nat) : Nat := s.remap (line % 8)
/-- The transaction table of a line's slice is full (23 R347). -/
def State.tableFull (s : State) (line : Nat) : Bool :=
  decide (256 ≤ (s.coh.txns.filter fun t => s.sliceOf t.line == s.sliceOf line).length)
/-- Take a request for service; false where it waits. -/
def State.startReq (s : State) (r : HubReq) : State × Bool :=
  if s.tableFull r.line then (s, false)
  else match r with
  | .rd k q => s.startRd k q
  | .wb line a inc x d => (s.startWb line a inc x d, true)
  | .far line who => (s.startFar line who, true)

/-- The entry that a transaction leaves; none frees it. -/
def Txn.final (t : Txn) (own : DirEnt) : Option DirEnt :=
  let e := { t.prior with age := own.age, busy := false, line := t.line }
  match t.req with
  | none | some (.far ..) => if t.err ∧ e.st ≠ .free then some e else none
  | some (.wb ..) => some e.disown
  | some (.rd k r) =>
    let x : DirEnt := { line := t.line, st := .hx, owner := r.agent, age := own.age }
    if t.err then (if e.st = .free then none else some e)
    else if t.memBad then (if t.prior.st = .hs ∧ k = .rds then some e else none)
    else match k with
    | .rdx | .upg => some x
    | .rds =>
      match t.prior.st with
      | .hs => some (e.share r.agent)
      | .ho =>
        if t.gone then some ({ e with st := .hs, owner := 0, ptrs := e.ptrs.erase t.prior.owner }.share r.agent)
        else some (e.share r.agent)
      | .hx =>
        if t.gone then some { x with st := .hs, owner := 0, ptrs := [r.agent] }
        else if (t.got.map Prod.snd).getD false then some { x with st := .ho, owner := t.prior.owner, ptrs := [r.agent] }
        else some { x with st := .hs, owner := 0, ptrs := [t.prior.owner, r.agent].eraseDups }
      | _ => some x

/-- A request joins its slice's pool of 4,096 entries. Without an entry, or behind others that wait for one, it waits in the
network (23 R347, R351). -/
def State.enterPool (s : State) (r : HubReq) : State :=
  let mine := fun (q : HubReq) => s.sliceOf q.line == s.sliceOf r.line
  if (s.coh.queue.filter mine).length < 4096 ∧ (s.coh.net.all fun q => !mine q) then
    { s with coh := { s.coh with queue := s.coh.queue ++ [r] } }
  else { s with coh := { s.coh with net := s.coh.net ++ [r] } }
/-- Entries that have freed are taken in order of arrival. -/
def State.refillPool (s : State) : State :=
  s.coh.net.foldl (fun s r => s.enterPool r) { s with coh := { s.coh with net := [] } }
/-- The requests whose line is free, in arrival order (23 R350, R351). -/
def State.servePass (s : State) : State :=
  let l := s.coh.queue
  let s : State := { s with coh := { s.coh with queue := [] } }
  let r := l.foldl (fun (p : State × List HubReq) q =>
    if (p.1.txn? q.line).isSome ∨ (p.2.any fun w => w.line == q.line) then (p.1, p.2 ++ [q])
    else
      let z := p.1.startReq q
      if z.2 then (z.1, p.2) else (z.1, p.2 ++ [q])) (s, [])
  { r.1 with coh := { r.1.coh with queue := r.2 ++ r.1.coh.queue } }
/-- The queues are served, and the requests that then enter the pool. -/
def State.serveQueue (s : State) : State :=
  let s := s.servePass
  if s.coh.net.isEmpty then s else s.refillPool.servePass
/-- A transaction ends: Busy clears and the queue is served. -/
def State.endTxn (s : State) (t : Txn) : State :=
  let s := match s.dirFind t.line with
    | some (k, e) => s.setDir k ((t.final e).getD {})
    | none => s
  ({ s with coh := { s.coh with txns := s.coh.txns.filter fun u => u.line != t.line } } : State).serveQueue

/-- A transaction goes on once everything that it waits for has come. -/
def State.txnStep (s : State) (line : Nat) : State :=
  match s.txn? line with
  | none => s
  | some t =>
    if t.answered ∨ t.waits then s
    else
      match t.req with
      | some (.rd k r) => if s.isDead r.agent then s.endTxn t else s.answerReq t k r
      | some (.wb _ a ..) => (s.sendCmp line a false).endTxn t
      | none | some (.far ..) =>
        match t.got with
        | some (x, true) =>
          (s.modTxn line fun t => { t with got := none, needWr := true }).sendMemWr line x
        | _ =>
          match t.req with
          | some (.far _ who) =>
            if t.err then
              ((match who with
                | .home i => s.modHome i fun h => { h with acc := { h.acc with st := .failed, cause := 258 } }
                | _ => s).resumeAgent who 1).endTxn t
            else (s.farPerform who).endTxn t
          | _ => s.endTxn t

def HubReq.agent? (r : HubReq) : Option AgentId :=
  match r with
  | .rd _ q => some q.agent
  | .wb _ a .. => some a
  | .far .. => none
/-- A message of an agent counts: the agent is not dead and its incarnation is the current one (23 R358, R359). -/
def State.heard (s : State) (a : AgentId) (inc : BitVec 8) : Bool := !s.isDead a && inc == s.incOf a
/-- An owner that has answered FwdS with Gone = 0 keeps its O copy, and may give it up later (23 Table 23-1). -/
def Txn.keeps (t : Txn) (a : AgentId) : Bool :=
  t.prior.owned && t.prior.owner == a && !t.gone && (match t.req with | some (.rd .rds _) => true | _ => false)
/-- The hub takes a request: held at a fenced index, where one that its die sends again finds itself held already; held as a
crossing WbD; queued behind its line; or served. -/
def State.hubTake (s : State) (r : HubReq) : State :=
  if s.coh.fencedIdx.any fun i => i.toNat == r.line % 8 then
    (if r.agent?.isSome && s.coh.fenced.any (fun q => q.line == r.line && q.agent? == r.agent?) then s
    else { s with coh := { s.coh with fenced := s.coh.fenced ++ [r] } })
  else
    match s.txn? r.line, r with
    | some t, .wb _ a _ _ _ =>
      if t.asked.contains a then
        if t.needAcks.contains a ∨ t.fwd = some a then s.modTxn r.line fun t => { t with crossing := t.crossing ++ [a] }
        else if t.keeps a then s.enterPool r
        else s.sendCmp r.line a false
      else s.enterPool r
    | some _, _ => s.enterPool r
    | none, _ => (s.enterPool r).serveQueue
def State.hubHear (s : State) (r : HubReq) (a : AgentId) (inc : BitVec 8) : State := if s.heard a inc then s.hubTake r else s

def execRdx (s : State) : R :=
  match s.ev with
  | some (.rdx r) => .next (s.hubHear (.rd .rdx r) r.agent r.inc)
  | _ => .fault .noPendingEvent
def execUpg (s : State) : R :=
  match s.ev with
  | some (.upg r) => .next (s.hubHear (.rd .upg r) r.agent r.inc)
  | _ => .fault .noPendingEvent
def execWbd (s : State) : R :=
  match s.ev with
  | some (.wbd l a i x d) => .next (s.hubHear (.wb l a i x d) a i)
  | _ => .fault .noPendingEvent
/-- FAR_ATOMIC: a far operation reaches its line's home. -/
def State.farAtomic (s : State) (who : Agent) : State :=
  match (s.acc who).bind Access.map with
  | some m => s.hubTake (.far (m.key / 64) who)
  | none => s
def execFarAtomic (s : State) : R :=
  match s.ev with
  | some (.farAtomic who) => .next (s.farAtomic who)
  | _ => .fault .noPendingEvent
/-- DIRECTORY_RECALL: an entry is recalled for an access of this package that waits for it, or a recall that waits for no
answer goes on. -/
def State.directoryRecall (s : State) (line : Nat) : State :=
  match s.txn? line, s.dirFind line with
  | none, some (k, e) => if s.tableFull line then s.after 1 (.directoryRecall line) else s.recallTxn k e none
  | some _, _ => s.txnStep line
  | _, _ => s
def execDirectoryRecall (s : State) : R :=
  match s.ev with
  | some (.directoryRecall l) => .next (s.directoryRecall l)
  | _ => .fault .noPendingEvent

/-- An agent has answered what an open transaction sent it: its crossing WbD receives Cmp without MemWr (23 R353). -/
def State.answeredBy (s : State) (line : Nat) (a : AgentId) : State :=
  match s.txn? line with
  | none => s
  | some t =>
    let s := if t.crossing.contains a then
        (s.modTxn line fun t => { t with crossing := t.crossing.erase a }).sendCmp line a false else s
    s.txnStep line
def State.invackAt (s : State) (line : Nat) (a : AgentId) : State :=
  (s.modTxn line fun t => { t with needAcks := t.needAcks.erase a }).answeredBy line a
def execInvack (s : State) : R :=
  match s.ev with
  | some (.invack l a i _) => .next (if s.heard a i then s.invackAt l a else s)
  | _ => .fault .noPendingEvent
/-- The owner's Data or DataX: where it has gone after a FwdS, dirty data is written to memory. -/
def State.ownerData (s : State) (line : Nat) (a : AgentId) (x : Granule) (dirty gone shared : Bool) : State :=
  match s.txn? line with
  | none => s
  | some t =>
    if t.fwd ≠ some a then s
    else
      let back := shared && gone && dirty
      let s := s.modTxn line fun t =>
        { t with fwd := none, gone := gone, got := some (x, dirty && !back), needWr := t.needWr || back }
      (if back then s.sendMemWr line x else s).answeredBy line a
/-- Memory's data, or its failure, reaches the transaction. -/
def execMemrdData (s : State) : R :=
  match s.ev with
  | some (.memrdData l x) =>
    .next (if (s.txn? l).any Txn.needMem then
        let ok := (s.memRead (64 * l)).isSome
        (s.modTxn l fun t => { t with needMem := false, memBad := !ok, got := if ok then some (x, false) else none }).txnStep l
      else s)
  | _ => .fault .noPendingEvent
def execMemwrAck (s : State) : R :=
  match s.ev with
  | some (.memwrAck l) => .next ((s.modTxn l fun t => { t with needWr := false }).txnStep l)
  | _ => .fault .noPendingEvent

/-! ## The dies' answers (23 R344, R346, R352, R353) -/

/-- A die's message about a line goes to the line's home, under the name that the home knows (23 R345). -/
def State.dieSend (s : State) (die : BitVec 3) (line : Nat) (k : CohKind) (e : Nat → AgentId → BitVec 8 → Event)
    (f : CohMsg → CohMsg := id) : State :=
  let a := s.agentOf die
  let n := s.frameOf die line
  s.toHome line (e n a (s.incOf a)) (f (s.cohMsg k n a))
/-- What a die holds of a line: data, Dirty, and whether it has gone to its writeback buffer. -/
def State.dieData (s : State) (die : BitVec 3) (line : Nat) : Granule × Bool × Bool :=
  match s.coh.wbs.find? fun w => w.1 == die && w.2.1 == line with
  | some w => (w.2.2.1, w.2.2.2, true)
  | none =>
    let hs := s.holders die line
    (((hs.head?.map fun h => (s.lineAt h line).data)).getD 0,
      hs.any fun h => (s.lineAt h line).st == .m || (s.lineAt h line).st == .o, hs.isEmpty)
def State.dropDie (s : State) (die : BitVec 3) (line : Nat) : State :=
  ((s.holders die line).foldl (fun s g => s.dropLine g line) s).setSnoop die line {}
/-- An outstanding Upg of a die has lost its race (23 R352). -/
def State.loseUpg (s : State) (die : BitVec 3) (line : Nat) : State :=
  { s with coh := { s.coh with dieReqs := s.coh.dieReqs.map fun r =>
    if r.die = die ∧ r.line = line ∧ r.kind = .upg then { r with lost := true } else r } }
/-- INV: the copies are dropped. -/
def State.invAt (s : State) (n : Nat) (die : BitVec 3) : State :=
  let line := s.heldAs die n
  let gone := (s.dieData die line).2.2 && s.inWb die line
  let s := (s.dropDie die line).loseUpg die line
  (s.dieSend die line .invAck (fun n a i => .invack n a i gone) fun m => { m with gone := gone }).forgetFrame die line
def execInv (s : State) : R :=
  match s.ev with
  | some (.inv l d _) => .next (s.invAt l d)
  | _ => .fault .noPendingEvent
/-- FWDS: shared data; the die keeps O where it was dirty, S where clean. -/
def State.fwdsAt (s : State) (n : Nat) (die : BitVec 3) : State :=
  let line := s.heldAs die n
  let r := s.dieData die line
  let s := if r.2.2 then s else
    ((s.holders die line).foldl (fun s g =>
      let l := s.lineAt g line
      s.setLine g line { l with st := match l.st with | .m => .o | .e => .s | q => q }) s).refreshSnoop die line
      (if r.2.1 then .o else .s)
  s.dieSend die line .data (fun n a i => .data true n a i r.1 r.2.1 r.2.2 false) fun m =>
    { m with data := r.1, dirty := r.2.1, gone := r.2.2 }
def execFwds (s : State) : R :=
  match s.ev with
  | some (.fwds l d _) => .next (s.fwdsAt l d)
  | _ => .fault .noPendingEvent
/-- FWDX: the data, and the copies are dropped. -/
def State.fwdxAt (s : State) (n : Nat) (die : BitVec 3) : State :=
  let line := s.heldAs die n
  let r := s.dieData die line
  let s := (s.dropDie die line).loseUpg die line
  (s.dieSend die line .dataX (fun n a i => .datax true n a i r.1 r.2.1 r.2.2 false) fun m =>
    { m with data := r.1, dirty := r.2.1, gone := r.2.2 }).forgetFrame die line
def execFwdx (s : State) : R :=
  match s.ev with
  | some (.fwdx l d _ _) => .next (s.fwdxAt l d)
  | _ => .fault .noPendingEvent

/-! ### Evictions -/

/-- A die gives up its copies of a line: with WbD where it was granted O or X, silently where S. A line with a request
outstanding stays until that has ended (23 R344, R346). -/
def State.snoopEvict (s : State) (die : BitVec 3) (line : Nat) : State :=
  if (s.holders die line).isEmpty then s
  else if (s.dieReq die line).isSome ∨ s.inWb die line then s.after 1 (.snoopFilterEvict die line)
  else
    let r := s.dieData die line
    let g := (s.snoop die line).granted
    let s := s.dropDie die line
    if g = .o ∨ g = .m then
      ({ s with coh := { s.coh with wbs := s.coh.wbs ++ [(die, line, r.1, r.2.1)] } } : State).dieSend die line .wbd
        (fun n a i => .wbd n a i r.1 r.2.1) fun m => { m with data := r.1, dirty := r.2.1 }
    else s.forgetFrame die line
def execSnoopFilterEvict (s : State) : R :=
  match s.ev with
  | some (.snoopFilterEvict d l) => .next (s.snoopEvict d l)
  | _ => .fault .noPendingEvent
/-! ### Answers that reach a die -/

/-- Operations' accesses of a die that wait for a line. -/
def State.waitingOn (s : State) (die : BitVec 3) (line : Nat) : List Agent :=
  let on := fun (a : Access) => decide (a.st = .sent) && a.map.any fun m => !m.isBlock && m.key / 64 == line
  s.cores.flatMap fun e =>
    let c : CoreId := BitVec.ofNat 16 e.1
    if dieOf c = die then
      (e.2.ops.flatMap fun o => ((List.range o.accs.length).filter fun i => (o.acc? i).any on).map fun i => Agent.lsu c o.id i) ++
        (((List.finRange 16).filter fun i => (e.2.ctx (BitVec.ofFin i)).acc.any on).map fun i => Agent.park c (BitVec.ofFin i))
    else []
/-- A wait ends in containment (23 R358, 05 R80). -/
def State.containAgent (s : State) (who : Agent) : State :=
  match who with
  | .lsu .. => s.answer who 1 (.trap who.idx 259)
  | .park c x | .fetch c x => (s.setAcc who none).containCtx c x (((s.acc who).map Access.va).getD 0)
  | .clr c i =>
    match s.clr c i with
    | some r => (s.containCtx c r.ctx r.blockVa).endClr who r .lost
    | none => s
  | _ => s.answer who 1 (.trap 0 258)
/-- Err: memory's data failed its check, or the line's owner is dead. For a line of another package, whose memory is not
here, it is taken as the latter (log entry 86). -/
def State.lineErr (s : State) (die : BitVec 3) (line : Nat) : State :=
  let bad := !isAlias line && (s.memRead (64 * line)).isNone
  let s : State := { s with coh := { s.coh with merges := s.coh.merges.filter fun e => !(e.2.1 == line && dieOfSg e.1 == die) } }
  (((s.waitingOn die line).foldl (fun s who => if bad then s.answer who 1 (.bad who.idx) else s.containAgent who) s).forgetFrame
    die line).admitMerges die
/-- A cache's miss or upgrade reaches its bank: the bank resolves it within the die, or asks the hub. The first request for a
line of another package is sent with the access that makes it; where that package is in containment the wait ends (23 R344,
R345, R358). -/
def State.lineMiss (s : State) (line : Nat) (excl : Bool) (r : RemReq) : State :=
  let sg := sgIdx r.core
  let die := dieOfSg sg
  let s : State := { s with coh := { s.coh with misses := s.coh.misses.erase (sg, line, excl) } }
  let first := isAlias line && s.frameOf die line == line && (s.dieReq die line).isNone
  let u := s.wantLine sg line excl
  if u.2 then u.1.lineArrived die line
  else if isAlias line ∧ s.pkgDead (s.homePkg line) then (s.waitingOn die line).foldl (fun s who => s.containAgent who) s
  else if first ∧ (u.1.dieReq die line).isSome then u.1.askAbroad (s.homePkg line) { r with coh := s.cohOf r.core excl }
  else u.1
def execRds (s : State) : R :=
  match s.ev with
  | some (.rds r) => .next (s.hubHear (.rd .rds r) r.agent r.inc)
  | some (.lineMiss l x r) => .next (s.lineMiss l x r)
  | _ => .fault .noPendingEvent
/-- The die's Cmp ends its transaction. -/
def State.dieCmp (s : State) (die : BitVec 3) (line : Nat) (err : Bool) : State :=
  s.dieSend die line .cmp (fun n a i => .cmpMsg true n a i err) fun m => { m with err := err }
/-- An answer to a die's request: installed in the caches that asked for it, or Err; then what waits goes on. -/
def State.dieAnswer (s : State) (die : BitVec 3) (line : Nat) (excl : Bool) (x : Granule) (dirty err : Bool) : State :=
  match s.dieReq die line with
  | none => (if excl ∧ ¬err ∧ ¬(s.holders die line).isEmpty then s.refreshSnoop die line .m else s).dieCmp die line err
  | some r =>
    let s : State := { s with coh := { s.coh with dieReqs := s.coh.dieReqs.erase r } }
    let s := s.dieCmp die line err
    if err then s.lineErr die line
    else
      let s :=
        if excl then
          let g := ((r.sgs.find? fun p => p.2).or r.sgs.head?).map Prod.fst
          match g with
          | none => s
          | some g => (((s.dropDie die line).setLine g line { st := if dirty then .m else .e, data := x }).refreshSnoop die line .m).makeRoom g line
        else
          let g := (s.snoop die line).granted
          r.sgs.foldl (fun s p =>
            (if (s.lineAt p.1 line).st = .i then s.setLine p.1 line { st := .s, data := x } else s).makeRoom p.1 line) s |> fun s =>
            s.refreshSnoop die line (if g = .i then .s else g)
      s.lineArrived die line
def execData (s : State) : R :=
  match s.ev with
  | some (.data true l a i x d g _) => .next (if s.heard a i then s.ownerData l a x d g true else s)
  | some (.data false l a _ x _ _ e) =>
    .next (match s.dieOfAgent a with | some d => s.dieAnswer d (s.heldAs d l) false x false e | none => s)
  | _ => .fault .noPendingEvent
def execDatax (s : State) : R :=
  match s.ev with
  | some (.datax true l a i x d g _) => .next (if s.heard a i then s.ownerData l a x d g false else s)
  | some (.datax false l a _ x d _ e) =>
    .next (match s.dieOfAgent a with | some k => s.dieAnswer k (s.heldAs k l) true x d e | none => s)
  | _ => .fault .noPendingEvent
/-- Upg is granted: the cache that asked for it holds the line in M, and no other of the die holds it (24 Table 24-2). -/
def State.upgraded (s : State) (die : BitVec 3) (line : Nat) (r : DieReq) : State :=
  let hs := s.holders die line
  match (((r.sgs.find? fun p => p.2).or r.sgs.head?).map Prod.fst), hs with
  | some g, h :: _ =>
    let d := (s.lineAt h line).data
    let s := (hs.filter fun k => k != g).foldl (fun s k => s.dropLine k line) s
    ((s.setLine g line { st := .m, data := d }).refreshSnoop die line .m).makeRoom g line
  | _, _ => s.refreshSnoop die line .m
/-- Cmp at a die: its WbD is acknowledged, and every access that waited for that goes on; or its Upg is granted. -/
def State.cmpAt (s : State) (die : BitVec 3) (line : Nat) (err : Bool) : State :=
  if s.inWb die line then
    let l := (line :: s.aliasesOf die (s.frameOf die line)).eraseDups
    let s := ({ s with coh := { s.coh with wbs := s.coh.wbs.filter fun w => !(w.1 == die && w.2.1 == line) } } : State).forgetFrame
      die line
    l.foldl (fun s n => s.lineArrived die n) s
  else
    match s.dieReq die line with
    | none => (if err ∨ (s.holders die line).isEmpty then s else s.refreshSnoop die line .m).dieCmp die line err
    | some r =>
      let s := ({ s with coh := { s.coh with dieReqs := s.coh.dieReqs.erase r } } : State).dieCmp die line err
      if err then s.lineErr die line else (s.upgraded die line r).lineArrived die line
/-- Cmp at the hub: the requester's transaction ends. -/
def State.cmpHub (s : State) (line : Nat) (a : AgentId) : State :=
  match s.txn? line with
  | some t =>
    match t.req with
    | some (.rd _ r) => if t.answered ∧ r.agent = a then s.endTxn t else s
    | _ => s
  | none => s
def execCmpMsg (s : State) : R :=
  match s.ev with
  | some (.cmpMsg true l a i _) => .next (if s.heard a i then s.cmpHub l a else s)
  | some (.cmpMsg false l a _ e) => .next (match s.dieOfAgent a with | some d => s.cmpAt d (s.writtenAs d l) e | none => s)
  | _ => .fault .noPendingEvent

/-! ## Containment and rejoin (23 R357–R359, 05 R80, 11 R188) -/

/-- A transaction of a line loses its dead agents. -/
def State.txnDead (s : State) (t : Txn) : State :=
  let gone := t.fwd.any s.isDead
  let s := s.modTxn t.line fun t =>
    { t with needAcks := t.needAcks.filter fun a => !s.isDead a, fwd := if gone then none else t.fwd, err := t.err || gone }
  match s.txn? t.line with
  | none => s
  | some u =>
    match u.req with
    | some (.rd _ r) => if u.answered ∧ s.isDead r.agent then s.endTxn u else s.txnStep t.line
    | _ => s.txnStep t.line
/-- A held request whose home is dead ends: a posted one is refused with cause 7, a far atomic as R80 gives. -/
def State.homeDead (s : State) (h : HomeReq) : State :=
  if h.req.posted then s.after 0 (.postedAck h.id 7)
  else
    let s : State := { s with homes := s.homes.filter fun k => k.id != h.id }
    match h.req.who with
    | some who => s.containAgent who
    | none => s
/-- What the dies of this package have outstanding for lines of dead packages: requests end with Err, writebacks are
forgotten (23 R358). -/
def State.linesDead (s : State) (pkgs : List (BitVec 5)) : State :=
  let dead := fun (line : Nat) => isAlias line && pkgs.contains (s.homePkg line)
  let l := s.coh.dieReqs.filter fun r => dead r.line
  let s : State := { s with coh := { s.coh with
    dieReqs := s.coh.dieReqs.filter fun r => !dead r.line
    wbs := s.coh.wbs.filter fun w => !dead w.2.1 } }
  l.foldl (fun s r => s.lineErr r.die r.line) s
/-- The requests of this package at a package end: each local reader is completed with the containment trap (05 R80). -/
def State.tokensDead (s : State) (pkgs : List (BitVec 5)) : State :=
  let lost := s.sys.tokens.filter fun t => pkgs.contains t.pkg
  let s : State := { s with
    sys := { s.sys with tokens := s.sys.tokens.filter fun t => !pkgs.contains t.pkg }
    waiters := s.waiters.filter fun w => match w.desc with | .token p .. => !pkgs.contains p | _ => true }
  (lost.filter fun t => t.req.coh.isNone).foldl (fun s t => s.containAgent t.who) (s.linesDead pkgs)
/-- Agents are marked dead, with everything that hangs on them: transactions, tokens both ways, requests, launches. -/
def State.markDead (s : State) (l : List AgentId) : State :=
  let l := l.filter fun a => !s.isDead a
  let s : State := { s with
    coh := { s.coh with dead := s.coh.dead ++ l
                        queue := s.coh.queue.filter fun r => !(r.agent?.any fun a => l.contains a)
                        net := s.coh.net.filter fun r => !(r.agent?.any fun a => l.contains a) }
    sys := { s.sys with contained := s.sys.contained || !l.isEmpty } }
  let s := if l.isEmpty then s else s.msix 3
  let s := (s.coh.txns).foldl (fun s t => s.txnDead t) s
  let s := s.coh.censusLeft.foldl (fun s e =>
    (e.2.filter fun a => l.contains a).foldl (fun s a => s.after 0 (.censusEnd e.1 a (s.incOf a))) s) s
  let pkgs := (l.map fun a => (a.extractLsb' 3 5 : BitVec 5)).eraseDups.filter fun p => p != s.pkgNum && s.pkgDead p
  let s := s.tokensDead pkgs
  let s := (s.homes.filter fun h => h.req.id.extractLsb' 35 5 == s.pkgNum && pkgs.contains (h.req.addr.extractLsb' 52 5)).foldl
    (fun s h => s.homeDead h) s
  let s : State := { s with homes := s.homes.filter fun h => !pkgs.contains (h.req.id.extractLsb' 35 5) }
  s.launchesDead (l.map fun a => (a.extractLsb' 3 5 : BitVec 5)).eraseDups
/-- The domain enters containment: this hub marks the agents and tells every other hub. -/
def State.contain (s : State) (l : List AgentId) : State :=
  let others := (List.range 32).filterMap fun i =>
    if i ≤ s.pkgTop.toNat ∧ i ≠ s.pkgNum.toNat then some (BitVec.ofNat 5 i : BitVec 5) else none
  ({ s with outbox := s.outbox ++ others.map fun p => Out.contain p l } : State).markDead l
def pkgAgents (p : BitVec 5) : List AgentId := (List.range 8).map fun d => p ++ (BitVec.ofNat 3 d : BitVec 3)
/-- CONTAINMENT: a die is reported as failed, or every route to a package is down. -/
def execContainment (s : State) : R :=
  match s.ev with
  | some (.containment p d) => .next (s.contain (match d with | some d => [p ++ d] | none => pkgAgents p))
  | _ => .fault .noPendingEvent
def execContainmentNotice (s : State) : R :=
  match s.ev with
  | some (.containmentNotice l) => .next (s.markDead l)
  | _ => .fault .noPendingEvent
/-- AGENT_ANSWER_TIMEOUT: the answer is still missing. -/
def State.answerTimeout (s : State) (line : Nat) (a : AgentId) (sent : Nat) : State :=
  match s.txn? line with
  | some t => if t.sentAt = sent ∧ (t.needAcks.contains a ∨ t.fwd = some a) then s.contain [a] else s
  | none => s
def execAgentAnswerTimeout (s : State) : R :=
  match s.ev with
  | some (.agentAnswerTimeout l a t) => .next (s.answerTimeout l a t)
  | _ => .fault .noPendingEvent
/-- An entry without an agent: an owned line goes to HI. -/
def DirEnt.purge (e : DirEnt) (a : AgentId) (whole : Bool) : DirEnt :=
  if e.owned ∧ e.owner = a then {}
  else
    let e := { e with ptrs := e.ptrs.erase a, pkgs := if whole then e.pkgs &&& ~~~((1 : BitVec 32) <<< (a.toNat / 8)) else e.pkgs }
    if e.st = .hs ∧ e.ptrs.isEmpty ∧ (¬e.coarse ∨ e.pkgs = 0) then {} else e
/-- AGENT_REJOIN: the entries that name the agent are purged, and it comes back under its next incarnation; a hub that
rejoins starts with no tokens (05 R80). -/
def State.agentRejoin (s : State) (a : AgentId) (whole : Bool) : State :=
  let owned := (s.coh.dir.filter fun e => e.2.owned && e.2.owner == a && !e.2.busy).map fun e => e.2.line
  let s := owned.foldl (fun (s : State) l =>
    (List.range 8).foldl (fun (s : State) d => s.dropDie (BitVec.ofNat 3 d) l) s) s
  let s := (s.coh.dir.map Prod.fst).foldl (fun (s : State) k => s.setDir k ((s.dirAt k).purge a whole)) s
  let s : State := { s with coh := { s.coh with txns := s.coh.txns.map fun t => { t with prior := t.prior.purge a whole } } }
  let s := match s.dieOfAgent a with
    | some d =>
      ((linesOf s.coh.snoops d.toNat).foldl (fun (s : State) l => s.dropDie d l) s)
    | none => s
  let p : BitVec 5 := a.extractLsb' 3 5
  let s := if whole ∧ p ≠ s.pkgNum then s.tokensDead [p] else s
  let dead := s.coh.dead.filter fun b => b != a
  { s with
    coh := { s.coh with dead := dead, inc := SMap.set 0 s.coh.inc a.toNat (s.incOf a + 1) }
    sys := { s.sys with contained := !dead.isEmpty } }
def execAgentRejoin (s : State) : R :=
  match s.ev with
  | some (.agentRejoin a w) => .next (s.agentRejoin a w)
  | _ => .fault .noPendingEvent

/-! ## Slice failure (23 R356) -/

/-- Index `i` lies in slice `f`. -/
def State.inSlice (s : State) (f : BitVec 3) (line : Nat) : Bool := s.remap (line % 8) == f.toNat
def State.domainAgents (s : State) : List AgentId :=
  (List.range (8 * (s.pkgTop.toNat + 1))).filterMap fun i =>
    let a : AgentId := BitVec.ofNat 8 i
    if s.isDead a ∨ ¬s.agentPresent a then none else some a
/-- The first live slice for the failed one's index. -/
def State.liveSlice (s : State) (f : BitVec 3) : Nat :=
  (((List.range 8).map fun i => (f.toNat + 4 + i) % 8).find? fun j => j != f.toNat && s.remap j == j).getD f.toNat
def State.setRemap (s : State) (i j : Nat) : State :=
  let w := s.bar 0x8020
  s.setBar 0x8020 ((w &&& ~~~(BitVec.ofNat 64 (7 * 8 ^ i))) ||| BitVec.ofNat 64 ((j ^^^ i) * 8 ^ i))
/-- SLICE_FAILURE: the slice is fenced and its pool lost, but for the far operations that the hub itself holds; once its open
transactions have ended, its index is remapped and a census begins. -/
def State.sliceFailure (s : State) (f : BitVec 3) : State :=
  if s.coh.fencedIdx.contains f then
    if s.coh.censusLeft.any fun e => e.1 == f then s
    else if s.coh.txns.any fun t => t.line % 8 == f.toNat then s.after 1 (.sliceFailure f)
    else
      let s : State := { s with coh := { s.coh with dir := s.coh.dir.filter fun e => e.2.line % 8 != f.toNat } }
      let s := s.setRemap f.toNat (s.liveSlice f)
      let l := s.domainAgents
      l.foldl (fun s a => s.toAgent a (fun d => .censusQuery d f s.pkgNum) (s.cohMsg .census f.toNat a))
        { s with coh := { s.coh with censusLeft := (f, l) :: s.coh.censusLeft } }
  else
    let s := s.after 0 (.machineCheck 7 f.toNat none)
    let busy := fun (e : DirEnt) => e.busy
    let lost := (s.coh.queue.filter fun r => s.inSlice f r.line).filterMap fun r => match r with | .rd _ q => q.id | _ => none
    let s : State := { s with doneIds := s.doneIds.filter fun i => !lost.contains i }
    ({ s with coh := { s.coh with
        fencedIdx := f :: s.coh.fencedIdx
        queue := s.coh.queue.filter fun r => !s.inSlice f r.line
        net := s.coh.net.filter fun r => !s.inSlice f r.line
        fenced := s.coh.fenced ++ (s.coh.queue.filter fun r => s.inSlice f r.line && r.agent?.isNone) ++
          s.coh.net.filter fun r => s.inSlice f r.line
        dir := s.coh.dir.filter fun e => !(s.inSlice f e.2.line) || busy e.2 } } : State).after 1 (.sliceFailure f)
/-- A slice reports an uncorrectable check error: the sixteenth within 2^20 cycles fails it (23 R356). -/
def State.sliceError (s : State) (f : BitVec 3) : State :=
  let l := (s.coh.sliceErrs.filter fun e => decide (s.cyc < e.2 + 2 ^ 20)) ++ [(f, s.cyc)]
  if 16 ≤ (l.filter fun e => e.1 == f).length then
    let s : State := { s with coh := { s.coh with sliceErrs := l.filter fun e => e.1 != f } }
    if s.coh.fencedIdx.contains f then s else s.sliceFailure f
  else { s with coh := { s.coh with sliceErrs := l } }
def execSliceFailure (s : State) : R :=
  match s.ev with
  | some (.sliceFailure f) => .next (s.sliceFailure f)
  | some (.sliceError f) => .next (s.sliceError f)
  | _ => .fault .noPendingEvent
/-- What a die sends another package's hub again after a census: the requests for lines of the index, those whose frame lines
it does not know, and its writebacks. The hub holds them until the census is over, and drops what it holds already (23 R356). -/
def State.resend (s : State) (die : BitVec 3) (idx : BitVec 3) (home : BitVec 5) : State :=
  let mine := fun (n : Nat) => isAlias n && s.homePkg n == home && s.frameOf die n != n && s.frameOf die n % 8 == idx.toNat
  let reqs := s.coh.dieReqs.filter fun r => r.die == die && mine r.line
  let firsts := s.sys.tokens.filter fun t => t.pkg == home && t.req.coh.isSome && dieOf t.req.core == die && !t.placed
  let wbs := s.coh.wbs.filter fun w => w.1 == die && mine w.2.1
  let s := reqs.foldl (fun s r => s.sendReq die r.line (if r.lost then .rdx else r.kind)) s
  let s : State := { s with outbox := s.outbox ++ firsts.map fun t => .request home t.req }
  wbs.foldl (fun s w => s.dieSend die w.2.1 .wbd (fun n a i => .wbd n a i w.2.2.1 w.2.2.2) fun m =>
    { m with data := w.2.2.1, dirty := w.2.2.2 }) s
/-- CENSUS_QUERY: a die reports to the hub that asks each line of the index, homed there, that it holds, with its granted state,
then the end; a line in its writeback buffer it still owns. -/
def State.censusQuery (s : State) (die : BitVec 3) (idx : BitVec 3) (home : BitVec 5) : State :=
  let a := s.agentOf die
  let at' := fun (n : Nat) => s.homePkg n == home && s.frameOf die n % 8 == idx.toNat
  let l : List (Nat × Granted) := (((linesOf s.coh.snoops die.toNat).filter at').map fun n => (n, (s.snoop die n).granted)) ++
    ((s.coh.wbs.filter fun w => w.1 == die && at' w.2.1).map fun w => (w.2.1, Granted.o))
  if home = s.pkgNum then
    let d := 1 + Config.freeDelay s.fresh
    let s : State := { s with fresh := s.fresh + 1 }
    (l.foldl (fun (s : State) n => s.after d (.censusReport n.1 a (s.incOf a) n.2)) s).after d
      (.censusEnd idx a (s.incOf a))
  else
    ({ s with outbox := s.outbox ++
        (l.map fun n => Out.coh home { s.cohMsg .censusReport (s.frameOf die n.1) a with granted := n.2 }) ++
        [.coh home (s.cohMsg .censusEnd idx.toNat a)] } : State).resend die idx home
def execCensusQuery (s : State) : R :=
  match s.ev with
  | some (.censusQuery d i p) => .next (s.censusQuery d i p)
  | _ => .fault .noPendingEvent
/-- CENSUS_REPORT: an entry is built; two owners of one line are a machine check, and both enter containment. -/
def State.censusReport (s : State) (line : Nat) (a : AgentId) (g : Granted) : State :=
  let again := s.after 1 (.censusReport line a (s.incOf a) g)
  match s.dirFind line with
  | some (k, e) =>
    if e.busy then again
    else if g = .s then s.setDir k (e.share a)
    else if e.owned then (s.after 0 (.machineCheck 7 (64 * line) none)).contain [e.owner, a]
    else s.setDir k { e with st := if g = .m then .hx else .ho, owner := a }
  | none =>
    match s.victim line with
    | none => again
    | some (k, e) =>
      if e.st = .free then
        (s.setDir k (match g with
          | .s => { line := line, st := .hs, ptrs := [a], age := 15 }
          | .m => { line := line, st := .hx, owner := a, age := 15 }
          | _ => { line := line, st := .ho, owner := a, age := 15 })).touchDir line k
      else if s.tableFull line then again
      else (s.recallTxn k e none).after 1 (.censusReport line a (s.incOf a) g)
def execCensusReport (s : State) : R :=
  match s.ev with
  | some (.censusReport l a i g) => .next (if s.heard a i then s.censusReport l a g else s)
  | _ => .fault .noPendingEvent
/-- CENSUS_END: an agent that dies counts as having ended. After the last, the held requests are released, and every die sends again what was not answered. -/
def State.censusEnd (s : State) (idx : BitVec 3) (a : AgentId) : State :=
  let left := s.coh.censusLeft.map fun e => if e.1 = idx then (e.1, e.2.erase a) else e
  let s : State := { s with coh := { s.coh with censusLeft := left } }
  if (left.all fun e => e.1 != idx) ∨ left.any (fun e => e.1 == idx && !e.2.isEmpty) then s
  else if s.agenda.any fun e => match e.2 with | .censusReport l .. => l % 8 == idx.toNat | _ => false then
    s.after 1 (.censusEnd idx a (s.incOf a))
  else
    let held := s.coh.fenced.filter fun r => r.line % 8 == idx.toNat
    let s : State := { s with coh := { s.coh with
      censusLeft := left.filter fun e => e.1 != idx
      fencedIdx := s.coh.fencedIdx.filter fun i => i != idx
      fenced := s.coh.fenced.filter fun r => r.line % 8 != idx.toNat } }
    let s := held.foldl (fun s r => s.hubTake r) s
    let lost := s.coh.dieReqs.filter fun r => !isAlias r.line && r.line % 8 == idx.toNat &&
      (held.all fun h => !(h.line == r.line && h.agent? == some (s.agentOf r.die)))
    let s := lost.foldl (fun s r => s.sendReq r.die r.line (if r.lost then .rdx else r.kind)) s
    (s.coh.wbs.filter fun w => !isAlias w.2.1 && w.2.1 % 8 == idx.toNat &&
      (held.all fun h => !(h.line == w.2.1 && h.agent? == some (s.agentOf w.1)))).foldl
      (fun s w => s.afterFree (.wbd w.2.1 (s.agentOf w.1) (s.incOf (s.agentOf w.1)) w.2.2.1 w.2.2.2)) s
def execCensusEnd (s : State) : R :=
  match s.ev with
  | some (.censusEnd i a n) => .next (if s.heard a n ∨ s.isDead a then s.censusEnd i a else s)
  | _ => .fault .noPendingEvent

end Sys2Proof.Machine
end

