-- ==== Sys2Proof/Machine/Milhan.lean ====
section
/-! DEFINITION. Milhan links: messages between packages in flits, credits, replay, and the package route table (23 R357, R360,
R361). -/
namespace Sys2Proof

/-- Bytes 0–65: the payload, filled up with zeros, and the half of the control word below the CRC. -/
def Flit.covered (f : Flit) : List Byte :=
  let w : BitVec 16 := f.cls ++ f.seq ++ f.creditCls ++ f.credits
  f.payload ++ List.replicate (64 - f.payload.length) 0 ++ [w.setWidth 8, w.extractLsb' 8 8]
def Flit.good (f : Flit) : Bool := f.crc == Config.crc16 f.covered

end Sys2Proof
namespace Sys2Proof.Machine

def State.link (s : State) (i : BitVec 4) : Link := SMap.get {} s.coh.links i.toNat
def State.setLink (s : State) (i : BitVec 4) (l : Link) : State :=
  { s with coh := { s.coh with links := SMap.set {} s.coh.links i.toNat l } }
def State.modLink (s : State) (i : BitVec 4) (f : Link → Link) : State := s.setLink i (f (s.link i))
/-- The link by which messages for a package leave: link 0 where firmware has loaded none (log entry 89). -/
def State.linkOf (s : State) (p : BitVec 5) : BitVec 4 := (SMap.get none s.sys.pkgRoutes p.toNat).getD 0

/-! ## Flits (23 Table 23-6) -/

/-- A message's payloads: consecutive flits of 64 bytes. `n` bounds their number. -/
def payloads (l : List Byte) : Nat → List (List Byte)
  | 0 => []
  | n + 1 => if l.isEmpty then [] else l.take 64 :: payloads (l.drop 64) n
/-- The package and the class of a message that leaves for another package (23 Table 23-1; 01 R18). -/
def Out.route : Out → Option (BitVec 5 × BitVec 2)
  | .request p _ | .message _ p | .launch p .. | .reserve p _ | .contain p _ => some (p, 0)
  | .reply id _ => some (id.extractLsb' 35 5, 1)
  | .token p .. => some (p, 2)
  | .coh p m => some (p, match m.kind with | .rds | .rdx | .upg | .wbd | .census => 0 | _ => 1)
  | _ => none

/-- The class whose credits a link returns next: the one that it owes most, the lowest on a tie. -/
def Link.owes (l : Link) : Nat :=
  if l.owed[1] ≤ l.owed[0] ∧ l.owed[2] ≤ l.owed[0] then 0 else if l.owed[2] ≤ l.owed[1] then 1 else 2
/-- Send a flit: it takes the next sequence number, returns credits that are owed, and is kept among the last 64. -/
def State.sendFlit (s : State) (i : BitVec 4) (cls : BitVec 2) (payload : List Byte) : State :=
  let l := s.link i
  let k := l.owes
  let n := min 63 ((l.owed[k]?).getD 0)
  let f : Flit := { payload := payload, crc := 0, cls := cls, seq := l.tx, creditCls := BitVec.ofNat 2 k, credits := BitVec.ofNat 6 n }
  let f := { f with crc := Config.crc16 f.covered }
  let c := cls.toNat
  let drop := l.sent.length + 1 - 64
  ({ s with outbox := s.outbox ++ [.flit i f] } : State).setLink i
    { l with tx := l.tx + 1, sent := (l.sent ++ [f]).drop drop, replays := (l.replays ++ [0]).drop drop
             used := if h : c < 3 then l.used.set c (l.used[c] + 1) else l.used
             owed := l.owed.set! k (((l.owed[k]?).getD 0) - n) }
/-- A class has a credit left. -/
def Link.may (l : Link) (cls : BitVec 2) : Bool :=
  decide (((l.used[cls.toNat]?).getD 0) < Config.linkCredits + ((l.credits[cls.toNat]?).getD 0))
/-- The first payload that waits whose class has a credit, of each class in order. `n` bounds the number sent. -/
def State.pumpLink (s : State) (i : BitVec 4) : Nat → State
  | 0 => s
  | n + 1 =>
    let l := s.link i
    if ¬l.up then s
    else
      match l.queue.find? fun e => l.may e.2.1 with
      | none => s
      | some e => ((s.modLink i fun l => { l with queue := l.queue.erase e }).sendFlit i e.2.1 e.2.2).pumpLink i n
/-- A message for another package goes to the link that the route table names, in flits (23 R360, R361). -/
def State.carry (s : State) (o : Out) : State :=
  match o.route with
  | none => s
  | some (p, cls) =>
    let b := Config.wireBytes o
    let l := payloads b (b.length / 64 + 1)
    let i := s.linkOf p
    (s.modLink i fun k => { k with queue := k.queue ++ l.map fun x => (p, cls, x) }).pumpLink i l.length
/-- Messages that have left in this cycle go to their links. -/
def State.carryOut (s : State) : State :=
  let n := s.outbox.length
  if n = s.sys.carried then s
  else
    let s := (s.outbox.drop s.sys.carried).foldl (fun s o => s.carry o) s
    { s with sys := { s.sys with carried := s.outbox.length } }

/-- FLIT_RECEIVE: a CRC error is answered with NAK, and a flit out of sequence is dropped; a good one returns credits, and its
payload joins the message of its class, which is delivered once it is whole (23 R360, R361). -/
def State.flitReceive (s : State) (i : BitVec 4) (f : Flit) : State :=
  let l := s.link i
  if ¬l.up then s
  else if f.good = false then s.sendFlit i 3 [l.rx.setWidth 8]
  else if f.seq ≠ l.rx then s
  else
    let c := f.creditCls.toNat
    let k := f.cls.toNat
    let l := { l with rx := l.rx + 1
                      credits := if h : c < 3 then l.credits.set c (l.credits[c] + f.credits.toNat) else l.credits }
    if h : k < 3 then
      let b := l.partIn[k] ++ f.payload
      let l := { l with owed := l.owed.set k (l.owed[k] + 1) }
      let s := match Config.wireEvent b with
        | some e => (s.setLink i { l with partIn := l.partIn.set k [] }).after 0 e
        | none => s.setLink i { l with partIn := l.partIn.set k b }
      s.pumpLink i l.queue.length
    else (s.setLink i l).pumpLink i l.queue.length
def execFlitReceive (s : State) : R :=
  match s.ev with
  | some (.flitReceive i f) => .next (s.flitReceive i f)
  | _ => .fault .noPendingEvent
/-- LINK_NAK: the sender replays from a sequence number; a flit replayed 16 times in a row takes the link down. -/
def State.linkNak (s : State) (i : BitVec 4) (seq : BitVec 6) : State :=
  let l := s.link i
  if ¬l.up then s
  else
    let k := (l.sent.takeWhile fun f => f.seq != seq).length
    let n := l.replays.take k ++ (l.replays.drop k).map (· + 1)
    let s := ({ s with outbox := s.outbox ++ (l.sent.drop k).map fun f => Out.flit i f } : State).setLink i
      { l with replays := n.take k |>.map (fun _ => 0) |> (· ++ n.drop k) }
    if n.any fun x => decide (16 ≤ x) then s.after 0 (.linkDown i) else s
def execLinkNak (s : State) : R :=
  match s.ev with
  | some (.linkNak i q) => .next (s.linkNak i q)
  | _ => .fault .noPendingEvent
/-- No route to a package is left: the link that firmware has loaded for it is down, or every link where it has loaded none. -/
def State.routeLost (s : State) (p : BitVec 5) : Bool :=
  match SMap.get none s.sys.pkgRoutes p.toNat with
  | some i => !(s.link i).up
  | none => (List.range 16).all fun j => !(s.link (BitVec.ofNat 4 j)).up
/-- The other packages of the domain. -/
def State.others (s : State) : List (BitVec 5) :=
  ((List.range (s.pkgTop.toNat + 1)).filter fun p => p != s.pkgNum.toNat).map fun p => BitVec.ofNat 5 p
/-- LINK_DOWN: firmware loads the route tables again (23 R361); with every link down, no route to any package is left, and where
no table was loaded none either (R357). -/
def State.linkDown (s : State) (i : BitVec 4) : State :=
  let s := s.modLink i fun l => { l with up := false }
  if (List.range 16).all fun j => !(s.link (BitVec.ofNat 4 j)).up then s.contain (s.others.flatMap pkgAgents) else s
def execLinkDown (s : State) : R :=
  match s.ev with
  | some (.cxlLink p up) => .next { s with sys := { s.sys with
      cxlDown := (s.sys.cxlDown.filter fun q => q != p) ++ if up then [] else [p] } }
  | some (.linkDown i) => .next (s.linkDown i)
  | _ => .fault .noPendingEvent
/-- Firmware loads an entry of the hub's package route table. What still waits for the package goes to the new link; where that
link too is down, no route to the package is left (23 R357, R361; log entry 89). -/
def State.loadPackageRoute (s : State) (p : BitVec 5) (i : BitVec 4) : State :=
  let old := s.linkOf p
  let l := (s.link old).queue.filter fun e => e.1 == p
  let s : State := { s with sys := { s.sys with pkgRoutes := SMap.set none s.sys.pkgRoutes p.toNat (some i) } }
  let s := if old = i then s
    else ((s.modLink old fun k => { k with queue := k.queue.filter fun e => e.1 != p }).modLink i fun k =>
      { k with queue := k.queue ++ l }).pumpLink i l.length
  if s.routeLost p ∧ p ≠ s.pkgNum then s.contain (pkgAgents p) else s

end Sys2Proof.Machine
end

