-- ==== Sys2Proof/Machine/Bringup.lean ====
section
/-! DEFINITION. The host's side: BAR0, the aperture, launch queues, start records, partitions, resets, firmware, power,
snapshots, scrubbing and router failure (01 R19–R25; 03 R32; 05 R85–R87; 25). -/
namespace Sys2Proof
/-- The core or unit that a pending step belongs to, beyond those of `Event.core?`. -/
def Event.unit? : Event → Option CoreId
  | .dispatch c _ | .steal c .. | .dispatchRetry c _ | .ringRefill c | .pushBalance c | .holdtTimeout c ..
  | .sleepDeadline c .. | .waitlPoll c .. => some c
  | .groupLoadRefresh g | .walk g _ => some (BitVec.ofNat 16 (g.toNat / 256 % 32 * 8 * 256 + g.toNat % 32 * 8))
  | .inv _ d _ | .fwds _ d _ | .fwdx _ d .. | .snoopFilterEvict d _ | .launchTableFill d _ | .gangPlace _ d
  | .supervisorNotice d _ | .censusQuery d .. => some (BitVec.ofNat 16 (d.toNat / 2 * 16384 + d.toNat % 2 * 128))
  | e => e.core?
/-- A message of the mesh, and a number that tells the kinds apart (01 R18). -/
def Event.meshKind? : Event → Option Nat
  | .mailboxArrival _ => some 1
  | .wakeMessage .. => some 2
  | .gangStartRecord .. => some 3
  | .blockReadAtHome .. => some 4
  | .blockWriteGranule .. => some 5
  | .clrAtHome .. => some 6
  | .farAtomic _ => some 7
  | .remoteRequest _ => some 8
  | .storeArrival .. => some 11
  | .requestLeave .. => some 12
  | .hubAccess _ => some 13
  | .lineMiss .. => some 14
  | .rds _ | .rdx _ | .upg _ | .wbd .. => some 15
  | .inv .. | .fwds .. | .fwdx .. | .invack .. | .data .. | .datax .. | .cmpMsg .. => some 16
  | .emulationRoundTrip .. | .emulationAnswer .. => some 17
  | .postedAck .. => some 18
  | .longLatencyComplete _ _ (.advance _) => none
  | .longLatencyComplete .. => some 9
  | .agentReply .. => some 10
  | _ => none
/-- The access of its operation that a reply answers. -/
def Reply.part : Reply → Nat
  | .advance i | .data i _ | .ack i | .notFull i | .placed i | .refused i | .tag i .. | .block i .. | .old i _ | .trap i _ | .bad i
  | .abandoned i .. | .cleared i .. | .retry i | .refusal i _ | .line i .. => i
end Sys2Proof
namespace Sys2Proof.Machine

/-! ## BAR0 (25 Table 25-1). Offsets within a block that the manual does not give are the model's (log entry 40) -/

def inQuads (q : BitVec 4) (c : CoreId) : Bool := q.getLsbD (quadOf c).toNat
def dieInQuads (q : BitVec 4) (d : BitVec 3) : Bool := q.getLsbD (d.toNat / 2)
def coreOfDie (d : BitVec 3) : CoreId := mkCore (d.toNat % 2 * 128) (d.toNat / 2 * 64)

/-- Field masks of the registers that are written whole: none where a write is ignored or has a step of its own. -/
def barMask (o : Nat) : Option Word :=
  if o = 0x2000 ∨ o = 0x3000 ∨ o = 0x3008 ∨ o = 0x3010 then some (BitVec.allOnes 64)
  else if o = 0x3018 then some 0x800000000000FFFF
  else if 0x4000 ≤ o ∧ o < 0x4080 then
    match o % 32 with
    | 0 => some 0xFFFFFFFFFFFFF000
    | 8 => some 0x800000000000FFFF
    | _ => none
  else if 0x5000 ≤ o ∧ o < 0x6000 then
    match o % 64 with
    | 0 | 8 => some (BitVec.allOnes 64)
    | 0x10 => some 0xFFFF0F31
    | _ => none
  else if 0x6100 ≤ o ∧ o < 0x6180 then
    if o % 16 = 0 then some 0x80FF1F00003FFFFF else if o % 16 = 8 then some 0x000007FF003FFFFF else none
  else if 0x7000 ≤ o ∧ o < 0x7200 ∧ o % 8 = 0 then some (BitVec.allOnes 64)
  else if o = 0x8000 ∨ o = 0x8008 then some (BitVec.allOnes 64)
  else if 0x9000 ≤ o ∧ o < 0x9C00 ∧ o % 8 = 0 then some (if o % 16 = 0 then 0xFFFFFFFFFFFFF001 else 0xFFFFFFFFFFFFF000)
  else if 0x300000 ≤ o ∧ o < 0x400000 ∧ o % 16 = 8 then some (BitVec.allOnes 64)
  else if 0x800000 ≤ o ∧ o < 0x1000000 ∧ o % 8 = 0 then some (BitVec.allOnes 64)
  else none
/-- What a word is held as: the harvesting map inverted, interleave words against G = 12, Remap against the identity. -/
def barHeld (o : Nat) (x : Word) : Word :=
  if 0x1000 ≤ o ∧ o < 0x1020 then ~~~x
  else if 0x6100 ≤ o ∧ o < 0x6180 ∧ o % 16 = 0 then x ^^^ (12 <<< 40)
  else if o = 0x8020 then x ^^^ 0xFAC688
  else x
/-- The core and counter that the threshold register names, and its value: 31:0 value, 47:32 core, 50:48 counter, 63 on. -/
def State.threshold (s : State) : Option (CoreId × Nat × BitVec 32) :=
  let w := s.bar 0x8030
  if w.getLsbD 63 then some (w.extractLsb' 32 16, (w.extractLsb' 48 3).toNat, w.setWidth 32) else none
/-- The threshold's counter has reached its value. -/
def State.atThreshold (s : State) : Bool :=
  match s.threshold with
  | some (c, j, v) => (s.core c).evc[j]?.any fun e => decide (v.toNat ≤ e.toNat)
  | none => false
/-- REGISTER_WRITE: the write's fields take their values; a register whose write performs an action has that step
scheduled; reserved, read-only and status fields are ignored (00 R5, R6). -/
def State.registerWrite (s : State) (o : Nat) (x : Word) : State :=
  if 0x1000 ≤ o ∧ o < 0x1020 ∧ o % 8 = 0 then s.setBar o (barHeld o x)
  else if 0x4000 ≤ o ∧ o < 0x4080 ∧ o % 32 = 16 then s.setBar o (s.bar o &&& ~~~(x &&& 0xF))
  else if 0x5000 ≤ o ∧ o < 0x6000 ∧ o % 64 = 0x28 then
    let q := BitVec.ofNat 6 ((o - 0x5000) / 64)
    let c := x.setWidth 2
    if c = 1#2 then s.after 0 (.qcreate q) else if c = 2#2 then s.after 0 (.qdestroy q) else s
  else if o = 0x6000 then s.after 0 (.partitionControl (x.setWidth 4))
  else if o = 0x6008 then { s with pkg := x &&& 0x1F1F }
  else if o = 0x8010 then
    (List.range 8).foldl (fun s d => if x.getLsbD d then s.after 0 (.containment s.pkgNum (some (BitVec.ofNat 3 d))) else s) s
  else if o = 0x8018 then if x.getLsbD 0 then s.after 0 .recoveryLoad else s
  else if o = 0x8020 then s.setBar o (barHeld o (x &&& 0xFFFFFF))
  else if o = 0x8030 then
    let t := s.setBar o x
    { t with sys := { t.sys with fired := t.atThreshold } }
  else if o = 0x100000 then s.after 0 (.debugSelect x)
  else if 0x200000 ≤ o ∧ o < 0x220000 ∧ o % 2 = 0 then
    s.modCore (BitVec.ofNat 16 ((o - 0x200000) / 2)) fun k => { k with marks := x.setWidth 16 &&& 0xFFFE }
  else if 0x300000 ≤ o ∧ o < 0x400000 ∧ o % 16 = 0 then s.after 0 (.startRecord (BitVec.ofNat 16 ((o - 0x300000) / 16)) x)
  else if 0x400000 ≤ o ∧ o < 0x480000 ∧ o % 8 = 0 then
    s.modCore (BitVec.ofNat 16 ((o - 0x400000) / 8)) fun k => { k with evsel := Vector.ofFn fun j : Fin 8 => byteOf x j.val }
  else
    match barMask o with
    | some m => s.setBar o (barHeld o (x &&& m))
    | none => s
def execRegisterWrite (s : State) : R :=
  match s.ev with
  | some (.registerWrite o x) => .next (s.registerWrite o x)
  | _ => .fault .noPendingEvent

/-- START_RECORD: a halted context 0 starts at the record's PC with g1 from its word 1 (03 R32). -/
def State.startRecord (s : State) (c : CoreId) (pc : Word) : State :=
  let t := s.ctx c 0
  if t.st ≠ .halted ∨ s.present c = false then s
  else
    let g1 := s.bar (0x300008 + 16 * c.toNat)
    let due := !t.traps.isEmpty && !t.inHandler
    let s := s.modCtx c 0 fun t => { (t.setG 1 g1) with st := .running, halt := none, pc := pc, delivering := due }
    if due then s.after 1 (.trapDelivery c 0) else s
def execStartRecord (s : State) : R :=
  match s.ev with
  | some (.startRecord c pc) => .next (s.startRecord c pc)
  | _ => .fault .noPendingEvent

/-- DEBUG_SELECT: ignored in Deployed (25 R384). -/
def execDebugSelect (s : State) : R :=
  match s.ev with
  | some (.debugSelect x) =>
    .next (if s.sys.life = .deployed then s else { s with sys := { s.sys with debugSel := x &&& 0xC000000000FFFFFF } })
  | _ => .fault .noPendingEvent

/-- State code of a directory entry (23 Table 23-3). -/
def DirSt.code : DirSt → Nat
  | .free => 0 | .hs => 1 | .ho => 2 | .hx => 3 | .ixD => 8 | .sxA => 9 | .xxF => 10 | .xoF => 11 | .xiW => 12 | .xrA => 13
  | .srA => 14
/-- The 96 bits of a directory entry (23 Table 23-3). -/
def DirEnt.bits (e : DirEnt) : BitVec 96 :=
  let tag : Nat := e.line / 2 ^ 18 % 2 ^ 28 * 8 + e.line % 8
  let sharers : Nat :=
    if e.coarse then e.pkgs.toNat
    else (List.range 4).foldl (fun a i => match e.ptrs[i]? with
      | some p => a + (256 + p.toNat) * 2 ^ (27 - 9 * i)
      | none => a) 0
  let hi : BitVec 88 := BitVec.ofNat 88 (tag * 2 ^ 57 + e.st.code * 2 ^ 53 + (if e.busy then 2 ^ 52 else 0) +
    (if e.coarse then 2 ^ 51 else 0) + e.owner.toNat * 2 ^ 43 + sharers * 2 ^ 7 + e.age.toNat * 2 ^ 3)
  hi ++ if hi = 0 then 0 else Config.secded hi
/-- Columns and rows of a kind of unit in the package, and the numbers within one position (01 Table 1-2, 25 Table 25-8). -/
def unitRange (kind : Nat) : Nat × Nat × Nat :=
  match kind with
  | 0 => (256, 256, 1)
  | 1 => (64, 64, 1)
  | 2 => (32, 32, 1)
  | 3 | 5 => (16, 16, 1)
  | 4 => (32, 32, 1)
  | 6 => (2, 4, 4)
  | _ => (1, 1, 8)
/-- A unit's place among the snapshot registers: its quadrant, or the hub's. -/
def unitPart (kind y : Nat) : Nat := if kind = 7 then 4 else y / ((unitRange kind).2.1 / 4)
/-- A word of a unit's snapshot page: %cyc, its counters, its state word. The manual defines the counters of cores alone, and
no state word: those are free values (log entry 12). -/
def State.snapWord (s : State) (z : Word) (o : Nat) : Word :=
  let kind := (z.extractLsb' 20 4).toNat
  let idx := z.toNat % 2 ^ 20
  let r := unitRange kind
  let p := unitPart kind (idx / 256 % 256)
  let seed := (s.sys.snapSeed[p]?).getD 0
  if 8 ≤ kind ∨ seed = 0 ∨ r.1 ≤ idx % 256 ∨ r.2.1 ≤ idx / 256 % 256 ∨ r.2.2 ≤ idx / 65536 ∨ 0x1050 ≤ o then 0
  else if o / 8 * 8 = 0x1000 then (s.sys.snapCyc[p]?).getD 0
  else if kind = 0 ∧ o < 0x1048 then ((s.core (z.setWidth 16)).snap[(o - 0x1008) / 8]?).getD 0
  else Config.freeWord (2 ^ 64 * seed + 2 ^ 24 * (16 * (o / 8 % 16) + kind) + idx)
/-- What a read of the debug window at an offset returns (25 R384, Table 25-8). -/
def State.debugRead (s : State) (o : Nat) : Word :=
  let z := s.sys.debugSel
  if s.sys.life = .deployed then 0
  else if o = 0 then z
  else if o < 0x1000 ∨ 0x2000 ≤ o then 0
  else if z.extractLsb' 62 2 = 0#2 then
    if 0x1100 ≤ o then 0
    else
      let e := s.dirAt ((z.toNat % 8) * 2 ^ 19 + z.toNat / 8 % 32768 * 16 + (o - 0x1000) / 16)
      (e.bits.setWidth 128).extractLsb' (o % 16 / 8 * 64) 64
  else if z.extractLsb' 62 2 = 1#2 then s.snapWord z o
  else 0

/-! ## The aperture (25 R367, R368) -/

def JobKind.window? : JobKind → Option (BitVec 2)
  | .apRead w .. | .apWrite w .. => some w
  | _ => none
def bytesOfWord (l : List Byte) (n : Nat) : Nat := (l.take n).foldr (fun b a => b.toNat + 256 * a) 0
/-- Status bits of a window. -/
def State.apStatus (s : State) (w : BitVec 2) (m : Word) : State :=
  let o := 0x4010 + 32 * w.toNat
  s.setBar o (s.bar o ||| m)
/-- The window's next request goes on: a service core performs requests in the order in which it receives them (19 R324). -/
def State.apNext (s : State) (w : BitVec 2) : State :=
  match s.jobs.find? fun j => j.kind.window? == some w with
  | some j => s.resumeAgent (.serv j.id) 1
  | none => s
/-- A granule of the request has been answered with bytes. -/
def State.apTake (s : State) (id : Nat) (l : List Byte) : State :=
  (s.modJob id fun k => { k with buf := k.buf ++ l, acc := none }).resumeAgent (.serv id) 0
/-- A request goes on: its next granule, or its end. One that is not the first of its window waits (19 R324). -/
def State.apGo (s : State) (j : Job) (w : BitVec 2) (total : Nat) (data : Option (List Byte)) (tag : Nat) : State :=
  let who := Agent.serv j.id
  if (s.jobs.find? fun k => k.kind.window? == some w).any fun k => k.id != j.id then s
  else match j.acc with
  | none =>
    let p := j.buf.length
    if total ≤ p then
      let s := s.dropJob j.id
      let s : State := if data.isNone then { s with outbox := s.outbox ++ [.host tag j.buf] } else s
      s.apNext w
    else
      let va : Word := BitVec.ofNat 64 (j.blk + p)
      let n := min (total - p) (64 - va.toNat % 64)
      let m := spanMask (va.toNat % 64) n
      let op : HomeOp := match data with
        | none => .peek
        | some d => .write m ((BitVec.ofNat 512 (bytesOfWord (d.drop p) n)) <<< (8 * (va.toNat % 64)))
      let s := s.setAcc who (some { va := va, mask := m, op := op })
      if isCoord va then s.answer who 0 (.trap 0 5) else s.go who
  | some a =>
    let o := a.va.toNat % 64
    let n := popCount a.mask
    let ones : List Byte := List.replicate n 0xFF
    match a.st with
    | .fresh => s.go who
    | .done => s.apTake j.id ((List.range n).map fun i => byteOf a.rdata (o + i))
    | .notFull => (s.apStatus w 1).apTake j.id ones
    | .failed =>
      let s := if a.cause = 12 then
          match a.map with
          | some m => if isCoded m.key then s.bumpSurface (codedSurface m.key) 16 else s
          | none => s
        else s
      (s.apStatus w (if a.cause = 2 then 4 else if a.cause = 256 then 8 else 2)).apTake j.id ones
    | _ => s
/-- A host request reaches its window: it is dropped, answered all-ones, or queued. -/
def State.apArrive (s : State) (w : BitVec 2) (off : Word) (kind : JobKind) (bytes tag : Nat) (isRead : Bool) : State :=
  let cfg := s.bar (0x4008 + 32 * w.toNat)
  if s.sys.wipeEnd.isSome ∨ cfg.getLsbD 63 = false then
    if isRead then { s with outbox := s.outbox ++ [.host tag (List.replicate bytes 0xFF)] } else s
  else
    let first := !(s.jobs.any fun j => j.kind.window? == some w) && !s.sys.servReset
    let id := s.fresh
    let s : State := { s with fresh := s.fresh + 1
                              jobs := s.jobs ++ [{ id := id, kind := kind, quad := w, asid := cfg.setWidth 16
                                                   blk := (s.bar (0x4000 + 32 * w.toNat) + off).toNat }] }
    if first then s.resumeAgent (.serv id) 1 else s
def execApertureRead (s : State) : R :=
  match s.ev with
  | some (.apertureRead w off n tag none) => .next (s.apArrive w off (.apRead w off n tag) n tag true)
  | some (.apertureRead w _ n tag (some id)) =>
    .next (match s.job id with | some j => s.apGo j w n none tag | none => s)
  | _ => .fault .noPendingEvent
def execApertureWrite (s : State) : R :=
  match s.ev with
  | some (.apertureWrite w off d none) => .next (s.apArrive w off (.apWrite w off d) d.length 0 false)
  | some (.apertureWrite w _ d (some id)) =>
    .next (match s.job id with | some j => s.apGo j w d.length (some d) 0 | none => s)
  | _ => .fault .noPendingEvent
/-- APERTURE_FAULT_TIMEOUT: the fault is given up: a read answers all-ones, a write is dropped, and Fault is set; a later
reply to a fault that nobody else waits on is stale. -/
def State.apertureFaultTimeout (s : State) (id : Nat) : State :=
  match s.job id with
  | none => s
  | some j =>
    match j.acc, j.kind.window? with
    | some a, some w =>
      if a.st ≠ .faulted ∨ s.cyc < j.phase + 2 ^ 20 then s
      else
        let s : State := { s with faults := s.faults.filterMap fun e =>
          match e.2 with
          | some f =>
            let l := f.waiters.filter fun q => q != .serv id
            if l.isEmpty then (if f.waiters.isEmpty then some e else none) else some (e.1, some { f with waiters := l })
          | none => some e }
        (s.apStatus w 8).apTake id (List.replicate (popCount a.mask) 0xFF)
    | _, _ => s
def execApertureFaultTimeout (s : State) : R :=
  match s.ev with
  | some (.apertureFaultTimeout j) => .next (s.apertureFaultTimeout j)
  | _ => .fault .noPendingEvent
/-- PCIE_UNSUPPORTED: an AtomicOp or I/O request (25 R366). -/
def execPcieUnsupported (s : State) : R :=
  match s.ev with
  | some (.pcieUnsupported tag) => .next { s with outbox := s.outbox ++ [.unsupported tag] }
  | _ => .fault .noPendingEvent
/-! ## Launch queues (25 R369–R372) -/

def qreg (q : BitVec 6) (o : Nat) : Nat := 0x5000 + 64 * q.toNat + o
def State.qState (s : State) (q : BitVec 6) : BitVec 2 := (s.bar (qreg q 0x20)).setWidth 2
def State.qOwner (s : State) (q : BitVec 6) : BitVec 2 := (s.bar (qreg q 0x10)).extractLsb' 4 2
def State.qHead (s : State) (q : BitVec 6) : BitVec 32 := (s.bar (qreg q 0x18)).setWidth 32
/-- Slots of a packet, and bytes read of it. -/
def State.qSlots (s : State) (q : BitVec 6) : Nat := if (s.bar (qreg q 0x10)).getLsbD 0 then 2 else 1
/-- Address of the slot with a running count. -/
def State.qSlot (s : State) (q : BitVec 6) (n : Nat) : Word :=
  s.bar (qreg q 0) + BitVec.ofNat 64 (128 * (n % 2 ^ (((s.bar (qreg q 0x10)).extractLsb' 8 4).toNat + 1)))
def State.setQState (s : State) (q : BitVec 6) (st cause : Nat) : State :=
  (s.setBar (qreg q 0x20) (BitVec.ofNat 64 (256 * cause + st))).msix 0
def State.qCause (s : State) (q : BitVec 6) : Nat := ((s.bar (qreg q 0x20)).extractLsb' 8 8).toNat
/-- The packet whose fetch had begun is settled: a QDESTROY that waited takes effect. -/
def State.qSettled (s : State) (q : BitVec 6) : State :=
  let d := s.sys.destroying.contains q
  let s : State := { s with sys := { s.sys with begun := s.sys.begun.erase q, destroying := s.sys.destroying.erase q } }
  if d then s.setQState q 3 (s.qCause q) else s
/-- A queue enters Error: the packet being fetched is discarded and Head stays. -/
def State.qError (s : State) (q : BitVec 6) (cause : Nat) : State :=
  (({ s with jobs := s.jobs.filter fun j => j.kind != .fetch q } : State).setQState q 2 cause).qSettled q
/-- QCREATE. -/
def State.qcreate (s : State) (q : BitVec 6) : State :=
  if s.qState q = 1 then s
  else
    ((s.setBar (qreg q 0x18) 0).setQState q 1 (s.qCause q)).after 1 (.queueFetch q)
def execQcreate (s : State) : R :=
  match s.ev with
  | some (.qcreate q) => .next (s.qcreate q)
  | _ => .fault .noPendingEvent
/-- QDESTROY: behind a packet whose fetch has begun it waits. -/
def State.qdestroy (s : State) (q : BitVec 6) : State :=
  if s.sys.begun.contains q then { s with sys := { s.sys with destroying := s.sys.destroying.erase q ++ [q] } }
  else ({ s with jobs := s.jobs.filter fun j => j.kind != .fetch q } : State).setQState q 3 (s.qCause q)
def execQdestroy (s : State) : R :=
  match s.ev with
  | some (.qdestroy q) => .next (s.qdestroy q)
  | _ => .fault .noPendingEvent
/-- The packet is whole: Head advances, and the record is submitted. -/
def State.qSubmit (s : State) (q : BitVec 6) (j : Job) : State :=
  let n := s.qSlots q
  let h := s.qHead q
  let addr := s.qSlot q h.toNat
  let s := (s.setBar (qreg q 0x18) ((h + BitVec.ofNat 32 n).setWidth 64)).modJob j.id fun k =>
    { k with kind := .launch addr k.asid (some q), buf := k.buf.take (if n = 2 then 192 else 128), acc := none, phase := 0 }
  ((s.after 1 (.launchAccept j.id)).qSettled q).after 1 (.queueFetch q)
/-- The fetch reads its next granule. -/
def State.qRead (s : State) (q : BitVec 6) (j : Job) (got : Nat) : State :=
  let va := s.qSlot q ((s.qHead q).toNat + got / 128) + BitVec.ofNat 64 (got % 128)
  (s.setAcc (.serv j.id) (some { va := va, mask := BitVec.allOnes 64, op := .read })).resumeAgent (.serv j.id) 0
/-- A running wipe covers a quadrant. -/
def State.wiped (s : State) (q : BitVec 2) : Bool := s.sys.wiping.any fun w => w.1.getLsbD q.toNat && decide (s.cyc < w.2)
/-- Queues that nothing keeps from being served any more: their owners look at them again. -/
def State.wakeQueues (s : State) : State :=
  (List.range 64).foldl (fun s i =>
    let q : BitVec 6 := BitVec.ofNat 6 i
    if s.qState q ≠ 1 ∨ s.jobs.any (fun j => j.kind == .fetch q) ∨ s.agenda.any (fun e => e.2 == .queueFetch q) then s
    else s.after 1 (.queueFetch q)) s
/-- QUEUE_FETCH: while the queue is active its owner reads Tail, and while Head differs from it the packet at Head. -/
def State.queueFetch (s : State) (q : BitVec 6) : State :=
  match s.jobs.find? fun j => j.kind == .fetch q with
  | none =>
    let a := s.bar (qreg q 8)
    if s.qState q ≠ 1 ∨ s.sys.servReset ∨ s.wiped (s.qOwner q) then s
    else if a.toNat % 8 ≠ 0 then s.qError q 0x80
    else
      let id := s.fresh
      let s : State := { s with fresh := s.fresh + 1
                                jobs := s.jobs ++ [{ id := id, kind := .fetch q, quad := s.qOwner q
                                                     asid := (s.bar (qreg q 0x10)).extractLsb' 16 16
                                                     acc := some { va := a, mask := spanMask (a.toNat % 64) 8, op := .read } }] }
      if isCoord a then s.qError q 0x80 else s.go (.serv id)
  | some j =>
    match j.acc with
    | none => s
    | some a =>
      match a.st with
      | .fresh => if isCoord a.va then s.qError q 0x80 else s.go (.serv j.id)
      | .failed => s.qError q (if 512 ≤ a.cause then a.cause - 512 else if a.cause = 12 then 0 else 0x80)
      | .done =>
        if j.phase = 0 then
          let tail : BitVec 32 := (a.rdata >>> (8 * (a.va.toNat % 64))).setWidth 32
          let s : State := { s with sys := { s.sys with tails := (q.toNat, tail) :: s.sys.tails.filter fun e => e.1 != q.toNat } }
          if tail = s.qHead q then (s.dropJob j.id).afterFree (.queueFetch q)
          else
            let s : State := { s with sys := { s.sys with begun := s.sys.begun.erase q ++ [q] } }
            (s.modJob j.id fun k => { k with phase := 1, buf := [] }).qRead q j 0
        else
          let l := j.buf ++ (List.range 64).map (byteOf a.rdata)
          let s := s.modJob j.id fun k => { k with buf := l }
          if 128 * s.qSlots q ≤ l.length then s.qSubmit q { j with buf := l } else s.qRead q j l.length
      | _ => s
def execQueueFetch (s : State) : R :=
  match s.ev with
  | some (.queueFetch q) => .next (s.queueFetch q)
  | _ => .fault .noPendingEvent

/-! ## Resets (25 R376, 05 R86, 03 R32) -/

/-- An HBM wipe's duration. -/
def wipeCycles : Nat := 36000000
/-- Wipe 4 KiB pages from a frame address of tier 0. -/
def State.wipeFrames (s : State) (base : Nat) : Nat → State
  | 0 => s
  | n + 1 =>
    let s := s.wipeFrames base n
    match s.phys (base + 4096 * n) with
    | some k => (s.wipe k (k + 4096)).releaseIn k (k + 4096)
    | none => s
/-- Reads of BAR2 that a wipe meets return all-ones, and no status bit is set (25 R376). -/
def State.readsLost (s : State) : List Out :=
  s.jobs.filterMap fun j => match j.kind with
    | .apRead _ _ n tag => some (.host tag (List.replicate n 0xFF))
    | _ => none
def State.abortReads (s : State) : State :=
  let s : State := { s with outbox := s.outbox ++ s.readsLost
                            jobs := s.jobs.filter fun j => match j.kind with | .apRead .. => false | _ => true }
  (List.range 4).foldl (fun s w => match s.jobs.find? fun j => j.kind.window? == some (BitVec.ofNat 2 w) with
    | some j => if j.acc.isNone ∧ ¬s.sys.servReset then s.resumeAgent (.serv j.id) 1 else s
    | none => s) s
/-- The whole package as after a reset: what is fused, the firmware image in its store, the identity of drawn free values
and what has already left the package stay, and a wipe runs. -/
def State.packageReset (s : State) (cyc : Nat) : State :=
  let r := State.reset
  { r with
    cyc := cyc
    fresh := s.fresh
    outbox := s.outbox ++ s.readsLost
    agenda := [(cyc + wipeCycles, .wipeDone), (cyc + wipeCycles, .firmwareVerify s.sys.image)]
    sys := { r.sys with life := s.sys.life, rollback := s.sys.rollback, keyHash := s.sys.keyHash, image := s.sys.image
                        identity := s.sys.identity, cxlDown := s.sys.cxlDown
                        wipeEnd := some (cyc + wipeCycles), wiping := [(0xF, cyc + wipeCycles)] } }
/-- COLD_RESET: power-on or PERST#. -/
def execColdReset (s : State) : R :=
  match s.ev with
  | some .coldReset => .next (s.packageReset 0)
  | _ => .fault .noPendingEvent

/-- A key of memory lies in the dies of some quadrants. -/
def keyInQuads (q : BitVec 4) (k : Nat) : Bool := (keyDie k).any (dieInQuads q)
/-- The core of an agent, where it belongs to one. -/
def State.agentIn (s : State) (q : BitVec 4) (w : Agent) : Bool :=
  match w with
  | .serv j => (s.job j).any fun k => q.getLsbD k.quad.toNat
  | .home i => (s.home i).any fun h => h.req.id.extractLsb' 35 5 == s.pkgNum && inQuads q h.req.core
  | .token .. => false
  | _ => inQuads q (s.agentCore w)
/-- A pending step belongs to the quadrants. -/
def State.eventIn (s : State) (q : BitVec 4) (e : Event) : Bool :=
  (e.unit?.any (inQuads q)) || (e.agent?.any (s.agentIn q)) ||
    (match e with
     | .blockFillRelease b .. | .drainDescriptor b _ => inQuads q (s.homeOf b).2.2
     | .rds r | .rdx r | .upg r => (s.dieOfAgent r.agent).any (dieInQuads q)
     | .data false _ a .. | .datax false _ a .. | .cmpMsg false _ a .. => (s.dieOfAgent a).any (dieInQuads q)
     | .snapshotLatch p => q.getLsbD p.toNat
     | .bankAccess k _ => keyInQuads q k
     | .gangOffer c _ => inQuads q c
     | .lineMiss _ _ r => inQuads q r.core
     | .requestLeave _ r => r.id.extractLsb' 35 5 == s.pkgNum && inQuads q r.core
     | _ => false)
/-- Lines whose memory lies in the quadrants' HBM. -/
def State.lineInQuads (s : State) (q : BitVec 4) (line : Nat) : Bool := ((s.phys (64 * line)).any fun k => keyInQuads q k)
/-- PARTITION_RESET: cores, stores, HBM, tags, caches, tables and queues of the quadrants, the watch table, the graft table
and its partitions are wiped; every register of the quadrants' launch queues has its reset value; every context 0 there is
halted. Routing tables stay: recovery loads them before the reset (01 R24). %heatk and %heatd, which the package has once, stay
(log entry 55). -/
def State.partitionReset (s : State) (q : BitVec 4) : State :=
  let s := s.abortReads
  let affected := s.lineInQuads q
  let agents : List AgentId := (List.range 8).filterMap fun d =>
    if dieInQuads q (BitVec.ofNat 3 d) then some (s.agentOf (BitVec.ofNat 3 d)) else none
  let sgIn := fun (g : Nat) => q.getLsbD (g / 64)
  let grpIn := fun (g : Nat) => decide (g ≠ 0xFFFF) && q.getLsbD (g / 256 / 8)
  let dieIn := fun (d : Nat) => q.getLsbD (d / 2)
  let graft := (s.bar 0x3000).toNat
  let parts := (s.bar 0x3008).toNat
  let dir := (s.coh.dir.filter fun e => !affected e.2.line).filterMap fun e =>
    let f := agents.foldl (fun (f : DirEnt) a => f.purge a false) e.2
    if f.st = .free then none else some (e.1, f)
  let queues := ((List.range 64).map fun i => (BitVec.ofNat 6 i : BitVec 6)).filter fun n => q.getLsbD (s.qOwner n).toNat
  let t : State := { s with
    agenda := s.agenda.filter fun e => !s.eventIn q e.2
    mem := s.mem.filter fun e => !keyInQuads q e.1
    atoms := s.atoms.filter fun e => !keyInQuads q (64 * e.1)
    ecc := s.ecc.filter fun e => !keyInQuads q (64 * e.1)
    cores := s.cores.filter fun e => !inQuads q (BitVec.ofNat 16 e.1)
    rgns := s.rgns.filter fun e => !keyInQuads q (e.1 / 4 * 2 ^ 22)
    sgWays := s.sgWays.filter fun e => !sgIn e.1
    sgway := s.sgway.filter fun e => !sgIn e.1.toNat
    waiters := s.waiters.filter fun w => !inQuads q (s.homeOf w.blk).2.2
    fills := s.fills.filter fun w => !inQuads q (s.homeOf w.blk).2.2
    held := s.held.filter fun w => !inQuads q (s.homeOf w.blk).2.2
    banks := s.banks.filter fun b => !keyInQuads q b.store
    withdrawnConts := if q = 0xF then [] else s.withdrawnConts
    fltsvc := Vector.ofFn fun d : Fin 8 => if dieIn d.val then 0 else s.fltsvc[d]
    supv := Vector.ofFn fun d : Fin 8 => if dieIn d.val then 0 else s.supv[d]
    tlb2 := s.tlb2.filter fun e => !grpIn e.1
    walkCache := s.walkCache.filter fun e => !grpIn e.1
    samplers := s.samplers.filter fun e => !grpIn e.1
    walks := s.walks.filter fun w => !grpIn w.grp.toNat
    tlbis := s.tlbis.filter fun w => !inQuads q w.core
    hubTlb := []
    faults := s.faults.filter fun e => !(decide (e.1 / 65536 < 8) && dieIn (e.1 / 65536))
    faultSeq := s.faultSeq.filter fun e => !(decide (e.1 / 65536 < 8) && dieIn (e.1 / 65536))
    homes := s.homes.filter fun h => !s.agentIn q (.home h.id)
    launches := s.launches.filter fun l => !q.getLsbD l.quad.toNat
    active := s.active.filter fun e => !dieInQuads q e.1
    gangs := s.gangs.filter fun g => !g.members.any fun m => inQuads q m.1
    jobs := s.jobs.filter fun j => !q.getLsbD j.quad.toNat
    loads := s.loads.filter fun e => !inQuads q (BitVec.ofNat 16 e.1)
    armed := s.armed ||| q
    snapAt := s.snapAt.filter fun e => !q.getLsbD e.1.toNat
    sgs := s.sgs.filter fun e => !sgIn e.1
    watch := []
    coh := { s.coh with
      misses := s.coh.misses.filter fun m => !sgIn m.1.toNat
      lines := s.coh.lines.filter fun e => !sgIn (e.1 / 2 ^ 128) && !affected (e.1 % 2 ^ 128)
      snoops := s.coh.snoops.filter fun e => !dieIn (e.1 / 2 ^ 128) && !affected (e.1 % 2 ^ 128)
      dieReqs := s.coh.dieReqs.filter fun r => !dieInQuads q r.die
      wbs := s.coh.wbs.filter fun w => !dieInQuads q w.1
      merges := s.coh.merges.filter fun m => !sgIn m.1.toNat
      dir := dir
      frames := s.coh.frames.filter fun e => !dieIn (e.1 / 2 ^ 128)
      txns := s.coh.txns.filter fun t => !affected t.line
      queue := s.coh.queue.filter fun r => !affected r.line
      net := s.coh.net.filter fun r => !affected r.line
      fenced := s.coh.fenced.filter fun r => !affected r.line }
    sys := { s.sys with
      wipeEnd := some (s.cyc + wipeCycles)
      wiping := s.sys.wiping ++ [(q, s.cyc + wipeCycles)]
      waiting := s.sys.waiting.filter fun m => !(sgIn m.1.toNat || sgIn m.2.1.toNat || s.eventIn q m.2.2.2)
      devLeft := s.sys.devLeft.filter fun l => !affected l
      holding := s.sys.holding.filter fun h => !q.getLsbD h.1.toNat
      begun := s.sys.begun.filter fun n => !queues.contains n
      destroying := s.sys.destroying.filter fun n => !queues.contains n
      tokens := s.sys.tokens.filter fun t => !inQuads q t.req.core } }
  let t := queues.foldl (fun (t : State) n => [0, 8, 0x10, 0x18, 0x20].foldl (fun (t : State) o => t.setBar (qreg n o) 0) t) t
  ((t.wipeFrames graft 1024).wipeFrames parts 256).after wipeCycles .wipeDone
def execPartitionReset (s : State) : R :=
  match s.ev with
  | some (.partitionReset q) => .next (s.partitionReset q)
  | _ => .fault .noPendingEvent
/-- WIPE_DONE: BAR2 serves again, once no later wipe runs, and the launch queues of the quadrants that are done. -/
def State.wipeDone (s : State) : State :=
  ({ s with sys := { s.sys with
    wipeEnd := s.sys.wipeEnd.filter fun e => decide (s.cyc < e)
    wiping := s.sys.wiping.filter fun w => decide (s.cyc < w.2) } } : State).wakeQueues
def execWipeDone (s : State) : R :=
  match s.ev with
  | some .wipeDone => .next s.wipeDone
  | _ => .fault .noPendingEvent

/-! ## Partitions (25 R374, R375) -/

/-- The quadrant sets that a partition may be. -/
def isPartition (q : BitVec 4) : Bool := q == 1 || q == 2 || q == 4 || q == 8 || q == 3 || q == 12 || q == 15
/-- Quadrants of the partitions that meet a set. -/
def State.partsOf (s : State) (q : BitVec 4) : BitVec 4 :=
  (List.range 4).foldl (fun m i =>
    if (List.range 4).any fun j => q.getLsbD j && s.sys.parts[j]? == s.sys.parts[i]? then m ||| (1 <<< i) else m) 0
/-- The partitions that a set of quadrants falls into beside a target. -/
def restParts (rest : BitVec 4) : List (BitVec 4) :=
  (if rest &&& 3 = 3 then [3] else (if rest.getLsbD 0 then [1] else []) ++ if rest.getLsbD 1 then [2] else []) ++
    (if rest &&& 12 = 12 then [12] else (if rest.getLsbD 2 then [4] else []) ++ if rest.getLsbD 3 then [8] else [])
/-- The Tail word of a queue as memory holds it, none where it cannot be read; that of a word in another package is what the
owner last read. -/
def State.queueTail (s : State) (q : BitVec 6) : Option (BitVec 32) :=
  let a := s.bar (qreg q 8)
  if a.extractLsb' 52 5 ≠ s.pkgNum then (s.sys.tails.find? fun e => e.1 == q.toNat).map Prod.snd
  else
    match s.walkAll ((s.bar (qreg q 0x10)).extractLsb' 16 16) (a.toNat % 2 ^ 52) with
    | .leaf e _ =>
      let k := (s.leafMap e (a.toNat % 2 ^ 52)).key
      (s.ownRead k).map fun g => (g.extractLsb' (8 * (a.toNat % 64 / 8 * 8)) 64).setWidth 32
    | _ => none
/-- A queue is busy (25 R372). -/
def State.qBusy (s : State) (q : BitVec 6) : Bool :=
  s.sys.begun.contains q || (s.qState q == 1 && s.queueTail q != some (s.qHead q))
/-- Every context but the managers is empty, and no network, engine or walker has work. -/
def State.quiesced (s : State) (q : BitVec 4) : Bool :=
  (s.cores.all fun e => !inQuads q (BitVec.ofNat 16 e.1) ||
    (e.2.busy == 0 && e.2.cmds.isEmpty && e.2.clrs.isEmpty && e.2.inQ.isEmpty && e.2.sendQ.isEmpty)) &&
  (s.sgs.all fun e => !q.getLsbD (e.1 / 64) ||
    (e.2.tasks.all (fun k => k.st == .done) && e.2.engines.all fun n => decide (n.busyUntil ≤ s.cyc))) &&
  (s.walks.all fun w => w.grp == 0xFFFF || !q.getLsbD (w.grp.toNat / 256 / 8)) &&
  s.agenda.all fun e => e.2.quiet || !s.eventIn q e.2
/-- The status of a request (25 R375). -/
def State.partStatus (s : State) (t : BitVec 4) : Nat :=
  let q := s.partsOf t
  if ((List.range 64).any fun i => let n : BitVec 6 := BitVec.ofNat 6 i; q.getLsbD (s.qOwner n).toNat && s.qBusy n) then 1
  else if s.quiesced q = false then 2
  else if isPartition t = false then 3
  else 0
/-- The interleave registers of the partitions concerned take values that the manual does not give. -/
def State.rewriteInterleave (s : State) (q : BitVec 4) : State :=
  (List.range 8).foldl (fun s r =>
    let dies : BitVec 8 := (s.ilv r).extractLsb' 48 8
    let mine := (List.range 8).any fun d => dies.getLsbD d && q.getLsbD (d / 2)
    if (s.ilv r).getLsbD 63 ∧ mine = false then s
    else
      let a := Config.freeWord s.fresh
      let b := Config.freeWord (s.fresh + 1)
      let s : State := { s with fresh := s.fresh + 2 }
      (s.setBar (0x6100 + 16 * r) (barHeld (0x6100 + 16 * r) (a &&& 0x80FF1F00003FFFFF))).setBar (0x6108 + 16 * r)
        (b &&& 0x000007FF003FFFFF)) s
/-- PARTITION_CONTROL: refused with a status, or the boundaries are moved and every resulting partition is reset. -/
def State.partitionControl (s : State) (t : BitVec 4) : State :=
  let st := s.partStatus t
  let s := s.setBar 0x6010 (BitVec.ofNat 64 st)
  if st ≠ 0 then { s with outbox := s.outbox ++ [.refused st] }
  else
    let q := s.partsOf t
    let ps := t :: restParts (q &&& ~~~t)
    let lowest := fun (i : Fin 4) => match ps.find? fun p => p.getLsbD i.val with
      | some p => BitVec.ofNat 2 (((List.range 4).find? fun j => p.getLsbD j).getD 0)
      | none => s.sys.parts[i]
    let s : State := { s with sys := { s.sys with parts := Vector.ofFn lowest } }
    ps.foldl (fun s p => s.after 0 (.partitionReset p)) (s.rewriteInterleave q)
def execPartitionControl (s : State) : R :=
  match s.ev with
  | some (.partitionControl t) => .next (s.partitionControl t)
  | _ => .fault .noPendingEvent

/-! ## Life cycle, firmware and identity (25 R377–R379) -/

def Life.next : Life → Option Life
  | .manufacturing => some .provisioned
  | .provisioned => some .deployed
  | .deployed => some .returned
  | .returned => none
/-- The identity key in a life-cycle state: none, derived, present, erased (25 R377). -/
def Life.identity (l : Life) (k : Option (BitVec 256)) : Option (BitVec 256) :=
  match l with
  | .manufacturing | .returned => none
  | .provisioned => some Config.identityKey
  | .deployed => k
def Life.code : Life → Nat
  | .manufacturing => 0 | .provisioned => 1 | .deployed => 2 | .returned => 3
/-- LIFE_CYCLE_CHANGE: the next state is fused, and the package is reset; there is none after Returned. -/
def execLifeCycleChange (s : State) : R :=
  match s.ev with
  | some .lifeCycleChange =>
    .next (match s.sys.life.next with
      | some l => ({ s with sys := { s.sys with life := l, identity := l.identity s.sys.identity } } : State).packageReset s.cyc
      | none => s)
  | _ => .fault .noPendingEvent
/-- The ROM's verification of an image. -/
def State.verifyImage (s : State) (image : List Byte) : State :=
  let p := Config.imageParts image
  let digest := Config.shake256 p.2.2.2
  if Config.shake256 p.2.1 = s.sys.keyHash ∧ s.sys.rollback ≤ p.1 ∧ Config.mldsaVerify digest p.2.1 p.2.2.1 = true then
    let s : State := { s with sys := { s.sys with version := p.1, digest := digest, servReset := false, recovery := false } }
    let first := fun (j : Job) => j.kind.window?.all fun w =>
      (s.jobs.find? fun k => k.kind.window? == some w).any fun k => k.id == j.id
    (s.jobs.foldl (fun s j => if j.acc.isNone && first j then s.resumeAgent (.serv j.id) 1 else s) s).wakeQueues
  else ({ s with sys := { s.sys with servReset := true, recovery := true } } : State).msix 4
def execFirmwareVerify (s : State) : R :=
  match s.ev with
  | some (.firmwareVerify image) => .next (s.verifyImage image)
  | _ => .fault .noPendingEvent
/-- The bytes of doublewords of BAR0 from an offset on. -/
def State.barBytes (s : State) (o n : Nat) : List Byte :=
  (List.range n).map fun i => byteOf (s.bar (o + i / 8 * 8)) (i % 8)
/-- RECOVERY_LOAD: the image in the recovery buffer is verified in its turn. -/
def execRecoveryLoad (s : State) : R :=
  match s.ev with
  | some .recoveryLoad =>
    .next (if s.sys.recovery then s.verifyImage (s.barBytes 0x800000 0x800000) else s)
  | _ => .fault .noPendingEvent
def bytesOf {n : Nat} (x : BitVec n) (k : Nat) : List Byte := (List.range k).map (byteOf x)
/-- ATTESTATION_REQUEST: served in Provisioned and Deployed. -/
def State.attest (s : State) (nonce : BitVec 256) : State :=
  if s.sys.life = .provisioned ∨ s.sys.life = .deployed then
    let d := Config.shake256 (bytesOf nonce 32 ++ bytesOf s.sys.digest 32 ++ [BitVec.ofNat 8 s.sys.life.code] ++
      s.sys.parts.toList.map (fun p => p.setWidth 8) ++ (List.range 4).flatMap fun w => bytesOf (s.hmap w) 8)
    { s with outbox := s.outbox ++ (s.sys.identity.toList.map fun k => .attest (Config.mldsaSign k d)) }
  else { s with outbox := s.outbox ++ [.refused 0] }
def execAttestationRequest (s : State) : R :=
  match s.ev with
  | some (.attestationRequest n) => .next (s.attest n)
  | _ => .fault .noPendingEvent

/-- What a read of a BAR0 register returns, where the manual gives its contents (25 Table 25-1). Word 0 holds the life
cycle, the recovery bit and the firmware version in places of the model's choice. The network-boundary registers name, for each
quadrant, those of its partition (25 R374). -/
def State.barRead (s : State) (o : Nat) : Word :=
  if o = 0 then BitVec.ofNat 64 (s.sys.life.code + (if s.sys.recovery then 16 else 0) + s.sys.version % 2 ^ 32 * 2 ^ 32)
  else if o = 0x6008 then s.pkg &&& 0x1F1F
  else if 0x100000 ≤ o ∧ o < 0x200000 then s.debugRead (o - 0x100000)
  else if 0x200000 ≤ o ∧ o < 0x220000 then (s.core (BitVec.ofNat 16 ((o - 0x200000) / 2))).marks.setWidth 64
  else if 0x400000 ≤ o ∧ o < 0x480000 then
    let v := (s.core (BitVec.ofNat 16 ((o - 0x400000) / 8))).evsel
    (List.range 8).foldl (fun a j => a ||| ((((v[j]?).getD 0).setWidth 64) <<< (8 * j))) 0
  else if 0x6200 ≤ o ∧ o < 0x6220 then (s.partsOf ((1 : BitVec 4) <<< ((o - 0x6200) / 8))).setWidth 64
  else if o = 0x8028 then BitVec.ofNat 64 (s.sys.scrubCount)
  else if o = 0x8040 then BitVec.ofNat 64 s.sys.recalls
  else if o = 0x8048 then if s.sys.halved then 1 else 0
  else if o = 0x8050 then BitVec.ofNat 64 ((List.range 8).foldl (fun a d =>
    if s.coh.dead.contains (s.agentOf (BitVec.ofNat 3 d)) then a + 2 ^ d else a) 0)
  else if 0x8280 ≤ o ∧ o < 0x82C0 then BitVec.ofNat 64 ((List.range 64).foldl (fun a c =>
    if s.sys.halfChans.contains (BitVec.ofNat 9 (64 * ((o - 0x8280) / 8) + c)) then a + 2 ^ c else a) 0)
  else if o = 0x8038 then if s.sys.contained then 1 else 0
  else if 0x8200 ≤ o ∧ o < 0x8240 then BitVec.ofNat 64 ((s.sys.lost[(o - 0x8200) / 8]?).getD 0)
  else if 0x5000 ≤ o ∧ o < 0x6000 ∧ o % 64 = 0x28 then 0
  else barHeld o (s.bar o)

/-! ## CXL, power, heat and channels (25 R373, R381; 05 R85) -/

def execCxlDynamicCapacity (s : State) : R :=
  match s.ev with
  | some (.cxlDynamicCapacity port add base len) =>
    .next (s.notify s.hubDie { code := 23, addr := base, w3 := port.setWidth 64, w4 := if add then 1 else 2, w5 := len })
  | _ => .fault .noPendingEvent
def execPowerLimit (s : State) : R :=
  match s.ev with
  | some .powerLimit => .next { s with sys := { s.sys with halved := true } }
  | _ => .fault .noPendingEvent
/-- POWER_LIMIT_CLEAR: the budgets are whole again, and waiting tasks may issue. -/
def execPowerLimitClear (s : State) : R :=
  match s.ev with
  | some .powerLimitClear => .next ({ s with sys := { s.sys with halved := false } } : State).kickAll
  | _ => .fault .noPendingEvent
/-- OVERTEMPERATURE: a machine check, with one of the sources 1 to 8, of which the manual does not say which, and a reset of
the die's partition (log entry 12). -/
def State.overtemperature (s : State) (die : BitVec 3) : State :=
  let c := Config.freeWord s.fresh
  let s : State := { s with fresh := s.fresh + 1 }
  let p := s.partOf (coreOfDie die)
  let q := (List.range 4).foldl (fun (m : BitVec 4) i => if s.sys.parts[i]? == some p then m ||| (1 <<< i) else m) 0
  ((s.notify die { code := 1 + c.toNat % 8, cause := 12 }).msix 1).after 0 (.partitionReset q)
def execOvertemperature (s : State) : R :=
  match s.ev with
  | some (.overtemperature d) => .next (s.overtemperature d)
  | _ => .fault .noPendingEvent
/-- CHANNEL_HALF_WIDTH: counted in the controller's status. -/
def State.channelHalf (s : State) (c : BitVec 9) : State :=
  let o := 0x8100 + 8 * (c.toNat / 16)
  ({ s with sys := { s.sys with halfChans := s.sys.halfChans.erase c ++ [c] } } : State).setBar o (s.bar o + 1)
def execChannelHalfWidth (s : State) : R :=
  match s.ev with
  | some (.channelHalfWidth c) => .next (s.channelHalf c)
  | _ => .fault .noPendingEvent
def execChannelFullWidth (s : State) : R :=
  match s.ev with
  | some (.channelFullWidth c) => .next { s with sys := { s.sys with halfChans := s.sys.halfChans.filter fun d => d != c } }
  | _ => .fault .noPendingEvent

/-! ## Snapshots (15 R271, 25 R383) -/

/-- SNAP_IN, a pin of the package, triggers in every partition. -/
def State.snapAll (s : State) : State := (s.sys.parts.toList.eraseDups).foldl (fun s p => s.snapTrigger p) s
def execSnapIn (s : State) : R :=
  match s.ev with
  | some .snapIn => .next s.snapAll
  | _ => .fault .noPendingEvent
/-- SNAPSHOT_THRESHOLD: the trigger of the partition of the core whose counter the register names. -/
def State.thresholdReached (s : State) : State :=
  match s.threshold with
  | some (c, _) => s.snapTrigger (s.partOf c)
  | none => s
def execSnapshotThreshold (s : State) : R :=
  match s.ev with
  | some .snapshotThreshold => .next s.thresholdReached
  | _ => .fault .noPendingEvent
/-- SNAPSHOT_LATCH: every block of the partition, and the hub's, latches %cyc, its counters and its state word. -/
def State.snapshotLatch (s : State) (p : BitVec 2) : State :=
  let mine := fun (i : Fin 5) => if h : i.val < 4 then s.sys.parts[i.val] == p else true
  { s with
    fresh := s.fresh + 1
    snapAt := s.snapAt.filter fun e => e.1 != p
    sys := { s.sys with
      snapCyc := Vector.ofFn fun i => if mine i then s.cycW else s.sys.snapCyc[i]
      snapSeed := Vector.ofFn fun i => if mine i then s.fresh + 1 else s.sys.snapSeed[i] }
    cores := s.cores.map fun e =>
      (e.1, if s.partOf (BitVec.ofNat 16 e.1) = p then { e.2 with snap := e.2.evc.toList.map fun v => v.setWidth 64 } else e.2) }
def execSnapshotLatch (s : State) : R :=
  match s.ev with
  | some (.snapshotLatch p) => .next (s.snapshotLatch p)
  | _ => .fault .noPendingEvent

/-! ## Scrubbing, routers (05 R87, R88; 01 R19–R24) -/

/-- SCRUB: a single-bit error is corrected and counted; an uncorrectable one is a machine check that halts nothing. -/
def State.scrub (s : State) (k : Nat) : State :=
  match s.eccOf k with
  | 0 => s
  | 1 => { s with ecc := SMap.set 0 s.ecc (k / 64) 0, sys := { s.sys with scrubCount := s.sys.scrubCount + 1 } }
  | _ => s.after 0 (.machineCheck 8 k none)
def execScrub (s : State) : R :=
  match s.ev with
  | some (.scrub k) => .next (s.scrub k)
  | _ => .fault .noPendingEvent
/-- The cycle by which every message in the routers of a partition has arrived: the last of each lane that begins or ends
there (01 R18). -/
def State.netIdleAt (s : State) (p : BitVec 2) : Nat :=
  (s.sys.lanes.filter fun e =>
    s.sys.parts[e.1 / 1024 / 64]? == some p || s.sys.parts[e.1 / 4 % 256 / 64]? == some p).foldl (fun t e => max t e.2) 0
/-- Firmware changes a router while injection at the routers of its partition is held: at once where the network is idle or
the hold ends in this cycle, else in the cycle in which it becomes idle, which also releases injection (01 R23). That the
partition is otherwise quiescent is firmware's doing. -/
def State.whileHeld (s : State) (g : BitVec 8) (e : Event) (f : State → State) : State :=
  let p := s.sys.parts[g.toNat / 64]'(by have := g.isLt; omega)
  let t := s.netIdleAt p
  if t ≤ s.cyc ∨ s.sys.holding.any (fun h => h.1 == p && h.2 == s.cyc) then f s
  else if s.sys.holding.any fun h => h.1 == p && decide (s.cyc < h.2) then
    s.sys.holding.foldl (fun s h => if h.1 = p then s.after (h.2 - s.cyc) e else s) s
  else
    ({ s with sys := { s.sys with holding := (s.sys.holding.filter fun h => h.1 != p) ++ [(p, t)] } } : State).after (t - s.cyc) e
/-- ROUTING_TABLE_LOAD: an entry of a router's table takes its output port (01 R19, R22). -/
def State.loadRoute (s : State) (g dest : BitVec 8) (port : Port) : State :=
  s.whileHeld g (.routingTableLoad g dest port) fun s =>
    { s with sys := { s.sys with routes := SMap.set none s.sys.routes (256 * g.toNat + dest.toNat) (some port) } }
/-- A router is set to passive bypass, and its supergroup is marked absent; or it is set back to service (01 R21). -/
def State.setBypass (s : State) (g : BitVec 8) (on : Bool) : State :=
  s.whileHeld g (.bypassSet g on) fun s =>
    let l := s.sys.bypass.filter fun r => r != g
    if on then
      let o := 0x1000 + 8 * (g.toNat / 64)
      ({ s with sys := { s.sys with bypass := l ++ [g] } } : State).setBar o (s.bar o ||| (1 <<< (g.toNat % 64)))
    else { s with sys := { s.sys with bypass := l } }
def execRoutingTableLoad (s : State) : R :=
  match s.ev with
  | some (.routingTableLoad g d p) => .next (s.loadRoute g d p)
  | some (.bypassSet g on) => .next (s.setBypass g on)
  | some (.packageRouteLoad p l) => .next (s.loadPackageRoute p l)
  | _ => .fault .noPendingEvent
/-- The agents that wait for a message or its reply: for a message of the coherence of a line, every access of the die that
waits for the line. -/
def State.messageWaiters (s : State) (e : Event) : List Agent :=
  let line := fun (a : AgentId) (l : Nat) => match s.dieOfAgent a with | some d => s.waitingOn d (s.heldAs d l) | none => []
  match e with
  | .longLatencyComplete c o r => [.lsu c o r.part]
  | .remoteRequest q | .requestLeave _ q => q.who.toList
  | .lineMiss l _ q => s.waitingOn (dieOf q.core) l
  | .rds q | .rdx q | .upg q => line q.agent q.line
  | .data false l a .. | .datax false l a .. | .cmpMsg false l a .. => line a l
  | .emulationRoundTrip c x | .emulationAnswer c x _ => [.park c x]
  | e => e.agent?.toList
/-- What a lost message leaves behind: a cache's miss, a die's request, or a request to another package is given up. -/
def State.forgetMessage (s : State) (e : Event) : State :=
  let drop := fun (s : State) (a : AgentId) (l : Nat) => match s.dieOfAgent a with
    | some d => { s with coh := { s.coh with dieReqs := s.coh.dieReqs.filter fun r => !(r.die == d && r.line == s.heldAs d l) } }
    | none => s
  match e with
  | .lineMiss l x q => { s with coh := { s.coh with misses := s.coh.misses.erase (sgIdx q.core, l, x) } }
  | .rds q | .rdx q | .upg q => drop s q.agent q.line
  | .data false l a .. | .datax false l a .. | .cmpMsg false l a .. => drop s a l
  | .requestLeave _ q => { s with sys := { s.sys with tokens := s.sys.tokens.filter fun t => t.req.id != q.id } }
  | _ => s
/-- The messages of the mesh by their places: those on the agenda, then those that wait at their routers. -/
def State.heldAt (s : State) (i : Nat) : Option (Nat × Event) :=
  match s.agenda[i]? with
  | some e => e.2.meshKind?.map fun k => (k, e.2)
  | none => (s.sys.waiting[i - s.agenda.length]?).bind fun m => m.2.2.2.meshKind?.map fun k => (k, m.2.2.2)
/-- A list without the elements at some places. -/
def dropAt {α : Type} (l : List Nat) (xs : List α) : List α :=
  ((List.range xs.length).zip xs).filterMap fun e => if l.contains e.1 then none else some e.2
/-- ROUTER_FAILURE: the messages that the router held, of whatever class, are not delivered; the contexts that wait for their
replies halt with the containment trap; the record lists the messages, in words whose layout the manual does not give (01
R24, 21 Table 21-11; log entry 87). -/
def State.routerFailure (s : State) (g : BitVec 8) (held : List Nat) : State :=
  let l := held.filter fun i => (s.heldAt i).isSome
  let msgs := l.filterMap s.heldAt
  let waits := msgs.map fun m => (m.1, s.messageWaiters m.2)
  let who := fun (w : List Agent) => match w with
    | a :: _ => let i := s.agentInfo a; whoWord i.core i.ctx i.priv.code i.pkg i.asid
    | [] => 0
  let words := Config.heldMessages (waits.map fun m => (m.1, who m.2))
  let n := s.agenda.length
  let s : State := { s with
    agenda := dropAt l s.agenda
    sys := { s.sys with waiting := dropAt ((l.filter fun i => n ≤ i).map fun i => i - n) s.sys.waiting } }
  let s := msgs.foldl (fun s m => s.forgetMessage m.2) s
  let s := (waits.flatMap Prod.snd).eraseDups.foldl (fun s w => s.containAgent w) s
  (s.notify (dieOfSg g) { code := 6, cause := 12, w4 := words 0, w5 := words 1, w6 := words 2 }).msix 1
def execRouterFailure (s : State) : R :=
  match s.ev with
  | some (.routerFailure g l) => .next (s.routerFailure g l)
  | _ => .fault .noPendingEvent

end Sys2Proof.Machine
end

