-- ==== Sys2Proof/Machine/Vector.lean ====
section
/-! DEFINITION. Vector instructions of majors 0x60–0x6C: lanes, masks, arithmetic, conversion, reduction and movement
(13 R190–R204). -/
namespace Sys2Proof.Machine

/-- Lane `i` of `w` bits (13 R190). -/
def lane (w : Nat) (x : BitVec 256) (i : Nat) : BitVec w := x.extractLsb' (w * i) w
def setLane (w : Nat) (x : BitVec 256) (i : Nat) (v : BitVec w) : BitVec 256 :=
  (x &&& ~~~((BitVec.allOnes w).setWidth 256 <<< (w * i))) ||| (v.setWidth 256 <<< (w * i))

/-- Replace each of the `n` low lanes whose mask bit is 1 by `f` of its index, collecting flags. -/
def overLanes (w : Nat) (m : BitVec 32) (d : BitVec 256) (f : Nat → Nat × FFlags) : Nat → BitVec 256 × FFlags
  | 0 => (d, 0)
  | n + 1 =>
    let r := overLanes w m d f n
    if m.getLsbD n then
      let v := f n
      (setLane w r.1 n (BitVec.ofNat w v.1), r.2 ||| v.2)
    else r

/-- A vector instruction that writes active lanes of v[D] (13 R191, R192). -/
def vecV (p : Pred) (n w : Nat) (d : V) (s : State) (f : Ctx → Nat → Nat × FFlags) : R :=
  issueV p n 8 s fun c m t =>
    let r := overLanes w m (c.getV d) (f c) n
    .ok ((t.putV d r.1).raiseFlags r.2)

/-- One lane of a type's operation: the float form where the type has one, else the integer form. -/
def laneOp (ty : Ty) (ff : FFmt → FEnv → Nat → Nat → Nat × FFlags) (fi : (w : Nat) → BitVec w → BitVec w → BitVec w)
    (env : FEnv) (x y : Nat) : Nat × FFlags :=
  match Ty.fmt? ty with
  | some f => ff f env x y
  | none => ((fi ty.width (BitVec.ofNat ty.width x) (BitVec.ofNat ty.width y)).toNat, 0)

/-- VOP (13 R193). -/
def vop (p : Pred) (ty : Ty) (d a b : V) (s : State) (ff : FFmt → FEnv → Nat → Nat → Nat × FFlags)
    (fi : (w : Nat) → BitVec w → BitVec w → BitVec w) : R :=
  vecV p ty.lanes ty.width d s fun c i =>
    laneOp ty ff fi c.fenv (lane ty.width (c.getV a) i).toNat (lane ty.width (c.getV b) i).toNat

/-- For a minor that accepts no float type: the raw bits. -/
def noFloat (_f : FFmt) (_e : FEnv) (x _y : Nat) : Nat × FFlags := (x, 0)

/-- Smaller and larger value: signed for .s, unsigned for .z. -/
def intMin (ty : Ty) (w : Nat) (x y : BitVec w) : BitVec w :=
  if ty.isS then (if x.sle y then x else y) else (if x.ule y then x else y)
def intMax (ty : Ty) (w : Nat) (x y : BitVec w) : BitVec w :=
  if ty.isS then (if x.sle y then y else x) else (if x.ule y then y else x)
/-- Clamped to the type's range. -/
def intClamp (ty : Ty) (w : Nat) (f : Int → Int → Int) (x y : BitVec w) : BitVec w :=
  if ty.isS then clampS w (f x.toInt y.toInt) else clampU w (f x.toNat y.toNat)
/-- The high half of the product. -/
def intMulhi (ty : Ty) (w : Nat) (x y : BitVec w) : BitVec w :=
  if ty.isS then BitVec.ofInt w (x.toInt * y.toInt / 2 ^ w) else BitVec.ofNat w (x.toNat * y.toNat / 2 ^ w)

def execVopAdd (p : Pred) (ty : Ty) (d a b : V) (s : State) : R :=
  vop p ty d a b s fAdd (fun _ x y => x + y)
def execVopSub (p : Pred) (ty : Ty) (d a b : V) (s : State) : R :=
  vop p ty d a b s fSub (fun _ x y => x - y)
def execVopMul (p : Pred) (ty : Ty) (d a b : V) (s : State) : R :=
  vop p ty d a b s fMul (fun _ x y => x * y)
def execVopMin (p : Pred) (ty : Ty) (d a b : V) (s : State) : R :=
  vop p ty d a b s (fun f e => fMinMax f e false) (intMin ty)
def execVopMax (p : Pred) (ty : Ty) (d a b : V) (s : State) : R :=
  vop p ty d a b s (fun f e => fMinMax f e true) (intMax ty)
def execVopAdds (p : Pred) (ty : Ty) (d a b : V) (s : State) : R :=
  vop p ty d a b s noFloat (fun w => intClamp ty w fun i j => i + j)
def execVopSubs (p : Pred) (ty : Ty) (d a b : V) (s : State) : R :=
  vop p ty d a b s noFloat (fun w => intClamp ty w fun i j => i - j)
def execVopAnd (p : Pred) (ty : Ty) (d a b : V) (s : State) : R :=
  vop p ty d a b s noFloat (fun _ x y => x &&& y)
def execVopOr (p : Pred) (ty : Ty) (d a b : V) (s : State) : R :=
  vop p ty d a b s noFloat (fun _ x y => x ||| y)
def execVopXor (p : Pred) (ty : Ty) (d a b : V) (s : State) : R :=
  vop p ty d a b s noFloat (fun _ x y => x ^^^ y)
def execVopAndn (p : Pred) (ty : Ty) (d a b : V) (s : State) : R :=
  vop p ty d a b s noFloat (fun _ x y => x &&& ~~~y)
def execVopShl (p : Pred) (ty : Ty) (d a b : V) (s : State) : R :=
  vop p ty d a b s noFloat (fun w x y => x <<< (y.toNat % w))
def execVopShr (p : Pred) (ty : Ty) (d a b : V) (s : State) : R :=
  vop p ty d a b s noFloat (fun w x y => x >>> (y.toNat % w))
def execVopSar (p : Pred) (ty : Ty) (d a b : V) (s : State) : R :=
  vop p ty d a b s noFloat (fun w x y => x.sshiftRight (y.toNat % w))
def execVopMulhi (p : Pred) (ty : Ty) (d a b : V) (s : State) : R :=
  vop p ty d a b s noFloat (intMulhi ty)
def execVopAbs (p : Pred) (ty : Ty) (d a : V) (s : State) : R :=
  vop p ty d a a s (fun f e x _ => (f.inputBits e x % 2 ^ (f.w + f.x), 0)) (fun _ x _ => if x.msb then -x else x)
def execVopNeg (p : Pred) (ty : Ty) (d a : V) (s : State) : R :=
  vop p ty d a a s (fun f e x _ => (f.inputBits e x ^^^ 2 ^ (f.w + f.x), 0)) (fun _ x _ => -x)

/-- VFMA's four values (13 R194). -/
def vfma (np nc : Bool) (p : Pred) (ty : Ty) (d a b c : V) (s : State) : R :=
  vecV p ty.lanes ty.width d s fun k i =>
    fFma ((Ty.fmt? ty).getD fmtF32) k.fenv np nc (lane ty.width (k.getV a) i).toNat (lane ty.width (k.getV b) i).toNat
      (lane ty.width (k.getV c) i).toNat
def execVfma (p : Pred) (ty : Ty) (d a b c : V) (s : State) : R := vfma false false p ty d a b c s
def execVfmaFms (p : Pred) (ty : Ty) (d a b c : V) (s : State) : R := vfma false true p ty d a b c s
def execVfmaFnma (p : Pred) (ty : Ty) (d a b c : V) (s : State) : R := vfma true false p ty d a b c s
def execVfmaFnms (p : Pred) (ty : Ty) (d a b c : V) (s : State) : R := vfma true true p ty d a b c s

/-- VDIV and VSQRT: long-latency; lanes and flags are written at completion (13 R195, 09 R126). -/
def vlong (p : Pred) (n : La) (ty : Ty) (d : V) (s : State) (f : Ctx → Nat → Nat × FFlags) : R :=
  issueV p ty.lanes 8 s fun c m t =>
    let r := overLanes ty.width m (c.getV d) (f c) ty.lanes
    .ok ((t.addOp c 8 n (.calcV d r.1 r.2) (vMask := vBit d)).after (if ty.width = 32 then 55 else 31)
      (.longLatencyComplete t.slot t.opId (.advance 0)))
def execVdiv (p : Pred) (n : La) (ty : Ty) (d a b : V) (s : State) : R :=
  vlong p n ty d s fun c i =>
    fDiv ((Ty.fmt? ty).getD fmtF32) c.fenv (lane ty.width (c.getV a) i).toNat (lane ty.width (c.getV b) i).toNat
def execVsqrt (p : Pred) (n : La) (ty : Ty) (d a : V) (s : State) : R :=
  vlong p n ty d s fun c i => fSqrt ((Ty.fmt? ty).getD fmtF32) c.fenv (lane ty.width (c.getV a) i).toNat

/-- The integer condition of a VCMP (13 R197). -/
def VCondInt (cc : VCond) (w : Nat) (x y : BitVec w) : Bool :=
  match cc with
  | .eq => Cond.holds .eq x y | .ne => Cond.holds .ne x y | .lt => Cond.holds .lt x y | .ge => Cond.holds .ge x y
  | .ltu => Cond.holds .ltu x y | .geu => Cond.holds .geu x y | .le => Cond.holds .le x y
  | .gt => Cond.holds .gt x y | .leu => Cond.holds .leu x y | .gtu => Cond.holds .gtu x y
  | .un => false
/-- A lane's condition and flags. -/
def vcmpLane (cc : VCond) (ty : Ty) (env : FEnv) (x y : BitVec ty.width) : Bool × FFlags :=
  match Ty.fmt? ty with
  | some f => fCmp f env cc x.toNat y.toNat
  | none => (VCondInt cc ty.width x y, 0)
/-- The predicate result: active lanes take the condition, inactive lanes keep their bits, bits n and above are zero. -/
def vcmpBits (m old : BitVec 32) (f : Nat → Bool × FFlags) : Nat → BitVec 32 × FFlags
  | 0 => (0, 0)
  | n + 1 =>
    let r := vcmpBits m old f n
    let b := if m.getLsbD n then f n else (old.getLsbD n, 0)
    (r.1 ||| (if b.1 then 1 <<< n else 0), r.2 ||| b.2)
def execVcmp (p : Pred) (cc : VCond) (ty : Ty) (d : P) (a b : V) (s : State) : R :=
  issueV p ty.lanes 8 s fun c m t =>
    let r := vcmpBits m (c.getP d)
      (fun i => vcmpLane cc ty c.fenv (lane ty.width (c.getV a) i) (lane ty.width (c.getV b) i)) ty.lanes
    .ok ((t.putP d r.1).raiseFlags r.2)

def execVsel (p : Pred) (ty : Ty) (d a b : V) (q : P) (s : State) : R :=
  vecV p ty.lanes ty.width d s fun c i =>
    ((lane ty.width (c.getV (if (c.getP q).getLsbD i then a else b)) i).toNat, 0)

/-- Lanes of a conversion: the lane count of the wider type (13 R199). -/
def cvtLanes (src dst : Ty) : Nat := 256 / max src.width dst.width
/-- The source element of lane `k`, when part `j` is converted. -/
def cvtSrc (src dst : Ty) (j k : Nat) : Nat := if dst.width ≤ src.width then k else j * cvtLanes src dst + k
/-- Elements decoded as the .t2 code 0b10, each of which counts the event "format error" (09 R121). -/
def cvtBad (src dst : Ty) (j : Nat) (m : BitVec 32) (a : BitVec 256) : Nat :=
  if src = .t2 then
    ((List.range (cvtLanes src dst)).filter fun k => m.getLsbD k && (lane 2 a (cvtSrc src dst j k)).toNat == 2).length
  else 0
/-- Elements that VCVT writes (13 R200). -/
def cvtOver (src dst : Ty) (j : Nat) (m : BitVec 32) (env : FEnv) (eb : Nat) (a d : BitVec 256) :
    Nat → BitVec 256 × FFlags
  | 0 => (d, 0)
  | k + 1 =>
    let r := cvtOver src dst j m env eb a d k
    if m.getLsbD k then
      let n := cvtLanes src dst
      let i := cvtSrc src dst j k
      let o := if dst.width ≤ src.width then j * n + k else k
      let v := convert env src dst eb (lane src.width a i).toNat
      (setLane dst.width r.1 o (BitVec.ofNat dst.width v.1), r.2 ||| v.2)
    else r
def execVcvt (p : Pred) (src : Ty) (j : BitVec 4) (dst : Ty) (d a : V) (c : G) (s : State) : R :=
  issueV p (cvtLanes src dst) 8 s fun k m t =>
    let r := cvtOver src dst j.toNat m k.fenv ((k.getG c).toNat % 256) (k.getV a) (k.getV d) (cvtLanes src dst)
    .ok (((t.putV d r.1).raiseFlags r.2).countN t.slot 5 (cvtBad src dst j.toNat m (k.getV a)))

/-! ## Reduction (13 R201) -/

/-- One pair of the tree: t[i], live[i] with t[j], live[j]. -/
def redPair (op : Nat → Nat → Nat × FFlags) (x y : Option Nat) : Option Nat × FFlags :=
  match x, y with
  | some a, some b => let r := op a b; (some r.1, r.2)
  | none, some b => (some b, 0)
  | x, none => (x, 0)
/-- One level: neighbours are joined, the left one first. -/
def redLevel (op : Nat → Nat → Nat × FFlags) : List (Option Nat) → List (Option Nat) × FFlags
  | x :: y :: r =>
    let h := redPair op x y
    let q := redLevel op r
    (h.1 :: q.1, h.2 ||| q.2)
  | l => (l, 0)
/-- `k` levels. -/
def redTree (op : Nat → Nat → Nat × FFlags) (l : List (Option Nat)) : Nat → Option Nat × FFlags
  | 0 => (l.headD none, 0)
  | k + 1 =>
    let r := redLevel op l
    let q := redTree op r.1 k
    (q.1, r.2 ||| q.2)
/-- A lane as a reduction reads it: with FlushIn a subnormal input is a zero, be it the only active lane (09 R129). -/
def redInput (ty : Ty) (env : FEnv) (x : Nat) : Nat :=
  match Ty.fmt? ty with
  | some f => f.inputBits env x
  | none => x
/-- The result in a general register: .s sign-extended, others zero-extended. -/
def Ty.toG (ty : Ty) (x : Nat) : Word :=
  if ty.isS then (BitVec.ofNat ty.width x).signExtend 64 else BitVec.ofNat 64 (x % 2 ^ ty.width)
def vred (p : Pred) (ty : Ty) (d : G) (a : V) (s : State) (ff : FFmt → FEnv → Nat → Nat → Nat × FFlags)
    (fi : (w : Nat) → BitVec w → BitVec w → BitVec w) : R :=
  issueV p ty.lanes 8 s fun c m t =>
    let l := (List.range ty.lanes).map fun i =>
      if m.getLsbD i then some (redInput ty c.fenv (lane ty.width (c.getV a) i).toNat) else none
    let r := redTree (laneOp ty ff fi c.fenv) l 5
    .ok ((t.putG d (Ty.toG ty (r.1.getD 0))).raiseFlags r.2)
def execVredAdd (p : Pred) (ty : Ty) (d : G) (a : V) (s : State) : R := vred p ty d a s fAdd (fun _ x y => x + y)
def execVredMin (p : Pred) (ty : Ty) (d : G) (a : V) (s : State) : R :=
  vred p ty d a s (fun f e => fMinMax f e false) (intMin ty)
def execVredMax (p : Pred) (ty : Ty) (d : G) (a : V) (s : State) : R :=
  vred p ty d a s (fun f e => fMinMax f e true) (intMax ty)
def execVredAnd (p : Pred) (ty : Ty) (d : G) (a : V) (s : State) : R := vred p ty d a s noFloat (fun _ x y => x &&& y)
def execVredOr (p : Pred) (ty : Ty) (d : G) (a : V) (s : State) : R := vred p ty d a s noFloat (fun _ x y => x ||| y)
def execVredXor (p : Pred) (ty : Ty) (d : G) (a : V) (s : State) : R := vred p ty d a s noFloat (fun _ x y => x ^^^ y)

/-! ## Lane movement (13 R202–R204) -/

/-- The lane that an index selects from two sources (13 R202). -/
def permLane (ty : Ty) (a c : BitVec 256) (x : Nat) : Nat :=
  let n := ty.lanes
  if 2 ^ (ty.width - 1) ≤ x then 0
  else if x % (2 * n) < n then (lane ty.width a (x % (2 * n))).toNat
  else (lane ty.width c (x % (2 * n) - n)).toNat
def execVperm (p : Pred) (ty : Ty) (d a b c : V) (s : State) : R :=
  vecV p ty.lanes ty.width d s fun k i =>
    (permLane ty (k.getV a) (k.getV c) (lane ty.width (k.getV b) i).toNat, 0)
def execVbcast (p : Pred) (ty : Ty) (d : V) (a : G) (s : State) : R :=
  vecV p ty.lanes ty.width d s fun c _ => ((c.getG a).toNat, 0)
def execVbcastLane (p : Pred) (ty : Ty) (d a : V) (idx : BitVec 5) (s : State) : R :=
  vecV p ty.lanes ty.width d s fun c _ => ((lane ty.width (c.getV a) idx.toNat).toNat, 0)
def execVins (p : Pred) (ty : Ty) (d : V) (a : G) (idx : BitVec 5) (s : State) : R :=
  issueV p ty.lanes 8 s fun c m t =>
    .ok (if m.getLsbD idx.toNat then
        t.putV d (setLane ty.width (c.getV d) idx.toNat ((c.getG a).setWidth ty.width))
      else t)
def execVext (p : Pred) (ty : Ty) (d : G) (a : V) (idx : BitVec 5) (s : State) : R :=
  issueV p ty.lanes 8 s fun c m t =>
    .ok (if m.getLsbD idx.toNat then t.putG d (Ty.toG ty (lane ty.width (c.getV a) idx.toNat).toNat) else t)
def execVmov (p : Pred) (ty : Ty) (d a : V) (s : State) : R :=
  vecV p ty.lanes ty.width d s fun c i => ((lane ty.width (c.getV a) i).toNat, 0)
def execVmovZero (p : Pred) (ty : Ty) (d : V) (s : State) : R :=
  vecV p ty.lanes ty.width d s fun _ _ => (0, 0)

/-! ## Dot products (13 R196) -/

/-- An integer element's value in a dot product. -/
def dotInt (ty : Ty) (x : BitVec 256) (i : Nat) : Int := (intValue ty (lane ty.width x i).toNat).1
def dotLane (ty : Ty) (env : FEnv) (d a b : BitVec 256) (i : Nat) : Nat × FFlags :=
  match Ty.fmt? ty with
  | some f => fDot2 f env (lane 32 d i).toNat (lane 16 a (2 * i)).toNat (lane 16 b (2 * i)).toNat
      (lane 16 a (2 * i + 1)).toNat (lane 16 b (2 * i + 1)).toNat
  | none =>
    let k := 32 / ty.width
    let sum := (List.range k).foldl (fun acc j => acc + dotInt ty a (k * i + j) * dotInt ty b (k * i + j)) (0 : Int)
    ((BitVec.ofInt 32 ((lane 32 d i).toInt + sum)).toNat, 0)
def execVdot (p : Pred) (ty : Ty) (d a b : V) (s : State) : R :=
  vecV p 8 32 d s fun c i => dotLane ty c.fenv (c.getV d) (c.getV a) (c.getV b) i

end Sys2Proof.Machine
end

