-- ==== Sys2Proof/Machine/Dispatch.lean ====
section
/-! DEFINITION. The dispatch: one arm per constructor, each one direct call of its meaning. -/
namespace Sys2Proof.Machine

def exec (i : Instr) (s : State) : Host.Outcome State Fault Refusal :=
  match i with
  | .nop p imm => Sys2Proof.Machine.execNop p imm s
  | .bra p off => Sys2Proof.Machine.execBra p off s
  | .jmp p a => Sys2Proof.Machine.execJmp p a s
  | .call p off => Sys2Proof.Machine.execCall p off s
  | .callr p a => Sys2Proof.Machine.execCallr p a s
  | .ret p a => Sys2Proof.Machine.execRet p a s
  | .brc p cc w a b off => Sys2Proof.Machine.execBrc p cc w a b off s
  | .aluAdd p w d a b => Sys2Proof.Machine.execAluAdd p w d a b s
  | .aluSub p w d a b => Sys2Proof.Machine.execAluSub p w d a b s
  | .aluAnd p w d a b => Sys2Proof.Machine.execAluAnd p w d a b s
  | .aluOr p w d a b => Sys2Proof.Machine.execAluOr p w d a b s
  | .aluXor p w d a b => Sys2Proof.Machine.execAluXor p w d a b s
  | .aluAndn p w d a b => Sys2Proof.Machine.execAluAndn p w d a b s
  | .aluOrn p w d a b => Sys2Proof.Machine.execAluOrn p w d a b s
  | .aluXnor p w d a b => Sys2Proof.Machine.execAluXnor p w d a b s
  | .aluMin p w d a b => Sys2Proof.Machine.execAluMin p w d a b s
  | .aluMax p w d a b => Sys2Proof.Machine.execAluMax p w d a b s
  | .aluMinu p w d a b => Sys2Proof.Machine.execAluMinu p w d a b s
  | .aluMaxu p w d a b => Sys2Proof.Machine.execAluMaxu p w d a b s
  | .aluAdds p w d a b => Sys2Proof.Machine.execAluAdds p w d a b s
  | .aluSubs p w d a b => Sys2Proof.Machine.execAluSubs p w d a b s
  | .aluAddsu p w d a b => Sys2Proof.Machine.execAluAddsu p w d a b s
  | .aluSubsu p w d a b => Sys2Proof.Machine.execAluSubsu p w d a b s
  | .aluMov p w d a => Sys2Proof.Machine.execAluMov p w d a s
  | .aluNeg p w d a => Sys2Proof.Machine.execAluNeg p w d a s
  | .aluNot p w d a => Sys2Proof.Machine.execAluNot p w d a s
  | .addi p d a imm => Sys2Proof.Machine.execAddi p d a imm s
  | .andi p d a imm => Sys2Proof.Machine.execAndi p d a imm s
  | .ori p d a imm => Sys2Proof.Machine.execOri p d a imm s
  | .xori p d a imm => Sys2Proof.Machine.execXori p d a imm s
  | .movi p d imm => Sys2Proof.Machine.execMovi p d imm s
  | .movhi p d a imm => Sys2Proof.Machine.execMovhi p d a imm s
  | .mulLo p d a b => Sys2Proof.Machine.execMulLo p d a b s
  | .mulHi p d a b => Sys2Proof.Machine.execMulHi p d a b s
  | .mulHiu p d a b => Sys2Proof.Machine.execMulHiu p d a b s
  | .mulMad p d a b c => Sys2Proof.Machine.execMulMad p d a b c s
  | .divS p n w d a b => Sys2Proof.Machine.execDivS p n w d a b s
  | .divU p n w d a b => Sys2Proof.Machine.execDivU p n w d a b s
  | .divRem p n w d a b => Sys2Proof.Machine.execDivRem p n w d a b s
  | .divRemu p n w d a b => Sys2Proof.Machine.execDivRemu p n w d a b s
  | .bitsShl p d a b => Sys2Proof.Machine.execBitsShl p d a b s
  | .bitsShr p d a b => Sys2Proof.Machine.execBitsShr p d a b s
  | .bitsSar p d a b => Sys2Proof.Machine.execBitsSar p d a b s
  | .bitsRol p d a b => Sys2Proof.Machine.execBitsRol p d a b s
  | .bitsRor p d a b => Sys2Proof.Machine.execBitsRor p d a b s
  | .bitsShli p d a k => Sys2Proof.Machine.execBitsShli p d a k s
  | .bitsShri p d a k => Sys2Proof.Machine.execBitsShri p d a k s
  | .bitsSari p d a k => Sys2Proof.Machine.execBitsSari p d a k s
  | .bitsRoli p d a k => Sys2Proof.Machine.execBitsRoli p d a k s
  | .bitsRori p d a k => Sys2Proof.Machine.execBitsRori p d a k s
  | .bitsClz p d a => Sys2Proof.Machine.execBitsClz p d a s
  | .bitsCtz p d a => Sys2Proof.Machine.execBitsCtz p d a s
  | .bitsPopc p d a => Sys2Proof.Machine.execBitsPopc p d a s
  | .bitsBrev p d a => Sys2Proof.Machine.execBitsBrev p d a s
  | .bitsBswap p d a => Sys2Proof.Machine.execBitsBswap p d a s
  | .fieldExt p d a b => Sys2Proof.Machine.execFieldExt p d a b s
  | .fieldExts p d a b => Sys2Proof.Machine.execFieldExts p d a b s
  | .fieldIns p d a b => Sys2Proof.Machine.execFieldIns p d a b s
  | .fieldMask p d b => Sys2Proof.Machine.execFieldMask p d b s
  | .movw p d imm => Sys2Proof.Machine.execMovw p d imm s
  | .sel p d a b c => Sys2Proof.Machine.execSel p d a b c s
  | .lea p d a b k => Sys2Proof.Machine.execLea p d a b k s
  | .leaOff p d a b k => Sys2Proof.Machine.execLeaOff p d a b k s
  | .cmp p cc w m d a b => Sys2Proof.Machine.execCmp p cc w m d a b s
  | .cmpi p cc d a imm => Sys2Proof.Machine.execCmpi p cc d a imm s
  | .plogAnd p d a b => Sys2Proof.Machine.execPlogAnd p d a b s
  | .plogOr p d a b => Sys2Proof.Machine.execPlogOr p d a b s
  | .plogXor p d a b => Sys2Proof.Machine.execPlogXor p d a b s
  | .plogAndn p d a b => Sys2Proof.Machine.execPlogAndn p d a b s
  | .plogOrn p d a b => Sys2Proof.Machine.execPlogOrn p d a b s
  | .plogNand p d a b => Sys2Proof.Machine.execPlogNand p d a b s
  | .plogNor p d a b => Sys2Proof.Machine.execPlogNor p d a b s
  | .plogXnor p d a b => Sys2Proof.Machine.execPlogXnor p d a b s
  | .plogNot p d a => Sys2Proof.Machine.execPlogNot p d a s
  | .pmovG2p p d a => Sys2Proof.Machine.execPmovG2p p d a s
  | .pmovP2g p d a => Sys2Proof.Machine.execPmovP2g p d a s
  | .pmovBc p d a => Sys2Proof.Machine.execPmovBc p d a s
  | .coordTile p d a => Sys2Proof.Machine.execCoordTile p d a s
  | .coordGroup p d a => Sys2Proof.Machine.execCoordGroup p d a s
  | .coordSgrp p d a => Sys2Proof.Machine.execCoordSgrp p d a s
  | .coordDie p d a => Sys2Proof.Machine.execCoordDie p d a s
  | .coordPres p d a => Sys2Proof.Machine.execCoordPres p d a s
  | .coordHmap p d a => Sys2Proof.Machine.execCoordHmap p d a s
  | .coordLocal p d a => Sys2Proof.Machine.execCoordLocal p d a s
  | .mka p lvl rel d a b => Sys2Proof.Machine.execMka p lvl rel d a b s
  | .mkg p d a b => Sys2Proof.Machine.execMkg p d a b s
  | .mkgOwn p d b => Sys2Proof.Machine.execMkgOwn p d b s
  | .ld p n sz d a disp => Sys2Proof.Machine.execLd p n sz d a disp s
  | .ldx p n sz sc d a b => Sys2Proof.Machine.execLdx p n sz sc d a b s
  | .st p n sz d a disp => Sys2Proof.Machine.execSt p n sz d a disp s
  | .stx p n sz sc d a b => Sys2Proof.Machine.execStx p n sz sc d a b s
  | .ldm p n c d a disp => Sys2Proof.Machine.execLdm p n c d a disp s
  | .stm p n c d a disp => Sys2Proof.Machine.execStm p n c d a disp s
  | .ldq p n d a disp => Sys2Proof.Machine.execLdq p n d a disp s
  | .ldtry p n sz d a disp => Sys2Proof.Machine.execLdtry p n sz d a disp s
  | .bwait p n d a disp => Sys2Proof.Machine.execBwait p n d a disp s
  | .clr p a disp => Sys2Proof.Machine.execClr p a disp s
  | .clrn p a b => Sys2Proof.Machine.execClrn p a b s
  | .prefS p a disp => Sys2Proof.Machine.execPrefS p a disp s
  | .prefX p a disp => Sys2Proof.Machine.execPrefX p a disp s
  | .aopSwap p n far ty scope order d a b => Sys2Proof.Machine.execAopSwap p n far ty scope order d a b s
  | .aopAdd p n far ty scope order d a b => Sys2Proof.Machine.execAopAdd p n far ty scope order d a b s
  | .aopAnd p n far ty scope order d a b => Sys2Proof.Machine.execAopAnd p n far ty scope order d a b s
  | .aopOr p n far ty scope order d a b => Sys2Proof.Machine.execAopOr p n far ty scope order d a b s
  | .aopXor p n far ty scope order d a b => Sys2Proof.Machine.execAopXor p n far ty scope order d a b s
  | .aopMin p n far ty scope order d a b => Sys2Proof.Machine.execAopMin p n far ty scope order d a b s
  | .aopMax p n far ty scope order d a b => Sys2Proof.Machine.execAopMax p n far ty scope order d a b s
  | .acas p n far q ty scope order d a b c => Sys2Proof.Machine.execAcas p n far q ty scope order d a b c s
  | .redAdd p n ty scope order a b => Sys2Proof.Machine.execRedAdd p n ty scope order a b s
  | .redAnd p n ty scope order a b => Sys2Proof.Machine.execRedAnd p n ty scope order a b s
  | .redOr p n ty scope order a b => Sys2Proof.Machine.execRedOr p n ty scope order a b s
  | .redXor p n ty scope order a b => Sys2Proof.Machine.execRedXor p n ty scope order a b s
  | .redMin p n ty scope order a b => Sys2Proof.Machine.execRedMin p n ty scope order a b s
  | .redMax p n ty scope order a b => Sys2Proof.Machine.execRedMax p n ty scope order a b s
  | .post p n sz scope order a b => Sys2Proof.Machine.execPost p n sz scope order a b s
  | .vopAdd p ty d a b => Sys2Proof.Machine.execVopAdd p ty d a b s
  | .vopSub p ty d a b => Sys2Proof.Machine.execVopSub p ty d a b s
  | .vopMul p ty d a b => Sys2Proof.Machine.execVopMul p ty d a b s
  | .vopMin p ty d a b => Sys2Proof.Machine.execVopMin p ty d a b s
  | .vopMax p ty d a b => Sys2Proof.Machine.execVopMax p ty d a b s
  | .vopAbs p ty d a => Sys2Proof.Machine.execVopAbs p ty d a s
  | .vopNeg p ty d a => Sys2Proof.Machine.execVopNeg p ty d a s
  | .vopAdds p ty d a b => Sys2Proof.Machine.execVopAdds p ty d a b s
  | .vopSubs p ty d a b => Sys2Proof.Machine.execVopSubs p ty d a b s
  | .vopAnd p ty d a b => Sys2Proof.Machine.execVopAnd p ty d a b s
  | .vopOr p ty d a b => Sys2Proof.Machine.execVopOr p ty d a b s
  | .vopXor p ty d a b => Sys2Proof.Machine.execVopXor p ty d a b s
  | .vopAndn p ty d a b => Sys2Proof.Machine.execVopAndn p ty d a b s
  | .vopShl p ty d a b => Sys2Proof.Machine.execVopShl p ty d a b s
  | .vopShr p ty d a b => Sys2Proof.Machine.execVopShr p ty d a b s
  | .vopSar p ty d a b => Sys2Proof.Machine.execVopSar p ty d a b s
  | .vopMulhi p ty d a b => Sys2Proof.Machine.execVopMulhi p ty d a b s
  | .vfma p ty d a b c => Sys2Proof.Machine.execVfma p ty d a b c s
  | .vfmaFms p ty d a b c => Sys2Proof.Machine.execVfmaFms p ty d a b c s
  | .vfmaFnma p ty d a b c => Sys2Proof.Machine.execVfmaFnma p ty d a b c s
  | .vfmaFnms p ty d a b c => Sys2Proof.Machine.execVfmaFnms p ty d a b c s
  | .vdiv p n ty d a b => Sys2Proof.Machine.execVdiv p n ty d a b s
  | .vsqrt p n ty d a => Sys2Proof.Machine.execVsqrt p n ty d a s
  | .vcmp p cc ty d a b => Sys2Proof.Machine.execVcmp p cc ty d a b s
  | .vsel p ty d a b c => Sys2Proof.Machine.execVsel p ty d a b c s
  | .vcvt p src j dst d a c => Sys2Proof.Machine.execVcvt p src j dst d a c s
  | .vredAdd p ty d a => Sys2Proof.Machine.execVredAdd p ty d a s
  | .vredMin p ty d a => Sys2Proof.Machine.execVredMin p ty d a s
  | .vredMax p ty d a => Sys2Proof.Machine.execVredMax p ty d a s
  | .vredAnd p ty d a => Sys2Proof.Machine.execVredAnd p ty d a s
  | .vredOr p ty d a => Sys2Proof.Machine.execVredOr p ty d a s
  | .vredXor p ty d a => Sys2Proof.Machine.execVredXor p ty d a s
  | .vperm p ty d a b c => Sys2Proof.Machine.execVperm p ty d a b c s
  | .vbcast p ty d a => Sys2Proof.Machine.execVbcast p ty d a s
  | .vbcastLane p ty d a idx => Sys2Proof.Machine.execVbcastLane p ty d a idx s
  | .vins p ty d a idx => Sys2Proof.Machine.execVins p ty d a idx s
  | .vext p ty d a idx => Sys2Proof.Machine.execVext p ty d a idx s
  | .vdot p ty d a b => Sys2Proof.Machine.execVdot p ty d a b s
  | .vmov p ty d a => Sys2Proof.Machine.execVmov p ty d a s
  | .vmovZero p ty d => Sys2Proof.Machine.execVmovZero p ty d s
  | .vld p n g d a disp => Sys2Proof.Machine.execVld p n g d a disp s
  | .vst p n g d a disp => Sys2Proof.Machine.execVst p n g d a disp s
  | .vlds p n ty d a b => Sys2Proof.Machine.execVlds p n ty d a b s
  | .vsts p n ty d a b => Sys2Proof.Machine.execVsts p n ty d a b s
  | .vgath p n ty sc d a b => Sys2Proof.Machine.execVgath p n ty sc d a b s
  | .vscat p n ty sc d a b => Sys2Proof.Machine.execVscat p n ty sc d a b s
  | .vldb p n d a disp => Sys2Proof.Machine.execVldb p n d a disp s
  | .vstb p n d a disp => Sys2Proof.Machine.execVstb p n d a disp s
  | .copy p o a b c => Sys2Proof.Machine.execCopy p o a b c s
  | .copys p o a b c e1 e2 e3 => Sys2Proof.Machine.execCopys p o a b c e1 e2 e3 s
  | .copygG p o a b c e1 => Sys2Proof.Machine.execCopygG p o a b c e1 s
  | .copygS p o a b c e1 => Sys2Proof.Machine.execCopygS p o a b c e1 s
  | .cbatchOpen p => Sys2Proof.Machine.execCbatchOpen p s
  | .cbatchClose p => Sys2Proof.Machine.execCbatchClose p s
  | .cwait p mask => Sys2Proof.Machine.execCwait p mask s
  | .cbinit p k count => Sys2Proof.Machine.execCbinit p k count s
  | .cbwait p k => Sys2Proof.Machine.execCbwait p k s
  | .cqf p a => Sys2Proof.Machine.execCqf p a s
  | .cstat p d => Sys2Proof.Machine.execCstat p d s
  | .cstatBar p k d => Sys2Proof.Machine.execCstatBar p k d s
  | .tagl p d a => Sys2Proof.Machine.execTagl p d a s
  | .taglG p d a b => Sys2Proof.Machine.execTaglG p d a b s
  | .tags p a b c => Sys2Proof.Machine.execTags p a b c s
  | .tagi p a => Sys2Proof.Machine.execTagi p a s
  | .tagiAll p => Sys2Proof.Machine.execTagiAll p s
  | .tagiBlk p a => Sys2Proof.Machine.execTagiBlk p a s
  | .mtask p q d a => Sys2Proof.Machine.execMtask p q d a s
  | .mtqry p d a => Sys2Proof.Machine.execMtqry p d a s
  | .mtqryQ p d => Sys2Proof.Machine.execMtqryQ p d s
  | .mtcan p d a => Sys2Proof.Machine.execMtcan p d a s
  | .lyrinit p d a b => Sys2Proof.Machine.execLyrinit p d a b s
  | .lyrq p d a b => Sys2Proof.Machine.execLyrq p d a b s
  | .lyrqX p d b => Sys2Proof.Machine.execLyrqX p d b s
  | .lyrqW p d b => Sys2Proof.Machine.execLyrqW p d b s
  | .lyrref p d a => Sys2Proof.Machine.execLyrref p d a s
  | .lyrdrop p d a => Sys2Proof.Machine.execLyrdrop p d a s
  | .fence p scope order => Sys2Proof.Machine.execFence p scope order s
  | .bar p k => Sys2Proof.Machine.execBar p k s
  | .barComb p k a => Sys2Proof.Machine.execBarComb p k a s
  | .trig p => Sys2Proof.Machine.execTrig p s
  | .waitl p host d a b => Sys2Proof.Machine.execWaitl p host d a b s
  | .waitlDl p host d a b c => Sys2Proof.Machine.execWaitlDl p host d a b c s
  | .sleep p d a => Sys2Proof.Machine.execSleep p d a s
  | .sleepM p d a => Sys2Proof.Machine.execSleepM p d a s
  | .yield p => Sys2Proof.Machine.execYield p s
  | .spawn p pin a => Sys2Proof.Machine.execSpawn p pin a s
  | .tpop p d => Sys2Proof.Machine.execTpop p d s
  | .tstart p d a b c => Sys2Proof.Machine.execTstart p d a b c s
  | .treap p d a => Sys2Proof.Machine.execTreap p d a s
  | .texit p => Sys2Proof.Machine.execTexit p s
  | .rqpush p a b => Sys2Proof.Machine.execRqpush p a b s
  | .rqpushCore p a b c => Sys2Proof.Machine.execRqpushCore p a b c s
  | .rqpop p d => Sys2Proof.Machine.execRqpop p d s
  | .rqpopP p d a => Sys2Proof.Machine.execRqpopP p d a s
  | .rqpopCnt p d => Sys2Proof.Machine.execRqpopCnt p d s
  | .preempt p d a b => Sys2Proof.Machine.execPreempt p d a b s
  | .preemptQ p d a => Sys2Proof.Machine.execPreemptQ p d a s
  | .evac p d a b => Sys2Proof.Machine.execEvac p d a b s
  | .send p st en a b => Sys2Proof.Machine.execSend p st en a b s
  | .recv p d c => Sys2Proof.Machine.execRecv p d c s
  | .recvT p d c => Sys2Proof.Machine.execRecvT p d c s
  | .timer p a => Sys2Proof.Machine.execTimer p a s
  | .timerRel p a => Sys2Proof.Machine.execTimerRel p a s
  | .timerOff p => Sys2Proof.Machine.execTimerOff p s
  | .trap p code => Sys2Proof.Machine.execTrap p code s
  | .eret p => Sys2Proof.Machine.execEret p s
  | .eretNext p => Sys2Proof.Machine.execEretNext p s
  | .movsRead p d sr => Sys2Proof.Machine.execMovsRead p d sr s
  | .movsWrite p sr a => Sys2Proof.Machine.execMovsWrite p sr a s
  | .movcRead p d sr => Sys2Proof.Machine.execMovcRead p d sr s
  | .movcWrite p sr a => Sys2Proof.Machine.execMovcWrite p sr a s
  | .tlbiVa p a b => Sys2Proof.Machine.execTlbiVa p a b s
  | .tlbiAsid p b => Sys2Proof.Machine.execTlbiAsid p b s
  | .tlbiAll p => Sys2Proof.Machine.execTlbiAll p s
  | .tlbsync p => Sys2Proof.Machine.execTlbsync p s
  | .fltrd p d a b => Sys2Proof.Machine.execFltrd p d a b s
  | .fltrpl p a b => Sys2Proof.Machine.execFltrpl p a b s
  | .emur p d a b => Sys2Proof.Machine.execEmur p d a b s
  | .emuw p a b c => Sys2Proof.Machine.execEmuw p a b c s
  | .holdt p d a => Sys2Proof.Machine.execHoldt p d a s
  | .resumet p d a => Sys2Proof.Machine.execResumet p d a s
  | .snap p => Sys2Proof.Machine.execSnap p s
  | .cntrd p d a => Sys2Proof.Machine.execCntrd p d a s
  | .cntclr p a => Sys2Proof.Machine.execCntclr p a s
  | .waym p d a => Sys2Proof.Machine.execWaym p d a s
  | .sgway p d a => Sys2Proof.Machine.execSgway p d a s
  | .illegalEncoding => Sys2Proof.Machine.execIllegalEncoding s
  | .emulationRequest => Sys2Proof.Machine.execEmulationRequest s
  | .fetchBlockFill => Sys2Proof.Machine.execFetchBlockFill s
  | .longLatencyComplete => Sys2Proof.Machine.execLongLatencyComplete s
  | .bankAccess => Sys2Proof.Machine.execBankAccess s
  | .suspension => Sys2Proof.Machine.execSuspension s
  | .waiterRetry => Sys2Proof.Machine.execWaiterRetry s
  | .blockReadAtHome => Sys2Proof.Machine.execBlockReadAtHome s
  | .blockWriteGranule => Sys2Proof.Machine.execBlockWriteGranule s
  | .blockFillRelease => Sys2Proof.Machine.execBlockFillRelease s
  | .drainDescriptor => Sys2Proof.Machine.execDrainDescriptor s
  | .clrAtHome => Sys2Proof.Machine.execClrAtHome s
  | .watchIncrement => Sys2Proof.Machine.execWatchIncrement s
  | .deferredTrapReport => Sys2Proof.Machine.execDeferredTrapReport s
  | .trapDelivery => Sys2Proof.Machine.execTrapDelivery s
  | .dispatch => Sys2Proof.Machine.execDispatch s
  | .steal => Sys2Proof.Machine.execSteal s
  | .dispatchRetry => Sys2Proof.Machine.execDispatchRetry s
  | .ringRefill => Sys2Proof.Machine.execRingRefill s
  | .groupLoadRefresh => Sys2Proof.Machine.execGroupLoadRefresh s
  | .pushBalance => Sys2Proof.Machine.execPushBalance s
  | .wakeMessage => Sys2Proof.Machine.execWakeMessage s
  | .resumeContinuation => Sys2Proof.Machine.execResumeContinuation s
  | .launchTableFill => Sys2Proof.Machine.execLaunchTableFill s
  | .launchAccept => Sys2Proof.Machine.execLaunchAccept s
  | .gangPlace => Sys2Proof.Machine.execGangPlace s
  | .gangOffer => Sys2Proof.Machine.execGangOffer s
  | .triggerWrite => Sys2Proof.Machine.execTriggerWrite s
  | .completionWrite => Sys2Proof.Machine.execCompletionWrite s
  | .postedAck => Sys2Proof.Machine.execPostedAck s
  | .preemptTakeEffect => Sys2Proof.Machine.execPreemptTakeEffect s
  | .saveWrite => Sys2Proof.Machine.execSaveWrite s
  | .restore => Sys2Proof.Machine.execRestore s
  | .haltTakeEffect => Sys2Proof.Machine.execHaltTakeEffect s
  | .holdtTimeout => Sys2Proof.Machine.execHoldtTimeout s
  | .deadlockDeclare => Sys2Proof.Machine.execDeadlockDeclare s
  | .timerFire => Sys2Proof.Machine.execTimerFire s
  | .sleepDeadline => Sys2Proof.Machine.execSleepDeadline s
  | .waitlWake => Sys2Proof.Machine.execWaitlWake s
  | .waitlPoll => Sys2Proof.Machine.execWaitlPoll s
  | .barrierResume => Sys2Proof.Machine.execBarrierResume s
  | .mailboxArrival => Sys2Proof.Machine.execMailboxArrival s
  | .gangStartRecord => Sys2Proof.Machine.execGangStartRecord s
  | .supervisorNotice => Sys2Proof.Machine.execSupervisorNotice s
  | .copyAdmit => Sys2Proof.Machine.execCopyAdmit s
  | .copyBeat => Sys2Proof.Machine.execCopyBeat s
  | .copyCommandComplete => Sys2Proof.Machine.execCopyCommandComplete s
  | .copyCommandEnd => Sys2Proof.Machine.execCopyCommandEnd s
  | .taskAccept => Sys2Proof.Machine.execTaskAccept s
  | .taskPresenceCheck => Sys2Proof.Machine.execTaskPresenceCheck s
  | .taskIssue => Sys2Proof.Machine.execTaskIssue s
  | .configurationChange => Sys2Proof.Machine.execConfigurationChange s
  | .taskKstep => Sys2Proof.Machine.execTaskKstep s
  | .taskDWrite => Sys2Proof.Machine.execTaskDWrite s
  | .taskComplete => Sys2Proof.Machine.execTaskComplete s
  | .taskEndError => Sys2Proof.Machine.execTaskEndError s
  | .taskFault => Sys2Proof.Machine.execTaskFault s
  | .graftInvocation => Sys2Proof.Machine.execGraftInvocation s
  | .graftRestart => Sys2Proof.Machine.execGraftRestart s
  | .graftCommit => Sys2Proof.Machine.execGraftCommit s
  | .faultPost => Sys2Proof.Machine.execFaultPost s
  | .faultTableRetry => Sys2Proof.Machine.execFaultTableRetry s
  | .faultReplay => Sys2Proof.Machine.execFaultReplay s
  | .walk => Sys2Proof.Machine.execWalk s
  | .remoteRequest => Sys2Proof.Machine.execRemoteRequest s
  | .remoteRetry => Sys2Proof.Machine.execRemoteRetry s
  | .remoteTokenWake => Sys2Proof.Machine.execRemoteTokenWake s
  | .farAtomic => Sys2Proof.Machine.execFarAtomic s
  | .scrub => Sys2Proof.Machine.execScrub s
  | .routerFailure => Sys2Proof.Machine.execRouterFailure s
  | .routingTableLoad => Sys2Proof.Machine.execRoutingTableLoad s
  | .rds => Sys2Proof.Machine.execRds s
  | .rdx => Sys2Proof.Machine.execRdx s
  | .upg => Sys2Proof.Machine.execUpg s
  | .wbd => Sys2Proof.Machine.execWbd s
  | .inv => Sys2Proof.Machine.execInv s
  | .fwds => Sys2Proof.Machine.execFwds s
  | .fwdx => Sys2Proof.Machine.execFwdx s
  | .invack => Sys2Proof.Machine.execInvack s
  | .data => Sys2Proof.Machine.execData s
  | .datax => Sys2Proof.Machine.execDatax s
  | .cmpMsg => Sys2Proof.Machine.execCmpMsg s
  | .memrdData => Sys2Proof.Machine.execMemrdData s
  | .memwrAck => Sys2Proof.Machine.execMemwrAck s
  | .snoopFilterEvict => Sys2Proof.Machine.execSnoopFilterEvict s
  | .directoryRecall => Sys2Proof.Machine.execDirectoryRecall s
  | .sliceFailure => Sys2Proof.Machine.execSliceFailure s
  | .censusQuery => Sys2Proof.Machine.execCensusQuery s
  | .censusReport => Sys2Proof.Machine.execCensusReport s
  | .censusEnd => Sys2Proof.Machine.execCensusEnd s
  | .containment => Sys2Proof.Machine.execContainment s
  | .agentAnswerTimeout => Sys2Proof.Machine.execAgentAnswerTimeout s
  | .containmentNotice => Sys2Proof.Machine.execContainmentNotice s
  | .agentRejoin => Sys2Proof.Machine.execAgentRejoin s
  | .flitReceive => Sys2Proof.Machine.execFlitReceive s
  | .linkNak => Sys2Proof.Machine.execLinkNak s
  | .linkDown => Sys2Proof.Machine.execLinkDown s
  | .reserve => Sys2Proof.Machine.execReserve s
  | .rack => Sys2Proof.Machine.execRack s
  | .rnak => Sys2Proof.Machine.execRnak s
  | .release => Sys2Proof.Machine.execRelease s
  | .go => Sys2Proof.Machine.execGo s
  | .started => Sys2Proof.Machine.execStarted s
  | .startedTimeout => Sys2Proof.Machine.execStartedTimeout s
  | .halt => Sys2Proof.Machine.execHalt s
  | .trigMessage => Sys2Proof.Machine.execTrigMessage s
  | .done => Sys2Proof.Machine.execDone s
  | .apertureRead => Sys2Proof.Machine.execApertureRead s
  | .apertureWrite => Sys2Proof.Machine.execApertureWrite s
  | .apertureFaultTimeout => Sys2Proof.Machine.execApertureFaultTimeout s
  | .pcieUnsupported => Sys2Proof.Machine.execPcieUnsupported s
  | .qcreate => Sys2Proof.Machine.execQcreate s
  | .qdestroy => Sys2Proof.Machine.execQdestroy s
  | .queueFetch => Sys2Proof.Machine.execQueueFetch s
  | .startRecord => Sys2Proof.Machine.execStartRecord s
  | .partitionControl => Sys2Proof.Machine.execPartitionControl s
  | .registerWrite => Sys2Proof.Machine.execRegisterWrite s
  | .debugSelect => Sys2Proof.Machine.execDebugSelect s
  | .coldReset => Sys2Proof.Machine.execColdReset s
  | .partitionReset => Sys2Proof.Machine.execPartitionReset s
  | .lifeCycleChange => Sys2Proof.Machine.execLifeCycleChange s
  | .wipeDone => Sys2Proof.Machine.execWipeDone s
  | .firmwareVerify => Sys2Proof.Machine.execFirmwareVerify s
  | .recoveryLoad => Sys2Proof.Machine.execRecoveryLoad s
  | .attestationRequest => Sys2Proof.Machine.execAttestationRequest s
  | .cxlDynamicCapacity => Sys2Proof.Machine.execCxlDynamicCapacity s
  | .powerLimit => Sys2Proof.Machine.execPowerLimit s
  | .powerLimitClear => Sys2Proof.Machine.execPowerLimitClear s
  | .overtemperature => Sys2Proof.Machine.execOvertemperature s
  | .channelHalfWidth => Sys2Proof.Machine.execChannelHalfWidth s
  | .snapIn => Sys2Proof.Machine.execSnapIn s
  | .snapshotThreshold => Sys2Proof.Machine.execSnapshotThreshold s
  | .snapshotLatch => Sys2Proof.Machine.execSnapshotLatch s
  | .machineCheck => Sys2Proof.Machine.execMachineCheck s
  | .meshCreditReturn => Sys2Proof.Machine.execMeshCreditReturn s
  | .probeEcho => Sys2Proof.Machine.execProbeEcho s
  | .evacAcknowledged => Sys2Proof.Machine.execEvacAcknowledged s
  | .tlbiTakesEffect => Sys2Proof.Machine.execTlbiTakesEffect s
  | .emulationRoundTrip => Sys2Proof.Machine.execEmulationRoundTrip s
  | .graftTableAccessReturn => Sys2Proof.Machine.execGraftTableAccessReturn s
  | .storeWipeDone => Sys2Proof.Machine.execStoreWipeDone s
  | .haltAnswer => Sys2Proof.Machine.execHaltAnswer s
  | .channelFullWidth => Sys2Proof.Machine.execChannelFullWidth s

end Sys2Proof.Machine
end

