-- ==== Sys2Proof/Machine/Issue.lean ====
section
/-! DEFINITION. The issue slot: fetch, the lookahead windows, and what comes next in a cycle (01 R12; 03 R28–R35; 07 R95,
R96, R387). -/
namespace Sys2Proof
open Sys2Proof.Machine in
/-- The two registers of a granule pair. -/
def pairBits (k : Pair) : BitVec 16 := vBit (k ++ 0#1) ||| vBit (k ++ 1#1)
/-- The general and vector registers that an instruction names, read or written, its implied ones included (03 R33). -/
def Instr.regs : Instr → BitVec 32 × BitVec 16
  | .jmp _ a | .ret _ a | .cmpi _ _ _ a _ | .pmovG2p _ _ a | .pmovBc _ _ a | .clr _ a _ | .prefS _ a _
  | .prefX _ a _ | .cqf _ a | .tagi _ a | .tagiBlk _ a | .barComb _ _ a | .spawn _ _ a | .timer _ a | .timerRel _ a
  | .movsWrite _ _ a | .movcWrite _ _ a | .cntclr _ a => (Machine.gBit a, 0)
  | .call _ _ => (Machine.gBit 30, 0)
  | .callr _ a => (Machine.gBit a ||| Machine.gBit 30, 0)
  | .brc _ _ _ a b _ | .cmp _ _ _ _ _ a b | .clrn _ a b | .redAdd _ _ _ _ _ a b | .redAnd _ _ _ _ _ a b
  | .redOr _ _ _ _ _ a b | .redXor _ _ _ _ _ a b | .redMin _ _ _ _ _ a b | .redMax _ _ _ _ _ a b | .rqpush _ a b
  | .tlbiVa _ a b | .fltrpl _ a b => (Machine.gBit a ||| Machine.gBit b, 0)
  | .aluAdd _ _ d a b | .aluSub _ _ d a b | .aluAnd _ _ d a b | .aluOr _ _ d a b | .aluXor _ _ d a b
  | .aluAndn _ _ d a b | .aluOrn _ _ d a b | .aluXnor _ _ d a b | .aluMin _ _ d a b | .aluMax _ _ d a b
  | .aluMinu _ _ d a b | .aluMaxu _ _ d a b | .aluAdds _ _ d a b | .aluSubs _ _ d a b | .aluAddsu _ _ d a b
  | .aluSubsu _ _ d a b | .mulLo _ d a b | .mulHi _ d a b | .mulHiu _ d a b | .divS _ _ _ d a b | .divU _ _ _ d a b
  | .divRem _ _ _ d a b | .divRemu _ _ _ d a b | .bitsShl _ d a b | .bitsShr _ d a b | .bitsSar _ d a b
  | .bitsRol _ d a b | .bitsRor _ d a b | .fieldExt _ d a b | .fieldExts _ d a b | .fieldIns _ d a b
  | .sel _ d a b _ | .lea _ d a b _ | .leaOff _ d a b _ | .mka _ _ _ d a b | .mkg _ d a b | .ldx _ _ _ _ d a b
  | .stx _ _ _ _ d a b | .aopSwap _ _ _ _ _ _ d a b | .aopAdd _ _ _ _ _ _ d a b | .aopAnd _ _ _ _ _ _ d a b
  | .aopOr _ _ _ _ _ _ d a b | .aopXor _ _ _ _ _ _ d a b | .aopMin _ _ _ _ _ _ d a b | .aopMax _ _ _ _ _ _ d a b
  | .taglG _ d a b | .lyrinit _ d a b | .lyrq _ d a b | .waitl _ _ d a b | .preempt _ d a b | .evac _ d a b
  | .fltrd _ d a b | .emur _ d a b => (Machine.gBit d ||| Machine.gBit a ||| Machine.gBit b, 0)
  | .aluMov _ _ d a | .aluNeg _ _ d a | .aluNot _ _ d a | .addi _ d a _ | .andi _ d a _ | .ori _ d a _
  | .xori _ d a _ | .movhi _ d a _ | .bitsShli _ d a _ | .bitsShri _ d a _ | .bitsSari _ d a _ | .bitsRoli _ d a _
  | .bitsRori _ d a _ | .bitsClz _ d a | .bitsCtz _ d a | .bitsPopc _ d a | .bitsBrev _ d a | .bitsBswap _ d a
  | .coordTile _ d a | .coordGroup _ d a | .coordSgrp _ d a | .coordDie _ d a | .coordPres _ d a | .coordHmap _ d a
  | .coordLocal _ d a | .ld _ _ _ d a _ | .st _ _ _ d a _ | .ldq _ _ d a _ | .bwait _ _ d a _ | .tagl _ d a
  | .mtask _ _ d a | .mtqry _ d a | .mtcan _ d a | .lyrref _ d a | .lyrdrop _ d a | .sleep _ d a | .sleepM _ d a
  | .treap _ d a | .preemptQ _ d a | .holdt _ d a | .resumet _ d a | .cntrd _ d a | .waym _ d a | .sgway _ d a =>
    (Machine.gBit d ||| Machine.gBit a, 0)
  | .movi _ d _ | .movw _ d _ | .pmovP2g _ d _ | .cstat _ d | .cstatBar _ _ d | .mtqryQ _ d | .tpop _ d
  | .rqpopCnt _ d | .movsRead _ d _ | .movcRead _ d _ => (Machine.gBit d, 0)
  | .mulMad _ d a b c | .waitlDl _ _ d a b c | .tstart _ d a b c => (Machine.gBit d ||| Machine.gBit a ||| Machine.gBit b ||| Machine.gBit c, 0)
  | .fieldMask _ d b | .mkgOwn _ d b | .lyrqX _ d b | .lyrqW _ d b => (Machine.gBit d ||| Machine.gBit b, 0)
  | .ldm _ _ c d a _ | .stm _ _ c d a _ => (Machine.gSpan d c ||| Machine.gBit a, 0)
  | .ldtry _ _ _ d a _ | .rqpopP _ d a => (Machine.gBit d ||| Machine.gBit (d + 1) ||| Machine.gBit a, 0)
  | .acas _ _ _ q _ _ _ d a b c =>
    (Machine.gBit a ||| (if q then Machine.gBit d ||| Machine.gBit (d + 1) else Machine.gBit d) ||| (if q then Machine.gBit b ||| Machine.gBit (b + 1) else Machine.gBit b) ||| (if q then Machine.gBit c ||| Machine.gBit (c + 1) else Machine.gBit c), 0)
  | .post _ _ sz _ _ a b =>
    (Machine.gBit a ||| (if sz = .g then 0 else Machine.gBit b), (if sz = .g then pairBits (b.extractLsb' 1 3) else 0))
  | .vopAdd _ _ d a b | .vopSub _ _ d a b | .vopMul _ _ d a b | .vopMin _ _ d a b | .vopMax _ _ d a b
  | .vopAdds _ _ d a b | .vopSubs _ _ d a b | .vopAnd _ _ d a b | .vopOr _ _ d a b | .vopXor _ _ d a b
  | .vopAndn _ _ d a b | .vopShl _ _ d a b | .vopShr _ _ d a b | .vopSar _ _ d a b | .vopMulhi _ _ d a b
  | .vdiv _ _ _ d a b | .vsel _ _ d a b _ | .vdot _ _ d a b => (0, Machine.vBit d ||| Machine.vBit a ||| Machine.vBit b)
  | .vopAbs _ _ d a | .vopNeg _ _ d a | .vsqrt _ _ _ d a | .vbcastLane _ _ d a _ | .vmov _ _ d a => (0, Machine.vBit d ||| Machine.vBit a)
  | .vfma _ _ d a b c | .vfmaFms _ _ d a b c | .vfmaFnma _ _ d a b c | .vfmaFnms _ _ d a b c | .vperm _ _ d a b c =>
    (0, Machine.vBit d ||| Machine.vBit a ||| Machine.vBit b ||| Machine.vBit c)
  | .vcmp _ _ _ _ a b => (0, Machine.vBit a ||| Machine.vBit b)
  | .vcvt _ _ _ _ d a c => (Machine.gBit c, Machine.vBit d ||| Machine.vBit a)
  | .vredAdd _ _ d a | .vredMin _ _ d a | .vredMax _ _ d a | .vredAnd _ _ d a | .vredOr _ _ d a | .vredXor _ _ d a
  | .vext _ _ d a _ => (Machine.gBit d, Machine.vBit a)
  | .vbcast _ _ d a | .vins _ _ d a _ | .vldb _ _ d a _ | .vstb _ _ d a _ => (Machine.gBit a, Machine.vBit d)
  | .vmovZero _ _ d => (0, Machine.vBit d)
  | .vld _ _ g d a _ | .vst _ _ g d a _ => (Machine.gBit a, (if g then Machine.vBit d ||| Machine.vBit (d + 1) else Machine.vBit d))
  | .vlds _ _ _ d a b | .vsts _ _ _ d a b => (Machine.gBit a ||| Machine.gBit b, Machine.vBit d)
  | .vgath _ _ _ _ d a b | .vscat _ _ _ _ d a b => (Machine.gBit a, Machine.vBit d ||| Machine.vBit b)
  | .copy _ _ a b c | .tags _ a b c | .rqpushCore _ a b c | .emuw _ a b c => (Machine.gBit a ||| Machine.gBit b ||| Machine.gBit c, 0)
  | .copys _ _ a b c e1 e2 e3 => (Machine.gBit a ||| Machine.gBit b ||| Machine.gBit c ||| Machine.gBit e1 ||| Machine.gBit e2 ||| Machine.gBit e3, 0)
  | .copygG _ _ a b c e1 | .copygS _ _ a b c e1 => (Machine.gBit a ||| Machine.gBit b ||| Machine.gBit c ||| Machine.gBit e1, 0)
  | .rqpop _ d => (Machine.gBit d ||| Machine.gBit (d + 1), 0)
  | .send _ _ _ a b => (Machine.gBit a, pairBits b)
  | .recv _ d c | .recvT _ d c => (Machine.gBit c, pairBits d)
  | .tlbiAsid _ b => (Machine.gBit b, 0)
  | .eret _ | .eretNext _ => (Machine.gBit 1 ||| Machine.gBit 2, 0)
  | .yield _ => (Machine.gSpan 1 4 ||| Machine.gBit 29, 0)
  | _ => (0, 0)
/-- The lookahead of a long-latency major (07 R104). -/
def Instr.lookahead? : Instr → Option La
  | .divS _ n _ _ _ _ | .divU _ n _ _ _ _ | .divRem _ n _ _ _ _ | .divRemu _ n _ _ _ _ | .ld _ n _ _ _ _
  | .ldx _ n _ _ _ _ _ | .st _ n _ _ _ _ | .stx _ n _ _ _ _ _ | .ldm _ n _ _ _ _ | .stm _ n _ _ _ _
  | .ldq _ n _ _ _ | .ldtry _ n _ _ _ _ | .bwait _ n _ _ _ | .aopSwap _ n _ _ _ _ _ _ _ | .aopAdd _ n _ _ _ _ _ _ _
  | .aopAnd _ n _ _ _ _ _ _ _ | .aopOr _ n _ _ _ _ _ _ _ | .aopXor _ n _ _ _ _ _ _ _ | .aopMin _ n _ _ _ _ _ _ _
  | .aopMax _ n _ _ _ _ _ _ _ | .acas _ n _ _ _ _ _ _ _ _ _ | .redAdd _ n _ _ _ _ _ | .redAnd _ n _ _ _ _ _
  | .redOr _ n _ _ _ _ _ | .redXor _ n _ _ _ _ _ | .redMin _ n _ _ _ _ _ | .redMax _ n _ _ _ _ _
  | .post _ n _ _ _ _ _ | .vdiv _ n _ _ _ _ | .vsqrt _ n _ _ _ | .vld _ n _ _ _ _ | .vst _ n _ _ _ _
  | .vlds _ n _ _ _ _ | .vsts _ n _ _ _ _ | .vgath _ n _ _ _ _ _ | .vscat _ n _ _ _ _ _ | .vldb _ n _ _ _
  | .vstb _ n _ _ _ => some n
  | _ => none
/-- How many bits of its lane mask count in an instruction of majors 0x60–0x77; none of the others takes one (07 R102, 13 R191,
R204). -/
def Instr.lanes? : Instr → Option Nat
  | .vopAdd _ ty .. | .vopSub _ ty .. | .vopMul _ ty .. | .vopMin _ ty .. | .vopMax _ ty .. | .vopAbs _ ty ..
  | .vopNeg _ ty .. | .vopAdds _ ty .. | .vopSubs _ ty .. | .vopAnd _ ty .. | .vopOr _ ty .. | .vopXor _ ty ..
  | .vopAndn _ ty .. | .vopShl _ ty .. | .vopShr _ ty .. | .vopSar _ ty .. | .vopMulhi _ ty .. | .vfma _ ty ..
  | .vfmaFms _ ty .. | .vfmaFnma _ ty .. | .vfmaFnms _ ty .. | .vdiv _ _ ty .. | .vsqrt _ _ ty .. | .vcmp _ _ ty ..
  | .vsel _ ty .. | .vredAdd _ ty .. | .vredMin _ ty .. | .vredMax _ ty .. | .vredAnd _ ty .. | .vredOr _ ty ..
  | .vredXor _ ty .. | .vperm _ ty .. | .vbcast _ ty .. | .vbcastLane _ ty .. | .vins _ ty .. | .vext _ ty ..
  | .vmov _ ty .. | .vmovZero _ ty .. | .vlds _ _ ty .. | .vsts _ _ ty .. | .vgath _ _ ty .. | .vscat _ _ ty .. =>
    some ty.lanes
  | .vcvt _ src _ dst .. => some (Machine.cvtLanes src dst)
  | .vdot .. => some 8
  | .vld _ _ g .. | .vst _ _ g .. => some (if g then 16 else 8)
  | .vldb .. | .vstb .. => some 32
  | _ => none
/-- A probe of a deque: it finds what the slots of its cycle have left (15 R250). -/
def Event.probes : Event → Bool
  | .steal .. => true
  | _ => false
end Sys2Proof
namespace Sys2Proof.Machine

/-- A context's slot is taken up by nothing (03 R28). -/
inductive Plan where
  /-- A step of the opcode table is performed. -/
  | run (i : Instr) (s : State)
  /-- Only the machine's own bookkeeping goes on. -/
  | idle (s : State)

/-! ## Fetch (07 R95, R96, R387) -/

/-- The fetch block at the issuing context's PC, none on a miss. -/
def State.fetchBlock (s : State) : Option (BitVec 256) := s.codeAt s.slot s.cx
/-- The I-TLB places the issuing context's PC in a BLOCK page. -/
def State.fetchInBlock (s : State) : Bool := (s.fetchMap s.slot s.cx).any Map.isBlock
/-- The bytes from PC to the end of its fetch block. -/
def bytesFrom (b : BitVec 256) (o : Nat) : List Byte := (List.range (32 - o)).map fun i => byteOf b (o + i)
/-- A miss: the block is read as a load of its address would be, and the context loses its slots meanwhile. -/
def State.startFetch (s : State) : State :=
  let t := s.me
  (s.lost.modMe fun t =>
    { t with park := some .fetch
             acc := some { va := BitVec.ofNat 64 (t.pc.toNat / 32 * 32), mask := spanMask (t.pc.toNat / 32 * 32 % 64) 32
                           op := .read } }).after 0 (.fetchBlockFill s.slot s.cx (t.pc.toNat / 32 * 32))

/-! ## Issue (03 R28, R33–R35, R41) -/

/-- The wait is on a block or on a fault. -/
def Op.blocked (o : Op) : Bool :=
  o.accs.any fun a => a.st == .placed || a.st == .relist || a.st == .notFull || a.st == .faulted
/-- The slot is lost to outstanding operations; where one of them waits on a block or a fault, the context parks. -/
def State.waitOn (s : State) (l : List Op) : State :=
  if l.any Op.blocked then s.lost.modMe fun t => { t with st := .parked, park := some .window } else s.lost
/-- Outstanding operations whose result an instruction reads or writes. -/
def State.hazards (s : State) (i : Instr) : List Op :=
  (s.myCore.opsOf s.cx).filter fun o => o.gMask &&& i.regs.1 != 0 || o.vMask &&& i.regs.2 != 0
/-- The predicate of an instruction is false, or its lane mask selects nothing (07 R103, 13 R191). -/
def State.falseFor (s : State) (i : Instr) : Bool :=
  let p := (fieldsOf i).p
  match i.lanes? with
  | some n => s.me.mask p &&& BitVec.ofNat 32 (2 ^ n - 1) == 0
  | none => !s.me.test p
/-- A decoded instruction issues, or waits for its operands or for one of the eight operations to complete; the first wait
inside a window is a lookahead miss. One whose predicate is false waits for neither: it names no operand and opens no window
(07 R103). A wait for the limit of eight is never a miss, whatever else the instruction waits for (log entry 95). -/
def State.tryIssue (s : State) (i : Instr) : Plan :=
  let full := i.lookahead?.isSome && s.myCore.full s.cx
  let dep := s.hazards i
  if s.falseFor i || (dep.isEmpty && !full) then
    .run i (if s.me.missed then s.modMe fun t => { t with missed := false } else s)
  else if full then .idle (s.waitOn (s.myCore.opsOf s.cx))
  else
    let s := if s.me.missed then s else (s.count s.slot 1).modMe fun t => { t with missed := true }
    .idle (s.waitOn dep)
/-- Fetch, decode and issue at PC; a pad moves PC on at no cost, and at most once, since a block never begins with one. The
first instruction of a thread whose continuation was withdrawn takes the block-withdrawn trap instead (05 Table 5-9). A
PC that no load could name, or that lies in a BLOCK page, is a class violation, whose record gives the issue kind and
length 0 as R95's alignment trap does (log entry 72). -/
def State.fetchIssue (s : State) : Nat → Plan
  | 0 => .idle s
  | n + 1 =>
    let pc := s.me.pc
    if pc.toNat % 4 ≠ 0 then .idle (s.issueTrap 0 1 pc)
    else if isCoord pc then .idle (s.issueTrap 0 5 pc)
    else if let .error cause := s.checkAddr s.slot pc then .idle (s.issueTrap 0 cause pc)
    else if s.myCore.wayBusy then .idle s.lost
    else if s.fetchInBlock then .idle (s.issueTrap 0 5 pc)
    else
      match s.fetchBlock with
      | none => .idle s.startFetch
      | some b =>
        match decodeBytes (decide (pc.toNat % 32 = 0)) (bytesFrom b (pc.toNat % 32)) with
        | .pad => (s.modMe fun t => { t with pc := BitVec.ofNat 64 (pc.toNat / 32 * 32 + 32) }).fetchIssue n
        | .illegal r len =>
          .run .illegalEncoding { s with ev := some (.illegalEncoding s.slot s.cx (r + 16 * len)) }
        | .instr i len =>
          match s.me.withdrawnAt with
          | some a => .idle ((s.modMe fun t => { t with withdrawnAt := none }).issueTrap len 7 a)
          | none => s.tryIssue i
/-- Accesses of the slot's context in a state, those of a reaped thread included. -/
def State.mine (s : State) (q : AccSt) : List (Nat × Nat) :=
  (s.myCore.ops.filter fun o => o.ctx == s.cx).flatMap fun o => ((List.range o.accs.length).filter fun i => (o.acc? i).any fun a => a.st == q).map
    fun i => (o.id, i)
/-- The context of this cycle competes for the slot. One whose park an accepted pre-emption has ended executes again after
its restore, unless it is in a handler or has a message packet open, of its own or of the mailbox (03 R56, 15 R256, R262). -/
def Core.ready (k : Core) (x : CtxId) : Bool :=
  let t := k.ctx x
  decide (t.st = .running) && !t.delivering && t.halt.isNone && !t.reaping && t.park.isNone &&
    (!t.yielded || t.inHandler || t.packet != 0 || k.bound == some x)
/-- The thread parks whatever its lookahead: the first row of 03 Table 3-3. -/
def State.alwaysParks (s : State) : Bool := s.cx == 0 || s.me.lvl != 0 || s.me.pinned
/-- The wait is on a block. -/
def Op.onBlock (o : Op) : Bool := o.accs.any fun a => a.st == .placed || a.st == .relist || a.st == .notFull
/-- Outstanding operations behind which the thread issues nothing: a window at its end, or a wait that parks at once. -/
def State.stops (s : State) : List Op :=
  (s.myCore.opsOf s.cx).filter fun o => o.left == 0 || (s.alwaysParks && o.onBlock)
/-- Runs of clears of the slot's context whose access the bank refused. -/
def State.clrsAgain (s : State) : List ClrRun := s.myCore.clrs.filter fun r => r.ctx == s.cx && r.acc.st == .again
/-- A core's slot of this cycle is offered to its context (03 R28). An access that a waiting list refused is presented again
(05 R77); accesses that a bank refused occupy the slot (01 R12). -/
def State.offer (s : State) (c : CoreId) : Plan :=
  let s : State := { s with slot := c, turn := c.toNat + 1, ev := none }
  if s.present c = false then .idle s
  else
    let s := (s.mine .relist).foldl (fun s p => s.after 0 (.waiterRetry (.lsu c p.1 p.2))) s
    match s.mine .again, s.clrsAgain with
    | [], [] =>
      if s.myCore.ready s.cx = false then .idle s.lost
      else
        match s.stops with
        | [] => s.fetchIssue 2
        | l => .idle (s.waitOn l)
    | l, rs =>
      let s := l.foldl (fun s p => (s.modOp c p.1 fun o => o.modAcc p.2 fun a => { a with st := .fresh }).goLsu c p.1 p.2) s.lost
      .idle (rs.foldl (fun s r => (s.modClr c r.id fun q => { q with acc := { q.acc with st := .fresh } }).after 0
        (.clrAtHome (.clr c r.id) r.next)) s)

/-! ## The cycle -/

/-- Every 16 cycles the group load registers are refreshed (03 R53). -/
def State.refreshLoads (s : State) : State :=
  if s.cyc % 16 ≠ 0 then s
  else
    ((s.cores.map fun e => groupOf (BitVec.ofNat 16 e.1)).eraseDups).foldl
      (fun s g => s.after 0 (.groupLoadRefresh (BitVec.ofNat 16 g))) s
def partitions : List (BitVec 2) := [0, 1, 2, 3]
/-- Deadlock detection of a partition (03 R62). -/
def State.watchDeadlock (s : State) (p : BitVec 2) : State :=
  if s.armed.getLsbD p.toNat && s.deadlocked p then s.after 0 (.deadlockDeclare p) else s
/-- A core has lowered its line: detection in its partition is armed again, within whatever cycle it does so (03 R63). -/
def State.rearm (s : State) (p : BitVec 2) : State :=
  if s.armed.getLsbD p.toNat = false ∧ s.cores.any (fun e =>
      let c : CoreId := BitVec.ofNat 16 e.1
      s.inPart p c && s.present c && !s.allParked c) then
    { s with armed := s.armed ||| ((1 : BitVec 4) <<< p.toNat) }
  else s
/-- Every partition whose detection is disarmed looks at its cores' lines. -/
def State.rearmAll (s : State) : State := if s.armed = 0xF then s else partitions.foldl (fun s p => s.rearm p) s
/-- The snapshot threshold fires once when its counter reaches the value (25 R383). -/
def State.watchThreshold (s : State) : State :=
  if s.atThreshold = s.sys.fired then s
  else
    let t : State := { s with sys := { s.sys with fired := s.atThreshold } }
    if s.atThreshold then t.after 0 .snapshotThreshold else t
/-- The counters that were cleared in this cycle count again (15 R272). -/
def State.countAgain (s : State) : State :=
  (s.cores.filter fun e => e.2.clearing != 0).foldl
    (fun s e => s.modCore (BitVec.ofNat 16 e.1) fun k => { k with clearing := 0 }) s
/-- The next cycle begins. -/
def State.nextCycle (s : State) : State :=
  let s := ({ s with cyc := s.cyc + 1, turn := 0, ev := none } : State).carryOut.countAgain.releaseMesh
  (partitions.foldl (fun s p => s.watchDeadlock p) s.refreshLoads).watchThreshold

/-- The hub port by which an agent's requests reach the hub (23 Table 23-2). -/
def State.portOf (s : State) (who : Agent) : Nat :=
  let link := fun (p : BitVec 5) => 32 + (s.linkOf p).toNat
  match who with
  | .serv j => 48 + ((s.job j).map fun k => k.quad.toNat).getD 0
  | .token p _ _ => link p
  | .home i =>
    match s.home i with
    | some h =>
      let p : BitVec 5 := h.req.id.extractLsb' 35 5
      if p = s.pkgNum then s.hubPort h.req.core else link p
    | none => 0
  | w => s.hubPort (s.agentCore w)
/-- The hub port of an agent's requests for a line: that of its die's bank, or of the link to its package (23 R344). -/
def State.diePort (s : State) (a : AgentId) (line : Nat) : Nat :=
  match s.dieOfAgent a with
  | some d => 4 * d.toNat + line % 4
  | none => s.portOf (.token (a.extractLsb' 3 5) 0 0)
/-- Where a request arrives, a memory controller or a hub slice, and its source port. -/
def State.arrival (s : State) (e : Event) : Option (Nat × Nat) :=
  match e with
  | .blockReadAtHome w b | .blockWriteGranule w b => some (s.controller b, s.portOf w)
  | .clrAtHome w _ => ((s.acc w).bind Access.map).map fun m => (s.controller m.blk, s.portOf w)
  | .rds r | .rdx r | .upg r => some (64 + s.sliceOf r.line, s.diePort r.agent r.line)
  | .wbd l a .. => some (64 + s.sliceOf l, s.diePort a l)
  | .farAtomic w => ((s.acc w).bind Access.map).map fun m => (64 + s.sliceOf (m.key / 64), s.portOf w)
  | _ => none
/-- Of the requests that arrive at one place in one cycle, the one from the lowest port (05 R72, 23 R351). -/
def State.lowestPort (s : State) (e : Nat × Event) : Nat × Event :=
  match s.arrival e.2 with
  | none => e
  | some a =>
    (s.agenda.foldl (fun b x =>
      if x.1 ≤ s.cyc then
        match s.arrival x.2 with
        | some r => if r.1 = a.1 ∧ r.2 < b.2 then (x, r.2) else b
        | none => b
      else b) (e, a.2)).1
/-- Perform a pending step. -/
def State.perform (s : State) (e : Nat × Event) : Plan := .run e.2.row { s with agenda := s.agenda.erase e, ev := some e.2 }
/-- A step waits for a service core that is held in reset (25 R378). -/
def State.asleep (s : State) (e : Event) : Bool := s.sys.servReset && e.served
/-- What comes next: a step that is due, then each core's slot in ascending order, then the banks, then the probes of deques,
then the next cycle. -/
def State.plan (s : State) : Plan :=
  let s := s.rearmAll
  match s.agenda.find? fun e => decide (e.1 ≤ s.cyc) && !e.2.probes && !s.asleep e.2 with
  | some e => s.perform (s.lowestPort e)
  | none =>
    match s.cores.find? fun e => decide (s.turn ≤ e.1) with
    | some e => s.offer (BitVec.ofNat 16 e.1)
    | none =>
      match s.banks.find? s.presented with
      | some b => .run .bankAccess { s with ev := some (.bankAccess b.store b.bank) }
      | none =>
        match s.agenda.find? fun e => decide (e.1 ≤ s.cyc) && !s.asleep e.2 with
        | some e => s.perform e
        | none => .idle s.nextCycle

/-! ## Placing an instruction where the next step fetches it -/

/-- Core 0's context of this cycle runs at the start of a fetch block that its code cache holds, and nothing comes before
it: no step is due, and nothing of the context is outstanding. -/
def State.placeWord (s : State) (w : BitVec 128) : State :=
  let pc : Word := s.extPc (BitVec.ofNat 64 ((s.ctx 0 s.cx).pc.toNat % 2 ^ 48 / 64 * 64))
  let page := pc.toNat % 2 ^ 52 / 4096 * 4096
  let e0 : Word := BitVec.ofNat 64 (page + 3)
  let e : TlbEnt := { asid := (s.ctx 0 s.cx).asid, base := page, bits := 12, e0 := e0, e1 := 0x380000, pte := 0 }
  let s : State := { s with
    turn := 0
    bar0 := s.bar0.filter fun b => b.1 != 0x1000
    agenda := s.agenda.filter fun a => decide (s.cyc < a.1) }
  s.modCore 0 fun k =>
    { k.setCtx s.cx { k.ctx s.cx with st := .running, pc := pc, park := none, halt := none, delivering := false, reaping := false
                                      yielded := false, withdrawnAt := none } with
      ops := k.ops.filter fun o => o.ctx != s.cx
      clrs := k.clrs.filter fun r => r.ctx != s.cx
      wayBusy := false
      itlb := e :: k.itlb
      code := SMap.set none k.code (pc.toNat % 2 ^ 52) (some (w.setWidth 256)) }

end Sys2Proof.Machine
end

