-- ==== Sys2Proof/Machine/Step.lean ====
section
/-! DEFINITION. One step of the machine, and the placing of an instruction where the next step fetches it. -/
namespace Sys2Proof.Machine

/-- A step performs one row of the opcode table, or only the machine's bookkeeping. -/
def step (s : State) : Host.Outcome State Fault Refusal :=
  match s.plan with
  | .run i t => exec i t
  | .idle t => .next t

/-- The instruction whose bits are `w` stands where the next step fetches it (log entry 41). -/
def State.withFetchWord (s : State) (nbits w : Nat) : State := s.placeWord (BitVec.ofNat 128 (w % 2 ^ nbits))

end Sys2Proof.Machine
end

