-- ==== Sys2Proof/Safety.lean ====
section
/-! DEFINITION. What counts as a safe run: the terms in which claims speak of states and of steps. -/
namespace Sys2Proof

/-- Who may issue an instruction: context 0, a supervisor, either, or any thread (07 Table 7-11, 15 R272, 25 R383). -/
def Instr.issuer : Instr → Machine.Issuer
  | .rqpop .. | .rqpopP .. | .rqpopCnt .. | .tstart .. | .treap .. | .preempt .. | .preemptQ .. | .evac .. | .timer ..
  | .timerRel .. | .timerOff .. | .movcWrite .. | .waym .. | .sgway .. => .c0
  | .holdt .. | .resumet .. | .emur .. | .emuw .. | .tlbiVa .. | .tlbiAsid .. | .tlbiAll .. | .tlbsync .. | .fltrd ..
  | .fltrpl .. | .lyrdrop .. => .sOnly
  | .snap .. | .cntclr .. => .c0s
  | _ => .any
/-- The issuer passes the privilege check: Table 7-11's, and Table 7-10's for a write of a special register. -/
def Instr.admitted (i : Instr) (x : CtxId) (k : Machine.Priv) : Bool :=
  match i with
  | .movsWrite _ sr _ => Machine.srAccess sr.toNat k != .trap
  | i => i.issuer.admits x k
end Sys2Proof
namespace Sys2Proof.Machine

/-- The state's sparse arrays are in their canonical form, so that equal contents are equal data. -/
structure State.Canonical (s : State) : Prop where
  mem : Memory.wf s.mem = true
  atoms : SMap.wf 0 s.atoms = true
  cores : SMap.wf Core.reset s.cores = true

/-- A step goes on. -/
def Steps (s t : State) : Prop := step s = .next t

/-- No step of the next `n` stops in a fault or a refusal. -/
def Safe : Nat → State → Prop
  | 0, _ => True
  | n + 1, s => ∃ t, Steps s t ∧ Safe n t

/-- The byte at a key reads the same in both states. -/
def SameByte (s t : State) (k : Nat) : Prop := t.byte k = s.byte k

/-- Every byte of memory reads the same in both states. -/
def SameMem (s t : State) : Prop := ∀ k, SameByte s t k

/-- A context keeps every register a program can name: general, vector and predicate registers and the registers of
Tables 3-7 to 3-10 and 9-4. -/
def SameRegs (a b : Ctx) : Prop :=
  b.g = a.g ∧ b.v = a.v ∧ b.p = a.p ∧ b.rnd = a.rnd ∧ b.fmt = a.fmt ∧ b.scl = a.scl ∧ b.asid = a.asid ∧
    b.lvl = a.lvl ∧ b.member = a.member ∧ b.gang = a.gang ∧ b.launch = a.launch ∧ b.priv = a.priv ∧ b.bars = a.bars

/-- Between two states a core keeps every context but one. -/
def OtherCtxs (a b : Core) (x : CtxId) : Prop := ∀ y, y ≠ x → b.ctx y = a.ctx y

/-- Every core but one is the same in both states. -/
def OtherCores (s t : State) (c : CoreId) : Prop := ∀ d, d ≠ c → t.core d = s.core d

/-! ## How an instruction runs

The meanings are stated over two views of the state at issue: `c`, the context as it stands, and `t`, the state in which
the instruction has taken its slot (`State.issued`: PC behind the instruction, windows one further, the event "instruction
issued" counted). -/

/-- Where the privilege check passes, the predicate is true and `pre` holds, the instruction goes on to `f`. -/
def Runs (who : Issuer) (i : Instr) (p : Pred) (len : Nat) (pre : Ctx → State → Prop) (f : Ctx → State → State) : Prop :=
  ∀ s : State, who.admits s.cx s.me.priv = true → s.me.test p = true → pre s.me (s.issued len) →
    exec i s = .next (f s.me (s.issued len))

/-- Under the same checks and `pre`, the instruction takes an issue trap at its own PC: nothing else changes. -/
def Traps (who : Issuer) (i : Instr) (p : Pred) (len : Nat) (pre : Ctx → State → Prop) (cause : Nat)
    (addr : Ctx → State → Word) : Prop :=
  ∀ s : State, who.admits s.cx s.me.priv = true → s.me.test p = true → pre s.me (s.issued len) →
    exec i s = .next (s.issueTrap len cause (addr s.me (s.issued len)))

/-- Under the same checks and `pre`, the instruction does not issue: its slot is lost, and nothing else changes (03 R28). -/
def Loses (who : Issuer) (i : Instr) (p : Pred) (len : Nat) (pre : Ctx → State → Prop) : Prop :=
  ∀ s : State, who.admits s.cx s.me.priv = true → s.me.test p = true → pre s.me (s.issued len) → exec i s = .next s.lost

/-- The instruction writes one general register. -/
def WritesG (i : Instr) (p : Pred) (len : Nat) (d : G) (v : Ctx → Word) : Prop :=
  Runs .any i p len (fun _ _ => True) fun c t => t.putG d (v c)

/-- The instruction writes one predicate register; a write of p0 is discarded. -/
def WritesP (i : Instr) (p : Pred) (d : P) (v : Ctx → BitVec 32) : Prop :=
  Runs .any i p 8 (fun _ _ => True) fun c t => t.putP d (v c)

/-- An instruction of majors 0x60–0x77 runs where its mask selects a lane among its `n`. -/
def RunsV (i : Instr) (p : Pred) (n : Nat) (pre : Ctx → State → Prop) (f : Ctx → BitVec 32 → State → State) : Prop :=
  ∀ s : State, s.me.mask p &&& BitVec.ofNat 32 (2 ^ n - 1) ≠ 0 → pre s.me (s.issued 8) →
    exec i s = .next (f s.me (s.me.mask p &&& BitVec.ofNat 32 (2 ^ n - 1)) (s.issued 8))

/-- A vector instruction that writes the active lanes of v[D] and raises flags. -/
def WritesV (i : Instr) (p : Pred) (n w : Nat) (d : V) (f : Ctx → Nat → Nat × FFlags) : Prop :=
  RunsV i p n (fun _ _ => True) fun c m t =>
    (t.putV d (overLanes w m (c.getV d) (f c) n).1).raiseFlags (overLanes w m (c.getV d) (f c) n).2

/-- Two numbers meet a condition of 11 Table 11-2. -/
def condNumbers {n : Nat} (cc : Cond) (x y : BitVec n) : Bool :=
  match cc with
  | .eq => decide (x.toNat = y.toNat)
  | .ne => decide (x.toNat ≠ y.toNat)
  | .lt => decide (x.toInt < y.toInt)
  | .ge => decide (y.toInt ≤ x.toInt)
  | .le => decide (x.toInt ≤ y.toInt)
  | .gt => decide (y.toInt < x.toInt)
  | .ltu => decide (x.toNat < y.toNat)
  | .geu => decide (y.toNat ≤ x.toNat)
  | .leu => decide (x.toNat ≤ y.toNat)
  | .gtu => decide (y.toNat < x.toNat)
/-- The same of two registers: all 64 bits, or with .s32 bits 31:0 (11 R152). -/
def condTable (cc : Cond) (w : CmpW) (x y : Word) : Bool :=
  match w with
  | .x64 => condNumbers cc x y
  | .s32 => condNumbers cc (x.setWidth 32) (y.setWidth 32)

/-- An effective address of a `w`-byte access passes issue: it is a multiple of `w`, and its form names a place (11 R149,
R150; 05 R65, R66; 01 R15). -/
def AddrOk (t : State) (ea : Word) (w : Nat) : Prop := ea.toNat % w = 0 ∧ ∃ g, t.checkAddr t.slot ea = .ok g

/-- Nothing of the issuing core is outstanding, and no request waits at a home. -/
def Quiet (s : State) : Prop := s.myCore.ops = [] ∧ s.myCore.clrs = [] ∧ s.homes = []

/-- The event `e` is performed: the step's row answers `f` wherever `pre` holds. -/
def Performs (e : Event) (pre : State → Prop) (f : State → State) : Prop :=
  ∀ s : State, s.ev = some e → pre s → exec e.row s = .next (f s)

/-! ## Frames -/

/-- What an instruction leaves alone when it goes on: of its context all but what `keep` allows, its core's other contexts,
every other core, its core's registers beside contexts, windows and event counters, and the machine beside the cores and,
for a trap, the agenda; so every byte of memory reads as before. -/
def Frame (i : Instr) (keep : Ctx → Ctx → Prop) : Prop :=
  ∀ s t : State, s.Canonical → exec i s = .next t →
    keep s.me (t.ctx s.slot s.cx) ∧ OtherCtxs s.myCore (t.core s.slot) s.cx ∧ OtherCores s t s.slot ∧
    { s.myCore with ctxs := (t.core s.slot).ctxs, ops := (t.core s.slot).ops, evc := (t.core s.slot).evc } = t.core s.slot ∧
    { s with cores := t.cores, agenda := t.agenda } = t ∧ SameMem s t

/-- Only general register `d` and PC change. -/
def OnlyG (d : G) (a b : Ctx) : Prop := { a with g := b.g, pc := b.pc } = b ∧ ∀ r : G, r ≠ d → b.getG r = a.getG r
/-- Only predicate register `d` and PC change. -/
def OnlyP (d : P) (a b : Ctx) : Prop := { a with p := b.p, pc := b.pc } = b ∧ ∀ r : P, r ≠ d → b.getP r = a.getP r
/-- Only vector register `d`, the sticky flags of %rnd in bits 15:8 and PC change. -/
def OnlyV (d : V) (a b : Ctx) : Prop :=
  { a with v := b.v, rnd := b.rnd, pc := b.pc } = b ∧ (∀ r : V, r ≠ d → b.getV r = a.getV r) ∧
    b.rnd &&& ~~~0xFF00 = a.rnd &&& ~~~0xFF00
/-- Only PC, the trap that is raised and, for `link`, g30 change. -/
def OnlyPc (link : Bool) (a b : Ctx) : Prop :=
  { a with g := b.g, pc := b.pc, traps := b.traps, delivering := b.delivering } = b ∧
    ∀ r : G, (link = true → r ≠ 30) → b.getG r = a.getG r

end Sys2Proof.Machine
end

