-- ==== Sys2Proof/Certificates/Slice0/Obligations.lean ====
section
/-! DEFINITION. The statements for the provers, one `def Obligations.<Name> : Prop` each; OBLIGATIONS.json lists them. -/
open Sys2Proof Sys2Proof.Machine

/-! ## Decoding (07 R95–R112) -/

/-- 07 R95–R111: every well-formed instruction's bytes, with any bytes behind them, decode to that instruction and its
length. -/
def Obligations.DecodeRoundTrip : Prop :=
  ∀ (i : Instr) (b : Bool) (rest : List Byte), i.isWord = true → i.wf = true →
    decodeBytes b (encode i ++ rest) = .instr i i.bytes

/-- 07 R99, R100, R111: a decoded instruction is well formed and its bytes are exactly those that it was decoded from, so
no two words decode to one instruction and a reserved field that is not zero is refused. -/
def Obligations.DecodeFaithful : Prop :=
  ∀ (b : Bool) (bs : List Byte) (i : Instr) (n : Nat), decodeBytes b bs = .instr i n →
    i.isWord = true ∧ i.wf = true ∧ n = i.bytes ∧ bs.take n = encode i

/-- 17 R306: the statements of Table 17-10 assemble to the words shown, and the words decode to them. Beside them the
three words of Table 8-1, two written out from the encodings of chapters 7 and 15, and what 07 R96, R110 and R112 make of
a granule of zeros, of the reserved major 0x07 and of the emulation space. -/
def Obligations.DecodeWords : Prop :=
  let zeros := fun (n : Nat) => List.replicate n (0 : Byte)
  let word := fun (w : Nat) (i : Instr) => decodeTableWord 64 w = some i ∧ encodeWord i = BitVec.ofNat 128 w
  word 0x0000000000880241 (.mtask 0 0 2 1) ∧ word 0x0600000000880241 (.mtask 0 3 2 1) ∧
  word 0x0000000062900251 (.lyrinit 0 4 5 6) ∧ word 0x00000004801C0255 (.lyrqW 0 7 8) ∧
  word 0x00000040339A8D01 (.ld 0xA 3 .d 6 7 64) ∧ word 0x0004000261100181 (.vopAdd 0 .f32 4 2 6) ∧
  decodeTableWord 128 (0x123456789ABCDEF0 * 2 ^ 64 + 0x0024005B) = some (.movw 0 9 0x123456789ABCDEF0) ∧
  word 0x1400000000240309 (.movsRead 0 9 0x0A) ∧ word 0x0000004200000301 (.trap 0 0x42) ∧
  decodeBytes false (zeros 8) = .pad ∧ decodeBytes true (zeros 32) = .illegal 5 1 ∧
  decodeBytes true (0x1D :: zeros 31) = .illegal 1 2 ∧ decodeBytes true (0x81 :: 0x03 :: zeros 30) = .illegal 4 2

/-! ## The step (03 R28–R35; 01 R12; 07 R95, R96) -/

/-- 03 R28, R33, R34, 07 R96, R103: where nothing is due, the next core's slot goes to the context of this cycle; where that
one is ready, no window of it has ended, and the fetch block is at hand, the bytes at PC are decoded, and an instruction
whose operands nothing outstanding writes, or whose predicate is false whatever is outstanding, is executed by the step:
`step` is `exec` of it. A pad first moves PC to the next block. A PC that is no multiple of 4 takes the alignment trap with
kind issue and Length 0 (07 R95); a coordinate address, one that no load could name, or one in a BLOCK page takes its trap
with the same kind and length (the model's choice, log entry 72); a block that is not at hand is fetched (07 R387). -/
def Obligations.StepRunsInstruction : Prop :=
  ∀ (s : State) (c : CoreId) (k : Core) (i : Instr) (n : Nat) (b b' : BitVec 256),
    let r := s.rearmAll
    let t : State := { r with slot := c, turn := c.toNat + 1, ev := none }
    let next : Word := BitVec.ofNat 64 (t.me.pc.toNat / 32 * 32 + 32)
    let u := t.modMe fun m => { m with pc := next }
    let free := fun (t : State) => (t.falseFor i = true ∨ t.hazards i = [] ∧ (i.lookahead?.isSome && t.myCore.full t.cx) = false) ∧
      t.me.missed = false ∧ t.me.withdrawnAt = none
    let named := fun (t : State) => t.me.pc.toNat % 4 = 0 ∧ isCoord t.me.pc = false ∧ ∃ g, t.checkAddr t.slot t.me.pc = .ok g
    let fetched := fun (t : State) (b : BitVec 256) =>
      named t ∧ t.myCore.wayBusy = false ∧ t.fetchInBlock = false ∧ t.fetchBlock = some b
    let bytes := fun (t : State) (b : BitVec 256) => decodeBytes (decide (t.me.pc.toNat % 32 = 0)) (bytesFrom b (t.me.pc.toNat % 32))
    (r.agenda.find? fun e => decide (e.1 ≤ r.cyc) && !e.2.probes && !r.asleep e.2) = none →
    (r.cores.find? fun e => decide (r.turn ≤ e.1)) = some (c.toNat, k) →
    t.present c = true → t.myCore.ready t.cx = true → t.mine .relist = [] → t.mine .again = [] → t.clrsAgain = [] → t.stops = [] →
    (fetched t b → bytes t b = .instr i n → free t → step s = exec i t) ∧
    (fetched t b → bytes t b = .pad → fetched u b' → bytes u b' = .instr i n → free u → step s = exec i u) ∧
    (∀ r l, fetched t b → bytes t b = .illegal r l →
      step s = exec .illegalEncoding { t with ev := some (.illegalEncoding c t.cx (r + 16 * l)) }) ∧
    (t.me.pc.toNat % 4 ≠ 0 → step s = .next (t.issueTrap 0 1 t.me.pc)) ∧
    (t.me.pc.toNat % 4 = 0 → isCoord t.me.pc = true → step s = .next (t.issueTrap 0 5 t.me.pc)) ∧
    (∀ cause, t.me.pc.toNat % 4 = 0 → isCoord t.me.pc = false → t.checkAddr t.slot t.me.pc = .error cause →
      step s = .next (t.issueTrap 0 cause t.me.pc)) ∧
    (named t → t.myCore.wayBusy = false → t.fetchInBlock = true → step s = .next (t.issueTrap 0 5 t.me.pc)) ∧
    (named t → t.myCore.wayBusy = false → t.fetchInBlock = false → t.fetchBlock = none → step s = .next t.startFetch)

/-- 03 R28, 01 R12, 15 R250: what the step does beside issue: a step of the hardware that is due is performed first, by its
row's meaning, of those that reach one home in one cycle the one from the lowest port (05 R72); a core that is not present,
or whose context is not ready, passes its slot, the second counting it lost; after the cores the banks perform what is
presented to them, then a steal probes its deque; with nothing left the next cycle begins. A step of a service core that is
held in reset waits (25 R378). That order within a cycle is the model's (log entry 3), and so is that the slot of an empty
context counts as lost too (log entry 16). Every row of the hardware's steps has its event, and goes on whatever the state
is when the step runs it for its event: none of them stops. -/
def Obligations.StepRunsEvents : Prop :=
  (∀ (s : State) (d : Nat) (e : Event) (c : CoreId) (k : Core) (b : BankReq),
    let r := s.rearmAll
    let due := r.agenda.find? fun e => decide (e.1 ≤ r.cyc) && !e.2.probes && !r.asleep e.2
    let next := r.cores.find? fun e => decide (r.turn ≤ e.1)
    let t : State := { r with slot := c, turn := c.toNat + 1, ev := none }
    let perform := fun (x : Nat × Event) => step s = exec x.2.row { r with agenda := r.agenda.erase x, ev := some x.2 }
    (due = some (d, e) → perform (r.lowestPort (d, e))) ∧
    (r.arrival e = none → r.lowestPort (d, e) = (d, e)) ∧
    (due = none → next = some (c.toNat, k) → t.present c = false → step s = .next t) ∧
    (due = none → next = some (c.toNat, k) → t.present c = true → t.mine .relist = [] → t.mine .again = [] →
      t.clrsAgain = [] → t.myCore.ready t.cx = false → step s = .next (t.count c 18)) ∧
    (due = none → next = none → r.banks.find? r.presented = some b →
      step s = exec .bankAccess { r with ev := some (.bankAccess b.store b.bank) }) ∧
    (due = none → next = none → r.banks.find? r.presented = none →
      (r.agenda.find? fun e => decide (e.1 ≤ r.cyc) && !r.asleep e.2) = some (d, e) → perform (d, e)) ∧
    (due = none → next = none → r.banks.find? r.presented = none →
      (r.agenda.find? fun e => decide (e.1 ≤ r.cyc) && !r.asleep e.2) = none →
      ∃ t, step s = .next t ∧ t.cyc = s.cyc + 1 ∧ t.turn = 0 ∧ t.mem = s.mem ∧
        ((∀ q ∈ s.cores, q.2.clearing = 0) → t.cores = s.cores))) ∧
  (∀ i : Instr, i.isWord = false → ∃ e : Event, e.row = i) ∧
  (∀ (e : Event) (s : State), s.ev = some e → ∃ t, exec e.row s = .next t)

/-- An instruction placed where the next step fetches it (log entry 41) is the one that the next step runs, by core 0's
context of this cycle, whose registers and memory are as they were; the package's own number is none above the machine's
largest. -/
def Obligations.PlacedWordRuns : Prop :=
  ∀ (s : State) (n w : Nat) (i : Instr), s.Canonical → SMap.wf none (s.core 0).code = true →
    s.pkgNum.toNat ≤ s.pkgTop.toNat → decodeTableWord n w = some i →
    ∃ t, step (s.withFetchWord n w) = exec i t ∧ t.slot = 0 ∧ t.cyc = s.cyc ∧ t.mem = s.mem ∧ SameRegs (s.ctx 0 s.cx) t.me

/-- Every step keeps the canonical form of memory, of the presence metadata and of the cores, so that equal contents stay
equal data (the model's own: 05 R86 gives what an unlisted byte reads as; log entry 2). -/
def Obligations.StepKeepsCanonical : Prop :=
  ∀ s t : State, s.Canonical → step s = .next t → t.Canonical

/-- 03 R32, 05 R86, 21 Tables 21-2 and 21-8: after reset context 0 of every core is halted with PC zero and level M,
every other context is empty, nothing is outstanding, %tvec, %fltsvc and %supv are zero, every byte reads zero, and the
state is canonical. The registers' zeros are the model's where the spec gives no value (log entry 1). -/
def Obligations.ResetState : Prop :=
  State.reset.Canonical ∧
  (∀ c : CoreId, let k := State.reset.core c
    (k.ctx 0).st = .halted ∧ (k.ctx 0).pc = 0 ∧ (k.ctx 0).priv = .m ∧ k.ops = [] ∧ k.cmds = [] ∧ k.mbox = [] ∧ k.rq = [] ∧
    k.tvec = 0 ∧ k.ways = 0x003 ∧ (∀ x : CtxId, x ≠ 0 → (k.ctx x).st = .empty) ∧
    (∀ (x : CtxId) (r : G), (k.ctx x).getG r = 0)) ∧
  (∀ k, State.reset.byte k = 0) ∧ State.reset.cyc = 0 ∧ State.reset.agenda = [] ∧
  State.reset.supv = Vector.replicate 8 0 ∧ State.reset.fltsvc = Vector.replicate 8 0

/-! ## Checks and frames (07 R103, R109; 11 R149, R150; 13 R191; 00 R2) -/

/-- 07 R103, R109, Table 7-6: every instruction, whatever its operands, its issuer and the state, answers a next state:
none stops the machine. Step 3: an instruction outside the vector majors whose predicate is false, and whose issuer Table
7-11 admits, takes its slot and does nothing else: no register, memory or counter changes, the PC and the windows beside.
13 R191: a vector instruction of majors 0x60 to 0x77 whose effective mask selects no lane of its type, or no piece of what a
memory form moves, takes its slot and does nothing else. -/
def Obligations.IdleInstructions : Prop :=
  (∀ (i : Instr) (s : State), i.isWord = true → ∃ t, exec i s = .next t) ∧
  (∀ (i : Instr) (s : State), i.isWord = true → ¬((fieldsOf i).op.toNat / 16 = 6 ∨ (fieldsOf i).op.toNat / 16 = 7) →
     s.me.test (fieldsOf i).p = false → i.admitted s.cx s.me.priv = true → exec i s = .next (s.skipped i.bytes)) ∧
  (∀ (p : Pred) (n : La) (ty src : Ty) (pair sc : Bool) (d a b e : V) (q : P) (cc : VCond) (g h : G) (idx : BitVec 5)
     (part : BitVec 4) (disp : BitVec 32) (s : State),
     let none := fun (n : Nat) (i : Instr) => s.me.mask p &&& BitVec.ofNat 32 (2 ^ n - 1) = 0 → exec i s = .next (s.skipped 8)
     none (256 / max src.width ty.width) (.vcvt p src part ty d a g) ∧ none 8 (.vdot p ty d a b) ∧
     none (if pair then 16 else 8) (.vld p n pair d g disp) ∧ none (if pair then 16 else 8) (.vst p n pair d g disp) ∧
     none 32 (.vldb p n d g disp) ∧ none 32 (.vstb p n d g disp) ∧
     ∀ i ∈ [Instr.vopAdd p ty d a b, .vopSub p ty d a b, .vopMul p ty d a b, .vopMin p ty d a b, .vopMax p ty d a b,
       .vopAdds p ty d a b, .vopSubs p ty d a b, .vopAnd p ty d a b, .vopOr p ty d a b, .vopXor p ty d a b,
       .vopAndn p ty d a b, .vopShl p ty d a b, .vopShr p ty d a b, .vopSar p ty d a b, .vopAbs p ty d a, .vopNeg p ty d a,
       .vopMulhi p ty d a b, .vfma p ty d a b e, .vfmaFms p ty d a b e, .vfmaFnma p ty d a b e, .vfmaFnms p ty d a b e,
       .vdiv p n ty d a b, .vsqrt p n ty d a, .vcmp p cc ty q a b, .vsel p ty d a b q, .vredAdd p ty g a, .vredMin p ty g a,
       .vredMax p ty g a, .vredAnd p ty g a, .vredOr p ty g a, .vredXor p ty g a, .vperm p ty d a b e, .vbcast p ty d g,
       .vbcastLane p ty d a idx, .vins p ty d g idx, .vext p ty g a idx, .vmov p ty d a, .vmovZero p ty d,
       .vlds p n ty d g h, .vsts p n ty d g h, .vgath p n ty sc d g b, .vscat p n ty sc d g b], none ty.lanes i)

/-- 07 R109, R110, Table 7-11; 21 R328: an instruction of context 0 that another context issues, or of a supervisor that
another level issues, takes the privilege trap, cause 10, at its own PC, whatever its predicate, and is not performed. 11
R149, R150: an address that is not a multiple of the access's width takes an issue trap of cause 1, Misaligned access,
naming the address, before anything is accessed; an aligned address whose form names no place takes the trap of that
form's cause. -/
def Obligations.IssueTraps : Prop :=
  (∀ (s : State) (p : Pred) (d a b e : G) (sr : BitVec 7),
     let traps := fun (i : Instr) => exec i s = .next (s.issueTrap 8 10 0)
     (s.cx ≠ 0 → ∀ i ∈ [Instr.rqpop p d, .rqpopP p d a, .rqpopCnt p d, .tstart p d a b e, .treap p d a, .preempt p d a b,
       .preemptQ p d a, .evac p d a b, .timer p a, .timerRel p a, .timerOff p, .movcWrite p sr a, .waym p d a, .sgway p d a],
       traps i) ∧
     (s.me.priv ≠ .s → ∀ i ∈ [Instr.holdt p d a, .resumet p d a, .emur p d a b, .emuw p a b e, .tlbiVa p a b, .tlbiAsid p b,
       .tlbiAll p, .tlbsync p, .fltrd p d a b, .fltrpl p a b, .lyrdrop p d a], traps i) ∧
     (s.cx ≠ 0 → s.me.priv ≠ .s → ∀ i ∈ [Instr.snap p, .cntclr p a], traps i)) ∧
  (∀ (p : Pred) (n : La) (z : Sz) (y : StSz) (far : Bool) (ty : Ty) (scope : Scope) (order : Order) (d a b : G)
     (disp : BitVec 32) (cause : Nat),
     let ea := fun (c : Ctx) => c.getG a + disp.signExtend 64
     let T := fun (i : Instr) (x : Ctx → Word) (w : Nat) =>
       Traps .any i p 8 (fun c _ => (x c).toNat % w ≠ 0) 1 (fun c _ => x c) ∧
       Traps .any i p 8 (fun c t => (x c).toNat % w = 0 ∧ t.checkAddr t.slot (x c) = .error cause) cause (fun c _ => x c)
     T (.ld p n z d a disp) ea z.bytes ∧ T (.st p n y d a disp) ea y.bytes ∧ T (.ldtry p n z d a disp) ea z.bytes ∧
     T (.ldq p n d a disp) ea 1 ∧ T (.bwait p n d a disp) ea 1 ∧ T (.clr p a disp) ea 1 ∧
     T (.aopAdd p n far ty scope order d a b) (fun c => c.getG a) (ty.width / 8) ∧
     T (.redAdd p n ty scope order a b) (fun c => c.getG a) (ty.width / 8))

/-- 11 R154–R168, 13 R233, R234, 15 R272, 17 R300: the frame of the instructions that write one general register: no
other register, context, core or byte changes. -/
def Obligations.GeneralFrame : Prop :=
  ∀ (p : Pred) (w : IntW) (d a b e : G) (imm : BitVec 32) (x : Word) (k : BitVec 6) (q : P) (sh : BitVec 3) (lvl : BitVec 2)
    (rel : Bool) (sr : BitVec 7),
    ∀ i ∈ [Instr.aluAdd p w d a b, .aluSub p w d a b, .aluAnd p w d a b, .aluOr p w d a b, .aluXor p w d a b,
      .aluAndn p w d a b, .aluOrn p w d a b, .aluXnor p w d a b, .aluMin p w d a b, .aluMax p w d a b, .aluMinu p w d a b,
      .aluMaxu p w d a b, .aluAdds p w d a b, .aluSubs p w d a b, .aluAddsu p w d a b, .aluSubsu p w d a b, .aluMov p w d a,
      .aluNeg p w d a, .aluNot p w d a, .addi p d a imm, .andi p d a imm, .ori p d a imm, .xori p d a imm, .movi p d imm,
      .movhi p d a imm, .movw p d x, .mulLo p d a b, .mulHi p d a b, .mulHiu p d a b, .mulMad p d a b e, .bitsShl p d a b,
      .bitsShr p d a b, .bitsSar p d a b, .bitsRol p d a b, .bitsRor p d a b, .bitsShli p d a k, .bitsShri p d a k,
      .bitsSari p d a k, .bitsRoli p d a k, .bitsRori p d a k, .bitsClz p d a, .bitsCtz p d a, .bitsPopc p d a,
      .bitsBrev p d a, .bitsBswap p d a, .fieldExt p d a b, .fieldExts p d a b, .fieldIns p d a b, .fieldMask p d b,
      .sel p d a b q, .lea p d a b sh, .leaOff p d a b sh, .pmovP2g p d q, .coordTile p d a, .coordGroup p d a,
      .coordSgrp p d a, .coordDie p d a, .coordPres p d a, .coordHmap p d a, .coordLocal p d a, .mka p lvl rel d a b,
      .mkg p d a b, .mkgOwn p d b, .movcRead p d sr, .cntrd p d a, .cstat p d, .cstatBar p lvl d, .mtqryQ p d,
      .tagl p d a, .taglG p d a b],
      Frame i (OnlyG d)

/-- 11 R151–R153, R163–R165, 13 R190–R204: the frames of predicate writes, of control transfers and of the vector
operations on registers: one predicate register; PC, a misaligned target's trap and, for the calls, g30; one vector
register with the sticky flags. -/
def Obligations.OtherFrames : Prop :=
  ∀ (p : Pred) (cc : Cond) (w : CmpW) (m : Combine) (q r s : P) (g h : G) (imm : BitVec 32) (ty : Ty) (d a b e : V)
    (idx : BitVec 5),
    (∀ i ∈ [Instr.cmp p cc w m q g h, .cmpi p cc q g imm, .plogAnd p q r s, .plogOr p q r s, .plogXor p q r s,
      .plogAndn p q r s, .plogOrn p q r s, .plogNand p q r s, .plogNor p q r s, .plogXnor p q r s, .plogNot p q r,
      .pmovG2p p q g, .pmovBc p q g], Frame i (OnlyP q)) ∧
    (∀ i ∈ [Instr.nop p imm, .bra p imm, .jmp p g, .ret p g, .brc p cc w g h imm], Frame i (OnlyPc false)) ∧
    (∀ i ∈ [Instr.call p imm, .callr p g], Frame i (OnlyPc true)) ∧
    (∀ i ∈ [Instr.vopAdd p ty d a b, .vopSub p ty d a b, .vopMul p ty d a b, .vopMin p ty d a b, .vopMax p ty d a b,
      .vopAdds p ty d a b, .vopSubs p ty d a b, .vopAnd p ty d a b, .vopOr p ty d a b, .vopXor p ty d a b,
      .vopAndn p ty d a b, .vopShl p ty d a b, .vopShr p ty d a b, .vopSar p ty d a b, .vopAbs p ty d a, .vopNeg p ty d a,
      .vopMulhi p ty d a b, .vfma p ty d a b e, .vfmaFms p ty d a b e, .vfmaFnma p ty d a b e, .vfmaFnms p ty d a b e,
      .vdot p ty d a b, .vsel p ty d a b q, .vperm p ty d a b e, .vbcast p ty d g, .vbcastLane p ty d a idx,
      .vins p ty d g idx, .vmov p ty d a, .vmovZero p ty d], Frame i (OnlyV d))

/-- 00 R2: a masked write of a granule changes exactly the bytes whose mask bit is one, and a granule read gives back
each byte in its place, lowest first. -/
def Obligations.BytesReadBack : Prop :=
  ∀ (s : State) (k j : Nat) (mask : BitVec 64) (x : Granule), s.Canonical →
    (s.putGranule k mask x).Canonical ∧
    (s.putGranule k mask x).byte j =
      (if k ≤ j ∧ j < k + 64 ∧ mask.getLsbD (j - k) = true then byteOf x (j - k) else s.byte j) ∧
    (∀ i, i < 64 → byteOf (s.granule k) i = s.byte (k + i))

/-! ## Scalar instructions on registers (11_scalar_isa.md) -/

/-- 11 R154: the two-operand ALU rows. X.type selects 64-bit operation, or 32-bit operation with a sign- or zero-extended
result; no flag exists. 11 R154: the one-operand ALU rows, and R155, R161: the immediate forms, each with its length. -/
def Obligations.AluResults : Prop :=
  (∀ (p : Pred) (w : IntW) (d a b : G),
     let R := fun (i : Instr) (f : (n : Nat) → BitVec n → BitVec n → BitVec n) =>
       WritesG i p 8 d fun c => match w with
         | .x64 => f 64 (c.getG a) (c.getG b)
         | .s32 => (f 32 ((c.getG a).setWidth 32) ((c.getG b).setWidth 32)).signExtend 64
         | .z32 => (f 32 ((c.getG a).setWidth 32) ((c.getG b).setWidth 32)).setWidth 64
     R (.aluAdd p w d a b) (fun _ x y => x + y) ∧ R (.aluSub p w d a b) (fun _ x y => x - y) ∧
     R (.aluAnd p w d a b) (fun _ x y => x &&& y) ∧ R (.aluOr p w d a b) (fun _ x y => x ||| y) ∧
     R (.aluXor p w d a b) (fun _ x y => x ^^^ y) ∧ R (.aluAndn p w d a b) (fun _ x y => x &&& ~~~y) ∧
     R (.aluOrn p w d a b) (fun _ x y => x ||| ~~~y) ∧ R (.aluXnor p w d a b) (fun _ x y => ~~~(x ^^^ y)) ∧
     R (.aluMin p w d a b) (fun _ x y => if x.toInt ≤ y.toInt then x else y) ∧
     R (.aluMax p w d a b) (fun _ x y => if x.toInt ≤ y.toInt then y else x) ∧
     R (.aluMinu p w d a b) (fun _ x y => if x.toNat ≤ y.toNat then x else y) ∧
     R (.aluMaxu p w d a b) (fun _ x y => if x.toNat ≤ y.toNat then y else x) ∧
     R (.aluAdds p w d a b) (fun n x y => BitVec.ofInt n (max (-2 ^ (n - 1)) (min (x.toInt + y.toInt) (2 ^ (n - 1) - 1)))) ∧
     R (.aluSubs p w d a b) (fun n x y => BitVec.ofInt n (max (-2 ^ (n - 1)) (min (x.toInt - y.toInt) (2 ^ (n - 1) - 1)))) ∧
     R (.aluAddsu p w d a b) (fun n x y => BitVec.ofNat n (min (x.toNat + y.toNat) (2 ^ n - 1))) ∧
     R (.aluSubsu p w d a b) (fun n x y => BitVec.ofNat n (x.toNat - y.toNat))) ∧
  (∀ (p : Pred) (w : IntW) (d a : G) (imm : BitVec 32) (x : Word),
     let ext := fun (y : Word) => match w with
       | .x64 => y
       | .s32 => (y.setWidth 32).signExtend 64
       | .z32 => (y.setWidth 32).setWidth 64
     WritesG (.aluMov p w d a) p 8 d (fun c => ext (c.getG a)) ∧
     WritesG (.aluNeg p w d a) p 8 d (fun c => ext (0 - c.getG a)) ∧
     WritesG (.aluNot p w d a) p 8 d (fun c => ext (~~~(c.getG a))) ∧
     WritesG (.addi p d a imm) p 8 d (fun c => c.getG a + imm.signExtend 64) ∧
     WritesG (.andi p d a imm) p 8 d (fun c => c.getG a &&& imm.signExtend 64) ∧
     WritesG (.ori p d a imm) p 8 d (fun c => c.getG a ||| imm.signExtend 64) ∧
     WritesG (.xori p d a imm) p 8 d (fun c => c.getG a ^^^ imm.signExtend 64) ∧
     WritesG (.movi p d imm) p 8 d (fun _ => imm.signExtend 64) ∧
     WritesG (.movhi p d a imm) p 8 d (fun c => imm ++ (c.getG a).setWidth 32) ∧
     WritesG (.movw p d x) p 16 d (fun _ => x))

/-- 11 R156: products; the MAD form adds a third operand. 11 R157, Table 11-6: a division opens an operation whose result
waits for its completion: zero divisors and the signed overflow give the table's results; 66 or 34 cycles later
LONG_LATENCY_COMPLETE writes it. -/
def Obligations.ProductsAndDivisions : Prop :=
  (∀ (p : Pred) (d a b e : G),
     WritesG (.mulLo p d a b) p 8 d (fun c => BitVec.ofInt 64 ((c.getG a).toInt * (c.getG b).toInt)) ∧
     WritesG (.mulHi p d a b) p 8 d
       (fun c => (((c.getG a).signExtend 128) * ((c.getG b).signExtend 128)).extractLsb' 64 64) ∧
     WritesG (.mulHiu p d a b) p 8 d (fun c => BitVec.ofNat 64 ((c.getG a).toNat * (c.getG b).toNat / 2 ^ 64)) ∧
     WritesG (.mulMad p d a b e) p 8 d (fun c => c.getG a * c.getG b + c.getG e)) ∧
  (∀ (p : Pred) (n : La) (w : IntW) (d a b : G),
     let R := fun (i : Instr) (f : (n : Nat) → BitVec n → BitVec n → BitVec n) =>
       Runs .any i p 8 (fun _ _ => True) fun c t =>
         (t.addOp c 8 n (.calcG d (w.lift f (c.getG a) (c.getG b))) (gMask := (1 : BitVec 32) <<< d.toNat)).after
           (if w = .x64 then 66 else 34) (.longLatencyComplete t.slot t.myCore.nextId (.advance 0))
     R (.divS p n w d a b) (fun k x y => if y = 0 then BitVec.allOnes k else BitVec.ofInt k (x.toInt.tdiv y.toInt)) ∧
     R (.divU p n w d a b) (fun k x y => if y = 0 then BitVec.allOnes k else BitVec.ofNat k (x.toNat / y.toNat)) ∧
     R (.divRem p n w d a b) (fun k x y => if y = 0 then x else BitVec.ofInt k (x.toInt.tmod y.toInt)) ∧
     R (.divRemu p n w d a b) (fun k x y => if y = 0 then x else BitVec.ofNat k (x.toNat % y.toNat)))

/-- 11 R158: shifts and rotates, by a register modulo 64 or by an immediate. 11 R158: counts and reversals: bit `i` of a
BREV result is bit 63 − i of the operand, byte `i` of a BSWAP result is byte 7 − i. 11 R159: FIELD reads and writes the
bits from p, n of them, p = g[B][5:0] and n = g[B][13:8] + 1, said bit by bit. -/
def Obligations.BitResults : Prop :=
  (∀ (p : Pred) (d a b : G) (k : BitVec 6),
     let R := fun (i j : Instr) (f : Word → Nat → Word) =>
       WritesG i p 8 d (fun c => f (c.getG a) ((c.getG b).toNat % 64)) ∧ WritesG j p 8 d (fun c => f (c.getG a) k.toNat)
     R (.bitsShl p d a b) (.bitsShli p d a k) (fun x n => BitVec.ofNat 64 (x.toNat * 2 ^ n)) ∧
     R (.bitsShr p d a b) (.bitsShri p d a k) (fun x n => BitVec.ofNat 64 (x.toNat / 2 ^ n)) ∧
     R (.bitsSar p d a b) (.bitsSari p d a k) (fun x n => BitVec.ofInt 64 (x.toInt / 2 ^ n)) ∧
     R (.bitsRol p d a b) (.bitsRoli p d a k) (fun x n => (x <<< n) ||| (x >>> (64 - n))) ∧
     R (.bitsRor p d a b) (.bitsRori p d a k) (fun x n => (x >>> n) ||| (x <<< (64 - n)))) ∧
  (∀ (p : Pred) (d a : G),
     WritesG (.bitsPopc p d a) p 8 d
       (fun c => BitVec.ofNat 64 ((List.range 64).filter fun i => (c.getG a).getLsbD i).length) ∧
     (∃ f : Word → Word, WritesG (.bitsClz p d a) p 8 d (fun c => f (c.getG a)) ∧ f 0 = 64 ∧
       ∀ x : Word, x ≠ 0 → (f x).toNat < 64 ∧ x.getLsbD (63 - (f x).toNat) = true ∧
         ∀ i, 63 - (f x).toNat < i → x.getLsbD i = false) ∧
     (∃ f : Word → Word, WritesG (.bitsCtz p d a) p 8 d (fun c => f (c.getG a)) ∧ f 0 = 64 ∧
       ∀ x : Word, x ≠ 0 → (f x).toNat < 64 ∧ x.getLsbD (f x).toNat = true ∧
         ∀ i, i < (f x).toNat → x.getLsbD i = false) ∧
     (∃ f : Word → Word, WritesG (.bitsBrev p d a) p 8 d (fun c => f (c.getG a)) ∧
       ∀ x i, i < 64 → (f x).getLsbD i = x.getLsbD (63 - i)) ∧
     (∃ f : Word → Word, WritesG (.bitsBswap p d a) p 8 d (fun c => f (c.getG a)) ∧
       ∀ x i, i < 8 → byteOf (f x) i = byteOf x (7 - i))) ∧
  (∀ (p : Pred) (d a b : G),
     let pos := fun (c : Ctx) => ((c.getG b).extractLsb' 0 6).toNat
     let len := fun (c : Ctx) => ((c.getG b).extractLsb' 8 6).toNat + 1
     let R := fun (i : Instr) (bit : Ctx → Nat → Bool) => ∃ v : Ctx → Word, WritesG i p 8 d v ∧
       ∀ c k, k < 64 → (v c).getLsbD k = bit c k
     R (.fieldExt p d a b) (fun c k => decide (k < len c) && (c.getG a).getLsbD (pos c + k)) ∧
     R (.fieldExts p d a b)
       (fun c k => (c.getG a).getLsbD (pos c + min k (min (len c) (64 - pos c) - 1))) ∧
     R (.fieldIns p d a b) (fun c k =>
       if pos c ≤ k ∧ k < pos c + len c then (c.getG a).getLsbD (k - pos c) else (c.getG d).getLsbD k) ∧
     R (.fieldMask p d b) (fun c k => decide (pos c ≤ k ∧ k < pos c + len c)))

/-- 11 R160–R162: SEL takes g[A] when bit 0 of the predicate it names is 1; LEA adds a shifted register; LEA.OFF keeps
bits 63:42 of its base. 11 R166–R168: positions of the units that hold a core, presence, the map's words, relative
offsets, and the forming of coordinate and global addresses. -/
def Obligations.AddressResults : Prop :=
  (∀ (p : Pred) (d a b : G) (q : P) (k : BitVec 3),
     WritesG (.sel p d a b q) p 8 d (fun c => if (c.getP q).getLsbD 0 then c.getG a else c.getG b) ∧
     WritesG (.lea p d a b k) p 8 d (fun c => c.getG a + (c.getG b <<< k.toNat)) ∧
     (∃ v : Ctx → Word, WritesG (.leaOff p d a b k) p 8 d v ∧
       ∀ c, (v c).extractLsb' 42 22 = (c.getG a).extractLsb' 42 22 ∧
         (v c).setWidth 42 = (c.getG a + (c.getG b <<< k.toNat)).setWidth 42)) ∧
  (∀ (p : Pred) (d a b : G) (lvl : BitVec 2) (rel : Bool),
     let x := fun (c : Ctx) => (c.getG a).toNat % 256
     let y := fun (c : Ctx) => (c.getG a).toNat / 256 % 256
     let R := fun (i : Instr) (f : Ctx → State → Word) => Runs .any i p 8 (fun _ _ => True) fun c t => t.putG d (f c t)
     R (.coordTile p d a) (fun c _ => BitVec.ofNat 64 (y c / 4 * 256 + x c / 4)) ∧
     R (.coordGroup p d a) (fun c _ => BitVec.ofNat 64 (y c / 8 * 256 + x c / 8)) ∧
     R (.coordSgrp p d a) (fun c _ => BitVec.ofNat 64 (y c / 16 * 256 + x c / 16)) ∧
     R (.coordDie p d a) (fun c _ => BitVec.ofNat 64 (2 * (y c / 64) + x c / 128)) ∧
     R (.coordPres p d a) (fun c t => if t.present ((c.getG a).setWidth 16) then 1 else 0) ∧
     R (.coordHmap p d a) (fun c t => t.hmap ((c.getG a).toNat % 4)) ∧
     R (.coordLocal p d a) (fun c t =>
       let dx : Int := ((c.getG a).setWidth 8).toInt + (coreX t.slot : Int)
       let dy : Int := ((c.getG a).extractLsb' 8 8).toInt + (coreY t.slot : Int)
       if 0 ≤ dx ∧ dx ≤ 255 ∧ 0 ≤ dy ∧ dy ≤ 255 ∧ t.present (mkCore dx.toNat dy.toNat) then
         BitVec.ofInt 64 (dy * 256 + dx) else BitVec.allOnes 64) ∧
     R (.mka p lvl rel d a b) (fun c _ =>
       1#1 ++ BitVec.ofBool rel ++ 0#2 ++ lvl ++ (c.getG a).extractLsb' 0 8 ++ (c.getG a).extractLsb' 8 8 ++
         (c.getG b).extractLsb' 0 42) ∧
     R (.mkg p d a b) (fun c _ => 0#7 ++ (c.getG a).setWidth 5 ++ (c.getG b).setWidth 52) ∧
     R (.mkgOwn p d b) (fun c t => 0#7 ++ t.pkgNum ++ (c.getG b).setWidth 52))

/-- 11 R151–R153: a transfer goes to its target when the target is a multiple of 4, CALL and CALLR having saved the next
PC in g30; the offset forms add to this PC. BRC, of 12 bytes, falls through where its condition of Table 11-2, spelled out
in `condTable`, does not hold. A target that is not a multiple of 4 traps Misaligned access at the transfer's own PC, and no
register is written; that the trap's address is the target is the model's reading (log entry 24). -/
def Obligations.ControlTransfers : Prop :=
  (∀ (p : Pred) (cc : Cond) (w : CmpW) (a b : G) (off : BitVec 32),
     let ok := fun (x : Word) => x.toNat % 4 = 0
     let goTo := fun (t : State) (x : Word) => t.modMe fun m => { m with pc := x }
     let link := fun (c : Ctx) (t : State) => t.putG 30 (c.pc + 8)
     Runs .any (.nop p off) p 8 (fun _ _ => True) (fun _ t => t) ∧
     Runs .any (.bra p off) p 8 (fun c _ => ok (c.pc + off.signExtend 64)) (fun c t => goTo t (c.pc + off.signExtend 64)) ∧
     Runs .any (.jmp p a) p 8 (fun c _ => ok (c.getG a)) (fun c t => goTo t (c.getG a)) ∧
     Runs .any (.ret p a) p 8 (fun c _ => ok (c.getG a)) (fun c t => goTo t (c.getG a)) ∧
     Runs .any (.call p off) p 8 (fun c _ => ok (c.pc + off.signExtend 64))
       (fun c t => goTo (link c t) (c.pc + off.signExtend 64)) ∧
     Runs .any (.callr p a) p 8 (fun c _ => ok (c.getG a)) (fun c t => goTo (link c t) (c.getG a)) ∧
     Runs .any (.brc p cc w a b off) p 12
       (fun c _ => ok (if condTable cc w (c.getG a) (c.getG b) then c.pc + off.signExtend 64 else c.pc + 12))
       (fun c t => goTo t (if condTable cc w (c.getG a) (c.getG b) then c.pc + off.signExtend 64 else c.pc + 12))) ∧
  (∀ (p : Pred) (cc : Cond) (w : CmpW) (a b : G) (off : BitVec 32),
     let bad := fun (x : Word) => x.toNat % 4 ≠ 0
     Traps .any (.bra p off) p 8 (fun c _ => bad (c.pc + off.signExtend 64)) 1 (fun c _ => c.pc + off.signExtend 64) ∧
     Traps .any (.call p off) p 8 (fun c _ => bad (c.pc + off.signExtend 64)) 1 (fun c _ => c.pc + off.signExtend 64) ∧
     Traps .any (.jmp p a) p 8 (fun c _ => bad (c.getG a)) 1 (fun c _ => c.getG a) ∧
     Traps .any (.callr p a) p 8 (fun c _ => bad (c.getG a)) 1 (fun c _ => c.getG a) ∧
     Traps .any (.ret p a) p 8 (fun c _ => bad (c.getG a)) 1 (fun c _ => c.getG a) ∧
     Traps .any (.brc p cc w a b off) p 12
       (fun c _ => condTable cc w (c.getG a) (c.getG b) = true ∧ bad (c.pc + off.signExtend 64)) 1
       (fun c _ => c.pc + off.signExtend 64))

/-- 11 R163–R165: comparisons give all ones where the condition of Table 11-2, spelled out in `condTable`, holds, else zero,
combined with the old value where .and or .or says so; predicate logic and moves. -/
def Obligations.PredicateResults : Prop :=
  ∀ (p : Pred) (cc : Cond) (w : CmpW) (m : Combine) (d a b : P) (g h : G) (imm : BitVec 32),
    let all := fun (x : Bool) => if x then BitVec.allOnes 32 else (0 : BitVec 32)
    WritesP (.cmp p cc w m d g h) p d (fun c =>
      let x := all (condTable cc w (c.getG g) (c.getG h))
      match m with | .none => x | .and => c.getP d &&& x | .or => c.getP d ||| x) ∧
    WritesP (.cmpi p cc d g imm) p d (fun c => all (condTable cc .x64 (c.getG g) (imm.signExtend 64))) ∧
    WritesP (.plogAnd p d a b) p d (fun c => c.getP a &&& c.getP b) ∧
    WritesP (.plogOr p d a b) p d (fun c => c.getP a ||| c.getP b) ∧
    WritesP (.plogXor p d a b) p d (fun c => c.getP a ^^^ c.getP b) ∧
    WritesP (.plogAndn p d a b) p d (fun c => c.getP a &&& ~~~c.getP b) ∧
    WritesP (.plogOrn p d a b) p d (fun c => c.getP a ||| ~~~c.getP b) ∧
    WritesP (.plogNand p d a b) p d (fun c => ~~~(c.getP a &&& c.getP b)) ∧
    WritesP (.plogNor p d a b) p d (fun c => ~~~(c.getP a ||| c.getP b)) ∧
    WritesP (.plogXnor p d a b) p d (fun c => ~~~(c.getP a ^^^ c.getP b)) ∧
    WritesP (.plogNot p d a) p d (fun c => ~~~c.getP a) ∧
    WritesP (.pmovG2p p d g) p d (fun c => (c.getG g).setWidth 32) ∧
    WritesP (.pmovBc p d g) p d (fun c => all ((c.getG g).getLsbD 0)) ∧
    WritesG (.pmovP2g p h a) p 8 h (fun c => (c.getP a).setWidth 64)

/-! ## Memory instructions (11 R169–R188, 13 R205–R210) -/

/-- 11 R171: a scalar load or store whose address passes issue opens an operation with one access: the bytes of its size
at ea = g[A] + sext(imm), or at g[A] + g[B], shifted by the size where .sc asks. A store to the issuing core's local store
takes effect in its slot (19 R314): while an earlier access of the thread holds it back, the slot is lost; no other store is
so held, nor one of a core that has nothing outstanding. 11 R173–R177: LDM and STM move c + 1
doublewords within one granule; LDQ, LDTRY and BWAIT ask their block's home for its tag, LDQ and BWAIT without an alignment
rule. -/
def Obligations.LoadsAndStores : Prop :=
  (∀ (p : Pred) (n : La) (z : Sz) (y : StSz) (sc : Bool) (d a b : G) (disp : BitVec 32),
     let eaI := fun (c : Ctx) => c.getG a + disp.signExtend 64
     let eaX := fun (c : Ctx) (k : Nat) => c.getG a + (c.getG b <<< (if sc then k else 0))
     let L := fun (i : Instr) (ea : Ctx → Word) =>
       Runs .any i p 8 (fun c t => AddrOk t (ea c) z.bytes) fun c t =>
         t.launchOp c n (.load z d)
           [{ va := ea c, mask := spanMask ((ea c).toNat % 64) z.bytes, op := .read }] (gMask := (1 : BitVec 32) <<< d.toNat)
     let S := fun (i : Instr) (ea : Ctx → Word) =>
       let accs := fun (c : Ctx) => [({ va := ea c, mask := spanMask ((ea c).toNat % 64) y.bytes
                                        op := .write (spanMask ((ea c).toNat % 64) y.bytes)
                                          (((c.getG d).setWidth 512 : Granule) <<< (8 * ((ea c).toNat % 64))) } : Access)]
       Runs .any i p 8 (fun c t => AddrOk t (ea c) y.bytes ∧ t.localHeld c (accs c) = false)
         (fun c t => t.launchOp c n .store (accs c) (counted := true)) ∧
       Loses .any i p 8 (fun c t => AddrOk t (ea c) y.bytes ∧ t.localHeld c (accs c) = true)
     L (.ld p n z d a disp) eaI ∧ L (.ldx p n z sc d a b) (fun c => eaX c z.log2) ∧
     S (.st p n y d a disp) eaI ∧ S (.stx p n y sc d a b) (fun c => eaX c y.log2)) ∧
  (∀ (p : Pred) (n : La) (e : BitVec 3) (z : Sz) (d a : G) (disp : BitVec 32),
     let ea := fun (c : Ctx) => c.getG a + disp.signExtend 64
     let w := 8 * (e.toNat + 1)
     let fits := fun (c : Ctx) (t : State) => AddrOk t (ea c) 8 ∧ (ea c).toNat % 64 + w ≤ 64
     Runs .any (.ldm p n e d a disp) p 8 fits (fun c t =>
       t.launchOp c n (.loadM e d) [{ va := ea c, mask := spanMask ((ea c).toNat % 64) w, op := .read }]
         (gMask := (BitVec.ofNat 32 (2 ^ (e.toNat + 1) - 1)) <<< d.toNat)) ∧
     (let accs := fun (c : Ctx) => [({ va := ea c, mask := spanMask ((ea c).toNat % 64) w
                                       op := .write (spanMask ((ea c).toNat % 64) w)
                                         (granuleOf ((List.range (e.toNat + 1)).map fun i => c.getG (d + BitVec.ofNat 5 i)) <<<
                                           (8 * ((ea c).toNat % 64))) } : Access)]
      Runs .any (.stm p n e d a disp) p 8 (fun c t => fits c t ∧ t.localHeld c (accs c) = false)
        (fun c t => t.launchOp c n .store (accs c) (counted := true)) ∧
      Loses .any (.stm p n e d a disp) p 8 (fun c t => fits c t ∧ t.localHeld c (accs c) = true)) ∧
     Runs .any (.ldq p n d a disp) p 8 (fun c t => AddrOk t (ea c) 1)
       (fun c t => t.launchOp c n (.ldq d) [{ va := ea c, mask := 0, op := .ldq }] (gMask := (1 : BitVec 32) <<< d.toNat)) ∧
     Runs .any (.ldtry p n z d a disp) p 8 (fun c t => AddrOk t (ea c) z.bytes)
       (fun c t => t.launchOp c n (.ldtry z d)
         [{ va := ea c, mask := spanMask ((ea c).toNat % 64) z.bytes, op := .ldtry }]
         (gMask := (1 <<< d.toNat) ||| (1 <<< (d + 1).toNat))) ∧
     Runs .any (.bwait p n d a disp) p 8 (fun c t => AddrOk t (ea c) 1)
       (fun c t => t.launchOp c n (.bwait d) [{ va := ea c, mask := 0, op := .bwait }] (gMask := (1 : BitVec 32) <<< d.toNat))) ∧
  (∀ (t : State) (c : Ctx) (l : List Access),
     (∀ a ∈ l, ¬(isCoord a.va = true ∧ coordLevel a.va = 0)) ∨ Quiet t → t.localHeld c l = false)

/-- 11 R178–R181: CLR clears one block, CLRN g[B][11:0] + 1 of them: where the address passes issue, the run is recorded
with its thread, address and count, and sent to its first home in the same cycle. A prefetch of a global PLAIN line that a
translation cache places asks its die's bank for that line, shared or exclusive, unless the cache holds it so; one of
another package's address asks for the line under its alias (23 R343); and any other prefetch (a BLOCK page, a store, an
address whose form names no place, a page that no translation cache holds, of which R181 says that it is abandoned; log
entry 25) only advances PC. -/
def Obligations.ClearAndPrefetch : Prop :=
  ∀ (p : Pred) (a b : G) (disp : BitVec 32),
    let clear := fun (i : Instr) (ea : Ctx → Word) (count : Ctx → Nat) (counts : Bool) =>
      Runs .any i p 8 (fun c t => AddrOk t (ea c) 1) fun c t =>
        (t.modCore t.slot fun k =>
          { k with
            nextId := k.nextId + 1
            clrs := k.clrs ++ [{ id := k.nextId, ctx := t.cx, tid := c.tid, pc := c.pc, va := ea c, asid := c.asid
                                 priv := c.priv, count := count c, counts := counts
                                 acc := { va := ea c, mask := 0, op := .clear (count c) } }] }).after 0
          (.clrAtHome (.clr t.slot t.myCore.nextId) 0)
    let pref := fun (x : Bool) => if x then Instr.prefX p a disp else .prefS p a disp
    let ea := fun (c : Ctx) => c.getG a + disp.signExtend 64
    let places := fun (c : Ctx) (t : State) (off : Nat) =>
      (findTlb t.myCore.dtlb c.asid off c.priv 0).or (findTlb (t.l2 (some (grp16 t.slot))) c.asid off c.priv 0)
    let found := fun (c : Ctx) (t : State) (off : Nat) (e : TlbEnt) =>
      t.checkAddr t.slot (ea c) = .ok (.global t.pkgNum off) ∧ places c t off = some e
    clear (.clr p a disp) (fun c => c.getG a + disp.signExtend 64) (fun _ => 1) false ∧
    clear (.clrn p a b) (fun c => c.getG a) (fun c => (c.getG b).toNat % 4096 + 1) true ∧
    let asks := fun (x : Bool) (c : Ctx) (t : State) (line : Nat) =>
      ({ t with fresh := t.fresh + 1 } : State).missLine line x
        { id := t.newId t.slot, asid := c.asid, priv := c.priv.code, core := t.slot, ctx := t.cx, addr := ea c, op := .peek
          posted := false, launch := 0, who := none, plain := true }
    (∀ (x : Bool) (off : Nat) (e : TlbEnt),
      let line := fun (t : State) => (t.leafMap e off).key / 64
      let plain := fun (c : Ctx) (t : State) => found c t off e ∧ (t.leafMap e off).isBlock = false
      Runs .any (pref x) p 8 (fun c t => plain c t ∧ t.lineHit (sgIdx t.slot) (line t) x = true) (fun _ t => t) ∧
      Runs .any (pref x) p 8 (fun c t => plain c t ∧ t.lineHit (sgIdx t.slot) (line t) x = false)
        (fun c t => asks x c t (line t)) ∧
      Runs .any (pref x) p 8 (fun c t => found c t off e ∧ (t.leafMap e off).isBlock = true) (fun _ t => t) ∧
      Runs .any (pref x) p 8
        (fun c t => t.checkAddr t.slot (ea c) = .ok (.global t.pkgNum off) ∧ places c t off = none) (fun _ t => t)) ∧
    (∀ (x : Bool) (pkg : BitVec 5) (off : Nat),
      let other := fun (c : Ctx) (t : State) => t.checkAddr t.slot (ea c) = .ok (.global pkg off) ∧ pkg ≠ t.pkgNum
      let line := fun (c : Ctx) => aliasLine pkg c.asid ((ea c).toNat % 2 ^ 52)
      Runs .any (pref x) p 8 (fun c t => other c t ∧ t.lineHit (sgIdx t.slot) (line c) x = true) (fun _ t => t) ∧
      Runs .any (pref x) p 8 (fun c t => other c t ∧ t.lineHit (sgIdx t.slot) (line c) x = false)
        (fun c t => asks x c t (line c))) ∧
    (∀ (x : Bool) (l o : Nat) (tg : CoreId),
      Runs .any (pref x) p 8 (fun c t => t.checkAddr t.slot (ea c) = .ok (.store l tg o)) (fun _ t => t)) ∧
    (∀ (x : Bool) (cause : Nat),
      Runs .any (pref x) p 8 (fun c t => t.checkAddr t.slot (ea c) = .error cause) (fun _ t => t))

/-- 11 R183–R185: an atomic on a global address, or on the issuing core's local store, opens an operation whose one
access reads, computes and writes the operand's bytes; .far is asked only of a global address. 11 Table 11-17, R183,
R185: what an atomic computes on `w` bytes: the new value from the old one and the operand, for swap, add, the logic
operations, minimum and maximum by the type's signedness, and the compare-and-swap that writes its operand exactly where
the old value equals the expected one. 11 R182, R187: RED and POST of a global address open a posted operation; outside
context 0 it is counted against its launch, apart while its member has not executed TRIG (03 R48; that context 0 belongs to no
launch is the model's reading, log entry 27). -/
def Obligations.AtomicsAndPosts : Prop :=
  (∀ (p : Pred) (n : La) (far q : Bool) (ty : Ty) (scope : Scope) (order : Order) (d a b e : G),
     let ok := fun (c : Ctx) (t : State) (w : Nat) =>
       AddrOk t (c.getG a) w ∧ (isCoord (c.getG a) = true → coordLevel (c.getG a) = 0)
     let A := fun (i : Instr) (f : Nat) =>
       Runs .any i p 8 (fun c t => ok c t (ty.width / 8)) fun c t =>
         t.launchOp c n (.atomic ty false d)
           [{ va := c.getG a, mask := spanMask ((c.getG a).toNat % 64) (ty.width / 8)
              op := .rmw f (ty.width / 8) ty ((c.getG b).setWidth 128) 0 }]
           (gMask := (1 : BitVec 32) <<< d.toNat) (order := order) (scope := scope) (counted := true)
           (far := far && !isCoord (c.getG a))
     A (.aopSwap p n far ty scope order d a b) 0 ∧ A (.aopAdd p n far ty scope order d a b) 1 ∧
     A (.aopAnd p n far ty scope order d a b) 2 ∧ A (.aopOr p n far ty scope order d a b) 3 ∧
     A (.aopXor p n far ty scope order d a b) 4 ∧ A (.aopMin p n far ty scope order d a b) 5 ∧
     A (.aopMax p n far ty scope order d a b) 6 ∧
     Runs .any (.acas p n far q ty scope order d a b e) p 8
       (fun c t => ok c t (if q then 16 else ty.width / 8))
       (fun c t =>
         let w := if q then 16 else ty.width / 8
         let pair := fun (r : G) => if q then c.getG (r + 1) ++ c.getG r else (c.getG r).setWidth 128
         t.launchOp c n (.atomic ty q d)
           [{ va := c.getG a, mask := spanMask ((c.getG a).toNat % 64) w, op := .rmw 7 w ty (pair e) (pair b) }]
           (gMask := if q then ((1 : BitVec 32) <<< d.toNat) ||| (1 <<< (d + 1).toNat) else 1 <<< d.toNat)
           (order := order) (scope := scope) (counted := true) (far := far && !isCoord (c.getG a)))) ∧
  (∀ (w : Nat) (ty : Ty) (b x old : BitVec 128),
     let N := fun (f : BitVec (8 * w) → BitVec (8 * w) → BitVec (8 * w)) =>
       some ((f (old.setWidth (8 * w)) (b.setWidth (8 * w))).setWidth 128)
     atomicNew 0 w ty b x old = N (fun _ v => v) ∧
     (ty ≠ .f32 → atomicNew 1 w ty b x old = N (fun o v => o + v)) ∧
     atomicNew 2 w ty b x old = N (fun o v => o &&& v) ∧ atomicNew 3 w ty b x old = N (fun o v => o ||| v) ∧
     atomicNew 4 w ty b x old = N (fun o v => o ^^^ v) ∧
     (ty.isS = true → atomicNew 5 w ty b x old = N (fun o v => if o.toInt ≤ v.toInt then o else v) ∧
       atomicNew 6 w ty b x old = N (fun o v => if o.toInt ≤ v.toInt then v else o)) ∧
     (ty.isS = false → atomicNew 5 w ty b x old = N (fun o v => if o.toNat ≤ v.toNat then o else v) ∧
       atomicNew 6 w ty b x old = N (fun o v => if o.toNat ≤ v.toNat then v else o)) ∧
     (old.setWidth (8 * w) = x.setWidth (8 * w) → atomicNew 7 w ty b x old = N (fun _ v => v)) ∧
     (old.setWidth (8 * w) ≠ x.setWidth (8 * w) → atomicNew 7 w ty b x old = none)) ∧
  (∀ (p : Pred) (n : La) (ty : Ty) (scope : Scope) (order : Order) (a b : G) (sz : PostSz),
     let ok := fun (c : Ctx) (t : State) (w : Nat) => AddrOk t (c.getG a) w ∧ isCoord (c.getG a) = false
     let P := fun (i : Instr) (w : Nat) (op : Ctx → HomeOp) =>
       Runs .any i p 8 (fun c t => ok c t w) fun c t =>
         let u := t.launchOp c n .post [{ va := c.getG a, mask := spanMask ((c.getG a).toNat % 64) w, op := op c }]
           (order := order) (scope := scope)
         if t.cx = 0 then u else u.account c.launch (!c.triggered)
     let red := fun (f : Nat) (c : Ctx) => HomeOp.rmw f (ty.width / 8) ty ((c.getG b).setWidth 128) 0
     let bytes := match sz with | .b => 1 | .h => 2 | .w => 4 | .d => 8 | .g => 64
     P (.redAdd p n ty scope order a b) (ty.width / 8) (red 1) ∧ P (.redAnd p n ty scope order a b) (ty.width / 8) (red 2) ∧
     P (.redOr p n ty scope order a b) (ty.width / 8) (red 3) ∧ P (.redXor p n ty scope order a b) (ty.width / 8) (red 4) ∧
     P (.redMin p n ty scope order a b) (ty.width / 8) (red 5) ∧ P (.redMax p n ty scope order a b) (ty.width / 8) (red 6) ∧
     P (.post p n sz scope order a b) bytes (fun c =>
       .write (spanMask ((c.getG a).toNat % 64) bytes)
         (((match sz with | .g => c.getPair (b.extractLsb' 1 3) | _ => (c.getG b).setWidth 512) : Granule) <<<
           (8 * ((c.getG a).toNat % 64)))))

/-- 13 R205–R209: the vector memory forms whose checked addresses all pass issue open an operation with one access per
granule that an active lane touches; `vecPieces` names the lanes' bytes, `loadAccs` and `storeAccs` the accesses. R205,
R206: lane `k` of each form, where it is active, moves its bytes between its place in the register and its own address:
the next 4 bytes, the next byte, a stride's multiple, or an indexed offset from g[A], shifted by the lane's size where .sc
asks; what is checked is the one address of the contiguous forms, a multiple of their width, and each active lane's of the
others. A store of a local-store granule that an earlier access of the thread holds back loses its slot, as a scalar one
does. R207: the accesses are of granules in ascending order, each once, and exactly those that a lane touches. -/
def Obligations.VectorMemoryIssue : Prop :=
  (∀ (p : Pred) (n : La) (g sc : Bool) (ty : Ty) (d bv : V) (a b : G) (disp : BitVec 32),
    let ok := fun (i : Instr) (c : Ctx) (t : State) => ∀ q ∈ vecChecks i c, AddrOk t q.1 q.2
    let L := fun (i : Instr) (lanes : Nat) (pair : Bool) => RunsV i p lanes (ok i) fun c _ t =>
      t.launchOp c n (.vload d pair (loadParts (vecPieces i c))) (loadAccs (vecPieces i c))
        (vMask := if pair then ((1 : BitVec 16) <<< d.toNat) ||| (1 <<< (d + 1).toNat) else 1 <<< d.toNat) (ins := some i)
    let S := fun (i : Instr) (lanes : Nat) (pair : Bool) =>
      let accs := fun (c : Ctx) =>
        storeAccs (vecPieces i c) (if pair then c.getPair (d.extractLsb' 1 3) else (c.getV d).setWidth 512)
      RunsV i p lanes (fun c t => ok i c t ∧ t.localHeld c (accs c) = false)
        (fun c _ t => t.launchOp c n .store (accs c) (counted := true))
    L (.vld p n g d a disp) (if g then 16 else 8) g ∧ S (.vst p n g d a disp) (if g then 16 else 8) g ∧
    L (.vldb p n d a disp) 32 false ∧ S (.vstb p n d a disp) 32 false ∧
    L (.vlds p n ty d a b) ty.lanes false ∧ S (.vsts p n ty d a b) ty.lanes false ∧
    L (.vgath p n ty sc d a bv) ty.lanes false ∧ S (.vscat p n ty sc d a bv) ty.lanes false) ∧
  (∀ (p : Pred) (n : La) (g sc : Bool) (ty : Ty) (d bv : V) (a b : G) (disp : BitVec 32) (c : Ctx) (q : Piece),
    let ea := c.getG a + disp.signExtend 64
    let lanes := fun (i : Instr) (count w : Nat) (at_ : Nat → Word) =>
      q ∈ vecPieces i c ↔ ∃ k, k < count ∧ (c.mask p).getLsbD k = true ∧ q = { dst := w * k, ea := at_ k, len := w }
    let each := fun (i : Instr) => vecChecks i c = (vecPieces i c).map fun q => (q.ea, q.len)
    let index := fun (k : Nat) => laneEa (c.getG a) ((lane ty.width (c.getV bv) k).signExtend 64 <<<
      (if sc then Nat.log2 (ty.width / 8) else 0))
    (∀ i ∈ [Instr.vld p n g d a disp, .vst p n g d a disp],
      lanes i (if g then 16 else 8) 4 (fun k => ea + BitVec.ofNat 64 (4 * k)) ∧ vecChecks i c = [(ea, if g then 64 else 32)]) ∧
    (∀ i ∈ [Instr.vldb p n d a disp, .vstb p n d a disp],
      lanes i 32 1 (fun k => ea + BitVec.ofNat 64 k) ∧ vecChecks i c = [(ea, 32)]) ∧
    (∀ i ∈ [Instr.vlds p n ty d a b, .vsts p n ty d a b],
      lanes i ty.lanes (ty.width / 8) (fun k => laneEa (c.getG a) (BitVec.ofNat 64 k * c.getG b)) ∧ each i) ∧
    (∀ i ∈ [Instr.vgath p n ty sc d a bv, .vscat p n ty sc d a bv], lanes i ty.lanes (ty.width / 8) index ∧ each i)) ∧
  (∀ (l : List Piece) (x : Granule) (base off : Word),
    ((granulesOf l).Pairwise fun u v => u < v) ∧ (∀ g, g ∈ granulesOf l ↔ ∃ q ∈ l, q.ea.toNat / 64 = g) ∧
    (loadAccs l).length = (granulesOf l).length ∧ (storeAccs l x).length = (granulesOf l).length ∧
    (isCoord base = false → laneEa base off = base + off) ∧
    (isCoord base = true → (laneEa base off).extractLsb' 42 22 = base.extractLsb' 42 22 ∧
      (laneEa base off).setWidth 42 = (base + off).setWidth 42))

/-- 01 R11, 11 R171: a store to the issuing core's local store puts exactly its bytes there, at once: the bytes from the
address on hold the register's low bytes, and every other byte of memory reads as before. 11 R171: a load from the
issuing core's local store reads the bytes there and changes no byte of memory: one cycle on (the model's counting of the
latency, log entries 9 and 10), the completion that delivers the granule that holds them falls due, or, where the granule
fails its check, the one that says so (05 R88). -/
def Obligations.LocalStoreAccess : Prop :=
  (∀ (s : State) (p : Pred) (n : La) (z : StSz) (sc : Bool) (d a b : G) (disp : BitVec 32) (off : Nat),
     let S := fun (i : Instr) (ea : Word) =>
       s.Canonical → s.me.test p = true → Quiet s → ea.toNat % z.bytes = 0 →
       s.checkAddr s.slot ea = .ok (.store 0 s.slot off) →
       ∃ t, exec i s = .next t ∧ ∀ j, t.byte j =
         if localKey s.slot + off ≤ j ∧ j < localKey s.slot + off + z.bytes then
           byteOf (s.me.getG d) (j - (localKey s.slot + off))
         else s.byte j
     S (.st p n z d a disp) (s.me.getG a + disp.signExtend 64) ∧
     S (.stx p n z sc d a b) (s.me.getG a + (s.me.getG b <<< (if sc then z.log2 else 0)))) ∧
  (∀ (s : State) (p : Pred) (n : La) (z : Sz) (d a : G) (disp : BitVec 32) (off : Nat),
     s.Canonical → s.me.test p = true → Quiet s → (s.me.getG a + disp.signExtend 64).toNat % z.bytes = 0 →
     s.checkAddr s.slot (s.me.getG a + disp.signExtend 64) = .ok (.store 0 s.slot off) →
     ∃ t, exec (.ld p n z d a disp) s = .next t ∧ SameMem s t ∧
       (s.cyc + 1, Event.longLatencyComplete s.slot s.myCore.nextId
         (if s.eccOf (localKey s.slot + off / 64 * 64) = 2 then .bad 0
          else .data 0 (s.granule (localKey s.slot + off / 64 * 64)))) ∈ t.agenda)

/-! ## Vector instructions (13 R190–R204) -/

/-- 13 R191–R193: VOP on each active lane, the float operation with its flags where the type is a float type, else the
integer one; an inactive lane keeps its old bits. ABS and NEG act on the sign bit of the input as FlushIn leaves it (09
R129; the model's reading, log entry 18). 13 R191, R192: what a write of active lanes leaves: lane `k` of the
result is `f k` where its mask bit is 1 and the old lane where it is 0, for every lane of the register. -/
def Obligations.VectorOperations : Prop :=
  (∀ (p : Pred) (ty : Ty) (d a b : V),
     let R := fun (i : Instr) (ff : FFmt → FEnv → Nat → Nat → Nat × FFlags)
         (fi : BitVec ty.width → BitVec ty.width → BitVec ty.width) =>
       WritesV i p ty.lanes ty.width d fun c k =>
         let x := lane ty.width (c.getV a) k
         let y := lane ty.width (c.getV b) k
         match Ty.fmt? ty with
         | some f => ff f c.fenv x.toNat y.toNat
         | none => ((fi x y).toNat, 0)
     let same := fun (_ : FFmt) (_ : FEnv) (x _ : Nat) => (x, (0 : FFlags))
     R (.vopAdd p ty d a b) fAdd (fun x y => x + y) ∧ R (.vopSub p ty d a b) fSub (fun x y => x - y) ∧
     R (.vopMul p ty d a b) fMul (fun x y => x * y) ∧
     R (.vopMin p ty d a b) (fun f e => fMinMax f e false) (fun x y =>
       if (if ty.isS then x.sle y else x.ule y) then x else y) ∧
     R (.vopMax p ty d a b) (fun f e => fMinMax f e true) (fun x y =>
       if (if ty.isS then x.sle y else x.ule y) then y else x) ∧
     R (.vopAdds p ty d a b) same (fun x y =>
       if ty.isS then clampS _ (x.toInt + y.toInt) else clampU _ ((x.toNat : Int) + y.toNat)) ∧
     R (.vopSubs p ty d a b) same (fun x y =>
       if ty.isS then clampS _ (x.toInt - y.toInt) else clampU _ ((x.toNat : Int) - y.toNat)) ∧
     R (.vopAnd p ty d a b) same (fun x y => x &&& y) ∧ R (.vopOr p ty d a b) same (fun x y => x ||| y) ∧
     R (.vopXor p ty d a b) same (fun x y => x ^^^ y) ∧ R (.vopAndn p ty d a b) same (fun x y => x &&& ~~~y) ∧
     R (.vopShl p ty d a b) same (fun x y => x <<< (y.toNat % ty.width)) ∧
     R (.vopShr p ty d a b) same (fun x y => x >>> (y.toNat % ty.width)) ∧
     R (.vopSar p ty d a b) same (fun x y => x.sshiftRight (y.toNat % ty.width)) ∧
     R (.vopMulhi p ty d a b) same (fun x y =>
       if ty.isS then BitVec.ofInt _ (x.toInt * y.toInt / 2 ^ ty.width)
       else BitVec.ofNat _ (x.toNat * y.toNat / 2 ^ ty.width)) ∧
     WritesV (.vopAbs p ty d a) p ty.lanes ty.width d (fun c k =>
       let x := lane ty.width (c.getV a) k
       match Ty.fmt? ty with
       | some f => (f.inputBits c.fenv x.toNat % 2 ^ (f.w + f.x), 0)
       | none => ((if x.msb then -x else x).toNat, 0)) ∧
     WritesV (.vopNeg p ty d a) p ty.lanes ty.width d (fun c k =>
       let x := lane ty.width (c.getV a) k
       match Ty.fmt? ty with
       | some f => (f.inputBits c.fenv x.toNat ^^^ 2 ^ (f.w + f.x), 0)
       | none => ((-x).toNat, 0))) ∧
  (∀ (w n : Nat) (m : BitVec 32) (d : BitVec 256) (f : Nat → Nat × FFlags), 0 < w → w * n = 256 → n ≤ 32 →
     ∀ k, k < n → lane w (overLanes w m d f n).1 k =
       if m.getLsbD k then BitVec.ofNat w (f k).1 else lane w d k)

/-- 13 R194–R196: the four fused multiply-adds, the dot products, and VDIV and VSQRT, whose lanes and flags wait in an
operation that completes 55 cycles later for .f32 and 31 for .f16. 13 R196: VDOT on integers adds, in 32 bits, the
products of the elements that share a lane; said for the 8-bit and 4-bit types as the sum over the lane's elements. -/
def Obligations.VectorFloatArithmetic : Prop :=
  (∀ (p : Pred) (n : La) (f : FFmt) (ty : Ty) (d a b e : V), Ty.fmt? ty = some f →
     let x := fun (c : Ctx) (r : V) (k : Nat) => (lane ty.width (c.getV r) k).toNat
     let F := fun (i : Instr) (np nc : Bool) =>
       WritesV i p ty.lanes ty.width d fun c k => fFma f c.fenv np nc (x c a k) (x c b k) (x c e k)
     let D := fun (i : Instr) (g : Ctx → Nat → Nat × FFlags) =>
       RunsV i p ty.lanes (fun _ _ => True) fun c m t =>
         let r := overLanes ty.width m (c.getV d) (g c) ty.lanes
         (t.addOp c 8 n (.calcV d r.1 r.2) (vMask := (1 : BitVec 16) <<< d.toNat)).after (if ty.width = 32 then 55 else 31)
           (.longLatencyComplete t.slot t.myCore.nextId (.advance 0))
     F (.vfma p ty d a b e) false false ∧ F (.vfmaFms p ty d a b e) false true ∧
     F (.vfmaFnma p ty d a b e) true false ∧ F (.vfmaFnms p ty d a b e) true true ∧
     WritesV (.vdot p ty d a b) p 8 32 d (fun c k => dotLane ty c.fenv (c.getV d) (c.getV a) (c.getV b) k) ∧
     D (.vdiv p n ty d a b) (fun c k => fDiv f c.fenv (x c a k) (x c b k)) ∧
     D (.vsqrt p n ty d a) (fun c k => fSqrt f c.fenv (x c a k))) ∧
  (∀ (p : Pred) (ty : Ty) (d a b : V), Ty.fmt? ty = none →
     WritesV (.vdot p ty d a b) p 8 32 d fun c k =>
       let el := fun (r : V) (j : Nat) => (intValue ty (lane ty.width (c.getV r) (32 / ty.width * k + j)).toNat).1
       ((BitVec.ofInt 32 ((lane 32 (c.getV d) k).toInt +
         ((List.range (32 / ty.width)).foldl (fun z j => z + el a j * el b j) (0 : Int)))).toNat, 0))

/-- 13 R197–R199: VCMP writes the condition's bit of each active lane, keeps an inactive lane's bit and clears the bits
above the lanes; VSEL takes each lane from v[A] or v[B] as its predicate's bit says; VCVT converts the active elements of
part j and counts each reserved .t2 code. -/
def Obligations.VectorComparesAndConversions : Prop :=
  ∀ (p : Pred) (cc : VCond) (ty src dst : Ty) (q d : P) (v a b : V) (c : G) (j : BitVec 4),
    (∃ f : Ctx → BitVec 32 → BitVec 32 × FFlags,
      RunsV (.vcmp p cc ty q a b) p ty.lanes (fun _ _ => True)
        (fun k m t => (t.putP q (f k m).1).raiseFlags (f k m).2) ∧
      ∀ k m i, i < 32 → (f k m).1.getLsbD i =
        (decide (i < ty.lanes) &&
          if m.getLsbD i then (vcmpLane cc ty k.fenv (lane ty.width (k.getV a) i) (lane ty.width (k.getV b) i)).1
          else (k.getP q).getLsbD i)) ∧
    WritesV (.vsel p ty v a b d) p ty.lanes ty.width v (fun k i =>
      ((lane ty.width (k.getV (if (k.getP d).getLsbD i then a else b)) i).toNat, 0)) ∧
    RunsV (.vcvt p src j dst v a c) p (256 / max src.width dst.width) (fun _ _ => True) (fun k m t =>
      let r := cvtOver src dst j.toNat m k.fenv ((k.getG c).toNat % 256) (k.getV a) (k.getV v)
        (256 / max src.width dst.width)
      ((t.putV v r.1).raiseFlags r.2).countN t.slot 5 (cvtBad src dst j.toNat m (k.getV a)))

/-- 13 R201: a reduction joins neighbours pairwise, the left one first, over the active lanes, each read as 09 R129's
FlushIn says (log entry 18); the result is sign-extended for a signed type, zero where no lane is active among them. 13
R202–R204: the lane movements: permutation, broadcasts, insertion, extraction, moves and zeroing. -/
def Obligations.LaneResults : Prop :=
  (∀ (p : Pred) (ty : Ty) (d : G) (a : V),
     let R := fun (i : Instr) (ff : FFmt → FEnv → Nat → Nat → Nat × FFlags)
         (fi : (w : Nat) → BitVec w → BitVec w → BitVec w) =>
       RunsV i p ty.lanes (fun _ _ => True) fun c m t =>
         let lanes := (List.range ty.lanes).map fun k =>
           let x := (lane ty.width (c.getV a) k).toNat
           if m.getLsbD k then some (match Ty.fmt? ty with | some f => f.inputBits c.fenv x | none => x) else none
         let r := redTree (laneOp ty ff fi c.fenv) lanes 5
         (t.putG d (if ty.isS then (BitVec.ofNat ty.width (r.1.getD 0)).signExtend 64
           else BitVec.ofNat 64 (r.1.getD 0 % 2 ^ ty.width))).raiseFlags r.2
     let same := fun (_ : FFmt) (_ : FEnv) (x _ : Nat) => (x, (0 : FFlags))
     R (.vredAdd p ty d a) fAdd (fun _ x y => x + y) ∧
     R (.vredMin p ty d a) (fun f e => fMinMax f e false)
       (fun _ x y => if ty.isS then (if x.sle y then x else y) else (if x.ule y then x else y)) ∧
     R (.vredMax p ty d a) (fun f e => fMinMax f e true)
       (fun _ x y => if ty.isS then (if x.sle y then y else x) else (if x.ule y then y else x)) ∧
     R (.vredAnd p ty d a) same (fun _ x y => x &&& y) ∧ R (.vredOr p ty d a) same (fun _ x y => x ||| y) ∧
     R (.vredXor p ty d a) same (fun _ x y => x ^^^ y)) ∧
  (∀ (p : Pred) (ty : Ty) (d a b e : V) (g : G) (idx : BitVec 5),
     let at1 := fun (c : Ctx) (r : V) (k : Nat) => (lane ty.width (c.getV r) k).toNat
     WritesV (.vperm p ty d a b e) p ty.lanes ty.width d (fun c k =>
       let x := at1 c b k
       ((if 2 ^ (ty.width - 1) ≤ x then 0
         else if x % (2 * ty.lanes) < ty.lanes then at1 c a (x % (2 * ty.lanes))
         else at1 c e (x % (2 * ty.lanes) - ty.lanes)), 0)) ∧
     WritesV (.vbcast p ty d g) p ty.lanes ty.width d (fun c _ => ((c.getG g).toNat, 0)) ∧
     WritesV (.vbcastLane p ty d a idx) p ty.lanes ty.width d (fun c _ => (at1 c a idx.toNat, 0)) ∧
     WritesV (.vmov p ty d a) p ty.lanes ty.width d (fun c k => (at1 c a k, 0)) ∧
     WritesV (.vmovZero p ty d) p ty.lanes ty.width d (fun _ _ => (0, 0)) ∧
     RunsV (.vins p ty d g idx) p ty.lanes (fun _ _ => True) (fun c m t =>
       if m.getLsbD idx.toNat then t.putV d (setLane ty.width (c.getV d) idx.toNat ((c.getG g).setWidth ty.width)) else t) ∧
     RunsV (.vext p ty g a idx) p ty.lanes (fun _ _ => True) (fun c m t =>
       if m.getLsbD idx.toNat then
         t.putG g (if ty.isS then (lane ty.width (c.getV a) idx.toNat).signExtend 64
           else BitVec.ofNat 64 (at1 c a idx.toNat))
       else t))

/-! ## Copies, barriers, waits (13 R211–R237; 15 R243–R249) -/

/-- 13 R223–R226, 19 R390: a copy instruction whose operands and addresses pass its checks, once the thread's earlier
writes have drained and there is room, admits one command per run: COPY the runs of at most 256 KiB, COPYS one a row,
COPYG one an element of its list. While the writes have not drained its slot is lost. Where every run is empty it behaves as
a false predicate does (07 R103): PC and windows advance, and no counter counts it. A list word that fails its check halts
the thread at the instruction with a machine check (05 R88). R223, R224: the runs of COPY follow each
other from its two addresses and add up to its length; row r of COPYS lies r strides on; element i of COPYG is between the
address in entry i of its list and i lengths on from its base. 13 Table 13-6: the compact form of an
address that a command holds gives the address back, for a granule of a global address below 2^57 and for a coordinate
address of levels 0 to 3 within 2^22 bytes. -/
def Obligations.CopiesAdmitted : Prop :=
  (∀ (p : Pred) (o : CopyOpt) (a b e f g h : G) (l : List CopyPart),
     let C := fun (i : Instr) (form : Ctx → State → CopyForm) =>
       Runs .any i p 16
         (fun c t => form c t = .parts l ∧ t.copyEnds l = none ∧ (l.all fun q => q.len == 0) = false ∧
           t.myCore.drained t.cx = true ∧ t.myCore.copyRoom t.cx l.length = true)
         (fun c t => (t.modCore t.slot fun k =>
           { k with
             nextId := k.nextId + l.length
             cmds := k.cmds ++ (List.range l.length).map fun i =>
               let q := l.getD i ⟨0, 0, 64⟩
               { seq := t.myCore.nextId + i, ctx := t.cx, tid := c.tid, pc := c.pc, word0 := cmdWord0 o q.dst
                 word1 := cmdWord1 q.src q.len, asid := c.asid, priv := c.priv, launch := c.launch
                 held := c.batch } }).after 1 (.copyAdmit t.slot t.cx)) ∧
       Loses .any i p 16 (fun c t => form c t = .parts l ∧ t.copyEnds l = none ∧ (l.all fun q => q.len == 0) = false ∧
         t.myCore.drained t.cx = false) ∧
       (∀ s : State, s.me.test p = true → form s.me (s.issued 16) = .parts l → (s.issued 16).copyEnds l = none →
         (l.all fun q => q.len == 0) = true → exec i s = .next (s.skipped 16)) ∧
       (∀ key : Nat, Runs .any i p 16 (fun c t => form c t = .bad key) (fun c t => t.checkAtIssue c key))
     C (.copy p o a b e) (fun c _ => copyForm (c.getG a) (c.getG b) (c.getG e)) ∧
     C (.copys p o a b e f g h) (fun c _ =>
       copysForm (c.getG a) (c.getG b) (c.getG e) (c.getG f) (c.getG g) (c.getG h)) ∧
     C (.copygG p o a b e f) (fun c t => t.copygForm false (c.getG a) (c.getG b) (c.getG e) (c.getG f)) ∧
     C (.copygS p o a b e f) (fun c t => t.copygForm true (c.getG a) (c.getG b) (c.getG e) (c.getG f))) ∧
  (∀ x : Word, x.toNat % 64 = 0 →
     (x.toNat < 2 ^ 57 → expandAddr (compactAddr x) = x) ∧
     (isCoord x = true → x.extractLsb' 60 2 = 0 → x.extractLsb' 22 20 = 0 → expandAddr (compactAddr x) = x)) ∧
  (∀ (dst src len k ds ss : Word) (t : State) (scatter : Bool),
     let whole := fun (w : Word) => w.toNat % 64 = 0
     let at_ := fun (x : Word) (i : Nat) => laneEa x (BitVec.ofNat 64 i)
     (whole dst → whole src → whole len → 0 < len.toNat → len.toNat ≤ 8 * 2 ^ 20 → ∃ l, copyForm dst src len = .parts l ∧
       l.length = (len.toNat + 262143) / 262144 ∧ (l.map CopyPart.len).sum = len.toNat ∧
       ∀ i (h : i < l.length), (l[i]).dst = at_ dst (262144 * i) ∧ (l[i]).src = at_ src (262144 * i) ∧ (l[i]).len ≤ 262144) ∧
     (whole dst → whole src → whole len → whole ds → whole ss → len.toNat ≤ 262144 → 0 < k.toNat → k.toNat ≤ 32 →
       ∃ l, copysForm dst src len k ss ds = .parts l ∧ l.length = k.toNat ∧
         ∀ i (h : i < l.length), l[i] = ⟨laneEa dst (BitVec.ofNat 64 i * ds), laneEa src (BitVec.ofNat 64 i * ss), len.toNat⟩) ∧
     (whole dst → whole len → len.toNat ≤ 262144 → 0 < k.toNat → k.toNat ≤ 32 → isCoord src = true → coordLevel src = 0 →
       src.toNat % 8 = 0 → (∃ g, t.checkAddr t.slot src = .ok g) →
       (∃ g, t.checkAddr t.slot (laneEa src (BitVec.ofNat 64 (8 * k.toNat - 1))) = .ok g) →
       (∀ i, i < k.toNat → whole (t.listWord src i) ∧ t.eccOf (t.listKey src i) ≠ 2) →
       ∃ l, t.copygForm scatter dst src len k = .parts l ∧ l.length = k.toNat ∧
         ∀ i (h : i < l.length),
           let m := laneEa dst (BitVec.ofNat 64 i * len)
           let e := t.listWord src i
           l[i] = if scatter then ⟨e, m, len.toNat⟩ else ⟨m, e, len.toNat⟩))

/-- 13 R220, R227–R233: batches, waits and the state word. CBATCH.CLOSE and the waits close an open batch; CWAIT, CBWAIT
and CQF go on where nothing they name is outstanding and park where something is; CBINIT arms a barrier; CBWAIT disarms
one whose count is zero. CSTAT's word is Table 13-9's, field by field. 13 R234–R237: the tag table in the local store, once
no earlier access of the thread holds the instruction back: TAGL's answers, spelled out from R235 (a hit gives its lowest
entry, generation and slot; TAGL.G's other matches are stale; then the lowest free entry; else full), and the entries that
TAGS writes and TAGI clears. An entry that fails its check halts the thread at an instruction that reads it (05 R88). -/
def Obligations.BatchesAndTags : Prop :=
  (∀ (p : Pred) (mask : BitVec 4) (k : BitVec 2) (n : BitVec 32) (a d : G),
     let tickets := fun (c : Ctx) (u : State) => u.taskTickets u.slot u.cx ((c.getG a).extractLsb' 4 8)
     Runs .any (.cbatchOpen p) p 8 (fun _ _ => True)
       (fun _ t => (t.closeBatch t.slot t.cx).modMe fun m => { m with batch := true }) ∧
     Runs .any (.cbatchClose p) p 8 (fun _ _ => True) (fun _ t => t.closeBatch t.slot t.cx) ∧
     Runs .any (.cwait p mask) p 8 (fun _ _ => True) (fun c t =>
       let u := t.closeBatch t.slot t.cx
       if u.myCore.pendingCmds u.cx mask u.myCore.nextId then u.parkMe c (.cwait mask u.myCore.nextId) else u) ∧
     Runs .any (.cbinit p k n) p 12 (fun _ _ => True)
       (fun _ t => t.modMe fun m => { m with bars := m.bars.set k.toNat { pending := n, armed := true, init := n } }) ∧
     Runs .any (.cbwait p k) p 8 (fun _ _ => True) (fun c t =>
       let u := t.closeBatch t.slot t.cx
       let b := u.me.bars[k.toNat]
       if b.armed = false then u
       else if b.pending = 0 then u.modMe fun m => { m with bars := m.bars.set k.toNat { b with armed := false } }
       else u.parkMe c (.cbwait k)) ∧
     Runs .any (.cqf p a) p 8 (fun _ _ => True) (fun c t =>
       let u := t.closeBatch t.slot t.cx
       if u.myCore.pendingCmds u.cx ((c.getG a).setWidth 4) u.myCore.nextId = true ∨ tickets c u ≠ [] then
         u.parkMe c (.cqf ((c.getG a).setWidth 4) ((c.getG a).extractLsb' 4 8) u.myCore.nextId (tickets c u))
       else u) ∧
     Runs .any (.cstat p d) p 8 (fun _ _ => True) (fun _ t => t.putG d (t.myCore.cstat t.cx)) ∧
     Runs .any (.cstatBar p k d) p 8 (fun _ _ => True) (fun c t =>
       t.putG d ((if (c.bars[k.toNat]).armed then 1 <<< 63 else 0) ||| (c.bars[k.toNat]).pending.setWidth 64))) ∧
  (∀ (core : Core) (x : CtxId), core.cmds.length ≤ 96 → (core.cmdsOf x).length ≤ 32 →
     let w := core.cstat x
     let f := fun (lo n : Nat) => (w.extractLsb' lo n).toNat
     let queued := fun (q : BitVec 2) => ((core.cmdsOf x).filter fun m => !m.held && m.queue == q).length
     f 0 6 = queued 0 ∧ f 8 6 = queued 1 ∧ f 16 6 = queued 2 ∧ f 24 6 = queued 3 ∧
     f 32 6 = ((core.cmdsOf x).filter fun m => m.held).length ∧
     (w.getLsbD 40 = (core.ctx x).batch) ∧ (∀ j : Fin 4, w.getLsbD (44 + j.val) = ((core.ctx x).bars[j]).armed) ∧
     f 56 8 = 96 - core.cmds.length ∧
     f 6 2 = 0 ∧ f 14 2 = 0 ∧ f 22 2 = 0 ∧ f 30 2 = 0 ∧ f 38 2 = 0 ∧ f 41 3 = 0 ∧ f 48 8 = 0) ∧
  (∀ (p : Pred) (d a b e : G),
     let entry := fun (i : Nat) => ({ va := 0xC00000000000BC00 + BitVec.ofNat 64 (16 * i), mask := 0, op := .read } : Access)
     let key := fun (t : State) (i : Nat) => localKey t.slot + 0xBC00 + 16 * i
     let free := fun (on : Ctx → List Nat) (c : Ctx) (t : State) => t.localHeld c ((on c).map entry) = false
     let good := fun (on : Ctx → List Nat) (c : Ctx) (t : State) => free on c t ∧ ∀ i ∈ on c, t.eccOf (key t i) ≠ 2
     let fails := fun (on : Ctx → List Nat) (c : Ctx) (t : State) (i : Nat) =>
       free on c t ∧ i ∈ on c ∧ t.eccOf (key t i) = 2 ∧ ∀ j ∈ on c, j < i → t.eccOf (key t j) ≠ 2
     let own := fun (c : Ctx) => [(c.getG a).toNat % 64]
     let all := fun (_ : Ctx) => List.range 64
     let T := fun (i : Instr) (on : Ctx → List Nat) (f : Ctx → State → State) =>
       Runs .any i p 8 (good on) f ∧ Loses .any i p 8 (fun c t => ¬free on c t) ∧
       (∀ k, Runs .any i p 8 (fun c t => fails on c t k) fun c t => t.checkAtIssue c (key t k / 64 * 64))
     T (.tagl p d a) all (fun c t => t.putG d (t.tagl t.slot (c.getG a) none)) ∧
     T (.taglG p d a b) all (fun c t => t.putG d (t.tagl t.slot (c.getG a) (some ((c.getG b).setWidth 6)))) ∧
     Runs .any (.tags p a b e) p 8 (free own) (fun c t =>
       t.setTag t.slot ((c.getG a).toNat % 64)
         (0#22 ++ (c.getG e).extractLsb' 6 10 ++ 0#26 ++ (c.getG e).extractLsb' 16 6)
         ((c.getG b).extractLsb' 6 58 ++ 0#5 ++ 1#1)) ∧
     Loses .any (.tags p a b e) p 8 (fun c t => ¬free own c t) ∧
     T (.tagi p a) own (fun c t => t.tagDrop t.slot ((c.getG a).toNat % 64)) ∧
     T (.tagiAll p) all (fun _ t => (List.range 64).foldl (fun t i => t.tagDrop t.slot i) t) ∧
     T (.tagiBlk p a) all (fun c t => (List.range 64).foldl (fun t i =>
       if (t.tagLo t.slot i).extractLsb' 6 58 = (c.getG a).extractLsb' 6 58 then t.tagDrop t.slot i else t) t)) ∧
  (∀ (t : State) (c : CoreId) (blk : Word) (gen : Option (BitVec 6)) (i : Nat), i < 64 →
     let valid := fun (j : Nat) => (t.tagLo c j).getLsbD 0 = true
     let matches_ := fun (j : Nat) => valid j ∧ (t.tagLo c j).extractLsb' 6 58 = blk.extractLsb' 6 58
     let hit := fun (j : Nat) => matches_ j ∧ ∀ g, gen = some g → (t.tagHi c j).extractLsb' 0 6 = g
     let none_ := fun (q : Nat → Prop) => ∀ j, j < 64 → ¬q j
     let lowest := fun (q : Nat → Prop) => q i ∧ ∀ j, j < i → ¬q j
     let slot : Word := ((t.tagHi c i).extractLsb' 32 10).setWidth 64
     let g : Word := ((t.tagHi c i).extractLsb' 0 6).setWidth 64
     let at_ := BitVec.ofNat 64 i <<< 24
     (lowest hit → t.tagl c blk gen = at_ ||| (g <<< 16) ||| (slot <<< 6)) ∧
     (none_ hit → gen ≠ none → lowest matches_ → t.tagl c blk gen = (1 <<< 63) ||| (1 <<< 31) ||| at_) ∧
     (none_ hit → gen = none ∨ none_ matches_ → lowest (fun j => ¬valid j) → t.tagl c blk gen = (1 <<< 63) ||| at_) ∧
     (none_ hit → gen = none ∨ none_ matches_ → none_ (fun j => ¬valid j) → t.tagl c blk gen = (1 <<< 63) ||| (1 <<< 30)))

/-- 15 R243: FENCE returns, waits for the thread's outstanding operations, or sends a probe for each bank that its
touched mask names; at scope .sys it waits besides until the devices have acknowledged the lines that the thread, or one
that has left its context, may have written (19 R326; that these are the lines is the model's choice, log entry 92). 15 R247,
R248: WAITL parks with its read and, for the .DL form, its deadline; SLEEP returns 0 at once
where its deadline has come, SLEEP.M 1 where a message waits, and otherwise parks until the deadline, all ones being
none. -/
def Obligations.FencesAndSleeps : Prop :=
  (∀ (p : Pred) (scope : Scope) (order : Order) (k : BitVec 2) (a : G),
     Runs .any (.fence p scope order) p 8 (fun _ t => t.fenceStep t.slot t.cx scope order = .ret) (fun _ t => t) ∧
     Runs .any (.fence p scope order) p 8 (fun _ t => t.fenceStep t.slot t.cx scope order = .wait) (fun c t =>
       (t.parkMe c (.fence scope order 0 false)).fenceWait t.slot t.cx scope order) ∧
     Runs .any (.fence p scope order) p 8 (fun _ t => t.fenceStep t.slot t.cx scope order = .probe) (fun c t =>
       (t.parkMe c (.fence scope order 0 false)).sendProbes t.slot t.cx scope order) ∧
     Runs .any (.bar p k) p 8 (fun c _ => c.lvl = 0) (fun _ t => t) ∧
     Runs .any (.bar p k) p 8 (fun c _ => c.lvl ≠ 0) (fun c t => (t.parkMe c (.bar k false)).arrive c k none) ∧
     Runs .any (.barComb p k a) p 8 (fun c _ => c.lvl = 0) (fun _ t => t) ∧
     Runs .any (.barComb p k a) p 8 (fun c _ => c.lvl ≠ 0 ∧ (c.member = 0 → (c.getG a).toNat % 64 = 0))
       (fun c t => (t.parkMe c (.bar k true)).arrive c k (some (c.getG a))) ∧
     (∀ s : State, s.me.test p = true → s.me.lvl ≠ 0 → s.me.member = 0 → (s.me.getG a).toNat % 64 ≠ 0 →
       exec (.barComb p k a) s = .next ((s.issueTrap 8 1 (s.me.getG a)).arrive s.me k none)) ∧
     Runs .any (.trig p) p 8 (fun _ _ => True) (fun _ t => t.triggerThread t.slot t.cx) ∧
     (∀ (core : Core) (x : CtxId), core.readsOut x = true → core.fenceStep x scope order = .wait) ∧
     (∀ (core : Core) (x : CtxId), core.readsOut x = false →
       core.fenceStep x scope 1 = .ret ∧
       (order ≠ 1 → scope = 0 → core.fenceStep x scope order = if core.storesOpen x then .wait else .ret) ∧
       (order ≠ 1 → scope ≠ 0 → core.fenceStep x scope order = if core.drained x then .probe else .wait)) ∧
     (∀ (t : State) (c : CoreId) (x : CtxId), t.fenceStep c x scope order =
       if (t.core c).fenceStep x scope order = .probe ∧ scope = 7 ∧ (∃ l ∈ (t.ctx c x).devLines ++ t.sys.devLeft, t.devOpen l = true)
       then .wait else (t.core c).fenceStep x scope order)) ∧
  (∀ (p : Pred) (host : Bool) (d a b e : G),
     let ok := fun (c : Ctx) (t : State) =>
       AddrOk t (c.getG a) 8 ∧ (isCoord (c.getG a) = true → coordLevel (c.getG a) = 0)
     let parked := fun (c : Ctx) (t : State) (dl : Option Word) =>
       ((t.parkMe c (.waitl d (c.getG b) dl host)).setAcc (.park t.slot t.cx)
         (some { va := c.getG a, mask := spanMask ((c.getG a).toNat % 64) 8, op := .read })).after 1
         (.waitlWake t.slot t.cx c.tid)
     let now := fun (t : State) => t.cyc % 2 ^ 64
     let S := fun (i : Instr) (mb : Bool) =>
       Runs .any i p 8 (fun c t => c.getG a ≠ BitVec.allOnes 64 ∧ (c.getG a).toNat ≤ now t) (fun _ t => t.putG d 0) ∧
       Runs .any i p 8 (fun c t => ¬(c.getG a ≠ BitVec.allOnes 64 ∧ (c.getG a).toNat ≤ now t) ∧
         mb = true ∧ t.myCore.mbox ≠ []) (fun _ t => t.putG d 1) ∧
       Runs .any i p 8 (fun c t => now t < (c.getG a).toNat ∧ c.getG a ≠ BitVec.allOnes 64 ∧
         (mb = true → t.myCore.mbox = [])) (fun c t =>
           (t.parkMe c (.sleep d (c.getG a) mb)).after ((c.getG a).toNat - now t) (.sleepDeadline t.slot t.cx c.tid)) ∧
       Runs .any i p 8 (fun c t => c.getG a = BitVec.allOnes 64 ∧ (mb = true → t.myCore.mbox = []))
         (fun c t => t.parkMe c (.sleep d (c.getG a) mb))
     Runs .any (.waitl p host d a b) p 8 ok (fun c t => parked c t none) ∧
     Runs .any (.waitlDl p host d a b e) p 8 (fun c t => ok c t ∧ now t < (c.getG e).toNat) (fun c t =>
       (parked c t (some (c.getG e))).after ((c.getG e).toNat - now t) (.sleepDeadline t.slot t.cx c.tid)) ∧
     Runs .any (.waitlDl p host d a b e) p 8 (fun c t => ok c t ∧ (c.getG e).toNat ≤ now t)
       (fun c t => parked c t (some (c.getG e))) ∧
     S (.sleep p d a) false ∧ S (.sleepM p d a) true)

/-! ## Threads, messages, registers (03 R51–R60; 15 R249–R274) -/

/-- 15 R249, R250, R255, 03 R52: SPAWN pushes a continuation to the core's deque, TPOP takes the newest; YIELD gives the
context back where the thread may; TEXIT retires the thread, once its copies have ended and its reports are taken. 15
R251–R253: RQPUSH enqueues at its own core or sends the entry to another; RQPOP takes the head of the lowest priority, or
of one priority, and writes its words to g[D] and g[D + 1], zeros for none; RQPOP.CNT counts each priority; TSTART
answers Table 15-2's status and, with status 0, starts to fill its context. -/
def Obligations.ThreadsAndQueues : Prop :=
  (∀ (p : Pred) (pin : Bool) (d a : G) (u : State) (e : RqEnt),
     Runs .any (.spawn p pin a) p 8 (fun c t => (c.getG a).toNat % 64 = 0 ∧ t.myCore.drained t.cx = true ∧
         t.dequePush t.slot { addr := c.getG a, prio := 0, pinned := pin, asid := c.asid, enq := t.cyc } = some u)
       (fun _ _ => (u.kick u.slot).kickGroup u.slot) ∧
     Runs .any (.tpop p d) p 8 (fun _ t => t.dequeNewest t.slot = some (e, u))
       (fun _ _ => u.putG d ((e.addr &&& ~~~0x3F#64) ||| (if e.pinned then 4 else 0))) ∧
     Runs .any (.tpop p d) p 8 (fun _ t => t.dequeNewest t.slot = none) (fun _ t => t.putG d 0) ∧
     Runs .any (.yield p) p 8 (fun _ t => t.myCore.mayYield t.cx = true)
       (fun c t => (t.parkMe c .yieldDrain).after 1 (.suspension t.slot t.cx 0)) ∧
     Runs .any (.yield p) p 8 (fun _ t => t.myCore.mayYield t.cx = false) (fun _ t => t) ∧
     Runs .any (.texit p) p 8 (fun _ t =>
         let v := t.closeBatch t.slot t.cx
         v.myCore.cmdsOf v.cx = [] ∧ v.reportsDue v.slot v.cx = false)
       (fun _ t => ((t.closeBatch t.slot t.cx).exitThread t.slot t.cx).freeCtx t.slot t.cx) ∧
     Runs .any (.texit p) p 8 (fun _ t =>
         let v := t.closeBatch t.slot t.cx
         v.myCore.cmdsOf v.cx ≠ [] ∨ v.reportsDue v.slot v.cx = true)
       (fun c t => (t.closeBatch t.slot t.cx).parkMe c .texit)) ∧
  (∀ (p : Pred) (d a b k : G),
     let ent : Ctx → State → RqEnt := fun c t =>
       { addr := c.getG a, prio := (c.getG b).setWidth 2, pinned := (c.getG b).getLsbD 2, asid := c.asid, enq := t.cyc }
     let pop := fun (i : Instr) (pick : Ctx → List RqEnt → Option RqEnt) =>
       Runs .c0 i p 8 (fun _ _ => True) fun c t =>
         let t := (t.refill t.slot 64).modCore t.slot fun k => k.aged t.cyc
         match pick c t.myCore.rq with
         | none => (t.putG d 0).putG (d + 1) 0
         | some e => ((t.takeRq t.slot e).putG d e.word0).putG (d + 1) (e.asid.setWidth 64)
     Runs .any (.rqpush p a b) p 8 (fun c t => (c.getG a).toNat % 64 = 0 ∧ t.myCore.drained t.cx = true)
       (fun c t => t.pushRq t.slot (ent c t)) ∧
     Runs .any (.rqpushCore p a b k) p 8 (fun c t => (c.getG a).toNat % 64 = 0 ∧ t.myCore.drained t.cx = true ∧
         t.reachable t.slot ((c.getG k).setWidth 16) = true)
       (fun c t => t.meshAfter (sgIdx t.slot) (sgIdx ((c.getG k).setWidth 16)) .wake
         (.wakeMessage ((c.getG k).setWidth 16) (ent c t))) ∧
     pop (.rqpop p d) (fun _ q => bestOf q) ∧ pop (.rqpopP p d a) (fun c q => headOf q ((c.getG a).setWidth 2)) ∧
     Runs .c0 (.rqpopCnt p d) p 8 (fun _ _ => True) (fun _ t => t.putG d
       (BitVec.ofNat 64 (t.rqCount t.slot 0 + t.rqCount t.slot 1 * 2 ^ 16 + t.rqCount t.slot 2 * 2 ^ 32 +
         t.rqCount t.slot 3 * 2 ^ 48))) ∧
     Runs .c0 (.tstart p d a b k) p 8
       (fun c t => t.tstartStatus c ((c.getG a).setWidth 4) (c.getG b) (c.getG k) = 0)
       (fun c t => (t.putG d 0).startFilling t.slot ((c.getG a).setWidth 4)
         { addr := c.getG b, prio := 0, pinned := false, asid := c.asid, enq := t.cyc }
         (some (((c.getG k).extractLsb' 16 9).toNat, ((c.getG k).setWidth 16).toNat))) ∧
     Runs .c0 (.tstart p d a b k) p 8
       (fun c t => t.tstartStatus c ((c.getG a).setWidth 4) (c.getG b) (c.getG k) ≠ 0)
       (fun c t => t.putG d (BitVec.ofNat 64 (t.tstartStatus c ((c.getG a).setWidth 4) (c.getG b) (c.getG k)))) ∧
     (∀ (t : State) (c : Ctx) (x : CtxId) (rec win : Word), (x = 0 ∨ ((t.myCore.ctx x).st ≠ .empty ∧ (t.myCore.ctx x).st ≠ .reserved)) →
       t.tstartStatus c x rec win = 1))

/-- 15 R254, R256, R257: context 0's TREAP discards a thread and answers its state code, and loses its slot while the
context is saving; PREEMPT answers its status and, where it is not refused, marks the context and clears the slot's header;
PREEMPT.Q answers the code; EVAC starts to copy a saved slot out, answers 1 for a slot that holds none, and halts where the
slot's header fails its check (05 R88). 15 R269, R270, 07 R113: HOLDT's answers and its park, RESUMET's restart of a halted
thread, and the emulation window's round trips, to a thread that the issuer's partition can reach. -/
def Obligations.ContextControl : Prop :=
  (∀ (p : Pred) (d a b : G),
     let x := fun (c : Ctx) => ((c.getG a).setWidth 4 : CtxId)
     let i := fun (c : Ctx) => (c.getG b).toNat % 32
     let slot := fun (c : Ctx) => (c.getG a).toNat % 32
     let header := fun (c : Ctx) (t : State) => localKey t.slot + t.myCore.slotOff (slot c)
     let inside := fun (c : Ctx) (t : State) => slot c < t.myCore.savebase.toNat / 65536 % 32
     let filled := fun (c : Ctx) (t : State) => inside c t ∧ (t.word (header c t)).getLsbD 51 = true
     let bad := fun (c : Ctx) (t : State) => inside c t ∧ t.eccOf (header c t) = 2
     Runs .c0 (.treap p d a) p 8 (fun c t => x c ≠ 0 ∧ (t.ctx t.slot (x c)).reaping = false ∧
         ((t.ctx t.slot (x c)).st = .running ∨ (t.ctx t.slot (x c)).st = .parked ∨ (t.ctx t.slot (x c)).st = .halted))
       (fun c t => (t.putG d (BitVec.ofNat 64 (t.ctx t.slot (x c)).code)).reap t.slot (x c)) ∧
     Runs .c0 (.treap p d a) p 8 (fun c t => (t.ctx t.slot (x c)).st ≠ .saving ∧
         (x c = 0 ∨ (t.ctx t.slot (x c)).st = .empty ∨ (t.ctx t.slot (x c)).reaping = true))
       (fun c t => (t.putG d (BitVec.ofNat 64 (t.ctx t.slot (x c)).code)).modCtx t.slot (x c) fun m => { m with reapWaits := false }) ∧
     Runs .c0 (.treap p d a) p 8 (fun c t => x c ≠ 0 ∧ (t.ctx t.slot (x c)).reaping = false ∧ (t.ctx t.slot (x c)).st = .reserved)
       (fun c t => (t.putG d (BitVec.ofNat 64 (t.ctx t.slot (x c)).code)).freeCtx t.slot (x c)) ∧
     (∀ s : State, s.cx = 0 → s.me.test p = true → (s.ctx s.slot (x s.me)).st = .saving →
       exec (.treap p d a) s = .next (s.lost.modCtx s.slot (x s.me) fun m => { m with reapWaits := true })) ∧
     Runs .c0 (.preempt p d a b) p 8 (fun c t => t.myCore.preemptStatus (x c) (i c) = 1) (fun _ t => t.putG d 1) ∧
     Runs .c0 (.preempt p d a b) p 8 (fun c t => t.myCore.preemptStatus (x c) (i c) ≠ 1) (fun c t =>
       let st := t.myCore.preemptStatus (x c) (i c)
       let t := t.putG d (BitVec.ofNat 64 st)
       let t := t.rawWrite (localKey t.slot + t.myCore.slotOff (i c)) 0xFF 0
       (t.modCore t.slot fun k =>
         let m : Ctx := { k.ctx (x c) with preempt := some (BitVec.ofNat 5 (i c)) }
         if st = 0 ∧ m.park.any Park.yields then
           { (k.setCtx (x c) { m with park := none, acc := none, st := .running, yielded := true }) with
             recvOrder := k.recvOrder.filter fun y => y != x c }
         else k.setCtx (x c) m).after 1
         (.preemptTakeEffect t.slot (x c))) ∧
     Runs .c0 (.preemptQ p d a) p 8 (fun _ _ => True)
       (fun c t => t.putG d (BitVec.ofNat 64 (t.ctx t.slot (x c)).code)) ∧
     Runs .c0 (.evac p d a b) p 8 (fun c t => AddrOk t (c.getG b) 64 ∧ isCoord (c.getG b) = false ∧ filled c t ∧ ¬bad c t)
       (fun c t => ((t.parkMe c (.evac d (slot c) (c.getG b) 0)).setAcc (.park t.slot t.cx)
         (t.evacPart t.slot (slot c) (c.getG b) 0)).after 1 (.evacAcknowledged t.slot)) ∧
     Runs .c0 (.evac p d a b) p 8 (fun c t => AddrOk t (c.getG b) 64 ∧ isCoord (c.getG b) = false ∧ ¬filled c t ∧ ¬bad c t)
       (fun _ t => t.putG d 1) ∧
     Runs .c0 (.evac p d a b) p 8 (fun c t => AddrOk t (c.getG b) 64 ∧ isCoord (c.getG b) = false ∧ bad c t)
       (fun c t => t.checkAtIssue c (header c t / 64 * 64))) ∧
  (∀ (p : Pred) (d a b e : G),
     let tc := fun (c : Ctx) => ((c.getG a).setWidth 16 : CoreId)
     let tx := fun (c : Ctx) => ((c.getG a).extractLsb' 16 4 : CtxId)
     let u := fun (c : Ctx) (t : State) => t.ctx (tc c) (tx c)
     let ok := fun (c : Ctx) (t : State) => t.reachable t.slot (tc c) = true
     let emu := fun (i : Instr) (r : Option G) (v : Ctx → Word) =>
       Runs .sOnly i p 8 ok fun c t =>
         (t.parkMe c (.emu r (tc c) (tx c) ((c.getG b).toNat % 4096) (v c))).meshAfter (sgIdx t.slot) (sgIdx (tc c)) .request
           (.emulationRoundTrip t.slot t.cx)
     Runs .sOnly (.holdt p d a) p 8 (fun c t => ok c t ∧
       (tx c = 0 ∨ (u c t).st = .empty ∨ (u c t).st = .reserved ∨ (u c t).st = .saving)) (fun _ t => t.putG d 1) ∧
     Runs .sOnly (.holdt p d a) p 8 (fun c t => ok c t ∧ tx c ≠ 0 ∧ (u c t).st = .halted) (fun _ t => t.putG d 2) ∧
     Runs .sOnly (.holdt p d a) p 8 (fun c t => ok c t ∧ tx c ≠ 0 ∧ ((u c t).st = .running ∨ (u c t).st = .parked))
       (fun c t => (((t.parkMe c (.holdt d (tc c) (tx c))).modCtx (tc c) (tx c) fun m => { m with hold := true }).after 1
         (.haltTakeEffect (tc c) (tx c))).after 4096 (.holdtTimeout t.slot t.cx t.cyc)) ∧
     Runs .sOnly (.resumet p d a) p 8 (fun c t => ok c t ∧ (u c t).st ≠ .halted)
       (fun c t => (t.modCtx (tc c) (tx c) fun m => { m with hold := false }).putG d 1) ∧
     Runs .sOnly (.resumet p d a) p 8 (fun c t => ok c t ∧ (u c t).st = .halted ∧ (u c t).reaping = false ∧
         (u c t).halt = some .containment) (fun _ t => t.putG d 2) ∧
     Runs .sOnly (.resumet p d a) p 8 (fun c t => ok c t ∧ (u c t).st = .halted ∧ (u c t).reaping = false ∧
         (u c t).halt ≠ some .containment ∧ (u c t).traps = [])
       (fun c t => (t.modCtx (tc c) (tx c) fun m => { m with st := .running, halt := none, delivering := false }).putG d 0) ∧
     Runs .sOnly (.resumet p d a) p 8 (fun c t => ok c t ∧ (u c t).st = .halted ∧ (u c t).reaping = false ∧
         (u c t).halt ≠ some .containment ∧ (u c t).traps ≠ [] ∧ (u c t).inHandler = false)
       (fun c t => ((t.modCtx (tc c) (tx c) fun m => { m with st := .running, halt := none, delivering := true }).putG d 0).after 1
         (.trapDelivery (tc c) (tx c))) ∧
     emu (.emur p d a b) (some d) (fun _ => 0) ∧ emu (.emuw p a b e) none (fun c => c.getG e))

/-- 15 R258–R261, R264: SEND queues a granule, the packet's fourth being its last; RECV and RECV.T take the granule that
the context sees, RECV parks and RECV.T answers bit 63 where it sees none; the timer instructions of context 0. -/
def Obligations.MessageInstructions : Prop :=
  ∀ (p : Pred) (st en : Bool) (a g : G) (k : Pair) (e : MboxEnt),
    Runs .any (.send p st en a k) p 8 (fun c t => t.sendBad (c.getG a) = false ∧ t.myCore.sendQ.length < 16 ∧
        t.myCore.drained t.cx = true)
      (fun c t =>
        let last := en || c.packet == 3
        let m : Msg := { dst := (c.getG a).setWidth 16, pkg := (c.getG a).extractLsb' 16 5, kind := 0, src := t.slot
                         ctx := t.cx, asid := c.asid, first := c.packet == 0, last := last, data := c.getPair k }
        ((t.modMe fun m => { m with packet := if last then 0 else c.packet + 1 }).modCore t.slot fun q =>
          { q with sendQ := q.sendQ ++ [m] }).afterFree (.meshCreditReturn t.slot)) ∧
    Runs .any (.recv p k g) p 8 (fun _ t => t.myCore.mboxHead t.cx = some e)
      (fun _ t => (t.deliver t.slot t.cx k g e).pump t.slot) ∧
    Runs .any (.recv p k g) p 8 (fun _ t => t.myCore.mboxHead t.cx = none)
      (fun c t => (t.parkMe c (.recv k g)).modCore t.slot fun q => { q with recvOrder := q.recvOrder ++ [t.cx] }) ∧
    Runs .any (.recvT p k g) p 8 (fun _ t => t.myCore.mboxHead t.cx = some e)
      (fun _ t => (t.deliver t.slot t.cx k g e).pump t.slot) ∧
    Runs .any (.recvT p k g) p 8 (fun _ t => t.myCore.mboxHead t.cx = none) (fun _ t => t.putG g (1 <<< 63)) ∧
    Runs .c0 (.timer p a) p 8 (fun _ _ => True) (fun c t =>
      (t.modCore t.slot fun q => { q with timer :=
        (q.timer &&& 0x4000000000000000) ||| 0x8000000000000000 ||| (c.getG a &&& 0x3FFFFFFFFFFFFFFF) }).armTimer t.slot) ∧
    Runs .c0 (.timerRel p a) p 8 (fun _ _ => True) (fun c t =>
      (t.modCore t.slot fun q => { q with timer :=
        (q.timer &&& 0x4000000000000000) ||| 0x8000000000000000 |||
          ((BitVec.ofNat 64 t.cyc + c.getG a) &&& 0x3FFFFFFFFFFFFFFF) }).armTimer t.slot) ∧
    Runs .c0 (.timerOff p) p 8 (fun _ _ => True)
      (fun _ t => t.modCore t.slot fun q => { q with timer := q.timer &&& 0x7FFFFFFFFFFFFFFF })

/-- 07 R108, Table 7-10; 05 R69: MOVS reads every special register at every level, and a write does what the register's row
says at the issuer's level: it takes effect, is ignored, or traps with cause 10, whatever its predicate (Table 7-6). MOVC
reads a store's region register, and its write, context 0's, parks until the extents are wiped. Every row of Table 7-10 at
every level: no write of %rnd traps, %pc and %mbox are written by no one, a user thread writes nothing but %rnd, the save
base, the spill, %age, %rqhi and %timer are context 0's, %fltsvc and %supv a supervisor's, and %asid, %tvec, %heatk, %heatd
and %evc0–7 both's. The value that each register reads, field by field (Tables 1-3 to 1-5, 3-7 to 3-9, 15-5), and what a
write leaves in it: reserved bits zero, %rnd's Mode 0 for 6 or 7 (09 Table 9-4), %timer's Fired cleared by a one (Table
15-6). A write of %rqspill also has the ring looked at in the next cycle (03 R52). -/
def Obligations.SpecialRegisters : Prop :=
  (∀ (p : Pred) (d a : G) (sr : BitVec 7),
     Runs .any (.movsRead p d sr) p 8 (fun _ t => sr ≠ 0x0A ∨ t.myCore.flagsOut t.cx = false)
       (fun c t => t.putG d (t.readSr t.slot t.cx c.pc sr.toNat)) ∧
     Runs .any (.movsWrite p sr a) p 8 (fun c _ => srAccess sr.toNat c.priv = .write)
       (fun c t => t.writeSr t.slot t.cx sr.toNat (c.getG a)) ∧
     Runs .any (.movsWrite p sr a) p 8 (fun c _ => srAccess sr.toNat c.priv = .ignore) (fun _ t => t) ∧
     (∀ s : State, srAccess sr.toNat s.me.priv = .trap → exec (.movsWrite p sr a) s = .next (s.issueTrap 8 10 0)) ∧
     Runs .any (.movcRead p d sr) p 8 (fun _ _ => True) (fun _ t => t.putG d (t.rgn t.slot sr)) ∧
     Runs .c0 (.movcWrite p sr a) p 8 (fun _ _ => True)
       (fun c t => (t.parkMe c (.movc sr (c.getG a))).afterFree (.storeWipeDone t.slot))) ∧
  ((∀ l : Priv, srAccess 0x0A l = .write ∧ srAccess 0x00 l = .trap ∧ srAccess 0x15 l = .trap) ∧
   (∀ sr : Nat, sr ≠ 0x0A → srAccess sr .u = .trap) ∧
   (∀ sr ∈ [0x10, 0x11, 0x12, 0x13, 0x14], srAccess sr .m = .write ∧ srAccess sr .s = .trap) ∧
   (∀ sr ∈ [0x1A, 0x1B], srAccess sr .s = .write ∧ srAccess sr .m = .trap) ∧
   (∀ sr ∈ [0x01, 0x02, 0x03, 0x05, 0x06, 0x07, 0x08, 0x09, 0x0B], srAccess sr .s = .ignore ∧ srAccess sr .m = .ignore) ∧
   (∀ sr ∈ [0x04, 0x0C, 0x18, 0x19, 0x20, 0x21, 0x22, 0x23, 0x24, 0x25, 0x26, 0x27],
     srAccess sr .s = .write ∧ srAccess sr .m = .write) ∧
   (∀ l : Priv, l ≠ .u → srAccess 0x00 l = .trap ∧ srAccess 0x15 l = .trap)) ∧
  (∀ (t : State) (c : CoreId) (x : CtxId) (pc : Word),
     let r := t.readSr c x pc
     let f := fun (sr lo n : Nat) => ((r sr).extractLsb' lo n).toNat
     let k := t.core c
     let m := t.ctx c x
     r 0x00 = pc ∧
     (f 1 0 4 = x.toNat ∧ f 1 4 2 = (match m.priv with | .u => 0 | .s => 1 | .m => 2) ∧ f 1 6 58 = 0) ∧
     (f 2 0 8 = coreX c ∧ f 2 8 8 = coreY c ∧ f 2 16 3 = 2 * (coreY c / 64) + coreX c / 128 ∧ f 2 19 2 = coreY c / 64 ∧
       f 2 21 43 = 0) ∧
     (f 3 0 5 = t.pkg.toNat % 32 ∧ f 3 5 3 = 0 ∧ f 3 8 5 = t.pkg.toNat / 256 % 32 ∧ f 3 13 3 = 0 ∧
       f 3 16 2 = (t.partOf c).toNat ∧ f 3 18 46 = 0) ∧
     f 4 0 64 = m.asid.toNat ∧ f 5 0 64 = m.lvl.toNat ∧ (f 6 0 32 = m.gang.toNat ∧ f 6 32 32 = m.member.toNat) ∧
     f 7 0 64 = m.launch.toNat ∧ r 8 = m.fmt ∧ r 9 = m.scl ∧ r 0x0A = m.rnd ∧ f 0x0B 0 64 = t.cyc % 2 ^ 64 ∧ r 0x0C = k.tvec ∧
     r 0x10 = k.savebase ∧ r 0x11 = k.rqspill ∧ r 0x12 = k.age ∧ r 0x13 = k.rqhi ∧ r 0x14 = k.timer ∧
     (k.mboxCount ≤ 32 → f 0x15 0 6 = k.mboxCount ∧ f 0x15 6 2 = 0 ∧ f 0x15 8 1 = (if k.bound.isSome then 1 else 0) ∧
       f 0x15 9 3 = 0 ∧ f 0x15 12 4 = ((k.bound.map BitVec.toNat).getD 0) ∧
       f 0x15 16 1 = (if k.mbox.any MboxEnt.timer then 1 else 0) ∧ f 0x15 17 47 = 0) ∧
     r 0x18 = t.heatk ∧ r 0x19 = t.heatd ∧ r 0x1A = t.fltsvc[(dieOf c).toNat] ∧ r 0x1B = t.supv[(dieOf c).toNat] ∧
     (∀ i : Fin 8, f (0x20 + i.val) 0 64 = (k.evc[i]).toNat)) ∧
  (∀ (t : State) (c : CoreId) (x : CtxId) (w : Word),
     let wr := fun (sr : Nat) => t.writeSr c x sr w
     wr 0x04 = t.modCtx c x (fun m => { m with asid := w.setWidth 16 }) ∧
     wr 0x0A = t.modCtx c x (fun m => { m with rnd := if 6 ≤ w.toNat % 8 then w &&& 0xFF38 else w &&& 0xFF3F }) ∧
     wr 0x0C = t.modCore c (fun k => { k with tvec := w &&& 0xFFFFFFFFFFFCFC01 }) ∧
     wr 0x10 = t.modCore c (fun k => { k with savebase := w &&& 0x1FFE00 }) ∧
     wr 0x11 = (t.modCore c fun k => { k with rqspill := w &&& 0xFFFFFFFFFFFFF00F }).after 1 (.ringRefill c) ∧
     wr 0x12 = t.modCore c (fun k => { k with age := w &&& 0xFFFFFF }) ∧
     wr 0x13 = t.modCore c (fun k => { k with rqhi := w &&& 0xFF }) ∧
     (∃ v : Word, wr 0x14 = (t.modCore c fun k => { k with timer := v }).armTimer c ∧ v.getLsbD 63 = w.getLsbD 63 ∧
       v.getLsbD 62 = ((t.core c).timer.getLsbD 62 && !w.getLsbD 62) ∧ v.extractLsb' 0 62 = w.extractLsb' 0 62) ∧
     wr 0x18 = { t with heatk := w &&& 0xF } ∧ wr 0x19 = { t with heatd := w &&& 0x3F } ∧
     wr 0x1A = { t with fltsvc := t.fltsvc.set (dieOf c).toNat (w &&& 0x800000000000FFFF) } ∧
     wr 0x1B = { t with supv := t.supv.set (dieOf c).toNat (w &&& 0x800000000000FFFF) } ∧
     (∀ i : Fin 8, wr (0x20 + i.val) = t.modCore c (fun k => { k with evc := k.evc.set i (w.setWidth 32) })))

/-- 15 R267, R268: TLBI sends its invalidation, a .VA of another window or of a coordinate address only counts an event;
TLBSYNC goes on where none of the thread's is on its way and parks otherwise; FLTRD reads a word of an outstanding fault
record and all ones for no such handle; FLTRPL counts what its outcome counts and schedules it, after which the handle is
answered; a stale one counts an event. -/
def Obligations.TranslationControl : Prop :=
  ∀ (p : Pred) (d a b : G) (u i : Nat) (f : FaultEnt),
    let T := fun (ins : Instr) (pre : Ctx → State → Prop) (kind : Nat) (asid : Ctx → BitVec 16) (va : Ctx → Word) =>
      Runs .sOnly ins p 8 pre fun c t =>
        ({ t with tlbis := t.tlbis ++
          [{ core := t.slot, ctx := t.cx, tid := c.tid, kind := kind, asid := asid c, va := va c }] } : State).afterFree
          (.tlbiTakesEffect t.slot t.cx)
    let here := fun (c : Ctx) (t : State) => isCoord (c.getG a) = false ∧ (c.getG a).extractLsb' 52 5 = t.pkgNum
    let mine := fun (t : State) => t.tlbis.any fun q => q.core == t.slot && q.ctx == t.cx
    let at_ := fun (t : State) => if (f.info.agent ≤ 3 ∨ f.info.agent = 5) ∧ f.info.pkg = t.pkgNum then f.info.core else t.slot
    let answered := fun (c : Ctx) (t v : State) => v.setFault u i (some { f with issuer := some (t.slot, t.cx, c.tid, v.myCore.nextId) })
    T (.tlbiVa p a b) here 0 (fun c => (c.getG b).setWidth 16) (fun c => c.getG a) ∧
    Runs .sOnly (.tlbiVa p a b) p 8 (fun c t => ¬here c t) (fun _ t => t.count t.slot 11) ∧
    T (.tlbiAsid p b) (fun _ _ => True) 1 (fun c => (c.getG b).setWidth 16) (fun _ => 0) ∧
    T (.tlbiAll p) (fun _ _ => True) 2 (fun _ => 0) (fun _ => 0) ∧
    Runs .sOnly (.tlbsync p) p 8 (fun _ t => mine t = false) (fun _ t => t) ∧
    Runs .sOnly (.tlbsync p) p 8 (fun _ t => mine t = true)
      (fun c t => (t.parkMe c .tlbsync).after 1 (.tlbiTakesEffect t.slot t.cx)) ∧
    Runs .sOnly (.fltrd p d a b) p 8 (fun c t => t.handle? ((c.getG a).setWidth 32) = some (u, i, f))
      (fun c t => t.putG d ((faultWords f.info ((c.getG a).setWidth 32) f.cyc).getD ((c.getG b).toNat % 8) 0)) ∧
    Runs .sOnly (.fltrd p d a b) p 8 (fun c t => t.handle? ((c.getG a).setWidth 32) = none)
      (fun _ t => t.putG d (BitVec.allOnes 64)) ∧
    Runs .sOnly (.fltrpl p a b) p 8 (fun c t => t.handle? ((c.getG a).setWidth 32) = some (u, i, f) ∧
        (c.getG b).setWidth 2 = 0#2) (fun c t => (answered c t t).after 0 (.faultReplay u i 0)) ∧
    Runs .sOnly (.fltrpl p a b) p 8 (fun c t => t.handle? ((c.getG a).setWidth 32) = some (u, i, f) ∧
        (c.getG b).setWidth 2 = 1#2) (fun c t => (answered c t (t.count (at_ t) 13)).after 0 (.faultReplay u i 1)) ∧
    (∀ o : BitVec 2, o = 2 ∨ o = 3 → Runs .sOnly (.fltrpl p a b) p 8 (fun c t =>
        t.handle? ((c.getG a).setWidth 32) = some (u, i, f) ∧ (c.getG b).setWidth 2 = o)
      (fun c t => (answered c t ((t.count (at_ t) 13).count (at_ t) 13)).after 0 (.faultReplay u i o))) ∧
    Runs .sOnly (.fltrpl p a b) p 8 (fun c t => t.handle? ((c.getG a).setWidth 32) = none)
      (fun _ t => t.count t.slot 14)

/-- 15 R271–R274, 05 R81, R84: the snapshot trigger, the counters' reads and clears, and the way masks: WAYM and SGWAY
answer 1 for a mask that their rules refuse, WAYM otherwise wipes the ways that change and parks for 64 cycles a way that
becomes scratch. -/
def Obligations.CountersAndWays : Prop :=
  ∀ (p : Pred) (d a : G),
    let mask := fun (c : Ctx) => ((c.getG a).setWidth 12 : BitVec 12)
    let pending := fun (t : State) => t.snapAt.any fun e => e.1 == t.partOf t.slot
    Runs .c0s (.snap p) p 8 (fun _ t => pending t = false) (fun _ t =>
      let due := (t.cyc + 64 + 63) / 64 * 64
      ({ t with snapAt := t.snapAt ++ [(t.partOf t.slot, due)] } : State).after (due - t.cyc) (.snapshotLatch (t.partOf t.slot))) ∧
    Runs .c0s (.snap p) p 8 (fun _ t => pending t = true) (fun _ t => t) ∧
    Runs .any (.cntrd p d a) p 8 (fun _ _ => True)
      (fun c t => t.putG d ((t.myCore.evc[(c.getG a).toNat % 8]'(Nat.mod_lt _ (by decide))).setWidth 64)) ∧
    Runs .c0s (.cntclr p a) p 8 (fun _ _ => True) (fun c t =>
      t.modCore t.slot fun k =>
        { k with evc := Vector.ofFn fun j : Fin 8 => if (c.getG a).getLsbD j.val then 0 else k.evc[j]
                 clearing := k.clearing ||| (c.getG a).setWidth 8 }) ∧
    Runs .c0 (.waym p d a) p 8 (fun c t => t.myCore.waymBad (mask c) = true) (fun _ t => t.putG d 1) ∧
    Runs .c0 (.waym p d a) p 8 (fun c t => t.myCore.waymBad (mask c) = false) (fun c t =>
      let changed := (List.range 12).filter fun w => (mask c).getLsbD w != t.myCore.ways.getLsbD w
      let scratch := (changed.filter fun w => !(mask c).getLsbD w).length
      let u := changed.foldl (fun t w =>
        t.wipe (localKey t.slot + w * 4096) (localKey t.slot + (w + 1) * 4096)) t
      ((u.modCore u.slot fun k => { k with ways := mask c, code := [], wayBusy := true }).parkMe c (.waym d scratch)).after
        (max 1 (64 * scratch)) (.storeWipeDone u.slot)) ∧
    Runs .c0 (.sgway p d a) p 8 (fun c _ => (c.getG a).setWidth 16 = 0#16 ∨ 8 < popCount ((c.getG a).setWidth 16 : BitVec 16))
      (fun _ t => t.putG d 1) ∧
    Runs .c0 (.sgway p d a) p 8 (fun c t => (c.getG a).setWidth 16 ≠ 0#16 ∧
        popCount ((c.getG a).setWidth 16 : BitVec 16) ≤ 8 ∧ t.sgwayAt (sgIdx t.slot) = none) (fun c t =>
      let u : State := { t with sgway := t.sgway ++ [(sgIdx t.slot, t.slot, (c.getG a).setWidth 16, 0)] }
      (u.parkMe c (.sgway d)).afterFree (.storeWipeDone u.slot)) ∧
    Runs .c0 (.sgway p d a) p 8 (fun c t => (c.getG a).setWidth 16 ≠ 0#16 ∧
        popCount ((c.getG a).setWidth 16 : BitVec 16) ≤ 8 ∧ t.sgwayAt (sgIdx t.slot) ≠ none) (fun c t =>
      ({ t with sgway := t.sgway ++ [(sgIdx t.slot, t.slot, (c.getG a).setWidth 16, 0)] } : State).parkMe c (.sgway d))

/-! ## Matrix tasks and grafts (17 R276–R305) -/

/-- 17 R299–R301: MTASK submits its record, of 128 bytes and global, answering a ticket of the supergroup's sequence; the
queries count or name the thread's tasks; MTCAN cancels a task that does not run. 17 R298, R302–R305: the graft
instructions park with their operands until the graft table answers, LYRINIT having first its image's granule read, whose
address must be a multiple of 64, global or local. -/
def Obligations.TaskInstructions : Prop :=
  (∀ (p : Pred) (q : BitVec 3) (d a : G) (k : Task) (pkg : BitVec 5) (off : Nat),
     let find := fun (c : Ctx) (t : State) => (t.tasksOf t.slot t.cx).find? fun k => k.ticket == c.getG a
     Runs .any (.mtask p q d a) p 8 (fun c t => (c.getG a).toNat % 128 = 0 ∧
         t.checkAddr t.slot (c.getG a) = .ok (.global pkg off) ∧ (t.tasksOf t.slot t.cx).length < 32 ∧
         (t.sg (sgIdx t.slot)).tasks.length < 256 ∧ t.myCore.drained t.cx = true)
       (fun c t =>
         let x := t.sg (sgIdx t.slot)
         let tk : Word := ((sgIdx t.slot).setWidth 64 <<< 48) ||| (x.seq + 1).setWidth 64
         let new : Task := { ticket := tk, record := c.getG a, queue := q, core := t.slot, ctx := t.cx, tid := c.tid
                             pc := c.pc, asid := c.asid, priv := c.priv, launch := c.launch }
         ((t.setSg (sgIdx t.slot) { x with seq := x.seq + 1, tasks := x.tasks ++ [new] }).putG d tk).kickAccept
           (sgIdx t.slot)) ∧
     Traps .any (.mtask p q d a) p 8 (fun c _ => (c.getG a).toNat % 128 ≠ 0) 1 (fun c _ => c.getG a) ∧
     Runs .any (.mtqry p d a) p 8 (fun c t => find c t = none) (fun _ t => t.putG d 0) ∧
     Runs .any (.mtqry p d a) p 8 (fun c t => find c t = some k) (fun _ t => t.putG d (BitVec.ofNat 64 k.query)) ∧
     Runs .any (.mtqryQ p d) p 8 (fun _ _ => True) (fun _ t => t.putG d (BitVec.ofNat 64 ((List.range 8).foldl
       (fun z i => z + ((t.tasksOf t.slot t.cx).filter fun k => k.queue.toNat == i).length * 256 ^ i) 0))) ∧
     Runs .any (.mtcan p d a) p 8 (fun c t => find c t = none) (fun _ t => t.putG d 2) ∧
     Runs .any (.mtcan p d a) p 8 (fun c t => find c t = some k ∧ (k.query = 4 ∨ k.query = 5)) (fun _ t => t.putG d 1) ∧
     Runs .any (.mtcan p d a) p 8 (fun c t => find c t = some k ∧ k.query ≠ 4 ∧ k.query ≠ 5) (fun _ t =>
       (((t.putG d 0).modTask (sgIdx t.slot) k.ticket fun k =>
         { k with st := .ending, fin := some 12, begun := k.st != .issued }).after 0
         (.taskEndError (sgIdx t.slot) k.ticket 12)).kickAccept (sgIdx t.slot))) ∧
  (∀ (p : Pred) (d a b : G),
     let L := fun (i : Instr) (who : Issuer) (pre : Ctx → State → Prop) (op : Nat) (x y : Ctx → Word) =>
       Runs who i p 8 pre fun c t =>
         (t.parkMe c (.lyr d op (x c) (y c))).afterFree (.graftTableAccessReturn t.slot t.cx)
     Runs .any (.lyrinit p d a b) p 8
       (fun c t => AddrOk t (c.getG b) 64 ∧ (isCoord (c.getG b) = true → coordLevel (c.getG b) = 0))
       (fun c t => ((t.parkMe c (.lyr d 0 (c.getG a) (c.getG b))).setAcc (.park t.slot t.cx)
         (some { va := c.getG b, mask := BitVec.allOnes 64, op := .read })).afterFree
         (.graftTableAccessReturn t.slot t.cx)) ∧
     Traps .any (.lyrinit p d a b) p 8 (fun c _ => (c.getG b).toNat % 64 ≠ 0) 1 (fun c _ => c.getG b) ∧
     L (.lyrq p d a b) .any (fun _ _ => True) 1 (fun c => c.getG a) (fun c => c.getG b) ∧
     L (.lyrqX p d b) .any (fun c _ => (c.getG b).toNat % 8 = 0) 2 (fun _ => 0) (fun c => c.getG b) ∧
     L (.lyrqW p d b) .any (fun _ _ => True) 3 (fun _ => 0) (fun c => c.getG b) ∧
     L (.lyrref p d a) .any (fun _ _ => True) 4 (fun c => c.getG a) (fun _ => 0) ∧
     L (.lyrdrop p d a) .sOnly (fun _ _ => True) 5 (fun c => c.getG a) (fun _ => 0))

/-! ## Traps (15 R265; 21 R327–R332) -/

/-- 21 R331, 15 R265: the return from a trap, inside a handler, resumes at the record's word 0, for ERET.NEXT 4 times the
record's Length beyond it, restores g1 and g2 from words 6 and 7, and leaves the handler; every other register keeps what
the handler left in it. 15 R265: TRAP's effect is an issue trap of cause 11 at its own PC with its code as the address;
ERET outside a handler traps with cause 10, and in one returns, unless the record fails its check, which halts the thread (05
R88). -/
def Obligations.TrapAndReturn : Prop :=
  (∀ (s : State) (c : CoreId) (x : CtxId) (b : Bool), s.Canonical →
     let m := s.ctx c x
     let a := localKey c + ((s.core c).tvec.extractLsb' 10 6).toNat * 1024 + 64 * x.toNat
     let u := s.returnTrap c x b
     let n := u.ctx c x
     n.pc = s.word a + (if b then 4 * ((s.word (a + 24)).extractLsb' 8 4).setWidth 64 else 0) ∧
     n.getG 1 = s.word (a + 48) ∧ n.getG 2 = s.word (a + 56) ∧ n.inHandler = false ∧
     (∀ r : G, r ≠ 1 → r ≠ 2 → n.getG r = m.getG r) ∧
     { m with g := n.g, pc := n.pc, inHandler := false, delivering := n.delivering } = n ∧
     OtherCtxs (s.core c) (u.core c) x ∧ OtherCores s u c ∧ SameMem s u) ∧
  (∀ (p : Pred) (code : BitVec 32),
     Traps .any (.trap p code) p 8 (fun _ _ => True) 11 (fun _ _ => code.setWidth 64) ∧
     Traps .any (.eret p) p 8 (fun c _ => c.inHandler = false) 10 (fun _ _ => 0) ∧
     Traps .any (.eretNext p) p 8 (fun c _ => c.inHandler = false) 10 (fun _ _ => 0) ∧
     let record := fun (t : State) => localKey t.slot + (t.myCore.tvec.extractLsb' 10 6).toNat * 1024 + 64 * t.cx.toNat
     let R := fun (i : Instr) (next : Bool) =>
       Runs .any i p 8 (fun c t => c.inHandler = true ∧ t.eccOf (record t) ≠ 2) (fun _ t => t.returnTrap t.slot t.cx next) ∧
       Runs .any i p 8 (fun c t => c.inHandler = true ∧ t.eccOf (record t) = 2) (fun c t => t.checkAtIssue c (record t))
     R (.eret p) false ∧ R (.eretNext p) true)

/-- 21 R330, Table 21-3: a trap that is taken writes its 64-byte record to the context's record place in the local store,
g1 and g2 saved in its words 6 and 7, sets g1 to the record's relative level-0 address and g2 to its word 3, marks the
context as in a handler and goes on at the handler PC of %tvec; no other register, byte, context or core changes. The record's
check bits are good (05 R87). -/
def Obligations.TrapTaken : Prop :=
  ∀ (s : State) (c : CoreId) (x : CtxId) (t : Trap), s.Canonical →
    let m := s.ctx c x
    let off := ((s.core c).tvec.extractLsb' 10 6).toNat * 1024 + 64 * x.toNat
    let rec8 := [if t.kind = 0 then t.pc else m.pc, t.pc, t.addr, trapWord3 t, t.w4, t.w5, m.getG 1, m.getG 2]
    let u := s.takeTrap c x t
    let n := u.ctx c x
    n.getG 1 = 0xC000000000000000 ||| BitVec.ofNat 64 off ∧ n.getG 2 = trapWord3 t ∧ n.inHandler = true ∧
    n.pc = s.extPc ((s.core c).tvec >>> 16) ∧ n.traps = m.traps.erase t ∧ n.delivering = false ∧
    (∀ r : G, r ≠ 1 → r ≠ 2 → n.getG r = m.getG r) ∧
    { m with g := n.g, pc := n.pc, inHandler := true, delivering := false, traps := n.traps } = n ∧
    (∀ i, i < 8 → u.word (localKey c + off + 8 * i) = rec8.getD i 0) ∧
    (SMap.wf 0 s.ecc = true → u.eccOf (localKey c + off) = 0) ∧
    (∀ j, j < localKey c + off ∨ localKey c + off + 64 ≤ j → u.byte j = s.byte j) ∧
    OtherCtxs (s.core c) (u.core c) x ∧ OtherCores s u c

/-! ## The hardware's steps: traps and memory (07 R112; 21 R327–R341; 03 R33, R41; 05 R72–R80; 11 R178–R188) -/

/-- 07 R112, Table 7-12: an illegal encoding makes its context halting; once nothing of the thread is outstanding the
context is halted and the request, kind 2, goes to the core that %supv names, or is counted lost. 21 R328, R330, R336,
R341, R388: a report becomes a pending trap of its thread, which it outlives or not; the trap that is delivered is the
earliest, taken through %tvec or, where that cannot be, ended in a halt with its notice; a machine check halts the thread
that consumes the data, and raises the interrupt of 25 R366 (one that names no consumer is reported to its place's die, or to
the hub's die, and its syndrome is a free value: the model's choices, log entries 58 and 12); a notice goes to the core that
%supv names, or is counted lost. -/
def Obligations.TrapSteps : Prop :=
  (∀ (c : CoreId) (x : CtxId) (r len : Nat) (bits : BitVec 128) (b : BitVec 256) (d : CoreId),
     let halting := fun (s : State) => (s.ctx c x).halt = some (.illegal r len bits)
     let halted := fun (s : State) => s.modCtx c x fun k => { k with st := .halted }
     let quiet := fun (s : State) => (s.ctx c x).posted = 0 ∧ ∀ q ∈ (s.core c).clrs, q.ctx = x → q.tid ≠ (s.ctx c x).tid
     (r < 16 → Performs (.illegalEncoding c x (r + 16 * len)) (fun s => s.codeAt c x = some b) fun s =>
       (s.modCtx c x fun k =>
         { k with halt := some (.illegal r len ((b >>> (8 * ((s.ctx c x).pc.toNat % 32))).setWidth 128)), park := none
                  st := if k.st = .parked then .running else k.st }).after 1 (.emulationRequest c x r)) ∧
     Performs (.emulationRequest c x r) (fun s => halting s ∧ (s.core c).opsOf x ≠ [])
       (fun s => s.after 1 (.emulationRequest c x r)) ∧
     Performs (.emulationRequest c x r) (fun s => s.Canonical ∧ halting s ∧ (s.core c).opsOf x = [] ∧ (s.ctx c x).posted ≠ 0)
       (fun s => (halted s).after 1 (.emulationRequest c x r)) ∧
     Performs (.emulationRequest c x r) (fun s => s.Canonical ∧ halting s ∧ (s.core c).opsOf x = [] ∧ quiet s ∧
         targetOf s.supv[(dieOf c).toNat] = some d)
       (fun s => (halted s).hwMsg d c x 2
           [((s.ctx c x).asid.setWidth 64 <<< 32) ||| BitVec.ofNat 64 (r % 256 * 2 ^ 24 + len % 16 * 2 ^ 20) |||
              (x.setWidth 64 <<< 16) ||| c.setWidth 64,
            (s.ctx c x).pc, bits.setWidth 64, bits.extractLsb' 64 64]) ∧
     Performs (.emulationRequest c x r) (fun s => s.Canonical ∧ halting s ∧ (s.core c).opsOf x = [] ∧ quiet s ∧
         targetOf s.supv[(dieOf c).toNat] = none)
       (fun s => (halted s).countLost (dieOf c))) ∧
  (∀ (c : CoreId) (x : CtxId) (tid : Nat) (t : Trap) (die : BitVec 3) (n : Notice) (d : CoreId) (src key : Nat),
     let up := fun (s : State) => (s.ctx c x).st ≠ .empty ∧ (s.ctx c x).st ≠ .reserved
     let due := fun (s : State) => (s.ctx c x).delivering = true ∧ (s.ctx c x).st = .running ∧ (s.ctx c x).park = none ∧
       (s.core c).opsOf x = [] ∧ firstTrap (s.ctx c x).traps = some t
     Performs (.deferredTrapReport c x tid t) (fun s => (s.ctx c x).tid ≠ tid) (fun s => s) ∧
     Performs (.deferredTrapReport c x tid t) (fun s => s.Canonical ∧ (s.ctx c x).tid = tid ∧ up s ∧ (s.ctx c x).inHandler = true)
       (fun s => (s.modCtx c x fun k => { k with traps := k.traps ++ [t] }).wakeCopyPark c x) ∧
     Performs (.deferredTrapReport c x tid t) (fun s => s.Canonical ∧ (s.ctx c x).tid = tid ∧ up s ∧
         (s.ctx c x).inHandler = false ∧ (s.ctx c x).park = none)
       (fun s => (s.modCtx c x fun k => { k with traps := k.traps ++ [t], delivering := true }).after 1 (.trapDelivery c x)) ∧
     Performs (.deferredTrapReport c x tid t) (fun s => s.Canonical ∧ (s.ctx c x).tid = tid ∧ up s ∧
         (s.ctx c x).inHandler = false ∧ (s.ctx c x).park = some .texit)
       (fun s => (s.modCtx c x fun k =>
         { k with park := none, st := .running, traps := k.traps ++ [t], delivering := true }).after 1 (.trapDelivery c x)) ∧
     Performs (.trapDelivery c x) (fun s => due s ∧ s.deliverable c x = true) (fun s => s.takeTrap c x t) ∧
     Performs (.trapDelivery c x) (fun s => due s ∧ s.deliverable c x = false) (fun s =>
       (((s.modCtx c x fun k => { k with traps := k.traps.erase t, delivering := false }).startHalt c x (.trap 15)).after 1
         (.haltTakeEffect c x)).after 0
         (.supervisorNotice (dieOf c) { code := 16, cause := 15, undelivered := t.cause, addr := t.addr
                                        who := (s.modCtx c x fun k => { k with traps := k.traps.erase t, delivering := false }).whoCtx c x
                                        w3 := (s.ctx c x).pc, w4 := trapWord3 t })) ∧
     Performs (.trapDelivery c x) (fun s => up s ∧ (s.ctx c x).delivering = true ∧ (s.core c).opsOf x ≠ [])
       (fun s => s.after 1 (.trapDelivery c x)) ∧
     Performs (.machineCheck src key none) (fun _ => src ≠ 4) (fun s =>
       (({ s with fresh := s.fresh + 1 } : State).msix 1).after 0 (.supervisorNotice ((keyDie key).getD s.hubDie)
         { code := src, cause := 12, addr := keyAddr key, w4 := Config.freeWord s.fresh })) ∧
     Performs (.machineCheck src key (some (.park c x))) (fun _ => src ≠ 4) (fun s =>
       let i := s.agentInfo (.park c x)
       let u := ((({ s with fresh := s.fresh + 1 } : State).msix 1).startHalt c x (.trap 12)).after 1 (.haltTakeEffect c x)
       u.after 0 (.supervisorNotice (dieOf c)
         { code := src, cause := 12, addr := keyAddr key, who := whoWord i.core i.ctx i.priv.code i.pkg i.asid
           w3 := (s.ctx c x).pc, w4 := Config.freeWord s.fresh })) ∧
     Performs (.supervisorNotice die n) (fun s => targetOf s.supv[die.toNat] = some d) (fun s =>
       s.hwMsg d (n.who.extractLsb' 32 16) (n.who.extractLsb' 48 4) 3
         [BitVec.ofNat 64 (n.undelivered % 256 * 65536 + n.code % 256 * 256 + n.cause % 256), n.addr, n.who, n.w3, n.w4,
          n.w5, n.w6, BitVec.ofNat 64 s.cyc]) ∧
     Performs (.supervisorNotice die n) (fun s => targetOf s.supv[die.toNat] = none) (fun s => s.countLost die))

/-- 03 R33, 11 R171–R177, R183, R185, 13 R209: a reply completes its operation: a load extends the bytes at its address into
its register, LDM writes its registers from the doublewords there, LDQ the tag and its granule's written bit, LDTRY the
value of a full block, else 0, and the tag, BWAIT the tag; an atomic extends the old value by its type, ACAS.q writes both
halves, a store writes nothing; a vector load's last answer places the bytes of every part in its register or pair and keeps
the rest; a division or square root writes the result computed at issue; an answer that is not the operation's last is kept;
an answer that finds no operation does nothing. -/
def Obligations.CompletionSteps : Prop :=
  (∀ (c : CoreId) (id : Nat) (r : Reply) (o : Op) (a : Access) (d : G) (v : V) (w : Word) (z : BitVec 256) (fl : BitVec 8)
    (sz : Sz) (g : Granule) (old : BitVec 128) (n : BitVec 3) (tag : BitVec 16) (wr : Bool) (ty : Ty),
    let one := fun (s : State) => s.Canonical ∧ s.op c id = some o ∧ o.accs = [a] ∧ o.trap = none ∧ a.cause = 0
    let fin := fun (s : State) (f : Access → Access) (w : Ctx → Ctx) =>
      (s.modOp c id fun p => p.modAcc 0 f).endOp c { o with accs := [f a] } w
    let C := fun (r : Reply) (k : OpKind) (f : Access → Access) (w : Ctx → Ctx) =>
      Performs (.longLatencyComplete c id r) (fun s => one s ∧ o.kind = k) (fun s => fin s f w)
    let got := fun (a : Access) => { a with st := .done, rdata := g }
    let tagged := fun (a : Access) => { a with st := .done, tag := tag, written := wr, rdata := g }
    let at_ : Granule := g >>> (8 * (a.va.toNat % 64))
    let olds := fun (a : Access) => { a with st := .done, rdata := old.setWidth 512 }
    Performs (.longLatencyComplete c id r) (fun s => s.op c id = none) (fun s => s) ∧
    Performs (.longLatencyComplete c id r) (fun s => s.op c id = some o ∧ o.kind = .calcG d w)
      (fun s => s.endOp c o fun t => t.setG d w) ∧
    Performs (.longLatencyComplete c id r) (fun s => s.op c id = some o ∧ o.kind = .calcV v z fl)
      (fun s => s.endOp c o fun t => (t.setV v z).orFlags fl) ∧
    C (.data 0 g) (.load sz d) got (fun t => t.setG d (sz.extend (at_.setWidth 64))) ∧
    C (.data 0 g) (.loadM n d) got
      (fun t => (List.range (n.toNat + 1)).foldl (fun t i => t.setG (BitVec.ofNat 5 (d.toNat + i)) (at_.word i)) t) ∧
    C (.tag 0 tag wr g) (.ldq d) tagged (fun t => t.setG d (tag.setWidth 64 ||| (if wr then 0x10000 else 0))) ∧
    C (.tag 0 tag wr g) (.ldtry sz d) tagged (fun t =>
      (t.setG d (if tag.setWidth 2 = 2#2 then sz.extend (at_.setWidth 64) else 0)).setG (d + 1) (tag.setWidth 64)) ∧
    C (.tag 0 tag wr g) (.bwait d) tagged (fun t => t.setG d (tag.setWidth 64)) ∧
    C (.ack 0) .store (fun a => { a with st := .done }) (fun t => t) ∧
    C (.old 0 old) (.atomic ty false d) olds (fun t => t.setG d (match ty with
      | .s32 => (old.setWidth 32).signExtend 64
      | .z32 | .f32 => (old.setWidth 32).setWidth 64
      | _ => old.setWidth 64)) ∧
    C (.old 0 old) (.atomic ty true d) olds (fun t => (t.setG d (old.setWidth 64)).setG (d + 1) (old.extractLsb' 64 64)) ∧
    Performs (.longLatencyComplete c id (.trap 0 5)) (fun s => one s ∧ o.kind = .load sz d)
      (fun s => (s.modOp c id fun p =>
          { p.modAcc 0 (fun a => { a with st := .failed, cause := 5 }) with
            trap := some { kind := 1, cause := 5, pc := o.pc, addr := a.va, order := o.id } }).endOp c
        { o with accs := [{ a with st := .failed, cause := 5 }]
                 trap := some { kind := 1, cause := 5, pc := o.pc, addr := a.va, order := o.id } } fun t => t)) ∧
  (∀ (c : CoreId) (id i : Nat) (o : Op) (d : V) (pair : Bool) (parts : List LanePart) (g : Granule),
    let got := fun (a : Access) => { a with st := .done, rdata := g }
    let u := o.modAcc i got
    let read := fun (s : State) => s.Canonical ∧ s.op c id = some o ∧ o.kind = .vload d pair parts ∧ o.trap = none ∧
      i < o.accs.length ∧ ∀ a ∈ o.accs, a.cause = 0
    Performs (.longLatencyComplete c id (.data i g)) (fun s => read s ∧
        ∃ a ∈ u.accs, a.st ≠ .done ∧ a.st ≠ .failed ∧ a.st ≠ .notFull) (fun s => s.modOp c id fun p => p.modAcc i got) ∧
    (∃ X : Granule → Granule,
      Performs (.longLatencyComplete c id (.data i g)) (fun s => read s ∧ ∀ a ∈ u.accs, a.st = .done) (fun s =>
        (s.modOp c id fun p => p.modAcc i got).endOp c u fun t =>
          if pair then t.setPair (d.extractLsb' 1 3) (X (t.getPair (d.extractLsb' 1 3)))
          else t.setV d ((X ((t.getV d).setWidth 512)).setWidth 256)) ∧
      ∀ x : Granule, ((parts.Pairwise fun p q => p.dst + p.len ≤ q.dst ∨ q.dst + q.len ≤ p.dst) →
          ∀ q ∈ parts, q.dst + q.len ≤ 64 → q.src + q.len ≤ 64 → ∀ b, u.accs[q.acc]? = some b → ∀ j, j < q.len →
            (X x).extractLsb' (8 * (q.dst + j)) 8 = b.rdata.extractLsb' (8 * (q.src + j)) 8) ∧
        (∀ j, j < 64 → (∀ q ∈ parts, ¬(q.dst ≤ j ∧ j < q.dst + q.len)) →
          (X x).extractLsb' (8 * j) 8 = x.extractLsb' (8 * j) 8)))

/-- 01 R12, 05 R72–R77: a bank performs one access, the first in its rotation, and refuses the others, which are counted and
presented again; an access that reaches its block's home is performed there; a wait presented again goes to the home again;
a filled block is full once the filling thread's earlier writes are acknowledged, and its waiters leave one per cycle, the
hardware table first, after which what was held at the block is performed. 21 R338, 05 R79: the home hub performs a request
once: one whose id it remembers does nothing, a new one of another package begins its access or its run of clears, one that
is answered, or refused by a full waiting list, finishes, one whose token is placed says so and is gone; a request that was
turned away is made afresh; a token lets the reader that it names go on, once. -/
def Obligations.BlockSteps : Prop :=
  (∀ (b e : BankReq) (who : Agent) (blk n : Nat) (f : Fill) (t : TagV) (w : Waiter) (a : Access),
     Performs (.bankAccess b.store b.bank) (fun s => s.bankHere b.store b.bank = [b] ∧ b.input = false)
       (fun s => ({ s with banks := s.banks.filter fun q => q.who != b.who } : State).performAt b.who
         (bankLatency (levelOfKey b.store))) ∧
     Performs (.bankAccess b.store b.bank) (fun s => s.bankHere b.store b.bank = [b, e] ∧ s.bankWinner b.store b.bank = some b ∧
         e.who ≠ b.who ∧ b.input = false ∧ e.input = false)
       (fun s =>
         let u := (s.count (s.agentCore e.who) 2).modAcc e.who fun a => { a with st := .again }
         ({ u with banks := u.banks.filter fun q => q.who != b.who && q != e } : State).performAt b.who
           (bankLatency (levelOfKey b.store))) ∧
     Performs (.blockReadAtHome who blk) (fun _ => True)
       (fun s => ({ s with fresh := s.fresh + 1 } : State).performAt who (1 + Config.freeDelay s.fresh)) ∧
     Performs (.blockWriteGranule who blk) (fun _ => True)
       (fun s => ({ s with fresh := s.fresh + 1 } : State).performAt who (1 + Config.freeDelay s.fresh)) ∧
     Performs (.waiterRetry who) (fun s => s.acc who = some a ∧ a.st = .relist)
       (fun s => (s.modAcc who fun b => { b with st := .fresh }).go who) ∧
     Performs (.waiterRetry who) (fun s => s.acc who = some a ∧ a.st = .notFull)
       (fun s => (s.modAcc who fun b => { b with st := .fresh, op := if b.op = .peek then .bwait else b.op }).go who) ∧
     Performs (.blockFillRelease blk n who) (fun s => (s.fills.find? fun f => f.blk == blk && !f.draining) = some f ∧
         s.fillReady f = false) (fun s => s.after 1 (.blockFillRelease blk n who)) ∧
     Performs (.blockFillRelease blk n who) (fun s => (s.fills.find? fun f => f.blk == blk && !f.draining) = some f ∧
         s.fillReady f = true ∧ s.tagOf blk n = some t ∧ ∀ w ∈ s.waiters, w.blk ≠ blk)
       (fun s => let u := s.setMeta blk (TagV.pack { t with st := 2 }); { u with fills := u.fills.erase f }) ∧
     (∀ s : State, (s.waiters.find? fun w => w.blk == blk && w.slot.isNone) = some w → s.nextWaiter blk = some w) ∧
     Performs (.drainDescriptor blk n) (fun s => s.draining blk = true ∧ s.nextWaiter blk = some w)
       (fun s => (({ s with waiters := s.waiters.erase w } : State).wakeWaiter w).after 1 (.drainDescriptor blk n)) ∧
     Performs (.drainDescriptor blk n) (fun s => s.draining blk = true ∧ ∀ w ∈ s.waiters, w.blk ≠ blk)
       (fun s => ({ s with fills := s.fills.filter fun f => f.blk != blk } : State).releaseHeld blk) ∧
     Performs (.drainDescriptor blk n) (fun s => s.draining blk = false) (fun s => s)) ∧
  (∀ (r : RemReq) (h : HomeReq) (id n : Nat) (tok : BitVec 32) (q : RemOut) (a : Access),
     let first : Access := { va := r.addr, mask := BitVec.allOnes 64, op := r.op }
     Performs (.remoteRequest r) (fun s => (s.homes.find? fun h => h.req.id == r.id) = none ∧ s.doneIds.contains r.id = true)
       (fun s => s) ∧
     Performs (.remoteRequest r) (fun s => (s.homes.find? fun h => h.req.id == r.id) = none ∧
         s.doneIds.contains r.id = false ∧ r.id.extractLsb' 35 5 ≠ s.pkgNum ∧ ∀ n, r.op ≠ .clear n)
       (fun s => ({ s with fresh := s.fresh + 1, homes := s.homes ++ [{ id := s.fresh, req := r, acc := first }] } :
         State).after 0 (.remoteRequest r)) ∧
     Performs (.remoteRequest r) (fun s => (s.homes.find? fun h => h.req.id == r.id) = none ∧
         s.doneIds.contains r.id = false ∧ r.id.extractLsb' 35 5 ≠ s.pkgNum ∧ r.op = .clear n)
       (fun s => ({ s with fresh := s.fresh + 1
                           homes := s.homes ++ [{ id := s.fresh, req := r, acc := first
                                                  run := some { id := s.fresh, ctx := r.ctx, tid := 0, pc := 0, va := r.addr
                                                                asid := r.asid, priv := Priv.ofCode r.priv, count := n
                                                                acc := first } }] } : State).after 0
         (.clrAtHome (.home s.fresh) 0)) ∧
     Performs (.remoteRequest r) (fun s => (s.homes.find? fun h => h.req.id == r.id) = some h ∧
         (h.acc.st = .done ∨ h.acc.st = .failed ∨ h.acc.st = .notFull ∨ h.acc.st = .relist)) (fun s => s.finishHome h) ∧
     Performs (.remoteRequest r) (fun s => (s.homes.find? fun h => h.req.id == r.id) = some h ∧ h.acc.st = .placed)
       (fun s => { s with homes := s.homes.filter fun k => k.id != h.id
                          outbox := s.outbox ++ [.reply h.req.id (h.reply 0 0)] }) ∧
     Performs (.remoteRequest r) (fun s => (s.homes.find? fun h => h.req.id == r.id) = some h ∧ h.acc.st = .fresh ∧
         (s.homeWaits h = false ∨ h.ordered = false)) (fun s => s.go (.home h.id)) ∧
     Performs (.remoteRequest r) (fun s => (s.homes.find? fun h => h.req.id == r.id) = some h ∧ h.acc.st = .fresh ∧
         h.ordered = true ∧ s.homeWaits h = true) (fun s => s.after 1 (.remoteRequest r)) ∧
     Performs (.remoteRetry id) (fun s => id < 2 ^ 40 ∧ s.home id = some h ∧ h.req.addr.extractLsb' 52 5 = s.pkgNum)
       (fun s => (s.modHome id fun k => { k with acc := { k.acc with st := .fresh, map := none } }).go (.home id)) ∧
     Performs (.remoteRetry id) (fun s => id < 2 ^ 40 ∧ s.home id = some h ∧ h.req.addr.extractLsb' 52 5 ≠ s.pkgNum)
       (fun s => let u := s.modHome id fun k => { k with acc := { k.acc with st := .fresh, map := none } }
                 { u with outbox := u.outbox ++ [.request (h.req.addr.extractLsb' 52 5) h.req] }) ∧
     Performs (.remoteRetry (2 ^ 40 + q.req.id.toNat))
       (fun s => (s.sys.tokens.find? fun t => t.req.id.toNat == q.req.id.toNat) = some q)
       (fun s => { s with outbox := s.outbox ++ [.request q.pkg q.req] }) ∧
     Performs (.remoteTokenWake tok) (fun s => (s.sys.tokens.find? fun t => t.req.id.setWidth 32 == tok) = none) (fun s => s) ∧
     Performs (.remoteTokenWake tok) (fun s => (s.sys.tokens.find? fun t => t.req.id.setWidth 32 == tok) = some q ∧
         q.cont = none ∧ s.acc q.who = some a ∧ a.st = .placed ∧ ∀ c i j p, q.who = .lsu c i j → s.op c i = some p →
           p.suspends = false)
       (fun s =>
         let t : State := { s with sys := { s.sys with tokens := s.sys.tokens.filter fun t => t != q } }
         (t.modAcc q.who fun b => { b with st := .fresh }).resumeAgent q.who 1) ∧
     (∀ (at_ : BitVec 48) (c : CoreId) (asid : BitVec 16) (prio : BitVec 2) (pin : Bool),
       Performs (.remoteTokenWake tok) (fun s => (s.sys.tokens.find? fun t => t.req.id.setWidth 32 == tok) = some q ∧
           q.cont = some (.cont at_ c asid prio pin))
         (fun s => ({ s with sys := { s.sys with tokens := s.sys.tokens.filter fun t => t != q } } : State).wakeCont 0
           (at_.setWidth 64) c asid prio pin))) ∧
  (∀ (who : Agent) (a : Access) (m : Map) (d i : Nat) (t : TagV) (mask : BitVec 64) (x g : Granule) (w : Waiter) (b : Bool)
     (off last : Nat) (r : G),
     let comes := fun (s : State) => s.acc who = some a ∧ a.map = some m ∧ a.st = .bank ∧ s.plainWayKey m.key = false ∧
       (∀ h ∈ s.held, h.blk ≠ m.blk) ∧ s.tagOf m.blk m.n = some t
     let inStore := 2 ^ 60 ≤ m.blk ∧ m.blk % 64 = 0 ∧ m.blk + 64 * 2 ^ m.n ≤ 2 ^ 64 ∧ i < 2 ^ m.n ∧ m.key = m.blk + 64 * i
     let W := fun (s : State) => s.written m.blk m.n ((m.key - m.blk) / 64)
     let word := fun (s : State) => s.tagWord m.blk m.n
     let A := fun (op : HomeOp) (pre : State → Prop) (r : State → Reply) =>
       ∀ s : State, comes s → a.op = op → pre s → s.homePerform who d = s.answerAt who m d (r s)
     A (.write mask x) (fun s => W s = true ∨ t.rem = 0) (fun _ => .trap who.idx 2) ∧
     (∀ s : State, comes s → s.Canonical → SMap.wf 0 s.ecc = true → inStore → a.op = .write mask x → W s = false → t.rem ≠ 0 →
       ∃ u : State, s.homePerform who d = u.answerAt who m d (.ack who.idx) ∧ u.rawRead m.key = some (x &&& byteMask 64 mask) ∧
         u.metaAt m.blk = TagV.pack { t with rem := t.rem - 1 } ∧
         (0 < i → (u.metaAt (m.blk + 64 * i)).getLsbD 0 = true) ∧ (i = 0 → m.n ≠ 0 → (u.metaAt (m.blk + 64)).getLsbD 1 = true) ∧
         (t.rem ≠ 1 → u.fills = s.fills) ∧ (t.rem = 1 → ∃ f, u.fills = s.fills ++ [f] ∧ f.blk = m.blk ∧ f.draining = false)) ∧
     A .read (fun s => t.st = 2 ∧ s.rawRead m.key = some g) (fun _ => .data who.idx g) ∧
     A .peek (fun s => t.st = 2 ∧ s.rawRead m.key = some g) (fun _ => .data who.idx g) ∧
     A .peek (fun _ => t.st ≠ 2) (fun _ => .notFull who.idx) ∧
     A .ldq (fun _ => True) (fun s => .tag who.idx (word s) (W s) 0) ∧
     A .ldtry (fun s => t.st = 2 ∧ s.rawRead m.key = some g) (fun s => .tag who.idx (word s) true g) ∧
     A .ldtry (fun _ => t.st ≠ 2) (fun s => .tag who.idx (word s) false 0) ∧
     A .bwait (fun _ => t.st = 2) (fun s => .tag who.idx (word s) true 0) ∧
     (∀ (c : CoreId) (id j : Nat) (o : Op) (s : State), comes s → who = .lsu c id j → s.op c id = some o → t.st ≠ 2 →
       a.op = .read ∨ a.op = .bwait →
       ((s.core c).parks o = false → s.homePerform who d = s.answerAt who m d (.notFull j)) ∧
       ((s.core c).parks o = true → s.listRoom m.blk = true →
         s.homePerform who d = (s.placeWaiter m.blk m.n (o.parkedDesc c j a)).modAcc who fun a => { a with st := .placed }) ∧
       ((s.core c).parks o = true → s.listRoom m.blk = false →
         s.homePerform who d = (s.countRefusal who).answerAt who m d (.refused j))) ∧
     (∀ (s : State) (e : Desc), s.tagOf m.blk m.n = some t → 2 ^ 52 ≤ m.blk → s.placeWaiter m.blk m.n e =
       let u : State := { s with waiters := s.waiters ++ [{ blk := m.blk, n := m.n, desc := e, slot := none }] }
       if t.st = 0 then u.setMeta m.blk (TagV.pack { t with st := 1 }) else u) ∧
     (∀ (c : CoreId) (id j : Nat) (o : Op) (sz : Sz) (s : State), w.desc = .parked (.lsu c id j) r b false off last →
       s.op c id = some o → o.kind = .load sz r → o.acc? j = some a → a.st = .placed → a.op = .read → a.map = some m →
       (s.ctx c o.ctx).st ≠ .halted → s.tagOf m.blk m.n = some t → t.st = 2 → s.rawRead m.key = some g →
       s.wakeWaiter w =
         (({ s with fresh := s.fresh + 1 } : State).modAcc (.lsu c id j) fun a => { a with st := .sent }).answerAt (.lsu c id j) m
           (1 + Config.freeDelay s.fresh) (.data j g)) ∧
     (t.rem < 128 → t.gen < 64 → t.st < 4 → TagV.unpack (TagV.pack t) = t ∧ popCount (TagV.pack t) % 2 = 0))

/-- 11 R178–R180, 17 R294: a CLR waits for the thread's earlier accesses; at its block it is performed, or deferred and
counted where the block is filling, or ends the run with a class violation where no block is; a clear of a watched block
counts in the watch table first. The run's end reports its refusals. 11 R187, R188: the acknowledgement of a posted
operation ends it, and a refusal fails its launch with cause 6, or 7 for a contained home, and sends the notice 19. -/
def Obligations.ClearSteps : Prop :=
  (∀ (who : Agent) (c : CoreId) (id idx : Nat) (r : ClrRun) (m f : Map) (w : BitVec 8) (u : State) (h : HomeReq),
     let here := fun (s : State) => s.runOf who = some r ∧ r.next = idx
     let turn := fun (s : State) => here s ∧ r.acc.st = .fresh ∧ s.clrWaits who r = false
     let atBlock := fun (s : State) => here s ∧ r.acc.st = .sent ∧ r.acc.map = some m
     let free := fun (s : State) => m.isBlock = true ∧ s.plainWayKey m.key = false ∧ s.draining m.blk = false ∧
       s.heldBack m.blk = false
     Performs (.clrAtHome who idx) (fun s => s.runOf who = none) (fun s => s) ∧
     Performs (.clrAtHome who idx) (fun s => here s ∧ r.acc.st = .fresh ∧ s.clrWaits who r = true)
       (fun s => s.after 1 (.clrAtHome who idx)) ∧
     Performs (.clrAtHome who idx) (fun s => turn s ∧ r.first = some f ∧ s.clrNext f r.next = none)
       (fun s => s.endClr who r (.trap 5 r.blockVa)) ∧
     Performs (.clrAtHome who idx) (fun s => turn s ∧ r.first = some f ∧ s.clrNext f r.next = some m)
       (fun s => s.clrSend who r m) ∧
     Performs (.clrAtHome who idx) (fun s => atBlock s ∧ m.isBlock = false) (fun s => s.endClr who r (.trap 5 r.blockVa)) ∧
     Performs (.clrAtHome who idx) (fun s => atBlock s ∧ free s ∧ s.blkClear m.blk m.n = .done u ∧ m.watch = none)
       (fun _ => u.clrAdvance who r) ∧
     Performs (.clrAtHome who idx) (fun s => atBlock s ∧ free s ∧ s.blkClear m.blk m.n = .deferred)
       (fun s => s.clrAdvance who { r with refused := r.refused + 1
                                           firstRefused := if r.refused = 0 then r.blockVa else r.firstRefused }) ∧
     Performs (.clrAtHome who idx) (fun s => atBlock s ∧ free s ∧ s.blkClear m.blk m.n = .done u ∧ m.watch = some w ∧
         r.bumped = false)
       (fun s => (({ s with held := { blk := m.blk, who := who } :: s.held } : State).modRun who fun q =>
         { q with acc := { q.acc with map := some m, st := .sent } }).after 1 (.watchIncrement who r.next)) ∧
     Performs (.clrAtHome who idx) (fun s => atBlock s ∧ m.isBlock = true ∧ s.plainWayKey m.key = false ∧
         s.draining m.blk = true)
       (fun s => { (s.modRun who fun q => { q with acc := { q.acc with map := some m, st := .sent } }) with
                   held := s.held ++ [{ blk := m.blk, who := who }] }) ∧
     Performs (.watchIncrement who idx) (fun s => here s ∧ r.acc.map = some m ∧ m.watch = some w)
       (fun s =>
         let t := s.bumpWatch w
         let t : State := { t with held := t.held.filter fun h => !(h.blk == m.blk && h.who == who) }
         (t.clrPerform who { r with bumped := true } m).releaseHeld m.blk) ∧
     (∀ s : State,
       let q := { r with next := r.next + 1, bumped := false, acc := { r.acc with st := .fresh, map := none } }
       (r.count ≤ r.next + 1 → s.clrAdvance who r = s.endClr who q .done) ∧
       (r.next + 1 < r.count → s.clrAdvance who r = (s.modRun who fun _ => q).after 1 (.clrAtHome who q.next))) ∧
     (∀ s : State, r.refused ≠ 0 → s.endClr (.clr c id) r .done =
       ((s.modCore c fun k => { k with clrs := k.clrs.filter fun q => q.id != r.id }).after 0
         (.deferredTrapReport c r.ctx r.tid
           { kind := 2, cause := 3, pc := r.pc, addr := r.firstRefused, count := if r.counts then r.refused else 0
             source := 3 })).wakeCopyPark c r.ctx) ∧
     (∀ s : State, s.home id = some h → s.endClr (.home id) r .done =
       let t := ({ s with homes := s.homes.filter fun k => k.id != id } : State).rememberId h.req.id
       { t with outbox := t.outbox ++ [.reply h.req.id (.cleared 0 r.refused r.firstRefused none)] })) ∧
  (∀ (id k : Nat) (h : HomeReq),
     let q := h.req
     let base := fun (s : State) =>
       let t := ({ s with homes := s.homes.filter fun j => j.id != id } : State).rememberId q.id
       t.modCtx q.core q.ctx fun t => if t.tid = h.tid then { t with posted := t.posted - 1 } else t
     let told := fun (s : State) (cause : Nat) (w4 : Word) =>
       ((base s).failLaunch q.launch cause).after 0 (.supervisorNotice (dieOf q.core)
         { code := 19, addr := q.addr, who := whoWord q.core q.ctx q.priv s.pkgNum q.asid, w3 := q.launch.setWidth 64, w4 := w4 })
     let fin' := fun (t : State) => if h.counted then t.settle q.launch h.pre else t
     Performs (.postedAck id 0) (fun s => s.home id = some h ∧ q.addr.extractLsb' 52 5 = s.pkgNum ∧
         (h.acc.map.any fun m => !m.isBlock) = false) (fun s => fin' (base s)) ∧
     Performs (.postedAck id 0) (fun s => s.home id = some h ∧ q.addr.extractLsb' 52 5 ≠ s.pkgNum)
       (fun s => fin' ((base s).markPlain q.core q.ctx h.tid none)) ∧
     Performs (.postedAck id k) (fun s => s.home id = some h ∧ k ≠ 0 ∧ k ≠ 7) (fun s =>
       fin' (told s 6 (BitVec.ofNat 64 (6 + 256 * k)))) ∧
     Performs (.postedAck id 7) (fun s => s.home id = some h) (fun s => fin' (told s 7 7)) ∧
     (∀ (s : State) (num : BitVec 32) (l : Launch) (cause : Nat), (s.launches.find? fun l => l.num == num) = some l →
       l.status ≠ 3 →
       (s.failLaunch num cause).launches =
         s.launches.map fun l => if l.num = num then { l with status := 3, cause := cause } else l))

/-- 07 R387: a fetch that has its granule installs the 32-byte block and lets its context compete again; one whose access
failed takes an issue trap at its PC (its issue kind and Length 0 are the model's choice, log entry 72), or a machine check.
21 R333–R340: a walk that ends in a translation that an agent may use installs it and lets that agent go on, one that it may
not use faults and installs nothing; a replayed walk starts at the root; a page fault joins the entry of its page and kind,
or takes an entry, raises its Seq and sends its record, kind 1, to the service core; with no service core it is counted and
abandoned; with a full table it is tried again after 256 cycles, a service core's uncounted (25 R382), a home's own request
after 1,024, another package's is turned away; a replay, which waits for its thread's earlier writes, makes each waiter's
access fresh; an abandonment reaches each waiter with its own record. -/
def Obligations.FaultSteps : Prop :=
  (∀ (c : CoreId) (x : CtxId) (k : Nat) (a : Access) (m : Map),
     let at_ := fun (s : State) (st : AccSt) =>
       (s.ctx c x).park = some .fetch ∧ (s.ctx c x).acc = some a ∧ a.st = st
     Performs (.fetchBlockFill c x k) (fun s => (s.ctx c x).park ≠ some .fetch) (fun s => s) ∧
     Performs (.fetchBlockFill c x k) (fun s => at_ s .fresh) (fun s => s.go (.fetch c x)) ∧
     Performs (.fetchBlockFill c x k) (fun s => at_ s .done ∧ a.map = some m) (fun s =>
       let o := a.va.toNat % 64 / 32 * 32
       let t : State := { s with fresh := s.fresh + 1 }
       (t.modCore c fun q => q.putCode (m.key + o) (a.rdata.extractLsb' (8 * o) 256)
         (Config.freeChoice s.fresh % 4096)).modCtx c x fun q =>
           { q with acc := none, park := none, st := if q.st = .parked then .running else q.st }) ∧
     Performs (.fetchBlockFill c x k) (fun s => at_ s .failed ∧ a.cause = 12) (fun s =>
       let t := s.modCtx c x fun q =>
         { q with acc := none, park := none, st := if q.st = .parked then .running else q.st }
       t.after 0 (.machineCheck (t.checkOf a).1 (t.checkOf a).2 (some (.fetch c x)))) ∧
     Performs (.fetchBlockFill c x k) (fun s => at_ s .failed ∧ a.cause ≠ 12) (fun s =>
       let t := s.modCtx c x fun q =>
         { q with acc := none, park := none, st := if q.st = .parked then .running else q.st }
       t.raise c x { kind := 0, cause := a.cause, pc := (s.ctx c x).pc, addr := (s.ctx c x).pc, order := (t.core c).nextId })) ∧
  (∀ (who : Agent) (f : FaultInfo) (a : Access) (i j : Nat) (e : FaultEnt) (d : CoreId) (g : BitVec 16) (id : Nat) (w : Walk)
     (l : TlbEnt) (t2 : Bool) (k : Nat) (o : BitVec 2) (h : HomeReq),
     let wait := fun (s : State) => s.acc who = some a ∧ a.st = .faulted
     let same := fun (s : State) => (s.tableEnts f.table).find? fun e => e.2.info.asid == f.asid &&
       e.2.info.addr.toNat / 4096 == f.addr.toNat / 4096 && e.2.info.access == f.access && e.2.info.kind == f.kind
     let slot := fun (s : State) => (List.range (min ((s.tableEnts f.table).length + 1) (tableCap f.table))).find? fun i =>
       (s.tableEnts f.table).all fun e => e.1 != i
     Performs (.faultPost who f) (fun s => wait s ∧ same s = some (i, e))
       (fun s => s.setFault f.table i (some { e with waiters := e.waiters ++ [who] })) ∧
     Performs (.faultPost who f) (fun s => wait s ∧ same s = none ∧ s.faultTarget f.table = none)
       (fun s => ((if (f.agent ≤ 3 ∨ f.agent = 5) ∧ f.pkg = s.pkgNum then s.count f.core 13 else s).countLost
         (dieOf f.core)).abandon who f 0 true) ∧
     Performs (.faultPost who f) (fun s => wait s ∧ same s = none ∧ s.faultTarget f.table = some d ∧ slot s = some i)
       (fun s =>
         let seq := SMap.get 0 s.faultSeq (f.table * 65536 + i) + 1
         let t : State := { s with faultSeq := SMap.set 0 s.faultSeq (f.table * 65536 + i) seq }
         (t.setFault f.table i (some { info := f, seq := seq, cyc := s.cyc, waiters := [who] })).hwMsg d f.core f.ctx 1
           (faultWords f (seq ++ BitVec.ofNat 4 f.table ++ BitVec.ofNat 16 i) s.cyc)) ∧
     Performs (.faultPost (.copy d j) f) (fun s => s.acc (.copy d j) = some a ∧ a.st = .faulted ∧ same s = none ∧
         (s.faultTarget f.table).isSome ∧ slot s = none ∧ f.agent ≠ 6)
       (fun s => (s.count f.core 12).after 256 (.faultTableRetry (.copy d j))) ∧
     Performs (.faultPost (.serv j) f) (fun s => s.acc (.serv j) = some a ∧ a.st = .faulted ∧ same s = none ∧
         (s.faultTarget f.table).isSome ∧ slot s = none ∧ f.agent = 6)
       (fun s => s.after 256 (.faultTableRetry (.serv j))) ∧
     Performs (.faultPost (.home j) f) (fun s => s.acc (.home j) = some a ∧ a.st = .faulted ∧ same s = none ∧
         (s.faultTarget f.table).isSome ∧ slot s = none ∧ s.home j = some h ∧ h.req.id.extractLsb' 35 5 = s.pkgNum)
       (fun s => s.after 1024 (.remoteRetry j)) ∧
     Performs (.faultPost (.home j) f) (fun s => s.acc (.home j) = some a ∧ a.st = .faulted ∧ same s = none ∧
         (s.faultTarget f.table).isSome ∧ slot s = none ∧ s.home j = some h ∧ h.req.id.extractLsb' 35 5 ≠ s.pkgNum)
       (fun s => { s with homes := s.homes.filter fun k => k.id != j, outbox := s.outbox ++ [.reply h.req.id (.retry 0)] }) ∧
     Performs (.faultTableRetry who) wait
       (fun s => (s.modAcc who fun b => { b with st := .fresh, map := none, root := true }).resumeAgent who 1) ∧
     Performs (.faultReplay i j o) (fun s => s.faultEnt i j = some e ∧ s.replyReady e = false)
       (fun s => s.after 1 (.faultReplay i j o)) ∧
     Performs (.faultReplay i j 0) (fun s => s.faultEnt i j = some e ∧ s.replyReady e = true ∧ e.waiters = [who] ∧
         (s.setFault i j none).acc who = some a ∧ a.st = .faulted)
       (fun s => ((s.setFault i j none).modAcc who fun b =>
         { b with st := .fresh, map := none, root := true }).resumeAgent who 1) ∧
     Performs (.faultReplay i j 1) (fun s => s.faultEnt i j = some e ∧ s.replyReady e = true ∧ e.waiters = [who] ∧
         (s.setFault i j none).acc who = some a)
       (fun s =>
         let t := s.setFault i j none
         t.abandon who (t.faultInfo who e.info.kind e.info.level e.info.e0 e.info.e1 a.va e.info.access)
           (e.seq ++ BitVec.ofNat 4 i ++ BitVec.ofNat 16 j)) ∧
     Performs (.walk g id) (fun s => (s.walks.find? fun w => w.id == id && w.grp == g) = some w ∧
         (if w.root then s.walkAll w.asid (w.va.toNat % 2 ^ 52) else s.walkVia g.toNat w.asid (w.va.toNat % 2 ^ 52)) =
           .leaf l t2)
       (fun s =>
         let t : State := { s with walks := s.walks.filter fun v => v.id != id }
         (w.waiters.foldl (fun s who => s.walkResult w (.leaf l t2) who) (t.countWalk w (.leaf l t2))).startWalk g) ∧
     Performs (.walk g id) (fun s => (s.walks.find? fun w => w.id == id && w.grp == g) = some w ∧
         (if w.root then s.walkAll w.asid (w.va.toNat % 2 ^ 52) else s.walkVia g.toNat w.asid (w.va.toNat % 2 ^ 52)) =
           .busy k)
       (fun s => (s.nudge k).after 1 (.walk g id)) ∧
     (∀ s : State, s.acc who = some a → a.st = .walking → a.va.toNat / 4096 = w.va.toNat / 4096 →
       let t := s.sample (s.agentInfo who).grp (some l.pte)
       (leafFault l.e1 (s.agentInfo who).priv (t.accKind who) = none →
         s.walkResult w (.leaf l t2) who = (((t.keepWalk w l).putL1 who l).translated who l a.va).resumeAgent who 0) ∧
       (leafFault l.e1 (s.agentInfo who).priv (t.accKind who) = some k →
         s.walkResult w (.leaf l t2) who = t.fail who k (pteSize l.e0 / 4) l.e0 l.e1 a.va)))

/-! ## The hardware's steps: copies, waits, threads and launches (13 R212–R233; 15 R242–R267; 03 R36–R63; 23 R362–R364) -/

/-- 13 R213–R220: a free beat is started by the next command in the rotation, one in a cycle, whether or not an earlier beat
of it is in flight, and reaches as far as the next 256-byte boundary of either side; a granule that has been read is written
whole at the same offset of the destination, and a local store then holds its bytes and keeps every other byte; the granule
that is written is followed by the next, or completes the command; an access that fails ends it. A command that completes
subtracts its bytes from its armed barrier; a command that fails ends with the later ones of its queue and one deferred
trap, or none where its thread is gone. That admission is a look at what can start, and that a beat in flight delays the
reads of the next one, are the model's reading, log entry 36. -/
def Obligations.CopySteps : Prop :=
  ∀ (c : CoreId) (x : CtxId) (q k d : Nat) (m : Cmd),
    let gone := fun (s : State) => s.modCore c fun k => { k with cmds := k.cmds.filter fun n => n.seq != q }
    let onWay := fun (s : State) => ∀ n ∈ (s.core c).cmds, n.busy = true → ∃ a, n.acc = some a ∧
      (a.st = .sent ∨ a.st = .bank ∨ a.st = .performed ∨ a.st = .walking ∨ a.st = .faulted ∨ a.st = .placed)
    let turn := fun (s : State) => s.modCore c fun k => { k with beatAt := s.cyc + 1, rot := 4 * m.ctx.toNat + m.queue.toNat }
    let again := fun (s : State) => if (s.core c).nextBeat.isSome then s.after 1 (.copyBeat c) else s
    let reach := fun (n : Cmd) (o : Nat) =>
      let side := fun (w : Word) => 256 - (laneEa (expandAddr (w.setWidth 52)) (BitVec.ofNat 64 o)).toNat % 256
      min n.len (o + min (side n.word1) (side n.word0))
    let ask := fun (s : State) (n : Cmd) => (s.modCmd c n.seq fun _ => n).copyAccess c n
    Performs (.copyAdmit c x) (fun s => (s.ctx c x).withdrawn = []) (fun s => s.copyBeat c) ∧
    Performs (.copyBeat c) (fun s => (s.core c).cmds = []) (fun s => s) ∧
    Performs (.copyBeat c) (fun s => onWay s ∧ (s.core c).nextBeat = some m ∧ (s.core c).beatAt ≤ s.cyc ∧ m.busy = true)
      (fun s => again ((turn s).modCmd c m.seq fun n => { n with started := reach n n.started })) ∧
    Performs (.copyBeat c) (fun s => onWay s ∧ (s.core c).nextBeat = some m ∧ (s.core c).beatAt ≤ s.cyc ∧ m.busy = false)
      (fun s => again (ask (turn s) { m with started := max m.started (reach m m.off), issued := true, writing := false
                                             acc := some { va := m.src, mask := BitVec.allOnes 64, op := .read } })) ∧
    Performs (.copyBeat c) (fun s => onWay s ∧ (s.core c).nextBeat = some m ∧ s.cyc < (s.core c).beatAt)
      (fun s => s.after 1 (.copyBeat c)) ∧
    Performs (.copyBeat c) (fun s => onWay s ∧ (s.core c).nextBeat = none) (fun s => s) ∧
    (∀ (s : State) (a : Access), m.acc = some a → a.st = .done →
      (m.writing = false → s.copyGo c m = ask s { m with writing := true, data := a.rdata
                                                         acc := some { va := m.dst, mask := BitVec.allOnes 64
                                                                       op := .write (BitVec.allOnes 64) a.rdata } }) ∧
      (m.writing = true → m.len ≤ m.off + 64 → s.copyGo c m =
        (s.modCmd c m.seq fun _ => { m with off := m.off + 64, writing := false, acc := none }).after 0
          (.copyCommandComplete c m.seq)) ∧
      (m.writing = true → m.off + 64 < m.len → m.started ≤ m.off + 64 → s.copyGo c m =
        s.modCmd c m.seq fun _ => { m with off := m.off + 64, writing := false, acc := none })) ∧
    (∀ (s : State) (a : Access), m.acc = some a → a.st = .failed → a.cause ≠ 12 → ∃ k d, s.copyGo c m =
      (s.modCmd c m.seq fun m => { m with acc := none }).after 0 (.copyCommandEnd c m.seq k d) ∧
        (a.cause = 2 → k = 2 ∧ d = 0) ∧ (a.cause = 5 → k = 5 ∧ d = 0) ∧ (a.cause = 256 → k = 8 ∧ d = 5)) ∧
    (∀ (s : State) (a : Access) (x : Granule) (t : CoreId) (off : Nat), s.Canonical → s.acc (.copy c q) = some a →
      a.st = .fresh → a.op = .write (BitVec.allOnes 64) x → s.checkAddr (s.agentCore (.copy c q)) a.va = .ok (.store 0 t off) →
      let at_ := localKey t + off / 64 * 64
      s.lineBusy (at_ / 64) = false → s.lineDead (at_ / 64) = false → s.cached (at_ / 64) = none →
      ∀ j, (s.go (.copy c q)).byte j = if at_ ≤ j ∧ j < at_ + 64 then byteOf x (j - at_) else s.byte j) ∧
    Performs (.copyCommandComplete c q) (fun s => s.cmd c q = none) (fun s => s) ∧
    Performs (.copyCommandComplete c q) (fun s => s.cmd c q = some m ∧ m.bar = false)
      (fun s => ((gone s).wakeCopyPark c m.ctx).after 1 (.copyBeat c)) ∧
    Performs (.copyCommandComplete c q) (fun s => s.cmd c q = some m ∧ m.bar = true ∧ m.orphan = false ∧
        ((gone s).ctx c m.ctx).tid = m.tid ∧ (((gone s).ctx c m.ctx).bars[m.barrier.toNat]).armed = true ∧
        m.len ≤ (((gone s).ctx c m.ctx).bars[m.barrier.toNat]).pending.toNat)
      (fun s =>
        let b := ((gone s).ctx c m.ctx).bars[m.barrier.toNat]
        (((gone s).modCtx c m.ctx fun t =>
          { t with bars := t.bars.set m.barrier.toNat { b with pending := BitVec.ofNat 32 (b.pending.toNat - m.len) } }).wakeCopyPark
          c m.ctx).after 1 (.copyBeat c)) ∧
    Performs (.copyCommandEnd c q k d) (fun s => s.cmd c q = some m ∧ m.orphan = true)
      (fun s => ((s.modCore c fun k =>
          { k with cmds := k.cmds.filter fun n =>
              !(n.seq == q || (n.ctx == m.ctx && n.tid == m.tid && n.queue == m.queue && decide (q < n.seq) && !n.held)) }).wakeCopyPark
        c m.ctx).after 1 (.copyBeat c)) ∧
    Performs (.copyCommandEnd c q k d) (fun s => s.cmd c q = some m ∧ m.orphan = false)
      (fun s => ((s.modCore c fun k =>
          { k with cmds := k.cmds.filter fun n =>
              !(n.seq == q || (n.ctx == m.ctx && n.tid == m.tid && n.queue == m.queue && decide (q < n.seq) && !n.held)) }).after 0
        (.deferredTrapReport c m.ctx m.tid
          { kind := 2, cause := k, pc := m.pc, addr := if m.writing then m.dst else m.src, off := m.off
            detail := d, source := 1, w4 := m.word0, w5 := m.word1 })).after 1 (.copyBeat c))

/-- 15 R243–R248: a fence returns with its last echo and its thread's touched banks are cleared, a bank that holds a write
of the core echoing later; one that waits is looked at again each cycle (the model's reading, log entry 38), and at .sys has
the lines of its devices written back; a barrier's write of sums is made first, and its members resume when the delay has
passed and their accesses are performed; a WAITL reads in its thread's order, returns the word once it differs and watches
while it does not; a sleep that reaches its deadline answers 0. A step that names an earlier thread of the context does
nothing. -/
def Obligations.WaitSteps : Prop :=
  ∀ (c : CoreId) (x : CtxId) (tid : Nat) (sc : Scope) (o : Order) (n : Nat) (l i : BitVec 32) (k : BitVec 2) (g : Gang)
    (due : Nat) (d : G) (old : Word) (a : Access) (w : Word) (m : Bool),
    let it := fun (s : State) => (s.ctx c x).tid = tid
    let wait := fun (s : State) (st : AccSt) =>
      it s ∧ (s.ctx c x).park = some (.waitl d old none false) ∧ (s.ctx c x).acc = some a ∧ a.st = st
    let v : Word := (a.rdata >>> (8 * (a.va.toNat % 64))).setWidth 64
    let bar := fun (s : State) => s.gang? l i = some g ∧ (g.due.find? fun e => e.1 == k) = some (k, due) ∧ g.members = [(c, x)] ∧
      (s.ctx c x).acc = none
    Performs (.probeEcho c x tid) (fun s => ¬it s) (fun s => s) ∧
    Performs (.probeEcho c x tid) (fun s => it s ∧ (s.ctx c x).park = some (.fence sc o 1 true) ∧ s.bankHolds c = false)
      (fun s => s.modCtx c x fun t => { t with touched := 0, st := .running, park := none, pc := t.pc + 8 }) ∧
    Performs (.probeEcho c x tid) (fun s => it s ∧ (s.ctx c x).park = some (.fence sc o (n + 2) true) ∧ s.bankHolds c = false)
      (fun s => s.modCtx c x fun t => { t with park := some (.fence sc o (n + 1) true) }) ∧
    Performs (.probeEcho c x tid) (fun s => it s ∧ (s.ctx c x).park = some (.fence sc o n true) ∧ s.bankHolds c = true)
      (fun s => s.after 1 (.probeEcho c x tid)) ∧
    Performs (.probeEcho c x tid) (fun s => it s ∧ (s.ctx c x).park = some (.fence 7 o n false) ∧
        (s.core c).fenceStep x 7 o = .probe ∧ s.devClean c x = false) (fun s => (s.pushDev c x).after 1 (.probeEcho c x tid)) ∧
    Performs (.probeEcho c x tid) (fun s => it s ∧ (s.ctx c x).park = some (.fence sc o n false) ∧
        (s.core c).fenceStep x sc o = .ret)
      (fun s => s.modCtx c x fun t => { t with st := .running, park := none, pc := t.pc + 8 }) ∧
    Performs (.probeEcho c x tid) (fun s => it s ∧ (s.ctx c x).park = some (.fence sc o n false) ∧
        (s.core c).fenceStep x sc o = .wait ∧ sc ≠ 7) (fun s => s.after 1 (.probeEcho c x tid)) ∧
    Performs (.barrierResume l i k) (fun s => bar s ∧ s.cyc < due) (fun s => s) ∧
    Performs (.barrierResume l i k) (fun s => bar s ∧ due ≤ s.cyc ∧ s.performed (c, x) = true) (fun s => s.releaseBar l i k g) ∧
    Performs (.barrierResume l i k) (fun s => bar s ∧ due ≤ s.cyc ∧ s.performed (c, x) = false ∧
        (s.ctx c x).atBar l i k = true) (fun s => s.after 1 (.barrierResume l i k)) ∧
    Performs (.barrierResume l i k) (fun s => s.gang? l i = some g ∧ (g.due.find? fun e => e.1 == k) = some (k, due) ∧
        s.sumsAt g k = some (c, x) ∧ (s.ctx c x).acc = some a ∧ a.st = .fresh) (fun s => s.go (.park c x)) ∧
    Performs (.waitlWake c x tid) (fun s => wait s .done ∧ v ≠ old)
      (fun s => (s.setAcc (.park c x) none).modCtx c x fun t =>
        { t.setG d v with st := .running, park := none, pc := t.pc + 8 }) ∧
    Performs (.waitlWake c x tid) (fun s => wait s .done ∧ v = old ∧ a.polled = true)
      (fun s => (s.modAcc (.park c x) fun b => { b with st := .performed }).after 4096 (.waitlPoll c x tid)) ∧
    Performs (.waitlWake c x tid) (fun s => wait s .fresh ∧
        s.inOrder c x tid (s.core c).nextId (s.ctx c x).asid a false = false) (fun s => s.after 1 (.waitlWake c x tid)) ∧
    Performs (.waitlWake c x tid) (fun s => wait s .fresh ∧
        s.inOrder c x tid (s.core c).nextId (s.ctx c x).asid a false = true) (fun s => s.go (.park c x)) ∧
    Performs (.waitlPoll c x tid) (fun s => wait s .performed)
      (fun s => (s.modAcc (.park c x) fun b => { b with st := .fresh, map := none }).go (.park c x)) ∧
    Performs (.sleepDeadline c x tid) (fun s => it s ∧ (s.ctx c x).park = some (.sleep d w m) ∧ w.toNat ≤ s.cyc % 2 ^ 64)
      (fun s => s.modCtx c x fun t => { t.setG d 0 with st := .running, park := none, pc := t.pc + 8 }) ∧
    Performs (.sleepDeadline c x tid) (fun s => ¬it s) (fun s => s)

/-- 03 R36, R40; 15 R249: a suspension waits until nothing else of the thread is outstanding or unreported, traps where the
record's address is not a multiple of 64 or is a coordinate, and else writes the record; the written record goes on the
block's waiting list, or where a token waits at another package's home is kept against it at the hub (05 R76, R79), and the
context falls empty; a YIELD does the same and its record goes to the ready queue. 03 R56, R57, R59: an accepted pre-emption
takes effect at a boundary, else looks again; a saving context writes its slot granule by granule and falls empty with
the last; an evacuation writes its granules in turn and answers 0, and halts at one that fails its check (05 R88); a halting
context is halted once nothing of it is outstanding; a reaped one ends what waits, and falls empty with the last of its
operations; HOLDT times out with status 3. -/
def Obligations.SuspensionSteps : Prop :=
  (∀ (c : CoreId) (x : CtxId) (id : Nat) (o : Op) (m : Map) (g : TagV) (a : Access) (k : Nat),
     let start := fun (s : State) => (s.ctx c x).park = none ∧ s.op c id = some o ∧ o.id = id ∧ o.suspends = true ∧
       (s.ctx c x).delivering = false ∧ (s.ctx c x).traps = []
     let free := fun (s : State) => (∀ p ∈ (s.core c).opsOf x, p.id = id) ∧ (s.ctx c x).posted = 0 ∧ s.reportsDue c x = false
     Performs (.suspension c x id) (fun s => start s ∧ (s.ctx c x).posted ≠ 0) (fun s => s.after 1 (.suspension c x id)) ∧
     Performs (.suspension c x id) (fun s => start s ∧ s.reportsDue c x = true) (fun s => s.after 1 (.suspension c x id)) ∧
     Performs (.suspension c x id) (fun s => start s ∧ free s ∧ (s.ctx c x).recTrap = some k)
       (fun s => (((s.modCore c fun q => q.dropOp id).modCtx c x fun t =>
           { t with st := .running, park := none, acc := none, pc := o.pc }).raise c x
         { kind := 0, cause := k, pc := o.pc, len := o.len / 4, addr := (s.ctx c x).getG 29 - 64, order := id })) ∧
     Performs (.suspension c x id) (fun s => start s ∧ free s ∧ (s.ctx c x).recTrap = none)
       (fun s => (s.modCtx c x fun t =>
         { t with st := .parked, park := some (.suspend id)
                  acc := some { va := t.getG 29 - 64, mask := BitVec.allOnes 64
                                op := .write (BitVec.allOnes 64) (t.contRecord o.pc) } }).go (.park c x)) ∧
     Performs (.suspension c x id) (fun s => (s.ctx c x).park = some (.suspend id) ∧ s.op c id = some o ∧
         (s.ctx c x).acc = none ∧ o.waitMap = some m ∧ m.isBlock = true ∧ s.tagOf m.blk m.n = some g ∧ g.st ≠ 2 ∧ s.listRoom m.blk = true)
       (fun s =>
         let t := s.ctx c x
         ((s.placeWaiter m.blk m.n (.cont ((t.getG 29 - 64).setWidth 48) c t.asid t.prio t.pinned)).modCore c
           fun k => k.dropOp o.id).freeCtx c x) ∧
     (let mine := fun (u : RemOut) => match u.who with | .lsu k i _ => k == c && i == o.id | _ => false
      let abroad := fun (s : State) => (s.ctx c x).park = some (.suspend id) ∧ s.op c id = some o ∧ (s.ctx c x).acc = none ∧
        ∀ m, o.waitMap = some m → m.isBlock = false
      Performs (.suspension c x id) (fun s => abroad s ∧ s.sys.tokens.any mine = true) (fun s =>
        let t := s.ctx c x
        let d : Desc := .cont ((t.getG 29 - 64).setWidth 48) c t.asid t.prio t.pinned
        (({ s with sys := { s.sys with tokens := s.sys.tokens.map fun u => if mine u then { u with cont := some d } else u } } :
          State).modCore c fun k => k.dropOp o.id).freeCtx c x) ∧
      Performs (.suspension c x id) (fun s => abroad s ∧ s.sys.tokens.any mine = false) (fun s =>
        let t := s.ctx c x
        ((s.wakeCont 0 (t.getG 29 - 64) c t.asid t.prio t.pinned).modCore c fun k => k.dropOp o.id).freeCtx c x)) ∧
     Performs (.suspension c x 0) (fun s => (s.ctx c x).park = some .yieldDrain ∧ (s.ctx c x).acc = some a ∧ a.st = .done)
       (fun s =>
         let t := s.ctx c x
         (s.pushRq c { addr := t.getG 29 - 64, prio := t.prio, pinned := t.pinned, asid := t.asid, enq := s.cyc }).freeCtx c x) ∧
     (let drained := fun (s : State) => (s.ctx c x).park = some .yieldDrain ∧ (s.ctx c x).acc = none ∧
        (s.ctx c x).delivering = false ∧ (s.ctx c x).traps = [] ∧ (s.core c).opsOf x = [] ∧ (s.ctx c x).posted = 0 ∧
        s.reportsDue c x = false
      Performs (.suspension c x 0) (fun s => drained s ∧ (s.ctx c x).recTrap = some k)
        (fun s => (s.modCtx c x fun t => { t with st := .running, park := none }).raise c x
          { kind := 0, cause := k, pc := (s.ctx c x).pc, len := 2, addr := (s.ctx c x).getG 29 - 64, order := (s.core c).nextId }) ∧
      Performs (.suspension c x 0) (fun s => drained s ∧ (s.ctx c x).recTrap = none)
        (fun s => (s.modCtx c x fun t =>
          { t with acc := some ((s.ctx c x).recWrite ((s.ctx c x).pc + 8)) }).go (.park c x)))) ∧
  (∀ (c : CoreId) (x : CtxId) (n : Nat) (slot : BitVec 5) (d : G) (i key : Nat) (dest : Word) (a b : Access) (h : Halt)
     (tc : CoreId) (tx : CtxId),
     let asked := fun (s : State) => (s.ctx c x).preempt = some slot ∧ (s.ctx c x).st = .running
     let saving := fun (s : State) => (s.ctx c x).st = .saving ∧ (s.ctx c x).preempt = some slot ∧ (s.ctx c x).traps = [] ∧
       (s.core c).cmdsOf x = [] ∧ (s.core c).drained x = true ∧ s.reportsDue c x = false
     let written := fun (s : State) =>
       let off := (s.core c).slotOff slot.toNat
       s.rawWrite (localKey c + off + 64 * (s.ctx c x).progress) (BitVec.allOnes 64)
         ((s.ctx c x).saveGranule c x off (s.ctx c x).progress)
     Performs (.preemptTakeEffect c x) (fun s => asked s ∧ s.boundary c x = false) (fun s => s.after 1 (.preemptTakeEffect c x)) ∧
     Performs (.preemptTakeEffect c x) (fun s => asked s ∧ s.boundary c x = true ∧ s.noTasks c x = true)
       (fun s => (s.modCore c fun k =>
         { (k.setCtx x { k.ctx x with st := .saving, batch := false, progress := 0
                                      withdrawn := ((k.cmdsOf x).filter fun m => !m.issued).map fun m => (m.word0, m.word1) }) with
           cmds := k.cmds.filter fun m => !(m.ctx == x && m.tid == (s.ctx c x).tid && !m.issued) }).after 1 (.saveWrite c x)) ∧
     Performs (.saveWrite c x) (fun s => saving s ∧ (s.ctx c x).progress < 23)
       (fun s => ((written s).modCtx c x fun t => { t with progress := t.progress + 1 }).after 1 (.saveWrite c x)) ∧
     Performs (.saveWrite c x) (fun s => saving s ∧ 23 ≤ (s.ctx c x).progress) (fun s => (written s).freeCtx c x) ∧
     Performs (.evacAcknowledged c) (fun s => (s.ctx c 0).park = some (.evac d i dest n) ∧ (s.ctx c 0).acc = some a ∧
         a.st = .done ∧ s.evacPart c i dest (n + 1) = some b ∧ s.evacBad c i (n + 1) = some key)
       (fun s => (s.setAcc (.park c 0) none).after 0 (.machineCheck 1 key (some (.park c 0)))) ∧
     Performs (.evacAcknowledged c) (fun s => (s.ctx c 0).park = some (.evac d i dest n) ∧ (s.ctx c 0).acc = some a ∧
         a.st = .done ∧ s.evacPart c i dest (n + 1) = some b ∧ s.evacBad c i (n + 1) = none)
       (fun s => ((s.modCtx c 0 fun t => { t with park := some (.evac d i dest (n + 1)) }).setAcc (.park c 0) (some b)).go
         (.park c 0)) ∧
     Performs (.evacAcknowledged c) (fun s => (s.ctx c 0).park = some (.evac d i dest n) ∧ (s.ctx c 0).acc = some a ∧
         a.st = .done ∧ s.evacPart c i dest (n + 1) = none)
       (fun s => (s.setAcc (.park c 0) none).modCtx c 0 fun t =>
         { t.setG d 0 with st := .running, park := none, pc := t.pc + 8 }) ∧
     Performs (.haltTakeEffect c x) (fun s => (s.ctx c x).reaping = false ∧ (s.ctx c x).st = .running ∧
         (s.ctx c x).halt = some h ∧ (∀ r k b, h ≠ .illegal r k b) ∧ (s.ctx c x).hold = false ∧ (s.core c).opsOf x = [])
       (fun s => s.modCtx c x fun t => { t with st := .halted, delivering := false, hold := false }) ∧
     Performs (.haltTakeEffect c x) (fun s => (s.ctx c x).reaping = true ∧ ∀ o ∈ (s.core c).ops, o.ctx ≠ x)
       (fun s => (s.modCtx c x fun t => { t with reaping := false }).freeCtx c x) ∧
     Performs (.haltTakeEffect c x) (fun s => (s.ctx c x).reaping = true ∧ ∃ o ∈ ((s.reapOps c x).core c).ops, o.ctx = x)
       (fun s => (s.reapOps c x).after 1 (.haltTakeEffect c x)) ∧
     Performs (.haltTakeEffect c x) (fun s => (s.ctx c x).reaping = false ∧ (s.ctx c x).st = .running ∧
         (s.ctx c x).halt = none ∧ (s.ctx c x).hold = true ∧ s.boundary c x = true)
       (fun s => (s.modCtx c x fun t => { t with st := .halted, halt := some .hold, hold := false }).holdtDone c x) ∧
     Performs (.holdtTimeout c x n) (fun s => (s.ctx c x).park = some (.holdt d tc tx))
       (fun s => s.modCtx c x fun t => { t.setG d 3 with st := .running, park := none, pc := t.pc + 8 }))

/-- 15 R258–R264: an arriving granule and a gang start record enter at the mailbox's input; the head of the send queue
enters the mesh, or leaves the package; the timer that reaches its deadline is disarmed, Fired, and leaves its notice. 15
R267, R270, R273, R274; 05 R69, R84: the end of WAYM frees fetch and answers 0, that of MOVC wipes the old and the new
extent and writes the region register, or traps where one holds a deferred block; an SGWAY first empties the ways that leave
the cache and lets copies run on, then takes effect and answers 0; a TLBI drops its entries, and a TLBSYNC whose
invalidations are done goes on; EMUR reads, and EMUW writes, the halted target once every access of its thread has been
performed, a target that is not halted counts an event and answers 0, and the answer goes back by the mesh; Table 7-13's
indices of the window. The fields of a gang start record (log entry 34), the stop of a send queue behind a granule that
waits at a full mailbox (81), which lines of a cache an SGWAY gives up (37) and how long a TLBSYNC waits (38) are the
model's reading. -/
def Obligations.MessageSteps : Prop :=
  (∀ (c : CoreId) (m : Msg) (r : List Msg) (g : Granule),
     Performs (.mailboxArrival m) (fun _ => True)
       (fun s => (s.modCore m.dst fun k => { k with inQ := k.inQ ++ [m] }).pump m.dst) ∧
     Performs (.gangStartRecord c g) (fun _ => True)
       (fun s => (s.modCore c fun k => { k with inQ := k.inQ ++
         [{ dst := c, pkg := s.pkgNum, kind := 4, src := c, ctx := 0, asid := 0, first := true, last := true, data := g }] }).pump
         c) ∧
     Performs (.meshCreditReturn c) (fun s => (s.core c).sendQ = m :: r ∧ s.sendStopped c = true)
       (fun s => s.after 1 (.meshCreditReturn c)) ∧
     Performs (.meshCreditReturn c) (fun s => (s.core c).sendQ = m :: r ∧ s.sendStopped c = false ∧ m.pkg = s.pkgNum)
       (fun s => (s.modCore c fun k => { k with sendQ := r }).sendMsg { m with pkg := s.pkgNum }) ∧
     Performs (.meshCreditReturn c) (fun s => (s.core c).sendQ = m :: r ∧ s.sendStopped c = false ∧ m.pkg ≠ s.pkgNum)
       (fun s =>
         let t := s.modCore c fun k => { k with sendQ := r }
         { t with outbox := t.outbox ++ [.message { m with pkg := s.pkgNum } m.pkg] }) ∧
     Performs (.timerFire c) (fun s => (s.core c).timer.getLsbD 63 = true ∧
         (s.core c).timer.toNat % 2 ^ 62 ≤ s.cyc % 2 ^ 64)
       (fun s => (s.modCore c fun k => { k.timerNotice c s.pkgNum with
         timer := ((s.core c).timer &&& 0x7FFFFFFFFFFFFFFF) ||| 0x4000000000000000 }).pump c) ∧
     Performs (.timerFire c) (fun s => (s.core c).timer.getLsbD 63 = false) (fun s => s)) ∧
  (∀ (c : CoreId) (x : CtxId) (d : G) (j : Nat) (v : Word) (tc : CoreId) (tx : CtxId) (i b : Nat) (sel : BitVec 7)
     (mask : BitVec 16) (q : Tlbi),
     let st := rgnStore c sel
     let level := (sel.toNat - 0x40) / 4 + 1
     let new := v &&& 0x80000007FFFFFFFF
     let sg := sgIdx c
     let trim := fun (s : State) => s.trimCache sg (popCount (s.plainWays sg.toNat &&& mask))
     Performs (.storeWipeDone c) (fun s => (s.ctx c 0).park = some (.waym d j))
       (fun s => (s.modCore c fun k => { k with wayBusy := false }).modCtx c 0 fun t =>
         { t.setG d 0 with st := .running, park := none, pc := t.pc + 8 }) ∧
     Performs (.storeWipeDone c) (fun s => (s.ctx c 0).park = some (.movc sel v) ∧
         s.deferredIn level c (rgnExtent st (s.rgn c sel)) = some b)
       (fun s => (s.modCtx c 0 fun t => { t with park := none, st := .running }).raise c 0
         { kind := 0, cause := 3, pc := (s.ctx c 0).pc, len := 2, addr := keyAddr b, order := (s.core c).nextId }) ∧
     Performs (.storeWipeDone c) (fun s => (s.ctx c 0).park = some (.movc sel v) ∧
         s.deferredIn level c (rgnExtent st (s.rgn c sel)) = none ∧ s.deferredIn level c (rgnExtent st new) = none)
       (fun s =>
         let e0 := rgnExtent st (s.rgn c sel)
         let e1 := rgnExtent st new
         (((({ s with rgns := SMap.set 0 s.rgns (rgnIdx c sel) new } : State).wipe e0.1 e0.2).wipe e1.1 e1.2).releaseIn e0.1
             e0.2).releaseIn e1.1 e1.2 |>.modCtx c 0
           fun t => { t with st := .running, park := none, pc := t.pc + 8 }) ∧
     Performs (.storeWipeDone c) (fun s => (s.ctx c 0).park = some (.sgway d) ∧ s.sgway = [(sg, c, mask, 0)])
       (fun s => (trim (({ s with sgway := [(sg, c, mask, 1)] } : State).sgwayBegin sg)).after 1 (.storeWipeDone c)) ∧
     Performs (.storeWipeDone c) (fun s => (s.ctx c 0).park = some (.sgway d) ∧ s.sgway = [(sg, c, mask, 1)] ∧
         s.sgwayReady sg mask = false) (fun s => (trim s).after 1 (.storeWipeDone c)) ∧
     Performs (.storeWipeDone c) (fun s => (s.ctx c 0).park = some (.sgway d) ∧ s.sgway = [(sg, c, mask, 1)] ∧
         s.sgwayReady sg mask = true ∧ (s.sgwayDone sg mask).sgway = s.sgway)
       (fun s => { (((s.sgwayDone sg mask).sgwayEnd sg).modCtx c 0 fun t =>
         { t.setG d 0 with st := .running, park := none, pc := t.pc + 8 }) with sgway := [] }) ∧
     Performs (.tlbiTakesEffect c x) (fun s => s.tlbis = [q] ∧ q.core = c ∧ q.ctx = x ∧ q.done = false ∧
         (s.dropTlb q.keeps).translating = [] ∧ ((s.dropTlb q.keeps).ctx c x).park = none)
       (fun s => { s.dropTlb q.keeps with tlbis := [] }) ∧
     Performs (.tlbiTakesEffect c x) (fun s => s.tlbis = [] ∧ (s.ctx c x).park = some .tlbsync)
       (fun s => s.modCtx c x fun t => { t with st := .running, park := none, pc := t.pc + 8 }) ∧
     (let back := fun (s : State) (w : Word) => s.meshAfter (sgIdx tc) (sgIdx c) .response (.emulationAnswer c x w)
      let asks := fun (s : State) (r : Option G) => (s.ctx c x).park = some (.emu r tc tx i v)
      let still := fun (s : State) => (s.ctx tc tx).st = .halted ∧ s.allPerformed tc tx = true
      Performs (.emulationRoundTrip c x) (fun s => asks s (some d) ∧ still s) (fun s => back s ((s.ctx tc tx).emuRead i)) ∧
      Performs (.emulationRoundTrip c x) (fun s => asks s none ∧ still s)
        (fun s => back (s.modCtx tc tx fun t => t.emuWrite i v) 0) ∧
      (∀ r : Option G, Performs (.emulationRoundTrip c x) (fun s => asks s r ∧ (s.ctx tc tx).st = .halted ∧
          s.allPerformed tc tx = false) (fun s => s.after 1 (.emulationRoundTrip c x))) ∧
      (∀ r : Option G, Performs (.emulationRoundTrip c x) (fun s => asks s r ∧ (s.ctx tc tx).st ≠ .halted)
        (fun s => back (s.count c 15) 0)) ∧
      Performs (.emulationAnswer c x v) (fun s => ∃ w, (s.ctx c x).park = some (.emu (some d) tc tx i w))
        (fun s => s.modCtx c x fun t => { t.setG d v with st := .running, park := none, pc := t.pc + 8 }) ∧
      Performs (.emulationAnswer c x v) (fun s => ∃ w, (s.ctx c x).park = some (.emu none tc tx i w))
        (fun s => s.modCtx c x fun t => { t with st := .running, park := none, pc := t.pc + 8 }))) ∧
  (∀ (t : Ctx) (w : Word),
     (∀ r : G, t.emuRead r.toNat = t.getG r) ∧ t.emuRead 0xC0 = t.pc ∧ t.emuRead 0xC1 = t.rnd ∧
       t.emuRead 0xC2 = t.asid.setWidth 64 ∧
     (∀ (r : V) (k : Fin 4), t.emuRead (0x40 + 4 * r.toNat + k.val) = (t.getV r).extractLsb' (64 * k.val) 64) ∧
     (∀ r : P, t.emuRead (0x80 + r.toNat) = (t.getP r).setWidth 64) ∧
     (∀ r : G, t.emuWrite r.toNat w = t.setG r w) ∧ t.emuWrite 0xC0 w = { t with pc := w } ∧
     (∀ r : P, t.emuWrite (0x80 + r.toNat) w = t.setP r (w.setWidth 32)))

/-- 03 R51–R54: an empty context, once a TREAP that waited for it has had its slot, takes the best entry of its aged ready
queue, else its deque's newest, else probes its neighbours one after the other and waits 256 cycles after the last; a wake
enters the target's queue: the hardware queue, the ring's tail, or, where neither has room, the inbound wake buffer, whose
size is the model's free value (log entry 90); the ring's entries move to the hardware queue in order while it has room, and
what was held follows; the group registers take the load of every present core (which counts the ring's entries: the model's
choice, log entry 96), and a core above %rqhi is looked at; such a queue sends its entry to the core of the group whose load
is below every other's, where that is 2 lower. 03 R37, R38, R45, R60: the record read for a reserved context starts its
thread once the die holds its launch's entry, or where no launch of that number is known (log entry 68: the model's choice);
a record with a reserved bit, one of another address space and one that cannot be read are rejected with their reasons; a
started thread holds what its record gives, and zeros (R37); an image's record names the image, whose granules are read in
turn, each into the registers that Table 3-14 gives it, until the last, after which the thread runs or its withdrawn copies
wait for room; the launch's entry is put into the die's table, or waits while that holds 256. -/
def Obligations.DispatchSteps : Prop :=
  (∀ (c v : CoreId) (x : CtxId) (i : Nat) (e : RqEnt) (u : State) (g : BitVec 16),
     let ready := fun (s : State) => x ≠ 0 ∧ s.present c = true ∧ (s.ctx c x).st = .empty ∧ (s.ctx c x).reapWaits = false
     let old := fun (s : State) => s.modCore c fun k => k.aged s.cyc
     let fills := fun (ev : Event) =>
       Performs ev (fun s => ready s ∧ bestOf ((old s).core c).rq = some e)
         (fun s => ((old s).takeRq c e).startFilling c x e none) ∧
       Performs ev (fun s => ready s ∧ bestOf ((old s).core c).rq = none ∧ (old s).dequeNewest c = some (e, u))
         (fun _ => u.startFilling c x e none) ∧
       Performs ev (fun s => ready s ∧ bestOf ((old s).core c).rq = none ∧ (old s).dequeNewest c = none ∧
           (old s).seeking c x = false) (fun s => (old s).after 4 (.steal c x 0)) ∧
       Performs ev (fun s => (s.ctx c x).reapWaits = true)
         (fun s => (s.modCtx c x fun t => { t with reapWaits := false }).offerCtx c x) ∧
       Performs ev (fun s => x ≠ 0 ∧ s.present c = true ∧ (s.ctx c x).reapWaits = false ∧ (s.ctx c x).st ≠ .empty)
         (fun s => if (s.core c).rq = [] ∧ (s.core c).deque = [] then s else s.kick c)
     fills (.dispatch c x) ∧ fills (.dispatchRetry c x) ∧
     Performs (.steal c x i) (fun s => (s.ctx c x).st = .empty ∧ (stealOrder c)[i]? = some v ∧ s.present v = true ∧
         s.dequeOldest v = some (e, u)) (fun _ => u.startFilling c x e none) ∧
     Performs (.steal c x i) (fun s => (s.ctx c x).st = .empty ∧ (stealOrder c)[i]? = some v ∧ s.present v = true ∧
         s.dequeOldest v = none ∧ i + 1 < (stealOrder c).length)
       (fun s => s.after (if i + 1 < 15 then 4 else 8) (.steal c x (i + 1))) ∧
     Performs (.steal c x i) (fun s => (s.ctx c x).st = .empty ∧ (stealOrder c)[i]? = some v ∧ s.present v = true ∧
         s.dequeOldest v = none ∧ i + 1 = (stealOrder c).length) (fun s => s.after 256 (.dispatchRetry c x)) ∧
     Performs (.steal c x i) (fun s => (s.ctx c x).st = .empty ∧ (stealOrder c)[i]? = some v ∧ s.present v = false ∧
         i + 1 < (stealOrder c).length) (fun s => s.after (if i + 1 < 15 then 4 else 8) (.steal c x (i + 1))) ∧
     Performs (.steal c x i) (fun s => (s.ctx c x).st ≠ .empty) (fun s => s) ∧
     Performs (.wakeMessage c e) (fun _ => True) (fun s => (s.pushRq c e).after 1 (.pushBalance c)) ∧
     (let now := fun (s : State) => { e with enq := s.cyc }
      ∀ s : State, (s.core c).wake = [] →
       ((s.core c).rq.length < 64 → s.ringCount c = 0 →
         s.pushRq c e = (s.modCore c fun k => { k with rq := k.rq ++ [now s] }).kick c) ∧
       (∀ b z : Nat, (s.core c).region = some (b, z) → (64 ≤ (s.core c).rq.length ∨ s.ringCount c ≠ 0) →
         s.ringCount c < (s.core c).spillCap → s.pushRq c e =
           (let t := s.ownWord (b + 8)
            let at_ := b + 64 + 16 * (t.toNat % (s.core c).spillCap)
            (((s.setOwnWord at_ (now s).word0).setOwnWord (at_ + 8) (now s).word1).setOwnWord (b + 8) (t + 1)).after 1
              (.ringRefill c))) ∧
       (∀ b z : Nat, (s.core c).region = some (b, z) → (64 ≤ (s.core c).rq.length ∨ s.ringCount c ≠ 0) →
         (s.core c).spillCap ≤ s.ringCount c → (s.core c).wakeNet = [] →
         s.pushRq c e = (s.modCore c fun k => { k with wake := [e] }).count c 4) ∧
       ((s.core c).rqspill = 0 → 64 ≤ (s.core c).rq.length → (s.core c).wakeNet = [] →
         s.pushRq c e = (s.modCore c fun k => { k with wake := [e] }).count c 4)) ∧
     (∀ s : State, (s.core c).wake ≠ [] →
       (Config.wakeBuffer < (s.core c).wake.length ∨ (s.core c).wakeNet ≠ [] →
         s.pushRq c e = s.modCore c fun k => { k with wakeNet := k.wakeNet ++ [e] }) ∧
       ((s.core c).wake.length ≤ Config.wakeBuffer → (s.core c).wakeNet = [] →
         s.pushRq c e = (s.modCore c fun k => { k with wake := k.wake ++ [e] }).count c 4)) ∧
     Performs (.ringRefill c) (fun s => (s.core c).rqspill = 0 ∧ (s.core c).wake = [] ∧ (s.core c).wakeNet = [])
       (fun s => (s.modCore c fun k => { k with wake := [], wakeNet := [] }).kick c) ∧
     (∀ b z : Nat,
       let one := fun (u : State) => (u.core c).rq.length < 64 ∧ u.ringCount c ≠ 0
       let move := fun (u : State) =>
         let h := u.ownWord b
         let at_ := b + 64 + 16 * (h.toNat % (u.core c).spillCap)
         (u.setOwnWord b (h + 1)).modCore c fun k =>
           { k with rq := k.rq ++ [RqEnt.ofWords (u.ownWord at_) (u.ownWord (at_ + 8))] }
       let moved := fun (s : State) => (List.range 64).foldl (fun u _ => if one u then move u else u) s
       Performs (.ringRefill c) (fun s => (s.core c).region = some (b, z))
         (fun s => (((moved s).pushHeld c ((moved s).core c).wake).pushNet c).kick c)) ∧
     (∀ (s : State) (l : List RqEnt),
       s.pushHeld c [] = s.modCore c (fun k => { k with wake := [] }) ∧
       (∀ t, s.enqueue c e = some t → s.pushHeld c (e :: l) = t.pushHeld c l) ∧
       (s.enqueue c e = none → s.pushHeld c (e :: l) = s.modCore c fun k => { k with wake := e :: l })) ∧
     (∀ s : State, s.ev = some (.groupLoadRefresh g) → SMap.wf 0 s.loads = true →
       let here := (groupCores g.toNat).filter fun d => s.present d
       let load := fun (d : CoreId) => min 255 ((s.core d).busy + (s.core d).rq.length + s.ringCount d)
       let above := here.filter fun d => decide ((s.core d).rqhi.toNat % 256 < (s.core d).rq.length)
       ∃ L, exec (Event.groupLoadRefresh g).row s = .next { s with
           loads := L, agenda := s.agenda ++ above.map fun d => (s.cyc + 1, .pushBalance d) } ∧
         (∀ d ∈ here, SMap.get 0 L d.toNat = load d) ∧
         ∀ j, (∀ d ∈ here, d.toNat ≠ j) → SMap.get 0 L j = SMap.get 0 s.loads j) ∧
     Performs (.pushBalance c) (fun s => (s.core c).rq.length ≤ (s.core c).rqhi.toNat % 256) (fun s => s) ∧
     Performs (.pushBalance c) (fun s => (s.core c).rqhi.toNat % 256 < (s.core c).rq.length ∧
         (s.core c).rqhi.toNat % 256 ≠ 255 ∧ (s.core c).pushedAt ≤ s.cyc ∧ pushable (s.core c).rq = some e ∧
         v ∈ groupCores (groupOf c) ∧ s.present v = true ∧
         (∀ d ∈ groupCores (groupOf c), d ≠ v → s.regLoad v < s.regLoad d) ∧ s.regLoad v + 2 ≤ s.regLoad c)
       (fun s => ((s.takeRq c e).modCore c fun k => { k with pushedAt := s.cyc + 16 }).meshAfter
         (sgIdx c) (sgIdx v) .wake (.wakeMessage v e))) ∧
  (∀ (c : CoreId) (x : CtxId) (e : RqEnt) (a : Access) (die : BitVec 3) (n : BitVec 32) (why : Nat),
     let got := fun (s : State) (st : AccSt) => (s.ctx c x).st = .reserved ∧ (s.ctx c x).filling = some (e, none, false) ∧
       (s.ctx c x).acc = some a ∧ a.st = st
     let t := fun (s : State) => s.modCtx c x fun k => { k with awaitsLaunch := false }
     let reads := fun (ev : Event) =>
       Performs ev (fun s => (s.ctx c x).st ≠ .reserved) (fun s => s) ∧
       Performs ev (fun s => got s .fresh ∧ isCoord a.va = true) (fun s => s.rejectRecord c x 0 6) ∧
       Performs ev (fun s => got s .fresh ∧ isCoord a.va = false) (fun s => s.go (.disp c x)) ∧
       Performs ev (fun s => got s .failed ∧ a.cause = 12) (fun s => s.rejectRecord c x 0 4) ∧
       Performs ev (fun s => got s .done ∧ (t s).recordBad a.rdata e.asid = some why)
         (fun s => (t s).rejectRecord c x (((a.rdata.word 2).extractLsb' 16 32).setWidth 64) why) ∧
       Performs ev (fun s => got s .done ∧ (t s).recordBad a.rdata e.asid = none ∧ (a.rdata.word 0).getLsbD 51 = true)
         (fun s => ((t s).modCtx c x fun k =>
           { k with filling := some ({ e with addr := a.rdata.word 1 }, none, true), progress := 0
                    acc := some { va := a.rdata.word 1, mask := BitVec.allOnes 64, op := .read } }).after 1 (.restore c x)) ∧
       Performs ev (fun s => got s .done ∧ (t s).recordBad a.rdata e.asid = none ∧ (a.rdata.word 0).getLsbD 51 = false ∧
           (t s).canStart (dieOf c) ((a.rdata.word 2).extractLsb' 16 32) = true ∧
           ((t s).startThread c x a.rdata e none).withdrawnConts = [])
         (fun s => (t s).startThread c x a.rdata e none) ∧
       Performs ev (fun s => got s .done ∧ (t s).recordBad a.rdata e.asid = none ∧ (a.rdata.word 0).getLsbD 51 = false ∧
           (t s).canStart (dieOf c) ((a.rdata.word 2).extractLsb' 16 32) = true ∧
           ((t s).startThread c x a.rdata e none).withdrawnConts = [(e.addr, e.asid, why)])
         (fun s => ({ (t s).startThread c x a.rdata e none with withdrawnConts := [] } : State).modCtx c x fun k =>
           { k with withdrawnAt := some (keyAddr why) })
     reads (.resumeContinuation c x) ∧ reads (.restore c x) ∧
     (∀ (s : State) (r : Granule), SMap.wf Core.reset s.cores = true →
       let m := (s.startThread c x r e none).ctx c x
       m.st = .running ∧ m.pc = s.extPc ((r.word 0) &&& 0xFFFFFFFFFFFF) ∧ m.asid = (r.word 2).setWidth 16 ∧
       m.launch = (r.word 2).extractLsb' 16 32 ∧ m.member = (r.word 2).extractLsb' 48 16 ∧ m.gang = 0 ∧ m.lvl = 0 ∧
       m.triggered = (r.word 0).getLsbD 53 ∧ m.pinned = (r.word 0).getLsbD 50 ∧ m.rnd = 0 ∧
       (∀ k : Fin 5, m.getG (BitVec.ofNat 5 (k.val + 1)) = r.word (k.val + 3)) ∧ m.getG 29 = r.word 1 ∧
       (∀ k : G, k = 0 ∨ (5 < k.toNat ∧ k ≠ 29) → m.getG k = 0) ∧ (∀ k : V, m.getV k = 0) ∧
       ∀ k : P, m.getP k = if k = 0 then BitVec.allOnes 32 else 0) ∧
     (∀ (w : Option (Nat × Nat)) (s : State) (i : Nat),
       let u := t s
       let m := u.ctx c x
       let arrived := s.ev = some (.restore c x) ∧ (s.ctx c x).st = .reserved ∧ (s.ctx c x).filling = some (e, w, true) ∧
         (s.ctx c x).acc = some a ∧ a.st = .done
       let next := exec (Event.restore c x).row s
       (arrived → imagePart e.addr m.winSize m.progress = .image i →
         next = .next ((u.modCtx c x fun k => { (k.loadImage i a.rdata) with progress := k.progress + 1 }).restoreNext c x e)) ∧
       (arrived → imagePart e.addr m.winSize m.progress = .window i →
         next = .next (((u.rawWrite (localKey c + m.winOff + 64 * i) (BitVec.allOnes 64) a.rdata).modCtx c x fun k =>
           { k with progress := k.progress + 1 }).restoreNext c x e)) ∧
       (let m := s.ctx c x
        let p := imagePart e.addr m.winSize m.progress
        (p ≠ .past → s.restoreNext c x e = (s.modCtx c x fun k => { k with
          acc := some { va := partAddr e.addr p, mask := BitVec.allOnes 64, op := .read } }).after 1 (.restore c x)) ∧
        (p = .past → m.withdrawn.take m.withdrawnLen = [] → s.restoreNext c x e = s.modCtx c x fun k =>
          { k with withdrawn := [], withdrawnLen := 0, acc := none, lvl := 0, st := .running, filling := none
                   progress := 0 }))) ∧
     (∀ (m : Ctx) (r : Granule) (i : Nat),
       (1 ≤ i → i ≤ 4 → ∀ j : Fin 8, (m.loadImage i r).getG (BitVec.ofNat 5 (8 * (i - 1) + j.val)) = r.word j.val) ∧
       (5 ≤ i → i ≤ 12 → (m.loadImage i r).getV (BitVec.ofNat 4 (2 * (i - 5))) = r.setWidth 256 ∧
         (m.loadImage i r).getV (BitVec.ofNat 4 (2 * (i - 5) + 1)) = r.extractLsb' 256 256) ∧
       (∀ k : P, k ≠ 0 → (m.loadImage 13 r).getP k = r.extractLsb' (32 * k.toNat) 32) ∧
       (m.loadImage 13 r).fmt = r.word 5 ∧ (m.loadImage 13 r).scl = r.word 6 ∧
       (∀ k : Fin 4, let b := (m.loadImage 14 r).bars[k]
         b.pending = (r.word (2 * k.val)).setWidth 32 ∧ b.armed = (r.word (2 * k.val)).getLsbD 63 ∧
           b.init = (r.word (2 * k.val + 1)).setWidth 32)) ∧
     Performs (.launchTableFill die n) (fun s => s.hasEntry die n = false ∧ (s.launch? n).isSome = true ∧
         256 ≤ (s.active.filter fun e => e.1 == die).length) (fun s => s.after 64 (.launchTableFill die n)) ∧
     Performs (.launchTableFill die n) (fun s => s.hasEntry die n = false ∧ (s.launch? n).isSome = true ∧
         (s.active.filter fun e => e.1 == die).length < 256 ∧ s.cores = [])
       (fun s => { s with active := s.active ++ [(die, n)] }))

/-- 03 R46–R49: a bad record is refused with its cause in its Status word, a good one has its completion block located, then
its trigger block; one that is no 64-byte block or is the other one rejects it with cause 4; a launch for which every die's
table has room begins, else it is tried again after 64 cycles; a gang is placed on the die it is offered to, or goes to the
next die; a launch's block is written as its job's access, after which the launch's entries are freed; what the block
refuses fails the launch with cause 5. 03 R62, R63: a deadlock that still stands is declared once: detection is disarmed,
the census goes to the region that firmware has set, and the notice to the lowest die of the partition with a supervisor;
the region takes a header of eight doublewords, with the number of entries and of those written, and from byte 64 on as many
whole entries of four doublewords as fit. An emptied context is first offered to the gangs that wait for one of its die,
then to dispatch. -/
def Obligations.LaunchSteps : Prop :=
  (∀ (id : Nat) (j : Job) (addr : Word) (asid : BitVec 16) (q : Option (BitVec 6)) (c : Nat) (a : Access) (n : BitVec 32)
     (l : Launch) (d e : BitVec 3) (t : State) (core : CoreId) (x : CtxId) (m : Map),
     let job := fun (s : State) => s.job id = some j ∧ j.kind = .launch addr asid q
     let r := launchOf j.buf addr asid j.quad
     let rejected := fun (cause : Nat) (s : State) => (s.modJob j.id fun k =>
       { k with kind := .status r.num, asid := asid
                acc := some (writeAcc (addr + 0x50) 8 (BitVec.ofNat 64 (3 + 256 * cause))) }).after 1 (.launchAccept j.id)
     let found := fun (s : State) => job s ∧ j.acc = some a ∧ a.st = .done ∧ a.map = some m
     let blk := (a.va.extractLsb' 52 5).toNat * 2 ^ 128 + 2 ^ 133 + m.blk
     let wr := fun (k : JobKind) (s : State) => s.launch? n = some l ∧ l.coord = none ∧ (s.jobs.find? fun j => j.kind == k) = some j ∧
       j.acc = some a
     Performs (.launchAccept id) (fun s => s.job id = none) (fun s => s) ∧
     Performs (.launchAccept id) (fun s => job s ∧ j.acc = none ∧ s.launchBad j.buf r = some c) (rejected c) ∧
     Performs (.launchAccept id) (fun s => job s ∧ j.acc = none ∧ s.launchBad j.buf r = none)
       (fun s => (s.modJob id fun k =>
         { k with asid := r.asid, phase := 1, acc := some { va := r.completion, mask := 0, op := .locate } }).after 1
         (.launchAccept id)) ∧
     Performs (.launchAccept id) (fun s => job s ∧ j.acc = some a ∧ a.st = .failed ∧ j.phase ≠ 3) (rejected 4) ∧
     Performs (.launchAccept id) (fun s => found s ∧ j.phase ≠ 3 ∧ m.n ≠ 0) (rejected 4) ∧
     Performs (.launchAccept id) (fun s => found s ∧ j.phase = 1 ∧ m.n = 0 ∧ r.trigger ≠ 0)
       (fun s => (s.modJob id fun k =>
         { k with phase := 2, blk := blk, acc := some { va := r.trigger, mask := 0, op := .locate } }).after 1
         (.launchAccept id)) ∧
     Performs (.launchAccept id) (fun s => found s ∧ j.phase = 2 ∧ m.n = 0 ∧ j.blk = blk) (rejected 4) ∧
     Performs (.launchAccept id) (fun s => found s ∧ j.phase = 2 ∧ m.n = 0 ∧ j.blk ≠ blk ∧ s.tablesFree r = true)
       (fun s => ({ s with jobs := s.jobs.filter fun k => k.id != id } : State).beginLaunch j.buf r) ∧
     Performs (.launchAccept id) (fun s => found s ∧ j.phase = 2 ∧ m.n = 0 ∧ j.blk ≠ blk ∧ s.tablesFree r = false)
       (fun s => (s.modJob id fun k => { k with phase := 3 }).after 64 (.launchAccept id)) ∧
     Performs (.launchAccept id) (fun s => s.job id = some j ∧ j.kind = .status n ∧ j.acc = some a ∧ a.st = .done)
       (fun s => { s with jobs := s.jobs.filter fun k => k.id != id }) ∧
     Performs (.gangPlace n d) (fun s => s.launch? n = some l ∧ d ∈ s.launchDies l ∧ s.placeOn l d = some t ∧
         l.last ≤ l.next + 1) (fun _ => t) ∧
     Performs (.gangPlace n d) (fun s => s.launch? n = some l ∧ d ∈ s.launchDies l ∧ s.placeOn l d = some t ∧
         l.next + 1 < l.last) (fun s => t.after 1 (.gangPlace n ((s.launchDies l).headD 0))) ∧
     Performs (.gangPlace n d) (fun s => s.launch? n = some l ∧ d ∈ s.launchDies l ∧ s.placeOn l d = none ∧
         l.next < l.last ∧ ((s.launchDies l).find? fun e => decide (d.toNat < e.toNat)) = some e)
       (fun s => s.after 1 (.gangPlace n e)) ∧
     (let offered := fun (s : State) => s.launches = [l] ∧ l.placing = true ∧ dieOf core ∈ s.launchDies l ∧
         (s.launchDies l).findSome? (fun d => s.placeOn l d) = some t
      Performs (.gangOffer core x) (fun s => s.launches = [] ∧ x ≠ 0 ∧ (s.ctx core x).st = .empty)
        (fun s => s.after 0 (.dispatch core x)) ∧
      Performs (.gangOffer core x) (fun s => s.launches = [] ∧ (s.ctx core x).st ≠ .empty) (fun s => s) ∧
      Performs (.gangOffer core x) (fun s => offered s ∧ (t.ctx core x).st ≠ .empty) (fun _ => t) ∧
      Performs (.gangOffer core x) (fun s => offered s ∧ (t.ctx core x).st = .empty ∧ x ≠ 0)
        (fun _ => t.after 0 (.dispatch core x)) ∧
      Performs (.gangOffer core x) (fun s => s.launches = [l] ∧ (l.placing = false ∨ dieOf core ∉ s.launchDies l) ∧ x ≠ 0 ∧
          (s.ctx core x).st = .empty) (fun s => s.after 0 (.dispatch core x))) ∧
     Performs (.triggerWrite n) (fun s => wr (.trig n) s ∧ a.st = .done) (fun s => s.dropJob j.id) ∧
     Performs (.triggerWrite n) (fun s => wr (.trig n) s ∧ a.st = .failed)
       (fun s => (s.dropJob j.id).blockRefused l l.trigger 1) ∧
     Performs (.completionWrite n) (fun s => wr (.compl n) s ∧ s.jobs.any (fun j => j.kind == .trig n) = true)
       (fun s => s.after 1 (.completionWrite n)) ∧
     Performs (.completionWrite n) (fun s => wr (.compl n) s ∧ s.jobs.any (fun j => j.kind == .trig n) = false ∧
         a.st = .done ∧ l.status = 1)
       (fun s => ((s.dropJob j.id).writeStatus { l with num := 0 } 2).dropLaunch n)) ∧
  (∀ (p : BitVec 2) (d : BitVec 3),
     Performs (.deadlockDeclare p) (fun s => s.armed.getLsbD p.toNat = false) (fun s => s) ∧
     Performs (.deadlockDeclare p) (fun s => s.armed.getLsbD p.toNat = true ∧ s.deadlocked p = false) (fun s => s) ∧
     (let told := fun (s : State) => ((((List.range 8).map fun i => (BitVec.ofNat 3 i : BitVec 3)).filter fun d =>
        s.sys.parts[d.toNat / 2]? == some p).find? fun d => (s.supvOf d).isSome) = some d
      let holds := fun (s : State) => s.armed.getLsbD p.toNat = true ∧ s.deadlocked p = true
      let off := fun (s : State) =>
        ({ s with armed := s.armed &&& ~~~((1 : BitVec 4) <<< p.toNat), outbox := s.outbox ++ [.msix 2] } : State)
      Performs (.deadlockDeclare p) (fun s => holds s ∧ told s ∧ s.bar 0x8008 = 0) (fun s =>
        (off s).after 0 (.supervisorNotice d
          { code := 22, cause := 13, addr := s.bar 0x8000, w4 := BitVec.ofNat 64 ((off s).census p).length, w5 := 0 })) ∧
      (∀ s : State, s.ev = some (.deadlockDeclare p) → holds s → s.bar 0x8008 ≠ 0 →
        let total := (off s).census p
        let n := min total.length (((s.bar 0x8008).toNat - 64) / 32)
        let header : List Word := [BitVec.ofNat 64 total.length, BitVec.ofNat 64 n, if n = total.length then 0 else 1, s.cycW,
          0, 0, 0, 0]
        let u := ((off s).putWords (s.bar 0x8000).toNat header).putWords ((s.bar 0x8000).toNat + 64) (total.take n).flatten
        told u → exec (Event.deadlockDeclare p).row s = .next (u.after 0 (.supervisorNotice d
          { code := 22, cause := 13, addr := s.bar 0x8000, w4 := BitVec.ofNat 64 total.length, w5 := BitVec.ofNat 64 n }))) ∧
      (∀ (s : State) (k : Nat) (w : Word) (ws : List Word),
        s.putWords k [] = s ∧ s.putWords k [w] = s.setOwnWord k w ∧
          s.putWords k (ws ++ [w]) = (s.putWords k ws).setOwnWord (k + 8 * ws.length) w)))

/-- 23 R363, R364: a Reserve enters the launch and reserves its gangs, waits for room in the die tables, or is answered RNak
where the package has no die for it; the last reservation answers RAck, the last RAck sends Go to every package and awaits
Started; RNak releases the launch with cause 10; Go sends the gangs' start records, and the last start answers Started. A
missing Started puts the launch into containment: cause 11, and Halt to every package, which halts the members, releases what
is reserved and answers; when every live package has answered, the completion block is written. Trig and Done of every
package write the coordinator's blocks, and a Done that carries a cause fails the launch with it. -/
def Obligations.DomainSteps : Prop :=
  ∀ (n : BitVec 32) (p q : BitVec 5) (l : Launch) (m : Reserve) (c : CoreId) (x : CtxId) (g : Gang) (k : Nat),
    let named := fun (s : State) => s.launch? n = some l
    let noted := fun (f : Launch → Launch) (s : State) => s.modLaunch n f
    let send := fun (dst : BitVec 5) (what : String) (i : BitVec 32) (own : Event) (s : State) =>
      if dst = s.pkgNum then s.afterFree own else { s with outbox := s.outbox ++ [.launch dst what i 0] }
    let toAll := fun (what : String) (own : Event) (s : State) => l.pkgs.foldl (fun s dst => send dst what n own s) s
    let every := fun (got : List (BitVec 5)) => l.pkgs.all fun p => got.contains p
    let entered := fun (s : State) =>
      let share := ((bytesWord m.record 0x88).setWidth 32).toNat
      let before := (m.pkgs.filter fun p => decide (p.toNat < s.pkgNum.toNat)).length * share
      ({ ((s.launch? m.launch).getD (launchOf m.record (((s.launch? m.launch).map Launch.recAddr).getD 0) 0 0)) with
        coord := some m.coord, phase := 1, first := before, next := before, last := before + share } : Launch)
    Performs (.reserve m) (fun s => s.launchDies (entered s) = []) (fun s =>
      send m.coord "RNak" m.launch (.rnak m.launch s.pkgNum) s) ∧
    Performs (.reserve m) (fun s => s.launchDies (entered s) ≠ [] ∧ s.tablesFree (entered s) = false)
      (fun s => s.after 64 (.reserve m)) ∧
    Performs (.reserve m) (fun s => s.launchDies (entered s) ≠ [] ∧ s.tablesFree (entered s) = true ∧
        (entered s).next < (entered s).last) (fun s =>
      let e := entered s
      let u : State := { s with launches := (s.launches.filter fun q => q.num != m.launch) ++ [e] }
      ({ u with active := u.active ++ ((u.launchDies e).filter fun d => !u.hasEntry d e.num).map fun d => (d, e.num) } :
        State).after 1 (.gangPlace e.num ((s.launchDies e).headD 0))) ∧
    (∀ s : State, l.coord = some q →
      (l.phase = 1 → l.last ≤ l.next → s.reservedAll l =
        send q "RAck" l.num (.rack l.num s.pkgNum) (s.modLaunch l.num fun l => { l with phase := 2 })) ∧
      (l.phase ≠ 1 ∨ l.next < l.last → s.reservedAll l = s) ∧
      (named s → l.phase = 3 → l.begun = l.share * l.members → s.checkStarted n =
        let u := s.modLaunch n fun l => { l with phase := 4 }
        send q "Started" n (.started n s.pkgNum)
          { u with gangs := u.gangs.filter fun g => !(g.launch == n && g.level == 0) }) ∧
      (named s → l.phase ≠ 3 ∨ l.begun ≠ l.share * l.members → s.checkStarted n = s)) ∧
    (let got := l.racks.erase p ++ [p]
     Performs (.rack n p) (fun s => named s ∧ every got = true ∧ l.status = 1)
       (fun s => (toAll "Go" (.go n) (noted (fun l => { l with racks := l.racks.erase p ++ [p] }) s)).after (2 ^ 20)
         (.startedTimeout n)) ∧
     Performs (.rack n p) (fun s => named s ∧ (every got = false ∨ l.status ≠ 1))
       (noted fun l => { l with racks := l.racks.erase p ++ [p] })) ∧
    Performs (.rnak n p) (fun s => named s ∧ l.status ≠ 3)
      (fun s => (toAll "Release" (.release n) (s.failLaunch n 10)).afterFree (.release n)) ∧
    Performs (.rnak n p) (fun s => named s ∧ l.status = 3) (fun s => s) ∧
    Performs (.release n) (fun _ => True) (fun s => (s.dropLaunch n).releaseGangs n) ∧
    Performs (.go n) named (fun s =>
      (s.gangs.filter fun g => g.launch == n).foldl (fun s g => s.sendRecords l g.index.toNat g.members)
        (noted (fun l => { l with phase := 3 }) s)) ∧
    (∀ s : State, s.sendRecords l k [(c, x)] =
      s.meshAfter (s.hubRouter (sgIdx c)) (sgIdx c) .request (.gangStartRecord c (l.startRecord k 0))) ∧
    Performs (.started n p) (fun _ => True) (noted fun l => { l with starts := l.starts.erase p ++ [p] }) ∧
    Performs (.startedTimeout n) (fun s => named s ∧ (every l.starts = true ∨ l.contained = true)) (fun s => s) ∧
    Performs (.startedTimeout n) (fun s => named s ∧ every l.starts = false ∧ l.pkgs ≠ [] ∧ l.contained = false)
      (fun s => toAll "Halt" (.halt n s.pkgNum)
        ((s.failLaunch n 11).modLaunch n fun l => { l with contained := true, complDone := true })) ∧
    (let members := fun (s : State) =>
       s.ctxsWhere fun t => t.launch == n && t.gangMember || (t.launch == n && t.launch != 0)
     let halted := fun (s : State) => ((members s).foldl (fun s m => s.containCtx m.1 m.2 0) s).releaseGangs n
     Performs (.halt n p) (fun s => p ≠ (halted s).pkgNum)
       (fun s => ({ halted s with outbox := (halted s).outbox ++ [.launch p "HaltAnswer" n 0] } : State).dropLaunch n) ∧
     Performs (.halt n p) (fun s => p = (halted s).pkgNum)
       (fun s => (halted s).afterFree (.haltAnswer n p))) ∧
    (∀ s : State, let t := s.ctx c x
      (t.st = .empty ∨ t.st = .reserved → s.containCtx c x 0 = s) ∧
      (t.st ≠ .empty → t.st ≠ .reserved → s.containCtx c x 0 = (s.haltCtx c x .containment).notify (dieOf c)
        { code := 16, cause := 14, addr := 0, who := s.whoCtx c x, w3 := t.pc }) ∧
      (s.gangs = [g] → g.launch ≠ n → s.releaseGangs n = s) ∧
      (s.gangs = [g] → g.launch = n → g.members = [(c, x)] → t.st = .reserved →
        s.releaseGangs n = ({ s with gangs := [] } : State).freeCtx c x) ∧
      (s.gangs = [g] → g.launch = n → g.members = [(c, x)] → t.st ≠ .reserved →
        s.releaseGangs n = { s with gangs := [] })) ∧
    (let left := fun (s : State) => l.pkgs.all fun q => (l.halts.erase p ++ [p]).contains q || s.pkgDead q
     Performs (.haltAnswer n p) (fun s => named s ∧ l.contained = true ∧ left s = true)
       (fun s => (noted (fun l => { l with halts := l.halts.erase p ++ [p] }) s).after 1 (.completionWrite n)) ∧
     Performs (.haltAnswer n p) (fun s => named s ∧ (l.contained = false ∨ left s = false))
       (noted fun l => { l with halts := l.halts.erase p ++ [p] })) ∧
    Performs (.trigMessage n p) (fun s => named s ∧ every (l.trigs.erase p ++ [p]) = true)
      (fun s => (noted (fun l => { l with trigs := l.trigs.erase p ++ [p] }) s).after 1 (.triggerWrite n)) ∧
    Performs (.trigMessage n p) (fun s => named s ∧ every (l.trigs.erase p ++ [p]) = false)
      (noted fun l => { l with trigs := l.trigs.erase p ++ [p] }) ∧
    Performs (.done n p 0) (fun s => named s ∧ every (l.dones.erase p ++ [p]) = true ∧ l.contained = false)
      (fun s => (noted (fun l => { l with dones := l.dones.erase p ++ [p] }) s).after 1 (.completionWrite n)) ∧
    Performs (.done n p 0) (fun s => named s ∧ (every (l.dones.erase p ++ [p]) = false ∨ l.contained = true))
      (noted fun l => { l with dones := l.dones.erase p ++ [p] }) ∧
    (let failed := fun (s : State) => (s.failLaunch n k).modLaunch n fun l => { l with dones := l.dones.erase p ++ [p] }
     Performs (.done n p k) (fun s => k ≠ 0 ∧ named s ∧ every (l.dones.erase p ++ [p]) = true ∧ l.contained = false)
       (fun s => (failed s).after 1 (.completionWrite n)) ∧
     Performs (.done n p k) (fun s => k ≠ 0 ∧ named s ∧ every (l.dones.erase p ++ [p]) = false) failed)

/-- 17 R282–R290: acceptance reads the record's two granules and its configuration block, and a task with a bad form ends
with its cause; the presence check reads its places in turn, then the task is ready; an engine that changes its
configuration drains first, counts the event and is busy for 16 cycles; a last K-step is followed by the D rows; a
complete task's record is written and its thread told where it ended with an error. 09 R140–R143: a K-step adds the exact sum
of its products to each accumulator and clamps it once, on the integer path; on the float path the products of 32 elements,
scaled, are summed with it in a window of 64 bits and rounded once. -/
def Obligations.TaskSteps : Prop :=
  ∀ (g : BitVec 8) (tk : Word) (k : Task) (e c : Nat) (a : Access) (w : Word),
    let it := fun (s : State) => s.task g tk = some k ∧ k.ticket = tk
    Performs (.taskAccept g tk) (fun s => s.task g tk = none) (fun s => s) ∧
    Performs (.taskAccept g tk) (fun s => it s ∧ k.st = .issued ∧ k.acc = none ∧ k.step = 0 ∧
        ((s.sg g).tasks.find? fun t => t.st == .issued).map Task.ticket = some tk)
      (fun s => s.taskAccess g tk .plain { va := k.record, mask := BitVec.allOnes 64, op := .read }) ∧
    Performs (.taskAccept g tk) (fun s => it s ∧ k.st = .issued ∧ k.acc = none ∧ k.step = 3 ∧
        ((s.sg g).tasks.find? fun t => t.st == .issued).map Task.ticket = some tk ∧ k.formError true = some c)
      (fun s => s.after 0 (.taskEndError g tk c)) ∧
    Performs (.taskPresenceCheck g tk) (fun s => it s ∧ k.st = .presence ∧ k.acc = none ∧ k.presencePlaces[k.step]? = some w)
      (fun s => (s.modTask g tk fun k => { k with st := .presence }).taskAccess g tk .presence
        { va := w, mask := BitVec.allOnes 64, op := .read }) ∧
    Performs (.taskPresenceCheck g tk) (fun s => it s ∧ k.st = .presence ∧ k.acc = none ∧ k.presencePlaces[k.step]? = none)
      (fun s => (s.modTask g tk fun k => { k with st := .ready, step := 0, acc := none }).kickIssue g) ∧
    Performs (.taskIssue g) (fun s => (s.markReady g).pickTask g ((s.markReady g).sg g).tasks = none) (fun s => s.markReady g) ∧
    Performs (.taskIssue g) (fun s => (s.markReady g).pickTask g ((s.markReady g).sg g).tasks = some (k, e) ∧ k.op ≠ 2)
      (fun s =>
        let r := s.markReady g
        let t := (r.modTask g k.ticket fun k =>
          { k with st := .running, engine := e, step := 0, kstep := 0, passes := if k.committed then k.passes else 0, accs := []
                   buf := [], acc := none, readyAt := none, issuedAt := r.cyc
                   changes := (r.engine g e).config != k.cfgId }).kickIssue g
        t.after 1 (if (t.engine g e).config = k.cfgId then .taskKstep g k.ticket else .configurationChange g k.ticket)) ∧
    Performs (.configurationChange g tk) (fun s => it s ∧ k.st = .running ∧ k.changes = true ∧
        (s.sg g).running.any (fun q => q.engine == k.engine && decide (q.issuedAt < k.issuedAt)) = true)
      (fun s => s.after 1 (.configurationChange g tk)) ∧
    Performs (.configurationChange g tk) (fun s => it s ∧ k.st = .running ∧ k.changes = true ∧
        (s.sg g).running.any (fun q => q.engine == k.engine && decide (q.issuedAt < k.issuedAt)) = false ∧
        (s.engine g k.engine).busyUntil ≤ s.cyc)
      (fun s => ((((s.modTask g tk fun k => { k with changes := false }).modEngine g k.engine fun e =>
        { e with config := k.cfgId, busyUntil := s.cyc + 16 }).count k.core 8).after 16 (k.startEvent g)).kickIssue g) ∧
    Performs (.taskKstep g tk) (fun s => it s ∧ k.st = .running ∧ k.writing = false ∧ k.op ≠ 2 ∧ k.begun = true ∧
        k.changes = false ∧ (s.engine g k.engine).config = k.cfgId ∧ k.accs ≠ [] ∧ k.acc = none ∧
        (k.placesA k.kstep 1 ++ k.placesB k.kstep 1 ++ k.placesS k.kstep 1)[k.step]? = none ∧
        (s.engine g k.engine).busyUntil ≤ s.cyc ∧ s.behind g k = false ∧ k.kstep + 1 = k.steps)
      (fun s =>
        let r := k.compute k.kstep
        let t := (s.countN k.core 6 r.2.2.1).countN k.core 5 r.2.2.2
        let t := t.modTask g tk fun q =>
          { q with accs := r.1, status := q.status ||| r.2.1, kstep := q.kstep + 1, passes := q.passes + 1, buf := []
                   step := 0, writing := true }
        (t.modEngine g k.engine fun e => { e with busyUntil := t.cyc + k.pair.cc }).after k.pair.cc (.taskDWrite g tk)) ∧
    Performs (.taskDWrite g tk) (fun s => it s ∧ k.st = .running ∧ k.writing = true ∧ k.acc = none ∧ k.rows < k.m)
      (fun s => s.taskAccess g tk .operand (k.rowWrite k.rows k.step)) ∧
    Performs (.taskComplete g tk) (fun s => it s ∧ k.st = .ending ∧ k.fin = some 0 ∧ k.acc = some a ∧ a.st = .done)
      (fun s => s.finishTask g k 0) ∧
    Performs (.taskEndError g tk c) (fun s => it s ∧ k.st = .ending ∧ k.fin = some c ∧ c ≠ 0 ∧ k.last = true ∧
        k.acc = some a ∧ a.st = .done) (fun s => (s.modTask g tk fun _ => k).finishTask g k c) ∧
    Performs (.taskEndError g tk c) (fun s => it s ∧ k.st = .ready ∧ c ≠ 0 ∧ k.acc = none)
      (fun s =>
        let q := { k with fin := some c, begun := true, st := .ending, last := false }
        ((s.modTask g tk fun _ => q).modTask g tk fun k => { k with last := true }).taskAccess g tk .plain
          (q.recWrite true (c == 12) (if c = 12 then 5 else 4) c)) ∧
    Performs (.taskFault g tk false) (fun s => it s ∧ k.st = .running ∧ s.taskNote g k = .unable)
      (fun s => (s.leaveEngine g k).modTask g tk fun q => { q with st := .faulted }) ∧
    -- The accumulators of a K-step.
    (∀ t i j : Nat, i < k.m → j < k.n → k.accs.length = k.m * k.n →
      let el := fun (ty : Ty) (row : Word) (x : Nat) => bufElem k.buf row ty.width (t * k.pair.elems + x)
      let as := fun x => el k.tyA (rowAt (k.w 2) (k.w 3) i) x
      let bs := fun x => el k.tyB (rowAt (k.w 4) (k.w 5) j) x
      let scale := fun (base : Word) (line x : Nat) =>
        scaleOf (BitVec.ofNat 16 (bufNat k.buf (scaleAt base k.depth line (t * k.pair.elems / 128 + x / 4)) 2)) (x % 4)
      let old := k.accs.getD (i * k.n + j) 0
      let new := (k.compute t).1[i * k.n + j]?
      let sum : Int := old.toInt +
        ((List.range k.pair.elems).map fun x => (intValue k.tyA (as x)).1 * (intValue k.tyB (bs x)).1).sum
      let term := fun (x : Nat) => (exactVals k.mode ((List.range 32).map fun y =>
        (prodVal (elemVal k.tyA (as (32 * x + y))).1 (elemVal k.tyB (bs (32 * x + y))).1).1)).1
      let path := fun (f : Nat → FVal) => new = some (BitVec.ofNat 32 (windowSum k.mode
        (fmtF32.decode old.toNat :: (List.range (k.pair.elems / 32)).map f)).1)
      (k.floats = false → new = some (BitVec.ofInt 32 (max (-2 ^ 31) (min (2 ^ 31 - 1) sum)))) ∧
      (k.floats = true → k.scaledA = false → k.scaledB = false → path term) ∧
      (k.floats = true → k.scaledA = true → k.scaledB = true →
        (∀ x < k.pair.elems / 32, (scale (k.w 9) i x).isSome = true ∧ (scale (k.w 10) j x).isSome = true) →
        path fun x => ((term x).scale ((scale (k.w 9) i x).getD (0, 0))).scale ((scale (k.w 10) j x).getD (0, 0)))) ∧
    (∀ (mode : RMode) (xs : List FVal),
      let nan := xs.any FVal.isNan
      let fin := fun (v : FVal) => match v with | .fin b m e => some (b, m, e) | _ => none
      let nz := (xs.filterMap fin).filter fun v => v.2.1 != 0
      (nan = true → windowSum mode xs = (fmtF32.defaultNan, 0)) ∧
      (nan = false → .inf false ∈ xs → .inf true ∈ xs → windowSum mode xs = (fmtF32.defaultNan, stInvalid)) ∧
      (∀ b, nan = false → .inf b ∈ xs → .inf (!b) ∉ xs → windowSum mode xs = (fmtF32.infBits b, 0)) ∧
      (∀ top : Int, nan = false → .inf false ∉ xs → .inf true ∉ xs →
        (∀ v ∈ nz, (bitLen v.2.1 : Int) - 1 + v.2.2 ≤ top) → (∃ v ∈ nz, (bitLen v.2.1 : Int) - 1 + v.2.2 = top) →
        let lsb := top - 63
        let size := fun (v : Bool × Nat × Int) =>
          if lsb ≤ v.2.2 then v.2.1 * 2 ^ (v.2.2 - lsb).toNat else v.2.1 / 2 ^ (lsb - v.2.2).toNat
        let hi : Int := (nz.map fun v => if v.1 then -(size v : Int) else size v).sum
        let sticky := nz.any fun v => decide (v.2.2 < lsb) && v.2.1 % 2 ^ (lsb - v.2.2).toNat != 0
        let round := fun (b : Bool) => roundTo fmtF32 { mode := mode } false b hi.natAbs lsb sticky
        (hi = 0 → sticky = false → windowSum mode xs = (fmtF32.zero (mode == .down), 0)) ∧
        (hi ≠ 0 → windowSum mode xs = ((round (hi < 0)).1, if (round (hi < 0)).2 &&& fOverflow = 0 then 0 else stOverflow))))

/-- 17 R291–R298, R302–R305: a graft that finds its watch version changed starts again, counting the event; its commit
writes X̂ and Y, then its record; LYRQ.W returns a watch version, LYRQ a record's word, LYRREF sets the refresh request,
LYRINIT answers 1 for a bad image, 2 for ranges outside the partition, and makes the record, each to the tenant alone, and
waits while an engine holds the record; another requester takes the mismatch trap, and LYRQ.X past the partition's limit the
range trap; a partition entry whose line is busy is waited for. -/
def Obligations.GraftSteps : Prop :=
  ∀ (g : BitVec 8) (tk : Word) (k : Task) (r : Granule) (x0 y0 xk yk : Nat) (c : CoreId) (x : CtxId) (d : G) (a b w : Word) (q : Access)
    (v : Bool),
    let it := fun (s : State) => s.task g tk = some k ∧ k.ticket = tk ∧ k.st = .running ∧ k.committed = false
    let par := fun (s : State) (op : Nat) => (s.ctx c x).park = some (.lyr d op a b)
    let ret := fun (s : State) (v : Word) => (s.setAcc (.park c x) none).modCtx c x fun t =>
      { t.setG d v with st := .running, park := none, pc := t.pc + 8 }
    let i : BitVec 16 := a.setWidth 16
    Performs (.graftInvocation g tk) (fun s => it s ∧ k.op = 2 ∧ k.writing = false ∧ k.begun = true ∧
        k.changes = false) (fun s => s.graftGo g k) ∧
    Performs (.graftRestart g tk) it
      (fun s => (s.count k.core 10).graftBegin g { k with acc := none } fun s k => s.graftGo g k) ∧
    Performs (.graftCommit g tk) (fun s => it s ∧ s.graftRec k.graftIdx = some r ∧
        s.partition (recTenant r) = .ok (y0, x0, v) ∧ y0 + recX r = xk ∧ y0 + recY r = yk)
      (fun s =>
        let t := ((s.storeWrite xk k.xnew).storeWrite yk k.ynew).setRec k.graftIdx (committedRec r k.reason k.v0)
        let q := { k with committed := true, xnew := [], ynew := [], acc := none }
        (t.modTask g tk fun _ => q).taskAccess g tk .plain q.rowsWrite) ∧
    Performs (.graftTableAccessReturn c x) (fun s => par s 3)
      (fun s => ret s ((SMap.get 0 s.watch (b.setWidth 8).toNat).setWidth 64)) ∧
    Performs (.graftTableAccessReturn c x) (fun s => par s 1 ∧ s.recordHeld i = true)
      (fun s => s.after 1 (.graftTableAccessReturn c x)) ∧
    Performs (.graftTableAccessReturn c x) (fun s => par s 1 ∧ s.recordHeld i = false ∧ s.graftRec i = some r ∧
        (s.ctx c x).asid = recTenant r) (fun s => ret s (r.word (b.toNat % 8))) ∧
    Performs (.graftTableAccessReturn c x) (fun s => par s 4 ∧ s.recordHeld i = false ∧ s.graftRec i = some r ∧
        recFree r = false ∧ (s.ctx c x).asid = recTenant r)
      (fun s => ret (s.setRec i (r.setWord 4 (r.word 4 ||| (1 <<< 63)))) 0) ∧
    Performs (.graftTableAccessReturn c x) (fun s => par s 0 ∧ (s.ctx c x).acc = some q ∧ q.st = .done ∧
        s.recordHeld i = false ∧ s.graftRec i = some r ∧ (s.ctx c x).asid = recTenant r ∧ imageBad q.rdata = true)
      (fun s => ret s 1) ∧
    Performs (.graftTableAccessReturn c x) (fun s => par s 5 ∧ i = 0) (fun s => ret s 0) ∧
    Performs (.graftTableAccessReturn c x) (fun s => par s 5 ∧ i ≠ 0 ∧ s.tenantHeld i = true)
      (fun s => s.after 1 (.graftTableAccessReturn c x)) ∧
    (let trap := fun (s : State) (cause : Nat) (addr : Word) => ((s.setAcc (.park c x) none).modCtx c x fun t =>
       { t with st := .running, park := none, pc := t.pc + 8 }).raise c x
         { kind := 1, cause := cause, pc := (s.ctx c x).pc, addr := addr, order := (s.core c).nextId }
     let other := fun (s : State) => s.recordHeld i = false ∧ s.graftRec i = some r ∧ recTenant r ≠ (s.ctx c x).asid
     let image := fun (s : State) => par s 0 ∧ (s.ctx c x).acc = some q ∧ q.st = .done
     let good := fun (s : State) => image s ∧ s.recordHeld i = false ∧ s.graftRec i = some r ∧
       (recFree r = true ∨ recTenant r = (s.ctx c x).asid) ∧ imageBad q.rdata = false
     let entry := fun (s : State) => s.partition (s.ctx c x).asid = .ok (y0, x0, v)
     Performs (.graftTableAccessReturn c x) (fun s => par s 1 ∧ other s ∧ (s.ctx c x).priv ≠ .s) (fun s => trap s 9 0) ∧
     Performs (.graftTableAccessReturn c x) (fun s => par s 4 ∧ other s ∧ recFree r = false ∧ (s.ctx c x).priv ≠ .s)
       (fun s => trap s 9 0) ∧
     Performs (.graftTableAccessReturn c x) (fun s => par s 4 ∧ s.recordHeld i = false ∧ s.graftRec i = some r ∧
         recFree r = true) (fun s => ret s 1) ∧
     Performs (.graftTableAccessReturn c x) (fun s => image s ∧ other s ∧ recFree r = false) (fun s => trap s 9 0) ∧
     Performs (.graftTableAccessReturn c x) (fun s => good s ∧ entry s ∧ rangesBad q.rdata (y0, x0, v) = true)
       (fun s => ret s 2) ∧
     Performs (.graftTableAccessReturn c x) (fun s => good s ∧ entry s ∧ rangesBad q.rdata (y0, x0, v) = false)
       (fun s => ret (s.setRec i (initRec r q.rdata (s.ctx c x).asid)) 0) ∧
     Performs (.graftTableAccessReturn c x) (fun s => par s 2 ∧ entry s ∧ (v = false ∨ x0 - y0 ≤ b.toNat)) (fun s => trap s 5 b) ∧
     Performs (.graftTableAccessReturn c x) (fun s => par s 2 ∧ entry s ∧ v = true ∧ b.toNat < x0 - y0 ∧
         s.rawWord (y0 + b.toNat) = some w) (fun s => ret s w) ∧
     Performs (.graftTableAccessReturn c x) (fun s => par s 2 ∧ s.partition (s.ctx c x).asid = .busy)
       (fun s => (s.nudge (s.partKey (s.ctx c x).asid)).after 1 (.graftTableAccessReturn c x))) ∧
    (∀ (s : State) (asid : BitVec 16), let o := (s.bar 0x3008).toNat + 16 * asid.toNat
      s.plainRead o = .ok r →
        let base : Word := r.extractLsb' (8 * (o % 64)) 64
        let limit : Word := r.extractLsb' (8 * (o % 64) + 64) 64
        s.partition asid = .ok (base.toNat / 4096 * 4096, limit.toNat / 4096 * 4096, base.getLsbD 0))

/-! ## The steps of coherence and containment (23 R343–R361) -/

/-- 23 R349–R355, R359, Table 23-4: what the hub does with a request: a message of a dead agent or of a past incarnation
is dropped; a fenced index holds it; a busy line queues it; at a stable state it invalidates, forwards, reads memory and
answers; a WbD of an agent that is no owner, or is clean, ends at once; a far atomic without an entry is performed, with
one it recalls the entry first. 23 R350, R353, R354, R356: how a transaction goes on: an acknowledgment of a die, the
owner's data, memory's data and memory's acknowledgment each end one wait; with none left the requester is answered, or a
writeback gets its Cmp; the requester's Cmp ends the transaction; dirty data that a departed owner gave for a FwdS is
written to memory; a recall begins for an entry without a transaction. -/
def Obligations.HubSteps : Prop :=
  (∀ (r : CohReq) (t : Txn) (k : Nat) (e : DirEnt) (l : Nat) (a : AgentId) (i : BitVec 8) (x : Granule) (d : Bool) (w : Agent)
     (ac : Access) (m : Map),
     let live := fun (s : State) (n : Nat) => (s.coh.fencedIdx.any fun i => i.toNat == n % 8) = false ∧ s.txn? n = none ∧
       s.coh.queue = [] ∧ s.coh.net = [] ∧ s.tableFull n = false
     let pool := fun (s : State) => (s.coh.queue.filter fun q => s.sliceOf q.line == s.sliceOf r.line).length
     let late := fun (s : State) => s.heard r.agent r.inc = true ∧
       (s.coh.fencedIdx.any fun i => i.toNat == r.line % 8) = false ∧ s.txn? r.line = some t
     let ok := fun (s : State) => s.heard r.agent r.inc = true ∧ live s r.line
     let at' := fun (s : State) => s.dirFind r.line = some (k, e)
     let new : DirEnt := { line := r.line, st := .ixD, owner := r.agent, age := 15 }
     let others := fun (s : State) => (s.sharers e).filter fun b => b != r.agent
     (∀ ev ∈ [Event.rds r, .rdx r, .upg r], Performs ev (fun s => s.heard r.agent r.inc = false) fun s => s) ∧
     Performs (.wbd l a i x d) (fun s => s.heard a i = false) (fun s => s) ∧
     Performs (.rds r) (fun s => s.heard r.agent r.inc = true ∧ (s.coh.fencedIdx.any fun i => i.toNat == r.line % 8) = true ∧
         (s.coh.fenced.any fun q => q.line == r.line && q.agent? == some r.agent) = false)
       (fun s => { s with coh := { s.coh with fenced := s.coh.fenced ++ [.rd .rds r] } }) ∧
     Performs (.rds r) (fun s => s.heard r.agent r.inc = true ∧ (s.coh.fencedIdx.any fun i => i.toNat == r.line % 8) = true ∧
         (s.coh.fenced.any fun q => q.line == r.line && q.agent? == some r.agent) = true) (fun s => s) ∧
     (∀ q ∈ [(Event.rds r, ReqKind.rds), (.rdx r, .rdx), (.upg r, .upg)],
       Performs q.1 (fun s => late s ∧ pool s < 4096 ∧ s.coh.net = [])
         (fun s => { s with coh := { s.coh with queue := s.coh.queue ++ [.rd q.2 r] } }) ∧
       Performs q.1 (fun s => late s ∧ 4096 ≤ pool s)
         (fun s => { s with coh := { s.coh with net := s.coh.net ++ [.rd q.2 r] } })) ∧
     (∀ q ∈ [(Event.rds r, ReqKind.rds), (.rdx r, .rdx), (.upg r, .rdx)],
       Performs q.1 (fun s => ok s ∧ s.dirFind r.line = none ∧ s.victim r.line = some (k, e) ∧ e.st = .free)
         fun s => ((s.setDir k new).touchDir r.line k).openTxn k
           { line := r.line, req := some (.rd q.2 r), prior := {}, needMem := true } .ixD [] none false false r.agent) ∧
     Performs (.rdx r) (fun s => ok s ∧ at' s ∧ e.owned = false) (fun s =>
       ((s.touchDir r.line k).openTxn k { line := r.line, req := some (.rd .rdx r), prior := e, needMem := true } .sxA
         (others (s.touchDir r.line k)) none true false r.agent).answerNow r.line) ∧
     Performs (.rdx r) (fun s => ok s ∧ at' s ∧ e.owned = true) (fun s =>
       ((s.touchDir r.line k).openTxn k { line := r.line, req := some (.rd .rdx r), prior := e } .xxF
         ((others (s.touchDir r.line k)).filter fun b => some b != some e.owner) (some e.owner) true false r.agent).answerNow r.line) ∧
     Performs (.rds r) (fun s => ok s ∧ at' s ∧ e.owned = true) (fun s =>
       ((s.touchDir r.line k).openTxn k { line := r.line, req := some (.rd .rds r), prior := e } .xoF [] (some e.owner) false
         false r.agent).answerNow r.line) ∧
     Performs (.upg r) (fun s => ok s ∧ at' s ∧ e.owned = false ∧ e.holds r.agent = true) (fun s =>
       ((s.touchDir r.line k).openTxn k { line := r.line, req := some (.rd .upg r), prior := e } .sxA
         ((others (s.touchDir r.line k) ++ []).eraseDups.filter fun b => b != r.agent) none true false r.agent).answerNow r.line) ∧
     Performs (.upg r) (fun s => ok s ∧ at' s ∧ e.owned = true ∧ e.holds r.agent = true) (fun s =>
       ((s.touchDir r.line k).openTxn k
         { line := r.line, req := some (.rd .upg r), prior := e, err := (s.touchDir r.line k).isDead e.owner } .sxA
         ((others (s.touchDir r.line k) ++ [e.owner]).eraseDups.filter fun b => b != r.agent) none true false r.agent).answerNow
         r.line) ∧
     Performs (.upg r) (fun s => ok s ∧ at' s ∧ e.owned = false ∧ e.holds r.agent = false) (fun s =>
       ((s.touchDir r.line k).openTxn k { line := r.line, req := some (.rd .rdx r), prior := e, needMem := true } .sxA
         (others (s.touchDir r.line k)) none true false r.agent).answerNow r.line) ∧
     Performs (.wbd l a i x d) (fun s => s.heard a i = true ∧ live s l ∧ s.dirFind l = none) (fun s => s.sendCmp l a false) ∧
     Performs (.wbd l a i x false) (fun s => s.heard a i = true ∧ live s l ∧ s.dirFind l = some (k, e) ∧ e.owned = true ∧
       e.owner = a) (fun s => (s.setDir k e.disown).sendCmp l a false) ∧
     Performs (.wbd l a i x true) (fun s => s.heard a i = true ∧ live s l ∧ s.dirFind l = some (k, e) ∧ e.owned = true ∧
       e.owner = a) (fun s =>
         (s.openTxn k { line := l, req := some (.wb l a i x true), prior := e, needWr := true } .xiW [] none false false a).sendMemWr
           l x) ∧
     Performs (.wbd l a i x d) (fun s => s.heard a i = true ∧ (s.coh.fencedIdx.any fun i => i.toNat == l % 8) = false ∧
         s.txn? l = some t ∧ t.asked.contains a = true ∧ (t.needAcks.contains a = true ∨ t.fwd = some a))
       (fun s => s.modTxn l fun t => { t with crossing := t.crossing ++ [a] }) ∧
     (let past := fun (s : State) => s.heard a i = true ∧ (s.coh.fencedIdx.any fun i => i.toNat == l % 8) = false ∧
        s.txn? l = some t ∧ t.asked.contains a = true ∧ t.needAcks.contains a = false ∧ t.fwd ≠ some a
      Performs (.wbd l a i x d) (fun s => past s ∧ t.keeps a = true) (fun s => s.enterPool (.wb l a i x d)) ∧
      Performs (.wbd l a i x d) (fun s => past s ∧ t.keeps a = false) (fun s => s.sendCmp l a false)) ∧
     Performs (.farAtomic w) (fun s => s.acc w = some ac ∧ ac.map = some m ∧ live s (m.key / 64) ∧ s.dirFind (m.key / 64) = none)
       (fun s => s.farPerform w) ∧
     Performs (.farAtomic w) (fun s => s.acc w = some ac ∧ ac.map = some m ∧ live s (m.key / 64) ∧
       s.dirFind (m.key / 64) = some (k, e)) (fun s => s.recallTxn k e (some (.far (m.key / 64) w)))) ∧
  (∀ (l : Nat) (a b : AgentId) (i j : BitVec 8) (x : Granule) (d g : Bool) (t : Txn) (r : CohReq) (k : Nat) (e : DirEnt)
     (q : ReqKind),
     let open' := fun (s : State) => s.txn? l = some t ∧ t.line = l ∧ t.answered = false ∧ t.crossing = []
     let serve := fun (s : State) (u : Txn) => if s.isDead r.agent then s.endTxn u else s.answerReq u q r
     Performs (.invack l a i g) (fun s => s.heard a i = false) (fun s => s) ∧
     Performs (.invack l a i g) (fun s => s.heard a i = true ∧ open' s ∧ t.needAcks = [a] ∧ t.fwd = none ∧
         t.needMem = false ∧ t.needWr = false ∧ t.req = some (.rd q r))
       (fun s => serve (s.modTxn l fun u => { u with needAcks := u.needAcks.erase a }) { t with needAcks := [] }) ∧
     Performs (.data true l a i x d false false) (fun s => s.heard a i = true ∧ open' s ∧ t.fwd = some a ∧ t.needAcks = [] ∧
         t.needMem = false ∧ t.needWr = false ∧ t.req = some (.rd q r))
       (fun s => serve (s.modTxn l fun u => { u with fwd := none, gone := false, got := some (x, d) })
         { t with fwd := none, gone := false, got := some (x, d) }) ∧
     Performs (.data true l a i x true true false) (fun s => s.heard a i = true ∧ open' s ∧ t.fwd = some a)
       (fun s => ((s.modTxn l fun u => { u with fwd := none, gone := true, got := some (x, false), needWr := true }).sendMemWr l
         x).answeredBy l a) ∧
     Performs (.datax true l a i x d g false) (fun s => s.heard a i = true ∧ s.txn? l = some t ∧ t.fwd ≠ some a) (fun s => s) ∧
     Performs (.datax true l a i x d g false) (fun s => s.heard a i = true ∧ open' s ∧ t.fwd = some a ∧ t.needAcks = [] ∧
         t.needMem = false ∧ t.needWr = false ∧ t.req = some (.rd q r))
       (fun s => serve (s.modTxn l fun u => { u with fwd := none, gone := g, got := some (x, d) })
         { t with fwd := none, gone := g, got := some (x, d) }) ∧
     Performs (.memrdData l x) (fun s => open' s ∧ t.needMem = true ∧ t.needAcks = [] ∧ t.fwd = none ∧ t.needWr = false ∧
         t.req = some (.rd q r) ∧ (s.memRead (64 * l)).isSome = true)
       (fun s => serve (s.modTxn l fun u => { u with needMem := false, memBad := false, got := some (x, false) })
         { t with needMem := false, memBad := false, got := some (x, false) }) ∧
     Performs (.memrdData l x) (fun s => s.txn? l = none) (fun s => s) ∧
     Performs (.memwrAck l) (fun s => open' s ∧ t.needWr = true ∧ t.needAcks = [] ∧ t.fwd = none ∧ t.needMem = false ∧
         t.req = some (.wb l b j x d))
       (fun s => ((s.modTxn l fun u => { u with needWr := false }).sendCmp l b false).endTxn { t with needWr := false }) ∧
     Performs (.cmpMsg true l a i d) (fun s => s.heard a i = false) (fun s => s) ∧
     Performs (.cmpMsg true l a i d) (fun s => s.heard a i = true ∧ s.txn? l = some t ∧ t.req = some (.rd q r) ∧
         t.answered = true ∧ r.agent = a) (fun s => s.endTxn t) ∧
     Performs (.directoryRecall l) (fun s => s.txn? l = none ∧ s.dirFind l = some (k, e) ∧ s.tableFull l = false)
       (fun s => s.recallTxn k e none) ∧
     Performs (.directoryRecall l) (fun s => s.txn? l = none ∧ s.dirFind l = some (k, e) ∧ s.tableFull l = true)
       (fun s => s.after 1 (.directoryRecall l)) ∧
     Performs (.directoryRecall l) (fun s => s.txn? l = none ∧ s.dirFind l = none) (fun s => s))

/-- 23 R343–R346, R352, R353: what a die does with a line, which its home names and it may hold under an alias: Inv and
FwdX drop its copies, and tell an outstanding Upg that it has lost; FwdS leaves M as O and E as S; each is answered from the
caches or from the writeback buffer; a line that leaves the die goes with WbD where it was owned, and silently where shared,
and waits while a request for it is outstanding; an answer to the die's request installs the line and the die sends its Cmp;
Cmp ends a writeback. -/
def Obligations.DieSteps : Prop :=
  ∀ (l : Nat) (die : BitVec 3) (b : Bool) (q a : AgentId) (i : BitVec 8) (x : Granule) (d g : Bool) (r : DieReq),
    let lose := fun (s : State) (l : Nat) => ({ s with coh := { s.coh with dieReqs := s.coh.dieReqs.map fun r =>
      if r.die = die ∧ r.line = l ∧ r.kind = .upg then { r with lost := true } else r } } : State)
    let own := fun (s : State) => s.dieOfAgent a = some die
    let asked := fun (s : State) => own s ∧ s.dieReq die (s.heldAs die l) = some r
    let taken := fun (s : State) (err : Bool) =>
      ({ s with coh := { s.coh with dieReqs := s.coh.dieReqs.erase r } } : State).dieSend die (s.heldAs die l) .cmp
        (fun n a i => .cmpMsg true n a i err) fun m => { m with err := err }
    let still := fun (s : State) => s.dieReq die l = none ∧ s.inWb die l = false ∧ s.holders die l ≠ []
    Performs (.inv l die b) (fun _ => True) (fun s =>
      let h := s.heldAs die l
      let gone := (s.dieData die h).2.2 && s.inWb die h
      ((lose (s.dropDie die h) h).dieSend die h .invAck (fun n a i => .invack n a i gone) fun m =>
        { m with gone := gone }).forgetFrame die h) ∧
    Performs (.fwds l die q) (fun s => (s.dieData die (s.heldAs die l)).2.2 = true) (fun s =>
      let z := s.dieData die (s.heldAs die l)
      s.dieSend die (s.heldAs die l) .data (fun n a i => .data true n a i z.1 z.2.1 true false) fun m =>
        { m with data := z.1, dirty := z.2.1, gone := true }) ∧
    Performs (.fwds l die q) (fun s => (s.dieData die (s.heldAs die l)).2.2 = false) (fun s =>
      let h := s.heldAs die l
      let z := s.dieData die h
      let t := ((s.holders die h).foldl (fun s c =>
        let n := s.lineAt c h
        s.setLine c h { n with st := match n.st with | .m => .o | .e => .s | q => q }) s).refreshSnoop die h
        (if z.2.1 then .o else .s)
      t.dieSend die h .data (fun n a i => .data true n a i z.1 z.2.1 false false) fun m =>
        { m with data := z.1, dirty := z.2.1, gone := false }) ∧
    Performs (.fwdx l die q b) (fun _ => True) (fun s =>
      let h := s.heldAs die l
      let z := s.dieData die h
      ((lose (s.dropDie die h) h).dieSend die h .dataX (fun n a i => .datax true n a i z.1 z.2.1 z.2.2 false) fun m =>
        { m with data := z.1, dirty := z.2.1, gone := z.2.2 }).forgetFrame die h) ∧
    (∀ req : RemReq,
      let sg := sgIdx req.core
      let u := fun (s : State) => ({ s with coh := { s.coh with misses := s.coh.misses.erase (sg, l, b) } } : State).wantLine sg l b
      Performs (.lineMiss l b req) (fun s => (u s).2 = true) (fun s => (u s).1.lineArrived (dieOfSg sg) l) ∧
      Performs (.lineMiss l b req) (fun s => (u s).2 = false ∧ isAlias l = false) (fun s => (u s).1)) ∧
    Performs (.snoopFilterEvict die l) (fun s => s.holders die l = []) (fun s => s) ∧
    Performs (.snoopFilterEvict die l) (fun s => s.holders die l ≠ [] ∧ ((s.dieReq die l).isSome = true ∨ s.inWb die l = true))
      (fun s => s.after 1 (.snoopFilterEvict die l)) ∧
    Performs (.snoopFilterEvict die l) (fun s => still s ∧ ((s.snoop die l).granted = .o ∨ (s.snoop die l).granted = .m))
      (fun s =>
        let t := s.dropDie die l
        let z := s.dieData die l
        ({ t with coh := { t.coh with wbs := t.coh.wbs ++ [(die, l, z.1, z.2.1)] } } : State).dieSend die l .wbd
          (fun n a i => .wbd n a i z.1 z.2.1) fun m => { m with data := z.1, dirty := z.2.1 }) ∧
    Performs (.snoopFilterEvict die l) (fun s => still s ∧ (s.snoop die l).granted ≠ .o ∧ (s.snoop die l).granted ≠ .m)
      (fun s => (s.dropDie die l).forgetFrame die l) ∧
    Performs (.data false l a i x d g false) (fun s => own s ∧ s.dieReq die (s.heldAs die l) = none)
      (fun s => s.dieCmp die (s.heldAs die l) false) ∧
    Performs (.data false l a i x d g true) asked (fun s => (taken s true).lineErr die (s.heldAs die l)) ∧
    Performs (.data false l a i x d g false) asked (fun s =>
      let h := s.heldAs die l
      let t := taken s false
      let g := (t.snoop die h).granted
      (((r.sgs.foldl (fun s p =>
        (if (s.lineAt p.1 h).st = .i then s.setLine p.1 h { st := .s, data := x } else s).makeRoom p.1 h) t).refreshSnoop die h
        (if g = .i then .s else g)).lineArrived die h)) ∧
    Performs (.datax false l a i x d g false) (fun s => asked s ∧ r.sgs = [(0, true)]) (fun s =>
      let h := s.heldAs die l
      (((((taken s false).dropDie die h).setLine 0 h { st := if d then .m else .e, data := x }).refreshSnoop die h
        .m).makeRoom 0 h).lineArrived die h) ∧
    Performs (.datax false l a i x d g false) (fun s => own s ∧ s.dieReq die (s.heldAs die l) = none ∧
        s.holders die (s.heldAs die l) ≠ [])
      (fun s => (s.refreshSnoop die (s.heldAs die l) .m).dieCmp die (s.heldAs die l) false) ∧
    (let done := fun (s : State) (h : Nat) => (({ s with coh := { s.coh with
        wbs := s.coh.wbs.filter fun w => !(w.1 == die && w.2.1 == h) } } : State).forgetFrame die h)
     let granted := fun (s : State) => own s ∧ s.dieReq die (s.writtenAs die l) = some r ∧ s.inWb die (s.writtenAs die l) = false
     let ended := fun (s : State) => ({ s with coh := { s.coh with dieReqs := s.coh.dieReqs.erase r } } : State).dieCmp die
       (s.writtenAs die l) false
     Performs (.cmpMsg false l a i d) (fun s => own s ∧ s.inWb die (s.writtenAs die l) = true) (fun s =>
       let h := s.writtenAs die l
       (h :: s.aliasesOf die (s.frameOf die h)).eraseDups.foldl (fun s n => s.lineArrived die n) (done s h)) ∧
     Performs (.cmpMsg false l a i false) (fun s => granted s ∧ r.sgs = [(0, true)] ∧
         (ended s).holders die (s.writtenAs die l) = [0]) (fun s =>
       let h := s.writtenAs die l
       let t := ended s
       (((t.setLine 0 h { st := .m, data := (t.lineAt 0 h).data }).refreshSnoop die h .m).makeRoom 0 h).lineArrived die h) ∧
     Performs (.cmpMsg false l a i false) (fun s => granted s ∧ (ended s).holders die (s.writtenAs die l) = [])
       (fun s => ((ended s).refreshSnoop die (s.writtenAs die l) .m).lineArrived die (s.writtenAs die l)) ∧
     Performs (.cmpMsg false l a i true) granted (fun s =>
       let h := s.writtenAs die l
       (({ s with coh := { s.coh with dieReqs := s.coh.dieReqs.erase r } } : State).dieCmp die h true).lineErr die h)) ∧
    (∀ (s : State) (k : CohKind) (ev : Nat → AgentId → BitVec 8 → Event) (f : CohMsg → CohMsg), l < 2 ^ 110 →
      s.dieSend die l k ev f = s.afterFree (ev l (s.agentOf die) (s.incOf (s.agentOf die))))

/-- 23 R356–R361: containment marks the agents dead here and at every other hub; an answer that is still missing after 2^20
cycles begins it; a rejoin purges the agent's entries and increases its incarnation; a failed slice is fenced, its requests
lost, and, its transactions over, its index is remapped and a census begins; the census builds the entries again, two owners
of one line being a machine check and containment, and at its end what was held is released; a link answers a bad flit with
NAK, takes one in sequence with its credits and delivers the message that is whole, sends while its class has credits,
replays on NAK, and goes down when a flit is replayed 16 times in a row; with no link left the other packages are lost. A
slice fails at its sixteenth check error within 2^20 cycles. Which bytes a message has on a link, and the credits that it
starts with, are the model's free values (log entry 89). -/
def Obligations.FailureSteps : Prop :=
  ∀ (p : BitVec 5) (d : BitVec 3) (l : Nat) (a : AgentId) (n : Nat) (t : Txn) (as : List AgentId) (f : BitVec 3)
    (g : Granted) (k : Nat) (e : DirEnt) (i : BitVec 4) (fl : Flit) (q : BitVec 6) (h : BitVec 5) (ic : BitVec 8) (b : Bool),
    let here := fun (s : State) => s.heard a ic = true ∧ s.dirFind l = some (k, e) ∧ e.busy = false
    let back := fun (s : State) => ({ s with
      coh := { s.coh with dead := s.coh.dead.filter fun b => b != a, inc := SMap.set 0 s.coh.inc a.toNat (s.incOf a + 1) }
      sys := { s.sys with contained := !(s.coh.dead.filter fun b => b != a).isEmpty } } : State)
    let purged := fun (whole : Bool) (s : State) =>
      let t := (s.coh.dir.map Prod.fst).foldl (fun (s : State) k => s.setDir k ((s.dirAt k).purge a whole)) s
      ({ t with coh := { t.coh with txns := t.coh.txns.map fun t => { t with prior := t.prior.purge a whole } } } : State)
    let held := fun (s : State) (d : BitVec 3) =>
      let here := fun (n : Nat) => s.homePkg n == h && s.frameOf d n % 8 == f.toNat
      (((linesOf s.coh.snoops d.toNat).filter here).map fun n => (n, (s.snoop d n).granted)) ++
        ((s.coh.wbs.filter fun w => w.1 == d && here w.2.1).map fun w => (w.2.1, Granted.o))
    Performs (.containment p (some d)) (fun _ => True) (fun s =>
      let others := (List.range 32).filterMap fun i =>
        if i ≤ s.pkgTop.toNat ∧ i ≠ s.pkgNum.toNat then some (BitVec.ofNat 5 i : BitVec 5) else none
      ({ s with outbox := s.outbox ++ others.map fun h => Out.contain h [p ++ d] } : State).markDead [p ++ d]) ∧
    Performs (.containment p none) (fun _ => True)
      (fun s => s.contain ((List.range 8).map fun d => p ++ (BitVec.ofNat 3 d : BitVec 3))) ∧
    Performs (.containmentNotice as) (fun _ => True) (fun s => s.markDead as) ∧
    Performs (.agentAnswerTimeout l a n) (fun s => s.txn? l = some t ∧ t.sentAt = n ∧
        (t.needAcks.contains a = true ∨ t.fwd = some a)) (fun s => s.contain [a]) ∧
    Performs (.agentAnswerTimeout l a n) (fun s => s.txn? l = none) (fun s => s) ∧
    (let others := fun (s : State) => s.dieOfAgent a = none ∧ ∀ e ∈ s.coh.dir, e.2.owned = true → e.2.owner ≠ a
     Performs (.agentRejoin a false) others (fun s => back (purged false s)) ∧
     Performs (.agentRejoin a true) (fun s => others s ∧ a.extractLsb' 3 5 ≠ s.pkgNum)
       (fun s => back ((purged true s).tokensDead [a.extractLsb' 3 5])) ∧
     Performs (.agentRejoin a false) (fun s => s.dieOfAgent a = none ∧ s.coh.dir = [(k, e)] ∧ e.owned = true ∧ e.owner = a ∧
         e.busy = false)
       (fun s => back (purged false ((List.range 8).foldl (fun (s : State) d => s.dropDie (BitVec.ofNat 3 d) e.line) s)))) ∧
    (∀ (e : DirEnt) (whole : Bool),
      let q : DirEnt := { e with ptrs := e.ptrs.erase a
                                 pkgs := if whole then e.pkgs &&& ~~~((1 : BitVec 32) <<< (a.toNat / 8)) else e.pkgs }
      (e.owned = true → e.owner = a → e.purge a whole = {}) ∧
      (e.owned = false ∨ e.owner ≠ a → q.st = .hs → q.ptrs = [] → q.coarse = false ∨ q.pkgs = 0 → e.purge a whole = {}) ∧
      (e.owned = false ∨ e.owner ≠ a → q.st ≠ .hs ∨ q.ptrs ≠ [] ∨ (q.coarse = true ∧ q.pkgs ≠ 0) → e.purge a whole = q)) ∧
    (∀ s : State, s.isDead a = false → s.coh.txns = [] → s.coh.queue = [] → s.coh.net = [] → s.coh.censusLeft = [] →
      s.coh.dieReqs = [] → s.coh.wbs = [] → s.sys.tokens = [] → s.waiters = [] → s.homes = [] → s.launches = [] →
      s.markDead [a] = { s with coh := { s.coh with dead := s.coh.dead ++ [a] }, sys := { s.sys with contained := true }
                                outbox := s.outbox ++ [.msix 3] }) ∧
    (let recent := fun (s : State) => (s.coh.sliceErrs.filter fun e => decide (s.cyc < e.2 + 2 ^ 20)) ++ [(f, s.cyc)]
     let count := fun (s : State) => ((recent s).filter fun e => e.1 == f).length
     let clear := fun (s : State) => ({ s with coh := { s.coh with sliceErrs := (recent s).filter fun e => e.1 != f } } : State)
     Performs (.sliceError f) (fun s => count s < 16) (fun s => { s with coh := { s.coh with sliceErrs := recent s } }) ∧
     Performs (.sliceError f) (fun s => 16 ≤ count s ∧ s.coh.fencedIdx.contains f = true) clear ∧
     Performs (.sliceError f) (fun s => 16 ≤ count s ∧ s.coh.fencedIdx.contains f = false)
       (fun s => (clear s).sliceFailure f)) ∧
    Performs (.sliceFailure f) (fun s => s.coh.fencedIdx.contains f = false) (fun s =>
      let t := s.after 0 (.machineCheck 7 f.toNat none)
      let lost := (t.coh.queue.filter fun r => t.inSlice f r.line).filterMap fun r => match r with | .rd _ q => q.id | _ => none
      ({ t with doneIds := t.doneIds.filter fun i => !lost.contains i, coh := { t.coh with
          fencedIdx := f :: t.coh.fencedIdx
          queue := t.coh.queue.filter fun r => !t.inSlice f r.line
          net := t.coh.net.filter fun r => !t.inSlice f r.line
          fenced := t.coh.fenced ++ (t.coh.queue.filter fun r => t.inSlice f r.line && r.agent?.isNone) ++
            t.coh.net.filter fun r => t.inSlice f r.line
          dir := t.coh.dir.filter fun e => !(t.inSlice f e.2.line) || e.2.busy } } : State).after 1 (.sliceFailure f)) ∧
    Performs (.sliceFailure f) (fun s => s.coh.fencedIdx.contains f = true ∧ (s.coh.censusLeft.any fun e => e.1 == f) = false ∧
        (s.coh.txns.any fun t => t.line % 8 == f.toNat) = true) (fun s => s.after 1 (.sliceFailure f)) ∧
    Performs (.sliceFailure f) (fun s => s.coh.fencedIdx.contains f = true ∧ (s.coh.censusLeft.any fun e => e.1 == f) = false ∧
        (s.coh.txns.any fun t => t.line % 8 == f.toNat) = false) (fun s =>
      let t : State := { s with coh := { s.coh with dir := s.coh.dir.filter fun e => e.2.line % 8 != f.toNat } }
      let t := t.setRemap f.toNat (t.liveSlice f)
      t.domainAgents.foldl (fun s a => s.toAgent a (fun d => .censusQuery d f s.pkgNum) (s.cohMsg .census f.toNat a))
        { t with coh := { t.coh with censusLeft := (f, t.domainAgents) :: t.coh.censusLeft } }) ∧
    Performs (.censusQuery d f h) (fun s => h = s.pkgNum) (fun s =>
      let m := 1 + Config.freeDelay s.fresh
      let me := s.agentOf d
      ((held s d).foldl (fun (s : State) n => s.after m (.censusReport n.1 me (s.incOf me) n.2))
        { s with fresh := s.fresh + 1 }).after m (.censusEnd f me (s.incOf me))) ∧
    Performs (.censusQuery d f h) (fun s => h ≠ s.pkgNum) (fun s =>
      let me := s.agentOf d
      ({ s with outbox := s.outbox ++
          ((held s d).map fun n => Out.coh h { s.cohMsg .censusReport (s.frameOf d n.1) me with granted := n.2 }) ++
          [.coh h (s.cohMsg .censusEnd f.toNat me)] } : State).resend d f h) ∧
    Performs (.censusReport l a ic g) (fun s => s.heard a ic = false) (fun s => s) ∧
    Performs (.censusReport l a ic g) (fun s => here s ∧ g ≠ .s ∧ e.owned = true)
      (fun s => (s.after 0 (.machineCheck 7 (64 * l) none)).contain [e.owner, a]) ∧
    Performs (.censusReport l a ic .s) here (fun s => s.setDir k (e.share a)) ∧
    Performs (.censusReport l a ic .m) (fun s => here s ∧ e.owned = false)
      (fun s => s.setDir k { e with st := .hx, owner := a }) ∧
    Performs (.censusReport l a ic .s) (fun s => s.heard a ic = true ∧ s.dirFind l = none ∧ s.victim l = some (k, e) ∧ e.st = .free)
      (fun s => (s.setDir k { line := l, st := .hs, ptrs := [a], age := 15 }).touchDir l k) ∧
    Performs (.censusEnd f a ic) (fun s => s.heard a ic = false ∧ s.isDead a = false) (fun s => s) ∧
    Performs (.censusEnd f a ic) (fun s => s.coh.censusLeft = []) (fun s => s) ∧
    Performs (.censusEnd f a ic) (fun s => (s.heard a ic = true ∨ s.isDead a = true) ∧ s.coh.censusLeft = [(f, [a])] ∧
        s.coh.fenced = [] ∧ s.coh.dieReqs = [] ∧ s.coh.wbs = [] ∧
        (s.agenda.any fun e => match e.2 with | .censusReport l .. => l % 8 == f.toNat | _ => false) = false)
      (fun s => { s with coh := { s.coh with censusLeft := [], fencedIdx := s.coh.fencedIdx.filter fun i => i != f } }) ∧
    (let covered := fun (z : Flit) =>
       let w : BitVec 16 := z.cls ++ z.seq ++ z.creditCls ++ z.credits
       z.payload ++ List.replicate (64 - z.payload.length) 0 ++ [w.setWidth 8, w.extractLsb' 8 8]
     let sound := fl.crc = Config.crc16 (covered fl)
     let up := fun (s : State) => (s.link i).up = true
     let next := fun (s : State) => up s ∧ sound ∧ fl.seq = (s.link i).rx
     let seen := fun (l : Link) => { l with
       rx := l.rx + 1, credits := if h : fl.creditCls.toNat < 3 then l.credits.set fl.creditCls.toNat
         (l.credits[fl.creditCls.toNat] + fl.credits.toNat) else l.credits }
     let emit := fun (s : State) (l : List Flit) => ({ s with outbox := s.outbox ++ l.map fun f => Out.flit i f } : State)
     Performs (.flitReceive i fl) (fun s => up s ∧ ¬sound) (fun s => s.sendFlit i 3 [(s.link i).rx.setWidth 8]) ∧
     Performs (.flitReceive i fl) (fun s => up s ∧ sound ∧ fl.seq ≠ (s.link i).rx) (fun s => s) ∧
     Performs (.flitReceive i fl) (fun s => (s.link i).up = false) (fun s => s) ∧
     Performs (.flitReceive i fl) (fun s => next s ∧ fl.cls = 3)
       (fun s => (s.setLink i (seen (s.link i))).pumpLink i (s.link i).queue.length) ∧
     (∀ (c : Fin 3) (ev : Event), fl.cls = BitVec.ofNat 2 c.val →
       let paid := fun (l : Link) (b : List Byte) =>
         { seen l with owed := l.owed.set c.val (l.owed[c] + 1), partIn := l.partIn.set c.val b }
       Performs (.flitReceive i fl) (fun s => next s ∧ Config.wireEvent ((s.link i).partIn[c] ++ fl.payload) = some ev)
         (fun s => ((s.setLink i (paid (s.link i) [])).after 0 ev).pumpLink i (s.link i).queue.length) ∧
       Performs (.flitReceive i fl) (fun s => next s ∧ Config.wireEvent ((s.link i).partIn[c] ++ fl.payload) = none)
         (fun s => (s.setLink i (paid (s.link i) ((s.link i).partIn[c] ++ fl.payload))).pumpLink i (s.link i).queue.length)) ∧
     (∀ (s : State) (c : Fin 3) (b : List Byte), (s.link i).owed = Vector.replicate 3 0 →
       let l := s.link i
       let z : Flit := { payload := b, crc := 0, cls := BitVec.ofNat 2 c.val, seq := l.tx, creditCls := 0, credits := 0 }
       let z := { z with crc := Config.crc16 (covered z) }
       s.sendFlit i (BitVec.ofNat 2 c.val) b = (emit s [z]).setLink i
         { l with tx := l.tx + 1, sent := (l.sent ++ [z]).drop (l.sent.length - 63)
                  replays := (l.replays ++ [0]).drop (l.sent.length - 63), used := l.used.set c.val (l.used[c] + 1) }) ∧
     (∀ (s : State) (m : Nat) (c : Fin 3) (r : BitVec 5 × BitVec 2 × List Byte), up s → r.2.1 = BitVec.ofNat 2 c.val →
       (s.link i).queue = [r] →
       ((s.link i).used[c] < Config.linkCredits + (s.link i).credits[c] → s.pumpLink i (m + 1) =
         ((s.setLink i { s.link i with queue := [] }).sendFlit i r.2.1 r.2.2).pumpLink i m) ∧
       (Config.linkCredits + (s.link i).credits[c] ≤ (s.link i).used[c] → s.pumpLink i (m + 1) = s)) ∧
     (let again := fun (s : State) =>
        let l := s.link i
        let at0 := (l.sent.takeWhile fun f => f.seq != q).length
        (emit s (l.sent.drop at0)).setLink i
          { l with replays := List.replicate (min at0 l.replays.length) 0 ++ (l.replays.drop at0).map (· + 1) }
      let worn := fun (s : State) => ((s.link i).replays.drop ((s.link i).sent.takeWhile fun f => f.seq != q).length).any
        fun x => decide (15 ≤ x)
      let young := fun (s : State) => ∀ x ∈ (s.link i).replays, x < 16
      Performs (.linkNak i q) (fun s => up s ∧ young s ∧ worn s = false) again ∧
      Performs (.linkNak i q) (fun s => up s ∧ young s ∧ worn s = true) (fun s => (again s).after 0 (.linkDown i)))) ∧
    (let down := fun (s : State) => s.setLink i { s.link i with up := false }
     Performs (.linkDown i) (fun s => ∃ j : Nat, j < 16 ∧ j ≠ i.toNat ∧ (s.link (BitVec.ofNat 4 j)).up = true) down ∧
     Performs (.linkDown i) (fun s => ∀ j : Nat, j < 16 → j ≠ i.toNat → (s.link (BitVec.ofNat 4 j)).up = false) (fun s =>
       (down s).contain ((((List.range (s.pkgTop.toNat + 1)).filter fun p => p != s.pkgNum.toNat).flatMap fun p =>
         (List.range 8).map fun d => (BitVec.ofNat 5 p : BitVec 5) ++ (BitVec.ofNat 3 d : BitVec 3))))) ∧
    Performs (.cxlLink i b) (fun _ => True) (fun s => { s with sys := { s.sys with
      cxlDown := (s.sys.cxlDown.filter fun q => q != i) ++ if b then [] else [i] } })

/-! ## The steps of the host's side (05 R85–R88; 25 R366–R384) -/

/-- 25 R366–R368, Table 25-1, 03 R32: a request of the host at a disabled window, or during a wipe, is dropped, a read
answering all-ones; else it is queued and the first of its window begins; a granule is accessed at the window's base plus
the offset; what ends without data reads all-ones; the whole read answers the host and the next request begins; a fault
is given up after 2^20 cycles. An atomic of the host is unsupported. Register writes take the fields of their registers,
or schedule the action that the write performs; a start record starts a halted context 0. The offsets inside the blocks
of BAR0 are the model's (log entry 40). 25 R366, R369–R372: QCREATE makes the queue active from slot 0 and raises MSI-X
vector 0 (DEDUCED, log entry 57); QDESTROY waits for a packet whose fetch has begun, else it ends the queue; an active
queue reads Tail, and while Head differs from it the packet at Head, whose last granule submits it and advances Head; a
bad Tail address, and a granule that fails, is an error. -/
def Obligations.HostAccessSteps : Prop :=
  (∀ (w : BitVec 2) (off x : Word) (n tag id : Nat) (bs : List Byte) (j : Job) (a : Access) (c : CoreId) (q : Nat) (i : Nat),
     let cfg := fun (s : State) => s.bar (0x4008 + 32 * w.toNat)
     let shut := fun (s : State) => s.sys.wipeEnd.isSome = true ∨ (cfg s).getLsbD 63 = false
     let first := fun (s : State) => s.sys.wipeEnd = none ∧ (cfg s).getLsbD 63 = true ∧ s.sys.servReset = false ∧
       (s.jobs.any fun j => j.kind.window? == some w) = false
     let queued := fun (s : State) (k : JobKind) => ({ s with fresh := s.fresh + 1, jobs := s.jobs ++
       [{ id := s.fresh, kind := k, quad := w, asid := (cfg s).setWidth 16
          blk := (s.bar (0x4000 + 32 * w.toNat) + off).toNat }] } : State)
     let rd := Event.apertureRead w off n tag
     let wr := Event.apertureWrite w off bs
     let job := fun (s : State) => s.job id = some j ∧ j.id = id
     let mine := fun (s : State) => job s ∧ (s.jobs.find? fun k => k.kind.window? == some w) = some j
     Performs (rd none) shut (fun s => { s with outbox := s.outbox ++ [.host tag (List.replicate n 0xFF)] }) ∧
     Performs (wr none) shut (fun s => s) ∧
     Performs (rd none) first (fun s => (queued s (.apRead w off n tag)).resumeAgent (.serv s.fresh) 1) ∧
     Performs (wr none) first (fun s => (queued s (.apWrite w off bs)).resumeAgent (.serv s.fresh) 1) ∧
     Performs (rd (some id)) (fun s => s.job id = none) (fun s => s) ∧
     (∀ k : Job, k.id ≠ id → ∀ ev ∈ [rd (some id), wr (some id)],
       Performs ev (fun s => job s ∧ (s.jobs.find? fun k => k.kind.window? == some w) = some k) fun s => s) ∧
     Performs (rd (some id)) (fun s => mine s ∧ j.acc = none ∧ n ≤ j.buf.length) (fun s =>
       let t := s.dropJob id
       ({ t with outbox := t.outbox ++ [.host tag j.buf] } : State).apNext w) ∧
     Performs (wr (some id)) (fun s => mine s ∧ j.acc = none ∧ bs.length ≤ j.buf.length) (fun s => (s.dropJob id).apNext w) ∧
     Performs (rd (some id)) (fun s => mine s ∧ j.acc = none ∧ j.buf = [] ∧ n = 8 ∧ j.blk % 64 ≤ 56 ∧ j.blk < 2 ^ 48) (fun s =>
       (s.setAcc (.serv id) (some { va := BitVec.ofNat 64 j.blk, mask := spanMask (j.blk % 64) 8, op := .peek })).go (.serv id)) ∧
     Performs (rd (some id)) (fun s => mine s ∧ j.acc = some a ∧ a.st = .done) (fun s =>
       s.apTake id ((List.range (popCount a.mask)).map fun i => byteOf a.rdata (a.va.toNat % 64 + i))) ∧
     Performs (rd (some id)) (fun s => mine s ∧ j.acc = some a ∧ a.st = .notFull)
       (fun s => (s.apStatus w 1).apTake id (List.replicate (popCount a.mask) 0xFF)) ∧
     Performs (rd (some id)) (fun s => mine s ∧ j.acc = some a ∧ a.st = .failed ∧ a.cause = 2)
       (fun s => (s.apStatus w 4).apTake id (List.replicate (popCount a.mask) 0xFF)) ∧
     Performs (rd (some id)) (fun s => mine s ∧ j.acc = some a ∧ a.st = .failed ∧ a.cause = 256)
       (fun s => (s.apStatus w 8).apTake id (List.replicate (popCount a.mask) 0xFF)) ∧
     Performs (rd (some id)) (fun s => mine s ∧ j.acc = some a ∧ a.st = .failed ∧ a.cause ≠ 2 ∧ a.cause ≠ 12 ∧ a.cause ≠ 256)
       (fun s => (s.apStatus w 2).apTake id (List.replicate (popCount a.mask) 0xFF)) ∧
     Performs (.apertureFaultTimeout id) (fun s => s.job id = none) (fun s => s) ∧
     Performs (.apertureFaultTimeout id) (fun s => job s ∧ j.acc = some a ∧ j.kind.window? = some w ∧ a.st = .faulted ∧
         j.phase + 2 ^ 20 ≤ s.cyc ∧ s.faults = [])
       (fun s => (s.apStatus w 8).apTake id (List.replicate (popCount a.mask) 0xFF)) ∧
     Performs (.pcieUnsupported tag) (fun _ => True) (fun s => { s with outbox := s.outbox ++ [.unsupported tag] }) ∧
     Performs (.registerWrite 0x2000 x) (fun _ => True) (fun s => s.setBar 0x2000 x) ∧
     Performs (.registerWrite 0x6000 x) (fun _ => True) (fun s => s.after 0 (.partitionControl (x.setWidth 4))) ∧
     Performs (.registerWrite 0x6008 x) (fun _ => True) (fun s => { s with pkg := x &&& 0x1F1F }) ∧
     (i < 4 → Performs (.registerWrite (0x4010 + 32 * i) x) (fun _ => True)
       fun s => s.setBar (0x4010 + 32 * i) (s.bar (0x4010 + 32 * i) &&& ~~~(x &&& 0xF))) ∧
     (q < 64 → x.setWidth 2 = 1#2 → Performs (.registerWrite (0x5028 + 64 * q) x) (fun _ => True)
       fun s => s.after 0 (.qcreate (BitVec.ofNat 6 q))) ∧
     (q < 64 → x.setWidth 2 = 2#2 → Performs (.registerWrite (0x5028 + 64 * q) x) (fun _ => True)
       fun s => s.after 0 (.qdestroy (BitVec.ofNat 6 q))) ∧
     Performs (.startRecord c x) (fun s => (s.ctx c 0).st ≠ .halted ∨ s.present c = false) (fun s => s) ∧
     Performs (.startRecord c x) (fun s => (s.ctx c 0).st = .halted ∧ s.present c = true ∧ (s.ctx c 0).traps = [])
       (fun s => s.modCtx c 0 fun t => { t.setG 1 (s.bar (0x300008 + 16 * c.toNat)) with
         st := .running, halt := none, pc := x, delivering := false }) ∧
     Performs (.debugSelect x) (fun s => s.sys.life = .deployed) (fun s => s) ∧
     Performs (.debugSelect x) (fun s => s.sys.life ≠ .deployed)
       (fun s => { s with sys := { s.sys with debugSel := x &&& 0xC000000000FFFFFF } })) ∧
  (∀ (q : BitVec 6) (j : Job) (a : Access),
     let state := fun (s : State) (st cause : Nat) => ({ s with
       bar0 := SMap.set 0 s.bar0 (0x5000 + 64 * q.toNat + 0x20) (BitVec.ofNat 64 (256 * cause + st))
       outbox := s.outbox ++ [.msix 0] } : State)
     let idle := fun (s : State) => (s.jobs.find? fun j => j.kind == .fetch q) = none
     let on := fun (s : State) => (s.jobs.find? fun j => j.kind == .fetch q) = some j ∧ j.acc = some a
     let addr := fun (s : State) => s.bar (0x5000 + 64 * q.toNat + 8)
     let wiped := fun (s : State) => s.sys.wiping.any fun w => w.1.getLsbD (s.qOwner q).toNat && decide (s.cyc < w.2)
     let serves := fun (s : State) => idle s ∧ s.qState q = 1 ∧ s.sys.servReset = false ∧ wiped s = false
     let tail : BitVec 32 := (a.rdata >>> (8 * (a.va.toNat % 64))).setWidth 32
     let seen := fun (s : State) =>
       ({ s with sys := { s.sys with tails := (q.toNat, tail) :: s.sys.tails.filter fun e => e.1 != q.toNat } } : State)
     Performs (.qcreate q) (fun s => s.qState q = 1) (fun s => s) ∧
     Performs (.qcreate q) (fun s => s.qState q ≠ 1)
       (fun s => (state (s.setBar (0x5000 + 64 * q.toNat + 0x18) 0) 1 (s.qCause q)).after 1 (.queueFetch q)) ∧
     Performs (.qdestroy q) (fun s => s.sys.begun.contains q = true)
       (fun s => { s with sys := { s.sys with destroying := s.sys.destroying.erase q ++ [q] } }) ∧
     Performs (.qdestroy q) (fun s => s.sys.begun.contains q = false)
       (fun s => state { s with jobs := s.jobs.filter fun j => j.kind != .fetch q } 3 (s.qCause q)) ∧
     Performs (.queueFetch q) (fun s => idle s ∧ (s.qState q ≠ 1 ∨ s.sys.servReset = true ∨ wiped s = true)) (fun s => s) ∧
     Performs (.queueFetch q) (fun s => serves s ∧ (addr s).toNat % 8 ≠ 0) (fun s => s.qError q 0x80) ∧
     Performs (.queueFetch q) (fun s => serves s ∧ (addr s).toNat % 8 = 0 ∧ isCoord (addr s) = false)
       (fun s => ({ s with fresh := s.fresh + 1, jobs := s.jobs ++
         [{ id := s.fresh, kind := .fetch q, quad := s.qOwner q, asid := (s.bar (qreg q 0x10)).extractLsb' 16 16
            acc := some { va := addr s, mask := spanMask ((addr s).toNat % 64) 8, op := .read } }] } : State).go (.serv s.fresh)) ∧
     Performs (.queueFetch q) (fun s => on s ∧ a.st = .done ∧ j.phase = 0 ∧ tail = s.qHead q)
       (fun s => ((seen s).dropJob j.id).afterFree (.queueFetch q)) ∧
     Performs (.queueFetch q) (fun s => on s ∧ a.st = .done ∧ j.phase = 0 ∧ tail ≠ s.qHead q)
       (fun s =>
         let t := seen s
         (({ t with sys := { t.sys with begun := t.sys.begun.erase q ++ [q] } } : State).modJob j.id fun k =>
           { k with phase := 1, buf := [] }).qRead q j 0) ∧
     (∀ k < 256, Performs (.queueFetch q) (fun s => on s ∧ a.st = .failed ∧ a.cause = 512 + k) fun s => s.qError q k) ∧
     Performs (.queueFetch q) (fun s => on s ∧ a.st = .failed ∧ a.cause < 512 ∧ a.cause ≠ 12) (fun s => s.qError q 0x80) ∧
     Performs (.queueFetch q) (fun s => on s ∧ a.st = .done ∧ j.phase ≠ 0 ∧ j.buf.length + 64 < 128 * s.qSlots q)
       (fun s => (s.modJob j.id fun k => { k with buf := j.buf ++ (List.range 64).map (byteOf a.rdata) }).qRead q j
         (j.buf.length + 64)) ∧
     Performs (.queueFetch q) (fun s => on s ∧ a.st = .done ∧ j.phase ≠ 0 ∧ 128 * s.qSlots q ≤ j.buf.length + 64)
       (fun s =>
         let l := j.buf ++ (List.range 64).map (byteOf a.rdata)
         (s.modJob j.id fun k => { k with buf := l }).qSubmit q { j with buf := l }) ∧
     Performs (.queueFetch q) (fun s => on s ∧ a.st = .failed ∧ a.cause = 12) (fun s => s.qError q 0))

/-- 25 R374–R379, 05 R86: a cold reset leaves the state after reset but for what is fused and what has left the package, and
wipes; a partition change answers a status where it may not happen, else it moves the boundaries and resets every partition
that results; a life-cycle change fuses the next state, none after Returned, with the identity key that it has there, and
resets; firmware runs only where key, rollback count and signature verify, else recovery begins; attestation is served in
Provisioned and Deployed. -/
def Obligations.ResetSteps : Prop :=
  ∀ (t q : BitVec 4) (image : List Byte) (e : Nat) (l : Life) (nonce key : BitVec 256) (c : CoreId) (x : CtxId) (k : Nat),
    let good := fun (s : State) (im : List Byte) =>
      let p := Config.imageParts im
      Config.shake256 p.2.1 = s.sys.keyHash ∧ s.sys.rollback ≤ p.1 ∧
        Config.mldsaVerify (Config.shake256 p.2.2.2) p.2.1 p.2.2.1 = true
    let fused := fun (a b : State) => b.sys.rollback = a.sys.rollback ∧ b.sys.keyHash = a.sys.keyHash ∧
      b.sys.image = a.sys.image
    Performs .coldReset (fun _ => True) (fun s => s.packageReset 0) ∧
    (∀ (s : State) (n : Nat), let r := s.packageReset n
      r.sys.identity = s.sys.identity ∧ r.outbox = s.outbox ++ (s.jobs.filterMap fun j => match j.kind with
        | .apRead _ _ n tag => some (.host tag (List.replicate n 0xFF))
        | _ => none) ∧
      r.cyc = n ∧ r.cores = [] ∧ r.mem = [] ∧ r.coh = {} ∧ r.sys.life = s.sys.life ∧ fused s r ∧
        r.sys.wipeEnd = some (n + 36000000)) ∧
    Performs (.partitionReset q) (fun _ => True) (fun s => s.partitionReset q) ∧
    (∀ s : State, s.Canonical → let r := s.partitionReset q
      r.sys.wipeEnd = some (s.cyc + 36000000) ∧ (inQuads q c = true → r.ctx c x = Core.reset.ctx x) ∧
        (inQuads q c = false → r.core c = s.core c) ∧ (keyInQuads q k = true → r.byte k = 0) ∧
        ∀ n : BitVec 6, q.getLsbD (s.qOwner n).toNat = true → ∀ o ∈ [0, 8, 0x10, 0x18, 0x20], r.bar (qreg n o) = 0) ∧
    Performs (.partitionControl t) (fun s => s.partStatus t ≠ 0) (fun s =>
      let u := s.setBar 0x6010 (BitVec.ofNat 64 (s.partStatus t))
      { u with outbox := u.outbox ++ [.refused (s.partStatus t)] }) ∧
    (let changed := fun (s : State) =>
       let busy := (List.range 64).any fun i => let n : BitVec 6 := BitVec.ofNat 6 i
         (s.partsOf t).getLsbD (s.qOwner n).toNat && s.qBusy n
       (busy = true → s.partStatus t = 1) ∧ (busy = false → s.quiesced (s.partsOf t) = false → s.partStatus t = 2) ∧
         (busy = false → s.quiesced (s.partsOf t) = true → t ∉ [1, 2, 4, 8, 3, 12, 15] → s.partStatus t = 3) ∧
         (busy = false → s.quiesced (s.partsOf t) = true → t ∈ [1, 2, 4, 8, 3, 12, 15] → s.partStatus t = 0)
     (∀ s : State, changed s) ∧
     Performs (.partitionControl t) (fun s => s.partStatus t = 0) (fun s =>
       let q := s.partsOf t
       let ps := t :: restParts (q &&& ~~~t)
       let u := s.setBar 0x6010 0
       ps.foldl (fun s p => s.after 0 (.partitionReset p))
         (({ u with sys := { u.sys with parts := Vector.ofFn fun i : Fin 4 => match ps.find? fun p => p.getLsbD i.val with
           | some p => BitVec.ofNat 2 (((List.range 4).find? fun j => p.getLsbD j).getD 0)
           | none => u.sys.parts[i] } } : State).rewriteInterleave q)) ∧
     [0, 1, 2, 3, 4, 7, 8, 11, 12, 13, 14, 15].map restParts =
       [[], [1], [2], [3], [4], [3, 4], [8], [3, 8], [12], [1, 12], [2, 12], [3, 12]]) ∧
    (let left := fun (s : State) (w : Option Nat) => ({ s with sys := { s.sys with
       wipeEnd := w, wiping := s.sys.wiping.filter fun w => decide (s.cyc < w.2) } } : State).wakeQueues
     Performs .wipeDone (fun s => s.sys.wipeEnd = some e ∧ e ≤ s.cyc) (fun s => left s none) ∧
     Performs .wipeDone (fun s => s.sys.wipeEnd = some e ∧ s.cyc < e) (fun s => left s (some e))) ∧
    (∀ (s : State) (n : BitVec 6), (∀ m : BitVec 6, m ≠ n → s.qState m ≠ 1) →
      (s.qState n ≠ 1 → s.wakeQueues = s) ∧
      (s.qState n = 1 → (s.jobs.any fun j => j.kind == .fetch n) = false → (s.agenda.any fun e => e.2 == .queueFetch n) = false →
        s.wakeQueues = s.after 1 (.queueFetch n))) ∧
    Performs .lifeCycleChange (fun s => s.sys.life = .returned) (fun s => s) ∧
    (∀ b, [(Life.manufacturing, Life.provisioned), (.provisioned, .deployed), (.deployed, .returned)].contains (l, b) = true →
      Performs .lifeCycleChange (fun s => s.sys.life = l)
        fun s => ({ s with sys := { s.sys with life := b, identity := match b with
          | .provisioned => some Config.identityKey
          | .deployed => s.sys.identity
          | _ => none } } : State).packageReset s.cyc) ∧
    Performs (.firmwareVerify image) (fun s => good s image ∧ s.jobs = []) (fun s =>
      ({ s with sys := { s.sys with version := (Config.imageParts image).1, servReset := false, recovery := false
                                    digest := Config.shake256 (Config.imageParts image).2.2.2 } } : State).wakeQueues) ∧
    Performs (.firmwareVerify image) (fun s => ¬good s image)
      (fun s => { s with sys := { s.sys with servReset := true, recovery := true }, outbox := s.outbox ++ [.msix 4] }) ∧
    Performs .recoveryLoad (fun s => s.sys.recovery = false) (fun s => s) ∧
    Performs .recoveryLoad (fun s => s.sys.recovery = true) (fun s => s.verifyImage (s.barBytes 0x800000 0x800000)) ∧
    Performs (.attestationRequest nonce) (fun s => s.sys.life = .manufacturing ∨ s.sys.life = .returned)
      (fun s => { s with outbox := s.outbox ++ [.refused 0] }) ∧
    Performs (.attestationRequest nonce) (fun s => (s.sys.life = .provisioned ∨ s.sys.life = .deployed) ∧
        s.sys.identity = some key) (fun s =>
      { s with outbox := s.outbox ++ [.attest (Config.mldsaSign key (Config.shake256
        (bytesOf nonce 32 ++ bytesOf s.sys.digest 32 ++ [BitVec.ofNat 8 s.sys.life.code] ++
          s.sys.parts.toList.map (fun p => p.setWidth 8) ++ (List.range 4).flatMap fun w => bytesOf (s.hmap w) 8)))] })

/-- 05 R85, R87, R88, 01 R19–R24, 15 R271, 25 R373, R381–R383: dynamic capacity, an overtemperature and a failed router are
notices; power limits halve the task budgets until they clear; a channel's half width is held and counted; a snapshot of a
partition is latched at the next multiple of 64 cycles not less than 64 away, at most one pending; scrubbing corrects a
single-bit error and reports an uncorrectable one; a failed router's messages are lost, and who waits for their replies is
in containment; a routing table is loaded, and a bypass set, once the routers of the partition are idle, injection being
held until then. A message takes one cycle a hop and four more at a die boundary, in order within its class; a bank's answer
and a hub's go back as messages. A counter that reaches the snapshot threshold triggers once. The source code of the
overtemperature machine check and the words of the router record are free values (log entries 12 and 87). -/
def Obligations.MachineSteps : Prop :=
  ∀ (port : BitVec 4) (base len : Word) (die : BitVec 3) (c : BitVec 9) (n k : Nat) (g dest : BitVec 8) (r : Port)
    (b : Bool) (p : BitVec 2) (cc : CoreId) (x : Word) (v : BitVec 32) (w : Agent) (e : Nat × Event) (pk : BitVec 5),
    let snap := fun (s : State) (p : BitVec 2) =>
      let at0 := (s.cyc + 64 + 63) / 64 * 64
      ({ s with snapAt := s.snapAt ++ [(p, at0)] } : State).after (at0 - s.cyc) (.snapshotLatch p)
    let due := fun (s : State) (p : BitVec 2) => s.snapAt.any fun e => e.1 == p
    let one := fun (s : State) => s.sys.parts = Vector.replicate 4 0
    let named := fun (s : State) => s.threshold = some (cc, n, v)
    let report := fun (s : State) (l : List (Nat × Word)) =>
      let t := s.after 0 (.supervisorNotice (dieOfSg g)
        { code := 6, cause := 12, w4 := Config.heldMessages l 0, w5 := Config.heldMessages l 1, w6 := Config.heldMessages l 2 })
      ({ t with outbox := t.outbox ++ [.msix 1] } : State)
    let name := fun (s : State) => let i := s.agentInfo w; whoWord i.core i.ctx i.priv.code i.pkg i.asid
    let idle := fun (s : State) => s.sys.lanes = []
    let load := [(Event.routingTableLoad g dest r), .bypassSet g b]
    Performs (.cxlDynamicCapacity port true base len) (fun _ => True) (fun s => s.after 0 (.supervisorNotice s.hubDie
      { code := 23, addr := base, w3 := port.setWidth 64, w4 := 1, w5 := len })) ∧
    Performs .powerLimit (fun _ => True) (fun s => { s with sys := { s.sys with halved := true } }) ∧
    Performs .powerLimitClear (fun s => s.sgs = []) (fun s => { s with sys := { s.sys with halved := false } }) ∧
    Performs (.overtemperature die) one (fun s =>
      let t := ({ s with fresh := s.fresh + 1 } : State).after 0 (.supervisorNotice die
        { code := 1 + (Config.freeWord s.fresh).toNat % 8, cause := 12 })
      ({ t with outbox := t.outbox ++ [.msix 1] } : State).after 0 (.partitionReset 15)) ∧
    Performs (.channelHalfWidth c) (fun _ => True) (fun s =>
      let o := 0x8100 + 8 * (c.toNat / 16)
      ({ s with sys := { s.sys with halfChans := s.sys.halfChans.erase c ++ [c] } } : State).setBar o (s.bar o + 1)) ∧
    Performs (.channelFullWidth c) (fun _ => True)
      (fun s => { s with sys := { s.sys with halfChans := s.sys.halfChans.filter fun d => d != c } }) ∧
    Performs .snapIn (fun s => one s ∧ due s 0 = false) (fun s => snap s 0) ∧
    Performs .snapIn (fun s => one s ∧ due s 0 = true) (fun s => s) ∧
    Performs .snapshotThreshold (fun s => named s ∧ due s (s.partOf cc) = false) (fun s => snap s (s.partOf cc)) ∧
    Performs .snapshotThreshold (fun s => named s ∧ due s (s.partOf cc) = true) (fun s => s) ∧
    Performs .snapshotThreshold (fun s => s.threshold = none) (fun s => s) ∧
    Performs (.snapshotLatch p) (fun _ => True) (fun s =>
      let mine := fun (i : Fin 5) => if h : i.val < 4 then s.sys.parts[i.val] == p else true
      { s with fresh := s.fresh + 1, snapAt := s.snapAt.filter fun e => e.1 != p
               sys := { s.sys with
                 snapCyc := Vector.ofFn fun i => if mine i then s.cycW else s.sys.snapCyc[i]
                 snapSeed := Vector.ofFn fun i => if mine i then s.fresh + 1 else s.sys.snapSeed[i] }
               cores := s.cores.map fun e => (e.1, if s.partOf (BitVec.ofNat 16 e.1) = p then
                 { e.2 with snap := e.2.evc.toList.map fun v => v.setWidth 64 } else e.2) }) ∧
    Performs (.scrub k) (fun s => s.eccOf k = 0) (fun s => s) ∧
    Performs (.scrub k) (fun s => s.eccOf k = 1) (fun s =>
      { s with ecc := SMap.set 0 s.ecc (k / 64) 0, sys := { s.sys with scrubCount := s.sys.scrubCount + 1 } }) ∧
    Performs (.scrub k) (fun s => 2 ≤ s.eccOf k) (fun s => s.after 0 (.machineCheck 8 k none)) ∧
    Performs (.routerFailure g []) (fun _ => True) (fun s => report s []) ∧
    (∀ reply : Reply, (∀ i, reply ≠ .advance i) →
      Performs (.routerFailure g [0]) (fun s => s.agenda = [e] ∧ e.2 = .longLatencyComplete cc n reply ∧
          w = .lsu cc n reply.part)
        fun s => report (({ s with agenda := [] } : State).answer w 1 (.trap w.idx 259)) [(9, name s)]) ∧
    Performs (.routerFailure g [0]) (fun s => s.agenda = [e] ∧ e.2.meshKind? = none) (fun s => report s []) ∧
    Performs (.routingTableLoad g dest r) idle
      (fun s => { s with sys := { s.sys with routes := SMap.set none s.sys.routes (256 * g.toNat + dest.toNat) (some r) } }) ∧
    Performs (.bypassSet g true) (fun s => idle s ∧ g ∉ s.sys.bypass) (fun s =>
      let o := 0x1000 + 8 * (g.toNat / 64)
      ({ s with sys := { s.sys with bypass := s.sys.bypass ++ [g] } } : State).setBar o (s.bar o ||| (1 <<< (g.toNat % 64)))) ∧
    Performs (.bypassSet g false) idle
      (fun s => { s with sys := { s.sys with bypass := s.sys.bypass.filter fun x => x != g } }) ∧
    (∀ ev ∈ load, Performs ev (fun s => one s ∧ s.cyc < s.netIdleAt 0 ∧ s.sys.holding = []) fun s =>
      ({ s with sys := { s.sys with holding := [(0, s.netIdleAt 0)] } } : State).after (s.netIdleAt 0 - s.cyc) ev) ∧
    (∀ ev ∈ load, Performs ev (fun s => one s ∧ s.cyc < s.netIdleAt 0 ∧ s.sys.holding = [(0, n)] ∧ s.cyc < n)
      fun s => s.after (n - s.cyc) ev) ∧
    (let loaded := fun (s : State) =>
       ({ s with sys := { s.sys with pkgRoutes := SMap.set none s.sys.pkgRoutes pk.toNat (some port) } } : State)
     let moved := fun (s : State) =>
       let old := s.linkOf pk
       let wait := (s.link old).queue.filter fun e => e.1 == pk
       let t := (loaded s).setLink old { s.link old with queue := (s.link old).queue.filter fun e => e.1 != pk }
       (t.setLink port { s.link port with queue := (s.link port).queue ++ wait }).pumpLink port wait.length
     Performs (.packageRouteLoad pk port) (fun s => s.linkOf pk = port ∧ ((s.link port).up = true ∨ pk = s.pkgNum)) loaded ∧
     Performs (.packageRouteLoad pk port) (fun s => s.linkOf pk = port ∧ (s.link port).up = false ∧ pk ≠ s.pkgNum)
       (fun s => (loaded s).contain ((List.range 8).map fun d => pk ++ (BitVec.ofNat 3 d : BitVec 3))) ∧
     Performs (.packageRouteLoad pk port) (fun s => s.linkOf pk ≠ port ∧
       (pk = s.pkgNum ∨ ((moved s).link port).up = true)) moved) ∧
    (∀ (s : State) (a z : BitVec 8) (kd : MeshClass) (ev : Event),
      let lane := 4 * (256 * a.toNat + z.toNat) + kd.code
      let due := max (s.cyc + 1 + hopCycles (s.route a z) + Config.freeDelay s.fresh) (SMap.get 0 s.sys.lanes lane)
      (s.injectHeld a = false → s.meshAfter a z kd ev = { s with
        sys := { s.sys with lanes := SMap.set 0 s.sys.lanes lane due }, fresh := s.fresh + 1
        agenda := s.agenda ++ [(due, ev)] }) ∧
      (s.injectHeld a = true → s.meshAfter a z kd ev =
        { s with sys := { s.sys with waiting := s.sys.waiting ++ [(a, z, kd, ev)] } }) ∧
      (s.sys.routes = [] → s.sys.bypass = [] → a.toNat % 16 ≠ 15 → s.route a (a + 1) = [a, a + 1]) ∧
      hopCycles [a, z] = 1 + if dieOfSg a = dieOfSg z then 0 else 4) ∧
    (∀ (req : RemReq) (st bank pos : Nat) (reply : Reply) (a : Access) (m : Map) (h : BitVec 8),
      Performs (.storeArrival w st bank pos) (fun _ => True) (fun s => { s with
        banks := s.banks ++ [{ store := st, bank := bank, pos := pos, who := w, since := s.cyc, arr := s.cyc }] }) ∧
      Performs (.requestLeave pk req) (fun _ => True) (fun s => { s with outbox := s.outbox ++ [.request pk req] }) ∧
      Performs (.hubAccess w) (fun s => s.acc w = some a ∧ a.map = some m ∧ a.st = .bank) (fun s => s.enginePlain w a m) ∧
      Performs (.hubAccess w) (fun s => s.acc w = some a ∧ a.st ≠ .bank) (fun s => s) ∧
      Performs (.replySend w g reply) (fun s => s.agentRouter w = some h)
        (fun s => s.meshAfter g h .response (w.replyEvent reply)) ∧
      (∀ x, Performs (.hubReply w (.data 0 x)) (fun s => s.agentRouter w = some h)
        fun s => s.meshAfter (s.hubRouter h) h .response (.agentReply w (.data 0 x))) ∧
      Performs (.hubReply w reply) (fun s => s.agentRouter w = none) (fun s => s.agentReply w reply)) ∧
    (let reached := fun (s : State) => s.bar 0x8030 = x ∧ x.getLsbD 63 = true ∧
       ∃ k < 8, (x.extractLsb' 48 3).toNat = k ∧
         ∃ z, (s.core (x.extractLsb' 32 16)).evc[k]? = some z ∧ (x.setWidth 32).toNat ≤ z.toNat
     ∀ s : State,
       (reached s → s.sys.fired = false → s.watchThreshold =
         ({ s with sys := { s.sys with fired := true } } : State).after 0 .snapshotThreshold) ∧
       (reached s → s.sys.fired = true → s.watchThreshold = s))
end

