-- ==== Sys2Proof/Laws/Exec.lean ====
section
/-! SUPPORT. The dispatch, arm by arm: what `exec` is for each constructor. -/
namespace Sys2Proof.Machine

@[simp] theorem exec_nop p imm (s : State) :
    exec (.nop p imm) s = execNop p imm s := rfl
@[simp] theorem exec_bra p off (s : State) :
    exec (.bra p off) s = execBra p off s := rfl
@[simp] theorem exec_jmp p a (s : State) :
    exec (.jmp p a) s = execJmp p a s := rfl
@[simp] theorem exec_call p off (s : State) :
    exec (.call p off) s = execCall p off s := rfl
@[simp] theorem exec_callr p a (s : State) :
    exec (.callr p a) s = execCallr p a s := rfl
@[simp] theorem exec_ret p a (s : State) :
    exec (.ret p a) s = execRet p a s := rfl
@[simp] theorem exec_brc p cc w a b off (s : State) :
    exec (.brc p cc w a b off) s = execBrc p cc w a b off s := rfl
@[simp] theorem exec_aluAdd p w d a b (s : State) :
    exec (.aluAdd p w d a b) s = execAluAdd p w d a b s := rfl
@[simp] theorem exec_aluSub p w d a b (s : State) :
    exec (.aluSub p w d a b) s = execAluSub p w d a b s := rfl
@[simp] theorem exec_aluAnd p w d a b (s : State) :
    exec (.aluAnd p w d a b) s = execAluAnd p w d a b s := rfl
@[simp] theorem exec_aluOr p w d a b (s : State) :
    exec (.aluOr p w d a b) s = execAluOr p w d a b s := rfl
@[simp] theorem exec_aluXor p w d a b (s : State) :
    exec (.aluXor p w d a b) s = execAluXor p w d a b s := rfl
@[simp] theorem exec_aluAndn p w d a b (s : State) :
    exec (.aluAndn p w d a b) s = execAluAndn p w d a b s := rfl
@[simp] theorem exec_aluOrn p w d a b (s : State) :
    exec (.aluOrn p w d a b) s = execAluOrn p w d a b s := rfl
@[simp] theorem exec_aluXnor p w d a b (s : State) :
    exec (.aluXnor p w d a b) s = execAluXnor p w d a b s := rfl
@[simp] theorem exec_aluMin p w d a b (s : State) :
    exec (.aluMin p w d a b) s = execAluMin p w d a b s := rfl
@[simp] theorem exec_aluMax p w d a b (s : State) :
    exec (.aluMax p w d a b) s = execAluMax p w d a b s := rfl
@[simp] theorem exec_aluMinu p w d a b (s : State) :
    exec (.aluMinu p w d a b) s = execAluMinu p w d a b s := rfl
@[simp] theorem exec_aluMaxu p w d a b (s : State) :
    exec (.aluMaxu p w d a b) s = execAluMaxu p w d a b s := rfl
@[simp] theorem exec_aluAdds p w d a b (s : State) :
    exec (.aluAdds p w d a b) s = execAluAdds p w d a b s := rfl
@[simp] theorem exec_aluSubs p w d a b (s : State) :
    exec (.aluSubs p w d a b) s = execAluSubs p w d a b s := rfl
@[simp] theorem exec_aluAddsu p w d a b (s : State) :
    exec (.aluAddsu p w d a b) s = execAluAddsu p w d a b s := rfl
@[simp] theorem exec_aluSubsu p w d a b (s : State) :
    exec (.aluSubsu p w d a b) s = execAluSubsu p w d a b s := rfl
@[simp] theorem exec_aluMov p w d a (s : State) :
    exec (.aluMov p w d a) s = execAluMov p w d a s := rfl
@[simp] theorem exec_aluNeg p w d a (s : State) :
    exec (.aluNeg p w d a) s = execAluNeg p w d a s := rfl
@[simp] theorem exec_aluNot p w d a (s : State) :
    exec (.aluNot p w d a) s = execAluNot p w d a s := rfl
@[simp] theorem exec_addi p d a imm (s : State) :
    exec (.addi p d a imm) s = execAddi p d a imm s := rfl
@[simp] theorem exec_andi p d a imm (s : State) :
    exec (.andi p d a imm) s = execAndi p d a imm s := rfl
@[simp] theorem exec_ori p d a imm (s : State) :
    exec (.ori p d a imm) s = execOri p d a imm s := rfl
@[simp] theorem exec_xori p d a imm (s : State) :
    exec (.xori p d a imm) s = execXori p d a imm s := rfl
@[simp] theorem exec_movi p d imm (s : State) :
    exec (.movi p d imm) s = execMovi p d imm s := rfl
@[simp] theorem exec_movhi p d a imm (s : State) :
    exec (.movhi p d a imm) s = execMovhi p d a imm s := rfl
@[simp] theorem exec_mulLo p d a b (s : State) :
    exec (.mulLo p d a b) s = execMulLo p d a b s := rfl
@[simp] theorem exec_mulHi p d a b (s : State) :
    exec (.mulHi p d a b) s = execMulHi p d a b s := rfl
@[simp] theorem exec_mulHiu p d a b (s : State) :
    exec (.mulHiu p d a b) s = execMulHiu p d a b s := rfl
@[simp] theorem exec_mulMad p d a b c (s : State) :
    exec (.mulMad p d a b c) s = execMulMad p d a b c s := rfl
@[simp] theorem exec_divS p n w d a b (s : State) :
    exec (.divS p n w d a b) s = execDivS p n w d a b s := rfl
@[simp] theorem exec_divU p n w d a b (s : State) :
    exec (.divU p n w d a b) s = execDivU p n w d a b s := rfl
@[simp] theorem exec_divRem p n w d a b (s : State) :
    exec (.divRem p n w d a b) s = execDivRem p n w d a b s := rfl
@[simp] theorem exec_divRemu p n w d a b (s : State) :
    exec (.divRemu p n w d a b) s = execDivRemu p n w d a b s := rfl
@[simp] theorem exec_bitsShl p d a b (s : State) :
    exec (.bitsShl p d a b) s = execBitsShl p d a b s := rfl
@[simp] theorem exec_bitsShr p d a b (s : State) :
    exec (.bitsShr p d a b) s = execBitsShr p d a b s := rfl
@[simp] theorem exec_bitsSar p d a b (s : State) :
    exec (.bitsSar p d a b) s = execBitsSar p d a b s := rfl
@[simp] theorem exec_bitsRol p d a b (s : State) :
    exec (.bitsRol p d a b) s = execBitsRol p d a b s := rfl
@[simp] theorem exec_bitsRor p d a b (s : State) :
    exec (.bitsRor p d a b) s = execBitsRor p d a b s := rfl
@[simp] theorem exec_bitsShli p d a k (s : State) :
    exec (.bitsShli p d a k) s = execBitsShli p d a k s := rfl
@[simp] theorem exec_bitsShri p d a k (s : State) :
    exec (.bitsShri p d a k) s = execBitsShri p d a k s := rfl
@[simp] theorem exec_bitsSari p d a k (s : State) :
    exec (.bitsSari p d a k) s = execBitsSari p d a k s := rfl
@[simp] theorem exec_bitsRoli p d a k (s : State) :
    exec (.bitsRoli p d a k) s = execBitsRoli p d a k s := rfl
@[simp] theorem exec_bitsRori p d a k (s : State) :
    exec (.bitsRori p d a k) s = execBitsRori p d a k s := rfl
@[simp] theorem exec_bitsClz p d a (s : State) :
    exec (.bitsClz p d a) s = execBitsClz p d a s := rfl
@[simp] theorem exec_bitsCtz p d a (s : State) :
    exec (.bitsCtz p d a) s = execBitsCtz p d a s := rfl
@[simp] theorem exec_bitsPopc p d a (s : State) :
    exec (.bitsPopc p d a) s = execBitsPopc p d a s := rfl
@[simp] theorem exec_bitsBrev p d a (s : State) :
    exec (.bitsBrev p d a) s = execBitsBrev p d a s := rfl
@[simp] theorem exec_bitsBswap p d a (s : State) :
    exec (.bitsBswap p d a) s = execBitsBswap p d a s := rfl
@[simp] theorem exec_fieldExt p d a b (s : State) :
    exec (.fieldExt p d a b) s = execFieldExt p d a b s := rfl
@[simp] theorem exec_fieldExts p d a b (s : State) :
    exec (.fieldExts p d a b) s = execFieldExts p d a b s := rfl
@[simp] theorem exec_fieldIns p d a b (s : State) :
    exec (.fieldIns p d a b) s = execFieldIns p d a b s := rfl
@[simp] theorem exec_fieldMask p d b (s : State) :
    exec (.fieldMask p d b) s = execFieldMask p d b s := rfl
@[simp] theorem exec_movw p d imm (s : State) :
    exec (.movw p d imm) s = execMovw p d imm s := rfl
@[simp] theorem exec_sel p d a b c (s : State) :
    exec (.sel p d a b c) s = execSel p d a b c s := rfl
@[simp] theorem exec_lea p d a b k (s : State) :
    exec (.lea p d a b k) s = execLea p d a b k s := rfl
@[simp] theorem exec_leaOff p d a b k (s : State) :
    exec (.leaOff p d a b k) s = execLeaOff p d a b k s := rfl
@[simp] theorem exec_cmp p cc w m d a b (s : State) :
    exec (.cmp p cc w m d a b) s = execCmp p cc w m d a b s := rfl
@[simp] theorem exec_cmpi p cc d a imm (s : State) :
    exec (.cmpi p cc d a imm) s = execCmpi p cc d a imm s := rfl
@[simp] theorem exec_plogAnd p d a b (s : State) :
    exec (.plogAnd p d a b) s = execPlogAnd p d a b s := rfl
@[simp] theorem exec_plogOr p d a b (s : State) :
    exec (.plogOr p d a b) s = execPlogOr p d a b s := rfl
@[simp] theorem exec_plogXor p d a b (s : State) :
    exec (.plogXor p d a b) s = execPlogXor p d a b s := rfl
@[simp] theorem exec_plogAndn p d a b (s : State) :
    exec (.plogAndn p d a b) s = execPlogAndn p d a b s := rfl
@[simp] theorem exec_plogOrn p d a b (s : State) :
    exec (.plogOrn p d a b) s = execPlogOrn p d a b s := rfl
@[simp] theorem exec_plogNand p d a b (s : State) :
    exec (.plogNand p d a b) s = execPlogNand p d a b s := rfl
@[simp] theorem exec_plogNor p d a b (s : State) :
    exec (.plogNor p d a b) s = execPlogNor p d a b s := rfl
@[simp] theorem exec_plogXnor p d a b (s : State) :
    exec (.plogXnor p d a b) s = execPlogXnor p d a b s := rfl
@[simp] theorem exec_plogNot p d a (s : State) :
    exec (.plogNot p d a) s = execPlogNot p d a s := rfl
@[simp] theorem exec_pmovG2p p d a (s : State) :
    exec (.pmovG2p p d a) s = execPmovG2p p d a s := rfl
@[simp] theorem exec_pmovP2g p d a (s : State) :
    exec (.pmovP2g p d a) s = execPmovP2g p d a s := rfl
@[simp] theorem exec_pmovBc p d a (s : State) :
    exec (.pmovBc p d a) s = execPmovBc p d a s := rfl
@[simp] theorem exec_coordTile p d a (s : State) :
    exec (.coordTile p d a) s = execCoordTile p d a s := rfl
@[simp] theorem exec_coordGroup p d a (s : State) :
    exec (.coordGroup p d a) s = execCoordGroup p d a s := rfl
@[simp] theorem exec_coordSgrp p d a (s : State) :
    exec (.coordSgrp p d a) s = execCoordSgrp p d a s := rfl
@[simp] theorem exec_coordDie p d a (s : State) :
    exec (.coordDie p d a) s = execCoordDie p d a s := rfl
@[simp] theorem exec_coordPres p d a (s : State) :
    exec (.coordPres p d a) s = execCoordPres p d a s := rfl
@[simp] theorem exec_coordHmap p d a (s : State) :
    exec (.coordHmap p d a) s = execCoordHmap p d a s := rfl
@[simp] theorem exec_coordLocal p d a (s : State) :
    exec (.coordLocal p d a) s = execCoordLocal p d a s := rfl
@[simp] theorem exec_mka p lvl rel d a b (s : State) :
    exec (.mka p lvl rel d a b) s = execMka p lvl rel d a b s := rfl
@[simp] theorem exec_mkg p d a b (s : State) :
    exec (.mkg p d a b) s = execMkg p d a b s := rfl
@[simp] theorem exec_mkgOwn p d b (s : State) :
    exec (.mkgOwn p d b) s = execMkgOwn p d b s := rfl
@[simp] theorem exec_ld p n sz d a disp (s : State) :
    exec (.ld p n sz d a disp) s = execLd p n sz d a disp s := rfl
@[simp] theorem exec_ldx p n sz sc d a b (s : State) :
    exec (.ldx p n sz sc d a b) s = execLdx p n sz sc d a b s := rfl
@[simp] theorem exec_st p n sz d a disp (s : State) :
    exec (.st p n sz d a disp) s = execSt p n sz d a disp s := rfl
@[simp] theorem exec_stx p n sz sc d a b (s : State) :
    exec (.stx p n sz sc d a b) s = execStx p n sz sc d a b s := rfl
@[simp] theorem exec_ldm p n c d a disp (s : State) :
    exec (.ldm p n c d a disp) s = execLdm p n c d a disp s := rfl
@[simp] theorem exec_stm p n c d a disp (s : State) :
    exec (.stm p n c d a disp) s = execStm p n c d a disp s := rfl
@[simp] theorem exec_ldq p n d a disp (s : State) :
    exec (.ldq p n d a disp) s = execLdq p n d a disp s := rfl
@[simp] theorem exec_ldtry p n sz d a disp (s : State) :
    exec (.ldtry p n sz d a disp) s = execLdtry p n sz d a disp s := rfl
@[simp] theorem exec_bwait p n d a disp (s : State) :
    exec (.bwait p n d a disp) s = execBwait p n d a disp s := rfl
@[simp] theorem exec_clr p a disp (s : State) :
    exec (.clr p a disp) s = execClr p a disp s := rfl
@[simp] theorem exec_clrn p a b (s : State) :
    exec (.clrn p a b) s = execClrn p a b s := rfl
@[simp] theorem exec_prefS p a disp (s : State) :
    exec (.prefS p a disp) s = execPrefS p a disp s := rfl
@[simp] theorem exec_prefX p a disp (s : State) :
    exec (.prefX p a disp) s = execPrefX p a disp s := rfl
@[simp] theorem exec_aopSwap p n far ty scope order d a b (s : State) :
    exec (.aopSwap p n far ty scope order d a b) s = execAopSwap p n far ty scope order d a b s := rfl
@[simp] theorem exec_aopAdd p n far ty scope order d a b (s : State) :
    exec (.aopAdd p n far ty scope order d a b) s = execAopAdd p n far ty scope order d a b s := rfl
@[simp] theorem exec_aopAnd p n far ty scope order d a b (s : State) :
    exec (.aopAnd p n far ty scope order d a b) s = execAopAnd p n far ty scope order d a b s := rfl
@[simp] theorem exec_aopOr p n far ty scope order d a b (s : State) :
    exec (.aopOr p n far ty scope order d a b) s = execAopOr p n far ty scope order d a b s := rfl
@[simp] theorem exec_aopXor p n far ty scope order d a b (s : State) :
    exec (.aopXor p n far ty scope order d a b) s = execAopXor p n far ty scope order d a b s := rfl
@[simp] theorem exec_aopMin p n far ty scope order d a b (s : State) :
    exec (.aopMin p n far ty scope order d a b) s = execAopMin p n far ty scope order d a b s := rfl
@[simp] theorem exec_aopMax p n far ty scope order d a b (s : State) :
    exec (.aopMax p n far ty scope order d a b) s = execAopMax p n far ty scope order d a b s := rfl
@[simp] theorem exec_acas p n far q ty scope order d a b c (s : State) :
    exec (.acas p n far q ty scope order d a b c) s = execAcas p n far q ty scope order d a b c s := rfl
@[simp] theorem exec_redAdd p n ty scope order a b (s : State) :
    exec (.redAdd p n ty scope order a b) s = execRedAdd p n ty scope order a b s := rfl
@[simp] theorem exec_redAnd p n ty scope order a b (s : State) :
    exec (.redAnd p n ty scope order a b) s = execRedAnd p n ty scope order a b s := rfl
@[simp] theorem exec_redOr p n ty scope order a b (s : State) :
    exec (.redOr p n ty scope order a b) s = execRedOr p n ty scope order a b s := rfl
@[simp] theorem exec_redXor p n ty scope order a b (s : State) :
    exec (.redXor p n ty scope order a b) s = execRedXor p n ty scope order a b s := rfl
@[simp] theorem exec_redMin p n ty scope order a b (s : State) :
    exec (.redMin p n ty scope order a b) s = execRedMin p n ty scope order a b s := rfl
@[simp] theorem exec_redMax p n ty scope order a b (s : State) :
    exec (.redMax p n ty scope order a b) s = execRedMax p n ty scope order a b s := rfl
@[simp] theorem exec_post p n sz scope order a b (s : State) :
    exec (.post p n sz scope order a b) s = execPost p n sz scope order a b s := rfl
@[simp] theorem exec_vopAdd p ty d a b (s : State) :
    exec (.vopAdd p ty d a b) s = execVopAdd p ty d a b s := rfl
@[simp] theorem exec_vopSub p ty d a b (s : State) :
    exec (.vopSub p ty d a b) s = execVopSub p ty d a b s := rfl
@[simp] theorem exec_vopMul p ty d a b (s : State) :
    exec (.vopMul p ty d a b) s = execVopMul p ty d a b s := rfl
@[simp] theorem exec_vopMin p ty d a b (s : State) :
    exec (.vopMin p ty d a b) s = execVopMin p ty d a b s := rfl
@[simp] theorem exec_vopMax p ty d a b (s : State) :
    exec (.vopMax p ty d a b) s = execVopMax p ty d a b s := rfl
@[simp] theorem exec_vopAbs p ty d a (s : State) :
    exec (.vopAbs p ty d a) s = execVopAbs p ty d a s := rfl
@[simp] theorem exec_vopNeg p ty d a (s : State) :
    exec (.vopNeg p ty d a) s = execVopNeg p ty d a s := rfl
@[simp] theorem exec_vopAdds p ty d a b (s : State) :
    exec (.vopAdds p ty d a b) s = execVopAdds p ty d a b s := rfl
@[simp] theorem exec_vopSubs p ty d a b (s : State) :
    exec (.vopSubs p ty d a b) s = execVopSubs p ty d a b s := rfl
@[simp] theorem exec_vopAnd p ty d a b (s : State) :
    exec (.vopAnd p ty d a b) s = execVopAnd p ty d a b s := rfl
@[simp] theorem exec_vopOr p ty d a b (s : State) :
    exec (.vopOr p ty d a b) s = execVopOr p ty d a b s := rfl
@[simp] theorem exec_vopXor p ty d a b (s : State) :
    exec (.vopXor p ty d a b) s = execVopXor p ty d a b s := rfl
@[simp] theorem exec_vopAndn p ty d a b (s : State) :
    exec (.vopAndn p ty d a b) s = execVopAndn p ty d a b s := rfl
@[simp] theorem exec_vopShl p ty d a b (s : State) :
    exec (.vopShl p ty d a b) s = execVopShl p ty d a b s := rfl
@[simp] theorem exec_vopShr p ty d a b (s : State) :
    exec (.vopShr p ty d a b) s = execVopShr p ty d a b s := rfl
@[simp] theorem exec_vopSar p ty d a b (s : State) :
    exec (.vopSar p ty d a b) s = execVopSar p ty d a b s := rfl
@[simp] theorem exec_vopMulhi p ty d a b (s : State) :
    exec (.vopMulhi p ty d a b) s = execVopMulhi p ty d a b s := rfl
@[simp] theorem exec_vfma p ty d a b c (s : State) :
    exec (.vfma p ty d a b c) s = execVfma p ty d a b c s := rfl
@[simp] theorem exec_vfmaFms p ty d a b c (s : State) :
    exec (.vfmaFms p ty d a b c) s = execVfmaFms p ty d a b c s := rfl
@[simp] theorem exec_vfmaFnma p ty d a b c (s : State) :
    exec (.vfmaFnma p ty d a b c) s = execVfmaFnma p ty d a b c s := rfl
@[simp] theorem exec_vfmaFnms p ty d a b c (s : State) :
    exec (.vfmaFnms p ty d a b c) s = execVfmaFnms p ty d a b c s := rfl
@[simp] theorem exec_vdiv p n ty d a b (s : State) :
    exec (.vdiv p n ty d a b) s = execVdiv p n ty d a b s := rfl
@[simp] theorem exec_vsqrt p n ty d a (s : State) :
    exec (.vsqrt p n ty d a) s = execVsqrt p n ty d a s := rfl
@[simp] theorem exec_vcmp p cc ty d a b (s : State) :
    exec (.vcmp p cc ty d a b) s = execVcmp p cc ty d a b s := rfl
@[simp] theorem exec_vsel p ty d a b c (s : State) :
    exec (.vsel p ty d a b c) s = execVsel p ty d a b c s := rfl
@[simp] theorem exec_vcvt p src j dst d a c (s : State) :
    exec (.vcvt p src j dst d a c) s = execVcvt p src j dst d a c s := rfl
@[simp] theorem exec_vredAdd p ty d a (s : State) :
    exec (.vredAdd p ty d a) s = execVredAdd p ty d a s := rfl
@[simp] theorem exec_vredMin p ty d a (s : State) :
    exec (.vredMin p ty d a) s = execVredMin p ty d a s := rfl
@[simp] theorem exec_vredMax p ty d a (s : State) :
    exec (.vredMax p ty d a) s = execVredMax p ty d a s := rfl
@[simp] theorem exec_vredAnd p ty d a (s : State) :
    exec (.vredAnd p ty d a) s = execVredAnd p ty d a s := rfl
@[simp] theorem exec_vredOr p ty d a (s : State) :
    exec (.vredOr p ty d a) s = execVredOr p ty d a s := rfl
@[simp] theorem exec_vredXor p ty d a (s : State) :
    exec (.vredXor p ty d a) s = execVredXor p ty d a s := rfl
@[simp] theorem exec_vperm p ty d a b c (s : State) :
    exec (.vperm p ty d a b c) s = execVperm p ty d a b c s := rfl
@[simp] theorem exec_vbcast p ty d a (s : State) :
    exec (.vbcast p ty d a) s = execVbcast p ty d a s := rfl
@[simp] theorem exec_vbcastLane p ty d a idx (s : State) :
    exec (.vbcastLane p ty d a idx) s = execVbcastLane p ty d a idx s := rfl
@[simp] theorem exec_vins p ty d a idx (s : State) :
    exec (.vins p ty d a idx) s = execVins p ty d a idx s := rfl
@[simp] theorem exec_vext p ty d a idx (s : State) :
    exec (.vext p ty d a idx) s = execVext p ty d a idx s := rfl
@[simp] theorem exec_vdot p ty d a b (s : State) :
    exec (.vdot p ty d a b) s = execVdot p ty d a b s := rfl
@[simp] theorem exec_vmov p ty d a (s : State) :
    exec (.vmov p ty d a) s = execVmov p ty d a s := rfl
@[simp] theorem exec_vmovZero p ty d (s : State) :
    exec (.vmovZero p ty d) s = execVmovZero p ty d s := rfl
@[simp] theorem exec_vld p n g d a disp (s : State) :
    exec (.vld p n g d a disp) s = execVld p n g d a disp s := rfl
@[simp] theorem exec_vst p n g d a disp (s : State) :
    exec (.vst p n g d a disp) s = execVst p n g d a disp s := rfl
@[simp] theorem exec_vlds p n ty d a b (s : State) :
    exec (.vlds p n ty d a b) s = execVlds p n ty d a b s := rfl
@[simp] theorem exec_vsts p n ty d a b (s : State) :
    exec (.vsts p n ty d a b) s = execVsts p n ty d a b s := rfl
@[simp] theorem exec_vgath p n ty sc d a b (s : State) :
    exec (.vgath p n ty sc d a b) s = execVgath p n ty sc d a b s := rfl
@[simp] theorem exec_vscat p n ty sc d a b (s : State) :
    exec (.vscat p n ty sc d a b) s = execVscat p n ty sc d a b s := rfl
@[simp] theorem exec_vldb p n d a disp (s : State) :
    exec (.vldb p n d a disp) s = execVldb p n d a disp s := rfl
@[simp] theorem exec_vstb p n d a disp (s : State) :
    exec (.vstb p n d a disp) s = execVstb p n d a disp s := rfl
@[simp] theorem exec_copy p o a b c (s : State) :
    exec (.copy p o a b c) s = execCopy p o a b c s := rfl
@[simp] theorem exec_copys p o a b c e1 e2 e3 (s : State) :
    exec (.copys p o a b c e1 e2 e3) s = execCopys p o a b c e1 e2 e3 s := rfl
@[simp] theorem exec_copygG p o a b c e1 (s : State) :
    exec (.copygG p o a b c e1) s = execCopygG p o a b c e1 s := rfl
@[simp] theorem exec_copygS p o a b c e1 (s : State) :
    exec (.copygS p o a b c e1) s = execCopygS p o a b c e1 s := rfl
@[simp] theorem exec_cbatchOpen p (s : State) :
    exec (.cbatchOpen p) s = execCbatchOpen p s := rfl
@[simp] theorem exec_cbatchClose p (s : State) :
    exec (.cbatchClose p) s = execCbatchClose p s := rfl
@[simp] theorem exec_cwait p mask (s : State) :
    exec (.cwait p mask) s = execCwait p mask s := rfl
@[simp] theorem exec_cbinit p k count (s : State) :
    exec (.cbinit p k count) s = execCbinit p k count s := rfl
@[simp] theorem exec_cbwait p k (s : State) :
    exec (.cbwait p k) s = execCbwait p k s := rfl
@[simp] theorem exec_cqf p a (s : State) :
    exec (.cqf p a) s = execCqf p a s := rfl
@[simp] theorem exec_cstat p d (s : State) :
    exec (.cstat p d) s = execCstat p d s := rfl
@[simp] theorem exec_cstatBar p k d (s : State) :
    exec (.cstatBar p k d) s = execCstatBar p k d s := rfl
@[simp] theorem exec_tagl p d a (s : State) :
    exec (.tagl p d a) s = execTagl p d a s := rfl
@[simp] theorem exec_taglG p d a b (s : State) :
    exec (.taglG p d a b) s = execTaglG p d a b s := rfl
@[simp] theorem exec_tags p a b c (s : State) :
    exec (.tags p a b c) s = execTags p a b c s := rfl
@[simp] theorem exec_tagi p a (s : State) :
    exec (.tagi p a) s = execTagi p a s := rfl
@[simp] theorem exec_tagiAll p (s : State) :
    exec (.tagiAll p) s = execTagiAll p s := rfl
@[simp] theorem exec_tagiBlk p a (s : State) :
    exec (.tagiBlk p a) s = execTagiBlk p a s := rfl
@[simp] theorem exec_mtask p q d a (s : State) :
    exec (.mtask p q d a) s = execMtask p q d a s := rfl
@[simp] theorem exec_mtqry p d a (s : State) :
    exec (.mtqry p d a) s = execMtqry p d a s := rfl
@[simp] theorem exec_mtqryQ p d (s : State) :
    exec (.mtqryQ p d) s = execMtqryQ p d s := rfl
@[simp] theorem exec_mtcan p d a (s : State) :
    exec (.mtcan p d a) s = execMtcan p d a s := rfl
@[simp] theorem exec_lyrinit p d a b (s : State) :
    exec (.lyrinit p d a b) s = execLyrinit p d a b s := rfl
@[simp] theorem exec_lyrq p d a b (s : State) :
    exec (.lyrq p d a b) s = execLyrq p d a b s := rfl
@[simp] theorem exec_lyrqX p d b (s : State) :
    exec (.lyrqX p d b) s = execLyrqX p d b s := rfl
@[simp] theorem exec_lyrqW p d b (s : State) :
    exec (.lyrqW p d b) s = execLyrqW p d b s := rfl
@[simp] theorem exec_lyrref p d a (s : State) :
    exec (.lyrref p d a) s = execLyrref p d a s := rfl
@[simp] theorem exec_lyrdrop p d a (s : State) :
    exec (.lyrdrop p d a) s = execLyrdrop p d a s := rfl
@[simp] theorem exec_fence p scope order (s : State) :
    exec (.fence p scope order) s = execFence p scope order s := rfl
@[simp] theorem exec_bar p k (s : State) :
    exec (.bar p k) s = execBar p k s := rfl
@[simp] theorem exec_barComb p k a (s : State) :
    exec (.barComb p k a) s = execBarComb p k a s := rfl
@[simp] theorem exec_trig p (s : State) :
    exec (.trig p) s = execTrig p s := rfl
@[simp] theorem exec_waitl p host d a b (s : State) :
    exec (.waitl p host d a b) s = execWaitl p host d a b s := rfl
@[simp] theorem exec_waitlDl p host d a b c (s : State) :
    exec (.waitlDl p host d a b c) s = execWaitlDl p host d a b c s := rfl
@[simp] theorem exec_sleep p d a (s : State) :
    exec (.sleep p d a) s = execSleep p d a s := rfl
@[simp] theorem exec_sleepM p d a (s : State) :
    exec (.sleepM p d a) s = execSleepM p d a s := rfl
@[simp] theorem exec_yield p (s : State) :
    exec (.yield p) s = execYield p s := rfl
@[simp] theorem exec_spawn p pin a (s : State) :
    exec (.spawn p pin a) s = execSpawn p pin a s := rfl
@[simp] theorem exec_tpop p d (s : State) :
    exec (.tpop p d) s = execTpop p d s := rfl
@[simp] theorem exec_tstart p d a b c (s : State) :
    exec (.tstart p d a b c) s = execTstart p d a b c s := rfl
@[simp] theorem exec_treap p d a (s : State) :
    exec (.treap p d a) s = execTreap p d a s := rfl
@[simp] theorem exec_texit p (s : State) :
    exec (.texit p) s = execTexit p s := rfl
@[simp] theorem exec_rqpush p a b (s : State) :
    exec (.rqpush p a b) s = execRqpush p a b s := rfl
@[simp] theorem exec_rqpushCore p a b c (s : State) :
    exec (.rqpushCore p a b c) s = execRqpushCore p a b c s := rfl
@[simp] theorem exec_rqpop p d (s : State) :
    exec (.rqpop p d) s = execRqpop p d s := rfl
@[simp] theorem exec_rqpopP p d a (s : State) :
    exec (.rqpopP p d a) s = execRqpopP p d a s := rfl
@[simp] theorem exec_rqpopCnt p d (s : State) :
    exec (.rqpopCnt p d) s = execRqpopCnt p d s := rfl
@[simp] theorem exec_preempt p d a b (s : State) :
    exec (.preempt p d a b) s = execPreempt p d a b s := rfl
@[simp] theorem exec_preemptQ p d a (s : State) :
    exec (.preemptQ p d a) s = execPreemptQ p d a s := rfl
@[simp] theorem exec_evac p d a b (s : State) :
    exec (.evac p d a b) s = execEvac p d a b s := rfl
@[simp] theorem exec_send p st en a b (s : State) :
    exec (.send p st en a b) s = execSend p st en a b s := rfl
@[simp] theorem exec_recv p d c (s : State) :
    exec (.recv p d c) s = execRecv p d c s := rfl
@[simp] theorem exec_recvT p d c (s : State) :
    exec (.recvT p d c) s = execRecvT p d c s := rfl
@[simp] theorem exec_timer p a (s : State) :
    exec (.timer p a) s = execTimer p a s := rfl
@[simp] theorem exec_timerRel p a (s : State) :
    exec (.timerRel p a) s = execTimerRel p a s := rfl
@[simp] theorem exec_timerOff p (s : State) :
    exec (.timerOff p) s = execTimerOff p s := rfl
@[simp] theorem exec_trap p code (s : State) :
    exec (.trap p code) s = execTrap p code s := rfl
@[simp] theorem exec_eret p (s : State) :
    exec (.eret p) s = execEret p s := rfl
@[simp] theorem exec_eretNext p (s : State) :
    exec (.eretNext p) s = execEretNext p s := rfl
@[simp] theorem exec_movsRead p d sr (s : State) :
    exec (.movsRead p d sr) s = execMovsRead p d sr s := rfl
@[simp] theorem exec_movsWrite p sr a (s : State) :
    exec (.movsWrite p sr a) s = execMovsWrite p sr a s := rfl
@[simp] theorem exec_movcRead p d sr (s : State) :
    exec (.movcRead p d sr) s = execMovcRead p d sr s := rfl
@[simp] theorem exec_movcWrite p sr a (s : State) :
    exec (.movcWrite p sr a) s = execMovcWrite p sr a s := rfl
@[simp] theorem exec_tlbiVa p a b (s : State) :
    exec (.tlbiVa p a b) s = execTlbiVa p a b s := rfl
@[simp] theorem exec_tlbiAsid p b (s : State) :
    exec (.tlbiAsid p b) s = execTlbiAsid p b s := rfl
@[simp] theorem exec_tlbiAll p (s : State) :
    exec (.tlbiAll p) s = execTlbiAll p s := rfl
@[simp] theorem exec_tlbsync p (s : State) :
    exec (.tlbsync p) s = execTlbsync p s := rfl
@[simp] theorem exec_fltrd p d a b (s : State) :
    exec (.fltrd p d a b) s = execFltrd p d a b s := rfl
@[simp] theorem exec_fltrpl p a b (s : State) :
    exec (.fltrpl p a b) s = execFltrpl p a b s := rfl
@[simp] theorem exec_emur p d a b (s : State) :
    exec (.emur p d a b) s = execEmur p d a b s := rfl
@[simp] theorem exec_emuw p a b c (s : State) :
    exec (.emuw p a b c) s = execEmuw p a b c s := rfl
@[simp] theorem exec_holdt p d a (s : State) :
    exec (.holdt p d a) s = execHoldt p d a s := rfl
@[simp] theorem exec_resumet p d a (s : State) :
    exec (.resumet p d a) s = execResumet p d a s := rfl
@[simp] theorem exec_snap p (s : State) :
    exec (.snap p) s = execSnap p s := rfl
@[simp] theorem exec_cntrd p d a (s : State) :
    exec (.cntrd p d a) s = execCntrd p d a s := rfl
@[simp] theorem exec_cntclr p a (s : State) :
    exec (.cntclr p a) s = execCntclr p a s := rfl
@[simp] theorem exec_waym p d a (s : State) :
    exec (.waym p d a) s = execWaym p d a s := rfl
@[simp] theorem exec_sgway p d a (s : State) :
    exec (.sgway p d a) s = execSgway p d a s := rfl
@[simp] theorem exec_illegalEncoding (s : State) :
    exec (.illegalEncoding) s = execIllegalEncoding s := rfl
@[simp] theorem exec_emulationRequest (s : State) :
    exec (.emulationRequest) s = execEmulationRequest s := rfl
@[simp] theorem exec_fetchBlockFill (s : State) :
    exec (.fetchBlockFill) s = execFetchBlockFill s := rfl
@[simp] theorem exec_longLatencyComplete (s : State) :
    exec (.longLatencyComplete) s = execLongLatencyComplete s := rfl
@[simp] theorem exec_bankAccess (s : State) :
    exec (.bankAccess) s = execBankAccess s := rfl
@[simp] theorem exec_suspension (s : State) :
    exec (.suspension) s = execSuspension s := rfl
@[simp] theorem exec_waiterRetry (s : State) :
    exec (.waiterRetry) s = execWaiterRetry s := rfl
@[simp] theorem exec_blockReadAtHome (s : State) :
    exec (.blockReadAtHome) s = execBlockReadAtHome s := rfl
@[simp] theorem exec_blockWriteGranule (s : State) :
    exec (.blockWriteGranule) s = execBlockWriteGranule s := rfl
@[simp] theorem exec_blockFillRelease (s : State) :
    exec (.blockFillRelease) s = execBlockFillRelease s := rfl
@[simp] theorem exec_drainDescriptor (s : State) :
    exec (.drainDescriptor) s = execDrainDescriptor s := rfl
@[simp] theorem exec_clrAtHome (s : State) :
    exec (.clrAtHome) s = execClrAtHome s := rfl
@[simp] theorem exec_watchIncrement (s : State) :
    exec (.watchIncrement) s = execWatchIncrement s := rfl
@[simp] theorem exec_deferredTrapReport (s : State) :
    exec (.deferredTrapReport) s = execDeferredTrapReport s := rfl
@[simp] theorem exec_trapDelivery (s : State) :
    exec (.trapDelivery) s = execTrapDelivery s := rfl
@[simp] theorem exec_dispatch (s : State) :
    exec (.dispatch) s = execDispatch s := rfl
@[simp] theorem exec_steal (s : State) :
    exec (.steal) s = execSteal s := rfl
@[simp] theorem exec_dispatchRetry (s : State) :
    exec (.dispatchRetry) s = execDispatchRetry s := rfl
@[simp] theorem exec_ringRefill (s : State) :
    exec (.ringRefill) s = execRingRefill s := rfl
@[simp] theorem exec_groupLoadRefresh (s : State) :
    exec (.groupLoadRefresh) s = execGroupLoadRefresh s := rfl
@[simp] theorem exec_pushBalance (s : State) :
    exec (.pushBalance) s = execPushBalance s := rfl
@[simp] theorem exec_wakeMessage (s : State) :
    exec (.wakeMessage) s = execWakeMessage s := rfl
@[simp] theorem exec_resumeContinuation (s : State) :
    exec (.resumeContinuation) s = execResumeContinuation s := rfl
@[simp] theorem exec_launchTableFill (s : State) :
    exec (.launchTableFill) s = execLaunchTableFill s := rfl
@[simp] theorem exec_launchAccept (s : State) :
    exec (.launchAccept) s = execLaunchAccept s := rfl
@[simp] theorem exec_gangPlace (s : State) :
    exec (.gangPlace) s = execGangPlace s := rfl
@[simp] theorem exec_gangOffer (s : State) :
    exec (.gangOffer) s = execGangOffer s := rfl
@[simp] theorem exec_triggerWrite (s : State) :
    exec (.triggerWrite) s = execTriggerWrite s := rfl
@[simp] theorem exec_completionWrite (s : State) :
    exec (.completionWrite) s = execCompletionWrite s := rfl
@[simp] theorem exec_postedAck (s : State) :
    exec (.postedAck) s = execPostedAck s := rfl
@[simp] theorem exec_preemptTakeEffect (s : State) :
    exec (.preemptTakeEffect) s = execPreemptTakeEffect s := rfl
@[simp] theorem exec_saveWrite (s : State) :
    exec (.saveWrite) s = execSaveWrite s := rfl
@[simp] theorem exec_restore (s : State) :
    exec (.restore) s = execRestore s := rfl
@[simp] theorem exec_haltTakeEffect (s : State) :
    exec (.haltTakeEffect) s = execHaltTakeEffect s := rfl
@[simp] theorem exec_holdtTimeout (s : State) :
    exec (.holdtTimeout) s = execHoldtTimeout s := rfl
@[simp] theorem exec_deadlockDeclare (s : State) :
    exec (.deadlockDeclare) s = execDeadlockDeclare s := rfl
@[simp] theorem exec_timerFire (s : State) :
    exec (.timerFire) s = execTimerFire s := rfl
@[simp] theorem exec_sleepDeadline (s : State) :
    exec (.sleepDeadline) s = execSleepDeadline s := rfl
@[simp] theorem exec_waitlWake (s : State) :
    exec (.waitlWake) s = execWaitlWake s := rfl
@[simp] theorem exec_waitlPoll (s : State) :
    exec (.waitlPoll) s = execWaitlPoll s := rfl
@[simp] theorem exec_barrierResume (s : State) :
    exec (.barrierResume) s = execBarrierResume s := rfl
@[simp] theorem exec_mailboxArrival (s : State) :
    exec (.mailboxArrival) s = execMailboxArrival s := rfl
@[simp] theorem exec_gangStartRecord (s : State) :
    exec (.gangStartRecord) s = execGangStartRecord s := rfl
@[simp] theorem exec_supervisorNotice (s : State) :
    exec (.supervisorNotice) s = execSupervisorNotice s := rfl
@[simp] theorem exec_copyAdmit (s : State) :
    exec (.copyAdmit) s = execCopyAdmit s := rfl
@[simp] theorem exec_copyBeat (s : State) :
    exec (.copyBeat) s = execCopyBeat s := rfl
@[simp] theorem exec_copyCommandComplete (s : State) :
    exec (.copyCommandComplete) s = execCopyCommandComplete s := rfl
@[simp] theorem exec_copyCommandEnd (s : State) :
    exec (.copyCommandEnd) s = execCopyCommandEnd s := rfl
@[simp] theorem exec_taskAccept (s : State) :
    exec (.taskAccept) s = execTaskAccept s := rfl
@[simp] theorem exec_taskPresenceCheck (s : State) :
    exec (.taskPresenceCheck) s = execTaskPresenceCheck s := rfl
@[simp] theorem exec_taskIssue (s : State) :
    exec (.taskIssue) s = execTaskIssue s := rfl
@[simp] theorem exec_configurationChange (s : State) :
    exec (.configurationChange) s = execConfigurationChange s := rfl
@[simp] theorem exec_taskKstep (s : State) :
    exec (.taskKstep) s = execTaskKstep s := rfl
@[simp] theorem exec_taskDWrite (s : State) :
    exec (.taskDWrite) s = execTaskDWrite s := rfl
@[simp] theorem exec_taskComplete (s : State) :
    exec (.taskComplete) s = execTaskComplete s := rfl
@[simp] theorem exec_taskEndError (s : State) :
    exec (.taskEndError) s = execTaskEndError s := rfl
@[simp] theorem exec_taskFault (s : State) :
    exec (.taskFault) s = execTaskFault s := rfl
@[simp] theorem exec_graftInvocation (s : State) :
    exec (.graftInvocation) s = execGraftInvocation s := rfl
@[simp] theorem exec_graftRestart (s : State) :
    exec (.graftRestart) s = execGraftRestart s := rfl
@[simp] theorem exec_graftCommit (s : State) :
    exec (.graftCommit) s = execGraftCommit s := rfl
@[simp] theorem exec_faultPost (s : State) :
    exec (.faultPost) s = execFaultPost s := rfl
@[simp] theorem exec_faultTableRetry (s : State) :
    exec (.faultTableRetry) s = execFaultTableRetry s := rfl
@[simp] theorem exec_faultReplay (s : State) :
    exec (.faultReplay) s = execFaultReplay s := rfl
@[simp] theorem exec_walk (s : State) :
    exec (.walk) s = execWalk s := rfl
@[simp] theorem exec_remoteRequest (s : State) :
    exec (.remoteRequest) s = execRemoteRequest s := rfl
@[simp] theorem exec_remoteRetry (s : State) :
    exec (.remoteRetry) s = execRemoteRetry s := rfl
@[simp] theorem exec_remoteTokenWake (s : State) :
    exec (.remoteTokenWake) s = execRemoteTokenWake s := rfl
@[simp] theorem exec_farAtomic (s : State) :
    exec (.farAtomic) s = execFarAtomic s := rfl
@[simp] theorem exec_scrub (s : State) :
    exec (.scrub) s = execScrub s := rfl
@[simp] theorem exec_routerFailure (s : State) :
    exec (.routerFailure) s = execRouterFailure s := rfl
@[simp] theorem exec_routingTableLoad (s : State) :
    exec (.routingTableLoad) s = execRoutingTableLoad s := rfl
@[simp] theorem exec_rds (s : State) :
    exec (.rds) s = execRds s := rfl
@[simp] theorem exec_rdx (s : State) :
    exec (.rdx) s = execRdx s := rfl
@[simp] theorem exec_upg (s : State) :
    exec (.upg) s = execUpg s := rfl
@[simp] theorem exec_wbd (s : State) :
    exec (.wbd) s = execWbd s := rfl
@[simp] theorem exec_inv (s : State) :
    exec (.inv) s = execInv s := rfl
@[simp] theorem exec_fwds (s : State) :
    exec (.fwds) s = execFwds s := rfl
@[simp] theorem exec_fwdx (s : State) :
    exec (.fwdx) s = execFwdx s := rfl
@[simp] theorem exec_invack (s : State) :
    exec (.invack) s = execInvack s := rfl
@[simp] theorem exec_data (s : State) :
    exec (.data) s = execData s := rfl
@[simp] theorem exec_datax (s : State) :
    exec (.datax) s = execDatax s := rfl
@[simp] theorem exec_cmpMsg (s : State) :
    exec (.cmpMsg) s = execCmpMsg s := rfl
@[simp] theorem exec_memrdData (s : State) :
    exec (.memrdData) s = execMemrdData s := rfl
@[simp] theorem exec_memwrAck (s : State) :
    exec (.memwrAck) s = execMemwrAck s := rfl
@[simp] theorem exec_snoopFilterEvict (s : State) :
    exec (.snoopFilterEvict) s = execSnoopFilterEvict s := rfl
@[simp] theorem exec_directoryRecall (s : State) :
    exec (.directoryRecall) s = execDirectoryRecall s := rfl
@[simp] theorem exec_sliceFailure (s : State) :
    exec (.sliceFailure) s = execSliceFailure s := rfl
@[simp] theorem exec_censusQuery (s : State) :
    exec (.censusQuery) s = execCensusQuery s := rfl
@[simp] theorem exec_censusReport (s : State) :
    exec (.censusReport) s = execCensusReport s := rfl
@[simp] theorem exec_censusEnd (s : State) :
    exec (.censusEnd) s = execCensusEnd s := rfl
@[simp] theorem exec_containment (s : State) :
    exec (.containment) s = execContainment s := rfl
@[simp] theorem exec_agentAnswerTimeout (s : State) :
    exec (.agentAnswerTimeout) s = execAgentAnswerTimeout s := rfl
@[simp] theorem exec_containmentNotice (s : State) :
    exec (.containmentNotice) s = execContainmentNotice s := rfl
@[simp] theorem exec_agentRejoin (s : State) :
    exec (.agentRejoin) s = execAgentRejoin s := rfl
@[simp] theorem exec_flitReceive (s : State) :
    exec (.flitReceive) s = execFlitReceive s := rfl
@[simp] theorem exec_linkNak (s : State) :
    exec (.linkNak) s = execLinkNak s := rfl
@[simp] theorem exec_linkDown (s : State) :
    exec (.linkDown) s = execLinkDown s := rfl
@[simp] theorem exec_reserve (s : State) :
    exec (.reserve) s = execReserve s := rfl
@[simp] theorem exec_rack (s : State) :
    exec (.rack) s = execRack s := rfl
@[simp] theorem exec_rnak (s : State) :
    exec (.rnak) s = execRnak s := rfl
@[simp] theorem exec_release (s : State) :
    exec (.release) s = execRelease s := rfl
@[simp] theorem exec_go (s : State) :
    exec (.go) s = execGo s := rfl
@[simp] theorem exec_started (s : State) :
    exec (.started) s = execStarted s := rfl
@[simp] theorem exec_startedTimeout (s : State) :
    exec (.startedTimeout) s = execStartedTimeout s := rfl
@[simp] theorem exec_halt (s : State) :
    exec (.halt) s = execHalt s := rfl
@[simp] theorem exec_trigMessage (s : State) :
    exec (.trigMessage) s = execTrigMessage s := rfl
@[simp] theorem exec_done (s : State) :
    exec (.done) s = execDone s := rfl
@[simp] theorem exec_apertureRead (s : State) :
    exec (.apertureRead) s = execApertureRead s := rfl
@[simp] theorem exec_apertureWrite (s : State) :
    exec (.apertureWrite) s = execApertureWrite s := rfl
@[simp] theorem exec_apertureFaultTimeout (s : State) :
    exec (.apertureFaultTimeout) s = execApertureFaultTimeout s := rfl
@[simp] theorem exec_pcieUnsupported (s : State) :
    exec (.pcieUnsupported) s = execPcieUnsupported s := rfl
@[simp] theorem exec_qcreate (s : State) :
    exec (.qcreate) s = execQcreate s := rfl
@[simp] theorem exec_qdestroy (s : State) :
    exec (.qdestroy) s = execQdestroy s := rfl
@[simp] theorem exec_queueFetch (s : State) :
    exec (.queueFetch) s = execQueueFetch s := rfl
@[simp] theorem exec_startRecord (s : State) :
    exec (.startRecord) s = execStartRecord s := rfl
@[simp] theorem exec_partitionControl (s : State) :
    exec (.partitionControl) s = execPartitionControl s := rfl
@[simp] theorem exec_registerWrite (s : State) :
    exec (.registerWrite) s = execRegisterWrite s := rfl
@[simp] theorem exec_debugSelect (s : State) :
    exec (.debugSelect) s = execDebugSelect s := rfl
@[simp] theorem exec_coldReset (s : State) :
    exec (.coldReset) s = execColdReset s := rfl
@[simp] theorem exec_partitionReset (s : State) :
    exec (.partitionReset) s = execPartitionReset s := rfl
@[simp] theorem exec_lifeCycleChange (s : State) :
    exec (.lifeCycleChange) s = execLifeCycleChange s := rfl
@[simp] theorem exec_wipeDone (s : State) :
    exec (.wipeDone) s = execWipeDone s := rfl
@[simp] theorem exec_firmwareVerify (s : State) :
    exec (.firmwareVerify) s = execFirmwareVerify s := rfl
@[simp] theorem exec_recoveryLoad (s : State) :
    exec (.recoveryLoad) s = execRecoveryLoad s := rfl
@[simp] theorem exec_attestationRequest (s : State) :
    exec (.attestationRequest) s = execAttestationRequest s := rfl
@[simp] theorem exec_cxlDynamicCapacity (s : State) :
    exec (.cxlDynamicCapacity) s = execCxlDynamicCapacity s := rfl
@[simp] theorem exec_powerLimit (s : State) :
    exec (.powerLimit) s = execPowerLimit s := rfl
@[simp] theorem exec_powerLimitClear (s : State) :
    exec (.powerLimitClear) s = execPowerLimitClear s := rfl
@[simp] theorem exec_overtemperature (s : State) :
    exec (.overtemperature) s = execOvertemperature s := rfl
@[simp] theorem exec_channelHalfWidth (s : State) :
    exec (.channelHalfWidth) s = execChannelHalfWidth s := rfl
@[simp] theorem exec_snapIn (s : State) :
    exec (.snapIn) s = execSnapIn s := rfl
@[simp] theorem exec_snapshotThreshold (s : State) :
    exec (.snapshotThreshold) s = execSnapshotThreshold s := rfl
@[simp] theorem exec_snapshotLatch (s : State) :
    exec (.snapshotLatch) s = execSnapshotLatch s := rfl
@[simp] theorem exec_machineCheck (s : State) :
    exec (.machineCheck) s = execMachineCheck s := rfl
@[simp] theorem exec_meshCreditReturn (s : State) :
    exec (.meshCreditReturn) s = execMeshCreditReturn s := rfl
@[simp] theorem exec_probeEcho (s : State) :
    exec (.probeEcho) s = execProbeEcho s := rfl
@[simp] theorem exec_evacAcknowledged (s : State) :
    exec (.evacAcknowledged) s = execEvacAcknowledged s := rfl
@[simp] theorem exec_tlbiTakesEffect (s : State) :
    exec (.tlbiTakesEffect) s = execTlbiTakesEffect s := rfl
@[simp] theorem exec_emulationRoundTrip (s : State) :
    exec (.emulationRoundTrip) s = execEmulationRoundTrip s := rfl
@[simp] theorem exec_graftTableAccessReturn (s : State) :
    exec (.graftTableAccessReturn) s = execGraftTableAccessReturn s := rfl
@[simp] theorem exec_storeWipeDone (s : State) :
    exec (.storeWipeDone) s = execStoreWipeDone s := rfl
@[simp] theorem exec_haltAnswer (s : State) :
    exec (.haltAnswer) s = execHaltAnswer s := rfl
@[simp] theorem exec_channelFullWidth (s : State) :
    exec (.channelFullWidth) s = execChannelFullWidth s := rfl

end Sys2Proof.Machine
end

