-- ==== Sys2Proof/Laws/Events.lean ====
section
/-! SUPPORT. What each step of the hardware answers when the state names its event. -/
namespace Sys2Proof.Machine

theorem run_longLatencyComplete {s : State} {c o r} (he : s.ev = some (.longLatencyComplete c o r)) : exec .longLatencyComplete s =
      .next (s.longLatencyComplete c o r) := by
  rw [exec_longLatencyComplete]; unfold execLongLatencyComplete; rw [he]
theorem run_agentReply {s : State} {who r} (he : s.ev = some (.agentReply who r)) : exec .longLatencyComplete s =
      .next (s.agentReply who r) := by
  rw [exec_longLatencyComplete]; unfold execLongLatencyComplete; rw [he]
theorem run_bankAccess {s : State} {h b} (he : s.ev = some (.bankAccess h b)) : exec .bankAccess s =
      .next (s.bankAccess h b) := by
  rw [exec_bankAccess]; unfold execBankAccess; rw [he]
theorem run_blockReadAtHome {s : State} {who u1} (he : s.ev = some (.blockReadAtHome who u1)) : exec .blockReadAtHome s =
      .next (s.atHome who) := by
  rw [exec_blockReadAtHome]; unfold execBlockReadAtHome; rw [he]
theorem run_blockWriteGranule {s : State} {who u1} (he : s.ev = some (.blockWriteGranule who u1)) : exec .blockWriteGranule s =
      .next (s.atHome who) := by
  rw [exec_blockWriteGranule]; unfold execBlockWriteGranule; rw [he]
theorem run_waiterRetry {s : State} {who} (he : s.ev = some (.waiterRetry who)) : exec .waiterRetry s =
      .next (s.waiterRetry who) := by
  rw [exec_waiterRetry]; unfold execWaiterRetry; rw [he]
theorem run_blockFillRelease {s : State} {blk n who} (he : s.ev = some (.blockFillRelease blk n who)) : exec .blockFillRelease s =
      .next (s.blockFillRelease blk n who) := by
  rw [exec_blockFillRelease]; unfold execBlockFillRelease; rw [he]
theorem run_clrAtHome {s : State} {who i} (he : s.ev = some (.clrAtHome who i)) : exec .clrAtHome s =
      .next (s.clrAtHome who i) := by
  rw [exec_clrAtHome]; unfold execClrAtHome; rw [he]
theorem run_watchIncrement {s : State} {who i} (he : s.ev = some (.watchIncrement who i)) : exec .watchIncrement s =
      .next (s.watchIncrement who i) := by
  rw [exec_watchIncrement]; unfold execWatchIncrement; rw [he]
theorem run_drainDescriptor {s : State} {blk n} (he : s.ev = some (.drainDescriptor blk n)) : exec .drainDescriptor s =
      .next (s.drainDescriptor blk n) := by
  rw [exec_drainDescriptor]; unfold execDrainDescriptor; rw [he]
theorem run_deferredTrapReport {s : State} {c x tid t} (he : s.ev = some (.deferredTrapReport c x tid t)) : exec .deferredTrapReport s =
      .next (if (s.ctx c x).tid = tid ∧ (s.ctx c x).st ≠ .empty ∧ (s.ctx c x).st ≠ .reserved then
        let s := s.raiseDeferred c x t
        if (s.ctx c x).inHandler then s.wakeCopyPark c x else s
      else s) := by
  rw [exec_deferredTrapReport]; unfold execDeferredTrapReport; rw [he]
theorem run_trapDelivery {s : State} {c x} (he : s.ev = some (.trapDelivery c x)) : exec .trapDelivery s =
      .next (s.trapDelivery c x) := by
  rw [exec_trapDelivery]; unfold execTrapDelivery; rw [he]
theorem run_machineCheck {s : State} {src key who} (he : s.ev = some (.machineCheck src key who)) : exec .machineCheck s =
      .next (s.machineCheck src key who) := by
  rw [exec_machineCheck]; unfold execMachineCheck; rw [he]
theorem run_postedAck {s : State} {id r} (he : s.ev = some (.postedAck id r)) : exec .postedAck s =
      .next (s.postedAck id r) := by
  rw [exec_postedAck]; unfold execPostedAck; rw [he]
theorem run_supervisorNotice {s : State} {d n} (he : s.ev = some (.supervisorNotice d n)) : exec .supervisorNotice s =
      .next (s.supervisorNotice d n) := by
  rw [exec_supervisorNotice]; unfold execSupervisorNotice; rw [he]
theorem run_illegalEncoding {s : State} {c x r} (he : s.ev = some (.illegalEncoding c x r)) : exec .illegalEncoding s =
      .next (s.illegalEncoding c x (r % 16) (r / 16)) := by
  rw [exec_illegalEncoding]; unfold execIllegalEncoding; rw [he]
theorem run_emulationRequest {s : State} {c x r} (he : s.ev = some (.emulationRequest c x r)) : exec .emulationRequest s =
      .next (s.emulationRequest c x r) := by
  rw [exec_emulationRequest]; unfold execEmulationRequest; rw [he]
theorem run_walk {s : State} {g id} (he : s.ev = some (.walk g id)) : exec .walk s =
      .next (s.walk g id) := by
  rw [exec_walk]; unfold execWalk; rw [he]
theorem run_faultPost {s : State} {who f} (he : s.ev = some (.faultPost who f)) : exec .faultPost s =
      .next (s.faultPost who f) := by
  rw [exec_faultPost]; unfold execFaultPost; rw [he]
theorem run_faultTableRetry {s : State} {who} (he : s.ev = some (.faultTableRetry who)) : exec .faultTableRetry s =
      .next (s.replay who) := by
  rw [exec_faultTableRetry]; unfold execFaultTableRetry; rw [he]
theorem run_faultReplay {s : State} {t i o} (he : s.ev = some (.faultReplay t i o)) : exec .faultReplay s =
      .next (s.faultReplay t i o) := by
  rw [exec_faultReplay]; unfold execFaultReplay; rw [he]
theorem run_fetchBlockFill {s : State} {c x u2} (he : s.ev = some (.fetchBlockFill c x u2)) : exec .fetchBlockFill s =
      .next (s.fetchBlockFill c x) := by
  rw [exec_fetchBlockFill]; unfold execFetchBlockFill; rw [he]
theorem run_remoteRequest {s : State} {r} (he : s.ev = some (.remoteRequest r)) : exec .remoteRequest s =
      .next (s.remoteRequest r) := by
  rw [exec_remoteRequest]; unfold execRemoteRequest; rw [he]
theorem run_remoteRetry {s : State} {id} (he : s.ev = some (.remoteRetry id)) : exec .remoteRetry s =
      .next (s.remoteRetry id) := by
  rw [exec_remoteRetry]; unfold execRemoteRetry; rw [he]
theorem run_remoteTokenWake {s : State} {t} (he : s.ev = some (.remoteTokenWake t)) : exec .remoteTokenWake s =
      .next (s.remoteTokenWake t) := by
  rw [exec_remoteTokenWake]; unfold execRemoteTokenWake; rw [he]
theorem run_copyBeat {s : State} {c} (he : s.ev = some (.copyBeat c)) : exec .copyBeat s =
      .next (s.copyBeat c) := by
  rw [exec_copyBeat]; unfold execCopyBeat; rw [he]
theorem run_copyAdmit {s : State} {c x} (he : s.ev = some (.copyAdmit c x)) : exec .copyAdmit s =
      .next (s.copyAdmit c x) := by
  rw [exec_copyAdmit]; unfold execCopyAdmit; rw [he]
theorem run_copyCommandComplete {s : State} {c q} (he : s.ev = some (.copyCommandComplete c q)) : exec .copyCommandComplete s =
      .next (s.copyComplete c q) := by
  rw [exec_copyCommandComplete]; unfold execCopyCommandComplete; rw [he]
theorem run_copyCommandEnd {s : State} {c q cause detail} (he : s.ev = some (.copyCommandEnd c q cause detail)) : exec .copyCommandEnd s =
      .next (s.copyEnd c q cause detail) := by
  rw [exec_copyCommandEnd]; unfold execCopyCommandEnd; rw [he]
theorem run_probeEcho {s : State} {c x tid} (he : s.ev = some (.probeEcho c x tid)) : exec .probeEcho s =
      .next (s.probeEcho c x tid) := by
  rw [exec_probeEcho]; unfold execProbeEcho; rw [he]
theorem run_barrierResume {s : State} {n i k} (he : s.ev = some (.barrierResume n i k)) : exec .barrierResume s =
      .next (s.barrierResume n i k) := by
  rw [exec_barrierResume]; unfold execBarrierResume; rw [he]
theorem run_waitlWake {s : State} {c x tid} (he : s.ev = some (.waitlWake c x tid)) : exec .waitlWake s =
      .next (s.waitlGo c x tid) := by
  rw [exec_waitlWake]; unfold execWaitlWake; rw [he]
theorem run_waitlPoll {s : State} {c x tid} (he : s.ev = some (.waitlPoll c x tid)) : exec .waitlPoll s =
      .next (s.waitlGo c x tid) := by
  rw [exec_waitlPoll]; unfold execWaitlPoll; rw [he]
theorem run_sleepDeadline {s : State} {c x tid} (he : s.ev = some (.sleepDeadline c x tid)) : exec .sleepDeadline s =
      .next (s.sleepDeadline c x tid) := by
  rw [exec_sleepDeadline]; unfold execSleepDeadline; rw [he]
theorem run_suspension {s : State} {c x o} (he : s.ev = some (.suspension c x o)) : exec .suspension s =
      .next (s.suspension c x o) := by
  rw [exec_suspension]; unfold execSuspension; rw [he]
theorem run_ringRefill {s : State} {c} (he : s.ev = some (.ringRefill c)) : exec .ringRefill s =
      .next (s.ringRefill c) := by
  rw [exec_ringRefill]; unfold execRingRefill; rw [he]
theorem run_resumeContinuation {s : State} {c x} (he : s.ev = some (.resumeContinuation c x)) : exec .resumeContinuation s =
      .next (s.fillGo c x) := by
  rw [exec_resumeContinuation]; unfold execResumeContinuation; rw [he]
theorem run_restore {s : State} {c x} (he : s.ev = some (.restore c x)) : exec .restore s =
      .next (s.fillGo c x) := by
  rw [exec_restore]; unfold execRestore; rw [he]
theorem run_launchTableFill {s : State} {d n} (he : s.ev = some (.launchTableFill d n)) : exec .launchTableFill s =
      .next (s.launchTableFill d n) := by
  rw [exec_launchTableFill]; unfold execLaunchTableFill; rw [he]
theorem run_dispatch {s : State} {c x} (he : s.ev = some (.dispatch c x)) : exec .dispatch s =
      .next (s.dispatch c x) := by
  rw [exec_dispatch]; unfold execDispatch; rw [he]
theorem run_dispatchRetry {s : State} {c x} (he : s.ev = some (.dispatchRetry c x)) : exec .dispatchRetry s =
      .next (s.dispatch c x) := by
  rw [exec_dispatchRetry]; unfold execDispatchRetry; rw [he]
theorem run_steal {s : State} {c x i} (he : s.ev = some (.steal c x i)) : exec .steal s =
      .next (s.steal c x i) := by
  rw [exec_steal]; unfold execSteal; rw [he]
theorem run_wakeMessage {s : State} {c e} (he : s.ev = some (.wakeMessage c e)) : exec .wakeMessage s =
      .next ((s.pushRq c e).after 1 (.pushBalance c)) := by
  rw [exec_wakeMessage]; unfold execWakeMessage; rw [he]
theorem run_groupLoadRefresh {s : State} {g} (he : s.ev = some (.groupLoadRefresh g)) : exec .groupLoadRefresh s =
      .next (s.groupLoadRefresh g) := by
  rw [exec_groupLoadRefresh]; unfold execGroupLoadRefresh; rw [he]
theorem run_pushBalance {s : State} {c} (he : s.ev = some (.pushBalance c)) : exec .pushBalance s =
      .next (s.pushBalance c) := by
  rw [exec_pushBalance]; unfold execPushBalance; rw [he]
theorem run_preemptTakeEffect {s : State} {c x} (he : s.ev = some (.preemptTakeEffect c x)) : exec .preemptTakeEffect s =
      .next (s.preemptTakeEffect c x) := by
  rw [exec_preemptTakeEffect]; unfold execPreemptTakeEffect; rw [he]
theorem run_saveWrite {s : State} {c x} (he : s.ev = some (.saveWrite c x)) : exec .saveWrite s =
      .next (s.saveWrite c x) := by
  rw [exec_saveWrite]; unfold execSaveWrite; rw [he]
theorem run_evacAcknowledged {s : State} {c} (he : s.ev = some (.evacAcknowledged c)) : exec .evacAcknowledged s =
      .next (s.evacGo c) := by
  rw [exec_evacAcknowledged]; unfold execEvacAcknowledged; rw [he]
theorem run_haltTakeEffect {s : State} {c x} (he : s.ev = some (.haltTakeEffect c x)) : exec .haltTakeEffect s =
      .next (s.haltTakeEffect c x) := by
  rw [exec_haltTakeEffect]; unfold execHaltTakeEffect; rw [he]
theorem run_holdtTimeout {s : State} {c x u2} (he : s.ev = some (.holdtTimeout c x u2)) : exec .holdtTimeout s =
      .next (s.holdtTimeout c x) := by
  rw [exec_holdtTimeout]; unfold execHoldtTimeout; rw [he]
theorem run_emulationRoundTrip {s : State} {c x} (he : s.ev = some (.emulationRoundTrip c x)) : exec .emulationRoundTrip s =
      .next (s.emulationRoundTrip c x) := by
  rw [exec_emulationRoundTrip]; unfold execEmulationRoundTrip; rw [he]
theorem run_mailboxArrival {s : State} {m} (he : s.ev = some (.mailboxArrival m)) : exec .mailboxArrival s =
      .next ((s.modCore m.dst fun k => { k with inQ := k.inQ ++ [m] }).pump m.dst) := by
  rw [exec_mailboxArrival]; unfold execMailboxArrival; rw [he]
theorem run_gangStartRecord {s : State} {c r} (he : s.ev = some (.gangStartRecord c r)) : exec .gangStartRecord s =
      .next ((s.modCore c fun k => { k with inQ := k.inQ ++
      [{ dst := c, pkg := s.pkgNum, kind := 4, src := c, ctx := 0, asid := 0, first := true, last := true, data := r }] }).pump c) := by
  rw [exec_gangStartRecord]; unfold execGangStartRecord; rw [he]
theorem run_meshCreditReturn {s : State} {c} (he : s.ev = some (.meshCreditReturn c)) : exec .meshCreditReturn s =
      .next (s.meshCredit c) := by
  rw [exec_meshCreditReturn]; unfold execMeshCreditReturn; rw [he]
theorem run_timerFire {s : State} {c} (he : s.ev = some (.timerFire c)) : exec .timerFire s =
      .next (s.timerFire c) := by
  rw [exec_timerFire]; unfold execTimerFire; rw [he]
theorem run_storeWipeDone {s : State} {c} (he : s.ev = some (.storeWipeDone c)) : exec .storeWipeDone s =
      .next (s.storeWipeDone c) := by
  rw [exec_storeWipeDone]; unfold execStoreWipeDone; rw [he]
theorem run_tlbiTakesEffect {s : State} {c x} (he : s.ev = some (.tlbiTakesEffect c x)) : exec .tlbiTakesEffect s =
      .next (s.tlbiTakesEffect c x) := by
  rw [exec_tlbiTakesEffect]; unfold execTlbiTakesEffect; rw [he]
theorem run_gangPlace {s : State} {n d} (he : s.ev = some (.gangPlace n d)) : exec .gangPlace s =
      .next (s.gangPlace n d) := by
  rw [exec_gangPlace]; unfold execGangPlace; rw [he]
theorem run_gangOffer {s : State} {c x} (he : s.ev = some (.gangOffer c x)) : exec .gangOffer s =
      .next (s.gangOffer c x) := by
  rw [exec_gangOffer]; unfold execGangOffer; rw [he]
theorem run_launchAccept {s : State} {j} (he : s.ev = some (.launchAccept j)) : exec .launchAccept s =
      .next (s.launchAccept j) := by
  rw [exec_launchAccept]; unfold execLaunchAccept; rw [he]
theorem run_triggerWrite {s : State} {n} (he : s.ev = some (.triggerWrite n)) : exec .triggerWrite s =
      .next (s.triggerWrite n) := by
  rw [exec_triggerWrite]; unfold execTriggerWrite; rw [he]
theorem run_completionWrite {s : State} {n} (he : s.ev = some (.completionWrite n)) : exec .completionWrite s =
      .next (s.completionWrite n) := by
  rw [exec_completionWrite]; unfold execCompletionWrite; rw [he]
theorem run_reserve {s : State} {m} (he : s.ev = some (.reserve m)) : exec .reserve s =
      .next (s.reserveLaunch m) := by
  rw [exec_reserve]; unfold execReserve; rw [he]
theorem run_rack {s : State} {n p} (he : s.ev = some (.rack n p)) : exec .rack s =
      .next (s.rackMsg n p) := by
  rw [exec_rack]; unfold execRack; rw [he]
theorem run_rnak {s : State} {n u1} (he : s.ev = some (.rnak n u1)) : exec .rnak s =
      .next (s.rnakMsg n) := by
  rw [exec_rnak]; unfold execRnak; rw [he]
theorem run_release {s : State} {n} (he : s.ev = some (.release n)) : exec .release s =
      .next ((s.dropLaunch n).releaseGangs n) := by
  rw [exec_release]; unfold execRelease; rw [he]
theorem run_go {s : State} {n} (he : s.ev = some (.go n)) : exec .go s =
      .next (s.goLaunch n) := by
  rw [exec_go]; unfold execGo; rw [he]
theorem run_started {s : State} {n p} (he : s.ev = some (.started n p)) : exec .started s =
      .next (s.modLaunch n fun l => { l with starts := l.starts.erase p ++ [p] }) := by
  rw [exec_started]; unfold execStarted; rw [he]
theorem run_startedTimeout {s : State} {n} (he : s.ev = some (.startedTimeout n)) : exec .startedTimeout s =
      .next (s.startedTimeout n) := by
  rw [exec_startedTimeout]; unfold execStartedTimeout; rw [he]
theorem run_halt {s : State} {n c} (he : s.ev = some (.halt n c)) : exec .halt s =
      .next (s.haltLaunch n c) := by
  rw [exec_halt]; unfold execHalt; rw [he]
theorem run_haltAnswer {s : State} {n p} (he : s.ev = some (.haltAnswer n p)) : exec .haltAnswer s =
      .next (s.haltAnswer n p) := by
  rw [exec_haltAnswer]; unfold execHaltAnswer; rw [he]
theorem run_trigMessage {s : State} {n p} (he : s.ev = some (.trigMessage n p)) : exec .trigMessage s =
      .next (s.trigMsg n p) := by
  rw [exec_trigMessage]; unfold execTrigMessage; rw [he]
theorem run_done {s : State} {n p x} (he : s.ev = some (.done n p x)) : exec .done s =
      .next (s.doneMsg n p x) := by
  rw [exec_done]; unfold execDone; rw [he]
theorem run_deadlockDeclare {s : State} {p} (he : s.ev = some (.deadlockDeclare p)) : exec .deadlockDeclare s =
      .next (s.deadlockDeclare p) := by
  rw [exec_deadlockDeclare]; unfold execDeadlockDeclare; rw [he]
theorem run_taskAccept {s : State} {g t} (he : s.ev = some (.taskAccept g t)) : exec .taskAccept s =
      .next (s.taskAccept g t) := by
  rw [exec_taskAccept]; unfold execTaskAccept; rw [he]
theorem run_taskPresenceCheck {s : State} {g t} (he : s.ev = some (.taskPresenceCheck g t)) : exec .taskPresenceCheck s =
      .next (s.taskPresence g t) := by
  rw [exec_taskPresenceCheck]; unfold execTaskPresenceCheck; rw [he]
theorem run_taskIssue {s : State} {g} (he : s.ev = some (.taskIssue g)) : exec .taskIssue s =
      .next (s.taskIssue g) := by
  rw [exec_taskIssue]; unfold execTaskIssue; rw [he]
theorem run_configurationChange {s : State} {g t} (he : s.ev = some (.configurationChange g t)) : exec .configurationChange s =
      .next (s.configurationChange g t) := by
  rw [exec_configurationChange]; unfold execConfigurationChange; rw [he]
theorem run_taskKstep {s : State} {g t} (he : s.ev = some (.taskKstep g t)) : exec .taskKstep s =
      .next (s.taskKstep g t) := by
  rw [exec_taskKstep]; unfold execTaskKstep; rw [he]
theorem run_taskDWrite {s : State} {g t} (he : s.ev = some (.taskDWrite g t)) : exec .taskDWrite s =
      .next (s.taskDWrite g t) := by
  rw [exec_taskDWrite]; unfold execTaskDWrite; rw [he]
theorem run_taskComplete {s : State} {g t} (he : s.ev = some (.taskComplete g t)) : exec .taskComplete s =
      .next (s.taskComplete g t) := by
  rw [exec_taskComplete]; unfold execTaskComplete; rw [he]
theorem run_taskEndError {s : State} {g t c} (he : s.ev = some (.taskEndError g t c)) : exec .taskEndError s =
      .next (s.taskEndError g t c) := by
  rw [exec_taskEndError]; unfold execTaskEndError; rw [he]
theorem run_taskFault {s : State} {g t p} (he : s.ev = some (.taskFault g t p)) : exec .taskFault s =
      .next (s.taskFault g t p) := by
  rw [exec_taskFault]; unfold execTaskFault; rw [he]
theorem run_graftInvocation {s : State} {g t} (he : s.ev = some (.graftInvocation g t)) : exec .graftInvocation s =
      .next (s.graftInvocation g t) := by
  rw [exec_graftInvocation]; unfold execGraftInvocation; rw [he]
theorem run_graftRestart {s : State} {g t} (he : s.ev = some (.graftRestart g t)) : exec .graftRestart s =
      .next (s.graftRestart g t) := by
  rw [exec_graftRestart]; unfold execGraftRestart; rw [he]
theorem run_graftCommit {s : State} {g t} (he : s.ev = some (.graftCommit g t)) : exec .graftCommit s =
      .next (s.graftCommit g t) := by
  rw [exec_graftCommit]; unfold execGraftCommit; rw [he]
theorem run_graftTableAccessReturn {s : State} {c x} (he : s.ev = some (.graftTableAccessReturn c x)) : exec .graftTableAccessReturn s =
      .next (s.lyrReturn c x) := by
  rw [exec_graftTableAccessReturn]; unfold execGraftTableAccessReturn; rw [he]
theorem run_rds {s : State} {r} (he : s.ev = some (.rds r)) : exec .rds s =
      .next (s.hubHear (.rd .rds r) r.agent r.inc) := by
  rw [exec_rds]; unfold execRds; rw [he]
theorem run_rdx {s : State} {r} (he : s.ev = some (.rdx r)) : exec .rdx s =
      .next (s.hubHear (.rd .rdx r) r.agent r.inc) := by
  rw [exec_rdx]; unfold execRdx; rw [he]
theorem run_upg {s : State} {r} (he : s.ev = some (.upg r)) : exec .upg s =
      .next (s.hubHear (.rd .upg r) r.agent r.inc) := by
  rw [exec_upg]; unfold execUpg; rw [he]
theorem run_wbd {s : State} {l a i x d} (he : s.ev = some (.wbd l a i x d)) : exec .wbd s =
      .next (s.hubHear (.wb l a i x d) a i) := by
  rw [exec_wbd]; unfold execWbd; rw [he]
theorem run_farAtomic {s : State} {who} (he : s.ev = some (.farAtomic who)) : exec .farAtomic s =
      .next (s.farAtomic who) := by
  rw [exec_farAtomic]; unfold execFarAtomic; rw [he]
theorem run_directoryRecall {s : State} {l} (he : s.ev = some (.directoryRecall l)) : exec .directoryRecall s =
      .next (s.directoryRecall l) := by
  rw [exec_directoryRecall]; unfold execDirectoryRecall; rw [he]
theorem run_invack {s : State} {l a i u3} (he : s.ev = some (.invack l a i u3)) : exec .invack s =
      .next (if s.heard a i then s.invackAt l a else s) := by
  rw [exec_invack]; unfold execInvack; rw [he]
theorem run_memrdData {s : State} {l x} (he : s.ev = some (.memrdData l x)) : exec .memrdData s =
      .next (if (s.txn? l).any Txn.needMem then
        let ok := (s.memRead (64 * l)).isSome
        (s.modTxn l fun t => { t with needMem := false, memBad := !ok, got := if ok then some (x, false) else none }).txnStep l
      else s) := by
  rw [exec_memrdData]; unfold execMemrdData; rw [he]
theorem run_memwrAck {s : State} {l} (he : s.ev = some (.memwrAck l)) : exec .memwrAck s =
      .next ((s.modTxn l fun t => { t with needWr := false }).txnStep l) := by
  rw [exec_memwrAck]; unfold execMemwrAck; rw [he]
theorem run_inv {s : State} {l d u2} (he : s.ev = some (.inv l d u2)) : exec .inv s =
      .next (s.invAt l d) := by
  rw [exec_inv]; unfold execInv; rw [he]
theorem run_fwds {s : State} {l d u2} (he : s.ev = some (.fwds l d u2)) : exec .fwds s =
      .next (s.fwdsAt l d) := by
  rw [exec_fwds]; unfold execFwds; rw [he]
theorem run_fwdx {s : State} {l d u2 u3} (he : s.ev = some (.fwdx l d u2 u3)) : exec .fwdx s =
      .next (s.fwdxAt l d) := by
  rw [exec_fwdx]; unfold execFwdx; rw [he]
theorem run_snoopFilterEvict {s : State} {d l} (he : s.ev = some (.snoopFilterEvict d l)) : exec .snoopFilterEvict s =
      .next (s.snoopEvict d l) := by
  rw [exec_snoopFilterEvict]; unfold execSnoopFilterEvict; rw [he]
theorem run_data {s : State} {l a i x d g u7} (he : s.ev = some (.data true l a i x d g u7)) : exec .data s =
      .next (if s.heard a i then s.ownerData l a x d g true else s) := by
  rw [exec_data]; unfold execData; rw [he]
theorem run_data1 {s : State} {l a u3 x u5 u6 e} (he : s.ev = some (.data false l a u3 x u5 u6 e)) : exec .data s =
      .next (match s.dieOfAgent a with | some d => s.dieAnswer d (s.heldAs d l) false x false e | none => s) := by
  rw [exec_data]; unfold execData; rw [he] <;> (dsimp only; split <;> simp_all)
theorem run_datax {s : State} {l a i x d g u7} (he : s.ev = some (.datax true l a i x d g u7)) : exec .datax s =
      .next (if s.heard a i then s.ownerData l a x d g false else s) := by
  rw [exec_datax]; unfold execDatax; rw [he]
theorem run_datax1 {s : State} {l a u3 x d u6 e} (he : s.ev = some (.datax false l a u3 x d u6 e)) : exec .datax s =
      .next (match s.dieOfAgent a with | some k => s.dieAnswer k (s.heldAs k l) true x d e | none => s) := by
  rw [exec_datax]; unfold execDatax; rw [he] <;> (dsimp only; split <;> simp_all)
theorem run_cmpMsg {s : State} {l a i u4} (he : s.ev = some (.cmpMsg true l a i u4)) : exec .cmpMsg s =
      .next (if s.heard a i then s.cmpHub l a else s) := by
  rw [exec_cmpMsg]; unfold execCmpMsg; rw [he]
theorem run_cmpMsg1 {s : State} {l a u3 e} (he : s.ev = some (.cmpMsg false l a u3 e)) : exec .cmpMsg s =
      .next (match s.dieOfAgent a with | some d => s.cmpAt d (s.writtenAs d l) e | none => s) := by
  rw [exec_cmpMsg]; unfold execCmpMsg; rw [he] <;> (dsimp only; split <;> simp_all)
theorem run_containment {s : State} {p d} (he : s.ev = some (.containment p d)) : exec .containment s =
      .next (s.contain (d.elim (pkgAgents p) fun e => [p ++ e])) := by
  rw [exec_containment]; unfold execContainment; rw [he]; cases d <;> rfl
theorem run_containmentNotice {s : State} {l} (he : s.ev = some (.containmentNotice l)) : exec .containmentNotice s =
      .next (s.markDead l) := by
  rw [exec_containmentNotice]; unfold execContainmentNotice; rw [he]
theorem run_agentAnswerTimeout {s : State} {l a t} (he : s.ev = some (.agentAnswerTimeout l a t)) : exec .agentAnswerTimeout s =
      .next (s.answerTimeout l a t) := by
  rw [exec_agentAnswerTimeout]; unfold execAgentAnswerTimeout; rw [he]
theorem run_agentRejoin {s : State} {a w} (he : s.ev = some (.agentRejoin a w)) : exec .agentRejoin s =
      .next (s.agentRejoin a w) := by
  rw [exec_agentRejoin]; unfold execAgentRejoin; rw [he]
theorem run_sliceFailure {s : State} {f} (he : s.ev = some (.sliceFailure f)) : exec .sliceFailure s =
      .next (s.sliceFailure f) := by
  rw [exec_sliceFailure]; unfold execSliceFailure; rw [he]
theorem run_censusQuery {s : State} {d i p} (he : s.ev = some (.censusQuery d i p)) : exec .censusQuery s =
      .next (s.censusQuery d i p) := by
  rw [exec_censusQuery]; unfold execCensusQuery; rw [he]
theorem run_censusReport {s : State} {l a i g} (he : s.ev = some (.censusReport l a i g)) : exec .censusReport s =
      .next (if s.heard a i then s.censusReport l a g else s) := by
  rw [exec_censusReport]; unfold execCensusReport; rw [he]
theorem run_censusEnd {s : State} {i a n} (he : s.ev = some (.censusEnd i a n)) : exec .censusEnd s =
      .next (if s.heard a n ∨ s.isDead a then s.censusEnd i a else s) := by
  rw [exec_censusEnd]; unfold execCensusEnd; rw [he]
theorem run_flitReceive {s : State} {i f} (he : s.ev = some (.flitReceive i f)) : exec .flitReceive s =
      .next (s.flitReceive i f) := by
  rw [exec_flitReceive]; unfold execFlitReceive; rw [he]
theorem run_linkNak {s : State} {i q} (he : s.ev = some (.linkNak i q)) : exec .linkNak s =
      .next (s.linkNak i q) := by
  rw [exec_linkNak]; unfold execLinkNak; rw [he]
theorem run_linkDown {s : State} {i} (he : s.ev = some (.linkDown i)) : exec .linkDown s =
      .next (s.linkDown i) := by
  rw [exec_linkDown]; unfold execLinkDown; rw [he]
theorem run_registerWrite {s : State} {o x} (he : s.ev = some (.registerWrite o x)) : exec .registerWrite s =
      .next (s.registerWrite o x) := by
  rw [exec_registerWrite]; unfold execRegisterWrite; rw [he]
theorem run_startRecord {s : State} {c pc} (he : s.ev = some (.startRecord c pc)) : exec .startRecord s =
      .next (s.startRecord c pc) := by
  rw [exec_startRecord]; unfold execStartRecord; rw [he]
theorem run_debugSelect {s : State} {x} (he : s.ev = some (.debugSelect x)) : exec .debugSelect s =
      .next (if s.sys.life = .deployed then s else { s with sys := { s.sys with debugSel := x &&& 0xC000000000FFFFFF } }) := by
  rw [exec_debugSelect]; unfold execDebugSelect; rw [he]
theorem run_apertureRead {s : State} {w off n tag} (he : s.ev = some (.apertureRead w off n tag none)) : exec .apertureRead s =
      .next (s.apArrive w off (.apRead w off n tag) n tag true) := by
  rw [exec_apertureRead]; unfold execApertureRead; rw [he]
theorem run_apertureRead1 {s : State} {w u1 n tag id} (he : s.ev = some (.apertureRead w u1 n tag (some id))) : exec .apertureRead s =
      .next (match s.job id with | some j => s.apGo j w n none tag | none => s) := by
  rw [exec_apertureRead]; unfold execApertureRead; rw [he] <;> (dsimp only; split <;> simp_all)
theorem run_apertureWrite {s : State} {w off d} (he : s.ev = some (.apertureWrite w off d none)) : exec .apertureWrite s =
      .next (s.apArrive w off (.apWrite w off d) d.length 0 false) := by
  rw [exec_apertureWrite]; unfold execApertureWrite; rw [he]
theorem run_apertureWrite1 {s : State} {w u1 d id} (he : s.ev = some (.apertureWrite w u1 d (some id))) : exec .apertureWrite s =
      .next (match s.job id with | some j => s.apGo j w d.length (some d) 0 | none => s) := by
  rw [exec_apertureWrite]; unfold execApertureWrite; rw [he] <;> (dsimp only; split <;> simp_all)
theorem run_apertureFaultTimeout {s : State} {j} (he : s.ev = some (.apertureFaultTimeout j)) : exec .apertureFaultTimeout s =
      .next (s.apertureFaultTimeout j) := by
  rw [exec_apertureFaultTimeout]; unfold execApertureFaultTimeout; rw [he]
theorem run_pcieUnsupported {s : State} {tag} (he : s.ev = some (.pcieUnsupported tag)) : exec .pcieUnsupported s =
      .next { s with outbox := s.outbox ++ [.unsupported tag] } := by
  rw [exec_pcieUnsupported]; unfold execPcieUnsupported; rw [he]
theorem run_qcreate {s : State} {q} (he : s.ev = some (.qcreate q)) : exec .qcreate s =
      .next (s.qcreate q) := by
  rw [exec_qcreate]; unfold execQcreate; rw [he]
theorem run_qdestroy {s : State} {q} (he : s.ev = some (.qdestroy q)) : exec .qdestroy s =
      .next (s.qdestroy q) := by
  rw [exec_qdestroy]; unfold execQdestroy; rw [he]
theorem run_queueFetch {s : State} {q} (he : s.ev = some (.queueFetch q)) : exec .queueFetch s =
      .next (s.queueFetch q) := by
  rw [exec_queueFetch]; unfold execQueueFetch; rw [he]
theorem run_coldReset {s : State} (he : s.ev = some (.coldReset)) : exec .coldReset s =
      .next (s.packageReset 0) := by
  rw [exec_coldReset]; unfold execColdReset; rw [he]
theorem run_partitionReset {s : State} {q} (he : s.ev = some (.partitionReset q)) : exec .partitionReset s =
      .next (s.partitionReset q) := by
  rw [exec_partitionReset]; unfold execPartitionReset; rw [he]
theorem run_wipeDone {s : State} (he : s.ev = some (.wipeDone)) : exec .wipeDone s =
      .next s.wipeDone := by
  rw [exec_wipeDone]; unfold execWipeDone; rw [he]
theorem run_partitionControl {s : State} {t} (he : s.ev = some (.partitionControl t)) : exec .partitionControl s =
      .next (s.partitionControl t) := by
  rw [exec_partitionControl]; unfold execPartitionControl; rw [he]
theorem run_lifeCycleChange {s : State} (he : s.ev = some (.lifeCycleChange)) : exec .lifeCycleChange s =
      .next (match s.sys.life.next with
      | some l => ({ s with sys := { s.sys with life := l, identity := l.identity s.sys.identity } } : State).packageReset s.cyc
      | none => s) := by
  rw [exec_lifeCycleChange]; unfold execLifeCycleChange; rw [he] <;> (dsimp only; split <;> simp_all)
theorem run_firmwareVerify {s : State} {image} (he : s.ev = some (.firmwareVerify image)) : exec .firmwareVerify s =
      .next (s.verifyImage image) := by
  rw [exec_firmwareVerify]; unfold execFirmwareVerify; rw [he]
theorem run_recoveryLoad {s : State} (he : s.ev = some (.recoveryLoad)) : exec .recoveryLoad s =
      .next (if s.sys.recovery then s.verifyImage (s.barBytes 0x800000 0x800000) else s) := by
  rw [exec_recoveryLoad]; unfold execRecoveryLoad; rw [he]
theorem run_attestationRequest {s : State} {n} (he : s.ev = some (.attestationRequest n)) : exec .attestationRequest s =
      .next (s.attest n) := by
  rw [exec_attestationRequest]; unfold execAttestationRequest; rw [he]
theorem run_cxlDynamicCapacity {s : State} {port add base len} (he : s.ev = some (.cxlDynamicCapacity port add base len)) : exec .cxlDynamicCapacity s =
      .next (s.notify s.hubDie { code := 23, addr := base, w3 := port.setWidth 64, w4 := if add then 1 else 2, w5 := len }) := by
  rw [exec_cxlDynamicCapacity]; unfold execCxlDynamicCapacity; rw [he]
theorem run_powerLimit {s : State} (he : s.ev = some (.powerLimit)) : exec .powerLimit s =
      .next { s with sys := { s.sys with halved := true } } := by
  rw [exec_powerLimit]; unfold execPowerLimit; rw [he]
theorem run_powerLimitClear {s : State} (he : s.ev = some (.powerLimitClear)) : exec .powerLimitClear s =
      .next ({ s with sys := { s.sys with halved := false } } : State).kickAll := by
  rw [exec_powerLimitClear]; unfold execPowerLimitClear; rw [he]
theorem run_overtemperature {s : State} {d} (he : s.ev = some (.overtemperature d)) : exec .overtemperature s =
      .next (s.overtemperature d) := by
  rw [exec_overtemperature]; unfold execOvertemperature; rw [he]
theorem run_channelHalfWidth {s : State} {c} (he : s.ev = some (.channelHalfWidth c)) : exec .channelHalfWidth s =
      .next (s.channelHalf c) := by
  rw [exec_channelHalfWidth]; unfold execChannelHalfWidth; rw [he]
theorem run_channelFullWidth {s : State} {c} (he : s.ev = some (.channelFullWidth c)) : exec .channelFullWidth s =
      .next { s with sys := { s.sys with halfChans := s.sys.halfChans.filter fun d => d != c } } := by
  rw [exec_channelFullWidth]; unfold execChannelFullWidth; rw [he]
theorem run_snapIn {s : State} (he : s.ev = some (.snapIn)) : exec .snapIn s =
      .next s.snapAll := by
  rw [exec_snapIn]; unfold execSnapIn; rw [he]
theorem run_snapshotThreshold {s : State} (he : s.ev = some (.snapshotThreshold)) : exec .snapshotThreshold s =
      .next s.thresholdReached := by
  rw [exec_snapshotThreshold]; unfold execSnapshotThreshold; rw [he]
theorem run_snapshotLatch {s : State} {p} (he : s.ev = some (.snapshotLatch p)) : exec .snapshotLatch s =
      .next (s.snapshotLatch p) := by
  rw [exec_snapshotLatch]; unfold execSnapshotLatch; rw [he]
theorem run_scrub {s : State} {k} (he : s.ev = some (.scrub k)) : exec .scrub s =
      .next (s.scrub k) := by
  rw [exec_scrub]; unfold execScrub; rw [he]
theorem run_routingTableLoad {s : State} {g d p} (he : s.ev = some (.routingTableLoad g d p)) : exec .routingTableLoad s =
      .next (s.loadRoute g d p) := by
  rw [exec_routingTableLoad]; unfold execRoutingTableLoad; rw [he]
theorem run_bypassSet {s : State} {g on} (he : s.ev = some (.bypassSet g on)) : exec .routingTableLoad s =
      .next (s.setBypass g on) := by
  rw [exec_routingTableLoad]; unfold execRoutingTableLoad; rw [he]
theorem run_packageRouteLoad {s : State} {p l} (he : s.ev = some (.packageRouteLoad p l)) : exec .routingTableLoad s =
      .next (s.loadPackageRoute p l) := by
  rw [exec_routingTableLoad]; unfold execRoutingTableLoad; rw [he]
theorem run_routerFailure {s : State} {g l} (he : s.ev = some (.routerFailure g l)) : exec .routerFailure s =
      .next (s.routerFailure g l) := by
  rw [exec_routerFailure]; unfold execRouterFailure; rw [he]

end Sys2Proof.Machine
end

