-- ==== Sys2Proof/Laws/State.lean ====
section
/-! SUPPORT. Field lemmas: what each named update leaves of each field of the state. -/
namespace Sys2Proof.Machine

@[simp] theorem State.setCore_cyc (s : State) (c : CoreId) (k : Core) : (s.setCore c k).cyc = s.cyc := rfl
@[simp] theorem State.setCore_turn (s : State) (c : CoreId) (k : Core) : (s.setCore c k).turn = s.turn := rfl
@[simp] theorem State.setCore_slot (s : State) (c : CoreId) (k : Core) : (s.setCore c k).slot = s.slot := rfl
@[simp] theorem State.setCore_fresh (s : State) (c : CoreId) (k : Core) : (s.setCore c k).fresh = s.fresh := rfl
@[simp] theorem State.setCore_agenda (s : State) (c : CoreId) (k : Core) : (s.setCore c k).agenda = s.agenda := rfl
@[simp] theorem State.setCore_ev (s : State) (c : CoreId) (k : Core) : (s.setCore c k).ev = s.ev := rfl
@[simp] theorem State.setCore_outbox (s : State) (c : CoreId) (k : Core) : (s.setCore c k).outbox = s.outbox := rfl
@[simp] theorem State.setCore_mem (s : State) (c : CoreId) (k : Core) : (s.setCore c k).mem = s.mem := rfl
@[simp] theorem State.setCore_atoms (s : State) (c : CoreId) (k : Core) : (s.setCore c k).atoms = s.atoms := rfl
@[simp] theorem State.setCore_ecc (s : State) (c : CoreId) (k : Core) : (s.setCore c k).ecc = s.ecc := rfl
@[simp] theorem State.setCore_rgns (s : State) (c : CoreId) (k : Core) : (s.setCore c k).rgns = s.rgns := rfl
@[simp] theorem State.setCore_sgWays (s : State) (c : CoreId) (k : Core) : (s.setCore c k).sgWays = s.sgWays := rfl
@[simp] theorem State.setCore_sgway (s : State) (c : CoreId) (k : Core) : (s.setCore c k).sgway = s.sgway := rfl
@[simp] theorem State.setCore_waiters (s : State) (c : CoreId) (k : Core) : (s.setCore c k).waiters = s.waiters := rfl
@[simp] theorem State.setCore_withdrawnConts (s : State) (c : CoreId) (k : Core) : (s.setCore c k).withdrawnConts = s.withdrawnConts := rfl
@[simp] theorem State.setCore_fills (s : State) (c : CoreId) (k : Core) : (s.setCore c k).fills = s.fills := rfl
@[simp] theorem State.setCore_held (s : State) (c : CoreId) (k : Core) : (s.setCore c k).held = s.held := rfl
@[simp] theorem State.setCore_banks (s : State) (c : CoreId) (k : Core) : (s.setCore c k).banks = s.banks := rfl
@[simp] theorem State.setCore_bar0 (s : State) (c : CoreId) (k : Core) : (s.setCore c k).bar0 = s.bar0 := rfl
@[simp] theorem State.setCore_heatk (s : State) (c : CoreId) (k : Core) : (s.setCore c k).heatk = s.heatk := rfl
@[simp] theorem State.setCore_heatd (s : State) (c : CoreId) (k : Core) : (s.setCore c k).heatd = s.heatd := rfl
@[simp] theorem State.setCore_pkg (s : State) (c : CoreId) (k : Core) : (s.setCore c k).pkg = s.pkg := rfl
@[simp] theorem State.setCore_fltsvc (s : State) (c : CoreId) (k : Core) : (s.setCore c k).fltsvc = s.fltsvc := rfl
@[simp] theorem State.setCore_supv (s : State) (c : CoreId) (k : Core) : (s.setCore c k).supv = s.supv := rfl
@[simp] theorem State.setCore_tlb2 (s : State) (c : CoreId) (k : Core) : (s.setCore c k).tlb2 = s.tlb2 := rfl
@[simp] theorem State.setCore_walkCache (s : State) (c : CoreId) (k : Core) : (s.setCore c k).walkCache = s.walkCache := rfl
@[simp] theorem State.setCore_samplers (s : State) (c : CoreId) (k : Core) : (s.setCore c k).samplers = s.samplers := rfl
@[simp] theorem State.setCore_walks (s : State) (c : CoreId) (k : Core) : (s.setCore c k).walks = s.walks := rfl
@[simp] theorem State.setCore_tlbis (s : State) (c : CoreId) (k : Core) : (s.setCore c k).tlbis = s.tlbis := rfl
@[simp] theorem State.setCore_hubTlb (s : State) (c : CoreId) (k : Core) : (s.setCore c k).hubTlb = s.hubTlb := rfl
@[simp] theorem State.setCore_faults (s : State) (c : CoreId) (k : Core) : (s.setCore c k).faults = s.faults := rfl
@[simp] theorem State.setCore_faultSeq (s : State) (c : CoreId) (k : Core) : (s.setCore c k).faultSeq = s.faultSeq := rfl
@[simp] theorem State.setCore_homes (s : State) (c : CoreId) (k : Core) : (s.setCore c k).homes = s.homes := rfl
@[simp] theorem State.setCore_doneIds (s : State) (c : CoreId) (k : Core) : (s.setCore c k).doneIds = s.doneIds := rfl
@[simp] theorem State.setCore_launches (s : State) (c : CoreId) (k : Core) : (s.setCore c k).launches = s.launches := rfl
@[simp] theorem State.setCore_active (s : State) (c : CoreId) (k : Core) : (s.setCore c k).active = s.active := rfl
@[simp] theorem State.setCore_gangs (s : State) (c : CoreId) (k : Core) : (s.setCore c k).gangs = s.gangs := rfl
@[simp] theorem State.setCore_jobs (s : State) (c : CoreId) (k : Core) : (s.setCore c k).jobs = s.jobs := rfl
@[simp] theorem State.setCore_loads (s : State) (c : CoreId) (k : Core) : (s.setCore c k).loads = s.loads := rfl
@[simp] theorem State.setCore_armed (s : State) (c : CoreId) (k : Core) : (s.setCore c k).armed = s.armed := rfl
@[simp] theorem State.setCore_snapAt (s : State) (c : CoreId) (k : Core) : (s.setCore c k).snapAt = s.snapAt := rfl
@[simp] theorem State.setCore_sgs (s : State) (c : CoreId) (k : Core) : (s.setCore c k).sgs = s.sgs := rfl
@[simp] theorem State.setCore_watch (s : State) (c : CoreId) (k : Core) : (s.setCore c k).watch = s.watch := rfl
@[simp] theorem State.setCore_coh (s : State) (c : CoreId) (k : Core) : (s.setCore c k).coh = s.coh := rfl
@[simp] theorem State.setCore_sys (s : State) (c : CoreId) (k : Core) : (s.setCore c k).sys = s.sys := rfl

@[simp] theorem State.modCore_cyc (s : State) (c : CoreId) (f : Core → Core) : (s.modCore c f).cyc = s.cyc := State.setCore_cyc _ _ _
@[simp] theorem State.modCore_turn (s : State) (c : CoreId) (f : Core → Core) : (s.modCore c f).turn = s.turn := State.setCore_turn _ _ _
@[simp] theorem State.modCore_slot (s : State) (c : CoreId) (f : Core → Core) : (s.modCore c f).slot = s.slot := State.setCore_slot _ _ _
@[simp] theorem State.modCore_fresh (s : State) (c : CoreId) (f : Core → Core) : (s.modCore c f).fresh = s.fresh := State.setCore_fresh _ _ _
@[simp] theorem State.modCore_agenda (s : State) (c : CoreId) (f : Core → Core) : (s.modCore c f).agenda = s.agenda := State.setCore_agenda _ _ _
@[simp] theorem State.modCore_ev (s : State) (c : CoreId) (f : Core → Core) : (s.modCore c f).ev = s.ev := State.setCore_ev _ _ _
@[simp] theorem State.modCore_outbox (s : State) (c : CoreId) (f : Core → Core) : (s.modCore c f).outbox = s.outbox := State.setCore_outbox _ _ _
@[simp] theorem State.modCore_mem (s : State) (c : CoreId) (f : Core → Core) : (s.modCore c f).mem = s.mem := State.setCore_mem _ _ _
@[simp] theorem State.modCore_atoms (s : State) (c : CoreId) (f : Core → Core) : (s.modCore c f).atoms = s.atoms := State.setCore_atoms _ _ _
@[simp] theorem State.modCore_ecc (s : State) (c : CoreId) (f : Core → Core) : (s.modCore c f).ecc = s.ecc := State.setCore_ecc _ _ _
@[simp] theorem State.modCore_rgns (s : State) (c : CoreId) (f : Core → Core) : (s.modCore c f).rgns = s.rgns := State.setCore_rgns _ _ _
@[simp] theorem State.modCore_sgWays (s : State) (c : CoreId) (f : Core → Core) : (s.modCore c f).sgWays = s.sgWays := State.setCore_sgWays _ _ _
@[simp] theorem State.modCore_sgway (s : State) (c : CoreId) (f : Core → Core) : (s.modCore c f).sgway = s.sgway := State.setCore_sgway _ _ _
@[simp] theorem State.modCore_waiters (s : State) (c : CoreId) (f : Core → Core) : (s.modCore c f).waiters = s.waiters := State.setCore_waiters _ _ _
@[simp] theorem State.modCore_withdrawnConts (s : State) (c : CoreId) (f : Core → Core) : (s.modCore c f).withdrawnConts = s.withdrawnConts := State.setCore_withdrawnConts _ _ _
@[simp] theorem State.modCore_fills (s : State) (c : CoreId) (f : Core → Core) : (s.modCore c f).fills = s.fills := State.setCore_fills _ _ _
@[simp] theorem State.modCore_held (s : State) (c : CoreId) (f : Core → Core) : (s.modCore c f).held = s.held := State.setCore_held _ _ _
@[simp] theorem State.modCore_banks (s : State) (c : CoreId) (f : Core → Core) : (s.modCore c f).banks = s.banks := State.setCore_banks _ _ _
@[simp] theorem State.modCore_bar0 (s : State) (c : CoreId) (f : Core → Core) : (s.modCore c f).bar0 = s.bar0 := State.setCore_bar0 _ _ _
@[simp] theorem State.modCore_heatk (s : State) (c : CoreId) (f : Core → Core) : (s.modCore c f).heatk = s.heatk := State.setCore_heatk _ _ _
@[simp] theorem State.modCore_heatd (s : State) (c : CoreId) (f : Core → Core) : (s.modCore c f).heatd = s.heatd := State.setCore_heatd _ _ _
@[simp] theorem State.modCore_pkg (s : State) (c : CoreId) (f : Core → Core) : (s.modCore c f).pkg = s.pkg := State.setCore_pkg _ _ _
@[simp] theorem State.modCore_fltsvc (s : State) (c : CoreId) (f : Core → Core) : (s.modCore c f).fltsvc = s.fltsvc := State.setCore_fltsvc _ _ _
@[simp] theorem State.modCore_supv (s : State) (c : CoreId) (f : Core → Core) : (s.modCore c f).supv = s.supv := State.setCore_supv _ _ _
@[simp] theorem State.modCore_tlb2 (s : State) (c : CoreId) (f : Core → Core) : (s.modCore c f).tlb2 = s.tlb2 := State.setCore_tlb2 _ _ _
@[simp] theorem State.modCore_walkCache (s : State) (c : CoreId) (f : Core → Core) : (s.modCore c f).walkCache = s.walkCache := State.setCore_walkCache _ _ _
@[simp] theorem State.modCore_samplers (s : State) (c : CoreId) (f : Core → Core) : (s.modCore c f).samplers = s.samplers := State.setCore_samplers _ _ _
@[simp] theorem State.modCore_walks (s : State) (c : CoreId) (f : Core → Core) : (s.modCore c f).walks = s.walks := State.setCore_walks _ _ _
@[simp] theorem State.modCore_tlbis (s : State) (c : CoreId) (f : Core → Core) : (s.modCore c f).tlbis = s.tlbis := State.setCore_tlbis _ _ _
@[simp] theorem State.modCore_hubTlb (s : State) (c : CoreId) (f : Core → Core) : (s.modCore c f).hubTlb = s.hubTlb := State.setCore_hubTlb _ _ _
@[simp] theorem State.modCore_faults (s : State) (c : CoreId) (f : Core → Core) : (s.modCore c f).faults = s.faults := State.setCore_faults _ _ _
@[simp] theorem State.modCore_faultSeq (s : State) (c : CoreId) (f : Core → Core) : (s.modCore c f).faultSeq = s.faultSeq := State.setCore_faultSeq _ _ _
@[simp] theorem State.modCore_homes (s : State) (c : CoreId) (f : Core → Core) : (s.modCore c f).homes = s.homes := State.setCore_homes _ _ _
@[simp] theorem State.modCore_doneIds (s : State) (c : CoreId) (f : Core → Core) : (s.modCore c f).doneIds = s.doneIds := State.setCore_doneIds _ _ _
@[simp] theorem State.modCore_launches (s : State) (c : CoreId) (f : Core → Core) : (s.modCore c f).launches = s.launches := State.setCore_launches _ _ _
@[simp] theorem State.modCore_active (s : State) (c : CoreId) (f : Core → Core) : (s.modCore c f).active = s.active := State.setCore_active _ _ _
@[simp] theorem State.modCore_gangs (s : State) (c : CoreId) (f : Core → Core) : (s.modCore c f).gangs = s.gangs := State.setCore_gangs _ _ _
@[simp] theorem State.modCore_jobs (s : State) (c : CoreId) (f : Core → Core) : (s.modCore c f).jobs = s.jobs := State.setCore_jobs _ _ _
@[simp] theorem State.modCore_loads (s : State) (c : CoreId) (f : Core → Core) : (s.modCore c f).loads = s.loads := State.setCore_loads _ _ _
@[simp] theorem State.modCore_armed (s : State) (c : CoreId) (f : Core → Core) : (s.modCore c f).armed = s.armed := State.setCore_armed _ _ _
@[simp] theorem State.modCore_snapAt (s : State) (c : CoreId) (f : Core → Core) : (s.modCore c f).snapAt = s.snapAt := State.setCore_snapAt _ _ _
@[simp] theorem State.modCore_sgs (s : State) (c : CoreId) (f : Core → Core) : (s.modCore c f).sgs = s.sgs := State.setCore_sgs _ _ _
@[simp] theorem State.modCore_watch (s : State) (c : CoreId) (f : Core → Core) : (s.modCore c f).watch = s.watch := State.setCore_watch _ _ _
@[simp] theorem State.modCore_coh (s : State) (c : CoreId) (f : Core → Core) : (s.modCore c f).coh = s.coh := State.setCore_coh _ _ _
@[simp] theorem State.modCore_sys (s : State) (c : CoreId) (f : Core → Core) : (s.modCore c f).sys = s.sys := State.setCore_sys _ _ _

@[simp] theorem State.modCtx_cyc (s : State) (c : CoreId) (x : CtxId) (f : Ctx → Ctx) : (s.modCtx c x f).cyc = s.cyc := State.modCore_cyc _ _ _
@[simp] theorem State.modCtx_turn (s : State) (c : CoreId) (x : CtxId) (f : Ctx → Ctx) : (s.modCtx c x f).turn = s.turn := State.modCore_turn _ _ _
@[simp] theorem State.modCtx_slot (s : State) (c : CoreId) (x : CtxId) (f : Ctx → Ctx) : (s.modCtx c x f).slot = s.slot := State.modCore_slot _ _ _
@[simp] theorem State.modCtx_fresh (s : State) (c : CoreId) (x : CtxId) (f : Ctx → Ctx) : (s.modCtx c x f).fresh = s.fresh := State.modCore_fresh _ _ _
@[simp] theorem State.modCtx_agenda (s : State) (c : CoreId) (x : CtxId) (f : Ctx → Ctx) : (s.modCtx c x f).agenda = s.agenda := State.modCore_agenda _ _ _
@[simp] theorem State.modCtx_ev (s : State) (c : CoreId) (x : CtxId) (f : Ctx → Ctx) : (s.modCtx c x f).ev = s.ev := State.modCore_ev _ _ _
@[simp] theorem State.modCtx_outbox (s : State) (c : CoreId) (x : CtxId) (f : Ctx → Ctx) : (s.modCtx c x f).outbox = s.outbox := State.modCore_outbox _ _ _
@[simp] theorem State.modCtx_mem (s : State) (c : CoreId) (x : CtxId) (f : Ctx → Ctx) : (s.modCtx c x f).mem = s.mem := State.modCore_mem _ _ _
@[simp] theorem State.modCtx_atoms (s : State) (c : CoreId) (x : CtxId) (f : Ctx → Ctx) : (s.modCtx c x f).atoms = s.atoms := State.modCore_atoms _ _ _
@[simp] theorem State.modCtx_ecc (s : State) (c : CoreId) (x : CtxId) (f : Ctx → Ctx) : (s.modCtx c x f).ecc = s.ecc := State.modCore_ecc _ _ _
@[simp] theorem State.modCtx_rgns (s : State) (c : CoreId) (x : CtxId) (f : Ctx → Ctx) : (s.modCtx c x f).rgns = s.rgns := State.modCore_rgns _ _ _
@[simp] theorem State.modCtx_sgWays (s : State) (c : CoreId) (x : CtxId) (f : Ctx → Ctx) : (s.modCtx c x f).sgWays = s.sgWays := State.modCore_sgWays _ _ _
@[simp] theorem State.modCtx_sgway (s : State) (c : CoreId) (x : CtxId) (f : Ctx → Ctx) : (s.modCtx c x f).sgway = s.sgway := State.modCore_sgway _ _ _
@[simp] theorem State.modCtx_waiters (s : State) (c : CoreId) (x : CtxId) (f : Ctx → Ctx) : (s.modCtx c x f).waiters = s.waiters := State.modCore_waiters _ _ _
@[simp] theorem State.modCtx_withdrawnConts (s : State) (c : CoreId) (x : CtxId) (f : Ctx → Ctx) : (s.modCtx c x f).withdrawnConts = s.withdrawnConts := State.modCore_withdrawnConts _ _ _
@[simp] theorem State.modCtx_fills (s : State) (c : CoreId) (x : CtxId) (f : Ctx → Ctx) : (s.modCtx c x f).fills = s.fills := State.modCore_fills _ _ _
@[simp] theorem State.modCtx_held (s : State) (c : CoreId) (x : CtxId) (f : Ctx → Ctx) : (s.modCtx c x f).held = s.held := State.modCore_held _ _ _
@[simp] theorem State.modCtx_banks (s : State) (c : CoreId) (x : CtxId) (f : Ctx → Ctx) : (s.modCtx c x f).banks = s.banks := State.modCore_banks _ _ _
@[simp] theorem State.modCtx_bar0 (s : State) (c : CoreId) (x : CtxId) (f : Ctx → Ctx) : (s.modCtx c x f).bar0 = s.bar0 := State.modCore_bar0 _ _ _
@[simp] theorem State.modCtx_heatk (s : State) (c : CoreId) (x : CtxId) (f : Ctx → Ctx) : (s.modCtx c x f).heatk = s.heatk := State.modCore_heatk _ _ _
@[simp] theorem State.modCtx_heatd (s : State) (c : CoreId) (x : CtxId) (f : Ctx → Ctx) : (s.modCtx c x f).heatd = s.heatd := State.modCore_heatd _ _ _
@[simp] theorem State.modCtx_pkg (s : State) (c : CoreId) (x : CtxId) (f : Ctx → Ctx) : (s.modCtx c x f).pkg = s.pkg := State.modCore_pkg _ _ _
@[simp] theorem State.modCtx_fltsvc (s : State) (c : CoreId) (x : CtxId) (f : Ctx → Ctx) : (s.modCtx c x f).fltsvc = s.fltsvc := State.modCore_fltsvc _ _ _
@[simp] theorem State.modCtx_supv (s : State) (c : CoreId) (x : CtxId) (f : Ctx → Ctx) : (s.modCtx c x f).supv = s.supv := State.modCore_supv _ _ _
@[simp] theorem State.modCtx_tlb2 (s : State) (c : CoreId) (x : CtxId) (f : Ctx → Ctx) : (s.modCtx c x f).tlb2 = s.tlb2 := State.modCore_tlb2 _ _ _
@[simp] theorem State.modCtx_walkCache (s : State) (c : CoreId) (x : CtxId) (f : Ctx → Ctx) : (s.modCtx c x f).walkCache = s.walkCache := State.modCore_walkCache _ _ _
@[simp] theorem State.modCtx_samplers (s : State) (c : CoreId) (x : CtxId) (f : Ctx → Ctx) : (s.modCtx c x f).samplers = s.samplers := State.modCore_samplers _ _ _
@[simp] theorem State.modCtx_walks (s : State) (c : CoreId) (x : CtxId) (f : Ctx → Ctx) : (s.modCtx c x f).walks = s.walks := State.modCore_walks _ _ _
@[simp] theorem State.modCtx_tlbis (s : State) (c : CoreId) (x : CtxId) (f : Ctx → Ctx) : (s.modCtx c x f).tlbis = s.tlbis := State.modCore_tlbis _ _ _
@[simp] theorem State.modCtx_hubTlb (s : State) (c : CoreId) (x : CtxId) (f : Ctx → Ctx) : (s.modCtx c x f).hubTlb = s.hubTlb := State.modCore_hubTlb _ _ _
@[simp] theorem State.modCtx_faults (s : State) (c : CoreId) (x : CtxId) (f : Ctx → Ctx) : (s.modCtx c x f).faults = s.faults := State.modCore_faults _ _ _
@[simp] theorem State.modCtx_faultSeq (s : State) (c : CoreId) (x : CtxId) (f : Ctx → Ctx) : (s.modCtx c x f).faultSeq = s.faultSeq := State.modCore_faultSeq _ _ _
@[simp] theorem State.modCtx_homes (s : State) (c : CoreId) (x : CtxId) (f : Ctx → Ctx) : (s.modCtx c x f).homes = s.homes := State.modCore_homes _ _ _
@[simp] theorem State.modCtx_doneIds (s : State) (c : CoreId) (x : CtxId) (f : Ctx → Ctx) : (s.modCtx c x f).doneIds = s.doneIds := State.modCore_doneIds _ _ _
@[simp] theorem State.modCtx_launches (s : State) (c : CoreId) (x : CtxId) (f : Ctx → Ctx) : (s.modCtx c x f).launches = s.launches := State.modCore_launches _ _ _
@[simp] theorem State.modCtx_active (s : State) (c : CoreId) (x : CtxId) (f : Ctx → Ctx) : (s.modCtx c x f).active = s.active := State.modCore_active _ _ _
@[simp] theorem State.modCtx_gangs (s : State) (c : CoreId) (x : CtxId) (f : Ctx → Ctx) : (s.modCtx c x f).gangs = s.gangs := State.modCore_gangs _ _ _
@[simp] theorem State.modCtx_jobs (s : State) (c : CoreId) (x : CtxId) (f : Ctx → Ctx) : (s.modCtx c x f).jobs = s.jobs := State.modCore_jobs _ _ _
@[simp] theorem State.modCtx_loads (s : State) (c : CoreId) (x : CtxId) (f : Ctx → Ctx) : (s.modCtx c x f).loads = s.loads := State.modCore_loads _ _ _
@[simp] theorem State.modCtx_armed (s : State) (c : CoreId) (x : CtxId) (f : Ctx → Ctx) : (s.modCtx c x f).armed = s.armed := State.modCore_armed _ _ _
@[simp] theorem State.modCtx_snapAt (s : State) (c : CoreId) (x : CtxId) (f : Ctx → Ctx) : (s.modCtx c x f).snapAt = s.snapAt := State.modCore_snapAt _ _ _
@[simp] theorem State.modCtx_sgs (s : State) (c : CoreId) (x : CtxId) (f : Ctx → Ctx) : (s.modCtx c x f).sgs = s.sgs := State.modCore_sgs _ _ _
@[simp] theorem State.modCtx_watch (s : State) (c : CoreId) (x : CtxId) (f : Ctx → Ctx) : (s.modCtx c x f).watch = s.watch := State.modCore_watch _ _ _
@[simp] theorem State.modCtx_coh (s : State) (c : CoreId) (x : CtxId) (f : Ctx → Ctx) : (s.modCtx c x f).coh = s.coh := State.modCore_coh _ _ _
@[simp] theorem State.modCtx_sys (s : State) (c : CoreId) (x : CtxId) (f : Ctx → Ctx) : (s.modCtx c x f).sys = s.sys := State.modCore_sys _ _ _

@[simp] theorem State.modMe_cyc (s : State) (f : Ctx → Ctx) : (s.modMe f).cyc = s.cyc := State.modCtx_cyc _ _ _ _
@[simp] theorem State.modMe_turn (s : State) (f : Ctx → Ctx) : (s.modMe f).turn = s.turn := State.modCtx_turn _ _ _ _
@[simp] theorem State.modMe_slot (s : State) (f : Ctx → Ctx) : (s.modMe f).slot = s.slot := State.modCtx_slot _ _ _ _
@[simp] theorem State.modMe_fresh (s : State) (f : Ctx → Ctx) : (s.modMe f).fresh = s.fresh := State.modCtx_fresh _ _ _ _
@[simp] theorem State.modMe_agenda (s : State) (f : Ctx → Ctx) : (s.modMe f).agenda = s.agenda := State.modCtx_agenda _ _ _ _
@[simp] theorem State.modMe_ev (s : State) (f : Ctx → Ctx) : (s.modMe f).ev = s.ev := State.modCtx_ev _ _ _ _
@[simp] theorem State.modMe_outbox (s : State) (f : Ctx → Ctx) : (s.modMe f).outbox = s.outbox := State.modCtx_outbox _ _ _ _
@[simp] theorem State.modMe_mem (s : State) (f : Ctx → Ctx) : (s.modMe f).mem = s.mem := State.modCtx_mem _ _ _ _
@[simp] theorem State.modMe_atoms (s : State) (f : Ctx → Ctx) : (s.modMe f).atoms = s.atoms := State.modCtx_atoms _ _ _ _
@[simp] theorem State.modMe_ecc (s : State) (f : Ctx → Ctx) : (s.modMe f).ecc = s.ecc := State.modCtx_ecc _ _ _ _
@[simp] theorem State.modMe_rgns (s : State) (f : Ctx → Ctx) : (s.modMe f).rgns = s.rgns := State.modCtx_rgns _ _ _ _
@[simp] theorem State.modMe_sgWays (s : State) (f : Ctx → Ctx) : (s.modMe f).sgWays = s.sgWays := State.modCtx_sgWays _ _ _ _
@[simp] theorem State.modMe_sgway (s : State) (f : Ctx → Ctx) : (s.modMe f).sgway = s.sgway := State.modCtx_sgway _ _ _ _
@[simp] theorem State.modMe_waiters (s : State) (f : Ctx → Ctx) : (s.modMe f).waiters = s.waiters := State.modCtx_waiters _ _ _ _
@[simp] theorem State.modMe_withdrawnConts (s : State) (f : Ctx → Ctx) : (s.modMe f).withdrawnConts = s.withdrawnConts := State.modCtx_withdrawnConts _ _ _ _
@[simp] theorem State.modMe_fills (s : State) (f : Ctx → Ctx) : (s.modMe f).fills = s.fills := State.modCtx_fills _ _ _ _
@[simp] theorem State.modMe_held (s : State) (f : Ctx → Ctx) : (s.modMe f).held = s.held := State.modCtx_held _ _ _ _
@[simp] theorem State.modMe_banks (s : State) (f : Ctx → Ctx) : (s.modMe f).banks = s.banks := State.modCtx_banks _ _ _ _
@[simp] theorem State.modMe_bar0 (s : State) (f : Ctx → Ctx) : (s.modMe f).bar0 = s.bar0 := State.modCtx_bar0 _ _ _ _
@[simp] theorem State.modMe_heatk (s : State) (f : Ctx → Ctx) : (s.modMe f).heatk = s.heatk := State.modCtx_heatk _ _ _ _
@[simp] theorem State.modMe_heatd (s : State) (f : Ctx → Ctx) : (s.modMe f).heatd = s.heatd := State.modCtx_heatd _ _ _ _
@[simp] theorem State.modMe_pkg (s : State) (f : Ctx → Ctx) : (s.modMe f).pkg = s.pkg := State.modCtx_pkg _ _ _ _
@[simp] theorem State.modMe_fltsvc (s : State) (f : Ctx → Ctx) : (s.modMe f).fltsvc = s.fltsvc := State.modCtx_fltsvc _ _ _ _
@[simp] theorem State.modMe_supv (s : State) (f : Ctx → Ctx) : (s.modMe f).supv = s.supv := State.modCtx_supv _ _ _ _
@[simp] theorem State.modMe_tlb2 (s : State) (f : Ctx → Ctx) : (s.modMe f).tlb2 = s.tlb2 := State.modCtx_tlb2 _ _ _ _
@[simp] theorem State.modMe_walkCache (s : State) (f : Ctx → Ctx) : (s.modMe f).walkCache = s.walkCache := State.modCtx_walkCache _ _ _ _
@[simp] theorem State.modMe_samplers (s : State) (f : Ctx → Ctx) : (s.modMe f).samplers = s.samplers := State.modCtx_samplers _ _ _ _
@[simp] theorem State.modMe_walks (s : State) (f : Ctx → Ctx) : (s.modMe f).walks = s.walks := State.modCtx_walks _ _ _ _
@[simp] theorem State.modMe_tlbis (s : State) (f : Ctx → Ctx) : (s.modMe f).tlbis = s.tlbis := State.modCtx_tlbis _ _ _ _
@[simp] theorem State.modMe_hubTlb (s : State) (f : Ctx → Ctx) : (s.modMe f).hubTlb = s.hubTlb := State.modCtx_hubTlb _ _ _ _
@[simp] theorem State.modMe_faults (s : State) (f : Ctx → Ctx) : (s.modMe f).faults = s.faults := State.modCtx_faults _ _ _ _
@[simp] theorem State.modMe_faultSeq (s : State) (f : Ctx → Ctx) : (s.modMe f).faultSeq = s.faultSeq := State.modCtx_faultSeq _ _ _ _
@[simp] theorem State.modMe_homes (s : State) (f : Ctx → Ctx) : (s.modMe f).homes = s.homes := State.modCtx_homes _ _ _ _
@[simp] theorem State.modMe_doneIds (s : State) (f : Ctx → Ctx) : (s.modMe f).doneIds = s.doneIds := State.modCtx_doneIds _ _ _ _
@[simp] theorem State.modMe_launches (s : State) (f : Ctx → Ctx) : (s.modMe f).launches = s.launches := State.modCtx_launches _ _ _ _
@[simp] theorem State.modMe_active (s : State) (f : Ctx → Ctx) : (s.modMe f).active = s.active := State.modCtx_active _ _ _ _
@[simp] theorem State.modMe_gangs (s : State) (f : Ctx → Ctx) : (s.modMe f).gangs = s.gangs := State.modCtx_gangs _ _ _ _
@[simp] theorem State.modMe_jobs (s : State) (f : Ctx → Ctx) : (s.modMe f).jobs = s.jobs := State.modCtx_jobs _ _ _ _
@[simp] theorem State.modMe_loads (s : State) (f : Ctx → Ctx) : (s.modMe f).loads = s.loads := State.modCtx_loads _ _ _ _
@[simp] theorem State.modMe_armed (s : State) (f : Ctx → Ctx) : (s.modMe f).armed = s.armed := State.modCtx_armed _ _ _ _
@[simp] theorem State.modMe_snapAt (s : State) (f : Ctx → Ctx) : (s.modMe f).snapAt = s.snapAt := State.modCtx_snapAt _ _ _ _
@[simp] theorem State.modMe_sgs (s : State) (f : Ctx → Ctx) : (s.modMe f).sgs = s.sgs := State.modCtx_sgs _ _ _ _
@[simp] theorem State.modMe_watch (s : State) (f : Ctx → Ctx) : (s.modMe f).watch = s.watch := State.modCtx_watch _ _ _ _
@[simp] theorem State.modMe_coh (s : State) (f : Ctx → Ctx) : (s.modMe f).coh = s.coh := State.modCtx_coh _ _ _ _
@[simp] theorem State.modMe_sys (s : State) (f : Ctx → Ctx) : (s.modMe f).sys = s.sys := State.modCtx_sys _ _ _ _

@[simp] theorem State.putG_cyc (s : State) (d : G) (x : Word) : (s.putG d x).cyc = s.cyc := State.modMe_cyc _ _
@[simp] theorem State.putG_turn (s : State) (d : G) (x : Word) : (s.putG d x).turn = s.turn := State.modMe_turn _ _
@[simp] theorem State.putG_slot (s : State) (d : G) (x : Word) : (s.putG d x).slot = s.slot := State.modMe_slot _ _
@[simp] theorem State.putG_fresh (s : State) (d : G) (x : Word) : (s.putG d x).fresh = s.fresh := State.modMe_fresh _ _
@[simp] theorem State.putG_agenda (s : State) (d : G) (x : Word) : (s.putG d x).agenda = s.agenda := State.modMe_agenda _ _
@[simp] theorem State.putG_ev (s : State) (d : G) (x : Word) : (s.putG d x).ev = s.ev := State.modMe_ev _ _
@[simp] theorem State.putG_outbox (s : State) (d : G) (x : Word) : (s.putG d x).outbox = s.outbox := State.modMe_outbox _ _
@[simp] theorem State.putG_mem (s : State) (d : G) (x : Word) : (s.putG d x).mem = s.mem := State.modMe_mem _ _
@[simp] theorem State.putG_atoms (s : State) (d : G) (x : Word) : (s.putG d x).atoms = s.atoms := State.modMe_atoms _ _
@[simp] theorem State.putG_ecc (s : State) (d : G) (x : Word) : (s.putG d x).ecc = s.ecc := State.modMe_ecc _ _
@[simp] theorem State.putG_rgns (s : State) (d : G) (x : Word) : (s.putG d x).rgns = s.rgns := State.modMe_rgns _ _
@[simp] theorem State.putG_sgWays (s : State) (d : G) (x : Word) : (s.putG d x).sgWays = s.sgWays := State.modMe_sgWays _ _
@[simp] theorem State.putG_sgway (s : State) (d : G) (x : Word) : (s.putG d x).sgway = s.sgway := State.modMe_sgway _ _
@[simp] theorem State.putG_waiters (s : State) (d : G) (x : Word) : (s.putG d x).waiters = s.waiters := State.modMe_waiters _ _
@[simp] theorem State.putG_withdrawnConts (s : State) (d : G) (x : Word) : (s.putG d x).withdrawnConts = s.withdrawnConts := State.modMe_withdrawnConts _ _
@[simp] theorem State.putG_fills (s : State) (d : G) (x : Word) : (s.putG d x).fills = s.fills := State.modMe_fills _ _
@[simp] theorem State.putG_held (s : State) (d : G) (x : Word) : (s.putG d x).held = s.held := State.modMe_held _ _
@[simp] theorem State.putG_banks (s : State) (d : G) (x : Word) : (s.putG d x).banks = s.banks := State.modMe_banks _ _
@[simp] theorem State.putG_bar0 (s : State) (d : G) (x : Word) : (s.putG d x).bar0 = s.bar0 := State.modMe_bar0 _ _
@[simp] theorem State.putG_heatk (s : State) (d : G) (x : Word) : (s.putG d x).heatk = s.heatk := State.modMe_heatk _ _
@[simp] theorem State.putG_heatd (s : State) (d : G) (x : Word) : (s.putG d x).heatd = s.heatd := State.modMe_heatd _ _
@[simp] theorem State.putG_pkg (s : State) (d : G) (x : Word) : (s.putG d x).pkg = s.pkg := State.modMe_pkg _ _
@[simp] theorem State.putG_fltsvc (s : State) (d : G) (x : Word) : (s.putG d x).fltsvc = s.fltsvc := State.modMe_fltsvc _ _
@[simp] theorem State.putG_supv (s : State) (d : G) (x : Word) : (s.putG d x).supv = s.supv := State.modMe_supv _ _
@[simp] theorem State.putG_tlb2 (s : State) (d : G) (x : Word) : (s.putG d x).tlb2 = s.tlb2 := State.modMe_tlb2 _ _
@[simp] theorem State.putG_walkCache (s : State) (d : G) (x : Word) : (s.putG d x).walkCache = s.walkCache := State.modMe_walkCache _ _
@[simp] theorem State.putG_samplers (s : State) (d : G) (x : Word) : (s.putG d x).samplers = s.samplers := State.modMe_samplers _ _
@[simp] theorem State.putG_walks (s : State) (d : G) (x : Word) : (s.putG d x).walks = s.walks := State.modMe_walks _ _
@[simp] theorem State.putG_tlbis (s : State) (d : G) (x : Word) : (s.putG d x).tlbis = s.tlbis := State.modMe_tlbis _ _
@[simp] theorem State.putG_hubTlb (s : State) (d : G) (x : Word) : (s.putG d x).hubTlb = s.hubTlb := State.modMe_hubTlb _ _
@[simp] theorem State.putG_faults (s : State) (d : G) (x : Word) : (s.putG d x).faults = s.faults := State.modMe_faults _ _
@[simp] theorem State.putG_faultSeq (s : State) (d : G) (x : Word) : (s.putG d x).faultSeq = s.faultSeq := State.modMe_faultSeq _ _
@[simp] theorem State.putG_homes (s : State) (d : G) (x : Word) : (s.putG d x).homes = s.homes := State.modMe_homes _ _
@[simp] theorem State.putG_doneIds (s : State) (d : G) (x : Word) : (s.putG d x).doneIds = s.doneIds := State.modMe_doneIds _ _
@[simp] theorem State.putG_launches (s : State) (d : G) (x : Word) : (s.putG d x).launches = s.launches := State.modMe_launches _ _
@[simp] theorem State.putG_active (s : State) (d : G) (x : Word) : (s.putG d x).active = s.active := State.modMe_active _ _
@[simp] theorem State.putG_gangs (s : State) (d : G) (x : Word) : (s.putG d x).gangs = s.gangs := State.modMe_gangs _ _
@[simp] theorem State.putG_jobs (s : State) (d : G) (x : Word) : (s.putG d x).jobs = s.jobs := State.modMe_jobs _ _
@[simp] theorem State.putG_loads (s : State) (d : G) (x : Word) : (s.putG d x).loads = s.loads := State.modMe_loads _ _
@[simp] theorem State.putG_armed (s : State) (d : G) (x : Word) : (s.putG d x).armed = s.armed := State.modMe_armed _ _
@[simp] theorem State.putG_snapAt (s : State) (d : G) (x : Word) : (s.putG d x).snapAt = s.snapAt := State.modMe_snapAt _ _
@[simp] theorem State.putG_sgs (s : State) (d : G) (x : Word) : (s.putG d x).sgs = s.sgs := State.modMe_sgs _ _
@[simp] theorem State.putG_watch (s : State) (d : G) (x : Word) : (s.putG d x).watch = s.watch := State.modMe_watch _ _
@[simp] theorem State.putG_coh (s : State) (d : G) (x : Word) : (s.putG d x).coh = s.coh := State.modMe_coh _ _
@[simp] theorem State.putG_sys (s : State) (d : G) (x : Word) : (s.putG d x).sys = s.sys := State.modMe_sys _ _

@[simp] theorem State.putP_cyc (s : State) (d : P) (x : BitVec 32) : (s.putP d x).cyc = s.cyc := State.modMe_cyc _ _
@[simp] theorem State.putP_turn (s : State) (d : P) (x : BitVec 32) : (s.putP d x).turn = s.turn := State.modMe_turn _ _
@[simp] theorem State.putP_slot (s : State) (d : P) (x : BitVec 32) : (s.putP d x).slot = s.slot := State.modMe_slot _ _
@[simp] theorem State.putP_fresh (s : State) (d : P) (x : BitVec 32) : (s.putP d x).fresh = s.fresh := State.modMe_fresh _ _
@[simp] theorem State.putP_agenda (s : State) (d : P) (x : BitVec 32) : (s.putP d x).agenda = s.agenda := State.modMe_agenda _ _
@[simp] theorem State.putP_ev (s : State) (d : P) (x : BitVec 32) : (s.putP d x).ev = s.ev := State.modMe_ev _ _
@[simp] theorem State.putP_outbox (s : State) (d : P) (x : BitVec 32) : (s.putP d x).outbox = s.outbox := State.modMe_outbox _ _
@[simp] theorem State.putP_mem (s : State) (d : P) (x : BitVec 32) : (s.putP d x).mem = s.mem := State.modMe_mem _ _
@[simp] theorem State.putP_atoms (s : State) (d : P) (x : BitVec 32) : (s.putP d x).atoms = s.atoms := State.modMe_atoms _ _
@[simp] theorem State.putP_ecc (s : State) (d : P) (x : BitVec 32) : (s.putP d x).ecc = s.ecc := State.modMe_ecc _ _
@[simp] theorem State.putP_rgns (s : State) (d : P) (x : BitVec 32) : (s.putP d x).rgns = s.rgns := State.modMe_rgns _ _
@[simp] theorem State.putP_sgWays (s : State) (d : P) (x : BitVec 32) : (s.putP d x).sgWays = s.sgWays := State.modMe_sgWays _ _
@[simp] theorem State.putP_sgway (s : State) (d : P) (x : BitVec 32) : (s.putP d x).sgway = s.sgway := State.modMe_sgway _ _
@[simp] theorem State.putP_waiters (s : State) (d : P) (x : BitVec 32) : (s.putP d x).waiters = s.waiters := State.modMe_waiters _ _
@[simp] theorem State.putP_withdrawnConts (s : State) (d : P) (x : BitVec 32) : (s.putP d x).withdrawnConts = s.withdrawnConts := State.modMe_withdrawnConts _ _
@[simp] theorem State.putP_fills (s : State) (d : P) (x : BitVec 32) : (s.putP d x).fills = s.fills := State.modMe_fills _ _
@[simp] theorem State.putP_held (s : State) (d : P) (x : BitVec 32) : (s.putP d x).held = s.held := State.modMe_held _ _
@[simp] theorem State.putP_banks (s : State) (d : P) (x : BitVec 32) : (s.putP d x).banks = s.banks := State.modMe_banks _ _
@[simp] theorem State.putP_bar0 (s : State) (d : P) (x : BitVec 32) : (s.putP d x).bar0 = s.bar0 := State.modMe_bar0 _ _
@[simp] theorem State.putP_heatk (s : State) (d : P) (x : BitVec 32) : (s.putP d x).heatk = s.heatk := State.modMe_heatk _ _
@[simp] theorem State.putP_heatd (s : State) (d : P) (x : BitVec 32) : (s.putP d x).heatd = s.heatd := State.modMe_heatd _ _
@[simp] theorem State.putP_pkg (s : State) (d : P) (x : BitVec 32) : (s.putP d x).pkg = s.pkg := State.modMe_pkg _ _
@[simp] theorem State.putP_fltsvc (s : State) (d : P) (x : BitVec 32) : (s.putP d x).fltsvc = s.fltsvc := State.modMe_fltsvc _ _
@[simp] theorem State.putP_supv (s : State) (d : P) (x : BitVec 32) : (s.putP d x).supv = s.supv := State.modMe_supv _ _
@[simp] theorem State.putP_tlb2 (s : State) (d : P) (x : BitVec 32) : (s.putP d x).tlb2 = s.tlb2 := State.modMe_tlb2 _ _
@[simp] theorem State.putP_walkCache (s : State) (d : P) (x : BitVec 32) : (s.putP d x).walkCache = s.walkCache := State.modMe_walkCache _ _
@[simp] theorem State.putP_samplers (s : State) (d : P) (x : BitVec 32) : (s.putP d x).samplers = s.samplers := State.modMe_samplers _ _
@[simp] theorem State.putP_walks (s : State) (d : P) (x : BitVec 32) : (s.putP d x).walks = s.walks := State.modMe_walks _ _
@[simp] theorem State.putP_tlbis (s : State) (d : P) (x : BitVec 32) : (s.putP d x).tlbis = s.tlbis := State.modMe_tlbis _ _
@[simp] theorem State.putP_hubTlb (s : State) (d : P) (x : BitVec 32) : (s.putP d x).hubTlb = s.hubTlb := State.modMe_hubTlb _ _
@[simp] theorem State.putP_faults (s : State) (d : P) (x : BitVec 32) : (s.putP d x).faults = s.faults := State.modMe_faults _ _
@[simp] theorem State.putP_faultSeq (s : State) (d : P) (x : BitVec 32) : (s.putP d x).faultSeq = s.faultSeq := State.modMe_faultSeq _ _
@[simp] theorem State.putP_homes (s : State) (d : P) (x : BitVec 32) : (s.putP d x).homes = s.homes := State.modMe_homes _ _
@[simp] theorem State.putP_doneIds (s : State) (d : P) (x : BitVec 32) : (s.putP d x).doneIds = s.doneIds := State.modMe_doneIds _ _
@[simp] theorem State.putP_launches (s : State) (d : P) (x : BitVec 32) : (s.putP d x).launches = s.launches := State.modMe_launches _ _
@[simp] theorem State.putP_active (s : State) (d : P) (x : BitVec 32) : (s.putP d x).active = s.active := State.modMe_active _ _
@[simp] theorem State.putP_gangs (s : State) (d : P) (x : BitVec 32) : (s.putP d x).gangs = s.gangs := State.modMe_gangs _ _
@[simp] theorem State.putP_jobs (s : State) (d : P) (x : BitVec 32) : (s.putP d x).jobs = s.jobs := State.modMe_jobs _ _
@[simp] theorem State.putP_loads (s : State) (d : P) (x : BitVec 32) : (s.putP d x).loads = s.loads := State.modMe_loads _ _
@[simp] theorem State.putP_armed (s : State) (d : P) (x : BitVec 32) : (s.putP d x).armed = s.armed := State.modMe_armed _ _
@[simp] theorem State.putP_snapAt (s : State) (d : P) (x : BitVec 32) : (s.putP d x).snapAt = s.snapAt := State.modMe_snapAt _ _
@[simp] theorem State.putP_sgs (s : State) (d : P) (x : BitVec 32) : (s.putP d x).sgs = s.sgs := State.modMe_sgs _ _
@[simp] theorem State.putP_watch (s : State) (d : P) (x : BitVec 32) : (s.putP d x).watch = s.watch := State.modMe_watch _ _
@[simp] theorem State.putP_coh (s : State) (d : P) (x : BitVec 32) : (s.putP d x).coh = s.coh := State.modMe_coh _ _
@[simp] theorem State.putP_sys (s : State) (d : P) (x : BitVec 32) : (s.putP d x).sys = s.sys := State.modMe_sys _ _

@[simp] theorem State.putV_cyc (s : State) (d : V) (x : BitVec 256) : (s.putV d x).cyc = s.cyc := State.modMe_cyc _ _
@[simp] theorem State.putV_turn (s : State) (d : V) (x : BitVec 256) : (s.putV d x).turn = s.turn := State.modMe_turn _ _
@[simp] theorem State.putV_slot (s : State) (d : V) (x : BitVec 256) : (s.putV d x).slot = s.slot := State.modMe_slot _ _
@[simp] theorem State.putV_fresh (s : State) (d : V) (x : BitVec 256) : (s.putV d x).fresh = s.fresh := State.modMe_fresh _ _
@[simp] theorem State.putV_agenda (s : State) (d : V) (x : BitVec 256) : (s.putV d x).agenda = s.agenda := State.modMe_agenda _ _
@[simp] theorem State.putV_ev (s : State) (d : V) (x : BitVec 256) : (s.putV d x).ev = s.ev := State.modMe_ev _ _
@[simp] theorem State.putV_outbox (s : State) (d : V) (x : BitVec 256) : (s.putV d x).outbox = s.outbox := State.modMe_outbox _ _
@[simp] theorem State.putV_mem (s : State) (d : V) (x : BitVec 256) : (s.putV d x).mem = s.mem := State.modMe_mem _ _
@[simp] theorem State.putV_atoms (s : State) (d : V) (x : BitVec 256) : (s.putV d x).atoms = s.atoms := State.modMe_atoms _ _
@[simp] theorem State.putV_ecc (s : State) (d : V) (x : BitVec 256) : (s.putV d x).ecc = s.ecc := State.modMe_ecc _ _
@[simp] theorem State.putV_rgns (s : State) (d : V) (x : BitVec 256) : (s.putV d x).rgns = s.rgns := State.modMe_rgns _ _
@[simp] theorem State.putV_sgWays (s : State) (d : V) (x : BitVec 256) : (s.putV d x).sgWays = s.sgWays := State.modMe_sgWays _ _
@[simp] theorem State.putV_sgway (s : State) (d : V) (x : BitVec 256) : (s.putV d x).sgway = s.sgway := State.modMe_sgway _ _
@[simp] theorem State.putV_waiters (s : State) (d : V) (x : BitVec 256) : (s.putV d x).waiters = s.waiters := State.modMe_waiters _ _
@[simp] theorem State.putV_withdrawnConts (s : State) (d : V) (x : BitVec 256) : (s.putV d x).withdrawnConts = s.withdrawnConts := State.modMe_withdrawnConts _ _
@[simp] theorem State.putV_fills (s : State) (d : V) (x : BitVec 256) : (s.putV d x).fills = s.fills := State.modMe_fills _ _
@[simp] theorem State.putV_held (s : State) (d : V) (x : BitVec 256) : (s.putV d x).held = s.held := State.modMe_held _ _
@[simp] theorem State.putV_banks (s : State) (d : V) (x : BitVec 256) : (s.putV d x).banks = s.banks := State.modMe_banks _ _
@[simp] theorem State.putV_bar0 (s : State) (d : V) (x : BitVec 256) : (s.putV d x).bar0 = s.bar0 := State.modMe_bar0 _ _
@[simp] theorem State.putV_heatk (s : State) (d : V) (x : BitVec 256) : (s.putV d x).heatk = s.heatk := State.modMe_heatk _ _
@[simp] theorem State.putV_heatd (s : State) (d : V) (x : BitVec 256) : (s.putV d x).heatd = s.heatd := State.modMe_heatd _ _
@[simp] theorem State.putV_pkg (s : State) (d : V) (x : BitVec 256) : (s.putV d x).pkg = s.pkg := State.modMe_pkg _ _
@[simp] theorem State.putV_fltsvc (s : State) (d : V) (x : BitVec 256) : (s.putV d x).fltsvc = s.fltsvc := State.modMe_fltsvc _ _
@[simp] theorem State.putV_supv (s : State) (d : V) (x : BitVec 256) : (s.putV d x).supv = s.supv := State.modMe_supv _ _
@[simp] theorem State.putV_tlb2 (s : State) (d : V) (x : BitVec 256) : (s.putV d x).tlb2 = s.tlb2 := State.modMe_tlb2 _ _
@[simp] theorem State.putV_walkCache (s : State) (d : V) (x : BitVec 256) : (s.putV d x).walkCache = s.walkCache := State.modMe_walkCache _ _
@[simp] theorem State.putV_samplers (s : State) (d : V) (x : BitVec 256) : (s.putV d x).samplers = s.samplers := State.modMe_samplers _ _
@[simp] theorem State.putV_walks (s : State) (d : V) (x : BitVec 256) : (s.putV d x).walks = s.walks := State.modMe_walks _ _
@[simp] theorem State.putV_tlbis (s : State) (d : V) (x : BitVec 256) : (s.putV d x).tlbis = s.tlbis := State.modMe_tlbis _ _
@[simp] theorem State.putV_hubTlb (s : State) (d : V) (x : BitVec 256) : (s.putV d x).hubTlb = s.hubTlb := State.modMe_hubTlb _ _
@[simp] theorem State.putV_faults (s : State) (d : V) (x : BitVec 256) : (s.putV d x).faults = s.faults := State.modMe_faults _ _
@[simp] theorem State.putV_faultSeq (s : State) (d : V) (x : BitVec 256) : (s.putV d x).faultSeq = s.faultSeq := State.modMe_faultSeq _ _
@[simp] theorem State.putV_homes (s : State) (d : V) (x : BitVec 256) : (s.putV d x).homes = s.homes := State.modMe_homes _ _
@[simp] theorem State.putV_doneIds (s : State) (d : V) (x : BitVec 256) : (s.putV d x).doneIds = s.doneIds := State.modMe_doneIds _ _
@[simp] theorem State.putV_launches (s : State) (d : V) (x : BitVec 256) : (s.putV d x).launches = s.launches := State.modMe_launches _ _
@[simp] theorem State.putV_active (s : State) (d : V) (x : BitVec 256) : (s.putV d x).active = s.active := State.modMe_active _ _
@[simp] theorem State.putV_gangs (s : State) (d : V) (x : BitVec 256) : (s.putV d x).gangs = s.gangs := State.modMe_gangs _ _
@[simp] theorem State.putV_jobs (s : State) (d : V) (x : BitVec 256) : (s.putV d x).jobs = s.jobs := State.modMe_jobs _ _
@[simp] theorem State.putV_loads (s : State) (d : V) (x : BitVec 256) : (s.putV d x).loads = s.loads := State.modMe_loads _ _
@[simp] theorem State.putV_armed (s : State) (d : V) (x : BitVec 256) : (s.putV d x).armed = s.armed := State.modMe_armed _ _
@[simp] theorem State.putV_snapAt (s : State) (d : V) (x : BitVec 256) : (s.putV d x).snapAt = s.snapAt := State.modMe_snapAt _ _
@[simp] theorem State.putV_sgs (s : State) (d : V) (x : BitVec 256) : (s.putV d x).sgs = s.sgs := State.modMe_sgs _ _
@[simp] theorem State.putV_watch (s : State) (d : V) (x : BitVec 256) : (s.putV d x).watch = s.watch := State.modMe_watch _ _
@[simp] theorem State.putV_coh (s : State) (d : V) (x : BitVec 256) : (s.putV d x).coh = s.coh := State.modMe_coh _ _
@[simp] theorem State.putV_sys (s : State) (d : V) (x : BitVec 256) : (s.putV d x).sys = s.sys := State.modMe_sys _ _

@[simp] theorem State.raiseFlags_cyc (s : State) (f : FFlags) : (s.raiseFlags f).cyc = s.cyc := State.modMe_cyc _ _
@[simp] theorem State.raiseFlags_turn (s : State) (f : FFlags) : (s.raiseFlags f).turn = s.turn := State.modMe_turn _ _
@[simp] theorem State.raiseFlags_slot (s : State) (f : FFlags) : (s.raiseFlags f).slot = s.slot := State.modMe_slot _ _
@[simp] theorem State.raiseFlags_fresh (s : State) (f : FFlags) : (s.raiseFlags f).fresh = s.fresh := State.modMe_fresh _ _
@[simp] theorem State.raiseFlags_agenda (s : State) (f : FFlags) : (s.raiseFlags f).agenda = s.agenda := State.modMe_agenda _ _
@[simp] theorem State.raiseFlags_ev (s : State) (f : FFlags) : (s.raiseFlags f).ev = s.ev := State.modMe_ev _ _
@[simp] theorem State.raiseFlags_outbox (s : State) (f : FFlags) : (s.raiseFlags f).outbox = s.outbox := State.modMe_outbox _ _
@[simp] theorem State.raiseFlags_mem (s : State) (f : FFlags) : (s.raiseFlags f).mem = s.mem := State.modMe_mem _ _
@[simp] theorem State.raiseFlags_atoms (s : State) (f : FFlags) : (s.raiseFlags f).atoms = s.atoms := State.modMe_atoms _ _
@[simp] theorem State.raiseFlags_ecc (s : State) (f : FFlags) : (s.raiseFlags f).ecc = s.ecc := State.modMe_ecc _ _
@[simp] theorem State.raiseFlags_rgns (s : State) (f : FFlags) : (s.raiseFlags f).rgns = s.rgns := State.modMe_rgns _ _
@[simp] theorem State.raiseFlags_sgWays (s : State) (f : FFlags) : (s.raiseFlags f).sgWays = s.sgWays := State.modMe_sgWays _ _
@[simp] theorem State.raiseFlags_sgway (s : State) (f : FFlags) : (s.raiseFlags f).sgway = s.sgway := State.modMe_sgway _ _
@[simp] theorem State.raiseFlags_waiters (s : State) (f : FFlags) : (s.raiseFlags f).waiters = s.waiters := State.modMe_waiters _ _
@[simp] theorem State.raiseFlags_withdrawnConts (s : State) (f : FFlags) : (s.raiseFlags f).withdrawnConts = s.withdrawnConts := State.modMe_withdrawnConts _ _
@[simp] theorem State.raiseFlags_fills (s : State) (f : FFlags) : (s.raiseFlags f).fills = s.fills := State.modMe_fills _ _
@[simp] theorem State.raiseFlags_held (s : State) (f : FFlags) : (s.raiseFlags f).held = s.held := State.modMe_held _ _
@[simp] theorem State.raiseFlags_banks (s : State) (f : FFlags) : (s.raiseFlags f).banks = s.banks := State.modMe_banks _ _
@[simp] theorem State.raiseFlags_bar0 (s : State) (f : FFlags) : (s.raiseFlags f).bar0 = s.bar0 := State.modMe_bar0 _ _
@[simp] theorem State.raiseFlags_heatk (s : State) (f : FFlags) : (s.raiseFlags f).heatk = s.heatk := State.modMe_heatk _ _
@[simp] theorem State.raiseFlags_heatd (s : State) (f : FFlags) : (s.raiseFlags f).heatd = s.heatd := State.modMe_heatd _ _
@[simp] theorem State.raiseFlags_pkg (s : State) (f : FFlags) : (s.raiseFlags f).pkg = s.pkg := State.modMe_pkg _ _
@[simp] theorem State.raiseFlags_fltsvc (s : State) (f : FFlags) : (s.raiseFlags f).fltsvc = s.fltsvc := State.modMe_fltsvc _ _
@[simp] theorem State.raiseFlags_supv (s : State) (f : FFlags) : (s.raiseFlags f).supv = s.supv := State.modMe_supv _ _
@[simp] theorem State.raiseFlags_tlb2 (s : State) (f : FFlags) : (s.raiseFlags f).tlb2 = s.tlb2 := State.modMe_tlb2 _ _
@[simp] theorem State.raiseFlags_walkCache (s : State) (f : FFlags) : (s.raiseFlags f).walkCache = s.walkCache := State.modMe_walkCache _ _
@[simp] theorem State.raiseFlags_samplers (s : State) (f : FFlags) : (s.raiseFlags f).samplers = s.samplers := State.modMe_samplers _ _
@[simp] theorem State.raiseFlags_walks (s : State) (f : FFlags) : (s.raiseFlags f).walks = s.walks := State.modMe_walks _ _
@[simp] theorem State.raiseFlags_tlbis (s : State) (f : FFlags) : (s.raiseFlags f).tlbis = s.tlbis := State.modMe_tlbis _ _
@[simp] theorem State.raiseFlags_hubTlb (s : State) (f : FFlags) : (s.raiseFlags f).hubTlb = s.hubTlb := State.modMe_hubTlb _ _
@[simp] theorem State.raiseFlags_faults (s : State) (f : FFlags) : (s.raiseFlags f).faults = s.faults := State.modMe_faults _ _
@[simp] theorem State.raiseFlags_faultSeq (s : State) (f : FFlags) : (s.raiseFlags f).faultSeq = s.faultSeq := State.modMe_faultSeq _ _
@[simp] theorem State.raiseFlags_homes (s : State) (f : FFlags) : (s.raiseFlags f).homes = s.homes := State.modMe_homes _ _
@[simp] theorem State.raiseFlags_doneIds (s : State) (f : FFlags) : (s.raiseFlags f).doneIds = s.doneIds := State.modMe_doneIds _ _
@[simp] theorem State.raiseFlags_launches (s : State) (f : FFlags) : (s.raiseFlags f).launches = s.launches := State.modMe_launches _ _
@[simp] theorem State.raiseFlags_active (s : State) (f : FFlags) : (s.raiseFlags f).active = s.active := State.modMe_active _ _
@[simp] theorem State.raiseFlags_gangs (s : State) (f : FFlags) : (s.raiseFlags f).gangs = s.gangs := State.modMe_gangs _ _
@[simp] theorem State.raiseFlags_jobs (s : State) (f : FFlags) : (s.raiseFlags f).jobs = s.jobs := State.modMe_jobs _ _
@[simp] theorem State.raiseFlags_loads (s : State) (f : FFlags) : (s.raiseFlags f).loads = s.loads := State.modMe_loads _ _
@[simp] theorem State.raiseFlags_armed (s : State) (f : FFlags) : (s.raiseFlags f).armed = s.armed := State.modMe_armed _ _
@[simp] theorem State.raiseFlags_snapAt (s : State) (f : FFlags) : (s.raiseFlags f).snapAt = s.snapAt := State.modMe_snapAt _ _
@[simp] theorem State.raiseFlags_sgs (s : State) (f : FFlags) : (s.raiseFlags f).sgs = s.sgs := State.modMe_sgs _ _
@[simp] theorem State.raiseFlags_watch (s : State) (f : FFlags) : (s.raiseFlags f).watch = s.watch := State.modMe_watch _ _
@[simp] theorem State.raiseFlags_coh (s : State) (f : FFlags) : (s.raiseFlags f).coh = s.coh := State.modMe_coh _ _
@[simp] theorem State.raiseFlags_sys (s : State) (f : FFlags) : (s.raiseFlags f).sys = s.sys := State.modMe_sys _ _

@[simp] theorem State.parkMe_cyc (s : State) (c : Ctx) (k : Park) : (s.parkMe c k).cyc = s.cyc := State.modMe_cyc _ _
@[simp] theorem State.parkMe_turn (s : State) (c : Ctx) (k : Park) : (s.parkMe c k).turn = s.turn := State.modMe_turn _ _
@[simp] theorem State.parkMe_slot (s : State) (c : Ctx) (k : Park) : (s.parkMe c k).slot = s.slot := State.modMe_slot _ _
@[simp] theorem State.parkMe_fresh (s : State) (c : Ctx) (k : Park) : (s.parkMe c k).fresh = s.fresh := State.modMe_fresh _ _
@[simp] theorem State.parkMe_agenda (s : State) (c : Ctx) (k : Park) : (s.parkMe c k).agenda = s.agenda := State.modMe_agenda _ _
@[simp] theorem State.parkMe_ev (s : State) (c : Ctx) (k : Park) : (s.parkMe c k).ev = s.ev := State.modMe_ev _ _
@[simp] theorem State.parkMe_outbox (s : State) (c : Ctx) (k : Park) : (s.parkMe c k).outbox = s.outbox := State.modMe_outbox _ _
@[simp] theorem State.parkMe_mem (s : State) (c : Ctx) (k : Park) : (s.parkMe c k).mem = s.mem := State.modMe_mem _ _
@[simp] theorem State.parkMe_atoms (s : State) (c : Ctx) (k : Park) : (s.parkMe c k).atoms = s.atoms := State.modMe_atoms _ _
@[simp] theorem State.parkMe_ecc (s : State) (c : Ctx) (k : Park) : (s.parkMe c k).ecc = s.ecc := State.modMe_ecc _ _
@[simp] theorem State.parkMe_rgns (s : State) (c : Ctx) (k : Park) : (s.parkMe c k).rgns = s.rgns := State.modMe_rgns _ _
@[simp] theorem State.parkMe_sgWays (s : State) (c : Ctx) (k : Park) : (s.parkMe c k).sgWays = s.sgWays := State.modMe_sgWays _ _
@[simp] theorem State.parkMe_sgway (s : State) (c : Ctx) (k : Park) : (s.parkMe c k).sgway = s.sgway := State.modMe_sgway _ _
@[simp] theorem State.parkMe_waiters (s : State) (c : Ctx) (k : Park) : (s.parkMe c k).waiters = s.waiters := State.modMe_waiters _ _
@[simp] theorem State.parkMe_withdrawnConts (s : State) (c : Ctx) (k : Park) : (s.parkMe c k).withdrawnConts = s.withdrawnConts := State.modMe_withdrawnConts _ _
@[simp] theorem State.parkMe_fills (s : State) (c : Ctx) (k : Park) : (s.parkMe c k).fills = s.fills := State.modMe_fills _ _
@[simp] theorem State.parkMe_held (s : State) (c : Ctx) (k : Park) : (s.parkMe c k).held = s.held := State.modMe_held _ _
@[simp] theorem State.parkMe_banks (s : State) (c : Ctx) (k : Park) : (s.parkMe c k).banks = s.banks := State.modMe_banks _ _
@[simp] theorem State.parkMe_bar0 (s : State) (c : Ctx) (k : Park) : (s.parkMe c k).bar0 = s.bar0 := State.modMe_bar0 _ _
@[simp] theorem State.parkMe_heatk (s : State) (c : Ctx) (k : Park) : (s.parkMe c k).heatk = s.heatk := State.modMe_heatk _ _
@[simp] theorem State.parkMe_heatd (s : State) (c : Ctx) (k : Park) : (s.parkMe c k).heatd = s.heatd := State.modMe_heatd _ _
@[simp] theorem State.parkMe_pkg (s : State) (c : Ctx) (k : Park) : (s.parkMe c k).pkg = s.pkg := State.modMe_pkg _ _
@[simp] theorem State.parkMe_fltsvc (s : State) (c : Ctx) (k : Park) : (s.parkMe c k).fltsvc = s.fltsvc := State.modMe_fltsvc _ _
@[simp] theorem State.parkMe_supv (s : State) (c : Ctx) (k : Park) : (s.parkMe c k).supv = s.supv := State.modMe_supv _ _
@[simp] theorem State.parkMe_tlb2 (s : State) (c : Ctx) (k : Park) : (s.parkMe c k).tlb2 = s.tlb2 := State.modMe_tlb2 _ _
@[simp] theorem State.parkMe_walkCache (s : State) (c : Ctx) (k : Park) : (s.parkMe c k).walkCache = s.walkCache := State.modMe_walkCache _ _
@[simp] theorem State.parkMe_samplers (s : State) (c : Ctx) (k : Park) : (s.parkMe c k).samplers = s.samplers := State.modMe_samplers _ _
@[simp] theorem State.parkMe_walks (s : State) (c : Ctx) (k : Park) : (s.parkMe c k).walks = s.walks := State.modMe_walks _ _
@[simp] theorem State.parkMe_tlbis (s : State) (c : Ctx) (k : Park) : (s.parkMe c k).tlbis = s.tlbis := State.modMe_tlbis _ _
@[simp] theorem State.parkMe_hubTlb (s : State) (c : Ctx) (k : Park) : (s.parkMe c k).hubTlb = s.hubTlb := State.modMe_hubTlb _ _
@[simp] theorem State.parkMe_faults (s : State) (c : Ctx) (k : Park) : (s.parkMe c k).faults = s.faults := State.modMe_faults _ _
@[simp] theorem State.parkMe_faultSeq (s : State) (c : Ctx) (k : Park) : (s.parkMe c k).faultSeq = s.faultSeq := State.modMe_faultSeq _ _
@[simp] theorem State.parkMe_homes (s : State) (c : Ctx) (k : Park) : (s.parkMe c k).homes = s.homes := State.modMe_homes _ _
@[simp] theorem State.parkMe_doneIds (s : State) (c : Ctx) (k : Park) : (s.parkMe c k).doneIds = s.doneIds := State.modMe_doneIds _ _
@[simp] theorem State.parkMe_launches (s : State) (c : Ctx) (k : Park) : (s.parkMe c k).launches = s.launches := State.modMe_launches _ _
@[simp] theorem State.parkMe_active (s : State) (c : Ctx) (k : Park) : (s.parkMe c k).active = s.active := State.modMe_active _ _
@[simp] theorem State.parkMe_gangs (s : State) (c : Ctx) (k : Park) : (s.parkMe c k).gangs = s.gangs := State.modMe_gangs _ _
@[simp] theorem State.parkMe_jobs (s : State) (c : Ctx) (k : Park) : (s.parkMe c k).jobs = s.jobs := State.modMe_jobs _ _
@[simp] theorem State.parkMe_loads (s : State) (c : Ctx) (k : Park) : (s.parkMe c k).loads = s.loads := State.modMe_loads _ _
@[simp] theorem State.parkMe_armed (s : State) (c : Ctx) (k : Park) : (s.parkMe c k).armed = s.armed := State.modMe_armed _ _
@[simp] theorem State.parkMe_snapAt (s : State) (c : Ctx) (k : Park) : (s.parkMe c k).snapAt = s.snapAt := State.modMe_snapAt _ _
@[simp] theorem State.parkMe_sgs (s : State) (c : Ctx) (k : Park) : (s.parkMe c k).sgs = s.sgs := State.modMe_sgs _ _
@[simp] theorem State.parkMe_watch (s : State) (c : Ctx) (k : Park) : (s.parkMe c k).watch = s.watch := State.modMe_watch _ _
@[simp] theorem State.parkMe_coh (s : State) (c : Ctx) (k : Park) : (s.parkMe c k).coh = s.coh := State.modMe_coh _ _
@[simp] theorem State.parkMe_sys (s : State) (c : Ctx) (k : Park) : (s.parkMe c k).sys = s.sys := State.modMe_sys _ _

@[simp] theorem State.startHalt_cyc (s : State) (c : CoreId) (x : CtxId) (h : Halt) : (s.startHalt c x h).cyc = s.cyc := State.modCtx_cyc _ _ _ _
@[simp] theorem State.startHalt_turn (s : State) (c : CoreId) (x : CtxId) (h : Halt) : (s.startHalt c x h).turn = s.turn := State.modCtx_turn _ _ _ _
@[simp] theorem State.startHalt_slot (s : State) (c : CoreId) (x : CtxId) (h : Halt) : (s.startHalt c x h).slot = s.slot := State.modCtx_slot _ _ _ _
@[simp] theorem State.startHalt_fresh (s : State) (c : CoreId) (x : CtxId) (h : Halt) : (s.startHalt c x h).fresh = s.fresh := State.modCtx_fresh _ _ _ _
@[simp] theorem State.startHalt_agenda (s : State) (c : CoreId) (x : CtxId) (h : Halt) : (s.startHalt c x h).agenda = s.agenda := State.modCtx_agenda _ _ _ _
@[simp] theorem State.startHalt_ev (s : State) (c : CoreId) (x : CtxId) (h : Halt) : (s.startHalt c x h).ev = s.ev := State.modCtx_ev _ _ _ _
@[simp] theorem State.startHalt_outbox (s : State) (c : CoreId) (x : CtxId) (h : Halt) : (s.startHalt c x h).outbox = s.outbox := State.modCtx_outbox _ _ _ _
@[simp] theorem State.startHalt_mem (s : State) (c : CoreId) (x : CtxId) (h : Halt) : (s.startHalt c x h).mem = s.mem := State.modCtx_mem _ _ _ _
@[simp] theorem State.startHalt_atoms (s : State) (c : CoreId) (x : CtxId) (h : Halt) : (s.startHalt c x h).atoms = s.atoms := State.modCtx_atoms _ _ _ _
@[simp] theorem State.startHalt_ecc (s : State) (c : CoreId) (x : CtxId) (h : Halt) : (s.startHalt c x h).ecc = s.ecc := State.modCtx_ecc _ _ _ _
@[simp] theorem State.startHalt_rgns (s : State) (c : CoreId) (x : CtxId) (h : Halt) : (s.startHalt c x h).rgns = s.rgns := State.modCtx_rgns _ _ _ _
@[simp] theorem State.startHalt_sgWays (s : State) (c : CoreId) (x : CtxId) (h : Halt) : (s.startHalt c x h).sgWays = s.sgWays := State.modCtx_sgWays _ _ _ _
@[simp] theorem State.startHalt_sgway (s : State) (c : CoreId) (x : CtxId) (h : Halt) : (s.startHalt c x h).sgway = s.sgway := State.modCtx_sgway _ _ _ _
@[simp] theorem State.startHalt_waiters (s : State) (c : CoreId) (x : CtxId) (h : Halt) : (s.startHalt c x h).waiters = s.waiters := State.modCtx_waiters _ _ _ _
@[simp] theorem State.startHalt_withdrawnConts (s : State) (c : CoreId) (x : CtxId) (h : Halt) : (s.startHalt c x h).withdrawnConts = s.withdrawnConts := State.modCtx_withdrawnConts _ _ _ _
@[simp] theorem State.startHalt_fills (s : State) (c : CoreId) (x : CtxId) (h : Halt) : (s.startHalt c x h).fills = s.fills := State.modCtx_fills _ _ _ _
@[simp] theorem State.startHalt_held (s : State) (c : CoreId) (x : CtxId) (h : Halt) : (s.startHalt c x h).held = s.held := State.modCtx_held _ _ _ _
@[simp] theorem State.startHalt_banks (s : State) (c : CoreId) (x : CtxId) (h : Halt) : (s.startHalt c x h).banks = s.banks := State.modCtx_banks _ _ _ _
@[simp] theorem State.startHalt_bar0 (s : State) (c : CoreId) (x : CtxId) (h : Halt) : (s.startHalt c x h).bar0 = s.bar0 := State.modCtx_bar0 _ _ _ _
@[simp] theorem State.startHalt_heatk (s : State) (c : CoreId) (x : CtxId) (h : Halt) : (s.startHalt c x h).heatk = s.heatk := State.modCtx_heatk _ _ _ _
@[simp] theorem State.startHalt_heatd (s : State) (c : CoreId) (x : CtxId) (h : Halt) : (s.startHalt c x h).heatd = s.heatd := State.modCtx_heatd _ _ _ _
@[simp] theorem State.startHalt_pkg (s : State) (c : CoreId) (x : CtxId) (h : Halt) : (s.startHalt c x h).pkg = s.pkg := State.modCtx_pkg _ _ _ _
@[simp] theorem State.startHalt_fltsvc (s : State) (c : CoreId) (x : CtxId) (h : Halt) : (s.startHalt c x h).fltsvc = s.fltsvc := State.modCtx_fltsvc _ _ _ _
@[simp] theorem State.startHalt_supv (s : State) (c : CoreId) (x : CtxId) (h : Halt) : (s.startHalt c x h).supv = s.supv := State.modCtx_supv _ _ _ _
@[simp] theorem State.startHalt_tlb2 (s : State) (c : CoreId) (x : CtxId) (h : Halt) : (s.startHalt c x h).tlb2 = s.tlb2 := State.modCtx_tlb2 _ _ _ _
@[simp] theorem State.startHalt_walkCache (s : State) (c : CoreId) (x : CtxId) (h : Halt) : (s.startHalt c x h).walkCache = s.walkCache := State.modCtx_walkCache _ _ _ _
@[simp] theorem State.startHalt_samplers (s : State) (c : CoreId) (x : CtxId) (h : Halt) : (s.startHalt c x h).samplers = s.samplers := State.modCtx_samplers _ _ _ _
@[simp] theorem State.startHalt_walks (s : State) (c : CoreId) (x : CtxId) (h : Halt) : (s.startHalt c x h).walks = s.walks := State.modCtx_walks _ _ _ _
@[simp] theorem State.startHalt_tlbis (s : State) (c : CoreId) (x : CtxId) (h : Halt) : (s.startHalt c x h).tlbis = s.tlbis := State.modCtx_tlbis _ _ _ _
@[simp] theorem State.startHalt_hubTlb (s : State) (c : CoreId) (x : CtxId) (h : Halt) : (s.startHalt c x h).hubTlb = s.hubTlb := State.modCtx_hubTlb _ _ _ _
@[simp] theorem State.startHalt_faults (s : State) (c : CoreId) (x : CtxId) (h : Halt) : (s.startHalt c x h).faults = s.faults := State.modCtx_faults _ _ _ _
@[simp] theorem State.startHalt_faultSeq (s : State) (c : CoreId) (x : CtxId) (h : Halt) : (s.startHalt c x h).faultSeq = s.faultSeq := State.modCtx_faultSeq _ _ _ _
@[simp] theorem State.startHalt_homes (s : State) (c : CoreId) (x : CtxId) (h : Halt) : (s.startHalt c x h).homes = s.homes := State.modCtx_homes _ _ _ _
@[simp] theorem State.startHalt_doneIds (s : State) (c : CoreId) (x : CtxId) (h : Halt) : (s.startHalt c x h).doneIds = s.doneIds := State.modCtx_doneIds _ _ _ _
@[simp] theorem State.startHalt_launches (s : State) (c : CoreId) (x : CtxId) (h : Halt) : (s.startHalt c x h).launches = s.launches := State.modCtx_launches _ _ _ _
@[simp] theorem State.startHalt_active (s : State) (c : CoreId) (x : CtxId) (h : Halt) : (s.startHalt c x h).active = s.active := State.modCtx_active _ _ _ _
@[simp] theorem State.startHalt_gangs (s : State) (c : CoreId) (x : CtxId) (h : Halt) : (s.startHalt c x h).gangs = s.gangs := State.modCtx_gangs _ _ _ _
@[simp] theorem State.startHalt_jobs (s : State) (c : CoreId) (x : CtxId) (h : Halt) : (s.startHalt c x h).jobs = s.jobs := State.modCtx_jobs _ _ _ _
@[simp] theorem State.startHalt_loads (s : State) (c : CoreId) (x : CtxId) (h : Halt) : (s.startHalt c x h).loads = s.loads := State.modCtx_loads _ _ _ _
@[simp] theorem State.startHalt_armed (s : State) (c : CoreId) (x : CtxId) (h : Halt) : (s.startHalt c x h).armed = s.armed := State.modCtx_armed _ _ _ _
@[simp] theorem State.startHalt_snapAt (s : State) (c : CoreId) (x : CtxId) (h : Halt) : (s.startHalt c x h).snapAt = s.snapAt := State.modCtx_snapAt _ _ _ _
@[simp] theorem State.startHalt_sgs (s : State) (c : CoreId) (x : CtxId) (h : Halt) : (s.startHalt c x h).sgs = s.sgs := State.modCtx_sgs _ _ _ _
@[simp] theorem State.startHalt_watch (s : State) (c : CoreId) (x : CtxId) (h : Halt) : (s.startHalt c x h).watch = s.watch := State.modCtx_watch _ _ _ _
@[simp] theorem State.startHalt_coh (s : State) (c : CoreId) (x : CtxId) (h : Halt) : (s.startHalt c x h).coh = s.coh := State.modCtx_coh _ _ _ _
@[simp] theorem State.startHalt_sys (s : State) (c : CoreId) (x : CtxId) (h : Halt) : (s.startHalt c x h).sys = s.sys := State.modCtx_sys _ _ _ _

@[simp] theorem State.unpark_cyc (s : State) (c : CoreId) (x : CtxId) (f : Ctx → Ctx) : (s.unpark c x f).cyc = s.cyc := State.modCtx_cyc _ _ _ _
@[simp] theorem State.unpark_turn (s : State) (c : CoreId) (x : CtxId) (f : Ctx → Ctx) : (s.unpark c x f).turn = s.turn := State.modCtx_turn _ _ _ _
@[simp] theorem State.unpark_slot (s : State) (c : CoreId) (x : CtxId) (f : Ctx → Ctx) : (s.unpark c x f).slot = s.slot := State.modCtx_slot _ _ _ _
@[simp] theorem State.unpark_fresh (s : State) (c : CoreId) (x : CtxId) (f : Ctx → Ctx) : (s.unpark c x f).fresh = s.fresh := State.modCtx_fresh _ _ _ _
@[simp] theorem State.unpark_agenda (s : State) (c : CoreId) (x : CtxId) (f : Ctx → Ctx) : (s.unpark c x f).agenda = s.agenda := State.modCtx_agenda _ _ _ _
@[simp] theorem State.unpark_ev (s : State) (c : CoreId) (x : CtxId) (f : Ctx → Ctx) : (s.unpark c x f).ev = s.ev := State.modCtx_ev _ _ _ _
@[simp] theorem State.unpark_outbox (s : State) (c : CoreId) (x : CtxId) (f : Ctx → Ctx) : (s.unpark c x f).outbox = s.outbox := State.modCtx_outbox _ _ _ _
@[simp] theorem State.unpark_mem (s : State) (c : CoreId) (x : CtxId) (f : Ctx → Ctx) : (s.unpark c x f).mem = s.mem := State.modCtx_mem _ _ _ _
@[simp] theorem State.unpark_atoms (s : State) (c : CoreId) (x : CtxId) (f : Ctx → Ctx) : (s.unpark c x f).atoms = s.atoms := State.modCtx_atoms _ _ _ _
@[simp] theorem State.unpark_ecc (s : State) (c : CoreId) (x : CtxId) (f : Ctx → Ctx) : (s.unpark c x f).ecc = s.ecc := State.modCtx_ecc _ _ _ _
@[simp] theorem State.unpark_rgns (s : State) (c : CoreId) (x : CtxId) (f : Ctx → Ctx) : (s.unpark c x f).rgns = s.rgns := State.modCtx_rgns _ _ _ _
@[simp] theorem State.unpark_sgWays (s : State) (c : CoreId) (x : CtxId) (f : Ctx → Ctx) : (s.unpark c x f).sgWays = s.sgWays := State.modCtx_sgWays _ _ _ _
@[simp] theorem State.unpark_sgway (s : State) (c : CoreId) (x : CtxId) (f : Ctx → Ctx) : (s.unpark c x f).sgway = s.sgway := State.modCtx_sgway _ _ _ _
@[simp] theorem State.unpark_waiters (s : State) (c : CoreId) (x : CtxId) (f : Ctx → Ctx) : (s.unpark c x f).waiters = s.waiters := State.modCtx_waiters _ _ _ _
@[simp] theorem State.unpark_withdrawnConts (s : State) (c : CoreId) (x : CtxId) (f : Ctx → Ctx) : (s.unpark c x f).withdrawnConts = s.withdrawnConts := State.modCtx_withdrawnConts _ _ _ _
@[simp] theorem State.unpark_fills (s : State) (c : CoreId) (x : CtxId) (f : Ctx → Ctx) : (s.unpark c x f).fills = s.fills := State.modCtx_fills _ _ _ _
@[simp] theorem State.unpark_held (s : State) (c : CoreId) (x : CtxId) (f : Ctx → Ctx) : (s.unpark c x f).held = s.held := State.modCtx_held _ _ _ _
@[simp] theorem State.unpark_banks (s : State) (c : CoreId) (x : CtxId) (f : Ctx → Ctx) : (s.unpark c x f).banks = s.banks := State.modCtx_banks _ _ _ _
@[simp] theorem State.unpark_bar0 (s : State) (c : CoreId) (x : CtxId) (f : Ctx → Ctx) : (s.unpark c x f).bar0 = s.bar0 := State.modCtx_bar0 _ _ _ _
@[simp] theorem State.unpark_heatk (s : State) (c : CoreId) (x : CtxId) (f : Ctx → Ctx) : (s.unpark c x f).heatk = s.heatk := State.modCtx_heatk _ _ _ _
@[simp] theorem State.unpark_heatd (s : State) (c : CoreId) (x : CtxId) (f : Ctx → Ctx) : (s.unpark c x f).heatd = s.heatd := State.modCtx_heatd _ _ _ _
@[simp] theorem State.unpark_pkg (s : State) (c : CoreId) (x : CtxId) (f : Ctx → Ctx) : (s.unpark c x f).pkg = s.pkg := State.modCtx_pkg _ _ _ _
@[simp] theorem State.unpark_fltsvc (s : State) (c : CoreId) (x : CtxId) (f : Ctx → Ctx) : (s.unpark c x f).fltsvc = s.fltsvc := State.modCtx_fltsvc _ _ _ _
@[simp] theorem State.unpark_supv (s : State) (c : CoreId) (x : CtxId) (f : Ctx → Ctx) : (s.unpark c x f).supv = s.supv := State.modCtx_supv _ _ _ _
@[simp] theorem State.unpark_tlb2 (s : State) (c : CoreId) (x : CtxId) (f : Ctx → Ctx) : (s.unpark c x f).tlb2 = s.tlb2 := State.modCtx_tlb2 _ _ _ _
@[simp] theorem State.unpark_walkCache (s : State) (c : CoreId) (x : CtxId) (f : Ctx → Ctx) : (s.unpark c x f).walkCache = s.walkCache := State.modCtx_walkCache _ _ _ _
@[simp] theorem State.unpark_samplers (s : State) (c : CoreId) (x : CtxId) (f : Ctx → Ctx) : (s.unpark c x f).samplers = s.samplers := State.modCtx_samplers _ _ _ _
@[simp] theorem State.unpark_walks (s : State) (c : CoreId) (x : CtxId) (f : Ctx → Ctx) : (s.unpark c x f).walks = s.walks := State.modCtx_walks _ _ _ _
@[simp] theorem State.unpark_tlbis (s : State) (c : CoreId) (x : CtxId) (f : Ctx → Ctx) : (s.unpark c x f).tlbis = s.tlbis := State.modCtx_tlbis _ _ _ _
@[simp] theorem State.unpark_hubTlb (s : State) (c : CoreId) (x : CtxId) (f : Ctx → Ctx) : (s.unpark c x f).hubTlb = s.hubTlb := State.modCtx_hubTlb _ _ _ _
@[simp] theorem State.unpark_faults (s : State) (c : CoreId) (x : CtxId) (f : Ctx → Ctx) : (s.unpark c x f).faults = s.faults := State.modCtx_faults _ _ _ _
@[simp] theorem State.unpark_faultSeq (s : State) (c : CoreId) (x : CtxId) (f : Ctx → Ctx) : (s.unpark c x f).faultSeq = s.faultSeq := State.modCtx_faultSeq _ _ _ _
@[simp] theorem State.unpark_homes (s : State) (c : CoreId) (x : CtxId) (f : Ctx → Ctx) : (s.unpark c x f).homes = s.homes := State.modCtx_homes _ _ _ _
@[simp] theorem State.unpark_doneIds (s : State) (c : CoreId) (x : CtxId) (f : Ctx → Ctx) : (s.unpark c x f).doneIds = s.doneIds := State.modCtx_doneIds _ _ _ _
@[simp] theorem State.unpark_launches (s : State) (c : CoreId) (x : CtxId) (f : Ctx → Ctx) : (s.unpark c x f).launches = s.launches := State.modCtx_launches _ _ _ _
@[simp] theorem State.unpark_active (s : State) (c : CoreId) (x : CtxId) (f : Ctx → Ctx) : (s.unpark c x f).active = s.active := State.modCtx_active _ _ _ _
@[simp] theorem State.unpark_gangs (s : State) (c : CoreId) (x : CtxId) (f : Ctx → Ctx) : (s.unpark c x f).gangs = s.gangs := State.modCtx_gangs _ _ _ _
@[simp] theorem State.unpark_jobs (s : State) (c : CoreId) (x : CtxId) (f : Ctx → Ctx) : (s.unpark c x f).jobs = s.jobs := State.modCtx_jobs _ _ _ _
@[simp] theorem State.unpark_loads (s : State) (c : CoreId) (x : CtxId) (f : Ctx → Ctx) : (s.unpark c x f).loads = s.loads := State.modCtx_loads _ _ _ _
@[simp] theorem State.unpark_armed (s : State) (c : CoreId) (x : CtxId) (f : Ctx → Ctx) : (s.unpark c x f).armed = s.armed := State.modCtx_armed _ _ _ _
@[simp] theorem State.unpark_snapAt (s : State) (c : CoreId) (x : CtxId) (f : Ctx → Ctx) : (s.unpark c x f).snapAt = s.snapAt := State.modCtx_snapAt _ _ _ _
@[simp] theorem State.unpark_sgs (s : State) (c : CoreId) (x : CtxId) (f : Ctx → Ctx) : (s.unpark c x f).sgs = s.sgs := State.modCtx_sgs _ _ _ _
@[simp] theorem State.unpark_watch (s : State) (c : CoreId) (x : CtxId) (f : Ctx → Ctx) : (s.unpark c x f).watch = s.watch := State.modCtx_watch _ _ _ _
@[simp] theorem State.unpark_coh (s : State) (c : CoreId) (x : CtxId) (f : Ctx → Ctx) : (s.unpark c x f).coh = s.coh := State.modCtx_coh _ _ _ _
@[simp] theorem State.unpark_sys (s : State) (c : CoreId) (x : CtxId) (f : Ctx → Ctx) : (s.unpark c x f).sys = s.sys := State.modCtx_sys _ _ _ _

@[simp] theorem State.modOp_cyc (s : State) (c : CoreId) (i : Nat) (f : Op → Op) : (s.modOp c i f).cyc = s.cyc := State.modCore_cyc _ _ _
@[simp] theorem State.modOp_turn (s : State) (c : CoreId) (i : Nat) (f : Op → Op) : (s.modOp c i f).turn = s.turn := State.modCore_turn _ _ _
@[simp] theorem State.modOp_slot (s : State) (c : CoreId) (i : Nat) (f : Op → Op) : (s.modOp c i f).slot = s.slot := State.modCore_slot _ _ _
@[simp] theorem State.modOp_fresh (s : State) (c : CoreId) (i : Nat) (f : Op → Op) : (s.modOp c i f).fresh = s.fresh := State.modCore_fresh _ _ _
@[simp] theorem State.modOp_agenda (s : State) (c : CoreId) (i : Nat) (f : Op → Op) : (s.modOp c i f).agenda = s.agenda := State.modCore_agenda _ _ _
@[simp] theorem State.modOp_ev (s : State) (c : CoreId) (i : Nat) (f : Op → Op) : (s.modOp c i f).ev = s.ev := State.modCore_ev _ _ _
@[simp] theorem State.modOp_outbox (s : State) (c : CoreId) (i : Nat) (f : Op → Op) : (s.modOp c i f).outbox = s.outbox := State.modCore_outbox _ _ _
@[simp] theorem State.modOp_mem (s : State) (c : CoreId) (i : Nat) (f : Op → Op) : (s.modOp c i f).mem = s.mem := State.modCore_mem _ _ _
@[simp] theorem State.modOp_atoms (s : State) (c : CoreId) (i : Nat) (f : Op → Op) : (s.modOp c i f).atoms = s.atoms := State.modCore_atoms _ _ _
@[simp] theorem State.modOp_ecc (s : State) (c : CoreId) (i : Nat) (f : Op → Op) : (s.modOp c i f).ecc = s.ecc := State.modCore_ecc _ _ _
@[simp] theorem State.modOp_rgns (s : State) (c : CoreId) (i : Nat) (f : Op → Op) : (s.modOp c i f).rgns = s.rgns := State.modCore_rgns _ _ _
@[simp] theorem State.modOp_sgWays (s : State) (c : CoreId) (i : Nat) (f : Op → Op) : (s.modOp c i f).sgWays = s.sgWays := State.modCore_sgWays _ _ _
@[simp] theorem State.modOp_sgway (s : State) (c : CoreId) (i : Nat) (f : Op → Op) : (s.modOp c i f).sgway = s.sgway := State.modCore_sgway _ _ _
@[simp] theorem State.modOp_waiters (s : State) (c : CoreId) (i : Nat) (f : Op → Op) : (s.modOp c i f).waiters = s.waiters := State.modCore_waiters _ _ _
@[simp] theorem State.modOp_withdrawnConts (s : State) (c : CoreId) (i : Nat) (f : Op → Op) : (s.modOp c i f).withdrawnConts = s.withdrawnConts := State.modCore_withdrawnConts _ _ _
@[simp] theorem State.modOp_fills (s : State) (c : CoreId) (i : Nat) (f : Op → Op) : (s.modOp c i f).fills = s.fills := State.modCore_fills _ _ _
@[simp] theorem State.modOp_held (s : State) (c : CoreId) (i : Nat) (f : Op → Op) : (s.modOp c i f).held = s.held := State.modCore_held _ _ _
@[simp] theorem State.modOp_banks (s : State) (c : CoreId) (i : Nat) (f : Op → Op) : (s.modOp c i f).banks = s.banks := State.modCore_banks _ _ _
@[simp] theorem State.modOp_bar0 (s : State) (c : CoreId) (i : Nat) (f : Op → Op) : (s.modOp c i f).bar0 = s.bar0 := State.modCore_bar0 _ _ _
@[simp] theorem State.modOp_heatk (s : State) (c : CoreId) (i : Nat) (f : Op → Op) : (s.modOp c i f).heatk = s.heatk := State.modCore_heatk _ _ _
@[simp] theorem State.modOp_heatd (s : State) (c : CoreId) (i : Nat) (f : Op → Op) : (s.modOp c i f).heatd = s.heatd := State.modCore_heatd _ _ _
@[simp] theorem State.modOp_pkg (s : State) (c : CoreId) (i : Nat) (f : Op → Op) : (s.modOp c i f).pkg = s.pkg := State.modCore_pkg _ _ _
@[simp] theorem State.modOp_fltsvc (s : State) (c : CoreId) (i : Nat) (f : Op → Op) : (s.modOp c i f).fltsvc = s.fltsvc := State.modCore_fltsvc _ _ _
@[simp] theorem State.modOp_supv (s : State) (c : CoreId) (i : Nat) (f : Op → Op) : (s.modOp c i f).supv = s.supv := State.modCore_supv _ _ _
@[simp] theorem State.modOp_tlb2 (s : State) (c : CoreId) (i : Nat) (f : Op → Op) : (s.modOp c i f).tlb2 = s.tlb2 := State.modCore_tlb2 _ _ _
@[simp] theorem State.modOp_walkCache (s : State) (c : CoreId) (i : Nat) (f : Op → Op) : (s.modOp c i f).walkCache = s.walkCache := State.modCore_walkCache _ _ _
@[simp] theorem State.modOp_samplers (s : State) (c : CoreId) (i : Nat) (f : Op → Op) : (s.modOp c i f).samplers = s.samplers := State.modCore_samplers _ _ _
@[simp] theorem State.modOp_walks (s : State) (c : CoreId) (i : Nat) (f : Op → Op) : (s.modOp c i f).walks = s.walks := State.modCore_walks _ _ _
@[simp] theorem State.modOp_tlbis (s : State) (c : CoreId) (i : Nat) (f : Op → Op) : (s.modOp c i f).tlbis = s.tlbis := State.modCore_tlbis _ _ _
@[simp] theorem State.modOp_hubTlb (s : State) (c : CoreId) (i : Nat) (f : Op → Op) : (s.modOp c i f).hubTlb = s.hubTlb := State.modCore_hubTlb _ _ _
@[simp] theorem State.modOp_faults (s : State) (c : CoreId) (i : Nat) (f : Op → Op) : (s.modOp c i f).faults = s.faults := State.modCore_faults _ _ _
@[simp] theorem State.modOp_faultSeq (s : State) (c : CoreId) (i : Nat) (f : Op → Op) : (s.modOp c i f).faultSeq = s.faultSeq := State.modCore_faultSeq _ _ _
@[simp] theorem State.modOp_homes (s : State) (c : CoreId) (i : Nat) (f : Op → Op) : (s.modOp c i f).homes = s.homes := State.modCore_homes _ _ _
@[simp] theorem State.modOp_doneIds (s : State) (c : CoreId) (i : Nat) (f : Op → Op) : (s.modOp c i f).doneIds = s.doneIds := State.modCore_doneIds _ _ _
@[simp] theorem State.modOp_launches (s : State) (c : CoreId) (i : Nat) (f : Op → Op) : (s.modOp c i f).launches = s.launches := State.modCore_launches _ _ _
@[simp] theorem State.modOp_active (s : State) (c : CoreId) (i : Nat) (f : Op → Op) : (s.modOp c i f).active = s.active := State.modCore_active _ _ _
@[simp] theorem State.modOp_gangs (s : State) (c : CoreId) (i : Nat) (f : Op → Op) : (s.modOp c i f).gangs = s.gangs := State.modCore_gangs _ _ _
@[simp] theorem State.modOp_jobs (s : State) (c : CoreId) (i : Nat) (f : Op → Op) : (s.modOp c i f).jobs = s.jobs := State.modCore_jobs _ _ _
@[simp] theorem State.modOp_loads (s : State) (c : CoreId) (i : Nat) (f : Op → Op) : (s.modOp c i f).loads = s.loads := State.modCore_loads _ _ _
@[simp] theorem State.modOp_armed (s : State) (c : CoreId) (i : Nat) (f : Op → Op) : (s.modOp c i f).armed = s.armed := State.modCore_armed _ _ _
@[simp] theorem State.modOp_snapAt (s : State) (c : CoreId) (i : Nat) (f : Op → Op) : (s.modOp c i f).snapAt = s.snapAt := State.modCore_snapAt _ _ _
@[simp] theorem State.modOp_sgs (s : State) (c : CoreId) (i : Nat) (f : Op → Op) : (s.modOp c i f).sgs = s.sgs := State.modCore_sgs _ _ _
@[simp] theorem State.modOp_watch (s : State) (c : CoreId) (i : Nat) (f : Op → Op) : (s.modOp c i f).watch = s.watch := State.modCore_watch _ _ _
@[simp] theorem State.modOp_coh (s : State) (c : CoreId) (i : Nat) (f : Op → Op) : (s.modOp c i f).coh = s.coh := State.modCore_coh _ _ _
@[simp] theorem State.modOp_sys (s : State) (c : CoreId) (i : Nat) (f : Op → Op) : (s.modOp c i f).sys = s.sys := State.modCore_sys _ _ _

@[simp] theorem State.after_cyc (s : State) (d : Nat) (e : Event) : (s.after d e).cyc = s.cyc := rfl
@[simp] theorem State.after_turn (s : State) (d : Nat) (e : Event) : (s.after d e).turn = s.turn := rfl
@[simp] theorem State.after_slot (s : State) (d : Nat) (e : Event) : (s.after d e).slot = s.slot := rfl
@[simp] theorem State.after_fresh (s : State) (d : Nat) (e : Event) : (s.after d e).fresh = s.fresh := rfl
@[simp] theorem State.after_ev (s : State) (d : Nat) (e : Event) : (s.after d e).ev = s.ev := rfl
@[simp] theorem State.after_outbox (s : State) (d : Nat) (e : Event) : (s.after d e).outbox = s.outbox := rfl
@[simp] theorem State.after_mem (s : State) (d : Nat) (e : Event) : (s.after d e).mem = s.mem := rfl
@[simp] theorem State.after_atoms (s : State) (d : Nat) (e : Event) : (s.after d e).atoms = s.atoms := rfl
@[simp] theorem State.after_ecc (s : State) (d : Nat) (e : Event) : (s.after d e).ecc = s.ecc := rfl
@[simp] theorem State.after_cores (s : State) (d : Nat) (e : Event) : (s.after d e).cores = s.cores := rfl
@[simp] theorem State.after_rgns (s : State) (d : Nat) (e : Event) : (s.after d e).rgns = s.rgns := rfl
@[simp] theorem State.after_sgWays (s : State) (d : Nat) (e : Event) : (s.after d e).sgWays = s.sgWays := rfl
@[simp] theorem State.after_sgway (s : State) (d : Nat) (e : Event) : (s.after d e).sgway = s.sgway := rfl
@[simp] theorem State.after_waiters (s : State) (d : Nat) (e : Event) : (s.after d e).waiters = s.waiters := rfl
@[simp] theorem State.after_withdrawnConts (s : State) (d : Nat) (e : Event) : (s.after d e).withdrawnConts = s.withdrawnConts := rfl
@[simp] theorem State.after_fills (s : State) (d : Nat) (e : Event) : (s.after d e).fills = s.fills := rfl
@[simp] theorem State.after_held (s : State) (d : Nat) (e : Event) : (s.after d e).held = s.held := rfl
@[simp] theorem State.after_banks (s : State) (d : Nat) (e : Event) : (s.after d e).banks = s.banks := rfl
@[simp] theorem State.after_bar0 (s : State) (d : Nat) (e : Event) : (s.after d e).bar0 = s.bar0 := rfl
@[simp] theorem State.after_heatk (s : State) (d : Nat) (e : Event) : (s.after d e).heatk = s.heatk := rfl
@[simp] theorem State.after_heatd (s : State) (d : Nat) (e : Event) : (s.after d e).heatd = s.heatd := rfl
@[simp] theorem State.after_pkg (s : State) (d : Nat) (e : Event) : (s.after d e).pkg = s.pkg := rfl
@[simp] theorem State.after_fltsvc (s : State) (d : Nat) (e : Event) : (s.after d e).fltsvc = s.fltsvc := rfl
@[simp] theorem State.after_supv (s : State) (d : Nat) (e : Event) : (s.after d e).supv = s.supv := rfl
@[simp] theorem State.after_tlb2 (s : State) (d : Nat) (e : Event) : (s.after d e).tlb2 = s.tlb2 := rfl
@[simp] theorem State.after_walkCache (s : State) (d : Nat) (e : Event) : (s.after d e).walkCache = s.walkCache := rfl
@[simp] theorem State.after_samplers (s : State) (d : Nat) (e : Event) : (s.after d e).samplers = s.samplers := rfl
@[simp] theorem State.after_walks (s : State) (d : Nat) (e : Event) : (s.after d e).walks = s.walks := rfl
@[simp] theorem State.after_tlbis (s : State) (d : Nat) (e : Event) : (s.after d e).tlbis = s.tlbis := rfl
@[simp] theorem State.after_hubTlb (s : State) (d : Nat) (e : Event) : (s.after d e).hubTlb = s.hubTlb := rfl
@[simp] theorem State.after_faults (s : State) (d : Nat) (e : Event) : (s.after d e).faults = s.faults := rfl
@[simp] theorem State.after_faultSeq (s : State) (d : Nat) (e : Event) : (s.after d e).faultSeq = s.faultSeq := rfl
@[simp] theorem State.after_homes (s : State) (d : Nat) (e : Event) : (s.after d e).homes = s.homes := rfl
@[simp] theorem State.after_doneIds (s : State) (d : Nat) (e : Event) : (s.after d e).doneIds = s.doneIds := rfl
@[simp] theorem State.after_launches (s : State) (d : Nat) (e : Event) : (s.after d e).launches = s.launches := rfl
@[simp] theorem State.after_active (s : State) (d : Nat) (e : Event) : (s.after d e).active = s.active := rfl
@[simp] theorem State.after_gangs (s : State) (d : Nat) (e : Event) : (s.after d e).gangs = s.gangs := rfl
@[simp] theorem State.after_jobs (s : State) (d : Nat) (e : Event) : (s.after d e).jobs = s.jobs := rfl
@[simp] theorem State.after_loads (s : State) (d : Nat) (e : Event) : (s.after d e).loads = s.loads := rfl
@[simp] theorem State.after_armed (s : State) (d : Nat) (e : Event) : (s.after d e).armed = s.armed := rfl
@[simp] theorem State.after_snapAt (s : State) (d : Nat) (e : Event) : (s.after d e).snapAt = s.snapAt := rfl
@[simp] theorem State.after_sgs (s : State) (d : Nat) (e : Event) : (s.after d e).sgs = s.sgs := rfl
@[simp] theorem State.after_watch (s : State) (d : Nat) (e : Event) : (s.after d e).watch = s.watch := rfl
@[simp] theorem State.after_coh (s : State) (d : Nat) (e : Event) : (s.after d e).coh = s.coh := rfl
@[simp] theorem State.after_sys (s : State) (d : Nat) (e : Event) : (s.after d e).sys = s.sys := rfl

@[simp] theorem State.afterFree_cyc (s : State) (e : Event) : (s.afterFree e).cyc = s.cyc := rfl
@[simp] theorem State.afterFree_turn (s : State) (e : Event) : (s.afterFree e).turn = s.turn := rfl
@[simp] theorem State.afterFree_slot (s : State) (e : Event) : (s.afterFree e).slot = s.slot := rfl
@[simp] theorem State.afterFree_ev (s : State) (e : Event) : (s.afterFree e).ev = s.ev := rfl
@[simp] theorem State.afterFree_outbox (s : State) (e : Event) : (s.afterFree e).outbox = s.outbox := rfl
@[simp] theorem State.afterFree_mem (s : State) (e : Event) : (s.afterFree e).mem = s.mem := rfl
@[simp] theorem State.afterFree_atoms (s : State) (e : Event) : (s.afterFree e).atoms = s.atoms := rfl
@[simp] theorem State.afterFree_ecc (s : State) (e : Event) : (s.afterFree e).ecc = s.ecc := rfl
@[simp] theorem State.afterFree_cores (s : State) (e : Event) : (s.afterFree e).cores = s.cores := rfl
@[simp] theorem State.afterFree_rgns (s : State) (e : Event) : (s.afterFree e).rgns = s.rgns := rfl
@[simp] theorem State.afterFree_sgWays (s : State) (e : Event) : (s.afterFree e).sgWays = s.sgWays := rfl
@[simp] theorem State.afterFree_sgway (s : State) (e : Event) : (s.afterFree e).sgway = s.sgway := rfl
@[simp] theorem State.afterFree_waiters (s : State) (e : Event) : (s.afterFree e).waiters = s.waiters := rfl
@[simp] theorem State.afterFree_withdrawnConts (s : State) (e : Event) : (s.afterFree e).withdrawnConts = s.withdrawnConts := rfl
@[simp] theorem State.afterFree_fills (s : State) (e : Event) : (s.afterFree e).fills = s.fills := rfl
@[simp] theorem State.afterFree_held (s : State) (e : Event) : (s.afterFree e).held = s.held := rfl
@[simp] theorem State.afterFree_banks (s : State) (e : Event) : (s.afterFree e).banks = s.banks := rfl
@[simp] theorem State.afterFree_bar0 (s : State) (e : Event) : (s.afterFree e).bar0 = s.bar0 := rfl
@[simp] theorem State.afterFree_heatk (s : State) (e : Event) : (s.afterFree e).heatk = s.heatk := rfl
@[simp] theorem State.afterFree_heatd (s : State) (e : Event) : (s.afterFree e).heatd = s.heatd := rfl
@[simp] theorem State.afterFree_pkg (s : State) (e : Event) : (s.afterFree e).pkg = s.pkg := rfl
@[simp] theorem State.afterFree_fltsvc (s : State) (e : Event) : (s.afterFree e).fltsvc = s.fltsvc := rfl
@[simp] theorem State.afterFree_supv (s : State) (e : Event) : (s.afterFree e).supv = s.supv := rfl
@[simp] theorem State.afterFree_tlb2 (s : State) (e : Event) : (s.afterFree e).tlb2 = s.tlb2 := rfl
@[simp] theorem State.afterFree_walkCache (s : State) (e : Event) : (s.afterFree e).walkCache = s.walkCache := rfl
@[simp] theorem State.afterFree_samplers (s : State) (e : Event) : (s.afterFree e).samplers = s.samplers := rfl
@[simp] theorem State.afterFree_walks (s : State) (e : Event) : (s.afterFree e).walks = s.walks := rfl
@[simp] theorem State.afterFree_tlbis (s : State) (e : Event) : (s.afterFree e).tlbis = s.tlbis := rfl
@[simp] theorem State.afterFree_hubTlb (s : State) (e : Event) : (s.afterFree e).hubTlb = s.hubTlb := rfl
@[simp] theorem State.afterFree_faults (s : State) (e : Event) : (s.afterFree e).faults = s.faults := rfl
@[simp] theorem State.afterFree_faultSeq (s : State) (e : Event) : (s.afterFree e).faultSeq = s.faultSeq := rfl
@[simp] theorem State.afterFree_homes (s : State) (e : Event) : (s.afterFree e).homes = s.homes := rfl
@[simp] theorem State.afterFree_doneIds (s : State) (e : Event) : (s.afterFree e).doneIds = s.doneIds := rfl
@[simp] theorem State.afterFree_launches (s : State) (e : Event) : (s.afterFree e).launches = s.launches := rfl
@[simp] theorem State.afterFree_active (s : State) (e : Event) : (s.afterFree e).active = s.active := rfl
@[simp] theorem State.afterFree_gangs (s : State) (e : Event) : (s.afterFree e).gangs = s.gangs := rfl
@[simp] theorem State.afterFree_jobs (s : State) (e : Event) : (s.afterFree e).jobs = s.jobs := rfl
@[simp] theorem State.afterFree_loads (s : State) (e : Event) : (s.afterFree e).loads = s.loads := rfl
@[simp] theorem State.afterFree_armed (s : State) (e : Event) : (s.afterFree e).armed = s.armed := rfl
@[simp] theorem State.afterFree_snapAt (s : State) (e : Event) : (s.afterFree e).snapAt = s.snapAt := rfl
@[simp] theorem State.afterFree_sgs (s : State) (e : Event) : (s.afterFree e).sgs = s.sgs := rfl
@[simp] theorem State.afterFree_watch (s : State) (e : Event) : (s.afterFree e).watch = s.watch := rfl
@[simp] theorem State.afterFree_coh (s : State) (e : Event) : (s.afterFree e).coh = s.coh := rfl
@[simp] theorem State.afterFree_sys (s : State) (e : Event) : (s.afterFree e).sys = s.sys := rfl

@[simp] theorem State.meshAfter_cyc (s : State) (a b : BitVec 8) (k : MeshClass) (e : Event) : (s.meshAfter a b k e).cyc = s.cyc := by unfold State.meshAfter; split <;> rfl
@[simp] theorem State.meshAfter_turn (s : State) (a b : BitVec 8) (k : MeshClass) (e : Event) : (s.meshAfter a b k e).turn = s.turn := by unfold State.meshAfter; split <;> rfl
@[simp] theorem State.meshAfter_slot (s : State) (a b : BitVec 8) (k : MeshClass) (e : Event) : (s.meshAfter a b k e).slot = s.slot := by unfold State.meshAfter; split <;> rfl
@[simp] theorem State.meshAfter_ev (s : State) (a b : BitVec 8) (k : MeshClass) (e : Event) : (s.meshAfter a b k e).ev = s.ev := by unfold State.meshAfter; split <;> rfl
@[simp] theorem State.meshAfter_outbox (s : State) (a b : BitVec 8) (k : MeshClass) (e : Event) : (s.meshAfter a b k e).outbox = s.outbox := by unfold State.meshAfter; split <;> rfl
@[simp] theorem State.meshAfter_mem (s : State) (a b : BitVec 8) (k : MeshClass) (e : Event) : (s.meshAfter a b k e).mem = s.mem := by unfold State.meshAfter; split <;> rfl
@[simp] theorem State.meshAfter_atoms (s : State) (a b : BitVec 8) (k : MeshClass) (e : Event) : (s.meshAfter a b k e).atoms = s.atoms := by unfold State.meshAfter; split <;> rfl
@[simp] theorem State.meshAfter_ecc (s : State) (a b : BitVec 8) (k : MeshClass) (e : Event) : (s.meshAfter a b k e).ecc = s.ecc := by unfold State.meshAfter; split <;> rfl
@[simp] theorem State.meshAfter_cores (s : State) (a b : BitVec 8) (k : MeshClass) (e : Event) : (s.meshAfter a b k e).cores = s.cores := by unfold State.meshAfter; split <;> rfl
@[simp] theorem State.meshAfter_rgns (s : State) (a b : BitVec 8) (k : MeshClass) (e : Event) : (s.meshAfter a b k e).rgns = s.rgns := by unfold State.meshAfter; split <;> rfl
@[simp] theorem State.meshAfter_sgWays (s : State) (a b : BitVec 8) (k : MeshClass) (e : Event) : (s.meshAfter a b k e).sgWays = s.sgWays := by unfold State.meshAfter; split <;> rfl
@[simp] theorem State.meshAfter_sgway (s : State) (a b : BitVec 8) (k : MeshClass) (e : Event) : (s.meshAfter a b k e).sgway = s.sgway := by unfold State.meshAfter; split <;> rfl
@[simp] theorem State.meshAfter_waiters (s : State) (a b : BitVec 8) (k : MeshClass) (e : Event) : (s.meshAfter a b k e).waiters = s.waiters := by unfold State.meshAfter; split <;> rfl
@[simp] theorem State.meshAfter_withdrawnConts (s : State) (a b : BitVec 8) (k : MeshClass) (e : Event) : (s.meshAfter a b k e).withdrawnConts = s.withdrawnConts := by unfold State.meshAfter; split <;> rfl
@[simp] theorem State.meshAfter_fills (s : State) (a b : BitVec 8) (k : MeshClass) (e : Event) : (s.meshAfter a b k e).fills = s.fills := by unfold State.meshAfter; split <;> rfl
@[simp] theorem State.meshAfter_held (s : State) (a b : BitVec 8) (k : MeshClass) (e : Event) : (s.meshAfter a b k e).held = s.held := by unfold State.meshAfter; split <;> rfl
@[simp] theorem State.meshAfter_banks (s : State) (a b : BitVec 8) (k : MeshClass) (e : Event) : (s.meshAfter a b k e).banks = s.banks := by unfold State.meshAfter; split <;> rfl
@[simp] theorem State.meshAfter_bar0 (s : State) (a b : BitVec 8) (k : MeshClass) (e : Event) : (s.meshAfter a b k e).bar0 = s.bar0 := by unfold State.meshAfter; split <;> rfl
@[simp] theorem State.meshAfter_heatk (s : State) (a b : BitVec 8) (k : MeshClass) (e : Event) : (s.meshAfter a b k e).heatk = s.heatk := by unfold State.meshAfter; split <;> rfl
@[simp] theorem State.meshAfter_heatd (s : State) (a b : BitVec 8) (k : MeshClass) (e : Event) : (s.meshAfter a b k e).heatd = s.heatd := by unfold State.meshAfter; split <;> rfl
@[simp] theorem State.meshAfter_pkg (s : State) (a b : BitVec 8) (k : MeshClass) (e : Event) : (s.meshAfter a b k e).pkg = s.pkg := by unfold State.meshAfter; split <;> rfl
@[simp] theorem State.meshAfter_fltsvc (s : State) (a b : BitVec 8) (k : MeshClass) (e : Event) : (s.meshAfter a b k e).fltsvc = s.fltsvc := by unfold State.meshAfter; split <;> rfl
@[simp] theorem State.meshAfter_supv (s : State) (a b : BitVec 8) (k : MeshClass) (e : Event) : (s.meshAfter a b k e).supv = s.supv := by unfold State.meshAfter; split <;> rfl
@[simp] theorem State.meshAfter_tlb2 (s : State) (a b : BitVec 8) (k : MeshClass) (e : Event) : (s.meshAfter a b k e).tlb2 = s.tlb2 := by unfold State.meshAfter; split <;> rfl
@[simp] theorem State.meshAfter_walkCache (s : State) (a b : BitVec 8) (k : MeshClass) (e : Event) : (s.meshAfter a b k e).walkCache = s.walkCache := by unfold State.meshAfter; split <;> rfl
@[simp] theorem State.meshAfter_samplers (s : State) (a b : BitVec 8) (k : MeshClass) (e : Event) : (s.meshAfter a b k e).samplers = s.samplers := by unfold State.meshAfter; split <;> rfl
@[simp] theorem State.meshAfter_walks (s : State) (a b : BitVec 8) (k : MeshClass) (e : Event) : (s.meshAfter a b k e).walks = s.walks := by unfold State.meshAfter; split <;> rfl
@[simp] theorem State.meshAfter_tlbis (s : State) (a b : BitVec 8) (k : MeshClass) (e : Event) : (s.meshAfter a b k e).tlbis = s.tlbis := by unfold State.meshAfter; split <;> rfl
@[simp] theorem State.meshAfter_hubTlb (s : State) (a b : BitVec 8) (k : MeshClass) (e : Event) : (s.meshAfter a b k e).hubTlb = s.hubTlb := by unfold State.meshAfter; split <;> rfl
@[simp] theorem State.meshAfter_faults (s : State) (a b : BitVec 8) (k : MeshClass) (e : Event) : (s.meshAfter a b k e).faults = s.faults := by unfold State.meshAfter; split <;> rfl
@[simp] theorem State.meshAfter_faultSeq (s : State) (a b : BitVec 8) (k : MeshClass) (e : Event) : (s.meshAfter a b k e).faultSeq = s.faultSeq := by unfold State.meshAfter; split <;> rfl
@[simp] theorem State.meshAfter_homes (s : State) (a b : BitVec 8) (k : MeshClass) (e : Event) : (s.meshAfter a b k e).homes = s.homes := by unfold State.meshAfter; split <;> rfl
@[simp] theorem State.meshAfter_doneIds (s : State) (a b : BitVec 8) (k : MeshClass) (e : Event) : (s.meshAfter a b k e).doneIds = s.doneIds := by unfold State.meshAfter; split <;> rfl
@[simp] theorem State.meshAfter_launches (s : State) (a b : BitVec 8) (k : MeshClass) (e : Event) : (s.meshAfter a b k e).launches = s.launches := by unfold State.meshAfter; split <;> rfl
@[simp] theorem State.meshAfter_active (s : State) (a b : BitVec 8) (k : MeshClass) (e : Event) : (s.meshAfter a b k e).active = s.active := by unfold State.meshAfter; split <;> rfl
@[simp] theorem State.meshAfter_gangs (s : State) (a b : BitVec 8) (k : MeshClass) (e : Event) : (s.meshAfter a b k e).gangs = s.gangs := by unfold State.meshAfter; split <;> rfl
@[simp] theorem State.meshAfter_jobs (s : State) (a b : BitVec 8) (k : MeshClass) (e : Event) : (s.meshAfter a b k e).jobs = s.jobs := by unfold State.meshAfter; split <;> rfl
@[simp] theorem State.meshAfter_loads (s : State) (a b : BitVec 8) (k : MeshClass) (e : Event) : (s.meshAfter a b k e).loads = s.loads := by unfold State.meshAfter; split <;> rfl
@[simp] theorem State.meshAfter_armed (s : State) (a b : BitVec 8) (k : MeshClass) (e : Event) : (s.meshAfter a b k e).armed = s.armed := by unfold State.meshAfter; split <;> rfl
@[simp] theorem State.meshAfter_snapAt (s : State) (a b : BitVec 8) (k : MeshClass) (e : Event) : (s.meshAfter a b k e).snapAt = s.snapAt := by unfold State.meshAfter; split <;> rfl
@[simp] theorem State.meshAfter_sgs (s : State) (a b : BitVec 8) (k : MeshClass) (e : Event) : (s.meshAfter a b k e).sgs = s.sgs := by unfold State.meshAfter; split <;> rfl
@[simp] theorem State.meshAfter_watch (s : State) (a b : BitVec 8) (k : MeshClass) (e : Event) : (s.meshAfter a b k e).watch = s.watch := by unfold State.meshAfter; split <;> rfl
@[simp] theorem State.meshAfter_coh (s : State) (a b : BitVec 8) (k : MeshClass) (e : Event) : (s.meshAfter a b k e).coh = s.coh := by unfold State.meshAfter; split <;> rfl

@[simp] theorem State.sendMsg_cyc (s : State) (m : Msg) : (s.sendMsg m).cyc = s.cyc := State.meshAfter_cyc _ _ _ _ _
@[simp] theorem State.sendMsg_turn (s : State) (m : Msg) : (s.sendMsg m).turn = s.turn := State.meshAfter_turn _ _ _ _ _
@[simp] theorem State.sendMsg_slot (s : State) (m : Msg) : (s.sendMsg m).slot = s.slot := State.meshAfter_slot _ _ _ _ _
@[simp] theorem State.sendMsg_ev (s : State) (m : Msg) : (s.sendMsg m).ev = s.ev := State.meshAfter_ev _ _ _ _ _
@[simp] theorem State.sendMsg_outbox (s : State) (m : Msg) : (s.sendMsg m).outbox = s.outbox := State.meshAfter_outbox _ _ _ _ _
@[simp] theorem State.sendMsg_mem (s : State) (m : Msg) : (s.sendMsg m).mem = s.mem := State.meshAfter_mem _ _ _ _ _
@[simp] theorem State.sendMsg_atoms (s : State) (m : Msg) : (s.sendMsg m).atoms = s.atoms := State.meshAfter_atoms _ _ _ _ _
@[simp] theorem State.sendMsg_ecc (s : State) (m : Msg) : (s.sendMsg m).ecc = s.ecc := State.meshAfter_ecc _ _ _ _ _
@[simp] theorem State.sendMsg_cores (s : State) (m : Msg) : (s.sendMsg m).cores = s.cores := State.meshAfter_cores _ _ _ _ _
@[simp] theorem State.sendMsg_rgns (s : State) (m : Msg) : (s.sendMsg m).rgns = s.rgns := State.meshAfter_rgns _ _ _ _ _
@[simp] theorem State.sendMsg_sgWays (s : State) (m : Msg) : (s.sendMsg m).sgWays = s.sgWays := State.meshAfter_sgWays _ _ _ _ _
@[simp] theorem State.sendMsg_sgway (s : State) (m : Msg) : (s.sendMsg m).sgway = s.sgway := State.meshAfter_sgway _ _ _ _ _
@[simp] theorem State.sendMsg_waiters (s : State) (m : Msg) : (s.sendMsg m).waiters = s.waiters := State.meshAfter_waiters _ _ _ _ _
@[simp] theorem State.sendMsg_withdrawnConts (s : State) (m : Msg) : (s.sendMsg m).withdrawnConts = s.withdrawnConts := State.meshAfter_withdrawnConts _ _ _ _ _
@[simp] theorem State.sendMsg_fills (s : State) (m : Msg) : (s.sendMsg m).fills = s.fills := State.meshAfter_fills _ _ _ _ _
@[simp] theorem State.sendMsg_held (s : State) (m : Msg) : (s.sendMsg m).held = s.held := State.meshAfter_held _ _ _ _ _
@[simp] theorem State.sendMsg_banks (s : State) (m : Msg) : (s.sendMsg m).banks = s.banks := State.meshAfter_banks _ _ _ _ _
@[simp] theorem State.sendMsg_bar0 (s : State) (m : Msg) : (s.sendMsg m).bar0 = s.bar0 := State.meshAfter_bar0 _ _ _ _ _
@[simp] theorem State.sendMsg_heatk (s : State) (m : Msg) : (s.sendMsg m).heatk = s.heatk := State.meshAfter_heatk _ _ _ _ _
@[simp] theorem State.sendMsg_heatd (s : State) (m : Msg) : (s.sendMsg m).heatd = s.heatd := State.meshAfter_heatd _ _ _ _ _
@[simp] theorem State.sendMsg_pkg (s : State) (m : Msg) : (s.sendMsg m).pkg = s.pkg := State.meshAfter_pkg _ _ _ _ _
@[simp] theorem State.sendMsg_fltsvc (s : State) (m : Msg) : (s.sendMsg m).fltsvc = s.fltsvc := State.meshAfter_fltsvc _ _ _ _ _
@[simp] theorem State.sendMsg_supv (s : State) (m : Msg) : (s.sendMsg m).supv = s.supv := State.meshAfter_supv _ _ _ _ _
@[simp] theorem State.sendMsg_tlb2 (s : State) (m : Msg) : (s.sendMsg m).tlb2 = s.tlb2 := State.meshAfter_tlb2 _ _ _ _ _
@[simp] theorem State.sendMsg_walkCache (s : State) (m : Msg) : (s.sendMsg m).walkCache = s.walkCache := State.meshAfter_walkCache _ _ _ _ _
@[simp] theorem State.sendMsg_samplers (s : State) (m : Msg) : (s.sendMsg m).samplers = s.samplers := State.meshAfter_samplers _ _ _ _ _
@[simp] theorem State.sendMsg_walks (s : State) (m : Msg) : (s.sendMsg m).walks = s.walks := State.meshAfter_walks _ _ _ _ _
@[simp] theorem State.sendMsg_tlbis (s : State) (m : Msg) : (s.sendMsg m).tlbis = s.tlbis := State.meshAfter_tlbis _ _ _ _ _
@[simp] theorem State.sendMsg_hubTlb (s : State) (m : Msg) : (s.sendMsg m).hubTlb = s.hubTlb := State.meshAfter_hubTlb _ _ _ _ _
@[simp] theorem State.sendMsg_faults (s : State) (m : Msg) : (s.sendMsg m).faults = s.faults := State.meshAfter_faults _ _ _ _ _
@[simp] theorem State.sendMsg_faultSeq (s : State) (m : Msg) : (s.sendMsg m).faultSeq = s.faultSeq := State.meshAfter_faultSeq _ _ _ _ _
@[simp] theorem State.sendMsg_homes (s : State) (m : Msg) : (s.sendMsg m).homes = s.homes := State.meshAfter_homes _ _ _ _ _
@[simp] theorem State.sendMsg_doneIds (s : State) (m : Msg) : (s.sendMsg m).doneIds = s.doneIds := State.meshAfter_doneIds _ _ _ _ _
@[simp] theorem State.sendMsg_launches (s : State) (m : Msg) : (s.sendMsg m).launches = s.launches := State.meshAfter_launches _ _ _ _ _
@[simp] theorem State.sendMsg_active (s : State) (m : Msg) : (s.sendMsg m).active = s.active := State.meshAfter_active _ _ _ _ _
@[simp] theorem State.sendMsg_gangs (s : State) (m : Msg) : (s.sendMsg m).gangs = s.gangs := State.meshAfter_gangs _ _ _ _ _
@[simp] theorem State.sendMsg_jobs (s : State) (m : Msg) : (s.sendMsg m).jobs = s.jobs := State.meshAfter_jobs _ _ _ _ _
@[simp] theorem State.sendMsg_loads (s : State) (m : Msg) : (s.sendMsg m).loads = s.loads := State.meshAfter_loads _ _ _ _ _
@[simp] theorem State.sendMsg_armed (s : State) (m : Msg) : (s.sendMsg m).armed = s.armed := State.meshAfter_armed _ _ _ _ _
@[simp] theorem State.sendMsg_snapAt (s : State) (m : Msg) : (s.sendMsg m).snapAt = s.snapAt := State.meshAfter_snapAt _ _ _ _ _
@[simp] theorem State.sendMsg_sgs (s : State) (m : Msg) : (s.sendMsg m).sgs = s.sgs := State.meshAfter_sgs _ _ _ _ _
@[simp] theorem State.sendMsg_watch (s : State) (m : Msg) : (s.sendMsg m).watch = s.watch := State.meshAfter_watch _ _ _ _ _
@[simp] theorem State.sendMsg_coh (s : State) (m : Msg) : (s.sendMsg m).coh = s.coh := State.meshAfter_coh _ _ _ _ _

@[simp] theorem State.notify_cyc (s : State) (d : BitVec 3) (n : Notice) : (s.notify d n).cyc = s.cyc := State.after_cyc _ _ _
@[simp] theorem State.notify_turn (s : State) (d : BitVec 3) (n : Notice) : (s.notify d n).turn = s.turn := State.after_turn _ _ _
@[simp] theorem State.notify_slot (s : State) (d : BitVec 3) (n : Notice) : (s.notify d n).slot = s.slot := State.after_slot _ _ _
@[simp] theorem State.notify_fresh (s : State) (d : BitVec 3) (n : Notice) : (s.notify d n).fresh = s.fresh := State.after_fresh _ _ _
@[simp] theorem State.notify_ev (s : State) (d : BitVec 3) (n : Notice) : (s.notify d n).ev = s.ev := State.after_ev _ _ _
@[simp] theorem State.notify_outbox (s : State) (d : BitVec 3) (n : Notice) : (s.notify d n).outbox = s.outbox := State.after_outbox _ _ _
@[simp] theorem State.notify_mem (s : State) (d : BitVec 3) (n : Notice) : (s.notify d n).mem = s.mem := State.after_mem _ _ _
@[simp] theorem State.notify_atoms (s : State) (d : BitVec 3) (n : Notice) : (s.notify d n).atoms = s.atoms := State.after_atoms _ _ _
@[simp] theorem State.notify_ecc (s : State) (d : BitVec 3) (n : Notice) : (s.notify d n).ecc = s.ecc := State.after_ecc _ _ _
@[simp] theorem State.notify_cores (s : State) (d : BitVec 3) (n : Notice) : (s.notify d n).cores = s.cores := State.after_cores _ _ _
@[simp] theorem State.notify_rgns (s : State) (d : BitVec 3) (n : Notice) : (s.notify d n).rgns = s.rgns := State.after_rgns _ _ _
@[simp] theorem State.notify_sgWays (s : State) (d : BitVec 3) (n : Notice) : (s.notify d n).sgWays = s.sgWays := State.after_sgWays _ _ _
@[simp] theorem State.notify_sgway (s : State) (d : BitVec 3) (n : Notice) : (s.notify d n).sgway = s.sgway := State.after_sgway _ _ _
@[simp] theorem State.notify_waiters (s : State) (d : BitVec 3) (n : Notice) : (s.notify d n).waiters = s.waiters := State.after_waiters _ _ _
@[simp] theorem State.notify_withdrawnConts (s : State) (d : BitVec 3) (n : Notice) : (s.notify d n).withdrawnConts = s.withdrawnConts := State.after_withdrawnConts _ _ _
@[simp] theorem State.notify_fills (s : State) (d : BitVec 3) (n : Notice) : (s.notify d n).fills = s.fills := State.after_fills _ _ _
@[simp] theorem State.notify_held (s : State) (d : BitVec 3) (n : Notice) : (s.notify d n).held = s.held := State.after_held _ _ _
@[simp] theorem State.notify_banks (s : State) (d : BitVec 3) (n : Notice) : (s.notify d n).banks = s.banks := State.after_banks _ _ _
@[simp] theorem State.notify_bar0 (s : State) (d : BitVec 3) (n : Notice) : (s.notify d n).bar0 = s.bar0 := State.after_bar0 _ _ _
@[simp] theorem State.notify_heatk (s : State) (d : BitVec 3) (n : Notice) : (s.notify d n).heatk = s.heatk := State.after_heatk _ _ _
@[simp] theorem State.notify_heatd (s : State) (d : BitVec 3) (n : Notice) : (s.notify d n).heatd = s.heatd := State.after_heatd _ _ _
@[simp] theorem State.notify_pkg (s : State) (d : BitVec 3) (n : Notice) : (s.notify d n).pkg = s.pkg := State.after_pkg _ _ _
@[simp] theorem State.notify_fltsvc (s : State) (d : BitVec 3) (n : Notice) : (s.notify d n).fltsvc = s.fltsvc := State.after_fltsvc _ _ _
@[simp] theorem State.notify_supv (s : State) (d : BitVec 3) (n : Notice) : (s.notify d n).supv = s.supv := State.after_supv _ _ _
@[simp] theorem State.notify_tlb2 (s : State) (d : BitVec 3) (n : Notice) : (s.notify d n).tlb2 = s.tlb2 := State.after_tlb2 _ _ _
@[simp] theorem State.notify_walkCache (s : State) (d : BitVec 3) (n : Notice) : (s.notify d n).walkCache = s.walkCache := State.after_walkCache _ _ _
@[simp] theorem State.notify_samplers (s : State) (d : BitVec 3) (n : Notice) : (s.notify d n).samplers = s.samplers := State.after_samplers _ _ _
@[simp] theorem State.notify_walks (s : State) (d : BitVec 3) (n : Notice) : (s.notify d n).walks = s.walks := State.after_walks _ _ _
@[simp] theorem State.notify_tlbis (s : State) (d : BitVec 3) (n : Notice) : (s.notify d n).tlbis = s.tlbis := State.after_tlbis _ _ _
@[simp] theorem State.notify_hubTlb (s : State) (d : BitVec 3) (n : Notice) : (s.notify d n).hubTlb = s.hubTlb := State.after_hubTlb _ _ _
@[simp] theorem State.notify_faults (s : State) (d : BitVec 3) (n : Notice) : (s.notify d n).faults = s.faults := State.after_faults _ _ _
@[simp] theorem State.notify_faultSeq (s : State) (d : BitVec 3) (n : Notice) : (s.notify d n).faultSeq = s.faultSeq := State.after_faultSeq _ _ _
@[simp] theorem State.notify_homes (s : State) (d : BitVec 3) (n : Notice) : (s.notify d n).homes = s.homes := State.after_homes _ _ _
@[simp] theorem State.notify_doneIds (s : State) (d : BitVec 3) (n : Notice) : (s.notify d n).doneIds = s.doneIds := State.after_doneIds _ _ _
@[simp] theorem State.notify_launches (s : State) (d : BitVec 3) (n : Notice) : (s.notify d n).launches = s.launches := State.after_launches _ _ _
@[simp] theorem State.notify_active (s : State) (d : BitVec 3) (n : Notice) : (s.notify d n).active = s.active := State.after_active _ _ _
@[simp] theorem State.notify_gangs (s : State) (d : BitVec 3) (n : Notice) : (s.notify d n).gangs = s.gangs := State.after_gangs _ _ _
@[simp] theorem State.notify_jobs (s : State) (d : BitVec 3) (n : Notice) : (s.notify d n).jobs = s.jobs := State.after_jobs _ _ _
@[simp] theorem State.notify_loads (s : State) (d : BitVec 3) (n : Notice) : (s.notify d n).loads = s.loads := State.after_loads _ _ _
@[simp] theorem State.notify_armed (s : State) (d : BitVec 3) (n : Notice) : (s.notify d n).armed = s.armed := State.after_armed _ _ _
@[simp] theorem State.notify_snapAt (s : State) (d : BitVec 3) (n : Notice) : (s.notify d n).snapAt = s.snapAt := State.after_snapAt _ _ _
@[simp] theorem State.notify_sgs (s : State) (d : BitVec 3) (n : Notice) : (s.notify d n).sgs = s.sgs := State.after_sgs _ _ _
@[simp] theorem State.notify_watch (s : State) (d : BitVec 3) (n : Notice) : (s.notify d n).watch = s.watch := State.after_watch _ _ _
@[simp] theorem State.notify_coh (s : State) (d : BitVec 3) (n : Notice) : (s.notify d n).coh = s.coh := State.after_coh _ _ _
@[simp] theorem State.notify_sys (s : State) (d : BitVec 3) (n : Notice) : (s.notify d n).sys = s.sys := State.after_sys _ _ _

@[simp] theorem State.raise_cyc (s : State) (c : CoreId) (x : CtxId) (t : Trap) : (s.raise c x t).cyc = s.cyc := (State.after_cyc _ _ _).trans (State.modCtx_cyc _ _ _ _)
@[simp] theorem State.raise_turn (s : State) (c : CoreId) (x : CtxId) (t : Trap) : (s.raise c x t).turn = s.turn := (State.after_turn _ _ _).trans (State.modCtx_turn _ _ _ _)
@[simp] theorem State.raise_slot (s : State) (c : CoreId) (x : CtxId) (t : Trap) : (s.raise c x t).slot = s.slot := (State.after_slot _ _ _).trans (State.modCtx_slot _ _ _ _)
@[simp] theorem State.raise_fresh (s : State) (c : CoreId) (x : CtxId) (t : Trap) : (s.raise c x t).fresh = s.fresh := (State.after_fresh _ _ _).trans (State.modCtx_fresh _ _ _ _)
@[simp] theorem State.raise_ev (s : State) (c : CoreId) (x : CtxId) (t : Trap) : (s.raise c x t).ev = s.ev := (State.after_ev _ _ _).trans (State.modCtx_ev _ _ _ _)
@[simp] theorem State.raise_outbox (s : State) (c : CoreId) (x : CtxId) (t : Trap) : (s.raise c x t).outbox = s.outbox := (State.after_outbox _ _ _).trans (State.modCtx_outbox _ _ _ _)
@[simp] theorem State.raise_mem (s : State) (c : CoreId) (x : CtxId) (t : Trap) : (s.raise c x t).mem = s.mem := (State.after_mem _ _ _).trans (State.modCtx_mem _ _ _ _)
@[simp] theorem State.raise_atoms (s : State) (c : CoreId) (x : CtxId) (t : Trap) : (s.raise c x t).atoms = s.atoms := (State.after_atoms _ _ _).trans (State.modCtx_atoms _ _ _ _)
@[simp] theorem State.raise_ecc (s : State) (c : CoreId) (x : CtxId) (t : Trap) : (s.raise c x t).ecc = s.ecc := (State.after_ecc _ _ _).trans (State.modCtx_ecc _ _ _ _)
@[simp] theorem State.raise_rgns (s : State) (c : CoreId) (x : CtxId) (t : Trap) : (s.raise c x t).rgns = s.rgns := (State.after_rgns _ _ _).trans (State.modCtx_rgns _ _ _ _)
@[simp] theorem State.raise_sgWays (s : State) (c : CoreId) (x : CtxId) (t : Trap) : (s.raise c x t).sgWays = s.sgWays := (State.after_sgWays _ _ _).trans (State.modCtx_sgWays _ _ _ _)
@[simp] theorem State.raise_sgway (s : State) (c : CoreId) (x : CtxId) (t : Trap) : (s.raise c x t).sgway = s.sgway := (State.after_sgway _ _ _).trans (State.modCtx_sgway _ _ _ _)
@[simp] theorem State.raise_waiters (s : State) (c : CoreId) (x : CtxId) (t : Trap) : (s.raise c x t).waiters = s.waiters := (State.after_waiters _ _ _).trans (State.modCtx_waiters _ _ _ _)
@[simp] theorem State.raise_withdrawnConts (s : State) (c : CoreId) (x : CtxId) (t : Trap) : (s.raise c x t).withdrawnConts = s.withdrawnConts := (State.after_withdrawnConts _ _ _).trans (State.modCtx_withdrawnConts _ _ _ _)
@[simp] theorem State.raise_fills (s : State) (c : CoreId) (x : CtxId) (t : Trap) : (s.raise c x t).fills = s.fills := (State.after_fills _ _ _).trans (State.modCtx_fills _ _ _ _)
@[simp] theorem State.raise_held (s : State) (c : CoreId) (x : CtxId) (t : Trap) : (s.raise c x t).held = s.held := (State.after_held _ _ _).trans (State.modCtx_held _ _ _ _)
@[simp] theorem State.raise_banks (s : State) (c : CoreId) (x : CtxId) (t : Trap) : (s.raise c x t).banks = s.banks := (State.after_banks _ _ _).trans (State.modCtx_banks _ _ _ _)
@[simp] theorem State.raise_bar0 (s : State) (c : CoreId) (x : CtxId) (t : Trap) : (s.raise c x t).bar0 = s.bar0 := (State.after_bar0 _ _ _).trans (State.modCtx_bar0 _ _ _ _)
@[simp] theorem State.raise_heatk (s : State) (c : CoreId) (x : CtxId) (t : Trap) : (s.raise c x t).heatk = s.heatk := (State.after_heatk _ _ _).trans (State.modCtx_heatk _ _ _ _)
@[simp] theorem State.raise_heatd (s : State) (c : CoreId) (x : CtxId) (t : Trap) : (s.raise c x t).heatd = s.heatd := (State.after_heatd _ _ _).trans (State.modCtx_heatd _ _ _ _)
@[simp] theorem State.raise_pkg (s : State) (c : CoreId) (x : CtxId) (t : Trap) : (s.raise c x t).pkg = s.pkg := (State.after_pkg _ _ _).trans (State.modCtx_pkg _ _ _ _)
@[simp] theorem State.raise_fltsvc (s : State) (c : CoreId) (x : CtxId) (t : Trap) : (s.raise c x t).fltsvc = s.fltsvc := (State.after_fltsvc _ _ _).trans (State.modCtx_fltsvc _ _ _ _)
@[simp] theorem State.raise_supv (s : State) (c : CoreId) (x : CtxId) (t : Trap) : (s.raise c x t).supv = s.supv := (State.after_supv _ _ _).trans (State.modCtx_supv _ _ _ _)
@[simp] theorem State.raise_tlb2 (s : State) (c : CoreId) (x : CtxId) (t : Trap) : (s.raise c x t).tlb2 = s.tlb2 := (State.after_tlb2 _ _ _).trans (State.modCtx_tlb2 _ _ _ _)
@[simp] theorem State.raise_walkCache (s : State) (c : CoreId) (x : CtxId) (t : Trap) : (s.raise c x t).walkCache = s.walkCache := (State.after_walkCache _ _ _).trans (State.modCtx_walkCache _ _ _ _)
@[simp] theorem State.raise_samplers (s : State) (c : CoreId) (x : CtxId) (t : Trap) : (s.raise c x t).samplers = s.samplers := (State.after_samplers _ _ _).trans (State.modCtx_samplers _ _ _ _)
@[simp] theorem State.raise_walks (s : State) (c : CoreId) (x : CtxId) (t : Trap) : (s.raise c x t).walks = s.walks := (State.after_walks _ _ _).trans (State.modCtx_walks _ _ _ _)
@[simp] theorem State.raise_tlbis (s : State) (c : CoreId) (x : CtxId) (t : Trap) : (s.raise c x t).tlbis = s.tlbis := (State.after_tlbis _ _ _).trans (State.modCtx_tlbis _ _ _ _)
@[simp] theorem State.raise_hubTlb (s : State) (c : CoreId) (x : CtxId) (t : Trap) : (s.raise c x t).hubTlb = s.hubTlb := (State.after_hubTlb _ _ _).trans (State.modCtx_hubTlb _ _ _ _)
@[simp] theorem State.raise_faults (s : State) (c : CoreId) (x : CtxId) (t : Trap) : (s.raise c x t).faults = s.faults := (State.after_faults _ _ _).trans (State.modCtx_faults _ _ _ _)
@[simp] theorem State.raise_faultSeq (s : State) (c : CoreId) (x : CtxId) (t : Trap) : (s.raise c x t).faultSeq = s.faultSeq := (State.after_faultSeq _ _ _).trans (State.modCtx_faultSeq _ _ _ _)
@[simp] theorem State.raise_homes (s : State) (c : CoreId) (x : CtxId) (t : Trap) : (s.raise c x t).homes = s.homes := (State.after_homes _ _ _).trans (State.modCtx_homes _ _ _ _)
@[simp] theorem State.raise_doneIds (s : State) (c : CoreId) (x : CtxId) (t : Trap) : (s.raise c x t).doneIds = s.doneIds := (State.after_doneIds _ _ _).trans (State.modCtx_doneIds _ _ _ _)
@[simp] theorem State.raise_launches (s : State) (c : CoreId) (x : CtxId) (t : Trap) : (s.raise c x t).launches = s.launches := (State.after_launches _ _ _).trans (State.modCtx_launches _ _ _ _)
@[simp] theorem State.raise_active (s : State) (c : CoreId) (x : CtxId) (t : Trap) : (s.raise c x t).active = s.active := (State.after_active _ _ _).trans (State.modCtx_active _ _ _ _)
@[simp] theorem State.raise_gangs (s : State) (c : CoreId) (x : CtxId) (t : Trap) : (s.raise c x t).gangs = s.gangs := (State.after_gangs _ _ _).trans (State.modCtx_gangs _ _ _ _)
@[simp] theorem State.raise_jobs (s : State) (c : CoreId) (x : CtxId) (t : Trap) : (s.raise c x t).jobs = s.jobs := (State.after_jobs _ _ _).trans (State.modCtx_jobs _ _ _ _)
@[simp] theorem State.raise_loads (s : State) (c : CoreId) (x : CtxId) (t : Trap) : (s.raise c x t).loads = s.loads := (State.after_loads _ _ _).trans (State.modCtx_loads _ _ _ _)
@[simp] theorem State.raise_armed (s : State) (c : CoreId) (x : CtxId) (t : Trap) : (s.raise c x t).armed = s.armed := (State.after_armed _ _ _).trans (State.modCtx_armed _ _ _ _)
@[simp] theorem State.raise_snapAt (s : State) (c : CoreId) (x : CtxId) (t : Trap) : (s.raise c x t).snapAt = s.snapAt := (State.after_snapAt _ _ _).trans (State.modCtx_snapAt _ _ _ _)
@[simp] theorem State.raise_sgs (s : State) (c : CoreId) (x : CtxId) (t : Trap) : (s.raise c x t).sgs = s.sgs := (State.after_sgs _ _ _).trans (State.modCtx_sgs _ _ _ _)
@[simp] theorem State.raise_watch (s : State) (c : CoreId) (x : CtxId) (t : Trap) : (s.raise c x t).watch = s.watch := (State.after_watch _ _ _).trans (State.modCtx_watch _ _ _ _)
@[simp] theorem State.raise_coh (s : State) (c : CoreId) (x : CtxId) (t : Trap) : (s.raise c x t).coh = s.coh := (State.after_coh _ _ _).trans (State.modCtx_coh _ _ _ _)
@[simp] theorem State.raise_sys (s : State) (c : CoreId) (x : CtxId) (t : Trap) : (s.raise c x t).sys = s.sys := (State.after_sys _ _ _).trans (State.modCtx_sys _ _ _ _)

@[simp] theorem State.issueTrap_cyc (s : State) (l u : Nat) (a : Word) (e r : Nat) : (s.issueTrap l u a e r).cyc = s.cyc := State.raise_cyc _ _ _ _
@[simp] theorem State.issueTrap_turn (s : State) (l u : Nat) (a : Word) (e r : Nat) : (s.issueTrap l u a e r).turn = s.turn := State.raise_turn _ _ _ _
@[simp] theorem State.issueTrap_slot (s : State) (l u : Nat) (a : Word) (e r : Nat) : (s.issueTrap l u a e r).slot = s.slot := State.raise_slot _ _ _ _
@[simp] theorem State.issueTrap_fresh (s : State) (l u : Nat) (a : Word) (e r : Nat) : (s.issueTrap l u a e r).fresh = s.fresh := State.raise_fresh _ _ _ _
@[simp] theorem State.issueTrap_ev (s : State) (l u : Nat) (a : Word) (e r : Nat) : (s.issueTrap l u a e r).ev = s.ev := State.raise_ev _ _ _ _
@[simp] theorem State.issueTrap_outbox (s : State) (l u : Nat) (a : Word) (e r : Nat) : (s.issueTrap l u a e r).outbox = s.outbox := State.raise_outbox _ _ _ _
@[simp] theorem State.issueTrap_mem (s : State) (l u : Nat) (a : Word) (e r : Nat) : (s.issueTrap l u a e r).mem = s.mem := State.raise_mem _ _ _ _
@[simp] theorem State.issueTrap_atoms (s : State) (l u : Nat) (a : Word) (e r : Nat) : (s.issueTrap l u a e r).atoms = s.atoms := State.raise_atoms _ _ _ _
@[simp] theorem State.issueTrap_ecc (s : State) (l u : Nat) (a : Word) (e r : Nat) : (s.issueTrap l u a e r).ecc = s.ecc := State.raise_ecc _ _ _ _
@[simp] theorem State.issueTrap_rgns (s : State) (l u : Nat) (a : Word) (e r : Nat) : (s.issueTrap l u a e r).rgns = s.rgns := State.raise_rgns _ _ _ _
@[simp] theorem State.issueTrap_sgWays (s : State) (l u : Nat) (a : Word) (e r : Nat) : (s.issueTrap l u a e r).sgWays = s.sgWays := State.raise_sgWays _ _ _ _
@[simp] theorem State.issueTrap_sgway (s : State) (l u : Nat) (a : Word) (e r : Nat) : (s.issueTrap l u a e r).sgway = s.sgway := State.raise_sgway _ _ _ _
@[simp] theorem State.issueTrap_waiters (s : State) (l u : Nat) (a : Word) (e r : Nat) : (s.issueTrap l u a e r).waiters = s.waiters := State.raise_waiters _ _ _ _
@[simp] theorem State.issueTrap_withdrawnConts (s : State) (l u : Nat) (a : Word) (e r : Nat) : (s.issueTrap l u a e r).withdrawnConts = s.withdrawnConts := State.raise_withdrawnConts _ _ _ _
@[simp] theorem State.issueTrap_fills (s : State) (l u : Nat) (a : Word) (e r : Nat) : (s.issueTrap l u a e r).fills = s.fills := State.raise_fills _ _ _ _
@[simp] theorem State.issueTrap_held (s : State) (l u : Nat) (a : Word) (e r : Nat) : (s.issueTrap l u a e r).held = s.held := State.raise_held _ _ _ _
@[simp] theorem State.issueTrap_banks (s : State) (l u : Nat) (a : Word) (e r : Nat) : (s.issueTrap l u a e r).banks = s.banks := State.raise_banks _ _ _ _
@[simp] theorem State.issueTrap_bar0 (s : State) (l u : Nat) (a : Word) (e r : Nat) : (s.issueTrap l u a e r).bar0 = s.bar0 := State.raise_bar0 _ _ _ _
@[simp] theorem State.issueTrap_heatk (s : State) (l u : Nat) (a : Word) (e r : Nat) : (s.issueTrap l u a e r).heatk = s.heatk := State.raise_heatk _ _ _ _
@[simp] theorem State.issueTrap_heatd (s : State) (l u : Nat) (a : Word) (e r : Nat) : (s.issueTrap l u a e r).heatd = s.heatd := State.raise_heatd _ _ _ _
@[simp] theorem State.issueTrap_pkg (s : State) (l u : Nat) (a : Word) (e r : Nat) : (s.issueTrap l u a e r).pkg = s.pkg := State.raise_pkg _ _ _ _
@[simp] theorem State.issueTrap_fltsvc (s : State) (l u : Nat) (a : Word) (e r : Nat) : (s.issueTrap l u a e r).fltsvc = s.fltsvc := State.raise_fltsvc _ _ _ _
@[simp] theorem State.issueTrap_supv (s : State) (l u : Nat) (a : Word) (e r : Nat) : (s.issueTrap l u a e r).supv = s.supv := State.raise_supv _ _ _ _
@[simp] theorem State.issueTrap_tlb2 (s : State) (l u : Nat) (a : Word) (e r : Nat) : (s.issueTrap l u a e r).tlb2 = s.tlb2 := State.raise_tlb2 _ _ _ _
@[simp] theorem State.issueTrap_walkCache (s : State) (l u : Nat) (a : Word) (e r : Nat) : (s.issueTrap l u a e r).walkCache = s.walkCache := State.raise_walkCache _ _ _ _
@[simp] theorem State.issueTrap_samplers (s : State) (l u : Nat) (a : Word) (e r : Nat) : (s.issueTrap l u a e r).samplers = s.samplers := State.raise_samplers _ _ _ _
@[simp] theorem State.issueTrap_walks (s : State) (l u : Nat) (a : Word) (e r : Nat) : (s.issueTrap l u a e r).walks = s.walks := State.raise_walks _ _ _ _
@[simp] theorem State.issueTrap_tlbis (s : State) (l u : Nat) (a : Word) (e r : Nat) : (s.issueTrap l u a e r).tlbis = s.tlbis := State.raise_tlbis _ _ _ _
@[simp] theorem State.issueTrap_hubTlb (s : State) (l u : Nat) (a : Word) (e r : Nat) : (s.issueTrap l u a e r).hubTlb = s.hubTlb := State.raise_hubTlb _ _ _ _
@[simp] theorem State.issueTrap_faults (s : State) (l u : Nat) (a : Word) (e r : Nat) : (s.issueTrap l u a e r).faults = s.faults := State.raise_faults _ _ _ _
@[simp] theorem State.issueTrap_faultSeq (s : State) (l u : Nat) (a : Word) (e r : Nat) : (s.issueTrap l u a e r).faultSeq = s.faultSeq := State.raise_faultSeq _ _ _ _
@[simp] theorem State.issueTrap_homes (s : State) (l u : Nat) (a : Word) (e r : Nat) : (s.issueTrap l u a e r).homes = s.homes := State.raise_homes _ _ _ _
@[simp] theorem State.issueTrap_doneIds (s : State) (l u : Nat) (a : Word) (e r : Nat) : (s.issueTrap l u a e r).doneIds = s.doneIds := State.raise_doneIds _ _ _ _
@[simp] theorem State.issueTrap_launches (s : State) (l u : Nat) (a : Word) (e r : Nat) : (s.issueTrap l u a e r).launches = s.launches := State.raise_launches _ _ _ _
@[simp] theorem State.issueTrap_active (s : State) (l u : Nat) (a : Word) (e r : Nat) : (s.issueTrap l u a e r).active = s.active := State.raise_active _ _ _ _
@[simp] theorem State.issueTrap_gangs (s : State) (l u : Nat) (a : Word) (e r : Nat) : (s.issueTrap l u a e r).gangs = s.gangs := State.raise_gangs _ _ _ _
@[simp] theorem State.issueTrap_jobs (s : State) (l u : Nat) (a : Word) (e r : Nat) : (s.issueTrap l u a e r).jobs = s.jobs := State.raise_jobs _ _ _ _
@[simp] theorem State.issueTrap_loads (s : State) (l u : Nat) (a : Word) (e r : Nat) : (s.issueTrap l u a e r).loads = s.loads := State.raise_loads _ _ _ _
@[simp] theorem State.issueTrap_armed (s : State) (l u : Nat) (a : Word) (e r : Nat) : (s.issueTrap l u a e r).armed = s.armed := State.raise_armed _ _ _ _
@[simp] theorem State.issueTrap_snapAt (s : State) (l u : Nat) (a : Word) (e r : Nat) : (s.issueTrap l u a e r).snapAt = s.snapAt := State.raise_snapAt _ _ _ _
@[simp] theorem State.issueTrap_sgs (s : State) (l u : Nat) (a : Word) (e r : Nat) : (s.issueTrap l u a e r).sgs = s.sgs := State.raise_sgs _ _ _ _
@[simp] theorem State.issueTrap_watch (s : State) (l u : Nat) (a : Word) (e r : Nat) : (s.issueTrap l u a e r).watch = s.watch := State.raise_watch _ _ _ _
@[simp] theorem State.issueTrap_coh (s : State) (l u : Nat) (a : Word) (e r : Nat) : (s.issueTrap l u a e r).coh = s.coh := State.raise_coh _ _ _ _
@[simp] theorem State.issueTrap_sys (s : State) (l u : Nat) (a : Word) (e r : Nat) : (s.issueTrap l u a e r).sys = s.sys := State.raise_sys _ _ _ _

@[simp] theorem State.putGranule_cyc (s : State) (k : Nat) (m : BitVec 64) (x : Granule) : (s.putGranule k m x).cyc = s.cyc := rfl
@[simp] theorem State.putGranule_turn (s : State) (k : Nat) (m : BitVec 64) (x : Granule) : (s.putGranule k m x).turn = s.turn := rfl
@[simp] theorem State.putGranule_slot (s : State) (k : Nat) (m : BitVec 64) (x : Granule) : (s.putGranule k m x).slot = s.slot := rfl
@[simp] theorem State.putGranule_fresh (s : State) (k : Nat) (m : BitVec 64) (x : Granule) : (s.putGranule k m x).fresh = s.fresh := rfl
@[simp] theorem State.putGranule_agenda (s : State) (k : Nat) (m : BitVec 64) (x : Granule) : (s.putGranule k m x).agenda = s.agenda := rfl
@[simp] theorem State.putGranule_ev (s : State) (k : Nat) (m : BitVec 64) (x : Granule) : (s.putGranule k m x).ev = s.ev := rfl
@[simp] theorem State.putGranule_outbox (s : State) (k : Nat) (m : BitVec 64) (x : Granule) : (s.putGranule k m x).outbox = s.outbox := rfl
@[simp] theorem State.putGranule_atoms (s : State) (k : Nat) (m : BitVec 64) (x : Granule) : (s.putGranule k m x).atoms = s.atoms := rfl
@[simp] theorem State.putGranule_ecc (s : State) (k : Nat) (m : BitVec 64) (x : Granule) : (s.putGranule k m x).ecc = s.ecc := rfl
@[simp] theorem State.putGranule_cores (s : State) (k : Nat) (m : BitVec 64) (x : Granule) : (s.putGranule k m x).cores = s.cores := rfl
@[simp] theorem State.putGranule_rgns (s : State) (k : Nat) (m : BitVec 64) (x : Granule) : (s.putGranule k m x).rgns = s.rgns := rfl
@[simp] theorem State.putGranule_sgWays (s : State) (k : Nat) (m : BitVec 64) (x : Granule) : (s.putGranule k m x).sgWays = s.sgWays := rfl
@[simp] theorem State.putGranule_sgway (s : State) (k : Nat) (m : BitVec 64) (x : Granule) : (s.putGranule k m x).sgway = s.sgway := rfl
@[simp] theorem State.putGranule_waiters (s : State) (k : Nat) (m : BitVec 64) (x : Granule) : (s.putGranule k m x).waiters = s.waiters := rfl
@[simp] theorem State.putGranule_withdrawnConts (s : State) (k : Nat) (m : BitVec 64) (x : Granule) : (s.putGranule k m x).withdrawnConts = s.withdrawnConts := rfl
@[simp] theorem State.putGranule_fills (s : State) (k : Nat) (m : BitVec 64) (x : Granule) : (s.putGranule k m x).fills = s.fills := rfl
@[simp] theorem State.putGranule_held (s : State) (k : Nat) (m : BitVec 64) (x : Granule) : (s.putGranule k m x).held = s.held := rfl
@[simp] theorem State.putGranule_banks (s : State) (k : Nat) (m : BitVec 64) (x : Granule) : (s.putGranule k m x).banks = s.banks := rfl
@[simp] theorem State.putGranule_bar0 (s : State) (k : Nat) (m : BitVec 64) (x : Granule) : (s.putGranule k m x).bar0 = s.bar0 := rfl
@[simp] theorem State.putGranule_heatk (s : State) (k : Nat) (m : BitVec 64) (x : Granule) : (s.putGranule k m x).heatk = s.heatk := rfl
@[simp] theorem State.putGranule_heatd (s : State) (k : Nat) (m : BitVec 64) (x : Granule) : (s.putGranule k m x).heatd = s.heatd := rfl
@[simp] theorem State.putGranule_pkg (s : State) (k : Nat) (m : BitVec 64) (x : Granule) : (s.putGranule k m x).pkg = s.pkg := rfl
@[simp] theorem State.putGranule_fltsvc (s : State) (k : Nat) (m : BitVec 64) (x : Granule) : (s.putGranule k m x).fltsvc = s.fltsvc := rfl
@[simp] theorem State.putGranule_supv (s : State) (k : Nat) (m : BitVec 64) (x : Granule) : (s.putGranule k m x).supv = s.supv := rfl
@[simp] theorem State.putGranule_tlb2 (s : State) (k : Nat) (m : BitVec 64) (x : Granule) : (s.putGranule k m x).tlb2 = s.tlb2 := rfl
@[simp] theorem State.putGranule_walkCache (s : State) (k : Nat) (m : BitVec 64) (x : Granule) : (s.putGranule k m x).walkCache = s.walkCache := rfl
@[simp] theorem State.putGranule_samplers (s : State) (k : Nat) (m : BitVec 64) (x : Granule) : (s.putGranule k m x).samplers = s.samplers := rfl
@[simp] theorem State.putGranule_walks (s : State) (k : Nat) (m : BitVec 64) (x : Granule) : (s.putGranule k m x).walks = s.walks := rfl
@[simp] theorem State.putGranule_tlbis (s : State) (k : Nat) (m : BitVec 64) (x : Granule) : (s.putGranule k m x).tlbis = s.tlbis := rfl
@[simp] theorem State.putGranule_hubTlb (s : State) (k : Nat) (m : BitVec 64) (x : Granule) : (s.putGranule k m x).hubTlb = s.hubTlb := rfl
@[simp] theorem State.putGranule_faults (s : State) (k : Nat) (m : BitVec 64) (x : Granule) : (s.putGranule k m x).faults = s.faults := rfl
@[simp] theorem State.putGranule_faultSeq (s : State) (k : Nat) (m : BitVec 64) (x : Granule) : (s.putGranule k m x).faultSeq = s.faultSeq := rfl
@[simp] theorem State.putGranule_homes (s : State) (k : Nat) (m : BitVec 64) (x : Granule) : (s.putGranule k m x).homes = s.homes := rfl
@[simp] theorem State.putGranule_doneIds (s : State) (k : Nat) (m : BitVec 64) (x : Granule) : (s.putGranule k m x).doneIds = s.doneIds := rfl
@[simp] theorem State.putGranule_launches (s : State) (k : Nat) (m : BitVec 64) (x : Granule) : (s.putGranule k m x).launches = s.launches := rfl
@[simp] theorem State.putGranule_active (s : State) (k : Nat) (m : BitVec 64) (x : Granule) : (s.putGranule k m x).active = s.active := rfl
@[simp] theorem State.putGranule_gangs (s : State) (k : Nat) (m : BitVec 64) (x : Granule) : (s.putGranule k m x).gangs = s.gangs := rfl
@[simp] theorem State.putGranule_jobs (s : State) (k : Nat) (m : BitVec 64) (x : Granule) : (s.putGranule k m x).jobs = s.jobs := rfl
@[simp] theorem State.putGranule_loads (s : State) (k : Nat) (m : BitVec 64) (x : Granule) : (s.putGranule k m x).loads = s.loads := rfl
@[simp] theorem State.putGranule_armed (s : State) (k : Nat) (m : BitVec 64) (x : Granule) : (s.putGranule k m x).armed = s.armed := rfl
@[simp] theorem State.putGranule_snapAt (s : State) (k : Nat) (m : BitVec 64) (x : Granule) : (s.putGranule k m x).snapAt = s.snapAt := rfl
@[simp] theorem State.putGranule_sgs (s : State) (k : Nat) (m : BitVec 64) (x : Granule) : (s.putGranule k m x).sgs = s.sgs := rfl
@[simp] theorem State.putGranule_watch (s : State) (k : Nat) (m : BitVec 64) (x : Granule) : (s.putGranule k m x).watch = s.watch := rfl
@[simp] theorem State.putGranule_coh (s : State) (k : Nat) (m : BitVec 64) (x : Granule) : (s.putGranule k m x).coh = s.coh := rfl
@[simp] theorem State.putGranule_sys (s : State) (k : Nat) (m : BitVec 64) (x : Granule) : (s.putGranule k m x).sys = s.sys := rfl

@[simp] theorem State.putChecked_cyc (s : State) (k : Nat) (m : BitVec 64) (x : Granule) : (s.putChecked k m x).cyc = s.cyc := rfl
@[simp] theorem State.putChecked_turn (s : State) (k : Nat) (m : BitVec 64) (x : Granule) : (s.putChecked k m x).turn = s.turn := rfl
@[simp] theorem State.putChecked_slot (s : State) (k : Nat) (m : BitVec 64) (x : Granule) : (s.putChecked k m x).slot = s.slot := rfl
@[simp] theorem State.putChecked_fresh (s : State) (k : Nat) (m : BitVec 64) (x : Granule) : (s.putChecked k m x).fresh = s.fresh := rfl
@[simp] theorem State.putChecked_agenda (s : State) (k : Nat) (m : BitVec 64) (x : Granule) : (s.putChecked k m x).agenda = s.agenda := rfl
@[simp] theorem State.putChecked_ev (s : State) (k : Nat) (m : BitVec 64) (x : Granule) : (s.putChecked k m x).ev = s.ev := rfl
@[simp] theorem State.putChecked_outbox (s : State) (k : Nat) (m : BitVec 64) (x : Granule) : (s.putChecked k m x).outbox = s.outbox := rfl
@[simp] theorem State.putChecked_atoms (s : State) (k : Nat) (m : BitVec 64) (x : Granule) : (s.putChecked k m x).atoms = s.atoms := rfl
@[simp] theorem State.putChecked_cores (s : State) (k : Nat) (m : BitVec 64) (x : Granule) : (s.putChecked k m x).cores = s.cores := rfl
@[simp] theorem State.putChecked_rgns (s : State) (k : Nat) (m : BitVec 64) (x : Granule) : (s.putChecked k m x).rgns = s.rgns := rfl
@[simp] theorem State.putChecked_sgWays (s : State) (k : Nat) (m : BitVec 64) (x : Granule) : (s.putChecked k m x).sgWays = s.sgWays := rfl
@[simp] theorem State.putChecked_sgway (s : State) (k : Nat) (m : BitVec 64) (x : Granule) : (s.putChecked k m x).sgway = s.sgway := rfl
@[simp] theorem State.putChecked_waiters (s : State) (k : Nat) (m : BitVec 64) (x : Granule) : (s.putChecked k m x).waiters = s.waiters := rfl
@[simp] theorem State.putChecked_withdrawnConts (s : State) (k : Nat) (m : BitVec 64) (x : Granule) : (s.putChecked k m x).withdrawnConts = s.withdrawnConts := rfl
@[simp] theorem State.putChecked_fills (s : State) (k : Nat) (m : BitVec 64) (x : Granule) : (s.putChecked k m x).fills = s.fills := rfl
@[simp] theorem State.putChecked_held (s : State) (k : Nat) (m : BitVec 64) (x : Granule) : (s.putChecked k m x).held = s.held := rfl
@[simp] theorem State.putChecked_banks (s : State) (k : Nat) (m : BitVec 64) (x : Granule) : (s.putChecked k m x).banks = s.banks := rfl
@[simp] theorem State.putChecked_bar0 (s : State) (k : Nat) (m : BitVec 64) (x : Granule) : (s.putChecked k m x).bar0 = s.bar0 := rfl
@[simp] theorem State.putChecked_heatk (s : State) (k : Nat) (m : BitVec 64) (x : Granule) : (s.putChecked k m x).heatk = s.heatk := rfl
@[simp] theorem State.putChecked_heatd (s : State) (k : Nat) (m : BitVec 64) (x : Granule) : (s.putChecked k m x).heatd = s.heatd := rfl
@[simp] theorem State.putChecked_pkg (s : State) (k : Nat) (m : BitVec 64) (x : Granule) : (s.putChecked k m x).pkg = s.pkg := rfl
@[simp] theorem State.putChecked_fltsvc (s : State) (k : Nat) (m : BitVec 64) (x : Granule) : (s.putChecked k m x).fltsvc = s.fltsvc := rfl
@[simp] theorem State.putChecked_supv (s : State) (k : Nat) (m : BitVec 64) (x : Granule) : (s.putChecked k m x).supv = s.supv := rfl
@[simp] theorem State.putChecked_tlb2 (s : State) (k : Nat) (m : BitVec 64) (x : Granule) : (s.putChecked k m x).tlb2 = s.tlb2 := rfl
@[simp] theorem State.putChecked_walkCache (s : State) (k : Nat) (m : BitVec 64) (x : Granule) : (s.putChecked k m x).walkCache = s.walkCache := rfl
@[simp] theorem State.putChecked_samplers (s : State) (k : Nat) (m : BitVec 64) (x : Granule) : (s.putChecked k m x).samplers = s.samplers := rfl
@[simp] theorem State.putChecked_walks (s : State) (k : Nat) (m : BitVec 64) (x : Granule) : (s.putChecked k m x).walks = s.walks := rfl
@[simp] theorem State.putChecked_tlbis (s : State) (k : Nat) (m : BitVec 64) (x : Granule) : (s.putChecked k m x).tlbis = s.tlbis := rfl
@[simp] theorem State.putChecked_hubTlb (s : State) (k : Nat) (m : BitVec 64) (x : Granule) : (s.putChecked k m x).hubTlb = s.hubTlb := rfl
@[simp] theorem State.putChecked_faults (s : State) (k : Nat) (m : BitVec 64) (x : Granule) : (s.putChecked k m x).faults = s.faults := rfl
@[simp] theorem State.putChecked_faultSeq (s : State) (k : Nat) (m : BitVec 64) (x : Granule) : (s.putChecked k m x).faultSeq = s.faultSeq := rfl
@[simp] theorem State.putChecked_homes (s : State) (k : Nat) (m : BitVec 64) (x : Granule) : (s.putChecked k m x).homes = s.homes := rfl
@[simp] theorem State.putChecked_doneIds (s : State) (k : Nat) (m : BitVec 64) (x : Granule) : (s.putChecked k m x).doneIds = s.doneIds := rfl
@[simp] theorem State.putChecked_launches (s : State) (k : Nat) (m : BitVec 64) (x : Granule) : (s.putChecked k m x).launches = s.launches := rfl
@[simp] theorem State.putChecked_active (s : State) (k : Nat) (m : BitVec 64) (x : Granule) : (s.putChecked k m x).active = s.active := rfl
@[simp] theorem State.putChecked_gangs (s : State) (k : Nat) (m : BitVec 64) (x : Granule) : (s.putChecked k m x).gangs = s.gangs := rfl
@[simp] theorem State.putChecked_jobs (s : State) (k : Nat) (m : BitVec 64) (x : Granule) : (s.putChecked k m x).jobs = s.jobs := rfl
@[simp] theorem State.putChecked_loads (s : State) (k : Nat) (m : BitVec 64) (x : Granule) : (s.putChecked k m x).loads = s.loads := rfl
@[simp] theorem State.putChecked_armed (s : State) (k : Nat) (m : BitVec 64) (x : Granule) : (s.putChecked k m x).armed = s.armed := rfl
@[simp] theorem State.putChecked_snapAt (s : State) (k : Nat) (m : BitVec 64) (x : Granule) : (s.putChecked k m x).snapAt = s.snapAt := rfl
@[simp] theorem State.putChecked_sgs (s : State) (k : Nat) (m : BitVec 64) (x : Granule) : (s.putChecked k m x).sgs = s.sgs := rfl
@[simp] theorem State.putChecked_watch (s : State) (k : Nat) (m : BitVec 64) (x : Granule) : (s.putChecked k m x).watch = s.watch := rfl
@[simp] theorem State.putChecked_coh (s : State) (k : Nat) (m : BitVec 64) (x : Granule) : (s.putChecked k m x).coh = s.coh := rfl
@[simp] theorem State.putChecked_sys (s : State) (k : Nat) (m : BitVec 64) (x : Granule) : (s.putChecked k m x).sys = s.sys := rfl

@[simp] theorem State.setWord_cyc (s : State) (k : Nat) (x : Word) : (s.setWord k x).cyc = s.cyc := State.putGranule_cyc _ _ _ _
@[simp] theorem State.setWord_turn (s : State) (k : Nat) (x : Word) : (s.setWord k x).turn = s.turn := State.putGranule_turn _ _ _ _
@[simp] theorem State.setWord_slot (s : State) (k : Nat) (x : Word) : (s.setWord k x).slot = s.slot := State.putGranule_slot _ _ _ _
@[simp] theorem State.setWord_fresh (s : State) (k : Nat) (x : Word) : (s.setWord k x).fresh = s.fresh := State.putGranule_fresh _ _ _ _
@[simp] theorem State.setWord_agenda (s : State) (k : Nat) (x : Word) : (s.setWord k x).agenda = s.agenda := State.putGranule_agenda _ _ _ _
@[simp] theorem State.setWord_ev (s : State) (k : Nat) (x : Word) : (s.setWord k x).ev = s.ev := State.putGranule_ev _ _ _ _
@[simp] theorem State.setWord_outbox (s : State) (k : Nat) (x : Word) : (s.setWord k x).outbox = s.outbox := State.putGranule_outbox _ _ _ _
@[simp] theorem State.setWord_atoms (s : State) (k : Nat) (x : Word) : (s.setWord k x).atoms = s.atoms := State.putGranule_atoms _ _ _ _
@[simp] theorem State.setWord_ecc (s : State) (k : Nat) (x : Word) : (s.setWord k x).ecc = s.ecc := State.putGranule_ecc _ _ _ _
@[simp] theorem State.setWord_cores (s : State) (k : Nat) (x : Word) : (s.setWord k x).cores = s.cores := State.putGranule_cores _ _ _ _
@[simp] theorem State.setWord_rgns (s : State) (k : Nat) (x : Word) : (s.setWord k x).rgns = s.rgns := State.putGranule_rgns _ _ _ _
@[simp] theorem State.setWord_sgWays (s : State) (k : Nat) (x : Word) : (s.setWord k x).sgWays = s.sgWays := State.putGranule_sgWays _ _ _ _
@[simp] theorem State.setWord_sgway (s : State) (k : Nat) (x : Word) : (s.setWord k x).sgway = s.sgway := State.putGranule_sgway _ _ _ _
@[simp] theorem State.setWord_waiters (s : State) (k : Nat) (x : Word) : (s.setWord k x).waiters = s.waiters := State.putGranule_waiters _ _ _ _
@[simp] theorem State.setWord_withdrawnConts (s : State) (k : Nat) (x : Word) : (s.setWord k x).withdrawnConts = s.withdrawnConts := State.putGranule_withdrawnConts _ _ _ _
@[simp] theorem State.setWord_fills (s : State) (k : Nat) (x : Word) : (s.setWord k x).fills = s.fills := State.putGranule_fills _ _ _ _
@[simp] theorem State.setWord_held (s : State) (k : Nat) (x : Word) : (s.setWord k x).held = s.held := State.putGranule_held _ _ _ _
@[simp] theorem State.setWord_banks (s : State) (k : Nat) (x : Word) : (s.setWord k x).banks = s.banks := State.putGranule_banks _ _ _ _
@[simp] theorem State.setWord_bar0 (s : State) (k : Nat) (x : Word) : (s.setWord k x).bar0 = s.bar0 := State.putGranule_bar0 _ _ _ _
@[simp] theorem State.setWord_heatk (s : State) (k : Nat) (x : Word) : (s.setWord k x).heatk = s.heatk := State.putGranule_heatk _ _ _ _
@[simp] theorem State.setWord_heatd (s : State) (k : Nat) (x : Word) : (s.setWord k x).heatd = s.heatd := State.putGranule_heatd _ _ _ _
@[simp] theorem State.setWord_pkg (s : State) (k : Nat) (x : Word) : (s.setWord k x).pkg = s.pkg := State.putGranule_pkg _ _ _ _
@[simp] theorem State.setWord_fltsvc (s : State) (k : Nat) (x : Word) : (s.setWord k x).fltsvc = s.fltsvc := State.putGranule_fltsvc _ _ _ _
@[simp] theorem State.setWord_supv (s : State) (k : Nat) (x : Word) : (s.setWord k x).supv = s.supv := State.putGranule_supv _ _ _ _
@[simp] theorem State.setWord_tlb2 (s : State) (k : Nat) (x : Word) : (s.setWord k x).tlb2 = s.tlb2 := State.putGranule_tlb2 _ _ _ _
@[simp] theorem State.setWord_walkCache (s : State) (k : Nat) (x : Word) : (s.setWord k x).walkCache = s.walkCache := State.putGranule_walkCache _ _ _ _
@[simp] theorem State.setWord_samplers (s : State) (k : Nat) (x : Word) : (s.setWord k x).samplers = s.samplers := State.putGranule_samplers _ _ _ _
@[simp] theorem State.setWord_walks (s : State) (k : Nat) (x : Word) : (s.setWord k x).walks = s.walks := State.putGranule_walks _ _ _ _
@[simp] theorem State.setWord_tlbis (s : State) (k : Nat) (x : Word) : (s.setWord k x).tlbis = s.tlbis := State.putGranule_tlbis _ _ _ _
@[simp] theorem State.setWord_hubTlb (s : State) (k : Nat) (x : Word) : (s.setWord k x).hubTlb = s.hubTlb := State.putGranule_hubTlb _ _ _ _
@[simp] theorem State.setWord_faults (s : State) (k : Nat) (x : Word) : (s.setWord k x).faults = s.faults := State.putGranule_faults _ _ _ _
@[simp] theorem State.setWord_faultSeq (s : State) (k : Nat) (x : Word) : (s.setWord k x).faultSeq = s.faultSeq := State.putGranule_faultSeq _ _ _ _
@[simp] theorem State.setWord_homes (s : State) (k : Nat) (x : Word) : (s.setWord k x).homes = s.homes := State.putGranule_homes _ _ _ _
@[simp] theorem State.setWord_doneIds (s : State) (k : Nat) (x : Word) : (s.setWord k x).doneIds = s.doneIds := State.putGranule_doneIds _ _ _ _
@[simp] theorem State.setWord_launches (s : State) (k : Nat) (x : Word) : (s.setWord k x).launches = s.launches := State.putGranule_launches _ _ _ _
@[simp] theorem State.setWord_active (s : State) (k : Nat) (x : Word) : (s.setWord k x).active = s.active := State.putGranule_active _ _ _ _
@[simp] theorem State.setWord_gangs (s : State) (k : Nat) (x : Word) : (s.setWord k x).gangs = s.gangs := State.putGranule_gangs _ _ _ _
@[simp] theorem State.setWord_jobs (s : State) (k : Nat) (x : Word) : (s.setWord k x).jobs = s.jobs := State.putGranule_jobs _ _ _ _
@[simp] theorem State.setWord_loads (s : State) (k : Nat) (x : Word) : (s.setWord k x).loads = s.loads := State.putGranule_loads _ _ _ _
@[simp] theorem State.setWord_armed (s : State) (k : Nat) (x : Word) : (s.setWord k x).armed = s.armed := State.putGranule_armed _ _ _ _
@[simp] theorem State.setWord_snapAt (s : State) (k : Nat) (x : Word) : (s.setWord k x).snapAt = s.snapAt := State.putGranule_snapAt _ _ _ _
@[simp] theorem State.setWord_sgs (s : State) (k : Nat) (x : Word) : (s.setWord k x).sgs = s.sgs := State.putGranule_sgs _ _ _ _
@[simp] theorem State.setWord_watch (s : State) (k : Nat) (x : Word) : (s.setWord k x).watch = s.watch := State.putGranule_watch _ _ _ _
@[simp] theorem State.setWord_coh (s : State) (k : Nat) (x : Word) : (s.setWord k x).coh = s.coh := State.putGranule_coh _ _ _ _
@[simp] theorem State.setWord_sys (s : State) (k : Nat) (x : Word) : (s.setWord k x).sys = s.sys := State.putGranule_sys _ _ _ _

@[simp] theorem State.setByte_cyc (s : State) (k : Nat) (b : Byte) : (s.setByte k b).cyc = s.cyc := rfl
@[simp] theorem State.setByte_turn (s : State) (k : Nat) (b : Byte) : (s.setByte k b).turn = s.turn := rfl
@[simp] theorem State.setByte_slot (s : State) (k : Nat) (b : Byte) : (s.setByte k b).slot = s.slot := rfl
@[simp] theorem State.setByte_fresh (s : State) (k : Nat) (b : Byte) : (s.setByte k b).fresh = s.fresh := rfl
@[simp] theorem State.setByte_agenda (s : State) (k : Nat) (b : Byte) : (s.setByte k b).agenda = s.agenda := rfl
@[simp] theorem State.setByte_ev (s : State) (k : Nat) (b : Byte) : (s.setByte k b).ev = s.ev := rfl
@[simp] theorem State.setByte_outbox (s : State) (k : Nat) (b : Byte) : (s.setByte k b).outbox = s.outbox := rfl
@[simp] theorem State.setByte_atoms (s : State) (k : Nat) (b : Byte) : (s.setByte k b).atoms = s.atoms := rfl
@[simp] theorem State.setByte_ecc (s : State) (k : Nat) (b : Byte) : (s.setByte k b).ecc = s.ecc := rfl
@[simp] theorem State.setByte_cores (s : State) (k : Nat) (b : Byte) : (s.setByte k b).cores = s.cores := rfl
@[simp] theorem State.setByte_rgns (s : State) (k : Nat) (b : Byte) : (s.setByte k b).rgns = s.rgns := rfl
@[simp] theorem State.setByte_sgWays (s : State) (k : Nat) (b : Byte) : (s.setByte k b).sgWays = s.sgWays := rfl
@[simp] theorem State.setByte_sgway (s : State) (k : Nat) (b : Byte) : (s.setByte k b).sgway = s.sgway := rfl
@[simp] theorem State.setByte_waiters (s : State) (k : Nat) (b : Byte) : (s.setByte k b).waiters = s.waiters := rfl
@[simp] theorem State.setByte_withdrawnConts (s : State) (k : Nat) (b : Byte) : (s.setByte k b).withdrawnConts = s.withdrawnConts := rfl
@[simp] theorem State.setByte_fills (s : State) (k : Nat) (b : Byte) : (s.setByte k b).fills = s.fills := rfl
@[simp] theorem State.setByte_held (s : State) (k : Nat) (b : Byte) : (s.setByte k b).held = s.held := rfl
@[simp] theorem State.setByte_banks (s : State) (k : Nat) (b : Byte) : (s.setByte k b).banks = s.banks := rfl
@[simp] theorem State.setByte_bar0 (s : State) (k : Nat) (b : Byte) : (s.setByte k b).bar0 = s.bar0 := rfl
@[simp] theorem State.setByte_heatk (s : State) (k : Nat) (b : Byte) : (s.setByte k b).heatk = s.heatk := rfl
@[simp] theorem State.setByte_heatd (s : State) (k : Nat) (b : Byte) : (s.setByte k b).heatd = s.heatd := rfl
@[simp] theorem State.setByte_pkg (s : State) (k : Nat) (b : Byte) : (s.setByte k b).pkg = s.pkg := rfl
@[simp] theorem State.setByte_fltsvc (s : State) (k : Nat) (b : Byte) : (s.setByte k b).fltsvc = s.fltsvc := rfl
@[simp] theorem State.setByte_supv (s : State) (k : Nat) (b : Byte) : (s.setByte k b).supv = s.supv := rfl
@[simp] theorem State.setByte_tlb2 (s : State) (k : Nat) (b : Byte) : (s.setByte k b).tlb2 = s.tlb2 := rfl
@[simp] theorem State.setByte_walkCache (s : State) (k : Nat) (b : Byte) : (s.setByte k b).walkCache = s.walkCache := rfl
@[simp] theorem State.setByte_samplers (s : State) (k : Nat) (b : Byte) : (s.setByte k b).samplers = s.samplers := rfl
@[simp] theorem State.setByte_walks (s : State) (k : Nat) (b : Byte) : (s.setByte k b).walks = s.walks := rfl
@[simp] theorem State.setByte_tlbis (s : State) (k : Nat) (b : Byte) : (s.setByte k b).tlbis = s.tlbis := rfl
@[simp] theorem State.setByte_hubTlb (s : State) (k : Nat) (b : Byte) : (s.setByte k b).hubTlb = s.hubTlb := rfl
@[simp] theorem State.setByte_faults (s : State) (k : Nat) (b : Byte) : (s.setByte k b).faults = s.faults := rfl
@[simp] theorem State.setByte_faultSeq (s : State) (k : Nat) (b : Byte) : (s.setByte k b).faultSeq = s.faultSeq := rfl
@[simp] theorem State.setByte_homes (s : State) (k : Nat) (b : Byte) : (s.setByte k b).homes = s.homes := rfl
@[simp] theorem State.setByte_doneIds (s : State) (k : Nat) (b : Byte) : (s.setByte k b).doneIds = s.doneIds := rfl
@[simp] theorem State.setByte_launches (s : State) (k : Nat) (b : Byte) : (s.setByte k b).launches = s.launches := rfl
@[simp] theorem State.setByte_active (s : State) (k : Nat) (b : Byte) : (s.setByte k b).active = s.active := rfl
@[simp] theorem State.setByte_gangs (s : State) (k : Nat) (b : Byte) : (s.setByte k b).gangs = s.gangs := rfl
@[simp] theorem State.setByte_jobs (s : State) (k : Nat) (b : Byte) : (s.setByte k b).jobs = s.jobs := rfl
@[simp] theorem State.setByte_loads (s : State) (k : Nat) (b : Byte) : (s.setByte k b).loads = s.loads := rfl
@[simp] theorem State.setByte_armed (s : State) (k : Nat) (b : Byte) : (s.setByte k b).armed = s.armed := rfl
@[simp] theorem State.setByte_snapAt (s : State) (k : Nat) (b : Byte) : (s.setByte k b).snapAt = s.snapAt := rfl
@[simp] theorem State.setByte_sgs (s : State) (k : Nat) (b : Byte) : (s.setByte k b).sgs = s.sgs := rfl
@[simp] theorem State.setByte_watch (s : State) (k : Nat) (b : Byte) : (s.setByte k b).watch = s.watch := rfl
@[simp] theorem State.setByte_coh (s : State) (k : Nat) (b : Byte) : (s.setByte k b).coh = s.coh := rfl
@[simp] theorem State.setByte_sys (s : State) (k : Nat) (b : Byte) : (s.setByte k b).sys = s.sys := rfl

@[simp] theorem State.setAtom_cyc (s : State) (k : Nat) (x : BitVec 16) : (s.setAtom k x).cyc = s.cyc := rfl
@[simp] theorem State.setAtom_turn (s : State) (k : Nat) (x : BitVec 16) : (s.setAtom k x).turn = s.turn := rfl
@[simp] theorem State.setAtom_slot (s : State) (k : Nat) (x : BitVec 16) : (s.setAtom k x).slot = s.slot := rfl
@[simp] theorem State.setAtom_fresh (s : State) (k : Nat) (x : BitVec 16) : (s.setAtom k x).fresh = s.fresh := rfl
@[simp] theorem State.setAtom_agenda (s : State) (k : Nat) (x : BitVec 16) : (s.setAtom k x).agenda = s.agenda := rfl
@[simp] theorem State.setAtom_ev (s : State) (k : Nat) (x : BitVec 16) : (s.setAtom k x).ev = s.ev := rfl
@[simp] theorem State.setAtom_outbox (s : State) (k : Nat) (x : BitVec 16) : (s.setAtom k x).outbox = s.outbox := rfl
@[simp] theorem State.setAtom_mem (s : State) (k : Nat) (x : BitVec 16) : (s.setAtom k x).mem = s.mem := rfl
@[simp] theorem State.setAtom_ecc (s : State) (k : Nat) (x : BitVec 16) : (s.setAtom k x).ecc = s.ecc := rfl
@[simp] theorem State.setAtom_cores (s : State) (k : Nat) (x : BitVec 16) : (s.setAtom k x).cores = s.cores := rfl
@[simp] theorem State.setAtom_rgns (s : State) (k : Nat) (x : BitVec 16) : (s.setAtom k x).rgns = s.rgns := rfl
@[simp] theorem State.setAtom_sgWays (s : State) (k : Nat) (x : BitVec 16) : (s.setAtom k x).sgWays = s.sgWays := rfl
@[simp] theorem State.setAtom_sgway (s : State) (k : Nat) (x : BitVec 16) : (s.setAtom k x).sgway = s.sgway := rfl
@[simp] theorem State.setAtom_waiters (s : State) (k : Nat) (x : BitVec 16) : (s.setAtom k x).waiters = s.waiters := rfl
@[simp] theorem State.setAtom_withdrawnConts (s : State) (k : Nat) (x : BitVec 16) : (s.setAtom k x).withdrawnConts = s.withdrawnConts := rfl
@[simp] theorem State.setAtom_fills (s : State) (k : Nat) (x : BitVec 16) : (s.setAtom k x).fills = s.fills := rfl
@[simp] theorem State.setAtom_held (s : State) (k : Nat) (x : BitVec 16) : (s.setAtom k x).held = s.held := rfl
@[simp] theorem State.setAtom_banks (s : State) (k : Nat) (x : BitVec 16) : (s.setAtom k x).banks = s.banks := rfl
@[simp] theorem State.setAtom_bar0 (s : State) (k : Nat) (x : BitVec 16) : (s.setAtom k x).bar0 = s.bar0 := rfl
@[simp] theorem State.setAtom_heatk (s : State) (k : Nat) (x : BitVec 16) : (s.setAtom k x).heatk = s.heatk := rfl
@[simp] theorem State.setAtom_heatd (s : State) (k : Nat) (x : BitVec 16) : (s.setAtom k x).heatd = s.heatd := rfl
@[simp] theorem State.setAtom_pkg (s : State) (k : Nat) (x : BitVec 16) : (s.setAtom k x).pkg = s.pkg := rfl
@[simp] theorem State.setAtom_fltsvc (s : State) (k : Nat) (x : BitVec 16) : (s.setAtom k x).fltsvc = s.fltsvc := rfl
@[simp] theorem State.setAtom_supv (s : State) (k : Nat) (x : BitVec 16) : (s.setAtom k x).supv = s.supv := rfl
@[simp] theorem State.setAtom_tlb2 (s : State) (k : Nat) (x : BitVec 16) : (s.setAtom k x).tlb2 = s.tlb2 := rfl
@[simp] theorem State.setAtom_walkCache (s : State) (k : Nat) (x : BitVec 16) : (s.setAtom k x).walkCache = s.walkCache := rfl
@[simp] theorem State.setAtom_samplers (s : State) (k : Nat) (x : BitVec 16) : (s.setAtom k x).samplers = s.samplers := rfl
@[simp] theorem State.setAtom_walks (s : State) (k : Nat) (x : BitVec 16) : (s.setAtom k x).walks = s.walks := rfl
@[simp] theorem State.setAtom_tlbis (s : State) (k : Nat) (x : BitVec 16) : (s.setAtom k x).tlbis = s.tlbis := rfl
@[simp] theorem State.setAtom_hubTlb (s : State) (k : Nat) (x : BitVec 16) : (s.setAtom k x).hubTlb = s.hubTlb := rfl
@[simp] theorem State.setAtom_faults (s : State) (k : Nat) (x : BitVec 16) : (s.setAtom k x).faults = s.faults := rfl
@[simp] theorem State.setAtom_faultSeq (s : State) (k : Nat) (x : BitVec 16) : (s.setAtom k x).faultSeq = s.faultSeq := rfl
@[simp] theorem State.setAtom_homes (s : State) (k : Nat) (x : BitVec 16) : (s.setAtom k x).homes = s.homes := rfl
@[simp] theorem State.setAtom_doneIds (s : State) (k : Nat) (x : BitVec 16) : (s.setAtom k x).doneIds = s.doneIds := rfl
@[simp] theorem State.setAtom_launches (s : State) (k : Nat) (x : BitVec 16) : (s.setAtom k x).launches = s.launches := rfl
@[simp] theorem State.setAtom_active (s : State) (k : Nat) (x : BitVec 16) : (s.setAtom k x).active = s.active := rfl
@[simp] theorem State.setAtom_gangs (s : State) (k : Nat) (x : BitVec 16) : (s.setAtom k x).gangs = s.gangs := rfl
@[simp] theorem State.setAtom_jobs (s : State) (k : Nat) (x : BitVec 16) : (s.setAtom k x).jobs = s.jobs := rfl
@[simp] theorem State.setAtom_loads (s : State) (k : Nat) (x : BitVec 16) : (s.setAtom k x).loads = s.loads := rfl
@[simp] theorem State.setAtom_armed (s : State) (k : Nat) (x : BitVec 16) : (s.setAtom k x).armed = s.armed := rfl
@[simp] theorem State.setAtom_snapAt (s : State) (k : Nat) (x : BitVec 16) : (s.setAtom k x).snapAt = s.snapAt := rfl
@[simp] theorem State.setAtom_sgs (s : State) (k : Nat) (x : BitVec 16) : (s.setAtom k x).sgs = s.sgs := rfl
@[simp] theorem State.setAtom_watch (s : State) (k : Nat) (x : BitVec 16) : (s.setAtom k x).watch = s.watch := rfl
@[simp] theorem State.setAtom_coh (s : State) (k : Nat) (x : BitVec 16) : (s.setAtom k x).coh = s.coh := rfl
@[simp] theorem State.setAtom_sys (s : State) (k : Nat) (x : BitVec 16) : (s.setAtom k x).sys = s.sys := rfl

@[simp] theorem State.setBar_cyc (s : State) (o : Nat) (x : Word) : (s.setBar o x).cyc = s.cyc := rfl
@[simp] theorem State.setBar_turn (s : State) (o : Nat) (x : Word) : (s.setBar o x).turn = s.turn := rfl
@[simp] theorem State.setBar_slot (s : State) (o : Nat) (x : Word) : (s.setBar o x).slot = s.slot := rfl
@[simp] theorem State.setBar_fresh (s : State) (o : Nat) (x : Word) : (s.setBar o x).fresh = s.fresh := rfl
@[simp] theorem State.setBar_agenda (s : State) (o : Nat) (x : Word) : (s.setBar o x).agenda = s.agenda := rfl
@[simp] theorem State.setBar_ev (s : State) (o : Nat) (x : Word) : (s.setBar o x).ev = s.ev := rfl
@[simp] theorem State.setBar_outbox (s : State) (o : Nat) (x : Word) : (s.setBar o x).outbox = s.outbox := rfl
@[simp] theorem State.setBar_mem (s : State) (o : Nat) (x : Word) : (s.setBar o x).mem = s.mem := rfl
@[simp] theorem State.setBar_atoms (s : State) (o : Nat) (x : Word) : (s.setBar o x).atoms = s.atoms := rfl
@[simp] theorem State.setBar_ecc (s : State) (o : Nat) (x : Word) : (s.setBar o x).ecc = s.ecc := rfl
@[simp] theorem State.setBar_cores (s : State) (o : Nat) (x : Word) : (s.setBar o x).cores = s.cores := rfl
@[simp] theorem State.setBar_rgns (s : State) (o : Nat) (x : Word) : (s.setBar o x).rgns = s.rgns := rfl
@[simp] theorem State.setBar_sgWays (s : State) (o : Nat) (x : Word) : (s.setBar o x).sgWays = s.sgWays := rfl
@[simp] theorem State.setBar_sgway (s : State) (o : Nat) (x : Word) : (s.setBar o x).sgway = s.sgway := rfl
@[simp] theorem State.setBar_waiters (s : State) (o : Nat) (x : Word) : (s.setBar o x).waiters = s.waiters := rfl
@[simp] theorem State.setBar_withdrawnConts (s : State) (o : Nat) (x : Word) : (s.setBar o x).withdrawnConts = s.withdrawnConts := rfl
@[simp] theorem State.setBar_fills (s : State) (o : Nat) (x : Word) : (s.setBar o x).fills = s.fills := rfl
@[simp] theorem State.setBar_held (s : State) (o : Nat) (x : Word) : (s.setBar o x).held = s.held := rfl
@[simp] theorem State.setBar_banks (s : State) (o : Nat) (x : Word) : (s.setBar o x).banks = s.banks := rfl
@[simp] theorem State.setBar_heatk (s : State) (o : Nat) (x : Word) : (s.setBar o x).heatk = s.heatk := rfl
@[simp] theorem State.setBar_heatd (s : State) (o : Nat) (x : Word) : (s.setBar o x).heatd = s.heatd := rfl
@[simp] theorem State.setBar_pkg (s : State) (o : Nat) (x : Word) : (s.setBar o x).pkg = s.pkg := rfl
@[simp] theorem State.setBar_fltsvc (s : State) (o : Nat) (x : Word) : (s.setBar o x).fltsvc = s.fltsvc := rfl
@[simp] theorem State.setBar_supv (s : State) (o : Nat) (x : Word) : (s.setBar o x).supv = s.supv := rfl
@[simp] theorem State.setBar_tlb2 (s : State) (o : Nat) (x : Word) : (s.setBar o x).tlb2 = s.tlb2 := rfl
@[simp] theorem State.setBar_walkCache (s : State) (o : Nat) (x : Word) : (s.setBar o x).walkCache = s.walkCache := rfl
@[simp] theorem State.setBar_samplers (s : State) (o : Nat) (x : Word) : (s.setBar o x).samplers = s.samplers := rfl
@[simp] theorem State.setBar_walks (s : State) (o : Nat) (x : Word) : (s.setBar o x).walks = s.walks := rfl
@[simp] theorem State.setBar_tlbis (s : State) (o : Nat) (x : Word) : (s.setBar o x).tlbis = s.tlbis := rfl
@[simp] theorem State.setBar_hubTlb (s : State) (o : Nat) (x : Word) : (s.setBar o x).hubTlb = s.hubTlb := rfl
@[simp] theorem State.setBar_faults (s : State) (o : Nat) (x : Word) : (s.setBar o x).faults = s.faults := rfl
@[simp] theorem State.setBar_faultSeq (s : State) (o : Nat) (x : Word) : (s.setBar o x).faultSeq = s.faultSeq := rfl
@[simp] theorem State.setBar_homes (s : State) (o : Nat) (x : Word) : (s.setBar o x).homes = s.homes := rfl
@[simp] theorem State.setBar_doneIds (s : State) (o : Nat) (x : Word) : (s.setBar o x).doneIds = s.doneIds := rfl
@[simp] theorem State.setBar_launches (s : State) (o : Nat) (x : Word) : (s.setBar o x).launches = s.launches := rfl
@[simp] theorem State.setBar_active (s : State) (o : Nat) (x : Word) : (s.setBar o x).active = s.active := rfl
@[simp] theorem State.setBar_gangs (s : State) (o : Nat) (x : Word) : (s.setBar o x).gangs = s.gangs := rfl
@[simp] theorem State.setBar_jobs (s : State) (o : Nat) (x : Word) : (s.setBar o x).jobs = s.jobs := rfl
@[simp] theorem State.setBar_loads (s : State) (o : Nat) (x : Word) : (s.setBar o x).loads = s.loads := rfl
@[simp] theorem State.setBar_armed (s : State) (o : Nat) (x : Word) : (s.setBar o x).armed = s.armed := rfl
@[simp] theorem State.setBar_snapAt (s : State) (o : Nat) (x : Word) : (s.setBar o x).snapAt = s.snapAt := rfl
@[simp] theorem State.setBar_sgs (s : State) (o : Nat) (x : Word) : (s.setBar o x).sgs = s.sgs := rfl
@[simp] theorem State.setBar_watch (s : State) (o : Nat) (x : Word) : (s.setBar o x).watch = s.watch := rfl
@[simp] theorem State.setBar_coh (s : State) (o : Nat) (x : Word) : (s.setBar o x).coh = s.coh := rfl
@[simp] theorem State.setBar_sys (s : State) (o : Nat) (x : Word) : (s.setBar o x).sys = s.sys := rfl

@[simp] theorem State.takeTrap_cyc (s : State) (c : CoreId) (x : CtxId) (t : Trap) : (s.takeTrap c x t).cyc = s.cyc := (State.modCtx_cyc _ _ _ _).trans (State.putChecked_cyc _ _ _ _)
@[simp] theorem State.takeTrap_turn (s : State) (c : CoreId) (x : CtxId) (t : Trap) : (s.takeTrap c x t).turn = s.turn := (State.modCtx_turn _ _ _ _).trans (State.putChecked_turn _ _ _ _)
@[simp] theorem State.takeTrap_slot (s : State) (c : CoreId) (x : CtxId) (t : Trap) : (s.takeTrap c x t).slot = s.slot := (State.modCtx_slot _ _ _ _).trans (State.putChecked_slot _ _ _ _)
@[simp] theorem State.takeTrap_fresh (s : State) (c : CoreId) (x : CtxId) (t : Trap) : (s.takeTrap c x t).fresh = s.fresh := (State.modCtx_fresh _ _ _ _).trans (State.putChecked_fresh _ _ _ _)
@[simp] theorem State.takeTrap_agenda (s : State) (c : CoreId) (x : CtxId) (t : Trap) : (s.takeTrap c x t).agenda = s.agenda := (State.modCtx_agenda _ _ _ _).trans (State.putChecked_agenda _ _ _ _)
@[simp] theorem State.takeTrap_ev (s : State) (c : CoreId) (x : CtxId) (t : Trap) : (s.takeTrap c x t).ev = s.ev := (State.modCtx_ev _ _ _ _).trans (State.putChecked_ev _ _ _ _)
@[simp] theorem State.takeTrap_outbox (s : State) (c : CoreId) (x : CtxId) (t : Trap) : (s.takeTrap c x t).outbox = s.outbox := (State.modCtx_outbox _ _ _ _).trans (State.putChecked_outbox _ _ _ _)
@[simp] theorem State.takeTrap_atoms (s : State) (c : CoreId) (x : CtxId) (t : Trap) : (s.takeTrap c x t).atoms = s.atoms := (State.modCtx_atoms _ _ _ _).trans (State.putChecked_atoms _ _ _ _)
@[simp] theorem State.takeTrap_rgns (s : State) (c : CoreId) (x : CtxId) (t : Trap) : (s.takeTrap c x t).rgns = s.rgns := (State.modCtx_rgns _ _ _ _).trans (State.putChecked_rgns _ _ _ _)
@[simp] theorem State.takeTrap_sgWays (s : State) (c : CoreId) (x : CtxId) (t : Trap) : (s.takeTrap c x t).sgWays = s.sgWays := (State.modCtx_sgWays _ _ _ _).trans (State.putChecked_sgWays _ _ _ _)
@[simp] theorem State.takeTrap_sgway (s : State) (c : CoreId) (x : CtxId) (t : Trap) : (s.takeTrap c x t).sgway = s.sgway := (State.modCtx_sgway _ _ _ _).trans (State.putChecked_sgway _ _ _ _)
@[simp] theorem State.takeTrap_waiters (s : State) (c : CoreId) (x : CtxId) (t : Trap) : (s.takeTrap c x t).waiters = s.waiters := (State.modCtx_waiters _ _ _ _).trans (State.putChecked_waiters _ _ _ _)
@[simp] theorem State.takeTrap_withdrawnConts (s : State) (c : CoreId) (x : CtxId) (t : Trap) : (s.takeTrap c x t).withdrawnConts = s.withdrawnConts := (State.modCtx_withdrawnConts _ _ _ _).trans (State.putChecked_withdrawnConts _ _ _ _)
@[simp] theorem State.takeTrap_fills (s : State) (c : CoreId) (x : CtxId) (t : Trap) : (s.takeTrap c x t).fills = s.fills := (State.modCtx_fills _ _ _ _).trans (State.putChecked_fills _ _ _ _)
@[simp] theorem State.takeTrap_held (s : State) (c : CoreId) (x : CtxId) (t : Trap) : (s.takeTrap c x t).held = s.held := (State.modCtx_held _ _ _ _).trans (State.putChecked_held _ _ _ _)
@[simp] theorem State.takeTrap_banks (s : State) (c : CoreId) (x : CtxId) (t : Trap) : (s.takeTrap c x t).banks = s.banks := (State.modCtx_banks _ _ _ _).trans (State.putChecked_banks _ _ _ _)
@[simp] theorem State.takeTrap_bar0 (s : State) (c : CoreId) (x : CtxId) (t : Trap) : (s.takeTrap c x t).bar0 = s.bar0 := (State.modCtx_bar0 _ _ _ _).trans (State.putChecked_bar0 _ _ _ _)
@[simp] theorem State.takeTrap_heatk (s : State) (c : CoreId) (x : CtxId) (t : Trap) : (s.takeTrap c x t).heatk = s.heatk := (State.modCtx_heatk _ _ _ _).trans (State.putChecked_heatk _ _ _ _)
@[simp] theorem State.takeTrap_heatd (s : State) (c : CoreId) (x : CtxId) (t : Trap) : (s.takeTrap c x t).heatd = s.heatd := (State.modCtx_heatd _ _ _ _).trans (State.putChecked_heatd _ _ _ _)
@[simp] theorem State.takeTrap_pkg (s : State) (c : CoreId) (x : CtxId) (t : Trap) : (s.takeTrap c x t).pkg = s.pkg := (State.modCtx_pkg _ _ _ _).trans (State.putChecked_pkg _ _ _ _)
@[simp] theorem State.takeTrap_fltsvc (s : State) (c : CoreId) (x : CtxId) (t : Trap) : (s.takeTrap c x t).fltsvc = s.fltsvc := (State.modCtx_fltsvc _ _ _ _).trans (State.putChecked_fltsvc _ _ _ _)
@[simp] theorem State.takeTrap_supv (s : State) (c : CoreId) (x : CtxId) (t : Trap) : (s.takeTrap c x t).supv = s.supv := (State.modCtx_supv _ _ _ _).trans (State.putChecked_supv _ _ _ _)
@[simp] theorem State.takeTrap_tlb2 (s : State) (c : CoreId) (x : CtxId) (t : Trap) : (s.takeTrap c x t).tlb2 = s.tlb2 := (State.modCtx_tlb2 _ _ _ _).trans (State.putChecked_tlb2 _ _ _ _)
@[simp] theorem State.takeTrap_walkCache (s : State) (c : CoreId) (x : CtxId) (t : Trap) : (s.takeTrap c x t).walkCache = s.walkCache := (State.modCtx_walkCache _ _ _ _).trans (State.putChecked_walkCache _ _ _ _)
@[simp] theorem State.takeTrap_samplers (s : State) (c : CoreId) (x : CtxId) (t : Trap) : (s.takeTrap c x t).samplers = s.samplers := (State.modCtx_samplers _ _ _ _).trans (State.putChecked_samplers _ _ _ _)
@[simp] theorem State.takeTrap_walks (s : State) (c : CoreId) (x : CtxId) (t : Trap) : (s.takeTrap c x t).walks = s.walks := (State.modCtx_walks _ _ _ _).trans (State.putChecked_walks _ _ _ _)
@[simp] theorem State.takeTrap_tlbis (s : State) (c : CoreId) (x : CtxId) (t : Trap) : (s.takeTrap c x t).tlbis = s.tlbis := (State.modCtx_tlbis _ _ _ _).trans (State.putChecked_tlbis _ _ _ _)
@[simp] theorem State.takeTrap_hubTlb (s : State) (c : CoreId) (x : CtxId) (t : Trap) : (s.takeTrap c x t).hubTlb = s.hubTlb := (State.modCtx_hubTlb _ _ _ _).trans (State.putChecked_hubTlb _ _ _ _)
@[simp] theorem State.takeTrap_faults (s : State) (c : CoreId) (x : CtxId) (t : Trap) : (s.takeTrap c x t).faults = s.faults := (State.modCtx_faults _ _ _ _).trans (State.putChecked_faults _ _ _ _)
@[simp] theorem State.takeTrap_faultSeq (s : State) (c : CoreId) (x : CtxId) (t : Trap) : (s.takeTrap c x t).faultSeq = s.faultSeq := (State.modCtx_faultSeq _ _ _ _).trans (State.putChecked_faultSeq _ _ _ _)
@[simp] theorem State.takeTrap_homes (s : State) (c : CoreId) (x : CtxId) (t : Trap) : (s.takeTrap c x t).homes = s.homes := (State.modCtx_homes _ _ _ _).trans (State.putChecked_homes _ _ _ _)
@[simp] theorem State.takeTrap_doneIds (s : State) (c : CoreId) (x : CtxId) (t : Trap) : (s.takeTrap c x t).doneIds = s.doneIds := (State.modCtx_doneIds _ _ _ _).trans (State.putChecked_doneIds _ _ _ _)
@[simp] theorem State.takeTrap_launches (s : State) (c : CoreId) (x : CtxId) (t : Trap) : (s.takeTrap c x t).launches = s.launches := (State.modCtx_launches _ _ _ _).trans (State.putChecked_launches _ _ _ _)
@[simp] theorem State.takeTrap_active (s : State) (c : CoreId) (x : CtxId) (t : Trap) : (s.takeTrap c x t).active = s.active := (State.modCtx_active _ _ _ _).trans (State.putChecked_active _ _ _ _)
@[simp] theorem State.takeTrap_gangs (s : State) (c : CoreId) (x : CtxId) (t : Trap) : (s.takeTrap c x t).gangs = s.gangs := (State.modCtx_gangs _ _ _ _).trans (State.putChecked_gangs _ _ _ _)
@[simp] theorem State.takeTrap_jobs (s : State) (c : CoreId) (x : CtxId) (t : Trap) : (s.takeTrap c x t).jobs = s.jobs := (State.modCtx_jobs _ _ _ _).trans (State.putChecked_jobs _ _ _ _)
@[simp] theorem State.takeTrap_loads (s : State) (c : CoreId) (x : CtxId) (t : Trap) : (s.takeTrap c x t).loads = s.loads := (State.modCtx_loads _ _ _ _).trans (State.putChecked_loads _ _ _ _)
@[simp] theorem State.takeTrap_armed (s : State) (c : CoreId) (x : CtxId) (t : Trap) : (s.takeTrap c x t).armed = s.armed := (State.modCtx_armed _ _ _ _).trans (State.putChecked_armed _ _ _ _)
@[simp] theorem State.takeTrap_snapAt (s : State) (c : CoreId) (x : CtxId) (t : Trap) : (s.takeTrap c x t).snapAt = s.snapAt := (State.modCtx_snapAt _ _ _ _).trans (State.putChecked_snapAt _ _ _ _)
@[simp] theorem State.takeTrap_sgs (s : State) (c : CoreId) (x : CtxId) (t : Trap) : (s.takeTrap c x t).sgs = s.sgs := (State.modCtx_sgs _ _ _ _).trans (State.putChecked_sgs _ _ _ _)
@[simp] theorem State.takeTrap_watch (s : State) (c : CoreId) (x : CtxId) (t : Trap) : (s.takeTrap c x t).watch = s.watch := (State.modCtx_watch _ _ _ _).trans (State.putChecked_watch _ _ _ _)
@[simp] theorem State.takeTrap_coh (s : State) (c : CoreId) (x : CtxId) (t : Trap) : (s.takeTrap c x t).coh = s.coh := (State.modCtx_coh _ _ _ _).trans (State.putChecked_coh _ _ _ _)
@[simp] theorem State.takeTrap_sys (s : State) (c : CoreId) (x : CtxId) (t : Trap) : (s.takeTrap c x t).sys = s.sys := (State.modCtx_sys _ _ _ _).trans (State.putChecked_sys _ _ _ _)

@[simp] theorem State.modLaunch_cyc (s : State) (n : BitVec 32) (f : Launch → Launch) : (s.modLaunch n f).cyc = s.cyc := rfl
@[simp] theorem State.modLaunch_turn (s : State) (n : BitVec 32) (f : Launch → Launch) : (s.modLaunch n f).turn = s.turn := rfl
@[simp] theorem State.modLaunch_slot (s : State) (n : BitVec 32) (f : Launch → Launch) : (s.modLaunch n f).slot = s.slot := rfl
@[simp] theorem State.modLaunch_fresh (s : State) (n : BitVec 32) (f : Launch → Launch) : (s.modLaunch n f).fresh = s.fresh := rfl
@[simp] theorem State.modLaunch_agenda (s : State) (n : BitVec 32) (f : Launch → Launch) : (s.modLaunch n f).agenda = s.agenda := rfl
@[simp] theorem State.modLaunch_ev (s : State) (n : BitVec 32) (f : Launch → Launch) : (s.modLaunch n f).ev = s.ev := rfl
@[simp] theorem State.modLaunch_outbox (s : State) (n : BitVec 32) (f : Launch → Launch) : (s.modLaunch n f).outbox = s.outbox := rfl
@[simp] theorem State.modLaunch_mem (s : State) (n : BitVec 32) (f : Launch → Launch) : (s.modLaunch n f).mem = s.mem := rfl
@[simp] theorem State.modLaunch_atoms (s : State) (n : BitVec 32) (f : Launch → Launch) : (s.modLaunch n f).atoms = s.atoms := rfl
@[simp] theorem State.modLaunch_ecc (s : State) (n : BitVec 32) (f : Launch → Launch) : (s.modLaunch n f).ecc = s.ecc := rfl
@[simp] theorem State.modLaunch_cores (s : State) (n : BitVec 32) (f : Launch → Launch) : (s.modLaunch n f).cores = s.cores := rfl
@[simp] theorem State.modLaunch_rgns (s : State) (n : BitVec 32) (f : Launch → Launch) : (s.modLaunch n f).rgns = s.rgns := rfl
@[simp] theorem State.modLaunch_sgWays (s : State) (n : BitVec 32) (f : Launch → Launch) : (s.modLaunch n f).sgWays = s.sgWays := rfl
@[simp] theorem State.modLaunch_sgway (s : State) (n : BitVec 32) (f : Launch → Launch) : (s.modLaunch n f).sgway = s.sgway := rfl
@[simp] theorem State.modLaunch_waiters (s : State) (n : BitVec 32) (f : Launch → Launch) : (s.modLaunch n f).waiters = s.waiters := rfl
@[simp] theorem State.modLaunch_withdrawnConts (s : State) (n : BitVec 32) (f : Launch → Launch) : (s.modLaunch n f).withdrawnConts = s.withdrawnConts := rfl
@[simp] theorem State.modLaunch_fills (s : State) (n : BitVec 32) (f : Launch → Launch) : (s.modLaunch n f).fills = s.fills := rfl
@[simp] theorem State.modLaunch_held (s : State) (n : BitVec 32) (f : Launch → Launch) : (s.modLaunch n f).held = s.held := rfl
@[simp] theorem State.modLaunch_banks (s : State) (n : BitVec 32) (f : Launch → Launch) : (s.modLaunch n f).banks = s.banks := rfl
@[simp] theorem State.modLaunch_bar0 (s : State) (n : BitVec 32) (f : Launch → Launch) : (s.modLaunch n f).bar0 = s.bar0 := rfl
@[simp] theorem State.modLaunch_heatk (s : State) (n : BitVec 32) (f : Launch → Launch) : (s.modLaunch n f).heatk = s.heatk := rfl
@[simp] theorem State.modLaunch_heatd (s : State) (n : BitVec 32) (f : Launch → Launch) : (s.modLaunch n f).heatd = s.heatd := rfl
@[simp] theorem State.modLaunch_pkg (s : State) (n : BitVec 32) (f : Launch → Launch) : (s.modLaunch n f).pkg = s.pkg := rfl
@[simp] theorem State.modLaunch_fltsvc (s : State) (n : BitVec 32) (f : Launch → Launch) : (s.modLaunch n f).fltsvc = s.fltsvc := rfl
@[simp] theorem State.modLaunch_supv (s : State) (n : BitVec 32) (f : Launch → Launch) : (s.modLaunch n f).supv = s.supv := rfl
@[simp] theorem State.modLaunch_tlb2 (s : State) (n : BitVec 32) (f : Launch → Launch) : (s.modLaunch n f).tlb2 = s.tlb2 := rfl
@[simp] theorem State.modLaunch_walkCache (s : State) (n : BitVec 32) (f : Launch → Launch) : (s.modLaunch n f).walkCache = s.walkCache := rfl
@[simp] theorem State.modLaunch_samplers (s : State) (n : BitVec 32) (f : Launch → Launch) : (s.modLaunch n f).samplers = s.samplers := rfl
@[simp] theorem State.modLaunch_walks (s : State) (n : BitVec 32) (f : Launch → Launch) : (s.modLaunch n f).walks = s.walks := rfl
@[simp] theorem State.modLaunch_tlbis (s : State) (n : BitVec 32) (f : Launch → Launch) : (s.modLaunch n f).tlbis = s.tlbis := rfl
@[simp] theorem State.modLaunch_hubTlb (s : State) (n : BitVec 32) (f : Launch → Launch) : (s.modLaunch n f).hubTlb = s.hubTlb := rfl
@[simp] theorem State.modLaunch_faults (s : State) (n : BitVec 32) (f : Launch → Launch) : (s.modLaunch n f).faults = s.faults := rfl
@[simp] theorem State.modLaunch_faultSeq (s : State) (n : BitVec 32) (f : Launch → Launch) : (s.modLaunch n f).faultSeq = s.faultSeq := rfl
@[simp] theorem State.modLaunch_homes (s : State) (n : BitVec 32) (f : Launch → Launch) : (s.modLaunch n f).homes = s.homes := rfl
@[simp] theorem State.modLaunch_doneIds (s : State) (n : BitVec 32) (f : Launch → Launch) : (s.modLaunch n f).doneIds = s.doneIds := rfl
@[simp] theorem State.modLaunch_active (s : State) (n : BitVec 32) (f : Launch → Launch) : (s.modLaunch n f).active = s.active := rfl
@[simp] theorem State.modLaunch_gangs (s : State) (n : BitVec 32) (f : Launch → Launch) : (s.modLaunch n f).gangs = s.gangs := rfl
@[simp] theorem State.modLaunch_jobs (s : State) (n : BitVec 32) (f : Launch → Launch) : (s.modLaunch n f).jobs = s.jobs := rfl
@[simp] theorem State.modLaunch_loads (s : State) (n : BitVec 32) (f : Launch → Launch) : (s.modLaunch n f).loads = s.loads := rfl
@[simp] theorem State.modLaunch_armed (s : State) (n : BitVec 32) (f : Launch → Launch) : (s.modLaunch n f).armed = s.armed := rfl
@[simp] theorem State.modLaunch_snapAt (s : State) (n : BitVec 32) (f : Launch → Launch) : (s.modLaunch n f).snapAt = s.snapAt := rfl
@[simp] theorem State.modLaunch_sgs (s : State) (n : BitVec 32) (f : Launch → Launch) : (s.modLaunch n f).sgs = s.sgs := rfl
@[simp] theorem State.modLaunch_watch (s : State) (n : BitVec 32) (f : Launch → Launch) : (s.modLaunch n f).watch = s.watch := rfl
@[simp] theorem State.modLaunch_coh (s : State) (n : BitVec 32) (f : Launch → Launch) : (s.modLaunch n f).coh = s.coh := rfl
@[simp] theorem State.modLaunch_sys (s : State) (n : BitVec 32) (f : Launch → Launch) : (s.modLaunch n f).sys = s.sys := rfl

@[simp] theorem State.wipe_cyc (s : State) (lo hi : Nat) : (s.wipe lo hi).cyc = s.cyc := rfl
@[simp] theorem State.wipe_turn (s : State) (lo hi : Nat) : (s.wipe lo hi).turn = s.turn := rfl
@[simp] theorem State.wipe_slot (s : State) (lo hi : Nat) : (s.wipe lo hi).slot = s.slot := rfl
@[simp] theorem State.wipe_fresh (s : State) (lo hi : Nat) : (s.wipe lo hi).fresh = s.fresh := rfl
@[simp] theorem State.wipe_agenda (s : State) (lo hi : Nat) : (s.wipe lo hi).agenda = s.agenda := rfl
@[simp] theorem State.wipe_ev (s : State) (lo hi : Nat) : (s.wipe lo hi).ev = s.ev := rfl
@[simp] theorem State.wipe_outbox (s : State) (lo hi : Nat) : (s.wipe lo hi).outbox = s.outbox := rfl
@[simp] theorem State.wipe_cores (s : State) (lo hi : Nat) : (s.wipe lo hi).cores = s.cores := rfl
@[simp] theorem State.wipe_rgns (s : State) (lo hi : Nat) : (s.wipe lo hi).rgns = s.rgns := rfl
@[simp] theorem State.wipe_sgWays (s : State) (lo hi : Nat) : (s.wipe lo hi).sgWays = s.sgWays := rfl
@[simp] theorem State.wipe_sgway (s : State) (lo hi : Nat) : (s.wipe lo hi).sgway = s.sgway := rfl
@[simp] theorem State.wipe_withdrawnConts (s : State) (lo hi : Nat) : (s.wipe lo hi).withdrawnConts = s.withdrawnConts := rfl
@[simp] theorem State.wipe_held (s : State) (lo hi : Nat) : (s.wipe lo hi).held = s.held := rfl
@[simp] theorem State.wipe_banks (s : State) (lo hi : Nat) : (s.wipe lo hi).banks = s.banks := rfl
@[simp] theorem State.wipe_bar0 (s : State) (lo hi : Nat) : (s.wipe lo hi).bar0 = s.bar0 := rfl
@[simp] theorem State.wipe_heatk (s : State) (lo hi : Nat) : (s.wipe lo hi).heatk = s.heatk := rfl
@[simp] theorem State.wipe_heatd (s : State) (lo hi : Nat) : (s.wipe lo hi).heatd = s.heatd := rfl
@[simp] theorem State.wipe_pkg (s : State) (lo hi : Nat) : (s.wipe lo hi).pkg = s.pkg := rfl
@[simp] theorem State.wipe_fltsvc (s : State) (lo hi : Nat) : (s.wipe lo hi).fltsvc = s.fltsvc := rfl
@[simp] theorem State.wipe_supv (s : State) (lo hi : Nat) : (s.wipe lo hi).supv = s.supv := rfl
@[simp] theorem State.wipe_tlb2 (s : State) (lo hi : Nat) : (s.wipe lo hi).tlb2 = s.tlb2 := rfl
@[simp] theorem State.wipe_walkCache (s : State) (lo hi : Nat) : (s.wipe lo hi).walkCache = s.walkCache := rfl
@[simp] theorem State.wipe_samplers (s : State) (lo hi : Nat) : (s.wipe lo hi).samplers = s.samplers := rfl
@[simp] theorem State.wipe_walks (s : State) (lo hi : Nat) : (s.wipe lo hi).walks = s.walks := rfl
@[simp] theorem State.wipe_tlbis (s : State) (lo hi : Nat) : (s.wipe lo hi).tlbis = s.tlbis := rfl
@[simp] theorem State.wipe_hubTlb (s : State) (lo hi : Nat) : (s.wipe lo hi).hubTlb = s.hubTlb := rfl
@[simp] theorem State.wipe_faults (s : State) (lo hi : Nat) : (s.wipe lo hi).faults = s.faults := rfl
@[simp] theorem State.wipe_faultSeq (s : State) (lo hi : Nat) : (s.wipe lo hi).faultSeq = s.faultSeq := rfl
@[simp] theorem State.wipe_homes (s : State) (lo hi : Nat) : (s.wipe lo hi).homes = s.homes := rfl
@[simp] theorem State.wipe_doneIds (s : State) (lo hi : Nat) : (s.wipe lo hi).doneIds = s.doneIds := rfl
@[simp] theorem State.wipe_launches (s : State) (lo hi : Nat) : (s.wipe lo hi).launches = s.launches := rfl
@[simp] theorem State.wipe_active (s : State) (lo hi : Nat) : (s.wipe lo hi).active = s.active := rfl
@[simp] theorem State.wipe_gangs (s : State) (lo hi : Nat) : (s.wipe lo hi).gangs = s.gangs := rfl
@[simp] theorem State.wipe_jobs (s : State) (lo hi : Nat) : (s.wipe lo hi).jobs = s.jobs := rfl
@[simp] theorem State.wipe_loads (s : State) (lo hi : Nat) : (s.wipe lo hi).loads = s.loads := rfl
@[simp] theorem State.wipe_armed (s : State) (lo hi : Nat) : (s.wipe lo hi).armed = s.armed := rfl
@[simp] theorem State.wipe_snapAt (s : State) (lo hi : Nat) : (s.wipe lo hi).snapAt = s.snapAt := rfl
@[simp] theorem State.wipe_sgs (s : State) (lo hi : Nat) : (s.wipe lo hi).sgs = s.sgs := rfl
@[simp] theorem State.wipe_watch (s : State) (lo hi : Nat) : (s.wipe lo hi).watch = s.watch := rfl
@[simp] theorem State.wipe_coh (s : State) (lo hi : Nat) : (s.wipe lo hi).coh = s.coh := rfl
@[simp] theorem State.wipe_sys (s : State) (lo hi : Nat) : (s.wipe lo hi).sys = s.sys := rfl

@[simp] theorem State.count_cyc (s : State) (c : CoreId) (e : BitVec 8) : (s.count c e).cyc = s.cyc := by unfold State.count; split <;> rfl
@[simp] theorem State.count_turn (s : State) (c : CoreId) (e : BitVec 8) : (s.count c e).turn = s.turn := by unfold State.count; split <;> rfl
@[simp] theorem State.count_slot (s : State) (c : CoreId) (e : BitVec 8) : (s.count c e).slot = s.slot := by unfold State.count; split <;> rfl
@[simp] theorem State.count_fresh (s : State) (c : CoreId) (e : BitVec 8) : (s.count c e).fresh = s.fresh := by unfold State.count; split <;> rfl
@[simp] theorem State.count_agenda (s : State) (c : CoreId) (e : BitVec 8) : (s.count c e).agenda = s.agenda := by unfold State.count; split <;> rfl
@[simp] theorem State.count_ev (s : State) (c : CoreId) (e : BitVec 8) : (s.count c e).ev = s.ev := by unfold State.count; split <;> rfl
@[simp] theorem State.count_outbox (s : State) (c : CoreId) (e : BitVec 8) : (s.count c e).outbox = s.outbox := by unfold State.count; split <;> rfl
@[simp] theorem State.count_mem (s : State) (c : CoreId) (e : BitVec 8) : (s.count c e).mem = s.mem := by unfold State.count; split <;> rfl
@[simp] theorem State.count_atoms (s : State) (c : CoreId) (e : BitVec 8) : (s.count c e).atoms = s.atoms := by unfold State.count; split <;> rfl
@[simp] theorem State.count_ecc (s : State) (c : CoreId) (e : BitVec 8) : (s.count c e).ecc = s.ecc := by unfold State.count; split <;> rfl
@[simp] theorem State.count_rgns (s : State) (c : CoreId) (e : BitVec 8) : (s.count c e).rgns = s.rgns := by unfold State.count; split <;> rfl
@[simp] theorem State.count_sgWays (s : State) (c : CoreId) (e : BitVec 8) : (s.count c e).sgWays = s.sgWays := by unfold State.count; split <;> rfl
@[simp] theorem State.count_sgway (s : State) (c : CoreId) (e : BitVec 8) : (s.count c e).sgway = s.sgway := by unfold State.count; split <;> rfl
@[simp] theorem State.count_waiters (s : State) (c : CoreId) (e : BitVec 8) : (s.count c e).waiters = s.waiters := by unfold State.count; split <;> rfl
@[simp] theorem State.count_withdrawnConts (s : State) (c : CoreId) (e : BitVec 8) : (s.count c e).withdrawnConts = s.withdrawnConts := by unfold State.count; split <;> rfl
@[simp] theorem State.count_fills (s : State) (c : CoreId) (e : BitVec 8) : (s.count c e).fills = s.fills := by unfold State.count; split <;> rfl
@[simp] theorem State.count_held (s : State) (c : CoreId) (e : BitVec 8) : (s.count c e).held = s.held := by unfold State.count; split <;> rfl
@[simp] theorem State.count_banks (s : State) (c : CoreId) (e : BitVec 8) : (s.count c e).banks = s.banks := by unfold State.count; split <;> rfl
@[simp] theorem State.count_bar0 (s : State) (c : CoreId) (e : BitVec 8) : (s.count c e).bar0 = s.bar0 := by unfold State.count; split <;> rfl
@[simp] theorem State.count_heatk (s : State) (c : CoreId) (e : BitVec 8) : (s.count c e).heatk = s.heatk := by unfold State.count; split <;> rfl
@[simp] theorem State.count_heatd (s : State) (c : CoreId) (e : BitVec 8) : (s.count c e).heatd = s.heatd := by unfold State.count; split <;> rfl
@[simp] theorem State.count_pkg (s : State) (c : CoreId) (e : BitVec 8) : (s.count c e).pkg = s.pkg := by unfold State.count; split <;> rfl
@[simp] theorem State.count_fltsvc (s : State) (c : CoreId) (e : BitVec 8) : (s.count c e).fltsvc = s.fltsvc := by unfold State.count; split <;> rfl
@[simp] theorem State.count_supv (s : State) (c : CoreId) (e : BitVec 8) : (s.count c e).supv = s.supv := by unfold State.count; split <;> rfl
@[simp] theorem State.count_tlb2 (s : State) (c : CoreId) (e : BitVec 8) : (s.count c e).tlb2 = s.tlb2 := by unfold State.count; split <;> rfl
@[simp] theorem State.count_walkCache (s : State) (c : CoreId) (e : BitVec 8) : (s.count c e).walkCache = s.walkCache := by unfold State.count; split <;> rfl
@[simp] theorem State.count_samplers (s : State) (c : CoreId) (e : BitVec 8) : (s.count c e).samplers = s.samplers := by unfold State.count; split <;> rfl
@[simp] theorem State.count_walks (s : State) (c : CoreId) (e : BitVec 8) : (s.count c e).walks = s.walks := by unfold State.count; split <;> rfl
@[simp] theorem State.count_tlbis (s : State) (c : CoreId) (e : BitVec 8) : (s.count c e).tlbis = s.tlbis := by unfold State.count; split <;> rfl
@[simp] theorem State.count_hubTlb (s : State) (c : CoreId) (e : BitVec 8) : (s.count c e).hubTlb = s.hubTlb := by unfold State.count; split <;> rfl
@[simp] theorem State.count_faults (s : State) (c : CoreId) (e : BitVec 8) : (s.count c e).faults = s.faults := by unfold State.count; split <;> rfl
@[simp] theorem State.count_faultSeq (s : State) (c : CoreId) (e : BitVec 8) : (s.count c e).faultSeq = s.faultSeq := by unfold State.count; split <;> rfl
@[simp] theorem State.count_homes (s : State) (c : CoreId) (e : BitVec 8) : (s.count c e).homes = s.homes := by unfold State.count; split <;> rfl
@[simp] theorem State.count_doneIds (s : State) (c : CoreId) (e : BitVec 8) : (s.count c e).doneIds = s.doneIds := by unfold State.count; split <;> rfl
@[simp] theorem State.count_launches (s : State) (c : CoreId) (e : BitVec 8) : (s.count c e).launches = s.launches := by unfold State.count; split <;> rfl
@[simp] theorem State.count_active (s : State) (c : CoreId) (e : BitVec 8) : (s.count c e).active = s.active := by unfold State.count; split <;> rfl
@[simp] theorem State.count_gangs (s : State) (c : CoreId) (e : BitVec 8) : (s.count c e).gangs = s.gangs := by unfold State.count; split <;> rfl
@[simp] theorem State.count_jobs (s : State) (c : CoreId) (e : BitVec 8) : (s.count c e).jobs = s.jobs := by unfold State.count; split <;> rfl
@[simp] theorem State.count_loads (s : State) (c : CoreId) (e : BitVec 8) : (s.count c e).loads = s.loads := by unfold State.count; split <;> rfl
@[simp] theorem State.count_armed (s : State) (c : CoreId) (e : BitVec 8) : (s.count c e).armed = s.armed := by unfold State.count; split <;> rfl
@[simp] theorem State.count_snapAt (s : State) (c : CoreId) (e : BitVec 8) : (s.count c e).snapAt = s.snapAt := by unfold State.count; split <;> rfl
@[simp] theorem State.count_sgs (s : State) (c : CoreId) (e : BitVec 8) : (s.count c e).sgs = s.sgs := by unfold State.count; split <;> rfl
@[simp] theorem State.count_watch (s : State) (c : CoreId) (e : BitVec 8) : (s.count c e).watch = s.watch := by unfold State.count; split <;> rfl
@[simp] theorem State.count_coh (s : State) (c : CoreId) (e : BitVec 8) : (s.count c e).coh = s.coh := by unfold State.count; split <;> rfl
@[simp] theorem State.count_sys (s : State) (c : CoreId) (e : BitVec 8) : (s.count c e).sys = s.sys := by unfold State.count; split <;> rfl

@[simp] theorem State.lost_cyc (s : State) : (s.lost).cyc = s.cyc := State.count_cyc _ _ _
@[simp] theorem State.lost_turn (s : State) : (s.lost).turn = s.turn := State.count_turn _ _ _
@[simp] theorem State.lost_slot (s : State) : (s.lost).slot = s.slot := State.count_slot _ _ _
@[simp] theorem State.lost_fresh (s : State) : (s.lost).fresh = s.fresh := State.count_fresh _ _ _
@[simp] theorem State.lost_agenda (s : State) : (s.lost).agenda = s.agenda := State.count_agenda _ _ _
@[simp] theorem State.lost_ev (s : State) : (s.lost).ev = s.ev := State.count_ev _ _ _
@[simp] theorem State.lost_outbox (s : State) : (s.lost).outbox = s.outbox := State.count_outbox _ _ _
@[simp] theorem State.lost_mem (s : State) : (s.lost).mem = s.mem := State.count_mem _ _ _
@[simp] theorem State.lost_atoms (s : State) : (s.lost).atoms = s.atoms := State.count_atoms _ _ _
@[simp] theorem State.lost_ecc (s : State) : (s.lost).ecc = s.ecc := State.count_ecc _ _ _
@[simp] theorem State.lost_rgns (s : State) : (s.lost).rgns = s.rgns := State.count_rgns _ _ _
@[simp] theorem State.lost_sgWays (s : State) : (s.lost).sgWays = s.sgWays := State.count_sgWays _ _ _
@[simp] theorem State.lost_sgway (s : State) : (s.lost).sgway = s.sgway := State.count_sgway _ _ _
@[simp] theorem State.lost_waiters (s : State) : (s.lost).waiters = s.waiters := State.count_waiters _ _ _
@[simp] theorem State.lost_withdrawnConts (s : State) : (s.lost).withdrawnConts = s.withdrawnConts := State.count_withdrawnConts _ _ _
@[simp] theorem State.lost_fills (s : State) : (s.lost).fills = s.fills := State.count_fills _ _ _
@[simp] theorem State.lost_held (s : State) : (s.lost).held = s.held := State.count_held _ _ _
@[simp] theorem State.lost_banks (s : State) : (s.lost).banks = s.banks := State.count_banks _ _ _
@[simp] theorem State.lost_bar0 (s : State) : (s.lost).bar0 = s.bar0 := State.count_bar0 _ _ _
@[simp] theorem State.lost_heatk (s : State) : (s.lost).heatk = s.heatk := State.count_heatk _ _ _
@[simp] theorem State.lost_heatd (s : State) : (s.lost).heatd = s.heatd := State.count_heatd _ _ _
@[simp] theorem State.lost_pkg (s : State) : (s.lost).pkg = s.pkg := State.count_pkg _ _ _
@[simp] theorem State.lost_fltsvc (s : State) : (s.lost).fltsvc = s.fltsvc := State.count_fltsvc _ _ _
@[simp] theorem State.lost_supv (s : State) : (s.lost).supv = s.supv := State.count_supv _ _ _
@[simp] theorem State.lost_tlb2 (s : State) : (s.lost).tlb2 = s.tlb2 := State.count_tlb2 _ _ _
@[simp] theorem State.lost_walkCache (s : State) : (s.lost).walkCache = s.walkCache := State.count_walkCache _ _ _
@[simp] theorem State.lost_samplers (s : State) : (s.lost).samplers = s.samplers := State.count_samplers _ _ _
@[simp] theorem State.lost_walks (s : State) : (s.lost).walks = s.walks := State.count_walks _ _ _
@[simp] theorem State.lost_tlbis (s : State) : (s.lost).tlbis = s.tlbis := State.count_tlbis _ _ _
@[simp] theorem State.lost_hubTlb (s : State) : (s.lost).hubTlb = s.hubTlb := State.count_hubTlb _ _ _
@[simp] theorem State.lost_faults (s : State) : (s.lost).faults = s.faults := State.count_faults _ _ _
@[simp] theorem State.lost_faultSeq (s : State) : (s.lost).faultSeq = s.faultSeq := State.count_faultSeq _ _ _
@[simp] theorem State.lost_homes (s : State) : (s.lost).homes = s.homes := State.count_homes _ _ _
@[simp] theorem State.lost_doneIds (s : State) : (s.lost).doneIds = s.doneIds := State.count_doneIds _ _ _
@[simp] theorem State.lost_launches (s : State) : (s.lost).launches = s.launches := State.count_launches _ _ _
@[simp] theorem State.lost_active (s : State) : (s.lost).active = s.active := State.count_active _ _ _
@[simp] theorem State.lost_gangs (s : State) : (s.lost).gangs = s.gangs := State.count_gangs _ _ _
@[simp] theorem State.lost_jobs (s : State) : (s.lost).jobs = s.jobs := State.count_jobs _ _ _
@[simp] theorem State.lost_loads (s : State) : (s.lost).loads = s.loads := State.count_loads _ _ _
@[simp] theorem State.lost_armed (s : State) : (s.lost).armed = s.armed := State.count_armed _ _ _
@[simp] theorem State.lost_snapAt (s : State) : (s.lost).snapAt = s.snapAt := State.count_snapAt _ _ _
@[simp] theorem State.lost_sgs (s : State) : (s.lost).sgs = s.sgs := State.count_sgs _ _ _
@[simp] theorem State.lost_watch (s : State) : (s.lost).watch = s.watch := State.count_watch _ _ _
@[simp] theorem State.lost_coh (s : State) : (s.lost).coh = s.coh := State.count_coh _ _ _
@[simp] theorem State.lost_sys (s : State) : (s.lost).sys = s.sys := State.count_sys _ _ _

@[simp] theorem State.skipped_cyc (s : State) (n : Nat) : (s.skipped n).cyc = s.cyc := State.modCore_cyc _ _ _
@[simp] theorem State.skipped_turn (s : State) (n : Nat) : (s.skipped n).turn = s.turn := State.modCore_turn _ _ _
@[simp] theorem State.skipped_slot (s : State) (n : Nat) : (s.skipped n).slot = s.slot := State.modCore_slot _ _ _
@[simp] theorem State.skipped_fresh (s : State) (n : Nat) : (s.skipped n).fresh = s.fresh := State.modCore_fresh _ _ _
@[simp] theorem State.skipped_agenda (s : State) (n : Nat) : (s.skipped n).agenda = s.agenda := State.modCore_agenda _ _ _
@[simp] theorem State.skipped_ev (s : State) (n : Nat) : (s.skipped n).ev = s.ev := State.modCore_ev _ _ _
@[simp] theorem State.skipped_outbox (s : State) (n : Nat) : (s.skipped n).outbox = s.outbox := State.modCore_outbox _ _ _
@[simp] theorem State.skipped_mem (s : State) (n : Nat) : (s.skipped n).mem = s.mem := State.modCore_mem _ _ _
@[simp] theorem State.skipped_atoms (s : State) (n : Nat) : (s.skipped n).atoms = s.atoms := State.modCore_atoms _ _ _
@[simp] theorem State.skipped_ecc (s : State) (n : Nat) : (s.skipped n).ecc = s.ecc := State.modCore_ecc _ _ _
@[simp] theorem State.skipped_rgns (s : State) (n : Nat) : (s.skipped n).rgns = s.rgns := State.modCore_rgns _ _ _
@[simp] theorem State.skipped_sgWays (s : State) (n : Nat) : (s.skipped n).sgWays = s.sgWays := State.modCore_sgWays _ _ _
@[simp] theorem State.skipped_sgway (s : State) (n : Nat) : (s.skipped n).sgway = s.sgway := State.modCore_sgway _ _ _
@[simp] theorem State.skipped_waiters (s : State) (n : Nat) : (s.skipped n).waiters = s.waiters := State.modCore_waiters _ _ _
@[simp] theorem State.skipped_withdrawnConts (s : State) (n : Nat) : (s.skipped n).withdrawnConts = s.withdrawnConts := State.modCore_withdrawnConts _ _ _
@[simp] theorem State.skipped_fills (s : State) (n : Nat) : (s.skipped n).fills = s.fills := State.modCore_fills _ _ _
@[simp] theorem State.skipped_held (s : State) (n : Nat) : (s.skipped n).held = s.held := State.modCore_held _ _ _
@[simp] theorem State.skipped_banks (s : State) (n : Nat) : (s.skipped n).banks = s.banks := State.modCore_banks _ _ _
@[simp] theorem State.skipped_bar0 (s : State) (n : Nat) : (s.skipped n).bar0 = s.bar0 := State.modCore_bar0 _ _ _
@[simp] theorem State.skipped_heatk (s : State) (n : Nat) : (s.skipped n).heatk = s.heatk := State.modCore_heatk _ _ _
@[simp] theorem State.skipped_heatd (s : State) (n : Nat) : (s.skipped n).heatd = s.heatd := State.modCore_heatd _ _ _
@[simp] theorem State.skipped_pkg (s : State) (n : Nat) : (s.skipped n).pkg = s.pkg := State.modCore_pkg _ _ _
@[simp] theorem State.skipped_fltsvc (s : State) (n : Nat) : (s.skipped n).fltsvc = s.fltsvc := State.modCore_fltsvc _ _ _
@[simp] theorem State.skipped_supv (s : State) (n : Nat) : (s.skipped n).supv = s.supv := State.modCore_supv _ _ _
@[simp] theorem State.skipped_tlb2 (s : State) (n : Nat) : (s.skipped n).tlb2 = s.tlb2 := State.modCore_tlb2 _ _ _
@[simp] theorem State.skipped_walkCache (s : State) (n : Nat) : (s.skipped n).walkCache = s.walkCache := State.modCore_walkCache _ _ _
@[simp] theorem State.skipped_samplers (s : State) (n : Nat) : (s.skipped n).samplers = s.samplers := State.modCore_samplers _ _ _
@[simp] theorem State.skipped_walks (s : State) (n : Nat) : (s.skipped n).walks = s.walks := State.modCore_walks _ _ _
@[simp] theorem State.skipped_tlbis (s : State) (n : Nat) : (s.skipped n).tlbis = s.tlbis := State.modCore_tlbis _ _ _
@[simp] theorem State.skipped_hubTlb (s : State) (n : Nat) : (s.skipped n).hubTlb = s.hubTlb := State.modCore_hubTlb _ _ _
@[simp] theorem State.skipped_faults (s : State) (n : Nat) : (s.skipped n).faults = s.faults := State.modCore_faults _ _ _
@[simp] theorem State.skipped_faultSeq (s : State) (n : Nat) : (s.skipped n).faultSeq = s.faultSeq := State.modCore_faultSeq _ _ _
@[simp] theorem State.skipped_homes (s : State) (n : Nat) : (s.skipped n).homes = s.homes := State.modCore_homes _ _ _
@[simp] theorem State.skipped_doneIds (s : State) (n : Nat) : (s.skipped n).doneIds = s.doneIds := State.modCore_doneIds _ _ _
@[simp] theorem State.skipped_launches (s : State) (n : Nat) : (s.skipped n).launches = s.launches := State.modCore_launches _ _ _
@[simp] theorem State.skipped_active (s : State) (n : Nat) : (s.skipped n).active = s.active := State.modCore_active _ _ _
@[simp] theorem State.skipped_gangs (s : State) (n : Nat) : (s.skipped n).gangs = s.gangs := State.modCore_gangs _ _ _
@[simp] theorem State.skipped_jobs (s : State) (n : Nat) : (s.skipped n).jobs = s.jobs := State.modCore_jobs _ _ _
@[simp] theorem State.skipped_loads (s : State) (n : Nat) : (s.skipped n).loads = s.loads := State.modCore_loads _ _ _
@[simp] theorem State.skipped_armed (s : State) (n : Nat) : (s.skipped n).armed = s.armed := State.modCore_armed _ _ _
@[simp] theorem State.skipped_snapAt (s : State) (n : Nat) : (s.skipped n).snapAt = s.snapAt := State.modCore_snapAt _ _ _
@[simp] theorem State.skipped_sgs (s : State) (n : Nat) : (s.skipped n).sgs = s.sgs := State.modCore_sgs _ _ _
@[simp] theorem State.skipped_watch (s : State) (n : Nat) : (s.skipped n).watch = s.watch := State.modCore_watch _ _ _
@[simp] theorem State.skipped_coh (s : State) (n : Nat) : (s.skipped n).coh = s.coh := State.modCore_coh _ _ _
@[simp] theorem State.skipped_sys (s : State) (n : Nat) : (s.skipped n).sys = s.sys := State.modCore_sys _ _ _

@[simp] theorem State.issued_cyc (s : State) (n : Nat) : (s.issued n).cyc = s.cyc := (State.count_cyc _ _ _).trans (State.skipped_cyc _ _)
@[simp] theorem State.issued_turn (s : State) (n : Nat) : (s.issued n).turn = s.turn := (State.count_turn _ _ _).trans (State.skipped_turn _ _)
@[simp] theorem State.issued_slot (s : State) (n : Nat) : (s.issued n).slot = s.slot := (State.count_slot _ _ _).trans (State.skipped_slot _ _)
@[simp] theorem State.issued_fresh (s : State) (n : Nat) : (s.issued n).fresh = s.fresh := (State.count_fresh _ _ _).trans (State.skipped_fresh _ _)
@[simp] theorem State.issued_agenda (s : State) (n : Nat) : (s.issued n).agenda = s.agenda := (State.count_agenda _ _ _).trans (State.skipped_agenda _ _)
@[simp] theorem State.issued_ev (s : State) (n : Nat) : (s.issued n).ev = s.ev := (State.count_ev _ _ _).trans (State.skipped_ev _ _)
@[simp] theorem State.issued_outbox (s : State) (n : Nat) : (s.issued n).outbox = s.outbox := (State.count_outbox _ _ _).trans (State.skipped_outbox _ _)
@[simp] theorem State.issued_mem (s : State) (n : Nat) : (s.issued n).mem = s.mem := (State.count_mem _ _ _).trans (State.skipped_mem _ _)
@[simp] theorem State.issued_atoms (s : State) (n : Nat) : (s.issued n).atoms = s.atoms := (State.count_atoms _ _ _).trans (State.skipped_atoms _ _)
@[simp] theorem State.issued_ecc (s : State) (n : Nat) : (s.issued n).ecc = s.ecc := (State.count_ecc _ _ _).trans (State.skipped_ecc _ _)
@[simp] theorem State.issued_rgns (s : State) (n : Nat) : (s.issued n).rgns = s.rgns := (State.count_rgns _ _ _).trans (State.skipped_rgns _ _)
@[simp] theorem State.issued_sgWays (s : State) (n : Nat) : (s.issued n).sgWays = s.sgWays := (State.count_sgWays _ _ _).trans (State.skipped_sgWays _ _)
@[simp] theorem State.issued_sgway (s : State) (n : Nat) : (s.issued n).sgway = s.sgway := (State.count_sgway _ _ _).trans (State.skipped_sgway _ _)
@[simp] theorem State.issued_waiters (s : State) (n : Nat) : (s.issued n).waiters = s.waiters := (State.count_waiters _ _ _).trans (State.skipped_waiters _ _)
@[simp] theorem State.issued_withdrawnConts (s : State) (n : Nat) : (s.issued n).withdrawnConts = s.withdrawnConts := (State.count_withdrawnConts _ _ _).trans (State.skipped_withdrawnConts _ _)
@[simp] theorem State.issued_fills (s : State) (n : Nat) : (s.issued n).fills = s.fills := (State.count_fills _ _ _).trans (State.skipped_fills _ _)
@[simp] theorem State.issued_held (s : State) (n : Nat) : (s.issued n).held = s.held := (State.count_held _ _ _).trans (State.skipped_held _ _)
@[simp] theorem State.issued_banks (s : State) (n : Nat) : (s.issued n).banks = s.banks := (State.count_banks _ _ _).trans (State.skipped_banks _ _)
@[simp] theorem State.issued_bar0 (s : State) (n : Nat) : (s.issued n).bar0 = s.bar0 := (State.count_bar0 _ _ _).trans (State.skipped_bar0 _ _)
@[simp] theorem State.issued_heatk (s : State) (n : Nat) : (s.issued n).heatk = s.heatk := (State.count_heatk _ _ _).trans (State.skipped_heatk _ _)
@[simp] theorem State.issued_heatd (s : State) (n : Nat) : (s.issued n).heatd = s.heatd := (State.count_heatd _ _ _).trans (State.skipped_heatd _ _)
@[simp] theorem State.issued_pkg (s : State) (n : Nat) : (s.issued n).pkg = s.pkg := (State.count_pkg _ _ _).trans (State.skipped_pkg _ _)
@[simp] theorem State.issued_fltsvc (s : State) (n : Nat) : (s.issued n).fltsvc = s.fltsvc := (State.count_fltsvc _ _ _).trans (State.skipped_fltsvc _ _)
@[simp] theorem State.issued_supv (s : State) (n : Nat) : (s.issued n).supv = s.supv := (State.count_supv _ _ _).trans (State.skipped_supv _ _)
@[simp] theorem State.issued_tlb2 (s : State) (n : Nat) : (s.issued n).tlb2 = s.tlb2 := (State.count_tlb2 _ _ _).trans (State.skipped_tlb2 _ _)
@[simp] theorem State.issued_walkCache (s : State) (n : Nat) : (s.issued n).walkCache = s.walkCache := (State.count_walkCache _ _ _).trans (State.skipped_walkCache _ _)
@[simp] theorem State.issued_samplers (s : State) (n : Nat) : (s.issued n).samplers = s.samplers := (State.count_samplers _ _ _).trans (State.skipped_samplers _ _)
@[simp] theorem State.issued_walks (s : State) (n : Nat) : (s.issued n).walks = s.walks := (State.count_walks _ _ _).trans (State.skipped_walks _ _)
@[simp] theorem State.issued_tlbis (s : State) (n : Nat) : (s.issued n).tlbis = s.tlbis := (State.count_tlbis _ _ _).trans (State.skipped_tlbis _ _)
@[simp] theorem State.issued_hubTlb (s : State) (n : Nat) : (s.issued n).hubTlb = s.hubTlb := (State.count_hubTlb _ _ _).trans (State.skipped_hubTlb _ _)
@[simp] theorem State.issued_faults (s : State) (n : Nat) : (s.issued n).faults = s.faults := (State.count_faults _ _ _).trans (State.skipped_faults _ _)
@[simp] theorem State.issued_faultSeq (s : State) (n : Nat) : (s.issued n).faultSeq = s.faultSeq := (State.count_faultSeq _ _ _).trans (State.skipped_faultSeq _ _)
@[simp] theorem State.issued_homes (s : State) (n : Nat) : (s.issued n).homes = s.homes := (State.count_homes _ _ _).trans (State.skipped_homes _ _)
@[simp] theorem State.issued_doneIds (s : State) (n : Nat) : (s.issued n).doneIds = s.doneIds := (State.count_doneIds _ _ _).trans (State.skipped_doneIds _ _)
@[simp] theorem State.issued_launches (s : State) (n : Nat) : (s.issued n).launches = s.launches := (State.count_launches _ _ _).trans (State.skipped_launches _ _)
@[simp] theorem State.issued_active (s : State) (n : Nat) : (s.issued n).active = s.active := (State.count_active _ _ _).trans (State.skipped_active _ _)
@[simp] theorem State.issued_gangs (s : State) (n : Nat) : (s.issued n).gangs = s.gangs := (State.count_gangs _ _ _).trans (State.skipped_gangs _ _)
@[simp] theorem State.issued_jobs (s : State) (n : Nat) : (s.issued n).jobs = s.jobs := (State.count_jobs _ _ _).trans (State.skipped_jobs _ _)
@[simp] theorem State.issued_loads (s : State) (n : Nat) : (s.issued n).loads = s.loads := (State.count_loads _ _ _).trans (State.skipped_loads _ _)
@[simp] theorem State.issued_armed (s : State) (n : Nat) : (s.issued n).armed = s.armed := (State.count_armed _ _ _).trans (State.skipped_armed _ _)
@[simp] theorem State.issued_snapAt (s : State) (n : Nat) : (s.issued n).snapAt = s.snapAt := (State.count_snapAt _ _ _).trans (State.skipped_snapAt _ _)
@[simp] theorem State.issued_sgs (s : State) (n : Nat) : (s.issued n).sgs = s.sgs := (State.count_sgs _ _ _).trans (State.skipped_sgs _ _)
@[simp] theorem State.issued_watch (s : State) (n : Nat) : (s.issued n).watch = s.watch := (State.count_watch _ _ _).trans (State.skipped_watch _ _)
@[simp] theorem State.issued_coh (s : State) (n : Nat) : (s.issued n).coh = s.coh := (State.count_coh _ _ _).trans (State.skipped_coh _ _)
@[simp] theorem State.issued_sys (s : State) (n : Nat) : (s.issued n).sys = s.sys := (State.count_sys _ _ _).trans (State.skipped_sys _ _)

end Sys2Proof.Machine
end

