-- ==== Sys2Proof/Laws/SMap.lean ====
section
/-! SUPPORT. Sparse maps: read after write, and the canonical form, which every memory operation keeps. -/
namespace Sys2Proof

theorem SMap.get_below {α : Type} [DecidableEq α] (d : α) (m : List (Nat × α)) (lo k : Nat) (hk : k < lo)
    (h : SMap.wfAbove d lo m = true) : SMap.get d m k = d := by
  cases m with
  | nil => rfl
  | cons e t =>
    obtain ⟨k', v'⟩ := e
    simp only [SMap.wfAbove, Bool.and_eq_true, decide_eq_true_eq] at h
    simp only [SMap.get, if_neg (show ¬k = k' by omega), if_pos (show k < k' by omega)]

/-- A looser bound. -/
theorem SMap.wfAbove_mono {α : Type} [DecidableEq α] (d : α) (m : List (Nat × α)) (a b : Nat) (hab : a ≤ b)
    (h : SMap.wfAbove d b m = true) : SMap.wfAbove d a m = true := by
  cases m with
  | nil => rfl
  | cons e t =>
    obtain ⟨k', v'⟩ := e
    simp only [SMap.wfAbove, Bool.and_eq_true, decide_eq_true_eq] at h ⊢
    exact ⟨⟨by omega, h.1.2⟩, h.2⟩

/-- A write keeps the canonical form. -/
theorem SMap.wfAbove_set {α : Type} [DecidableEq α] (d : α) (m : List (Nat × α)) (lo k : Nat) (v : α) (hk : lo ≤ k)
    (h : SMap.wfAbove d lo m = true) : SMap.wfAbove d lo (SMap.set d m k v) = true := by
  induction m generalizing lo with
  | nil =>
    simp only [SMap.set]
    split <;> simp_all [SMap.wfAbove]
  | cons e t ih =>
    obtain ⟨k', v'⟩ := e
    simp only [SMap.wfAbove, Bool.and_eq_true, decide_eq_true_eq] at h
    simp only [SMap.set]
    split
    · split
      · simp only [SMap.wfAbove, Bool.and_eq_true, decide_eq_true_eq]; exact h
      · simp only [SMap.wfAbove, Bool.and_eq_true, decide_eq_true_eq]
        exact ⟨⟨hk, ‹_›⟩, ⟨by omega, h.1.2⟩, h.2⟩
    · split
      · split
        · exact SMap.wfAbove_mono d t lo (k' + 1) (by omega) h.2
        · simp only [SMap.wfAbove, Bool.and_eq_true, decide_eq_true_eq]
          refine ⟨⟨hk, ‹_›⟩, ?_⟩
          subst_vars
          exact h.2
      · simp only [SMap.wfAbove, Bool.and_eq_true, decide_eq_true_eq]
        exact ⟨h.1, ih (k' + 1) (by omega) h.2⟩
theorem SMap.wf_set {α : Type} [DecidableEq α] (d : α) (m : List (Nat × α)) (k : Nat) (v : α)
    (h : SMap.wf d m = true) : SMap.wf d (SMap.set d m k v) = true := SMap.wfAbove_set d m 0 k v (Nat.zero_le k) h

/-- Dropping entries keeps it. -/
theorem SMap.wfAbove_filter {α : Type} [DecidableEq α] (d : α) (m : List (Nat × α)) (f : Nat × α → Bool) (lo : Nat)
    (h : SMap.wfAbove d lo m = true) : SMap.wfAbove d lo (m.filter f) = true := by
  induction m generalizing lo with
  | nil => rfl
  | cons e t ih =>
    obtain ⟨k', v'⟩ := e
    simp only [SMap.wfAbove, Bool.and_eq_true, decide_eq_true_eq] at h
    simp only [List.filter]
    split
    · simp only [SMap.wfAbove, Bool.and_eq_true, decide_eq_true_eq]; exact ⟨h.1, ih _ h.2⟩
    · exact SMap.wfAbove_mono d _ lo (k' + 1) (by omega) (ih _ h.2)
theorem SMap.wf_dropRange {α : Type} [DecidableEq α] (d : α) (m : List (Nat × α)) (lo hi : Nat)
    (h : SMap.wf d m = true) : SMap.wf d (SMap.dropRange m lo hi) = true := SMap.wfAbove_filter d m _ 0 h

theorem SMap.get_set_aux {α : Type} [DecidableEq α] (d : α) (m : List (Nat × α)) (lo k j : Nat) (v : α) (hk : lo ≤ k)
    (h : SMap.wfAbove d lo m = true) :
    SMap.get d (SMap.set d m k v) j = if j = k then v else SMap.get d m j := by
  induction m generalizing lo with
  | nil =>
    simp only [SMap.set]
    split
    · subst_vars; simp only [SMap.get]; split <;> rfl
    · simp only [SMap.get]
      by_cases hj : j = k <;> simp [hj]
  | cons e t ih =>
    obtain ⟨k', v'⟩ := e
    simp only [SMap.wfAbove, Bool.and_eq_true, decide_eq_true_eq] at h
    have below : ∀ i, i ≤ k' → SMap.get d t i = d := fun i hi => SMap.get_below d t (k' + 1) i (by omega) h.2
    simp only [SMap.set]
    by_cases h1 : k < k'
    · rw [if_pos h1]
      by_cases hv : v = d
      · rw [if_pos hv]
        by_cases hj : j = k
        · rw [if_pos hj]; simp only [SMap.get]; rw [if_neg (by omega), if_pos (by omega)]; exact hv.symm
        · rw [if_neg hj]
      · rw [if_neg hv]
        by_cases hj : j = k
        · rw [if_pos hj]; simp only [SMap.get]; rw [if_pos hj]
        · rw [if_neg hj]; simp only [SMap.get]; rw [if_neg hj]
          by_cases hjk : j < k
          · rw [if_pos hjk, if_neg (by omega), if_pos (by omega)]
          · rw [if_neg hjk]
    · rw [if_neg h1]
      by_cases h2 : k = k'
      · rw [if_pos h2]
        by_cases hv : v = d
        · rw [if_pos hv]
          by_cases hj : j = k
          · rw [if_pos hj, below j (by omega)]; exact hv.symm
          · rw [if_neg hj]; simp only [SMap.get]; rw [if_neg (by omega)]
            by_cases hjk : j < k'
            · rw [if_pos hjk, below j (by omega)]
            · rw [if_neg hjk]
        · rw [if_neg hv]; simp only [SMap.get]
          by_cases hj : j = k
          · rw [if_pos hj, if_pos hj]
          · rw [if_neg hj, if_neg hj, if_neg (show ¬j = k' by omega), h2]
      · rw [if_neg h2]; simp only [SMap.get]
        by_cases hj' : j = k'
        · rw [if_pos hj', if_pos hj', if_neg (show ¬j = k by omega)]
        · rw [if_neg hj', if_neg hj']
          by_cases hjk : j < k'
          · rw [if_pos hjk, if_pos hjk, if_neg (show ¬j = k by omega)]
          · rw [if_neg hjk, if_neg hjk]; exact ih (k' + 1) (by omega) h.2
/-- Read after write in a canonical map. -/
theorem SMap.get_set {α : Type} [DecidableEq α] (d : α) (m : List (Nat × α)) (k j : Nat) (v : α) (h : SMap.wf d m = true) :
    SMap.get d (SMap.set d m k v) j = if j = k then v else SMap.get d m j :=
  SMap.get_set_aux d m 0 k j v (Nat.zero_le k) h

namespace Machine

/-! ## Memory -/

/-- Writing bytes keeps the canonical form. -/
theorem putBytes_wf (m : List Host.Cell) (k : Nat) (mask : BitVec 64) (x : Granule) (n : Nat) (h : Memory.wf m = true) :
    Memory.wf (putBytes m k mask x n) = true := by
  induction n with
  | zero => exact h
  | succ n ih =>
    simp only [putBytes]
    split
    · exact SMap.wf_set freshByte _ _ _ ih
    · exact ih
/-- What a byte reads after bytes were written. -/
theorem putBytes_get (m : List Host.Cell) (k : Nat) (mask : BitVec 64) (x : Granule) (n j : Nat)
    (h : Memory.wf m = true) :
    SMap.get freshByte (putBytes m k mask x n) j =
      if k ≤ j ∧ j < k + n ∧ mask.getLsbD (j - k) = true then byteOf x (j - k) else SMap.get freshByte m j := by
  induction n with
  | zero => rw [if_neg (by omega)]; rfl
  | succ n ih =>
    simp only [putBytes]
    by_cases hm : mask.getLsbD n = true
    · rw [if_pos hm, SMap.get_set _ _ _ _ _ (putBytes_wf m k mask x n h), ih]
      by_cases hj : j = k + n
      · subst hj
        rw [if_pos rfl, if_pos ⟨by omega, by omega, by rw [Nat.add_sub_cancel_left]; exact hm⟩, Nat.add_sub_cancel_left]
      · rw [if_neg hj]
        by_cases hc : k ≤ j ∧ j < k + n ∧ mask.getLsbD (j - k) = true
        · rw [if_pos hc, if_pos ⟨hc.1, by omega, hc.2.2⟩]
        · rw [if_neg hc, if_neg (fun q => hc ⟨q.1, by omega, q.2.2⟩)]
    · rw [if_neg hm, ih]
      by_cases hc : k ≤ j ∧ j < k + n ∧ mask.getLsbD (j - k) = true
      · rw [if_pos hc, if_pos ⟨hc.1, by omega, hc.2.2⟩]
      · rw [if_neg hc, if_neg]
        intro q
        by_cases hj : j = k + n
        · subst hj; rw [Nat.add_sub_cancel_left] at q; exact hm q.2.2
        · exact hc ⟨q.1, by omega, q.2.2⟩

theorem State.putGranule_wf (s : State) (k : Nat) (mask : BitVec 64) (x : Granule) (h : Memory.wf s.mem = true) :
    Memory.wf (s.putGranule k mask x).mem = true := putBytes_wf _ _ _ _ _ h
theorem State.setByte_wf (s : State) (k : Nat) (b : Byte) (h : Memory.wf s.mem = true) :
    Memory.wf (s.setByte k b).mem = true := SMap.wf_set freshByte _ _ _ h
theorem State.setWord_wf (s : State) (k : Nat) (x : Word) (h : Memory.wf s.mem = true) :
    Memory.wf (s.setWord k x).mem = true := by
  unfold State.setWord
  exact State.putGranule_wf _ _ _ _ h
theorem State.wipe_wf (s : State) (lo hi : Nat) (h : Memory.wf s.mem = true) :
    Memory.wf (s.wipe lo hi).mem = true := SMap.wf_dropRange freshByte _ _ _ h
theorem State.putChecked_wf (s : State) (k : Nat) (mask : BitVec 64) (x : Granule) (h : Memory.wf s.mem = true) :
    Memory.wf (s.putChecked k mask x).mem = true := putBytes_wf _ _ _ _ _ h
theorem State.rawWrite_wf (s : State) (k : Nat) (mask : BitVec 64) (x : Granule) (h : Memory.wf s.mem = true) :
    Memory.wf (s.rawWrite k mask x).mem = true := by
  unfold State.rawWrite
  split
  · exact h
  · exact State.putChecked_wf _ _ _ _ h
theorem State.rawSetWord_wf (s : State) (k : Nat) (x : Word) (h : Memory.wf s.mem = true) :
    Memory.wf (s.rawSetWord k x).mem = true := by
  unfold State.rawSetWord
  apply State.rawWrite_wf
  exact h
theorem State.setMeta_mem (s : State) (k : Nat) (x : BitVec 16) : (s.setMeta k x).mem = s.mem := by
  unfold State.setMeta
  split <;> rfl
theorem State.takeTrap_wf (s : State) (c : CoreId) (x : CtxId) (t : Trap) (h : Memory.wf s.mem = true) :
    Memory.wf (s.takeTrap c x t).mem = true := by
  unfold State.takeTrap
  rw [State.modCtx_mem]
  exact State.putChecked_wf _ _ _ _ h
theorem State.writeRun_wf (s : State) (k x n : Nat) (h : Memory.wf s.mem = true) :
    Memory.wf (s.writeRun k x n).mem = true := by
  induction n with
  | zero => exact h
  | succ n ih =>
    unfold State.writeRun
    apply State.rawWrite_wf
    exact ih
theorem State.bumpSurface_wf (s : State) (i o : Nat) (h : Memory.wf s.mem = true) :
    Memory.wf (s.bumpSurface i o).mem = true := by
  unfold State.bumpSurface
  apply State.rawSetWord_wf
  exact h
theorem State.codeSpan_wf (s : State) (k : Nat) (l : List Granule) (h : Memory.wf s.mem = true) :
    Memory.wf (s.codeSpan k l).mem = true := by
  unfold State.codeSpan
  dsimp only
  split
  · apply State.rawSetWord_wf
    apply State.writeRun_wf
    exact h
  · apply State.bumpSurface_wf
    apply State.rawSetWord_wf
    apply State.writeRun_wf
    exact h
theorem State.memWrite_wf (s : State) (k : Nat) (mask : BitVec 64) (x : Granule) (h : Memory.wf s.mem = true) :
    Memory.wf (s.memWrite k mask x).mem = true := by
  unfold State.memWrite
  generalize isCoded k = b
  cases b with
  | true =>
    simp only [if_true]
    generalize frameKey (codedTier k) ((((s.rawWord (spanDesc k)).getD 0).toNat / 512 * 512)) + codedFrame k % 4096 = a
    exact State.rawWrite_wf s a mask x h
  | false =>
    generalize s.phys (k / 64 * 64) = a
    cases a with
    | none => exact h
    | some a => exact (congrArg Memory.wf (State.setAtom_mem _ _ _)).trans (State.rawWrite_wf s k mask x h)
theorem State.clearWritten_mem (s : State) (b n : Nat) : (s.clearWritten b n).mem = s.mem := by
  induction n with
  | zero => rfl
  | succ n ih =>
    unfold State.clearWritten
    split
    · rfl
    · rw [State.setMeta_mem, ih]
theorem State.setWritten_mem (s : State) (b n i : Nat) : (s.setWritten b n i).mem = s.mem := by
  unfold State.setWritten
  split
  · rfl
  · split <;> exact State.setMeta_mem _ _ _
/-- A block write keeps the canonical form, wherever it writes. -/
theorem State.blkWrite_wf (s : State) (m : Map) (mask : BitVec 64) (x : Granule) (t : State) (last : Bool)
    (h : Memory.wf s.mem = true) (e : s.blkWrite m mask x = .done t last) : Memory.wf t.mem = true := by
  unfold State.blkWrite at e
  split at e
  · dsimp only at e
    split at e
    · cases e
    · simp only [BlkWrite.done.injEq] at e
      rw [← e.1, State.setMeta_mem, State.setWritten_mem]
      apply State.rawWrite_wf
      split
      · rw [State.clearWritten_mem]; exact h
      · exact h
  · cases e
theorem State.blkClear_mem (s : State) (b n : Nat) (t : State) (e : s.blkClear b n = .done t) : t.mem = s.mem := by
  unfold State.blkClear at e
  split at e
  · cases e
  · split at e
    · cases e
    · simp only [BlkClear.done.injEq] at e
      rw [← e, State.setMeta_mem]
      exact State.clearWritten_mem _ _ _
theorem State.ownWrite_wf (s : State) (k : Nat) (mask : BitVec 64) (x : Granule) (h : Memory.wf s.mem = true) :
    Memory.wf (s.ownWrite k mask x).mem = true := by
  unfold State.ownWrite
  dsimp only
  split <;> exact State.memWrite_wf s _ _ _ h
theorem State.setOwnWord_wf (s : State) (k : Nat) (x : Word) (h : Memory.wf s.mem = true) :
    Memory.wf (s.setOwnWord k x).mem = true := State.ownWrite_wf _ _ _ _ h
/-- Recording a waiter, in the hardware table or in the spill region, keeps the canonical form. -/
theorem State.placeWaiter_wf (s : State) (b n : Nat) (d : Desc) (h : Memory.wf s.mem = true) :
    Memory.wf (s.placeWaiter b n d).mem = true := by
  unfold State.placeWaiter
  generalize s.waiterSlot b = o
  cases o with
  | none =>
    dsimp only
    split
    · split
      · rw [State.setMeta_mem]; exact h
      · exact h
    · exact h
  | some i =>
    dsimp only
    have w := State.setOwnWord_wf _ ((s.bar (0x7000 + 16 * s.controller b)).toNat + 16 * i + 8) (s.descWords d).2
      (State.setOwnWord_wf s ((s.bar (0x7000 + 16 * s.controller b)).toNat + 16 * i) (s.descWords d).1 h)
    split
    · split
      · rw [State.setMeta_mem]; exact w
      · exact w
    · exact w

theorem reset_mem_wf : Memory.wf State.reset.mem = true := rfl

end Machine
end Sys2Proof
end

