-- ==== Sys2Proof/Laws/Ops.lean ====
section
/-! SUPPORT. What the shared operations can do: reads after writes of cores, contexts and registers, and the issue of an
instruction. -/
namespace Sys2Proof.Machine

/-! ## Registers -/

@[simp] theorem Ctx.getG_setG (t : Ctx) (d r : BitVec 5) (x : Word) : (t.setG d x).getG r = if r = d then x else t.getG r := by
  unfold Ctx.getG Ctx.setG
  by_cases h : r = d
  · subst h; simp
  · rw [if_neg h]
    have hn : d.toNat ≠ r.toNat := fun q => h (BitVec.eq_of_toNat_eq q.symm)
    simp [hn]
@[simp] theorem Ctx.getV_setV (t : Ctx) (d r : V) (x : BitVec 256) : (t.setV d x).getV r = if r = d then x else t.getV r := by
  unfold Ctx.getV Ctx.setV
  by_cases h : r = d
  · subst h; simp
  · rw [if_neg h]
    have hn : d.toNat ≠ r.toNat := fun q => h (BitVec.eq_of_toNat_eq q.symm)
    simp [hn]
/-- p0 reads all ones whatever is written. -/
@[simp] theorem Ctx.getP_zero (t : Ctx) : t.getP 0 = BitVec.allOnes 32 := rfl
@[simp] theorem Ctx.setP_zero (t : Ctx) (x : BitVec 32) : t.setP 0 x = t := rfl
theorem Ctx.getP_setP (t : Ctx) (d r : P) (x : BitVec 32) (hd : d ≠ 0) :
    (t.setP d x).getP r = if r = d then x else t.getP r := by
  unfold Ctx.getP Ctx.setP
  rw [if_neg hd]
  by_cases h : r = d
  · subst h
    simp only [Vector.getElem_set_self, if_true]
    rw [if_neg hd]
  · rw [if_neg h]
    have hn : d.toNat ≠ r.toNat := fun q => h (BitVec.eq_of_toNat_eq q.symm)
    simp [hn]
@[simp] theorem Ctx.setG_getV (t : Ctx) (d : BitVec 5) (x : Word) (r : V) : (t.setG d x).getV r = t.getV r := rfl
@[simp] theorem Ctx.setG_getP (t : Ctx) (d : BitVec 5) (x : Word) (r : P) : (t.setG d x).getP r = t.getP r := rfl
@[simp] theorem Ctx.setG_pc (t : Ctx) (d : BitVec 5) (x : Word) : (t.setG d x).pc = t.pc := rfl
@[simp] theorem Ctx.setV_getG (t : Ctx) (d : V) (x : BitVec 256) (r : BitVec 5) : (t.setV d x).getG r = t.getG r := rfl
@[simp] theorem Ctx.setV_getP (t : Ctx) (d : V) (x : BitVec 256) (r : P) : (t.setV d x).getP r = t.getP r := rfl

/-! ## Cores and contexts -/

@[simp] theorem Core.ctx_setCtx (k : Core) (x y : CtxId) (t : Ctx) :
    (k.setCtx x t).ctx y = if y = x then t else k.ctx y := by
  unfold Core.ctx Core.setCtx
  by_cases h : y = x
  · subst h; simp
  · rw [if_neg h]
    have hn : x.toNat ≠ y.toNat := fun q => h (BitVec.eq_of_toNat_eq q.symm)
    simp [hn]
theorem State.core_setCore (s : State) (c d : CoreId) (k : Core) (h : SMap.wf Core.reset s.cores = true) :
    (s.setCore c k).core d = if d = c then k else s.core d := by
  unfold State.core State.setCore
  rw [SMap.get_set _ _ _ _ _ h]
  by_cases hd : d = c
  · subst hd; simp
  · have hn : d.toNat ≠ c.toNat := fun q => hd (BitVec.eq_of_toNat_eq q)
    simp [hd, hn]
theorem State.setCore_wf (s : State) (c : CoreId) (k : Core) (h : SMap.wf Core.reset s.cores = true) :
    SMap.wf Core.reset (s.setCore c k).cores = true := SMap.wf_set Core.reset _ _ _ h
theorem State.core_modCore (s : State) (c d : CoreId) (f : Core → Core) (h : SMap.wf Core.reset s.cores = true) :
    (s.modCore c f).core d = if d = c then f (s.core c) else s.core d := State.core_setCore s c d _ h
theorem State.modCore_wf (s : State) (c : CoreId) (f : Core → Core) (h : SMap.wf Core.reset s.cores = true) :
    SMap.wf Core.reset (s.modCore c f).cores = true := State.setCore_wf s c _ h
theorem State.modCtx_wf (s : State) (c : CoreId) (x : CtxId) (f : Ctx → Ctx) (h : SMap.wf Core.reset s.cores = true) :
    SMap.wf Core.reset (s.modCtx c x f).cores = true := State.modCore_wf s c _ h
theorem State.ctx_modCtx (s : State) (c d : CoreId) (x y : CtxId) (f : Ctx → Ctx)
    (h : SMap.wf Core.reset s.cores = true) :
    (s.modCtx c x f).ctx d y = if d = c ∧ y = x then f (s.ctx c x) else s.ctx d y := by
  unfold State.ctx State.modCtx
  rw [State.core_modCore s c d _ h]
  by_cases hd : d = c
  · subst hd
    by_cases hy : y = x
    · subst hy; simp
    · simp [hy]
  · simp [hd]
theorem State.count_wf (s : State) (c : CoreId) (e : BitVec 8) (h : SMap.wf Core.reset s.cores = true) :
    SMap.wf Core.reset (s.count c e).cores = true := by
  unfold State.count
  split
  · exact State.modCore_wf s c _ h
  · exact h
theorem State.skipped_wf (s : State) (n : Nat) (h : SMap.wf Core.reset s.cores = true) :
    SMap.wf Core.reset (s.skipped n).cores = true := State.modCore_wf s _ _ h
theorem State.issued_wf (s : State) (n : Nat) (h : SMap.wf Core.reset s.cores = true) :
    SMap.wf Core.reset (s.issued n).cores = true := State.count_wf _ _ _ (State.skipped_wf s n h)

/-- The context whose slot it is follows %cyc alone. -/
theorem State.cx_of_cyc {s t : State} (h : t.cyc = s.cyc) : t.cx = s.cx := by unfold State.cx; rw [h]
@[simp] theorem State.issued_cx (s : State) (n : Nat) : (s.issued n).cx = s.cx := State.cx_of_cyc (State.issued_cyc s n)
@[simp] theorem State.issued_present (s : State) (n : Nat) (c : CoreId) : (s.issued n).present c = s.present c := by
  unfold State.present State.sgPresent State.bar
  rw [State.issued_bar0]
@[simp] theorem State.issued_pkgNum (s : State) (n : Nat) : (s.issued n).pkgNum = s.pkgNum := by
  unfold State.pkgNum
  rw [State.issued_pkg]
@[simp] theorem State.issued_hmap (s : State) (n w : Nat) : (s.issued n).hmap w = s.hmap w := by
  unfold State.hmap State.bar
  rw [State.issued_bar0]

/-! ## The issue of an instruction (07 Table 7-6) -/

/-- An instruction that its level may not issue takes an issue trap of cause 10. -/
theorem issue_denied {who : Issuer} {p : Pred} {len : Nat} {s : State} {body : Ctx → State → Act}
    (h : who.admits s.cx s.me.priv = false) : issue who p len s body = .next (s.issueTrap len 10 0) := by
  unfold issue
  simp [h]
/-- With a false predicate it takes its slot and does nothing else; no counter counts it. -/
theorem issue_skips {who : Issuer} {p : Pred} {len : Nat} {s : State} {body : Ctx → State → Act}
    (h : who.admits s.cx s.me.priv = true) (hp : s.me.test p = false) : issue who p len s body = .next (s.skipped len) := by
  unfold issue
  simp [h, hp]
/-- Otherwise its body decides. -/
theorem issue_runs {who : Issuer} {p : Pred} {len : Nat} {s : State} {body : Ctx → State → Act}
    (h : who.admits s.cx s.me.priv = true) (hp : s.me.test p = true) :
    issue who p len s body = (body s.me (s.issued len)).finish s len := by
  unfold issue
  simp [h, hp]
theorem issueV_skips {p : Pred} {n len : Nat} {s : State} {body : Ctx → BitVec 32 → State → Act}
    (h : s.me.mask p &&& BitVec.ofNat 32 (2 ^ n - 1) = 0) : issueV p n len s body = .next (s.skipped len) := by
  unfold issueV
  simp only [h, if_true]
theorem issueV_runs {p : Pred} {n len : Nat} {s : State} {body : Ctx → BitVec 32 → State → Act}
    (h : s.me.mask p &&& BitVec.ofNat 32 (2 ^ n - 1) ≠ 0) :
    issueV p n len s body = (body s.me (s.me.mask p &&& BitVec.ofNat 32 (2 ^ n - 1)) (s.issued len)).finish s len := by
  unfold issueV
  simp only [h, if_false]
/-- An issued instruction always answers a next state. -/
theorem Act.finish_next (a : Act) (s : State) (len : Nat) : ∃ t, a.finish s len = .next t := by
  cases a <;> exact ⟨_, rfl⟩
theorem issue_next (who : Issuer) (p : Pred) (len : Nat) (s : State) (body : Ctx → State → Act) :
    ∃ t, issue who p len s body = .next t := by
  unfold issue
  split
  · exact ⟨_, rfl⟩
  · split
    · exact ⟨_, rfl⟩
    · exact Act.finish_next _ _ _
theorem issueV_next (p : Pred) (n len : Nat) (s : State) (body : Ctx → BitVec 32 → State → Act) :
    ∃ t, issueV p n len s body = .next t := by
  unfold issueV
  dsimp only
  split
  · exact ⟨_, rfl⟩
  · exact Act.finish_next _ _ _

end Sys2Proof.Machine
end

