-- ==== Sys2Proof/Laws/PerInstr.lean ====
section
/-! SUPPORT. The round trip of each instruction's fields, one lemma per constructor: the decoder's candidate for the
fields of a well-formed instruction is that instruction. -/
namespace Sys2Proof.Laws

/-- The decoder reads back every operand from the fields of a well-formed instruction. -/
def Roundtrip.Statement (i : Instr) : Prop := i.isWord = true → i.wf = true → candidate (fieldsOf i) = .ok i

theorem extract_skip {m n : Nat} (y : BitVec m) (x : BitVec n) (s k : Nat) (h : n ≤ s) :
    (y ++ x).extractLsb' s k = y.extractLsb' (s - n) k := by
  ext i hi
  rw [BitVec.getElem_extractLsb', BitVec.getLsbD_append, BitVec.getElem_extractLsb', if_neg (by omega)]
  congr 1; omega
theorem extract_within {m n : Nat} (y : BitVec m) (x : BitVec n) (s k : Nat) (h : s + k ≤ n) :
    (y ++ x).extractLsb' s k = x.extractLsb' s k := by
  ext i hi
  rw [BitVec.getElem_extractLsb', BitVec.getLsbD_append, BitVec.getElem_extractLsb', if_pos (by omega)]
@[simp] theorem extract_low {m n : Nat} (y : BitVec m) (x : BitVec n) : (y ++ x).extractLsb' 0 n = x := by
  rw [extract_within _ _ _ _ (by omega)]; simp
@[simp] theorem extract_high {m n : Nat} (y : BitVec m) (x : BitVec n) : (y ++ x).extractLsb' n m = y := by
  rw [extract_skip _ _ _ _ (by omega)]; simp

@[simp] theorem setWidth_up3 (x : BitVec 3) : (x.setWidth 5).setWidth 3 = x := by bv_omega
@[simp] theorem setWidth_up4 (x : BitVec 4) : (x.setWidth 5).setWidth 4 = x := by bv_omega
@[simp] theorem setWidth_up38 (x : BitVec 3) : (x.setWidth 8).setWidth 3 = x := by bv_omega
@[simp] theorem setWidth_up68 (x : BitVec 6) : (x.setWidth 8).setWidth 6 = x := by bv_omega
@[simp] theorem setWidth_up32 (x : BitVec 32) : (x.setWidth 64).setWidth 32 = x := by bv_omega
@[simp] theorem pair_mid (k : BitVec 3) : (0#1 ++ k ++ 0#1 : BitVec 5).extractLsb' 1 3 = k := by revert k; decide
@[simp] theorem Cond.ofCode_code (c : Cond) : Cond.ofCode? c.code = some c := by cases c <;> rfl
@[simp] theorem VCond.ofCode_code (c : VCond) : VCond.ofCode? c.code = some c := by cases c <;> rfl
@[simp] theorem CmpW.ofCode_code (c : CmpW) : CmpW.ofCode? c.code = some c := by cases c <;> rfl
@[simp] theorem IntW.ofCode_code (c : IntW) : IntW.ofCode? c.code = some c := by cases c <;> rfl
@[simp] theorem Combine.ofCode_code (c : Combine) : Combine.ofCode? c.code = some c := by cases c <;> rfl
@[simp] theorem Sz.ofCode_code (c : Sz) : Sz.ofCode? c.code = some c := by cases c <;> rfl
@[simp] theorem StSz.ofCode_code (c : StSz) : StSz.ofCode? c.code = some c := by cases c <;> rfl
@[simp] theorem PostSz.ofCode_code (c : PostSz) : PostSz.ofCode? c.code = some c := by cases c <;> rfl
@[simp] theorem Ty.ofCode_code (c : Ty) : Ty.ofCode? c.code = some c := by cases c <;> rfl
@[simp] theorem Ty.code_high (c : Ty) : (c.code.setWidth 8).extractLsb' 6 2 = 0#2 := by cases c <;> rfl
@[simp] theorem flag0 (b : Bool) : (0#6 ++ BitVec.ofBool b : BitVec 7)[0] = b := by revert b; decide
@[simp] theorem flag_low6 (k : BitVec 6) : (0#1 ++ k : BitVec 7).extractLsb' 0 6 = k := extract_low _ _
@[simp] theorem flag_low4 (k : BitVec 4) : (0#3 ++ k : BitVec 7).extractLsb' 0 4 = k := extract_low _ _
@[simp] theorem flag_low3 (k : BitVec 3) : (0#4 ++ k : BitVec 7).extractLsb' 0 3 = k := extract_low _ _
@[simp] theorem flag_low2 (k : BitVec 2) : (0#5 ++ k : BitVec 7).extractLsb' 0 2 = k := extract_low _ _
@[simp] theorem lea_low (y : BitVec 5) (k : BitVec 3) : (y ++ k : BitVec 8).extractLsb' 0 3 = k := extract_low _ _
@[simp] theorem lea_high (y : BitVec 5) (k : BitVec 3) : (y ++ k : BitVec 8).extractLsb' 3 5 = y := extract_high _ _
@[simp] theorem flag2a (x y : Bool) : (0#5 ++ BitVec.ofBool y ++ BitVec.ofBool x : BitVec 7)[0] = x := by
  revert x y; decide
@[simp] theorem flag2b (x y : Bool) : (0#5 ++ BitVec.ofBool y ++ BitVec.ofBool x : BitVec 7)[1] = y := by
  revert x y; decide
@[simp] theorem boolWide (g : Bool) : ((BitVec.ofBool g).setWidth 8)[0] = g := by revert g; decide
@[simp] theorem boolWide_lt (g : Bool) : (BitVec.ofBool g).setWidth 8 < 2#8 := by revert g; decide
@[simp] theorem c8_lt (c : BitVec 3) : c.setWidth 8 < 8#8 := by revert c; decide
@[simp] theorem mka_lt (r : Bool) (l : BitVec 2) : (0#5 ++ BitVec.ofBool r ++ l : BitVec 8) < 8#8 := by revert r l; decide
@[simp] theorem mka_lvl (r : Bool) (l : BitVec 2) : (0#5 ++ BitVec.ofBool r ++ l : BitVec 8).extractLsb' 0 2 = l := by
  revert r l; decide
@[simp] theorem mka_rel (r : Bool) (l : BitVec 2) : (0#5 ++ BitVec.ofBool r ++ l : BitVec 8)[2] = r := by
  revert r l; decide
@[simp] theorem copyOpt_image (o : CopyOpt) (x y z : G) : copyOptOf (copyImm o x y z) = o := by
  obtain ⟨r, k, q⟩ := o
  simp only [copyOptOf, copyImm, CopyOpt.mk.injEq]
  refine ⟨?_, ?_, ?_⟩
  · rw [BitVec.getLsbD_append, BitVec.getLsbD_append, BitVec.getLsbD_append, BitVec.getLsbD_append]; simp
  · simp (disch := decide) only [extract_skip, extract_within]; simp
  · simp (disch := decide) only [extract_skip, extract_within]; simp
@[simp] theorem copy_e1 (o : CopyOpt) (x y z : G) : (copyImm o x y z).extractLsb' 0 5 = x := by
  unfold copyImm; exact extract_low _ _
@[simp] theorem copy_e2 (o : CopyOpt) (x y z : G) : (copyImm o x y z).extractLsb' 5 5 = y := by
  unfold copyImm; simp (disch := decide) only [extract_skip, extract_within]; simp
@[simp] theorem copy_e3 (o : CopyOpt) (x y z : G) : (copyImm o x y z).extractLsb' 10 5 = z := by
  unfold copyImm; simp (disch := decide) only [extract_skip, extract_within]; simp

theorem Roundtrip.nop (p : Pred) (imm : BitVec 32) : Roundtrip.Statement (.nop p imm) := by
  intro _ h
  show decOp00 { op := 0x00, p := p, imm := imm.setWidth 64 } = _
  simp [decOp00]
theorem Roundtrip.bra (p : Pred) (off : BitVec 32) : Roundtrip.Statement (.bra p off) := by
  intro _ h
  show decOp01 { op := 0x01, p := p, imm := off.setWidth 64 } = _
  simp [decOp01]
theorem Roundtrip.jmp (p : Pred) (a : G) : Roundtrip.Statement (.jmp p a) := by
  intro _ h
  show decOp02 { op := 0x02, p := p, a := a } = _
  simp [decOp02]
theorem Roundtrip.call (p : Pred) (off : BitVec 32) : Roundtrip.Statement (.call p off) := by
  intro _ h
  show decOp03 { op := 0x03, p := p, imm := off.setWidth 64 } = _
  simp [decOp03]
theorem Roundtrip.callr (p : Pred) (a : G) : Roundtrip.Statement (.callr p a) := by
  intro _ h
  show decOp04 { op := 0x04, p := p, a := a } = _
  simp [decOp04]
theorem Roundtrip.ret (p : Pred) (a : G) : Roundtrip.Statement (.ret p a) := by
  intro _ h
  show decOp05 { op := 0x05, p := p, a := a } = _
  simp [decOp05]
theorem Roundtrip.brc (p : Pred) (cc : Cond) (w : CmpW) (a : G) (b : G) (off : BitVec 32) : Roundtrip.Statement (.brc p cc w a b off) := by
  intro _ h
  show decOp06 { op := 0x06, p := p, a := a, b := b, f := cc.code, ty := w.code, imm := off.setWidth 64 } = _
  simp [decOp06, minor?, field?]
theorem Roundtrip.aluAdd (p : Pred) (w : IntW) (d : G) (a : G) (b : G) : Roundtrip.Statement (.aluAdd p w d a b) := by
  intro _ h
  show decOp10 { op := 0x10, p := p, d := d, a := a, b := b, ty := w.code } = _
  simp [decOp10, field?]
theorem Roundtrip.aluSub (p : Pred) (w : IntW) (d : G) (a : G) (b : G) : Roundtrip.Statement (.aluSub p w d a b) := by
  intro _ h
  show decOp10 { op := 0x10, p := p, f := 0x01, d := d, a := a, b := b, ty := w.code } = _
  simp [decOp10, field?]
theorem Roundtrip.aluAnd (p : Pred) (w : IntW) (d : G) (a : G) (b : G) : Roundtrip.Statement (.aluAnd p w d a b) := by
  intro _ h
  show decOp10 { op := 0x10, p := p, f := 0x02, d := d, a := a, b := b, ty := w.code } = _
  simp [decOp10, field?]
theorem Roundtrip.aluOr (p : Pred) (w : IntW) (d : G) (a : G) (b : G) : Roundtrip.Statement (.aluOr p w d a b) := by
  intro _ h
  show decOp10 { op := 0x10, p := p, f := 0x03, d := d, a := a, b := b, ty := w.code } = _
  simp [decOp10, field?]
theorem Roundtrip.aluXor (p : Pred) (w : IntW) (d : G) (a : G) (b : G) : Roundtrip.Statement (.aluXor p w d a b) := by
  intro _ h
  show decOp10 { op := 0x10, p := p, f := 0x04, d := d, a := a, b := b, ty := w.code } = _
  simp [decOp10, field?]
theorem Roundtrip.aluAndn (p : Pred) (w : IntW) (d : G) (a : G) (b : G) : Roundtrip.Statement (.aluAndn p w d a b) := by
  intro _ h
  show decOp10 { op := 0x10, p := p, f := 0x05, d := d, a := a, b := b, ty := w.code } = _
  simp [decOp10, field?]
theorem Roundtrip.aluOrn (p : Pred) (w : IntW) (d : G) (a : G) (b : G) : Roundtrip.Statement (.aluOrn p w d a b) := by
  intro _ h
  show decOp10 { op := 0x10, p := p, f := 0x06, d := d, a := a, b := b, ty := w.code } = _
  simp [decOp10, field?]
theorem Roundtrip.aluXnor (p : Pred) (w : IntW) (d : G) (a : G) (b : G) : Roundtrip.Statement (.aluXnor p w d a b) := by
  intro _ h
  show decOp10 { op := 0x10, p := p, f := 0x07, d := d, a := a, b := b, ty := w.code } = _
  simp [decOp10, field?]
theorem Roundtrip.aluMin (p : Pred) (w : IntW) (d : G) (a : G) (b : G) : Roundtrip.Statement (.aluMin p w d a b) := by
  intro _ h
  show decOp10 { op := 0x10, p := p, f := 0x08, d := d, a := a, b := b, ty := w.code } = _
  simp [decOp10, field?]
theorem Roundtrip.aluMax (p : Pred) (w : IntW) (d : G) (a : G) (b : G) : Roundtrip.Statement (.aluMax p w d a b) := by
  intro _ h
  show decOp10 { op := 0x10, p := p, f := 0x09, d := d, a := a, b := b, ty := w.code } = _
  simp [decOp10, field?]
theorem Roundtrip.aluMinu (p : Pred) (w : IntW) (d : G) (a : G) (b : G) : Roundtrip.Statement (.aluMinu p w d a b) := by
  intro _ h
  show decOp10 { op := 0x10, p := p, f := 0x0A, d := d, a := a, b := b, ty := w.code } = _
  simp [decOp10, field?]
theorem Roundtrip.aluMaxu (p : Pred) (w : IntW) (d : G) (a : G) (b : G) : Roundtrip.Statement (.aluMaxu p w d a b) := by
  intro _ h
  show decOp10 { op := 0x10, p := p, f := 0x0B, d := d, a := a, b := b, ty := w.code } = _
  simp [decOp10, field?]
theorem Roundtrip.aluAdds (p : Pred) (w : IntW) (d : G) (a : G) (b : G) : Roundtrip.Statement (.aluAdds p w d a b) := by
  intro _ h
  show decOp10 { op := 0x10, p := p, f := 0x0C, d := d, a := a, b := b, ty := w.code } = _
  simp [decOp10, field?]
theorem Roundtrip.aluSubs (p : Pred) (w : IntW) (d : G) (a : G) (b : G) : Roundtrip.Statement (.aluSubs p w d a b) := by
  intro _ h
  show decOp10 { op := 0x10, p := p, f := 0x0D, d := d, a := a, b := b, ty := w.code } = _
  simp [decOp10, field?]
theorem Roundtrip.aluAddsu (p : Pred) (w : IntW) (d : G) (a : G) (b : G) : Roundtrip.Statement (.aluAddsu p w d a b) := by
  intro _ h
  show decOp10 { op := 0x10, p := p, f := 0x0E, d := d, a := a, b := b, ty := w.code } = _
  simp [decOp10, field?]
theorem Roundtrip.aluSubsu (p : Pred) (w : IntW) (d : G) (a : G) (b : G) : Roundtrip.Statement (.aluSubsu p w d a b) := by
  intro _ h
  show decOp10 { op := 0x10, p := p, f := 0x0F, d := d, a := a, b := b, ty := w.code } = _
  simp [decOp10, field?]
theorem Roundtrip.aluMov (p : Pred) (w : IntW) (d : G) (a : G) : Roundtrip.Statement (.aluMov p w d a) := by
  intro _ h
  show decOp10 { op := 0x10, p := p, f := 0x10, d := d, a := a, ty := w.code } = _
  simp [decOp10, field?]
theorem Roundtrip.aluNeg (p : Pred) (w : IntW) (d : G) (a : G) : Roundtrip.Statement (.aluNeg p w d a) := by
  intro _ h
  show decOp10 { op := 0x10, p := p, f := 0x11, d := d, a := a, ty := w.code } = _
  simp [decOp10, field?]
theorem Roundtrip.aluNot (p : Pred) (w : IntW) (d : G) (a : G) : Roundtrip.Statement (.aluNot p w d a) := by
  intro _ h
  show decOp10 { op := 0x10, p := p, f := 0x12, d := d, a := a, ty := w.code } = _
  simp [decOp10, field?]
theorem Roundtrip.addi (p : Pred) (d : G) (a : G) (imm : BitVec 32) : Roundtrip.Statement (.addi p d a imm) := by
  intro _ h
  show decOp11 { op := 0x11, p := p, d := d, a := a, imm := imm.setWidth 64 } = _
  simp [decOp11]
theorem Roundtrip.andi (p : Pred) (d : G) (a : G) (imm : BitVec 32) : Roundtrip.Statement (.andi p d a imm) := by
  intro _ h
  show decOp11 { op := 0x11, p := p, f := 0x01, d := d, a := a, imm := imm.setWidth 64 } = _
  simp [decOp11]
theorem Roundtrip.ori (p : Pred) (d : G) (a : G) (imm : BitVec 32) : Roundtrip.Statement (.ori p d a imm) := by
  intro _ h
  show decOp11 { op := 0x11, p := p, f := 0x02, d := d, a := a, imm := imm.setWidth 64 } = _
  simp [decOp11]
theorem Roundtrip.xori (p : Pred) (d : G) (a : G) (imm : BitVec 32) : Roundtrip.Statement (.xori p d a imm) := by
  intro _ h
  show decOp11 { op := 0x11, p := p, f := 0x03, d := d, a := a, imm := imm.setWidth 64 } = _
  simp [decOp11]
theorem Roundtrip.movi (p : Pred) (d : G) (imm : BitVec 32) : Roundtrip.Statement (.movi p d imm) := by
  intro _ h
  show decOp11 { op := 0x11, p := p, f := 0x04, d := d, imm := imm.setWidth 64 } = _
  simp [decOp11]
theorem Roundtrip.movhi (p : Pred) (d : G) (a : G) (imm : BitVec 32) : Roundtrip.Statement (.movhi p d a imm) := by
  intro _ h
  show decOp11 { op := 0x11, p := p, f := 0x05, d := d, a := a, imm := imm.setWidth 64 } = _
  simp [decOp11]
theorem Roundtrip.mulLo (p : Pred) (d : G) (a : G) (b : G) : Roundtrip.Statement (.mulLo p d a b) := by
  intro _ h
  show decOp12 { op := 0x12, p := p, d := d, a := a, b := b } = _
  simp [decOp12]
theorem Roundtrip.mulHi (p : Pred) (d : G) (a : G) (b : G) : Roundtrip.Statement (.mulHi p d a b) := by
  intro _ h
  show decOp12 { op := 0x12, p := p, f := 0x01, d := d, a := a, b := b } = _
  simp [decOp12]
theorem Roundtrip.mulHiu (p : Pred) (d : G) (a : G) (b : G) : Roundtrip.Statement (.mulHiu p d a b) := by
  intro _ h
  show decOp12 { op := 0x12, p := p, f := 0x02, d := d, a := a, b := b } = _
  simp [decOp12]
theorem Roundtrip.mulMad (p : Pred) (d : G) (a : G) (b : G) (c : G) : Roundtrip.Statement (.mulMad p d a b c) := by
  intro _ h
  show decOp12 { op := 0x12, p := p, f := 0x03, d := d, a := a, b := b, c := c } = _
  simp [decOp12]
theorem Roundtrip.divS (p : Pred) (n : La) (w : IntW) (d : G) (a : G) (b : G) : Roundtrip.Statement (.divS p n w d a b) := by
  intro _ h
  show decOp13 { op := 0x13, p := p, q := n, d := d, a := a, b := b, ty := w.code } = _
  simp [decOp13, field?]
theorem Roundtrip.divU (p : Pred) (n : La) (w : IntW) (d : G) (a : G) (b : G) : Roundtrip.Statement (.divU p n w d a b) := by
  intro _ h
  show decOp13 { op := 0x13, p := p, f := 0x01, q := n, d := d, a := a, b := b, ty := w.code } = _
  simp [decOp13, field?]
theorem Roundtrip.divRem (p : Pred) (n : La) (w : IntW) (d : G) (a : G) (b : G) : Roundtrip.Statement (.divRem p n w d a b) := by
  intro _ h
  show decOp13 { op := 0x13, p := p, f := 0x02, q := n, d := d, a := a, b := b, ty := w.code } = _
  simp [decOp13, field?]
theorem Roundtrip.divRemu (p : Pred) (n : La) (w : IntW) (d : G) (a : G) (b : G) : Roundtrip.Statement (.divRemu p n w d a b) := by
  intro _ h
  show decOp13 { op := 0x13, p := p, f := 0x03, q := n, d := d, a := a, b := b, ty := w.code } = _
  simp [decOp13, field?]
theorem Roundtrip.bitsShl (p : Pred) (d : G) (a : G) (b : G) : Roundtrip.Statement (.bitsShl p d a b) := by
  intro _ h
  show decOp14 { op := 0x14, p := p, d := d, a := a, b := b } = _
  simp [decOp14]
theorem Roundtrip.bitsShr (p : Pred) (d : G) (a : G) (b : G) : Roundtrip.Statement (.bitsShr p d a b) := by
  intro _ h
  show decOp14 { op := 0x14, p := p, f := 0x01, d := d, a := a, b := b } = _
  simp [decOp14]
theorem Roundtrip.bitsSar (p : Pred) (d : G) (a : G) (b : G) : Roundtrip.Statement (.bitsSar p d a b) := by
  intro _ h
  show decOp14 { op := 0x14, p := p, f := 0x02, d := d, a := a, b := b } = _
  simp [decOp14]
theorem Roundtrip.bitsRol (p : Pred) (d : G) (a : G) (b : G) : Roundtrip.Statement (.bitsRol p d a b) := by
  intro _ h
  show decOp14 { op := 0x14, p := p, f := 0x03, d := d, a := a, b := b } = _
  simp [decOp14]
theorem Roundtrip.bitsRor (p : Pred) (d : G) (a : G) (b : G) : Roundtrip.Statement (.bitsRor p d a b) := by
  intro _ h
  show decOp14 { op := 0x14, p := p, f := 0x04, d := d, a := a, b := b } = _
  simp [decOp14]
theorem Roundtrip.bitsShli (p : Pred) (d : G) (a : G) (k : BitVec 6) : Roundtrip.Statement (.bitsShli p d a k) := by
  intro _ h
  show decOp14 { op := 0x14, p := p, f := 0x08, d := d, a := a, flags := 0#1 ++ k } = _
  simp [decOp14]
theorem Roundtrip.bitsShri (p : Pred) (d : G) (a : G) (k : BitVec 6) : Roundtrip.Statement (.bitsShri p d a k) := by
  intro _ h
  show decOp14 { op := 0x14, p := p, f := 0x09, d := d, a := a, flags := 0#1 ++ k } = _
  simp [decOp14]
theorem Roundtrip.bitsSari (p : Pred) (d : G) (a : G) (k : BitVec 6) : Roundtrip.Statement (.bitsSari p d a k) := by
  intro _ h
  show decOp14 { op := 0x14, p := p, f := 0x0A, d := d, a := a, flags := 0#1 ++ k } = _
  simp [decOp14]
theorem Roundtrip.bitsRoli (p : Pred) (d : G) (a : G) (k : BitVec 6) : Roundtrip.Statement (.bitsRoli p d a k) := by
  intro _ h
  show decOp14 { op := 0x14, p := p, f := 0x0B, d := d, a := a, flags := 0#1 ++ k } = _
  simp [decOp14]
theorem Roundtrip.bitsRori (p : Pred) (d : G) (a : G) (k : BitVec 6) : Roundtrip.Statement (.bitsRori p d a k) := by
  intro _ h
  show decOp14 { op := 0x14, p := p, f := 0x0C, d := d, a := a, flags := 0#1 ++ k } = _
  simp [decOp14]
theorem Roundtrip.bitsClz (p : Pred) (d : G) (a : G) : Roundtrip.Statement (.bitsClz p d a) := by
  intro _ h
  show decOp14 { op := 0x14, p := p, f := 0x10, d := d, a := a } = _
  simp [decOp14]
theorem Roundtrip.bitsCtz (p : Pred) (d : G) (a : G) : Roundtrip.Statement (.bitsCtz p d a) := by
  intro _ h
  show decOp14 { op := 0x14, p := p, f := 0x11, d := d, a := a } = _
  simp [decOp14]
theorem Roundtrip.bitsPopc (p : Pred) (d : G) (a : G) : Roundtrip.Statement (.bitsPopc p d a) := by
  intro _ h
  show decOp14 { op := 0x14, p := p, f := 0x12, d := d, a := a } = _
  simp [decOp14]
theorem Roundtrip.bitsBrev (p : Pred) (d : G) (a : G) : Roundtrip.Statement (.bitsBrev p d a) := by
  intro _ h
  show decOp14 { op := 0x14, p := p, f := 0x13, d := d, a := a } = _
  simp [decOp14]
theorem Roundtrip.bitsBswap (p : Pred) (d : G) (a : G) : Roundtrip.Statement (.bitsBswap p d a) := by
  intro _ h
  show decOp14 { op := 0x14, p := p, f := 0x14, d := d, a := a } = _
  simp [decOp14]
theorem Roundtrip.fieldExt (p : Pred) (d : G) (a : G) (b : G) : Roundtrip.Statement (.fieldExt p d a b) := by
  intro _ h
  show decOp15 { op := 0x15, p := p, d := d, a := a, b := b } = _
  simp [decOp15]
theorem Roundtrip.fieldExts (p : Pred) (d : G) (a : G) (b : G) : Roundtrip.Statement (.fieldExts p d a b) := by
  intro _ h
  show decOp15 { op := 0x15, p := p, f := 0x01, d := d, a := a, b := b } = _
  simp [decOp15]
theorem Roundtrip.fieldIns (p : Pred) (d : G) (a : G) (b : G) : Roundtrip.Statement (.fieldIns p d a b) := by
  intro _ h
  show decOp15 { op := 0x15, p := p, f := 0x02, d := d, a := a, b := b } = _
  simp [decOp15]
theorem Roundtrip.fieldMask (p : Pred) (d : G) (b : G) : Roundtrip.Statement (.fieldMask p d b) := by
  intro _ h
  show decOp15 { op := 0x15, p := p, f := 0x03, d := d, b := b } = _
  simp [decOp15]
theorem Roundtrip.movw (p : Pred) (d : G) (imm : Word) : Roundtrip.Statement (.movw p d imm) := by
  intro _ h
  show decOp16 { op := 0x16, p := p, d := d, imm := imm } = _
  simp [decOp16]
theorem Roundtrip.sel (p : Pred) (d : G) (a : G) (b : G) (c : P) : Roundtrip.Statement (.sel p d a b c) := by
  intro _ h
  show decOp17 { op := 0x17, p := p, d := d, a := a, b := b, c := c.setWidth 5 } = _
  simp [decOp17]
theorem Roundtrip.lea (p : Pred) (d : G) (a : G) (b : G) (k : BitVec 3) : Roundtrip.Statement (.lea p d a b k) := by
  intro _ h
  simp only [Instr.wf, Bool.and_eq_true, decide_eq_true_eq] at h
  show decOp18 { op := 0x18, p := p, d := d, a := a, b := b, f := 0x00#5 ++ k } = _
  simp [decOp18]
  exact h.2
theorem Roundtrip.leaOff (p : Pred) (d : G) (a : G) (b : G) (k : BitVec 3) : Roundtrip.Statement (.leaOff p d a b k) := by
  intro _ h
  simp only [Instr.wf, Bool.and_eq_true, decide_eq_true_eq] at h
  show decOp18 { op := 0x18, p := p, d := d, a := a, b := b, f := 0x10#5 ++ k } = _
  simp [decOp18]
  exact h.2
theorem Roundtrip.cmp (p : Pred) (cc : Cond) (w : CmpW) (m : Combine) (d : P) (a : G) (b : G) : Roundtrip.Statement (.cmp p cc w m d a b) := by
  intro _ h
  show decOp30 { op := 0x30, p := p, d := d.setWidth 5, a := a, b := b, f := cc.code, ty := w.code, flags := m.code } = _
  simp [decOp30, minor?, field?]
theorem Roundtrip.cmpi (p : Pred) (cc : Cond) (d : P) (a : G) (imm : BitVec 32) : Roundtrip.Statement (.cmpi p cc d a imm) := by
  intro _ h
  show decOp31 { op := 0x31, p := p, d := d.setWidth 5, a := a, f := cc.code, imm := imm.setWidth 64 } = _
  simp [decOp31, minor?]
theorem Roundtrip.plogAnd (p : Pred) (d : P) (a : P) (b : P) : Roundtrip.Statement (.plogAnd p d a b) := by
  intro _ h
  show decOp32 { op := 0x32, p := p, d := d.setWidth 5, a := a.setWidth 5, b := b.setWidth 5 } = _
  simp [decOp32]
theorem Roundtrip.plogOr (p : Pred) (d : P) (a : P) (b : P) : Roundtrip.Statement (.plogOr p d a b) := by
  intro _ h
  show decOp32 { op := 0x32, p := p, f := 0x01, d := d.setWidth 5, a := a.setWidth 5, b := b.setWidth 5 } = _
  simp [decOp32]
theorem Roundtrip.plogXor (p : Pred) (d : P) (a : P) (b : P) : Roundtrip.Statement (.plogXor p d a b) := by
  intro _ h
  show decOp32 { op := 0x32, p := p, f := 0x02, d := d.setWidth 5, a := a.setWidth 5, b := b.setWidth 5 } = _
  simp [decOp32]
theorem Roundtrip.plogAndn (p : Pred) (d : P) (a : P) (b : P) : Roundtrip.Statement (.plogAndn p d a b) := by
  intro _ h
  show decOp32 { op := 0x32, p := p, f := 0x03, d := d.setWidth 5, a := a.setWidth 5, b := b.setWidth 5 } = _
  simp [decOp32]
theorem Roundtrip.plogOrn (p : Pred) (d : P) (a : P) (b : P) : Roundtrip.Statement (.plogOrn p d a b) := by
  intro _ h
  show decOp32 { op := 0x32, p := p, f := 0x04, d := d.setWidth 5, a := a.setWidth 5, b := b.setWidth 5 } = _
  simp [decOp32]
theorem Roundtrip.plogNand (p : Pred) (d : P) (a : P) (b : P) : Roundtrip.Statement (.plogNand p d a b) := by
  intro _ h
  show decOp32 { op := 0x32, p := p, f := 0x05, d := d.setWidth 5, a := a.setWidth 5, b := b.setWidth 5 } = _
  simp [decOp32]
theorem Roundtrip.plogNor (p : Pred) (d : P) (a : P) (b : P) : Roundtrip.Statement (.plogNor p d a b) := by
  intro _ h
  show decOp32 { op := 0x32, p := p, f := 0x06, d := d.setWidth 5, a := a.setWidth 5, b := b.setWidth 5 } = _
  simp [decOp32]
theorem Roundtrip.plogXnor (p : Pred) (d : P) (a : P) (b : P) : Roundtrip.Statement (.plogXnor p d a b) := by
  intro _ h
  show decOp32 { op := 0x32, p := p, f := 0x07, d := d.setWidth 5, a := a.setWidth 5, b := b.setWidth 5 } = _
  simp [decOp32]
theorem Roundtrip.plogNot (p : Pred) (d : P) (a : P) : Roundtrip.Statement (.plogNot p d a) := by
  intro _ h
  show decOp32 { op := 0x32, p := p, f := 0x08, d := d.setWidth 5, a := a.setWidth 5 } = _
  simp [decOp32]
theorem Roundtrip.pmovG2p (p : Pred) (d : P) (a : G) : Roundtrip.Statement (.pmovG2p p d a) := by
  intro _ h
  show decOp33 { op := 0x33, p := p, d := d.setWidth 5, a := a } = _
  simp [decOp33]
theorem Roundtrip.pmovP2g (p : Pred) (d : G) (a : P) : Roundtrip.Statement (.pmovP2g p d a) := by
  intro _ h
  show decOp33 { op := 0x33, p := p, f := 0x01, d := d, a := a.setWidth 5 } = _
  simp [decOp33]
theorem Roundtrip.pmovBc (p : Pred) (d : P) (a : G) : Roundtrip.Statement (.pmovBc p d a) := by
  intro _ h
  show decOp33 { op := 0x33, p := p, f := 0x02, d := d.setWidth 5, a := a } = _
  simp [decOp33]
theorem Roundtrip.coordTile (p : Pred) (d : G) (a : G) : Roundtrip.Statement (.coordTile p d a) := by
  intro _ h
  show decOp38 { op := 0x38, p := p, d := d, a := a } = _
  simp [decOp38]
theorem Roundtrip.coordGroup (p : Pred) (d : G) (a : G) : Roundtrip.Statement (.coordGroup p d a) := by
  intro _ h
  show decOp38 { op := 0x38, p := p, f := 0x01, d := d, a := a } = _
  simp [decOp38]
theorem Roundtrip.coordSgrp (p : Pred) (d : G) (a : G) : Roundtrip.Statement (.coordSgrp p d a) := by
  intro _ h
  show decOp38 { op := 0x38, p := p, f := 0x02, d := d, a := a } = _
  simp [decOp38]
theorem Roundtrip.coordDie (p : Pred) (d : G) (a : G) : Roundtrip.Statement (.coordDie p d a) := by
  intro _ h
  show decOp38 { op := 0x38, p := p, f := 0x03, d := d, a := a } = _
  simp [decOp38]
theorem Roundtrip.coordPres (p : Pred) (d : G) (a : G) : Roundtrip.Statement (.coordPres p d a) := by
  intro _ h
  show decOp38 { op := 0x38, p := p, f := 0x10, d := d, a := a } = _
  simp [decOp38]
theorem Roundtrip.coordHmap (p : Pred) (d : G) (a : G) : Roundtrip.Statement (.coordHmap p d a) := by
  intro _ h
  show decOp38 { op := 0x38, p := p, f := 0x11, d := d, a := a } = _
  simp [decOp38]
theorem Roundtrip.coordLocal (p : Pred) (d : G) (a : G) : Roundtrip.Statement (.coordLocal p d a) := by
  intro _ h
  show decOp38 { op := 0x38, p := p, f := 0x12, d := d, a := a } = _
  simp [decOp38]
theorem Roundtrip.mka (p : Pred) (lvl : BitVec 2) (rel : Bool) (d : G) (a : G) (b : G) : Roundtrip.Statement (.mka p lvl rel d a b) := by
  intro _ h
  show decOp39 { op := 0x39, p := p, d := d, a := a, b := b, f := 0#5 ++ BitVec.ofBool rel ++ lvl } = _
  simp [decOp39]
theorem Roundtrip.mkg (p : Pred) (d : G) (a : G) (b : G) : Roundtrip.Statement (.mkg p d a b) := by
  intro _ h
  show decOp3A { op := 0x3A, p := p, d := d, a := a, b := b } = _
  simp [decOp3A]
theorem Roundtrip.mkgOwn (p : Pred) (d : G) (b : G) : Roundtrip.Statement (.mkgOwn p d b) := by
  intro _ h
  show decOp3A { op := 0x3A, p := p, f := 0x01, d := d, b := b } = _
  simp [decOp3A]
theorem Roundtrip.ld (p : Pred) (n : La) (sz : Sz) (d : G) (a : G) (disp : BitVec 32) : Roundtrip.Statement (.ld p n sz d a disp) := by
  intro _ h
  show decOp40 { op := 0x40, p := p, q := n, d := d, a := a, f := sz.code, imm := disp.setWidth 64 } = _
  simp [decOp40, minor?]
theorem Roundtrip.ldx (p : Pred) (n : La) (sz : Sz) (sc : Bool) (d : G) (a : G) (b : G) : Roundtrip.Statement (.ldx p n sz sc d a b) := by
  intro _ h
  show decOp41 { op := 0x41, p := p, q := n, d := d, a := a, b := b, f := sz.code, flags := 0#6 ++ BitVec.ofBool sc } = _
  simp [decOp41, minor?]
theorem Roundtrip.st (p : Pred) (n : La) (sz : StSz) (d : G) (a : G) (disp : BitVec 32) : Roundtrip.Statement (.st p n sz d a disp) := by
  intro _ h
  show decOp42 { op := 0x42, p := p, q := n, d := d, a := a, f := sz.code, imm := disp.setWidth 64 } = _
  simp [decOp42, minor?]
theorem Roundtrip.stx (p : Pred) (n : La) (sz : StSz) (sc : Bool) (d : G) (a : G) (b : G) : Roundtrip.Statement (.stx p n sz sc d a b) := by
  intro _ h
  show decOp43 { op := 0x43, p := p, q := n, d := d, a := a, b := b, f := sz.code, flags := 0#6 ++ BitVec.ofBool sc } = _
  simp [decOp43, minor?]
theorem Roundtrip.ldm (p : Pred) (n : La) (c : BitVec 3) (d : G) (a : G) (disp : BitVec 32) : Roundtrip.Statement (.ldm p n c d a disp) := by
  intro _ h
  show decOp44 { op := 0x44, p := p, q := n, d := d, a := a, imm := disp.setWidth 64, f := c.setWidth 8 } = _
  simp [decOp44]
theorem Roundtrip.stm (p : Pred) (n : La) (c : BitVec 3) (d : G) (a : G) (disp : BitVec 32) : Roundtrip.Statement (.stm p n c d a disp) := by
  intro _ h
  show decOp45 { op := 0x45, p := p, q := n, d := d, a := a, imm := disp.setWidth 64, f := c.setWidth 8 } = _
  simp [decOp45]
theorem Roundtrip.ldq (p : Pred) (n : La) (d : G) (a : G) (disp : BitVec 32) : Roundtrip.Statement (.ldq p n d a disp) := by
  intro _ h
  show decOp46 { op := 0x46, p := p, q := n, d := d, a := a, imm := disp.setWidth 64 } = _
  simp [decOp46]
theorem Roundtrip.ldtry (p : Pred) (n : La) (sz : Sz) (d : G) (a : G) (disp : BitVec 32) : Roundtrip.Statement (.ldtry p n sz d a disp) := by
  intro _ h
  show decOp47 { op := 0x47, p := p, q := n, d := d, a := a, f := sz.code, imm := disp.setWidth 64 } = _
  simp [decOp47, minor?]
theorem Roundtrip.bwait (p : Pred) (n : La) (d : G) (a : G) (disp : BitVec 32) : Roundtrip.Statement (.bwait p n d a disp) := by
  intro _ h
  show decOp48 { op := 0x48, p := p, q := n, d := d, a := a, imm := disp.setWidth 64 } = _
  simp [decOp48]
theorem Roundtrip.clr (p : Pred) (a : G) (disp : BitVec 32) : Roundtrip.Statement (.clr p a disp) := by
  intro _ h
  show decOp49 { op := 0x49, p := p, a := a, imm := disp.setWidth 64 } = _
  simp [decOp49]
theorem Roundtrip.clrn (p : Pred) (a : G) (b : G) : Roundtrip.Statement (.clrn p a b) := by
  intro _ h
  show decOp4A { op := 0x4A, p := p, a := a, b := b } = _
  simp [decOp4A]
theorem Roundtrip.prefS (p : Pred) (a : G) (disp : BitVec 32) : Roundtrip.Statement (.prefS p a disp) := by
  intro _ h
  show decOp4B { op := 0x4B, p := p, a := a, imm := disp.setWidth 64 } = _
  simp [decOp4B]
theorem Roundtrip.prefX (p : Pred) (a : G) (disp : BitVec 32) : Roundtrip.Statement (.prefX p a disp) := by
  intro _ h
  show decOp4B { op := 0x4B, p := p, f := 0x01, a := a, imm := disp.setWidth 64 } = _
  simp [decOp4B]
theorem Roundtrip.aopSwap (p : Pred) (n : La) (far : Bool) (ty : Ty) (scope : Scope) (order : Order) (d : G) (a : G) (b : G) : Roundtrip.Statement (.aopSwap p n far ty scope order d a b) := by
  intro _ h
  show decOp50 { op := 0x50, p := p, q := n, d := d, a := a, b := b, ty := ty.code, scope := scope, order := order, flags := 0#6 ++ BitVec.ofBool far } = _
  simp [decOp50, field?]
theorem Roundtrip.aopAdd (p : Pred) (n : La) (far : Bool) (ty : Ty) (scope : Scope) (order : Order) (d : G) (a : G) (b : G) : Roundtrip.Statement (.aopAdd p n far ty scope order d a b) := by
  intro _ h
  show decOp50 { op := 0x50, p := p, f := 0x01, q := n, d := d, a := a, b := b, ty := ty.code, scope := scope, order := order, flags := 0#6 ++ BitVec.ofBool far } = _
  simp [decOp50, field?]
theorem Roundtrip.aopAnd (p : Pred) (n : La) (far : Bool) (ty : Ty) (scope : Scope) (order : Order) (d : G) (a : G) (b : G) : Roundtrip.Statement (.aopAnd p n far ty scope order d a b) := by
  intro _ h
  show decOp50 { op := 0x50, p := p, f := 0x02, q := n, d := d, a := a, b := b, ty := ty.code, scope := scope, order := order, flags := 0#6 ++ BitVec.ofBool far } = _
  simp [decOp50, field?]
theorem Roundtrip.aopOr (p : Pred) (n : La) (far : Bool) (ty : Ty) (scope : Scope) (order : Order) (d : G) (a : G) (b : G) : Roundtrip.Statement (.aopOr p n far ty scope order d a b) := by
  intro _ h
  show decOp50 { op := 0x50, p := p, f := 0x03, q := n, d := d, a := a, b := b, ty := ty.code, scope := scope, order := order, flags := 0#6 ++ BitVec.ofBool far } = _
  simp [decOp50, field?]
theorem Roundtrip.aopXor (p : Pred) (n : La) (far : Bool) (ty : Ty) (scope : Scope) (order : Order) (d : G) (a : G) (b : G) : Roundtrip.Statement (.aopXor p n far ty scope order d a b) := by
  intro _ h
  show decOp50 { op := 0x50, p := p, f := 0x04, q := n, d := d, a := a, b := b, ty := ty.code, scope := scope, order := order, flags := 0#6 ++ BitVec.ofBool far } = _
  simp [decOp50, field?]
theorem Roundtrip.aopMin (p : Pred) (n : La) (far : Bool) (ty : Ty) (scope : Scope) (order : Order) (d : G) (a : G) (b : G) : Roundtrip.Statement (.aopMin p n far ty scope order d a b) := by
  intro _ h
  show decOp50 { op := 0x50, p := p, f := 0x05, q := n, d := d, a := a, b := b, ty := ty.code, scope := scope, order := order, flags := 0#6 ++ BitVec.ofBool far } = _
  simp [decOp50, field?]
theorem Roundtrip.aopMax (p : Pred) (n : La) (far : Bool) (ty : Ty) (scope : Scope) (order : Order) (d : G) (a : G) (b : G) : Roundtrip.Statement (.aopMax p n far ty scope order d a b) := by
  intro _ h
  show decOp50 { op := 0x50, p := p, f := 0x06, q := n, d := d, a := a, b := b, ty := ty.code, scope := scope, order := order, flags := 0#6 ++ BitVec.ofBool far } = _
  simp [decOp50, field?]
theorem Roundtrip.acas (p : Pred) (n : La) (far : Bool) (q : Bool) (ty : Ty) (scope : Scope) (order : Order) (d : G) (a : G) (b : G) (c : G) : Roundtrip.Statement (.acas p n far q ty scope order d a b c) := by
  intro _ h
  show decOp51 { op := 0x51, p := p, q := n, d := d, a := a, b := b, c := c, ty := ty.code, scope := scope, order := order, flags := 0#5 ++ BitVec.ofBool q ++ BitVec.ofBool far } = _
  simp [decOp51, field?]
theorem Roundtrip.redAdd (p : Pred) (n : La) (ty : Ty) (scope : Scope) (order : Order) (a : G) (b : G) : Roundtrip.Statement (.redAdd p n ty scope order a b) := by
  intro _ h
  show decOp52 { op := 0x52, p := p, f := 0x01, q := n, a := a, b := b, ty := ty.code, scope := scope, order := order } = _
  simp [decOp52, field?]
theorem Roundtrip.redAnd (p : Pred) (n : La) (ty : Ty) (scope : Scope) (order : Order) (a : G) (b : G) : Roundtrip.Statement (.redAnd p n ty scope order a b) := by
  intro _ h
  show decOp52 { op := 0x52, p := p, f := 0x02, q := n, a := a, b := b, ty := ty.code, scope := scope, order := order } = _
  simp [decOp52, field?]
theorem Roundtrip.redOr (p : Pred) (n : La) (ty : Ty) (scope : Scope) (order : Order) (a : G) (b : G) : Roundtrip.Statement (.redOr p n ty scope order a b) := by
  intro _ h
  show decOp52 { op := 0x52, p := p, f := 0x03, q := n, a := a, b := b, ty := ty.code, scope := scope, order := order } = _
  simp [decOp52, field?]
theorem Roundtrip.redXor (p : Pred) (n : La) (ty : Ty) (scope : Scope) (order : Order) (a : G) (b : G) : Roundtrip.Statement (.redXor p n ty scope order a b) := by
  intro _ h
  show decOp52 { op := 0x52, p := p, f := 0x04, q := n, a := a, b := b, ty := ty.code, scope := scope, order := order } = _
  simp [decOp52, field?]
theorem Roundtrip.redMin (p : Pred) (n : La) (ty : Ty) (scope : Scope) (order : Order) (a : G) (b : G) : Roundtrip.Statement (.redMin p n ty scope order a b) := by
  intro _ h
  show decOp52 { op := 0x52, p := p, f := 0x05, q := n, a := a, b := b, ty := ty.code, scope := scope, order := order } = _
  simp [decOp52, field?]
theorem Roundtrip.redMax (p : Pred) (n : La) (ty : Ty) (scope : Scope) (order : Order) (a : G) (b : G) : Roundtrip.Statement (.redMax p n ty scope order a b) := by
  intro _ h
  show decOp52 { op := 0x52, p := p, f := 0x06, q := n, a := a, b := b, ty := ty.code, scope := scope, order := order } = _
  simp [decOp52, field?]
theorem Roundtrip.post (p : Pred) (n : La) (sz : PostSz) (scope : Scope) (order : Order) (a : G) (b : BitVec 5) : Roundtrip.Statement (.post p n sz scope order a b) := by
  intro _ h
  show decOp53 { op := 0x53, p := p, q := n, a := a, b := b, f := sz.code, scope := scope, order := order } = _
  simp [decOp53, minor?]
theorem Roundtrip.vopAdd (p : Pred) (ty : Ty) (d : V) (a : V) (b : V) : Roundtrip.Statement (.vopAdd p ty d a b) := by
  intro _ h
  show decOp60 { op := 0x60, p := p, f := 0x01, d := d.setWidth 5, a := a.setWidth 5, b := b.setWidth 5, ty := ty.code } = _
  simp [decOp60, field?]
theorem Roundtrip.vopSub (p : Pred) (ty : Ty) (d : V) (a : V) (b : V) : Roundtrip.Statement (.vopSub p ty d a b) := by
  intro _ h
  show decOp60 { op := 0x60, p := p, f := 0x02, d := d.setWidth 5, a := a.setWidth 5, b := b.setWidth 5, ty := ty.code } = _
  simp [decOp60, field?]
theorem Roundtrip.vopMul (p : Pred) (ty : Ty) (d : V) (a : V) (b : V) : Roundtrip.Statement (.vopMul p ty d a b) := by
  intro _ h
  show decOp60 { op := 0x60, p := p, f := 0x03, d := d.setWidth 5, a := a.setWidth 5, b := b.setWidth 5, ty := ty.code } = _
  simp [decOp60, field?]
theorem Roundtrip.vopMin (p : Pred) (ty : Ty) (d : V) (a : V) (b : V) : Roundtrip.Statement (.vopMin p ty d a b) := by
  intro _ h
  show decOp60 { op := 0x60, p := p, f := 0x04, d := d.setWidth 5, a := a.setWidth 5, b := b.setWidth 5, ty := ty.code } = _
  simp [decOp60, field?]
theorem Roundtrip.vopMax (p : Pred) (ty : Ty) (d : V) (a : V) (b : V) : Roundtrip.Statement (.vopMax p ty d a b) := by
  intro _ h
  show decOp60 { op := 0x60, p := p, f := 0x05, d := d.setWidth 5, a := a.setWidth 5, b := b.setWidth 5, ty := ty.code } = _
  simp [decOp60, field?]
theorem Roundtrip.vopAbs (p : Pred) (ty : Ty) (d : V) (a : V) : Roundtrip.Statement (.vopAbs p ty d a) := by
  intro _ h
  show decOp60 { op := 0x60, p := p, f := 0x06, d := d.setWidth 5, a := a.setWidth 5, ty := ty.code } = _
  simp [decOp60, field?]
theorem Roundtrip.vopNeg (p : Pred) (ty : Ty) (d : V) (a : V) : Roundtrip.Statement (.vopNeg p ty d a) := by
  intro _ h
  show decOp60 { op := 0x60, p := p, f := 0x07, d := d.setWidth 5, a := a.setWidth 5, ty := ty.code } = _
  simp [decOp60, field?]
theorem Roundtrip.vopAdds (p : Pred) (ty : Ty) (d : V) (a : V) (b : V) : Roundtrip.Statement (.vopAdds p ty d a b) := by
  intro _ h
  show decOp60 { op := 0x60, p := p, f := 0x08, d := d.setWidth 5, a := a.setWidth 5, b := b.setWidth 5, ty := ty.code } = _
  simp [decOp60, field?]
theorem Roundtrip.vopSubs (p : Pred) (ty : Ty) (d : V) (a : V) (b : V) : Roundtrip.Statement (.vopSubs p ty d a b) := by
  intro _ h
  show decOp60 { op := 0x60, p := p, f := 0x09, d := d.setWidth 5, a := a.setWidth 5, b := b.setWidth 5, ty := ty.code } = _
  simp [decOp60, field?]
theorem Roundtrip.vopAnd (p : Pred) (ty : Ty) (d : V) (a : V) (b : V) : Roundtrip.Statement (.vopAnd p ty d a b) := by
  intro _ h
  show decOp60 { op := 0x60, p := p, f := 0x0A, d := d.setWidth 5, a := a.setWidth 5, b := b.setWidth 5, ty := ty.code } = _
  simp [decOp60, field?]
theorem Roundtrip.vopOr (p : Pred) (ty : Ty) (d : V) (a : V) (b : V) : Roundtrip.Statement (.vopOr p ty d a b) := by
  intro _ h
  show decOp60 { op := 0x60, p := p, f := 0x0B, d := d.setWidth 5, a := a.setWidth 5, b := b.setWidth 5, ty := ty.code } = _
  simp [decOp60, field?]
theorem Roundtrip.vopXor (p : Pred) (ty : Ty) (d : V) (a : V) (b : V) : Roundtrip.Statement (.vopXor p ty d a b) := by
  intro _ h
  show decOp60 { op := 0x60, p := p, f := 0x0C, d := d.setWidth 5, a := a.setWidth 5, b := b.setWidth 5, ty := ty.code } = _
  simp [decOp60, field?]
theorem Roundtrip.vopAndn (p : Pred) (ty : Ty) (d : V) (a : V) (b : V) : Roundtrip.Statement (.vopAndn p ty d a b) := by
  intro _ h
  show decOp60 { op := 0x60, p := p, f := 0x0D, d := d.setWidth 5, a := a.setWidth 5, b := b.setWidth 5, ty := ty.code } = _
  simp [decOp60, field?]
theorem Roundtrip.vopShl (p : Pred) (ty : Ty) (d : V) (a : V) (b : V) : Roundtrip.Statement (.vopShl p ty d a b) := by
  intro _ h
  show decOp60 { op := 0x60, p := p, f := 0x0E, d := d.setWidth 5, a := a.setWidth 5, b := b.setWidth 5, ty := ty.code } = _
  simp [decOp60, field?]
theorem Roundtrip.vopShr (p : Pred) (ty : Ty) (d : V) (a : V) (b : V) : Roundtrip.Statement (.vopShr p ty d a b) := by
  intro _ h
  show decOp60 { op := 0x60, p := p, f := 0x0F, d := d.setWidth 5, a := a.setWidth 5, b := b.setWidth 5, ty := ty.code } = _
  simp [decOp60, field?]
theorem Roundtrip.vopSar (p : Pred) (ty : Ty) (d : V) (a : V) (b : V) : Roundtrip.Statement (.vopSar p ty d a b) := by
  intro _ h
  show decOp60 { op := 0x60, p := p, f := 0x10, d := d.setWidth 5, a := a.setWidth 5, b := b.setWidth 5, ty := ty.code } = _
  simp [decOp60, field?]
theorem Roundtrip.vopMulhi (p : Pred) (ty : Ty) (d : V) (a : V) (b : V) : Roundtrip.Statement (.vopMulhi p ty d a b) := by
  intro _ h
  show decOp60 { op := 0x60, p := p, f := 0x11, d := d.setWidth 5, a := a.setWidth 5, b := b.setWidth 5, ty := ty.code } = _
  simp [decOp60, field?]
theorem Roundtrip.vfma (p : Pred) (ty : Ty) (d : V) (a : V) (b : V) (c : V) : Roundtrip.Statement (.vfma p ty d a b c) := by
  intro _ h
  show decOp61 { op := 0x61, p := p, d := d.setWidth 5, a := a.setWidth 5, b := b.setWidth 5, c := c.setWidth 5, ty := ty.code } = _
  simp [decOp61, field?]
theorem Roundtrip.vfmaFms (p : Pred) (ty : Ty) (d : V) (a : V) (b : V) (c : V) : Roundtrip.Statement (.vfmaFms p ty d a b c) := by
  intro _ h
  show decOp61 { op := 0x61, p := p, f := 0x01, d := d.setWidth 5, a := a.setWidth 5, b := b.setWidth 5, c := c.setWidth 5, ty := ty.code } = _
  simp [decOp61, field?]
theorem Roundtrip.vfmaFnma (p : Pred) (ty : Ty) (d : V) (a : V) (b : V) (c : V) : Roundtrip.Statement (.vfmaFnma p ty d a b c) := by
  intro _ h
  show decOp61 { op := 0x61, p := p, f := 0x02, d := d.setWidth 5, a := a.setWidth 5, b := b.setWidth 5, c := c.setWidth 5, ty := ty.code } = _
  simp [decOp61, field?]
theorem Roundtrip.vfmaFnms (p : Pred) (ty : Ty) (d : V) (a : V) (b : V) (c : V) : Roundtrip.Statement (.vfmaFnms p ty d a b c) := by
  intro _ h
  show decOp61 { op := 0x61, p := p, f := 0x03, d := d.setWidth 5, a := a.setWidth 5, b := b.setWidth 5, c := c.setWidth 5, ty := ty.code } = _
  simp [decOp61, field?]
theorem Roundtrip.vdiv (p : Pred) (n : La) (ty : Ty) (d : V) (a : V) (b : V) : Roundtrip.Statement (.vdiv p n ty d a b) := by
  intro _ h
  show decOp62 { op := 0x62, p := p, q := n, d := d.setWidth 5, a := a.setWidth 5, b := b.setWidth 5, ty := ty.code } = _
  simp [decOp62, field?]
theorem Roundtrip.vsqrt (p : Pred) (n : La) (ty : Ty) (d : V) (a : V) : Roundtrip.Statement (.vsqrt p n ty d a) := by
  intro _ h
  show decOp62 { op := 0x62, p := p, f := 0x01, q := n, d := d.setWidth 5, a := a.setWidth 5, ty := ty.code } = _
  simp [decOp62, field?]
theorem Roundtrip.vcmp (p : Pred) (cc : VCond) (ty : Ty) (d : P) (a : V) (b : V) : Roundtrip.Statement (.vcmp p cc ty d a b) := by
  intro _ h
  simp only [Instr.wf, Bool.and_eq_true, decide_eq_true_eq] at h
  show decOp63 { op := 0x63, p := p, d := d.setWidth 5, a := a.setWidth 5, b := b.setWidth 5, ty := ty.code, f := cc.code } = _
  simp [decOp63, minor?, field?, h]
theorem Roundtrip.vsel (p : Pred) (ty : Ty) (d : V) (a : V) (b : V) (c : P) : Roundtrip.Statement (.vsel p ty d a b c) := by
  intro _ h
  show decOp64 { op := 0x64, p := p, d := d.setWidth 5, a := a.setWidth 5, b := b.setWidth 5, c := c.setWidth 5, ty := ty.code } = _
  simp [decOp64, field?]
theorem Roundtrip.vcvt (p : Pred) (src : Ty) (j : BitVec 4) (dst : Ty) (d : V) (a : V) (c : G) : Roundtrip.Statement (.vcvt p src j dst d a c) := by
  intro _ h
  simp only [Instr.wf, Bool.and_eq_true, decide_eq_true_eq] at h
  show decOp65 { op := 0x65, p := p, q := j, d := d.setWidth 5, a := a.setWidth 5, c := c, ty := dst.code, f := src.code.setWidth 8 } = _
  simp [decOp65, minor?, field?, h]
theorem Roundtrip.vredAdd (p : Pred) (ty : Ty) (d : G) (a : V) : Roundtrip.Statement (.vredAdd p ty d a) := by
  intro _ h
  show decOp66 { op := 0x66, p := p, d := d, a := a.setWidth 5, ty := ty.code } = _
  simp [decOp66, field?]
theorem Roundtrip.vredMin (p : Pred) (ty : Ty) (d : G) (a : V) : Roundtrip.Statement (.vredMin p ty d a) := by
  intro _ h
  show decOp66 { op := 0x66, p := p, f := 0x01, d := d, a := a.setWidth 5, ty := ty.code } = _
  simp [decOp66, field?]
theorem Roundtrip.vredMax (p : Pred) (ty : Ty) (d : G) (a : V) : Roundtrip.Statement (.vredMax p ty d a) := by
  intro _ h
  show decOp66 { op := 0x66, p := p, f := 0x02, d := d, a := a.setWidth 5, ty := ty.code } = _
  simp [decOp66, field?]
theorem Roundtrip.vredAnd (p : Pred) (ty : Ty) (d : G) (a : V) : Roundtrip.Statement (.vredAnd p ty d a) := by
  intro _ h
  show decOp66 { op := 0x66, p := p, f := 0x03, d := d, a := a.setWidth 5, ty := ty.code } = _
  simp [decOp66, field?]
theorem Roundtrip.vredOr (p : Pred) (ty : Ty) (d : G) (a : V) : Roundtrip.Statement (.vredOr p ty d a) := by
  intro _ h
  show decOp66 { op := 0x66, p := p, f := 0x04, d := d, a := a.setWidth 5, ty := ty.code } = _
  simp [decOp66, field?]
theorem Roundtrip.vredXor (p : Pred) (ty : Ty) (d : G) (a : V) : Roundtrip.Statement (.vredXor p ty d a) := by
  intro _ h
  show decOp66 { op := 0x66, p := p, f := 0x05, d := d, a := a.setWidth 5, ty := ty.code } = _
  simp [decOp66, field?]
theorem Roundtrip.vperm (p : Pred) (ty : Ty) (d : V) (a : V) (b : V) (c : V) : Roundtrip.Statement (.vperm p ty d a b c) := by
  intro _ h
  show decOp67 { op := 0x67, p := p, d := d.setWidth 5, a := a.setWidth 5, b := b.setWidth 5, c := c.setWidth 5, ty := ty.code } = _
  simp [decOp67, field?]
theorem Roundtrip.vbcast (p : Pred) (ty : Ty) (d : V) (a : G) : Roundtrip.Statement (.vbcast p ty d a) := by
  intro _ h
  show decOp68 { op := 0x68, p := p, d := d.setWidth 5, a := a, ty := ty.code } = _
  simp [decOp68, field?]
theorem Roundtrip.vbcastLane (p : Pred) (ty : Ty) (d : V) (a : V) (idx : BitVec 5) : Roundtrip.Statement (.vbcastLane p ty d a idx) := by
  intro _ h
  show decOp68 { op := 0x68, p := p, f := 0x01, d := d.setWidth 5, a := a.setWidth 5, b := idx, ty := ty.code } = _
  simp [decOp68, field?]
theorem Roundtrip.vins (p : Pred) (ty : Ty) (d : V) (a : G) (idx : BitVec 5) : Roundtrip.Statement (.vins p ty d a idx) := by
  intro _ h
  show decOp69 { op := 0x69, p := p, d := d.setWidth 5, a := a, b := idx, ty := ty.code } = _
  simp [decOp69, field?]
theorem Roundtrip.vext (p : Pred) (ty : Ty) (d : G) (a : V) (idx : BitVec 5) : Roundtrip.Statement (.vext p ty d a idx) := by
  intro _ h
  show decOp6A { op := 0x6A, p := p, d := d, a := a.setWidth 5, b := idx, ty := ty.code } = _
  simp [decOp6A, field?]
theorem Roundtrip.vdot (p : Pred) (ty : Ty) (d : V) (a : V) (b : V) : Roundtrip.Statement (.vdot p ty d a b) := by
  intro _ h
  show decOp6B { op := 0x6B, p := p, d := d.setWidth 5, a := a.setWidth 5, b := b.setWidth 5, ty := ty.code } = _
  simp [decOp6B, field?]
theorem Roundtrip.vmov (p : Pred) (ty : Ty) (d : V) (a : V) : Roundtrip.Statement (.vmov p ty d a) := by
  intro _ h
  show decOp6C { op := 0x6C, p := p, d := d.setWidth 5, a := a.setWidth 5, ty := ty.code } = _
  simp [decOp6C, field?]
theorem Roundtrip.vmovZero (p : Pred) (ty : Ty) (d : V) : Roundtrip.Statement (.vmovZero p ty d) := by
  intro _ h
  show decOp6C { op := 0x6C, p := p, f := 0x01, d := d.setWidth 5, ty := ty.code } = _
  simp [decOp6C, field?]
theorem Roundtrip.vld (p : Pred) (n : La) (g : Bool) (d : V) (a : G) (disp : BitVec 32) : Roundtrip.Statement (.vld p n g d a disp) := by
  intro _ h
  show decOp70 { op := 0x70, p := p, q := n, d := d.setWidth 5, a := a, imm := disp.setWidth 64, f := (BitVec.ofBool g).setWidth 8 } = _
  simp [decOp70]
theorem Roundtrip.vst (p : Pred) (n : La) (g : Bool) (d : V) (a : G) (disp : BitVec 32) : Roundtrip.Statement (.vst p n g d a disp) := by
  intro _ h
  show decOp71 { op := 0x71, p := p, q := n, d := d.setWidth 5, a := a, imm := disp.setWidth 64, f := (BitVec.ofBool g).setWidth 8 } = _
  simp [decOp71]
theorem Roundtrip.vlds (p : Pred) (n : La) (ty : Ty) (d : V) (a : G) (b : G) : Roundtrip.Statement (.vlds p n ty d a b) := by
  intro _ h
  show decOp72 { op := 0x72, p := p, q := n, d := d.setWidth 5, a := a, b := b, ty := ty.code } = _
  simp [decOp72, field?]
theorem Roundtrip.vsts (p : Pred) (n : La) (ty : Ty) (d : V) (a : G) (b : G) : Roundtrip.Statement (.vsts p n ty d a b) := by
  intro _ h
  show decOp73 { op := 0x73, p := p, q := n, d := d.setWidth 5, a := a, b := b, ty := ty.code } = _
  simp [decOp73, field?]
theorem Roundtrip.vgath (p : Pred) (n : La) (ty : Ty) (sc : Bool) (d : V) (a : G) (b : V) : Roundtrip.Statement (.vgath p n ty sc d a b) := by
  intro _ h
  show decOp74 { op := 0x74, p := p, q := n, d := d.setWidth 5, a := a, b := b.setWidth 5, ty := ty.code, flags := 0#6 ++ BitVec.ofBool sc } = _
  simp [decOp74, field?]
theorem Roundtrip.vscat (p : Pred) (n : La) (ty : Ty) (sc : Bool) (d : V) (a : G) (b : V) : Roundtrip.Statement (.vscat p n ty sc d a b) := by
  intro _ h
  show decOp75 { op := 0x75, p := p, q := n, d := d.setWidth 5, a := a, b := b.setWidth 5, ty := ty.code, flags := 0#6 ++ BitVec.ofBool sc } = _
  simp [decOp75, field?]
theorem Roundtrip.vldb (p : Pred) (n : La) (d : V) (a : G) (disp : BitVec 32) : Roundtrip.Statement (.vldb p n d a disp) := by
  intro _ h
  show decOp76 { op := 0x76, p := p, q := n, d := d.setWidth 5, a := a, imm := disp.setWidth 64 } = _
  simp [decOp76]
theorem Roundtrip.vstb (p : Pred) (n : La) (d : V) (a : G) (disp : BitVec 32) : Roundtrip.Statement (.vstb p n d a disp) := by
  intro _ h
  show decOp77 { op := 0x77, p := p, q := n, d := d.setWidth 5, a := a, imm := disp.setWidth 64 } = _
  simp [decOp77]
theorem Roundtrip.copy (p : Pred) (o : CopyOpt) (a : G) (b : G) (c : G) : Roundtrip.Statement (.copy p o a b c) := by
  intro _ h
  show decOp80 { op := 0x80, p := p, a := a, b := b, c := c, imm := copyImm o 0 0 0 } = _
  simp [decOp80]
theorem Roundtrip.copys (p : Pred) (o : CopyOpt) (a : G) (b : G) (c : G) (e1 : G) (e2 : G) (e3 : G) : Roundtrip.Statement (.copys p o a b c e1 e2 e3) := by
  intro _ h
  show decOp81 { op := 0x81, p := p, a := a, b := b, c := c, imm := copyImm o e1 e2 e3 } = _
  simp [decOp81]
theorem Roundtrip.copygG (p : Pred) (o : CopyOpt) (a : G) (b : G) (c : G) (e1 : G) : Roundtrip.Statement (.copygG p o a b c e1) := by
  intro _ h
  show decOp82 { op := 0x82, p := p, a := a, b := b, c := c, imm := copyImm o e1 0 0 } = _
  simp [decOp82]
theorem Roundtrip.copygS (p : Pred) (o : CopyOpt) (a : G) (b : G) (c : G) (e1 : G) : Roundtrip.Statement (.copygS p o a b c e1) := by
  intro _ h
  show decOp82 { op := 0x82, p := p, f := 0x01, a := a, b := b, c := c, imm := copyImm o e1 0 0 } = _
  simp [decOp82]
theorem Roundtrip.cbatchOpen (p : Pred) : Roundtrip.Statement (.cbatchOpen p) := by
  intro _ h
  show decOp83 { op := 0x83, p := p } = _
  simp [decOp83]
theorem Roundtrip.cbatchClose (p : Pred) : Roundtrip.Statement (.cbatchClose p) := by
  intro _ h
  show decOp83 { op := 0x83, p := p, f := 0x01 } = _
  simp [decOp83]
theorem Roundtrip.cwait (p : Pred) (mask : BitVec 4) : Roundtrip.Statement (.cwait p mask) := by
  intro _ h
  show decOp84 { op := 0x84, p := p, flags := 0#3 ++ mask } = _
  simp [decOp84]
theorem Roundtrip.cbinit (p : Pred) (k : BitVec 2) (count : BitVec 32) : Roundtrip.Statement (.cbinit p k count) := by
  intro _ h
  show decOp85 { op := 0x85, p := p, flags := 0#5 ++ k, imm := count.setWidth 64 } = _
  simp [decOp85]
theorem Roundtrip.cbwait (p : Pred) (k : BitVec 2) : Roundtrip.Statement (.cbwait p k) := by
  intro _ h
  show decOp86 { op := 0x86, p := p, flags := 0#5 ++ k } = _
  simp [decOp86]
theorem Roundtrip.cqf (p : Pred) (a : G) : Roundtrip.Statement (.cqf p a) := by
  intro _ h
  show decOp87 { op := 0x87, p := p, a := a } = _
  simp [decOp87]
theorem Roundtrip.cstat (p : Pred) (d : G) : Roundtrip.Statement (.cstat p d) := by
  intro _ h
  show decOp88 { op := 0x88, p := p, d := d } = _
  simp [decOp88]
theorem Roundtrip.cstatBar (p : Pred) (k : BitVec 2) (d : G) : Roundtrip.Statement (.cstatBar p k d) := by
  intro _ h
  show decOp88 { op := 0x88, p := p, f := 0x01, d := d, flags := 0#5 ++ k } = _
  simp [decOp88]
theorem Roundtrip.tagl (p : Pred) (d : G) (a : G) : Roundtrip.Statement (.tagl p d a) := by
  intro _ h
  show decOp89 { op := 0x89, p := p, d := d, a := a } = _
  simp [decOp89]
theorem Roundtrip.taglG (p : Pred) (d : G) (a : G) (b : G) : Roundtrip.Statement (.taglG p d a b) := by
  intro _ h
  show decOp89 { op := 0x89, p := p, f := 0x01, d := d, a := a, b := b } = _
  simp [decOp89]
theorem Roundtrip.tags (p : Pred) (a : G) (b : G) (c : G) : Roundtrip.Statement (.tags p a b c) := by
  intro _ h
  show decOp8A { op := 0x8A, p := p, a := a, b := b, c := c } = _
  simp [decOp8A]
theorem Roundtrip.tagi (p : Pred) (a : G) : Roundtrip.Statement (.tagi p a) := by
  intro _ h
  show decOp8B { op := 0x8B, p := p, a := a } = _
  simp [decOp8B]
theorem Roundtrip.tagiAll (p : Pred) : Roundtrip.Statement (.tagiAll p) := by
  intro _ h
  show decOp8B { op := 0x8B, p := p, f := 0x01 } = _
  simp [decOp8B]
theorem Roundtrip.tagiBlk (p : Pred) (a : G) : Roundtrip.Statement (.tagiBlk p a) := by
  intro _ h
  show decOp8B { op := 0x8B, p := p, f := 0x02, a := a } = _
  simp [decOp8B]
theorem Roundtrip.mtask (p : Pred) (q : BitVec 3) (d : G) (a : G) : Roundtrip.Statement (.mtask p q d a) := by
  intro _ h
  show decOp90 { op := 0x90, p := p, d := d, a := a, flags := 0#4 ++ q } = _
  simp [decOp90]
theorem Roundtrip.mtqry (p : Pred) (d : G) (a : G) : Roundtrip.Statement (.mtqry p d a) := by
  intro _ h
  show decOp91 { op := 0x91, p := p, d := d, a := a } = _
  simp [decOp91]
theorem Roundtrip.mtqryQ (p : Pred) (d : G) : Roundtrip.Statement (.mtqryQ p d) := by
  intro _ h
  show decOp91 { op := 0x91, p := p, f := 0x01, d := d } = _
  simp [decOp91]
theorem Roundtrip.mtcan (p : Pred) (d : G) (a : G) : Roundtrip.Statement (.mtcan p d a) := by
  intro _ h
  show decOp92 { op := 0x92, p := p, d := d, a := a } = _
  simp [decOp92]
theorem Roundtrip.lyrinit (p : Pred) (d : G) (a : G) (b : G) : Roundtrip.Statement (.lyrinit p d a b) := by
  intro _ h
  show decOp94 { op := 0x94, p := p, d := d, a := a, b := b } = _
  simp [decOp94]
theorem Roundtrip.lyrq (p : Pred) (d : G) (a : G) (b : G) : Roundtrip.Statement (.lyrq p d a b) := by
  intro _ h
  show decOp95 { op := 0x95, p := p, d := d, a := a, b := b } = _
  simp [decOp95]
theorem Roundtrip.lyrqX (p : Pred) (d : G) (b : G) : Roundtrip.Statement (.lyrqX p d b) := by
  intro _ h
  show decOp95 { op := 0x95, p := p, f := 0x01, d := d, b := b } = _
  simp [decOp95]
theorem Roundtrip.lyrqW (p : Pred) (d : G) (b : G) : Roundtrip.Statement (.lyrqW p d b) := by
  intro _ h
  show decOp95 { op := 0x95, p := p, f := 0x02, d := d, b := b } = _
  simp [decOp95]
theorem Roundtrip.lyrref (p : Pred) (d : G) (a : G) : Roundtrip.Statement (.lyrref p d a) := by
  intro _ h
  show decOp96 { op := 0x96, p := p, d := d, a := a } = _
  simp [decOp96]
theorem Roundtrip.lyrdrop (p : Pred) (d : G) (a : G) : Roundtrip.Statement (.lyrdrop p d a) := by
  intro _ h
  show decOp97 { op := 0x97, p := p, d := d, a := a } = _
  simp [decOp97]
theorem Roundtrip.fence (p : Pred) (scope : Scope) (order : Order) : Roundtrip.Statement (.fence p scope order) := by
  intro _ h
  show decOpA0 { op := 0xA0, p := p, scope := scope, order := order } = _
  simp [decOpA0]
theorem Roundtrip.bar (p : Pred) (k : BitVec 2) : Roundtrip.Statement (.bar p k) := by
  intro _ h
  show decOpA1 { op := 0xA1, p := p, flags := 0#5 ++ k } = _
  simp [decOpA1]
theorem Roundtrip.barComb (p : Pred) (k : BitVec 2) (a : G) : Roundtrip.Statement (.barComb p k a) := by
  intro _ h
  show decOpA1 { op := 0xA1, p := p, f := 0x01, a := a, flags := 0#5 ++ k } = _
  simp [decOpA1]
theorem Roundtrip.trig (p : Pred) : Roundtrip.Statement (.trig p) := by
  intro _ h
  show decOpA2 { op := 0xA2, p := p } = _
  simp [decOpA2]
theorem Roundtrip.waitl (p : Pred) (host : Bool) (d : G) (a : G) (b : G) : Roundtrip.Statement (.waitl p host d a b) := by
  intro _ h
  show decOpA3 { op := 0xA3, p := p, d := d, a := a, b := b, flags := 0#6 ++ BitVec.ofBool host } = _
  simp [decOpA3]
theorem Roundtrip.waitlDl (p : Pred) (host : Bool) (d : G) (a : G) (b : G) (c : G) : Roundtrip.Statement (.waitlDl p host d a b c) := by
  intro _ h
  show decOpA3 { op := 0xA3, p := p, f := 0x01, d := d, a := a, b := b, c := c, flags := 0#6 ++ BitVec.ofBool host } = _
  simp [decOpA3]
theorem Roundtrip.sleep (p : Pred) (d : G) (a : G) : Roundtrip.Statement (.sleep p d a) := by
  intro _ h
  show decOpA4 { op := 0xA4, p := p, d := d, a := a } = _
  simp [decOpA4]
theorem Roundtrip.sleepM (p : Pred) (d : G) (a : G) : Roundtrip.Statement (.sleepM p d a) := by
  intro _ h
  show decOpA4 { op := 0xA4, p := p, f := 0x01, d := d, a := a } = _
  simp [decOpA4]
theorem Roundtrip.yield (p : Pred) : Roundtrip.Statement (.yield p) := by
  intro _ h
  show decOpA5 { op := 0xA5, p := p } = _
  simp [decOpA5]
theorem Roundtrip.spawn (p : Pred) (pin : Bool) (a : G) : Roundtrip.Statement (.spawn p pin a) := by
  intro _ h
  show decOpB0 { op := 0xB0, p := p, a := a, flags := 0#6 ++ BitVec.ofBool pin } = _
  simp [decOpB0]
theorem Roundtrip.tpop (p : Pred) (d : G) : Roundtrip.Statement (.tpop p d) := by
  intro _ h
  show decOpB1 { op := 0xB1, p := p, d := d } = _
  simp [decOpB1]
theorem Roundtrip.tstart (p : Pred) (d : G) (a : G) (b : G) (c : G) : Roundtrip.Statement (.tstart p d a b c) := by
  intro _ h
  show decOpB2 { op := 0xB2, p := p, d := d, a := a, b := b, c := c } = _
  simp [decOpB2]
theorem Roundtrip.treap (p : Pred) (d : G) (a : G) : Roundtrip.Statement (.treap p d a) := by
  intro _ h
  show decOpB3 { op := 0xB3, p := p, d := d, a := a } = _
  simp [decOpB3]
theorem Roundtrip.texit (p : Pred) : Roundtrip.Statement (.texit p) := by
  intro _ h
  show decOpB4 { op := 0xB4, p := p } = _
  simp [decOpB4]
theorem Roundtrip.rqpush (p : Pred) (a : G) (b : G) : Roundtrip.Statement (.rqpush p a b) := by
  intro _ h
  show decOpB5 { op := 0xB5, p := p, a := a, b := b } = _
  simp [decOpB5]
theorem Roundtrip.rqpushCore (p : Pred) (a : G) (b : G) (c : G) : Roundtrip.Statement (.rqpushCore p a b c) := by
  intro _ h
  show decOpB5 { op := 0xB5, p := p, f := 0x01, a := a, b := b, c := c } = _
  simp [decOpB5]
theorem Roundtrip.rqpop (p : Pred) (d : G) : Roundtrip.Statement (.rqpop p d) := by
  intro _ h
  show decOpB6 { op := 0xB6, p := p, d := d } = _
  simp [decOpB6]
theorem Roundtrip.rqpopP (p : Pred) (d : G) (a : G) : Roundtrip.Statement (.rqpopP p d a) := by
  intro _ h
  show decOpB6 { op := 0xB6, p := p, f := 0x01, d := d, a := a } = _
  simp [decOpB6]
theorem Roundtrip.rqpopCnt (p : Pred) (d : G) : Roundtrip.Statement (.rqpopCnt p d) := by
  intro _ h
  show decOpB6 { op := 0xB6, p := p, f := 0x02, d := d } = _
  simp [decOpB6]
theorem Roundtrip.preempt (p : Pred) (d : G) (a : G) (b : G) : Roundtrip.Statement (.preempt p d a b) := by
  intro _ h
  show decOpB7 { op := 0xB7, p := p, d := d, a := a, b := b } = _
  simp [decOpB7]
theorem Roundtrip.preemptQ (p : Pred) (d : G) (a : G) : Roundtrip.Statement (.preemptQ p d a) := by
  intro _ h
  show decOpB7 { op := 0xB7, p := p, f := 0x01, d := d, a := a } = _
  simp [decOpB7]
theorem Roundtrip.evac (p : Pred) (d : G) (a : G) (b : G) : Roundtrip.Statement (.evac p d a b) := by
  intro _ h
  show decOpB8 { op := 0xB8, p := p, d := d, a := a, b := b } = _
  simp [decOpB8]
theorem Roundtrip.send (p : Pred) (st : Bool) (en : Bool) (a : G) (b : Pair) : Roundtrip.Statement (.send p st en a b) := by
  intro _ h
  show decOpB9 { op := 0xB9, p := p, a := a, b := (0#1 ++ b ++ 0#1), flags := 0#5 ++ BitVec.ofBool en ++ BitVec.ofBool st } = _
  simp [decOpB9]
theorem Roundtrip.recv (p : Pred) (d : Pair) (c : G) : Roundtrip.Statement (.recv p d c) := by
  intro _ h
  show decOpBA { op := 0xBA, p := p, d := (0#1 ++ d ++ 0#1), c := c } = _
  simp [decOpBA]
theorem Roundtrip.recvT (p : Pred) (d : Pair) (c : G) : Roundtrip.Statement (.recvT p d c) := by
  intro _ h
  show decOpBA { op := 0xBA, p := p, f := 0x01, d := (0#1 ++ d ++ 0#1), c := c } = _
  simp [decOpBA]
theorem Roundtrip.timer (p : Pred) (a : G) : Roundtrip.Statement (.timer p a) := by
  intro _ h
  show decOpBB { op := 0xBB, p := p, a := a } = _
  simp [decOpBB]
theorem Roundtrip.timerRel (p : Pred) (a : G) : Roundtrip.Statement (.timerRel p a) := by
  intro _ h
  show decOpBB { op := 0xBB, p := p, f := 0x01, a := a } = _
  simp [decOpBB]
theorem Roundtrip.timerOff (p : Pred) : Roundtrip.Statement (.timerOff p) := by
  intro _ h
  show decOpBB { op := 0xBB, p := p, f := 0x02 } = _
  simp [decOpBB]
theorem Roundtrip.trap (p : Pred) (code : BitVec 32) : Roundtrip.Statement (.trap p code) := by
  intro _ h
  show decOpC0 { op := 0xC0, p := p, imm := code.setWidth 64 } = _
  simp [decOpC0]
theorem Roundtrip.eret (p : Pred) : Roundtrip.Statement (.eret p) := by
  intro _ h
  show decOpC1 { op := 0xC1, p := p } = _
  simp [decOpC1]
theorem Roundtrip.eretNext (p : Pred) : Roundtrip.Statement (.eretNext p) := by
  intro _ h
  show decOpC1 { op := 0xC1, p := p, f := 0x01 } = _
  simp [decOpC1]
theorem Roundtrip.movsRead (p : Pred) (d : G) (sr : BitVec 7) : Roundtrip.Statement (.movsRead p d sr) := by
  intro _ h
  show decOpC2 { op := 0xC2, p := p, d := d, flags := sr } = _
  simp [decOpC2]
theorem Roundtrip.movsWrite (p : Pred) (sr : BitVec 7) (a : G) : Roundtrip.Statement (.movsWrite p sr a) := by
  intro _ h
  show decOpC2 { op := 0xC2, p := p, f := 0x01, a := a, flags := sr } = _
  simp [decOpC2]
theorem Roundtrip.movcRead (p : Pred) (d : G) (sr : BitVec 7) : Roundtrip.Statement (.movcRead p d sr) := by
  intro _ h
  show decOpC3 { op := 0xC3, p := p, d := d, flags := sr } = _
  simp [decOpC3]
theorem Roundtrip.movcWrite (p : Pred) (sr : BitVec 7) (a : G) : Roundtrip.Statement (.movcWrite p sr a) := by
  intro _ h
  show decOpC3 { op := 0xC3, p := p, f := 0x01, a := a, flags := sr } = _
  simp [decOpC3]
theorem Roundtrip.tlbiVa (p : Pred) (a : G) (b : G) : Roundtrip.Statement (.tlbiVa p a b) := by
  intro _ h
  show decOpC4 { op := 0xC4, p := p, a := a, b := b } = _
  simp [decOpC4]
theorem Roundtrip.tlbiAsid (p : Pred) (b : G) : Roundtrip.Statement (.tlbiAsid p b) := by
  intro _ h
  show decOpC4 { op := 0xC4, p := p, f := 0x01, b := b } = _
  simp [decOpC4]
theorem Roundtrip.tlbiAll (p : Pred) : Roundtrip.Statement (.tlbiAll p) := by
  intro _ h
  show decOpC4 { op := 0xC4, p := p, f := 0x02 } = _
  simp [decOpC4]
theorem Roundtrip.tlbsync (p : Pred) : Roundtrip.Statement (.tlbsync p) := by
  intro _ h
  show decOpC5 { op := 0xC5, p := p } = _
  simp [decOpC5]
theorem Roundtrip.fltrd (p : Pred) (d : G) (a : G) (b : G) : Roundtrip.Statement (.fltrd p d a b) := by
  intro _ h
  show decOpC6 { op := 0xC6, p := p, d := d, a := a, b := b } = _
  simp [decOpC6]
theorem Roundtrip.fltrpl (p : Pred) (a : G) (b : G) : Roundtrip.Statement (.fltrpl p a b) := by
  intro _ h
  show decOpC7 { op := 0xC7, p := p, a := a, b := b } = _
  simp [decOpC7]
theorem Roundtrip.emur (p : Pred) (d : G) (a : G) (b : G) : Roundtrip.Statement (.emur p d a b) := by
  intro _ h
  show decOpC8 { op := 0xC8, p := p, d := d, a := a, b := b } = _
  simp [decOpC8]
theorem Roundtrip.emuw (p : Pred) (a : G) (b : G) (c : G) : Roundtrip.Statement (.emuw p a b c) := by
  intro _ h
  show decOpC9 { op := 0xC9, p := p, a := a, b := b, c := c } = _
  simp [decOpC9]
theorem Roundtrip.holdt (p : Pred) (d : G) (a : G) : Roundtrip.Statement (.holdt p d a) := by
  intro _ h
  show decOpCA { op := 0xCA, p := p, d := d, a := a } = _
  simp [decOpCA]
theorem Roundtrip.resumet (p : Pred) (d : G) (a : G) : Roundtrip.Statement (.resumet p d a) := by
  intro _ h
  show decOpCB { op := 0xCB, p := p, d := d, a := a } = _
  simp [decOpCB]
theorem Roundtrip.snap (p : Pred) : Roundtrip.Statement (.snap p) := by
  intro _ h
  show decOpCC { op := 0xCC, p := p } = _
  simp [decOpCC]
theorem Roundtrip.cntrd (p : Pred) (d : G) (a : G) : Roundtrip.Statement (.cntrd p d a) := by
  intro _ h
  show decOpCD { op := 0xCD, p := p, d := d, a := a } = _
  simp [decOpCD]
theorem Roundtrip.cntclr (p : Pred) (a : G) : Roundtrip.Statement (.cntclr p a) := by
  intro _ h
  show decOpCD { op := 0xCD, p := p, f := 0x01, a := a } = _
  simp [decOpCD]
theorem Roundtrip.waym (p : Pred) (d : G) (a : G) : Roundtrip.Statement (.waym p d a) := by
  intro _ h
  show decOpCE { op := 0xCE, p := p, d := d, a := a } = _
  simp [decOpCE]
theorem Roundtrip.sgway (p : Pred) (d : G) (a : G) : Roundtrip.Statement (.sgway p d a) := by
  intro _ h
  show decOpCF { op := 0xCF, p := p, d := d, a := a } = _
  simp [decOpCF]
theorem Roundtrip.illegalEncoding : Roundtrip.Statement (.illegalEncoding) := fun h => Bool.noConfusion h
theorem Roundtrip.emulationRequest : Roundtrip.Statement (.emulationRequest) := fun h => Bool.noConfusion h
theorem Roundtrip.fetchBlockFill : Roundtrip.Statement (.fetchBlockFill) := fun h => Bool.noConfusion h
theorem Roundtrip.longLatencyComplete : Roundtrip.Statement (.longLatencyComplete) := fun h => Bool.noConfusion h
theorem Roundtrip.bankAccess : Roundtrip.Statement (.bankAccess) := fun h => Bool.noConfusion h
theorem Roundtrip.suspension : Roundtrip.Statement (.suspension) := fun h => Bool.noConfusion h
theorem Roundtrip.waiterRetry : Roundtrip.Statement (.waiterRetry) := fun h => Bool.noConfusion h
theorem Roundtrip.blockReadAtHome : Roundtrip.Statement (.blockReadAtHome) := fun h => Bool.noConfusion h
theorem Roundtrip.blockWriteGranule : Roundtrip.Statement (.blockWriteGranule) := fun h => Bool.noConfusion h
theorem Roundtrip.blockFillRelease : Roundtrip.Statement (.blockFillRelease) := fun h => Bool.noConfusion h
theorem Roundtrip.drainDescriptor : Roundtrip.Statement (.drainDescriptor) := fun h => Bool.noConfusion h
theorem Roundtrip.clrAtHome : Roundtrip.Statement (.clrAtHome) := fun h => Bool.noConfusion h
theorem Roundtrip.watchIncrement : Roundtrip.Statement (.watchIncrement) := fun h => Bool.noConfusion h
theorem Roundtrip.deferredTrapReport : Roundtrip.Statement (.deferredTrapReport) := fun h => Bool.noConfusion h
theorem Roundtrip.trapDelivery : Roundtrip.Statement (.trapDelivery) := fun h => Bool.noConfusion h
theorem Roundtrip.dispatch : Roundtrip.Statement (.dispatch) := fun h => Bool.noConfusion h
theorem Roundtrip.steal : Roundtrip.Statement (.steal) := fun h => Bool.noConfusion h
theorem Roundtrip.dispatchRetry : Roundtrip.Statement (.dispatchRetry) := fun h => Bool.noConfusion h
theorem Roundtrip.ringRefill : Roundtrip.Statement (.ringRefill) := fun h => Bool.noConfusion h
theorem Roundtrip.groupLoadRefresh : Roundtrip.Statement (.groupLoadRefresh) := fun h => Bool.noConfusion h
theorem Roundtrip.pushBalance : Roundtrip.Statement (.pushBalance) := fun h => Bool.noConfusion h
theorem Roundtrip.wakeMessage : Roundtrip.Statement (.wakeMessage) := fun h => Bool.noConfusion h
theorem Roundtrip.resumeContinuation : Roundtrip.Statement (.resumeContinuation) := fun h => Bool.noConfusion h
theorem Roundtrip.launchTableFill : Roundtrip.Statement (.launchTableFill) := fun h => Bool.noConfusion h
theorem Roundtrip.launchAccept : Roundtrip.Statement (.launchAccept) := fun h => Bool.noConfusion h
theorem Roundtrip.gangPlace : Roundtrip.Statement (.gangPlace) := fun h => Bool.noConfusion h
theorem Roundtrip.gangOffer : Roundtrip.Statement (.gangOffer) := fun h => Bool.noConfusion h
theorem Roundtrip.triggerWrite : Roundtrip.Statement (.triggerWrite) := fun h => Bool.noConfusion h
theorem Roundtrip.completionWrite : Roundtrip.Statement (.completionWrite) := fun h => Bool.noConfusion h
theorem Roundtrip.postedAck : Roundtrip.Statement (.postedAck) := fun h => Bool.noConfusion h
theorem Roundtrip.preemptTakeEffect : Roundtrip.Statement (.preemptTakeEffect) := fun h => Bool.noConfusion h
theorem Roundtrip.saveWrite : Roundtrip.Statement (.saveWrite) := fun h => Bool.noConfusion h
theorem Roundtrip.restore : Roundtrip.Statement (.restore) := fun h => Bool.noConfusion h
theorem Roundtrip.haltTakeEffect : Roundtrip.Statement (.haltTakeEffect) := fun h => Bool.noConfusion h
theorem Roundtrip.holdtTimeout : Roundtrip.Statement (.holdtTimeout) := fun h => Bool.noConfusion h
theorem Roundtrip.deadlockDeclare : Roundtrip.Statement (.deadlockDeclare) := fun h => Bool.noConfusion h
theorem Roundtrip.timerFire : Roundtrip.Statement (.timerFire) := fun h => Bool.noConfusion h
theorem Roundtrip.sleepDeadline : Roundtrip.Statement (.sleepDeadline) := fun h => Bool.noConfusion h
theorem Roundtrip.waitlWake : Roundtrip.Statement (.waitlWake) := fun h => Bool.noConfusion h
theorem Roundtrip.waitlPoll : Roundtrip.Statement (.waitlPoll) := fun h => Bool.noConfusion h
theorem Roundtrip.barrierResume : Roundtrip.Statement (.barrierResume) := fun h => Bool.noConfusion h
theorem Roundtrip.mailboxArrival : Roundtrip.Statement (.mailboxArrival) := fun h => Bool.noConfusion h
theorem Roundtrip.gangStartRecord : Roundtrip.Statement (.gangStartRecord) := fun h => Bool.noConfusion h
theorem Roundtrip.supervisorNotice : Roundtrip.Statement (.supervisorNotice) := fun h => Bool.noConfusion h
theorem Roundtrip.copyAdmit : Roundtrip.Statement (.copyAdmit) := fun h => Bool.noConfusion h
theorem Roundtrip.copyBeat : Roundtrip.Statement (.copyBeat) := fun h => Bool.noConfusion h
theorem Roundtrip.copyCommandComplete : Roundtrip.Statement (.copyCommandComplete) := fun h => Bool.noConfusion h
theorem Roundtrip.copyCommandEnd : Roundtrip.Statement (.copyCommandEnd) := fun h => Bool.noConfusion h
theorem Roundtrip.taskAccept : Roundtrip.Statement (.taskAccept) := fun h => Bool.noConfusion h
theorem Roundtrip.taskPresenceCheck : Roundtrip.Statement (.taskPresenceCheck) := fun h => Bool.noConfusion h
theorem Roundtrip.taskIssue : Roundtrip.Statement (.taskIssue) := fun h => Bool.noConfusion h
theorem Roundtrip.configurationChange : Roundtrip.Statement (.configurationChange) := fun h => Bool.noConfusion h
theorem Roundtrip.taskKstep : Roundtrip.Statement (.taskKstep) := fun h => Bool.noConfusion h
theorem Roundtrip.taskDWrite : Roundtrip.Statement (.taskDWrite) := fun h => Bool.noConfusion h
theorem Roundtrip.taskComplete : Roundtrip.Statement (.taskComplete) := fun h => Bool.noConfusion h
theorem Roundtrip.taskEndError : Roundtrip.Statement (.taskEndError) := fun h => Bool.noConfusion h
theorem Roundtrip.taskFault : Roundtrip.Statement (.taskFault) := fun h => Bool.noConfusion h
theorem Roundtrip.graftInvocation : Roundtrip.Statement (.graftInvocation) := fun h => Bool.noConfusion h
theorem Roundtrip.graftRestart : Roundtrip.Statement (.graftRestart) := fun h => Bool.noConfusion h
theorem Roundtrip.graftCommit : Roundtrip.Statement (.graftCommit) := fun h => Bool.noConfusion h
theorem Roundtrip.faultPost : Roundtrip.Statement (.faultPost) := fun h => Bool.noConfusion h
theorem Roundtrip.faultTableRetry : Roundtrip.Statement (.faultTableRetry) := fun h => Bool.noConfusion h
theorem Roundtrip.faultReplay : Roundtrip.Statement (.faultReplay) := fun h => Bool.noConfusion h
theorem Roundtrip.walk : Roundtrip.Statement (.walk) := fun h => Bool.noConfusion h
theorem Roundtrip.remoteRequest : Roundtrip.Statement (.remoteRequest) := fun h => Bool.noConfusion h
theorem Roundtrip.remoteRetry : Roundtrip.Statement (.remoteRetry) := fun h => Bool.noConfusion h
theorem Roundtrip.remoteTokenWake : Roundtrip.Statement (.remoteTokenWake) := fun h => Bool.noConfusion h
theorem Roundtrip.farAtomic : Roundtrip.Statement (.farAtomic) := fun h => Bool.noConfusion h
theorem Roundtrip.scrub : Roundtrip.Statement (.scrub) := fun h => Bool.noConfusion h
theorem Roundtrip.routerFailure : Roundtrip.Statement (.routerFailure) := fun h => Bool.noConfusion h
theorem Roundtrip.routingTableLoad : Roundtrip.Statement (.routingTableLoad) := fun h => Bool.noConfusion h
theorem Roundtrip.rds : Roundtrip.Statement (.rds) := fun h => Bool.noConfusion h
theorem Roundtrip.rdx : Roundtrip.Statement (.rdx) := fun h => Bool.noConfusion h
theorem Roundtrip.upg : Roundtrip.Statement (.upg) := fun h => Bool.noConfusion h
theorem Roundtrip.wbd : Roundtrip.Statement (.wbd) := fun h => Bool.noConfusion h
theorem Roundtrip.inv : Roundtrip.Statement (.inv) := fun h => Bool.noConfusion h
theorem Roundtrip.fwds : Roundtrip.Statement (.fwds) := fun h => Bool.noConfusion h
theorem Roundtrip.fwdx : Roundtrip.Statement (.fwdx) := fun h => Bool.noConfusion h
theorem Roundtrip.invack : Roundtrip.Statement (.invack) := fun h => Bool.noConfusion h
theorem Roundtrip.data : Roundtrip.Statement (.data) := fun h => Bool.noConfusion h
theorem Roundtrip.datax : Roundtrip.Statement (.datax) := fun h => Bool.noConfusion h
theorem Roundtrip.cmpMsg : Roundtrip.Statement (.cmpMsg) := fun h => Bool.noConfusion h
theorem Roundtrip.memrdData : Roundtrip.Statement (.memrdData) := fun h => Bool.noConfusion h
theorem Roundtrip.memwrAck : Roundtrip.Statement (.memwrAck) := fun h => Bool.noConfusion h
theorem Roundtrip.snoopFilterEvict : Roundtrip.Statement (.snoopFilterEvict) := fun h => Bool.noConfusion h
theorem Roundtrip.directoryRecall : Roundtrip.Statement (.directoryRecall) := fun h => Bool.noConfusion h
theorem Roundtrip.sliceFailure : Roundtrip.Statement (.sliceFailure) := fun h => Bool.noConfusion h
theorem Roundtrip.censusQuery : Roundtrip.Statement (.censusQuery) := fun h => Bool.noConfusion h
theorem Roundtrip.censusReport : Roundtrip.Statement (.censusReport) := fun h => Bool.noConfusion h
theorem Roundtrip.censusEnd : Roundtrip.Statement (.censusEnd) := fun h => Bool.noConfusion h
theorem Roundtrip.containment : Roundtrip.Statement (.containment) := fun h => Bool.noConfusion h
theorem Roundtrip.agentAnswerTimeout : Roundtrip.Statement (.agentAnswerTimeout) := fun h => Bool.noConfusion h
theorem Roundtrip.containmentNotice : Roundtrip.Statement (.containmentNotice) := fun h => Bool.noConfusion h
theorem Roundtrip.agentRejoin : Roundtrip.Statement (.agentRejoin) := fun h => Bool.noConfusion h
theorem Roundtrip.flitReceive : Roundtrip.Statement (.flitReceive) := fun h => Bool.noConfusion h
theorem Roundtrip.linkNak : Roundtrip.Statement (.linkNak) := fun h => Bool.noConfusion h
theorem Roundtrip.linkDown : Roundtrip.Statement (.linkDown) := fun h => Bool.noConfusion h
theorem Roundtrip.reserve : Roundtrip.Statement (.reserve) := fun h => Bool.noConfusion h
theorem Roundtrip.rack : Roundtrip.Statement (.rack) := fun h => Bool.noConfusion h
theorem Roundtrip.rnak : Roundtrip.Statement (.rnak) := fun h => Bool.noConfusion h
theorem Roundtrip.release : Roundtrip.Statement (.release) := fun h => Bool.noConfusion h
theorem Roundtrip.go : Roundtrip.Statement (.go) := fun h => Bool.noConfusion h
theorem Roundtrip.started : Roundtrip.Statement (.started) := fun h => Bool.noConfusion h
theorem Roundtrip.startedTimeout : Roundtrip.Statement (.startedTimeout) := fun h => Bool.noConfusion h
theorem Roundtrip.halt : Roundtrip.Statement (.halt) := fun h => Bool.noConfusion h
theorem Roundtrip.trigMessage : Roundtrip.Statement (.trigMessage) := fun h => Bool.noConfusion h
theorem Roundtrip.done : Roundtrip.Statement (.done) := fun h => Bool.noConfusion h
theorem Roundtrip.apertureRead : Roundtrip.Statement (.apertureRead) := fun h => Bool.noConfusion h
theorem Roundtrip.apertureWrite : Roundtrip.Statement (.apertureWrite) := fun h => Bool.noConfusion h
theorem Roundtrip.apertureFaultTimeout : Roundtrip.Statement (.apertureFaultTimeout) := fun h => Bool.noConfusion h
theorem Roundtrip.pcieUnsupported : Roundtrip.Statement (.pcieUnsupported) := fun h => Bool.noConfusion h
theorem Roundtrip.qcreate : Roundtrip.Statement (.qcreate) := fun h => Bool.noConfusion h
theorem Roundtrip.qdestroy : Roundtrip.Statement (.qdestroy) := fun h => Bool.noConfusion h
theorem Roundtrip.queueFetch : Roundtrip.Statement (.queueFetch) := fun h => Bool.noConfusion h
theorem Roundtrip.startRecord : Roundtrip.Statement (.startRecord) := fun h => Bool.noConfusion h
theorem Roundtrip.partitionControl : Roundtrip.Statement (.partitionControl) := fun h => Bool.noConfusion h
theorem Roundtrip.registerWrite : Roundtrip.Statement (.registerWrite) := fun h => Bool.noConfusion h
theorem Roundtrip.debugSelect : Roundtrip.Statement (.debugSelect) := fun h => Bool.noConfusion h
theorem Roundtrip.coldReset : Roundtrip.Statement (.coldReset) := fun h => Bool.noConfusion h
theorem Roundtrip.partitionReset : Roundtrip.Statement (.partitionReset) := fun h => Bool.noConfusion h
theorem Roundtrip.lifeCycleChange : Roundtrip.Statement (.lifeCycleChange) := fun h => Bool.noConfusion h
theorem Roundtrip.wipeDone : Roundtrip.Statement (.wipeDone) := fun h => Bool.noConfusion h
theorem Roundtrip.firmwareVerify : Roundtrip.Statement (.firmwareVerify) := fun h => Bool.noConfusion h
theorem Roundtrip.recoveryLoad : Roundtrip.Statement (.recoveryLoad) := fun h => Bool.noConfusion h
theorem Roundtrip.attestationRequest : Roundtrip.Statement (.attestationRequest) := fun h => Bool.noConfusion h
theorem Roundtrip.cxlDynamicCapacity : Roundtrip.Statement (.cxlDynamicCapacity) := fun h => Bool.noConfusion h
theorem Roundtrip.powerLimit : Roundtrip.Statement (.powerLimit) := fun h => Bool.noConfusion h
theorem Roundtrip.powerLimitClear : Roundtrip.Statement (.powerLimitClear) := fun h => Bool.noConfusion h
theorem Roundtrip.overtemperature : Roundtrip.Statement (.overtemperature) := fun h => Bool.noConfusion h
theorem Roundtrip.channelHalfWidth : Roundtrip.Statement (.channelHalfWidth) := fun h => Bool.noConfusion h
theorem Roundtrip.snapIn : Roundtrip.Statement (.snapIn) := fun h => Bool.noConfusion h
theorem Roundtrip.snapshotThreshold : Roundtrip.Statement (.snapshotThreshold) := fun h => Bool.noConfusion h
theorem Roundtrip.snapshotLatch : Roundtrip.Statement (.snapshotLatch) := fun h => Bool.noConfusion h
theorem Roundtrip.machineCheck : Roundtrip.Statement (.machineCheck) := fun h => Bool.noConfusion h
theorem Roundtrip.meshCreditReturn : Roundtrip.Statement (.meshCreditReturn) := fun h => Bool.noConfusion h
theorem Roundtrip.probeEcho : Roundtrip.Statement (.probeEcho) := fun h => Bool.noConfusion h
theorem Roundtrip.evacAcknowledged : Roundtrip.Statement (.evacAcknowledged) := fun h => Bool.noConfusion h
theorem Roundtrip.tlbiTakesEffect : Roundtrip.Statement (.tlbiTakesEffect) := fun h => Bool.noConfusion h
theorem Roundtrip.emulationRoundTrip : Roundtrip.Statement (.emulationRoundTrip) := fun h => Bool.noConfusion h
theorem Roundtrip.graftTableAccessReturn : Roundtrip.Statement (.graftTableAccessReturn) := fun h => Bool.noConfusion h
theorem Roundtrip.storeWipeDone : Roundtrip.Statement (.storeWipeDone) := fun h => Bool.noConfusion h
theorem Roundtrip.haltAnswer : Roundtrip.Statement (.haltAnswer) := fun h => Bool.noConfusion h
theorem Roundtrip.channelFullWidth : Roundtrip.Statement (.channelFullWidth) := fun h => Bool.noConfusion h

end Sys2Proof.Laws
end

