-- ==== Sys2Proof/Tests/Slice0.lean ====
section
/-! SUPPORT. The model's own tests, and for every obligation with hypotheses a state and operands that meet them. -/
namespace Sys2Proof.Tests
open Sys2Proof Sys2Proof.Machine

set_option Elab.async false

/-! ## Encodings

The words are put together from the bit positions of 07 Tables 7-2 to 7-5 and the opcodes and minors of the chapters'
encoding tables, one word at least for every instruction. -/

/-- A format A word: major, minor, D, A, B. -/
def fa (op f d a b : Nat) (c ty sc ord fl q p : Nat := 0) : Nat :=
  1 + op * 2 ^ 2 + q * 2 ^ 10 + p * 2 ^ 14 + d * 2 ^ 18 + a * 2 ^ 23 + b * 2 ^ 28 + f * 2 ^ 33 + c * 2 ^ 41 + ty * 2 ^ 46 +
    sc * 2 ^ 52 + ord * 2 ^ 55 + fl * 2 ^ 57
/-- A format I word: major, minor, D, A, imm32. -/
def fi (op f d a imm : Nat) (q p : Nat := 0) : Nat :=
  1 + op * 2 ^ 2 + q * 2 ^ 10 + p * 2 ^ 14 + d * 2 ^ 18 + a * 2 ^ 23 + f * 2 ^ 28 + imm * 2 ^ 32
/-- A format W word is a format A word of length code 2 with an imm32 above it, a format E word one of 3 with 64 bits. -/
def fw (w imm : Nat) : Nat := w + 1 + imm * 2 ^ 64
def fe (w hi : Nat) : Nat := w + 2 + hi * 2 ^ 64
/-- Each word decodes to its instruction. -/
abbrev Decodes (n : Nat) (l : List (Nat × Instr)) : Prop := ∀ e ∈ l, decodeTableWord n e.1 = some e.2

/-- 11 R151, Table 11-1. -/
theorem test_decode_control : Decodes 64 [
    (fi 0x00 0 0 0 7, .nop 0 7), (fi 0x01 0 0 0 0xFFFFFFF0, .bra 0 0xFFFFFFF0), (fa 0x02 0 0 3 0, .jmp 0 3),
    (fi 0x03 0 0 0 64 (p := 0xA), .call 0xA 64), (fa 0x04 0 0 3 0, .callr 0 3), (fa 0x05 0 0 30 0, .ret 0 30)] ∧
  Decodes 96 [(fw (fa 0x06 2 0 5 6) 0x20, .brc 0 .lt .x64 5 6 0x20),
    (fw (fa 0x06 9 0 5 6 (ty := 3)) 0x80000000, .brc 0 .gtu .s32 5 6 0x80000000)] := by decide +kernel

/-- 11 R154, Table 11-3. -/
theorem test_decode_alu : Decodes 64 [
    (fa 0x10 0x00 1 2 3, .aluAdd 0 .x64 1 2 3), (fa 0x10 0x01 1 2 3 (ty := 3), .aluSub 0 .s32 1 2 3),
    (fa 0x10 0x02 1 2 3 (ty := 7), .aluAnd 0 .z32 1 2 3), (fa 0x10 0x03 1 2 3, .aluOr 0 .x64 1 2 3),
    (fa 0x10 0x04 1 2 3, .aluXor 0 .x64 1 2 3), (fa 0x10 0x05 1 2 3, .aluAndn 0 .x64 1 2 3),
    (fa 0x10 0x06 1 2 3, .aluOrn 0 .x64 1 2 3), (fa 0x10 0x07 1 2 3, .aluXnor 0 .x64 1 2 3),
    (fa 0x10 0x08 1 2 3, .aluMin 0 .x64 1 2 3), (fa 0x10 0x09 1 2 3, .aluMax 0 .x64 1 2 3),
    (fa 0x10 0x0A 1 2 3, .aluMinu 0 .x64 1 2 3), (fa 0x10 0x0B 1 2 3, .aluMaxu 0 .x64 1 2 3),
    (fa 0x10 0x0C 1 2 3, .aluAdds 0 .x64 1 2 3), (fa 0x10 0x0D 1 2 3, .aluSubs 0 .x64 1 2 3),
    (fa 0x10 0x0E 1 2 3, .aluAddsu 0 .x64 1 2 3), (fa 0x10 0x0F 1 2 3, .aluSubsu 0 .x64 1 2 3),
    (fa 0x10 0x10 1 2 0, .aluMov 0 .x64 1 2), (fa 0x10 0x11 1 2 0, .aluNeg 0 .x64 1 2),
    (fa 0x10 0x12 1 2 0, .aluNot 0 .x64 1 2)] := by decide +kernel

/-- 11 R155–R157, R161, Tables 11-4 to 11-6. -/
theorem test_decode_arithmetic : Decodes 64 [
    (fi 0x11 0 1 2 0xFFFFFFFF, .addi 0 1 2 0xFFFFFFFF), (fi 0x11 1 1 2 5, .andi 0 1 2 5), (fi 0x11 2 1 2 5, .ori 0 1 2 5),
    (fi 0x11 3 1 2 5, .xori 0 1 2 5), (fi 0x11 4 1 0 5, .movi 0 1 5), (fi 0x11 5 1 2 5, .movhi 0 1 2 5),
    (fa 0x12 0 1 2 3, .mulLo 0 1 2 3), (fa 0x12 1 1 2 3, .mulHi 0 1 2 3), (fa 0x12 2 1 2 3, .mulHiu 0 1 2 3),
    (fa 0x12 3 1 2 3 (c := 4), .mulMad 0 1 2 3 4), (fa 0x13 0 1 2 3 (q := 15), .divS 0 15 .x64 1 2 3),
    (fa 0x13 1 1 2 3 (q := 4) (ty := 3), .divU 0 4 .s32 1 2 3), (fa 0x13 2 1 2 3 (ty := 7), .divRem 0 0 .z32 1 2 3),
    (fa 0x13 3 1 2 3, .divRemu 0 0 .x64 1 2 3)] ∧
  Decodes 128 [(fe (fa 0x16 0 9 0 0) 0x123456789ABCDEF0, .movw 0 9 0x123456789ABCDEF0)] := by decide +kernel

/-- 11 R158–R162, Tables 11-7 and 11-8. -/
theorem test_decode_bits : Decodes 64 [
    (fa 0x14 0x00 1 2 3, .bitsShl 0 1 2 3), (fa 0x14 0x01 1 2 3, .bitsShr 0 1 2 3), (fa 0x14 0x02 1 2 3, .bitsSar 0 1 2 3),
    (fa 0x14 0x03 1 2 3, .bitsRol 0 1 2 3), (fa 0x14 0x04 1 2 3, .bitsRor 0 1 2 3),
    (fa 0x14 0x08 1 2 0 (fl := 63), .bitsShli 0 1 2 63), (fa 0x14 0x09 1 2 0 (fl := 12), .bitsShri 0 1 2 12),
    (fa 0x14 0x0A 1 2 0 (fl := 12), .bitsSari 0 1 2 12), (fa 0x14 0x0B 1 2 0 (fl := 12), .bitsRoli 0 1 2 12),
    (fa 0x14 0x0C 1 2 0 (fl := 12), .bitsRori 0 1 2 12), (fa 0x14 0x10 1 2 0, .bitsClz 0 1 2),
    (fa 0x14 0x11 1 2 0, .bitsCtz 0 1 2), (fa 0x14 0x12 1 2 0, .bitsPopc 0 1 2), (fa 0x14 0x13 1 2 0, .bitsBrev 0 1 2),
    (fa 0x14 0x14 1 2 0, .bitsBswap 0 1 2), (fa 0x15 0 1 2 3, .fieldExt 0 1 2 3), (fa 0x15 1 1 2 3, .fieldExts 0 1 2 3),
    (fa 0x15 2 1 2 3, .fieldIns 0 1 2 3), (fa 0x15 3 1 0 3, .fieldMask 0 1 3), (fa 0x17 0 1 2 3 (c := 7), .sel 0 1 2 3 7),
    (fa 0x18 0x06 1 2 3, .lea 0 1 2 3 6), (fa 0x18 0x83 1 2 3, .leaOff 0 1 2 3 3)] := by decide +kernel

/-- 11 R163–R168, Tables 11-9 to 11-12. -/
theorem test_decode_predicates : Decodes 64 [
    (fa 0x30 0x4 7 2 3 (fl := 1) (ty := 3), .cmp 0 .ltu .s32 .and 7 2 3), (fa 0x30 0 1 2 3 (fl := 2), .cmp 0 .eq .x64 .or 1 2 3),
    (fi 0x31 0x9 1 2 0x80000000, .cmpi 0 .gtu 1 2 0x80000000), (fa 0x32 0 1 2 3, .plogAnd 0 1 2 3),
    (fa 0x32 1 1 2 3, .plogOr 0 1 2 3), (fa 0x32 2 1 2 3, .plogXor 0 1 2 3), (fa 0x32 3 1 2 3, .plogAndn 0 1 2 3),
    (fa 0x32 4 1 2 3, .plogOrn 0 1 2 3), (fa 0x32 5 1 2 3, .plogNand 0 1 2 3), (fa 0x32 6 1 2 3, .plogNor 0 1 2 3),
    (fa 0x32 7 1 2 3, .plogXnor 0 1 2 3), (fa 0x32 8 1 2 0, .plogNot 0 1 2), (fa 0x33 0 1 31 0, .pmovG2p 0 1 31),
    (fa 0x33 1 31 7 0, .pmovP2g 0 31 7), (fa 0x33 2 1 31 0, .pmovBc 0 1 31), (fa 0x38 0x00 1 2 0, .coordTile 0 1 2),
    (fa 0x38 0x01 1 2 0, .coordGroup 0 1 2), (fa 0x38 0x02 1 2 0, .coordSgrp 0 1 2), (fa 0x38 0x03 1 2 0, .coordDie 0 1 2),
    (fa 0x38 0x10 1 2 0, .coordPres 0 1 2), (fa 0x38 0x11 1 2 0, .coordHmap 0 1 2), (fa 0x38 0x12 1 2 0, .coordLocal 0 1 2),
    (fa 0x39 0x7 1 2 3, .mka 0 3 true 1 2 3), (fa 0x39 0x1 1 2 3, .mka 0 1 false 1 2 3), (fa 0x3A 0 1 2 3, .mkg 0 1 2 3),
    (fa 0x3A 1 1 0 3, .mkgOwn 0 1 3)] := by decide +kernel

/-- 11 R169–R182, Tables 11-13 to 11-17. -/
theorem test_decode_memory : Decodes 64 [
    (fi 0x40 0x6 6 7 64 (q := 3) (p := 0xA), .ld 0xA 3 .ws 6 7 64), (fa 0x41 0x5 1 2 3 (fl := 1), .ldx 0 0 .hs true 1 2 3),
    (fi 0x42 0x3 1 2 8, .st 0 0 .d 1 2 8), (fa 0x43 0x0 1 2 3, .stx 0 0 .b false 1 2 3), (fi 0x44 0x7 24 2 0, .ldm 0 0 7 24 2 0),
    (fi 0x45 0x0 31 2 0, .stm 0 0 0 31 2 0), (fi 0x46 0 1 2 4, .ldq 0 0 1 2 4), (fi 0x47 0x4 2 3 4, .ldtry 0 0 .bs 2 3 4),
    (fi 0x48 0 1 2 4, .bwait 0 0 1 2 4), (fi 0x49 0 0 2 4, .clr 0 2 4), (fa 0x4A 0 0 2 3, .clrn 0 2 3),
    (fi 0x4B 0 0 2 4, .prefS 0 2 4), (fi 0x4B 1 0 2 4, .prefX 0 2 4),
    (fa 0x50 0 1 2 3 (fl := 1) (ty := 4) (sc := 5) (ord := 3), .aopSwap 0 0 true .s64 5 3 1 2 3),
    (fa 0x50 1 1 2 3 (ty := 0x10), .aopAdd 0 0 false .f32 0 0 1 2 3), (fa 0x50 2 1 2 3 (ty := 8), .aopAnd 0 0 false .z64 0 0 1 2 3),
    (fa 0x50 3 1 2 3 (ty := 8), .aopOr 0 0 false .z64 0 0 1 2 3), (fa 0x50 4 1 2 3 (ty := 8), .aopXor 0 0 false .z64 0 0 1 2 3),
    (fa 0x50 5 1 2 3 (ty := 3), .aopMin 0 0 false .s32 0 0 1 2 3), (fa 0x50 6 1 2 3 (ty := 7), .aopMax 0 0 false .z32 0 0 1 2 3),
    (fa 0x51 0 4 10 6 (c := 8) (ty := 8) (fl := 2) (sc := 6) (ord := 3) (q := 2), .acas 0 2 false true .z64 6 3 4 10 6 8),
    (fa 0x52 1 0 2 3 (ty := 7) (ord := 2), .redAdd 0 0 .z32 0 2 2 3), (fa 0x52 2 0 2 3 (ty := 7), .redAnd 0 0 .z32 0 0 2 3),
    (fa 0x52 3 0 2 3 (ty := 7), .redOr 0 0 .z32 0 0 2 3), (fa 0x52 4 0 2 3 (ty := 7), .redXor 0 0 .z32 0 0 2 3),
    (fa 0x52 5 0 2 3 (ty := 7), .redMin 0 0 .z32 0 0 2 3), (fa 0x52 6 0 2 3 (ty := 7), .redMax 0 0 .z32 0 0 2 3),
    (fa 0x53 8 0 2 14 (sc := 7), .post 0 0 .g 7 0 2 14), (fa 0x53 2 0 2 31, .post 0 0 .w 0 0 2 31)] := by decide +kernel

/-- 13 R193–R196, Table 13-2. -/
theorem test_decode_vector : Decodes 64 [
    (fa 0x60 0x01 4 2 6 (ty := 0x10), .vopAdd 0 .f32 4 2 6), (fa 0x60 0x02 1 2 3 (ty := 0x12), .vopSub 0 .bf16 1 2 3),
    (fa 0x60 0x03 1 2 3 (ty := 1), .vopMul 0 .s8 1 2 3), (fa 0x60 0x04 1 2 3 (ty := 5), .vopMin 0 .z8 1 2 3),
    (fa 0x60 0x05 1 2 3 (ty := 5), .vopMax 0 .z8 1 2 3), (fa 0x60 0x06 1 2 0 (ty := 4), .vopAbs 0 .s64 1 2),
    (fa 0x60 0x07 1 2 0 (ty := 0x11), .vopNeg 0 .f16 1 2), (fa 0x60 0x08 1 2 3 (ty := 6), .vopAdds 0 .z16 1 2 3),
    (fa 0x60 0x09 1 2 3 (ty := 2), .vopSubs 0 .s16 1 2 3), (fa 0x60 0x0A 1 2 3 (ty := 8), .vopAnd 0 .z64 1 2 3),
    (fa 0x60 0x0B 1 2 3 (ty := 8), .vopOr 0 .z64 1 2 3), (fa 0x60 0x0C 1 2 3 (ty := 8), .vopXor 0 .z64 1 2 3),
    (fa 0x60 0x0D 1 2 3 (ty := 8), .vopAndn 0 .z64 1 2 3), (fa 0x60 0x0E 1 2 3 (ty := 8), .vopShl 0 .z64 1 2 3),
    (fa 0x60 0x0F 1 2 3 (ty := 8), .vopShr 0 .z64 1 2 3), (fa 0x60 0x10 1 2 3 (ty := 8), .vopSar 0 .z64 1 2 3),
    (fa 0x60 0x11 15 14 13 (ty := 8), .vopMulhi 0 .z64 15 14 13), (fa 0x61 0 1 2 3 (c := 4) (ty := 0x10), .vfma 0 .f32 1 2 3 4),
    (fa 0x61 1 1 2 3 (c := 4) (ty := 0x10), .vfmaFms 0 .f32 1 2 3 4), (fa 0x61 2 1 2 3 (c := 4) (ty := 0x10), .vfmaFnma 0 .f32 1 2 3 4),
    (fa 0x61 3 1 2 3 (c := 4) (ty := 0x10), .vfmaFnms 0 .f32 1 2 3 4), (fa 0x62 0 1 2 3 (q := 5) (ty := 0x10), .vdiv 0 5 .f32 1 2 3),
    (fa 0x62 1 1 2 0 (ty := 0x11), .vsqrt 0 0 .f16 1 2), (fa 0x6B 0 1 2 3 (ty := 5), .vdot 0 .z8 1 2 3)] := by decide +kernel

/-- 13 R197–R205, Tables 13-3 and 13-4. -/
theorem test_decode_lanes : Decodes 64 [
    (fa 0x63 0xA 1 2 3 (ty := 0x10), .vcmp 0 .un .f32 1 2 3), (fa 0x64 0 1 2 3 (c := 4) (ty := 5), .vsel 0 .z8 1 2 3 4),
    (fa 0x65 0x13 2 6 0 (c := 7) (ty := 0x10) (q := 1), .vcvt 0 .e4m3 1 .f32 2 6 7), (fa 0x66 0 1 2 0 (ty := 4), .vredAdd 0 .s64 1 2),
    (fa 0x66 1 1 2 0 (ty := 4), .vredMin 0 .s64 1 2), (fa 0x66 2 1 2 0 (ty := 4), .vredMax 0 .s64 1 2),
    (fa 0x66 3 1 2 0 (ty := 4), .vredAnd 0 .s64 1 2), (fa 0x66 4 1 2 0 (ty := 4), .vredOr 0 .s64 1 2),
    (fa 0x66 5 1 2 0 (ty := 4), .vredXor 0 .s64 1 2), (fa 0x67 0 1 2 3 (c := 4) (ty := 5), .vperm 0 .z8 1 2 3 4),
    (fa 0x68 0 1 31 0 (ty := 5), .vbcast 0 .z8 1 31), (fa 0x68 1 1 2 31 (ty := 5), .vbcastLane 0 .z8 1 2 31),
    (fa 0x69 0 1 31 15 (ty := 6), .vins 0 .z16 1 31 15), (fa 0x6A 0 31 2 3 (ty := 4), .vext 0 .s64 31 2 3),
    (fa 0x6C 0 1 2 0 (ty := 5), .vmov 0 .z8 1 2), (fa 0x6C 1 1 0 0 (ty := 5), .vmovZero 0 .z8 1),
    (fi 0x70 1 4 9 128 (q := 2), .vld 0 2 true 4 9 128), (fi 0x71 0 5 9 128, .vst 0 0 false 5 9 128),
    (fa 0x72 0 1 2 3 (ty := 5), .vlds 0 0 .z8 1 2 3), (fa 0x73 0 1 2 3 (ty := 6), .vsts 0 0 .z16 1 2 3),
    (fa 0x74 0 1 2 3 (ty := 7) (fl := 1), .vgath 0 0 .z32 true 1 2 3), (fa 0x75 0 1 2 3 (ty := 8), .vscat 0 0 .z64 false 1 2 3),
    (fi 0x76 0 5 9 32, .vldb 0 0 5 9 32), (fi 0x77 0 5 9 32, .vstb 0 0 5 9 32)] := by decide +kernel

/-- 13 R223, R227–R237, Table 13-8. -/
theorem test_decode_copies : Decodes 128 [
    (fe (fa 0x80 0 0 4 5 (c := 6)) (2 ^ 15 + 2 * 2 ^ 16 + 1 * 2 ^ 18), .copy 0 ⟨true, 2, 1⟩ 4 5 6),
    (fe (fa 0x81 0 0 4 5 (c := 6)) (7 + 8 * 2 ^ 5 + 9 * 2 ^ 10), .copys 0 ⟨false, 0, 0⟩ 4 5 6 7 8 9),
    (fe (fa 0x82 0 0 4 5 (c := 6)) (7 + 3 * 2 ^ 18), .copygG 0 ⟨false, 0, 3⟩ 4 5 6 7),
    (fe (fa 0x82 1 0 4 5 (c := 6)) 7, .copygS 0 ⟨false, 0, 0⟩ 4 5 6 7)] ∧
  Decodes 64 [(fa 0x83 0 0 0 0, .cbatchOpen 0), (fa 0x83 1 0 0 0, .cbatchClose 0), (fa 0x84 0 0 0 0 (fl := 9), .cwait 0 9),
    (fa 0x86 0 0 0 0 (fl := 3), .cbwait 0 3), (fa 0x87 0 0 4 0, .cqf 0 4), (fa 0x88 0 4 0 0, .cstat 0 4),
    (fa 0x88 1 4 0 0 (fl := 2), .cstatBar 0 2 4), (fa 0x89 0 4 5 0, .tagl 0 4 5), (fa 0x89 1 4 5 6, .taglG 0 4 5 6),
    (fa 0x8A 0 0 4 5 (c := 6), .tags 0 4 5 6), (fa 0x8B 0 0 4 0, .tagi 0 4), (fa 0x8B 1 0 0 0, .tagiAll 0),
    (fa 0x8B 2 0 4 0, .tagiBlk 0 4)] ∧
  Decodes 96 [(fw (fa 0x85 0 0 0 0 (fl := 2)) 0xFFFFFFFF, .cbinit 0 2 0xFFFFFFFF)] := by decide +kernel

/-- 17 Table 17-9, 15 Table 15-1. -/
theorem test_decode_tasks : Decodes 64 [
    (fa 0x90 0 2 1 0 (fl := 3), .mtask 0 3 2 1), (fa 0x91 0 2 1 0, .mtqry 0 2 1), (fa 0x91 1 2 0 0, .mtqryQ 0 2),
    (fa 0x92 0 2 1 0, .mtcan 0 2 1), (fa 0x94 0 4 5 6, .lyrinit 0 4 5 6), (fa 0x95 0 4 5 6, .lyrq 0 4 5 6),
    (fa 0x95 1 7 0 8, .lyrqX 0 7 8), (fa 0x95 2 7 0 8, .lyrqW 0 7 8), (fa 0x96 0 4 5 0, .lyrref 0 4 5),
    (fa 0x97 0 4 5 0, .lyrdrop 0 4 5), (fa 0xA0 0 0 0 0 (sc := 2) (ord := 3), .fence 0 2 3), (fa 0xA1 0 0 0 0 (fl := 2), .bar 0 2),
    (fa 0xA1 1 0 4 0 (fl := 1), .barComb 0 1 4), (fa 0xA2 0 0 0 0, .trig 0), (fa 0xA3 0 1 2 3 (fl := 1), .waitl 0 true 1 2 3),
    (fa 0xA3 1 1 2 3 (c := 4), .waitlDl 0 false 1 2 3 4), (fa 0xA4 0 1 2 0, .sleep 0 1 2), (fa 0xA4 1 1 2 0, .sleepM 0 1 2),
    (fa 0xA5 0 0 0 0, .yield 0), (fa 0xB0 0 0 4 0 (fl := 1), .spawn 0 true 4), (fa 0xB1 0 4 0 0, .tpop 0 4),
    (fa 0xB2 0 1 2 3 (c := 4), .tstart 0 1 2 3 4), (fa 0xB3 0 1 2 0, .treap 0 1 2), (fa 0xB4 0 0 0 0, .texit 0),
    (fa 0xB5 0 0 2 3, .rqpush 0 2 3), (fa 0xB5 1 0 2 3 (c := 4), .rqpushCore 0 2 3 4), (fa 0xB6 0 30 0 0, .rqpop 0 30),
    (fa 0xB6 1 30 2 0, .rqpopP 0 30 2), (fa 0xB6 2 31 0 0, .rqpopCnt 0 31)] := by decide +kernel

/-- 15 Table 15-1. -/
theorem test_decode_system : Decodes 64 [
    (fa 0xB7 0 4 5 6, .preempt 0 4 5 6), (fa 0xB7 1 4 5 0, .preemptQ 0 4 5), (fa 0xB8 0 4 5 6, .evac 0 4 5 6),
    (fa 0xB9 0 0 7 2 (fl := 1), .send 0 true false 7 1), (fa 0xB9 0 0 7 14 (fl := 2), .send 0 false true 7 7),
    (fa 0xBA 0 4 0 0 (c := 9), .recv 0 2 9), (fa 0xBA 1 4 0 0 (c := 9), .recvT 0 2 9), (fa 0xBB 0 0 5 0, .timer 0 5),
    (fa 0xBB 1 0 5 0, .timerRel 0 5), (fa 0xBB 2 0 0 0, .timerOff 0), (fi 0xC0 0 0 0 0x42, .trap 0 0x42), (fa 0xC1 0 0 0 0, .eret 0),
    (fa 0xC1 1 0 0 0, .eretNext 0), (fa 0xC2 0 9 0 0 (fl := 0x0A), .movsRead 0 9 0x0A), (fa 0xC2 1 0 9 0 (fl := 0x27), .movsWrite 0 0x27 9),
    (fa 0xC3 0 9 0 0 (fl := 0x4B), .movcRead 0 9 0x4B), (fa 0xC3 1 0 9 0 (fl := 0x40), .movcWrite 0 0x40 9), (fa 0xC4 0 0 4 5, .tlbiVa 0 4 5),
    (fa 0xC4 1 0 0 5, .tlbiAsid 0 5), (fa 0xC4 2 0 0 0, .tlbiAll 0), (fa 0xC5 0 0 0 0, .tlbsync 0), (fa 0xC6 0 1 2 3, .fltrd 0 1 2 3),
    (fa 0xC7 0 0 2 3, .fltrpl 0 2 3), (fa 0xC8 0 1 2 3, .emur 0 1 2 3), (fa 0xC9 0 0 2 3 (c := 4), .emuw 0 2 3 4),
    (fa 0xCA 0 1 2 0, .holdt 0 1 2), (fa 0xCB 0 1 2 0, .resumet 0 1 2), (fa 0xCC 0 0 0 0, .snap 0), (fa 0xCD 0 1 2 0, .cntrd 0 1 2),
    (fa 0xCD 1 0 2 0, .cntclr 0 2), (fa 0xCE 0 1 2 0, .waym 0 1 2), (fa 0xCF 0 1 2 0, .sgway 0 1 2)] := by decide +kernel

/-- What a word that is no instruction gives: the reasons of 07 R112 and Table 7-1's length. -/
def reason (w : Nat) : Decoded := decodeBytes true (wordBytes (BitVec.ofNat 128 w) 32)
/-- 07 R96, R99, R100, R102, R104, R105, R110, R111: reserved majors, minors, types, registers, predicates and fields. -/
theorem test_decode_refuses :
    reason (fi 0x07 0 0 0 0) = .illegal 1 2 ∧ reason (fi 0xE0 0 0 0 0) = .illegal 4 2 ∧ reason 0 = .illegal 5 1 ∧
    reason (fw (fa 0x10 0 1 2 3) 0) = .illegal 7 3 ∧ reason (fa 0x10 0x13 1 2 3) = .illegal 2 2 ∧
    reason (fa 0x60 0x12 1 2 3 (ty := 5)) = .illegal 2 2 ∧ reason (fi 0x40 7 1 2 0) = .illegal 2 2 ∧
    reason (fa 0x10 0 1 2 3 (c := 1)) = .illegal 3 2 ∧ reason (fa 0x10 0 1 2 3 (ty := 4)) = .illegal 3 2 ∧
    reason (fa 0x10 0 1 2 3 (q := 1)) = .illegal 3 2 ∧ reason (fa 0x10 0 1 2 3 (p := 8)) = .illegal 3 2 ∧
    reason (fa 0x60 0x01 16 2 3 (ty := 5)) = .illegal 3 2 ∧ reason (fa 0x32 0 1 8 3) = .illegal 3 2 ∧
    reason (fa 0x14 0x08 1 2 0 (fl := 64)) = .illegal 3 2 ∧ reason (fa 0xC2 0 9 0 0 (fl := 0x0D)) = .illegal 3 2 ∧
    decodeBytes false (wordBytes (BitVec.ofNat 128 (fa 0x16 0 9 0 0 + 2)) 12) = .illegal 6 4 ∧
    decodeBytes false (List.replicate 4 0) = .pad := by decide +kernel

/-! ## Well-formed instructions -/

/-- One ill-formed term for each kind of check, which the check refuses, beside a well-formed one. -/
theorem test_wf :
    ([.nop 8 0, .lea 0 1 2 3 7, .leaOff 0 1 2 3 7, .ldtry 0 0 .d 3 2 0, .ldm 0 0 7 25 2 0, .stm 0 0 1 31 2 0,
      .aopAdd 0 0 false .s8 0 0 1 2 3, .aopMin 0 0 false .f32 0 0 1 2 3, .acas 0 0 false true .z64 0 0 3 2 4 6,
      .acas 0 0 false true .z32 0 0 2 2 4 6, .acas 0 0 false false .s32 0 0 1 2 3 4, .redAdd 0 0 .z32 0 1 2 3,
      .post 0 0 .g 0 0 2 3, .post 0 0 .b 0 1 2 3, .vopAbs 0 .z8 1 2, .vopAnd 0 .f32 1 2 3, .vopAdd 0 .e4m3 1 2 3,
      .vfma 0 .s32 1 2 3 4, .vdot 0 .z16 1 2 3, .vcmp 0 .ltu .f32 1 2 3, .vcmp 0 .un .s8 1 2 3, .vcvt 0 .f32 0 .f32 1 2 0,
      .vcvt 0 .f32 0 .f16 1 2 3, .vcvt 0 .f16 2 .f32 1 2 0, .vredAnd 0 .f32 1 2, .vbcastLane 0 .s64 1 2 4, .vins 0 .f32 1 2 8,
      .vext 0 .z16 1 2 16, .vld 0 0 true 3 2 0, .vst 0 0 true 3 2 0, .vlds 0 0 .s8 1 2 3, .vgath 0 0 .z16 true 1 2 3, .rqpop 0 31,
      .rqpopP 0 31 1, .movsRead 0 1 0x16, .movsWrite 0 0x0D 1, .movcRead 0 1 0x4C, .movcWrite 0 0x3F 1] : List Instr).all
        (fun i => !i.wf) = true ∧
    ([.nop 0 0, .lea 0 1 2 3 6, .ldtry 0 0 .d 2 2 0, .ldm 0 0 7 24 2 0, .aopAdd 0 0 false .f32 0 0 1 2 3,
      .acas 0 0 false true .z64 0 0 2 2 4 6, .redAdd 0 0 .z32 0 2 2 3, .post 0 0 .g 0 0 2 2, .vopAbs 0 .s8 1 2,
      .vcvt 0 .f32 1 .f16 1 2 0, .vbcastLane 0 .s64 1 2 3, .rqpop 0 30, .movsRead 0 1 0x15, .movcRead 0 1 0x4B] : List Instr).all
        Instr.wf = true := by decide +kernel

/-! ## One step on a small state -/

def regs (l : List (Nat × Word)) : Vector Word 32 := l.foldl (fun v e => v.setIfInBounds e.1 e.2) (Vector.replicate 32 0)
def vecs (l : List (Nat × BitVec 256)) : Vector (BitVec 256) 16 :=
  l.foldl (fun v e => v.setIfInBounds e.1 e.2) (Vector.replicate 16 0)
/-- Core 0 with the context `m` in place `x`, in that context's cycle. -/
def mach (m : Ctx) (x : Nat := 0) : State :=
  { cyc := x, cores := [(0, { Core.reset with ctxs := Core.reset.ctxs.setIfInBounds x m })] }
/-- A running context with the general registers of `l`. -/
def ctx (l : List (Nat × Word) := []) : Ctx := { st := .running, priv := .m, g := regs l }
/-- The same state with an event to perform. -/
def ev (e : Event) (s : State := {}) : State := { s with ev := some e }
/-- What one instruction leaves, seen by `f`. -/
def leaves {α : Type} (i : Instr) (s : State) (f : State → α) : Option α :=
  match exec i s with
  | .next t => some (f t)
  | _ => none
/-- g3 after an instruction on g1 and g2. -/
def g3 (i : Instr) (x y : Word) : Option Word := leaves i (mach (ctx [(1, x), (2, y)])) fun t => t.me.getG 3
def allOnes : Word := 0xFFFFFFFFFFFFFFFF
def mostNeg : Word := 0x8000000000000000

/-- 11 Table 11-3: wraps, the 32-bit extensions, signed and unsigned orders, and the clamps. -/
theorem test_alu :
    g3 (.aluAdd 0 .x64 3 1 2) allOnes 2 = some 1 ∧ g3 (.aluAdd 0 .s32 3 1 2) 0x7FFFFFFF 1 = some 0xFFFFFFFF80000000 ∧
    g3 (.aluAdd 0 .z32 3 1 2) 0x7FFFFFFF 1 = some 0x80000000 ∧ g3 (.aluSub 0 .x64 3 1 2) 2 3 = some allOnes ∧
    g3 (.aluAndn 0 .x64 3 1 2) 12 10 = some 4 ∧ g3 (.aluOrn 0 .x64 3 1 2) 0 1 = some 0xFFFFFFFFFFFFFFFE ∧
    g3 (.aluXnor 0 .x64 3 1 2) 5 5 = some allOnes ∧ g3 (.aluMin 0 .x64 3 1 2) allOnes 1 = some allOnes ∧
    g3 (.aluMax 0 .x64 3 1 2) allOnes 1 = some 1 ∧ g3 (.aluMinu 0 .x64 3 1 2) allOnes 1 = some 1 ∧
    g3 (.aluMaxu 0 .x64 3 1 2) allOnes 1 = some allOnes ∧ g3 (.aluAdds 0 .x64 3 1 2) 0x7FFFFFFFFFFFFFFF 1 = some 0x7FFFFFFFFFFFFFFF ∧
    g3 (.aluSubs 0 .s32 3 1 2) 0x80000000 1 = some 0xFFFFFFFF80000000 ∧ g3 (.aluAddsu 0 .x64 3 1 2) allOnes 1 = some allOnes ∧
    g3 (.aluSubsu 0 .x64 3 1 2) 1 2 = some 0 ∧ g3 (.aluNeg 0 .x64 3 1) 1 0 = some allOnes ∧
    g3 (.aluNot 0 .z32 3 1) 0 0 = some 0xFFFFFFFF ∧ g3 (.aluMov 0 .s32 3 1) 0x180000000 0 = some 0xFFFFFFFF80000000 := by
  decide +kernel

/-- 11 Tables 11-4 to 11-8. -/
theorem test_arithmetic :
    g3 (.addi 0 3 1 0xFFFFFFFF) 0 0 = some allOnes ∧ g3 (.andi 0 3 1 0xFFFFFFF0) 0x123 0 = some 0x120 ∧
    g3 (.movhi 0 3 1 0x12345678) 0xFFFFFFFF9ABCDEF0 0 = some 0x123456789ABCDEF0 ∧ g3 (.movi 0 3 0x80000000) 0 0 = some 0xFFFFFFFF80000000 ∧
    g3 (.mulHi 0 3 1 2) allOnes allOnes = some 0 ∧ g3 (.mulHiu 0 3 1 2) allOnes allOnes = some 0xFFFFFFFFFFFFFFFE ∧
    g3 (.mulMad 0 3 1 2 1) 3 4 = some 15 ∧ g3 (.bitsSar 0 3 1 2) mostNeg 63 = some allOnes ∧ g3 (.bitsShl 0 3 1 2) 1 64 = some 1 ∧
    g3 (.bitsRori 0 3 1 1) 1 0 = some mostNeg ∧ g3 (.bitsRoli 0 3 1 0) 5 0 = some 5 ∧ g3 (.bitsClz 0 3 1) 0 0 = some 64 ∧
    g3 (.bitsClz 0 3 1) 1 0 = some 63 ∧ g3 (.bitsCtz 0 3 1) mostNeg 0 = some 63 ∧ g3 (.bitsPopc 0 3 1) allOnes 0 = some 64 ∧
    g3 (.bitsBrev 0 3 1) 1 0 = some mostNeg ∧ g3 (.bitsBswap 0 3 1) 0x0102 0 = some 0x0201000000000000 ∧
    g3 (.fieldExt 0 3 1 2) 0xABCD 0x704 = some 0xBC ∧ g3 (.fieldExts 0 3 1 2) 0xABCD 0x704 = some 0xFFFFFFFFFFFFFFBC ∧
    g3 (.fieldExts 0 3 1 2) mostNeg 0x073C = some 0xFFFFFFFFFFFFFFF8 ∧ g3 (.fieldIns 0 3 1 2) 0xFF 0x304 = some 0xF0 ∧
    g3 (.fieldMask 0 3 2) 0 0x3F00 = some allOnes ∧ g3 (.sel 0 3 1 2 0) 7 8 = some 7 ∧ g3 (.sel 0 3 1 2 1) 7 8 = some 8 ∧
    g3 (.lea 0 3 1 2 6) 1 2 = some 129 ∧ g3 (.leaOff 0 3 1 2 0) 0x800003FFFFFFFFFF 1 = some mostNeg := by decide +kernel

/-- 11 Table 11-6: the results that a division holds until its completion. -/
theorem test_division :
    let r := fun (i : Instr) (x y : Word) => leaves i (mach (ctx [(1, x), (2, y)])) fun t => (t.core 0).ops.map Op.kind
    r (.divS 0 0 .x64 3 1 2) mostNeg allOnes = some [.calcG 3 mostNeg] ∧ r (.divS 0 0 .x64 3 1 2) 7 0 = some [.calcG 3 allOnes] ∧
    r (.divS 0 0 .x64 3 1 2) (0 - 7) 2 = some [.calcG 3 (0 - 3)] ∧ r (.divRem 0 0 .x64 3 1 2) (0 - 7) 2 = some [.calcG 3 allOnes] ∧
    r (.divRem 0 0 .x64 3 1 2) mostNeg allOnes = some [.calcG 3 0] ∧ r (.divRemu 0 0 .s32 3 1 2) 0x80000000 0 = some [.calcG 3 0xFFFFFFFF80000000] ∧
    r (.divU 0 0 .z32 3 1 2) 0x1FFFFFFFF 2 = some [.calcG 3 0x7FFFFFFF] := by decide +kernel

/-- 01 R13's example: the core (0x9C, 0x47); 11 R166–R168. -/
theorem test_coordinates :
    g3 (.coordTile 0 3 1) 0x479C 0 = some (17 * 256 + 39) ∧ g3 (.coordGroup 0 3 1) 0x479C 0 = some (8 * 256 + 19) ∧
    g3 (.coordSgrp 0 3 1) 0x479C 0 = some (4 * 256 + 9) ∧ g3 (.coordDie 0 3 1) 0x479C 0 = some 3 ∧
    idxTile 0x479C = 12 ∧ quadOf 0x479C = 1 ∧ g3 (.coordLocal 0 3 1) 0x00FF 0 = some allOnes ∧
    g3 (.mka 0 2 true 3 1 2) 0x4701 0xFFFFFFFFFFFFFFFF = some (0xC000000000000000 + 2 * 2 ^ 58 + 0x01 * 2 ^ 50 + 0x47 * 2 ^ 42 + (2 ^ 42 - 1)) ∧
    g3 (.mkg 0 3 1 2) 0x25 allOnes = some 0x005FFFFFFFFFFFFF := by decide +kernel

/-- 11 R151–R153, R163–R165: PC, g30 and predicates after one instruction at PC 0x100. -/
theorem test_control :
    let r := fun (i : Instr) (l : List (Nat × Word)) => leaves i (mach { ctx l with pc := 0x100 }) fun t => (t.me.pc, t.me.getG 30, t.me.traps.length)
    r (.bra 0 0xFFFFFFF0) [] = some (0xF0, 0, 0) ∧ r (.call 0 0x40) [] = some (0x140, 0x108, 0) ∧
    r (.callr 0 30) [(30, 0x200)] = some (0x200, 0x108, 0) ∧ r (.ret 0 30) [(30, 0x204)] = some (0x204, 0x204, 0) ∧
    r (.jmp 0 1) [(1, 2)] = some (0x100, 0, 1) ∧ r (.brc 0 .lt .x64 1 2 0x20) [(1, allOnes)] = some (0x120, 0, 0) ∧
    r (.brc 0 .ltu .x64 1 2 0x20) [(1, allOnes)] = some (0x10C, 0, 0) ∧ r (.nop 0 5) [] = some (0x108, 0, 0) ∧
    r (.bra 9 0x40) [] = some (0x140, 0, 0) := by decide +kernel
theorem test_predicates :
    let r := fun (i : Instr) (p : P) => leaves i (mach { ctx [(1, 5), (2, allOnes)] with p := (Vector.replicate 8 0).setIfInBounds 2 0xF0 }) fun t => t.me.getP p
    r (.cmp 0 .lt .x64 .none 1 2 1) 1 = some 0xFFFFFFFF ∧ r (.cmp 0 .ltu .x64 .or 2 2 1) 2 = some 0xF0 ∧
    r (.cmp 0 .eq .x64 .and 2 1 1) 2 = some 0xF0 ∧ r (.cmpi 0 .gt 1 1 0xFFFFFFFF) 1 = some 0xFFFFFFFF ∧
    r (.plogNor 0 1 2 2) 1 = some 0xFFFFFF0F ∧ r (.plogNot 0 0 2) 0 = some 0xFFFFFFFF ∧ r (.pmovG2p 0 1 2) 1 = some 0xFFFFFFFF ∧
    r (.pmovBc 0 1 1) 1 = some 0xFFFFFFFF := by decide +kernel

/-- 10 Tables 10-3 and 10-4: the low element of v3 after a conversion of v1 with lane 0 alone active under p1, by the value of
%rnd and the scale operand. -/
def cvt1 (src dst : Ty) (w : Nat) (rnd scale x : Word) : Option Nat :=
  (leaves (.vcvt 1 src 0 dst 3 1 1)
    (mach { ctx [(1, scale)] with v := vecs [(1, x.setWidth 256)], rnd := rnd, p := Vector.replicate 8 1 }) fun t => (t.me.getV 3).toNat % 2 ^ w)
theorem test_conversions :
    (List.range 6).map (fun m => cvt1 .f32 .e4m3 8 (BitVec.ofNat 64 m) 127 0x43980000) =
      [some 0x7A, some 0x79, some 0x7A, some 0x79, some 0x7A, some 0x79] ∧
    (List.range 6).map (fun m => cvt1 .f32 .e4m3 8 (BitVec.ofNat 64 m) 127 0xC3980000) =
      [some 0xFA, some 0xF9, some 0xF9, some 0xFA, some 0xFA, some 0xF9] ∧
    (List.range 6).map (fun m => cvt1 .f32 .e2m1 4 (BitVec.ofNat 64 m) 129 0x41A00000) =
      [some 6, some 6, some 7, some 6, some 7, some 7] ∧
    (List.range 6).map (fun m => cvt1 .f32 .t2 2 (BitVec.ofNat 64 m) 127 0x3F000000) =
      [some 0, some 0, some 1, some 0, some 1, some 1] ∧
    (List.range 6).map (fun m => cvt1 .f32 .t2 2 (BitVec.ofNat 64 m) 127 0xBF000000) =
      [some 0, some 0, some 0, some 3, some 3, some 3] ∧
    cvt1 .f32 .e4m3 8 0 127 0x43FA0000 = some 0x7F ∧ cvt1 .f32 .e4m3 8 1 127 0x43FA0000 = some 0x7E ∧
    cvt1 .f32 .e2m1 4 0 127 0x40E00000 = some 7 := by decide +kernel

/-- 10 Table 10-5: 1 + 2⁻²⁴ under two modes, and 14 Table 14's dot product of (i, i, i, i) by ones reduced: 4 · 28. -/
theorem test_vector_floats :
    let r := fun (x y rnd : Word) => leaves (.vopAdd 1 .f32 3 1 2)
      (mach { ctx with v := vecs [(1, x.setWidth 256), (2, y.setWidth 256)], rnd := rnd, p := Vector.replicate 8 1 } 3) fun t => ((t.me.getV 3).toNat, t.me.rnd)
    r 0x3F800000 0x33800000 0 = some (0x3F800000, 0x1000) ∧ r 0x3F800000 0x33800000 2 = some (0x3F800001, 0x1002) ∧
    (leaves (.vopAdd 1 .f16 3 1 2) (mach { ctx with v := vecs [(1, 0x7BFF), (2, 0x7BFF)], p := Vector.replicate 8 1 }) fun t => (t.me.getV 3).toNat) = some 0x7C00 := by
  decide +kernel
theorem test_dot_and_reduce :
    let x : BitVec 256 := 0x0707070706060606050505050404040403030303020202020101010100000000
    let y : BitVec 256 := 0x0101010101010101010101010101010101010101010101010101010101010101
    (leaves (.vdot 0 .s8 3 1 2) (mach { ctx with v := vecs [(1, x), (2, y)] }) fun t => t.me.getV 3) =
      some 0x0000001C0000001800000014000000100000000C000000080000000400000000 ∧
    (leaves (.vredAdd 0 .s32 9 1) (mach { ctx with v := vecs [(1, 0x0000001C0000001800000014000000100000000C000000080000000400000000)] })
      fun t => t.me.getG 9) = some 112 := by decide +kernel

/-- 06 Table 6-1: the tags of block B, as packed with their parity. -/
theorem test_tags :
    TagV.pack { st := 0, gen := 3, rem := 4 } = 0x840C ∧ TagV.pack { st := 1, gen := 3, rem := 4 } = 0x040D ∧
    TagV.pack { st := 1, gen := 3, rem := 3 } = 0x830D ∧ TagV.pack { st := 2, gen := 3, rem := 0 } = 0x800E ∧
    TagV.pack { st := 0, gen := 4, rem := 4 } = 0x0410 := by decide +kernel

/-- 12's ACAS.q at an address with ea mod 16 = 8, and 21 R328: what an issue trap leaves. -/
theorem test_traps :
    (leaves (.acas 0 2 false true .z64 6 3 4 10 6 8) (mach (ctx [(10, 0x04001038)])) fun t => t.me.traps.map fun r => (r.cause, r.addr, r.len)) =
      some [(1, 0x04001038, 2)] ∧
    (leaves (.waym 0 1 2) (mach (ctx) 1) fun t => t.me.traps.map Trap.cause) = some [10] ∧
    (leaves (.holdt 9 1 2) (mach (ctx)) fun t => t.me.traps.map Trap.cause) = some [10] ∧
    (leaves (.trap 0 0x42) (mach (ctx)) fun t => t.me.traps.map fun r => (r.cause, r.addr)) = some [(11, 0x42)] := by decide +kernel

/-- 11 R171, 01 R11: a store to the issuer's own local store puts its bytes there at once, lowest first. -/
theorem test_local_store :
    (leaves (.st 0 0 .h 1 2 0) (mach (ctx [(1, 0x11223344), (2, 0xC000000000004002)])) fun t =>
      (List.range 4).map fun i => t.byte (localKey 0 + 0x4001 + i)) = some [0, 0x44, 0x33, 0] := by decide +kernel

/-- State.reset runs an instruction that is placed for it (log entry 41): MOVI g3, 5, then one step. -/
theorem test_first_step :
    (match step (State.reset.withFetchWord 64 (fi 0x11 4 3 0 5)) with | .next t => some ((t.ctx 0 0).getG 3) | _ => none) = some 5 := by
  decide +kernel

/-! ## Witnesses

For every obligation with hypotheses, one theorem that applies it: each clause at a concrete state and operands that meet
the clause's hypotheses together. Its conclusion is only that the machine goes on there; what it shows is that each
hypothesis can be met: every one is discharged at the named state. -/

/-- The instruction goes on at the state. -/
def Goes (i : Instr) (s : State) : Prop := ∃ t, exec i s = .next t

theorem goes {who i p len pre f} (h : Runs who i p len pre f) (s : State) (c : pre s.me (s.issued len))
    (a : who.admits s.cx s.me.priv = true := by decide +kernel) (b : s.me.test p = true := by decide +kernel) : Goes i s :=
  ⟨_, h s a b c⟩
theorem traps {who i p len pre cause f} (h : Traps who i p len pre cause f) (s : State) (c : pre s.me (s.issued len))
    (a : who.admits s.cx s.me.priv = true := by decide +kernel) (b : s.me.test p = true := by decide +kernel) : Goes i s :=
  ⟨_, h s a b c⟩
theorem goesV {i p n pre f} (h : RunsV i p n pre f) (s : State) (c : pre s.me (s.issued 8))
    (b : s.me.mask p &&& BitVec.ofNat 32 (2 ^ n - 1) ≠ 0 := by decide +kernel) : Goes i s := ⟨_, h s b c⟩
theorem goesE {e pre f} (h : Performs e pre f) (s : State) (c : pre (ev e s)) : Goes e.row (ev e s) := ⟨_, h _ rfl c⟩

/-- What follows the first eight clauses of a statement. -/
theorem past8 {a b c d e f g i j : Prop} (h : a ∧ b ∧ c ∧ d ∧ e ∧ f ∧ g ∧ i ∧ j) : j := by
  obtain ⟨_, _, _, _, _, _, _, _, r⟩ := h
  exact r
theorem addrOk {t : State} {ea : Word} {w : Nat}
    (h : (decide (ea.toNat % w = 0) && (match t.checkAddr t.slot ea with | .ok _ => true | .error _ => false)) = true) :
    AddrOk t ea w := by
  refine ⟨by simp_all, ?_⟩
  cases hc : t.checkAddr t.slot ea <;> simp_all
theorem placedAt {t : State} {ea : Word} (h : (match t.checkAddr t.slot ea with | .ok _ => true | .error _ => false) = true) :
    ∃ g, t.checkAddr t.slot ea = .ok g := by
  cases hc : t.checkAddr t.slot ea <;> simp_all
theorem canonical {s : State} (h : (Memory.wf s.mem && SMap.wf 0 s.atoms && SMap.wf Core.reset s.cores) = true) : s.Canonical := by
  simp only [Bool.and_eq_true] at h
  exact ⟨h.1.1, h.1.2, h.2⟩

theorem addrsOk {t : State} {l : List (Word × Nat)}
    (h : (l.all fun q => decide (q.1.toNat % q.2 = 0) && (match t.checkAddr t.slot q.1 with | .ok _ => true | .error _ => false)) = true) :
    ∀ q ∈ l, AddrOk t q.1 q.2 := fun q hq => addrOk (List.all_eq_true.mp h q hq)
theorem witness_DecodeRoundTrip (h : Obligations.DecodeRoundTrip) :
    decodeBytes true (encode (.aluAdd 0 .x64 1 2 3) ++ [1]) = .instr (.aluAdd 0 .x64 1 2 3) 8 :=
  h (.aluAdd 0 .x64 1 2 3) true [1] (by decide +kernel) (by decide +kernel)
theorem witness_DecodeFaithful (h : Obligations.DecodeFaithful) : (Instr.nop 0 7).wf = true :=
  (h true (wordBytes (BitVec.ofNat 128 (fi 0x00 0 0 0 7)) 32) (.nop 0 7) 8 (by decide +kernel)).2.1
/-- A translation of the page at `base`, with every permission: plain, or with bit 3 of its first word block memory. -/
def page (base low : Nat) : TlbEnt := { asid := 0, base := base, bits := 12, e0 := BitVec.ofNat 64 (base + low), e1 := 0x380000, pte := 0 }
/-- Core 0 about to run MOVI g3, 5 at PC 0. -/
def ready : State := State.reset.withFetchWord 64 (fi 0x11 4 3 0 5)
/-- The same with the next fetch block in the cache and PC as given. -/
def readyAt (pc : Word) (w2 : Nat) : State :=
  ready.modCore 0 fun k => { k.setCtx 0 { k.ctx 0 with pc := pc } with code := SMap.set none k.code 32 (some (BitVec.ofNat 256 w2)) }
theorem witness_StepRunsInstruction (h : Obligations.StepRunsInstruction) :
    let paged := fun (low : Nat) => (readyAt 64 4).modCore 0 fun k => { k with itlb := [page 0 low] }
    ((∃ t, step ready = .next t) ∧ (∃ t, step (readyAt 8 (fi 0 0 0 0 0)) = .next t) ∧ ∃ t, step (readyAt 32 4) = .next t) ∧
      ((∃ t, step (readyAt 2 4) = .next t) ∧ (∃ t, step (readyAt 0x8000000000000000 4) = .next t) ∧
        ∃ t, step (readyAt 0x0200000000000000 4) = .next t) ∧
      (∃ t, step (paged 11) = .next t) ∧ ∃ t, step (paged 3) = .next t := by
  intro paged
  have p := fun s i n b b' (a : _ ∧ _ ∧ _ ∧ _ ∧ _ ∧ _ ∧ _ ∧ _) => h s 0 (s.core 0) i n b b' a.1 a.2.1 a.2.2.1 a.2.2.2.1 a.2.2.2.2.1
    a.2.2.2.2.2.1 a.2.2.2.2.2.2.1 a.2.2.2.2.2.2.2
  refine ⟨⟨?_, ?_, ?_⟩, ⟨?_, ?_, ?_⟩, ?_, ?_⟩
  · rw [(p ready (.movi 0 3 5) 8 (BitVec.ofNat 256 (fi 0x11 4 3 0 5)) 0 (by decide +kernel)).1
      ⟨⟨by decide +kernel, by decide +kernel, placedAt (by decide +kernel)⟩, by decide +kernel⟩ (by decide +kernel) (by decide +kernel)]
    exact ⟨_, rfl⟩
  · rw [(p (readyAt 8 (fi 0 0 0 0 0)) (.nop 0 0) 8 (BitVec.ofNat 256 (fi 0x11 4 3 0 5)) (BitVec.ofNat 256 (fi 0 0 0 0 0))
      (by decide +kernel)).2.1 ⟨⟨by decide +kernel, by decide +kernel, placedAt (by decide +kernel)⟩, by decide +kernel⟩ (by decide +kernel)
      ⟨⟨by decide +kernel, by decide +kernel, placedAt (by decide +kernel)⟩, by decide +kernel⟩ (by decide +kernel) (by decide +kernel)]
    exact ⟨_, rfl⟩
  · rw [(p (readyAt 32 4) (.nop 0 0) 8 (BitVec.ofNat 256 4) 0 (by decide +kernel)).2.2.1 5 1
      ⟨⟨by decide +kernel, by decide +kernel, placedAt (by decide +kernel)⟩, by decide +kernel⟩ (by decide +kernel)]
    exact ⟨_, rfl⟩
  · exact ⟨_, (p (readyAt 2 4) (.nop 0 0) 8 0 0 (by decide +kernel)).2.2.2.1 (by decide +kernel)⟩
  · exact ⟨_, (p (readyAt 0x8000000000000000 4) (.nop 0 0) 8 0 0 (by decide +kernel)).2.2.2.2.1
      (by decide +kernel) (by decide +kernel)⟩
  · exact ⟨_, (p (readyAt 0x0200000000000000 4) (.nop 0 0) 8 0 0 (by decide +kernel)).2.2.2.2.2.1 _
      (by decide +kernel) (by decide +kernel) rfl⟩
  · exact ⟨_, (p (paged 11) (.nop 0 0) 8 0 0 (by decide +kernel)).2.2.2.2.2.2.1
      ⟨by decide +kernel, by decide +kernel, placedAt (by decide +kernel)⟩ (by decide +kernel) (by decide +kernel)⟩
  · exact ⟨_, (p (paged 3) (.nop 0 0) 8 0 0 (by decide +kernel)).2.2.2.2.2.2.2
      ⟨by decide +kernel, by decide +kernel, placedAt (by decide +kernel)⟩ (by decide +kernel) (by decide +kernel) (by decide +kernel)⟩
/-- Core 0 in the machine, its context of this cycle empty. -/
def idle : State := mach {}
theorem witness_StepRunsEvents (h : Obligations.StepRunsEvents) :
    let b : BankReq := { store := localKey 0, bank := 0, pos := 0, who := .lsu 0 0 0, since := 0 }
    ((∃ t, step { idle with agenda := [(0, .snapIn)] } = .next t) ∧ (∃ t, step { idle with bar0 := [(0x1000, 1)] } = .next t) ∧
      (∃ t, step idle = .next t) ∧ (∃ t, step { ({} : State) with banks := [b] } = .next t) ∧
      (∃ t, step { ({} : State) with agenda := [(0, .steal 0 1 1)] } = .next t) ∧ ∃ t, step ({} : State) = .next t) ∧
    idle.lowestPort (0, .snapIn) = (0, .snapIn) ∧ (∃ e : Event, e.row = .snapIn) ∧ ∃ t, exec .snapIn (ev .snapIn) = .next t := by
  intro b
  refine ⟨⟨?_, ?_, ?_, ?_, ?_, ?_⟩, ?_, h.2.1 .snapIn rfl, h.2.2 .snapIn _ rfl⟩
  · rw [(h.1 { idle with agenda := [(0, .snapIn)] } 0 .snapIn 0 (idle.core 0) b).1 (by decide +kernel)]
    exact ⟨_, rfl⟩
  · exact ⟨_, (h.1 { idle with bar0 := [(0x1000, 1)] } 0 .snapIn 0 (idle.core 0) b).2.2.1 (by decide +kernel)
      (by decide +kernel) (by decide +kernel)⟩
  · exact ⟨_, (h.1 idle 0 .snapIn 0 (idle.core 0) b).2.2.2.1 (by decide +kernel) (by decide +kernel) (by decide +kernel)
      (by decide +kernel) (by decide +kernel) (by decide +kernel) (by decide +kernel)⟩
  · rw [(h.1 { ({} : State) with banks := [b] } 0 .snapIn 0 (idle.core 0) b).2.2.2.2.1 (by decide +kernel) (by decide +kernel)
      (by decide +kernel)]
    exact ⟨_, rfl⟩
  · rw [(h.1 { ({} : State) with agenda := [(0, .steal 0 1 1)] } 0 (.steal 0 1 1) 0 (idle.core 0) b).2.2.2.2.2.1 (by decide +kernel)
      (by decide +kernel) (by decide +kernel) (by decide +kernel)]
    exact ⟨_, rfl⟩
  · obtain ⟨t, ht, -⟩ := (h.1 {} 0 .snapIn 0 (idle.core 0) b).2.2.2.2.2.2 (by decide +kernel) (by decide +kernel) (by decide +kernel)
      (by decide +kernel)
    exact ⟨t, ht⟩
  · exact (h.1 idle 0 .snapIn 0 (idle.core 0) b).2.1 (by decide +kernel)
theorem witness_PlacedWordRuns (h : Obligations.PlacedWordRuns) : ∃ t, step ready = exec (.movi 0 3 5) t := by
  obtain ⟨t, ht, -⟩ := h State.reset 64 (fi 0x11 4 3 0 5) (.movi 0 3 5) (canonical (by decide +kernel)) (by decide +kernel)
    (by decide +kernel) (by decide +kernel)
  exact ⟨t, ht⟩
theorem witness_StepKeepsCanonical (h : Obligations.StepKeepsCanonical) : ∃ t, step State.reset = .next t ∧ t.Canonical :=
  ⟨_, rfl, h State.reset _ (canonical (by decide +kernel)) rfl⟩
theorem witness_ResetState (h : Obligations.ResetState) : ((State.reset.core 0xFFFF).ctx 15).st = .empty :=
  ((h.2.1 0xFFFF).2.2.2.2.2.2.2.2.2.1) 15 (by decide)
theorem witness_IdleInstructions (h : Obligations.IdleInstructions) :
    (∃ t, exec (.vld 1 0 true 2 1 0) idle = .next t) ∧ exec (.addi 1 3 1 5) idle = .next (idle.skipped 8) ∧
    exec (.vcvt 1 .s16 0 .f32 1 2 0) idle = .next (idle.skipped 8) ∧ exec (.vdot 1 .f32 1 2 3) idle = .next (idle.skipped 8) ∧
    exec (.vld 1 0 true 1 0 4) idle = .next (idle.skipped 8) ∧ exec (.vst 1 0 true 1 0 4) idle = .next (idle.skipped 8) ∧
    exec (.vldb 1 0 1 0 4) idle = .next (idle.skipped 8) ∧ exec (.vstb 1 0 1 0 4) idle = .next (idle.skipped 8) ∧
    exec (.vopAdd 1 .f32 1 2 3) idle = .next (idle.skipped 8) ∧ exec (.vscat 1 0 .f32 false 1 1 3) idle = .next (idle.skipped 8) := by
  have p := fun g => h.2.2 1 0 .f32 .s16 true false 1 2 3 0 0 .eq 0 0 0 0 g idle
  have q := h.2.2 1 0 .f32 .s16 true false 1 2 3 0 0 .eq 1 3 0 0 0 idle
  exact ⟨h.1 (.vld 1 0 true 2 1 0) idle rfl,
    h.2.1 (.addi 1 3 1 5) idle (by decide +kernel) (by decide +kernel) (by decide +kernel) (by decide +kernel),
    (p 0).1 (by decide +kernel), (p 0).2.1 (by decide +kernel), (p 4).2.2.1 (by decide +kernel),
    (p 4).2.2.2.1 (by decide +kernel), (p 4).2.2.2.2.1 (by decide +kernel), (p 4).2.2.2.2.2.1 (by decide +kernel),
    (p 0).2.2.2.2.2.2 _ (by simp) (by decide +kernel), q.2.2.2.2.2.2 (.vscat 1 0 .f32 false 1 1 3) (by simp) (by decide +kernel)⟩
theorem witness_IssueTraps (h : Obligations.IssueTraps) :
    let s := mach (ctx [(1, 0x41), (2, 0x40), (3, 0x0010000000000000), (4, 0x0010000000000001)]) 1
    (Goes (.rqpop 0 4) s ∧ Goes (.sgway 0 4 1) s) ∧ (Goes (.holdt 0 4 1) s ∧ Goes (.lyrdrop 0 4 1) s) ∧ Goes (.snap 0) s ∧
      (Goes (.ld 0 0 .h 4 1 0) s ∧ Goes (.ld 0 0 .d 4 3 0) s) ∧ Goes (.st 0 0 .d 4 1 0) s ∧ Goes (.ldq 0 0 4 4 0) s ∧
      Goes (.aopAdd 0 0 true .z64 0 0 4 1 2) s ∧ Goes (.aopAdd 0 0 true .z64 0 0 4 3 2) s ∧ Goes (.redAdd 0 0 .s32 0 0 1 2) s := by
  intro s
  obtain ⟨a1, a2, a3⟩ := h.1 s 0 4 1 0 0 0
  obtain ⟨l, st, -, -, -, -, aop, red⟩ := h.2 0 0 .h .d true .z64 0 0 4 1 2 0 5
  obtain ⟨l', -, -, -, -, -, aop', -⟩ := h.2 0 0 .d .d true .z64 0 0 4 3 2 0 5
  obtain ⟨-, -, -, q, -⟩ := h.2 0 0 .d .d true .z64 0 0 4 4 2 0 5
  obtain ⟨-, -, -, -, -, -, -, r⟩ := h.2 0 0 .d .d true .s32 0 0 4 1 2 0 5
  exact ⟨⟨⟨_, a1 (by decide +kernel) _ (by simp)⟩, ⟨_, a1 (by decide +kernel) _ (by simp)⟩⟩,
    ⟨⟨_, a2 (by decide +kernel) _ (by simp)⟩, ⟨_, a2 (by decide +kernel) _ (by simp)⟩⟩,
    ⟨_, a3 (by decide +kernel) (by decide +kernel) _ (by simp)⟩,
    ⟨traps l.1 s (by decide +kernel), traps l'.2 s (by decide +kernel)⟩, traps st.1 s (by decide +kernel), traps q.2 s (by decide +kernel),
    traps aop.1 s (by decide +kernel), traps aop'.2 s (by decide +kernel), traps r.1 s (by decide +kernel)⟩
theorem witness_GeneralFrame (h : Obligations.GeneralFrame) : ∃ t, exec (.aluAdd 0 .x64 3 1 2) idle = .next t ∧ SameMem idle t :=
  ⟨_, rfl, (h 0 .x64 3 1 2 4 5 6 7 1 2 3 true 0x40 (.aluAdd 0 .x64 3 1 2) (by simp) idle _ (canonical (by decide +kernel)) rfl).2.2.2.2.2⟩
theorem witness_OtherFrames (h : Obligations.OtherFrames) :
    (∃ t, exec (.cmp 0 .eq .x64 .none 1 2 3) idle = .next t ∧ SameMem idle t) ∧ (∃ t, exec (.bra 0 4) idle = .next t ∧ SameMem idle t) ∧
      (∃ t, exec (.call 0 4) idle = .next t ∧ SameMem idle t) ∧ ∃ t, exec (.vmov 0 .z8 1 2) idle = .next t ∧ SameMem idle t := by
  obtain ⟨a, b, c, d⟩ := h 0 .eq .x64 .none 1 2 3 2 3 4 .z8 1 2 3 4 5
  exact ⟨⟨_, rfl, (a (.cmp 0 .eq .x64 .none 1 2 3) (by simp) idle _ (canonical (by decide +kernel)) rfl).2.2.2.2.2⟩,
    ⟨_, rfl, (b (.bra 0 4) (by simp) idle _ (canonical (by decide +kernel)) rfl).2.2.2.2.2⟩,
    ⟨_, rfl, (c (.call 0 4) (by simp) idle _ (canonical (by decide +kernel)) rfl).2.2.2.2.2⟩,
    ⟨_, rfl, (d (.vmov 0 .z8 1 2) (by simp) idle _ (canonical (by decide +kernel)) rfl).2.2.2.2.2⟩⟩
theorem witness_BytesReadBack (h : Obligations.BytesReadBack) : (idle.putGranule 64 2 0xABCD).byte 65 = 0xAB ∧ byteOf (idle.granule 0) 63 = 0 := by
  obtain ⟨-, a, b⟩ := h idle 64 65 2 0xABCD (canonical (by decide +kernel))
  rw [a]
  exact ⟨by decide +kernel, by rw [(h idle 0 0 0 0 (canonical (by decide +kernel))).2.2 63 (by decide)]; decide +kernel⟩
theorem witness_AluResults (h : Obligations.AluResults) : Goes (.aluAdd 0 .s32 3 1 2) idle ∧ Goes (.movw 0 3 allOnes) idle :=
  ⟨goes (h.1 0 .s32 3 1 2).1 idle trivial, goes (h.2 0 .s32 3 1 0 allOnes).2.2.2.2.2.2.2.2.2 idle trivial⟩
theorem witness_ProductsAndDivisions (h : Obligations.ProductsAndDivisions) : Goes (.mulLo 0 3 1 2) idle ∧ Goes (.divRem 0 15 .z32 3 1 2) idle :=
  ⟨goes (h.1 0 3 1 2 4).1 idle trivial, goes (h.2 0 15 .z32 3 1 2).2.2.1 idle trivial⟩
theorem witness_BitResults (h : Obligations.BitResults) :
    Goes (.bitsRor 0 3 1 2) idle ∧ Goes (.bitsPopc 0 3 1) idle ∧ Goes (.fieldIns 0 3 1 2) idle := by
  obtain ⟨v, hv, -⟩ := (h.2.2 0 3 1 2).2.2.1
  exact ⟨goes (h.1 0 3 1 2 63).2.2.2.2.1 idle trivial, goes (h.2.1 0 3 1).1 idle trivial, goes hv idle trivial⟩
theorem witness_AddressResults (h : Obligations.AddressResults) : Goes (.sel 0 3 1 2 7) idle ∧ Goes (.coordLocal 0 3 1) idle :=
  ⟨goes (h.1 0 3 1 2 7 6).1 idle trivial, goes (h.2 0 3 1 2 3 true).2.2.2.2.2.2.1 idle trivial⟩
theorem witness_ControlTransfers (h : Obligations.ControlTransfers) :
    let s := mach (ctx [(1, 0x200), (2, 0x202)])
    (Goes (.nop 0 4) s ∧ Goes (.bra 0 4) s ∧ Goes (.jmp 0 1) s ∧ Goes (.ret 0 1) s ∧ Goes (.call 0 4) s ∧ Goes (.callr 0 1) s ∧
      Goes (.brc 0 .ne .x64 1 2 4) s ∧ Goes (.brc 0 .eq .x64 1 2 3) s) ∧
    Goes (.bra 0 3) s ∧ Goes (.call 0 3) s ∧ Goes (.jmp 0 2) s ∧ Goes (.callr 0 2) s ∧ Goes (.ret 0 2) s ∧
      Goes (.brc 0 .ne .x64 1 2 3) s := by
  intro s
  obtain ⟨n, b, j, r, c, cr, br⟩ := h.1 0 .ne .x64 1 2 4
  obtain ⟨-, -, -, -, -, -, br'⟩ := h.1 0 .eq .x64 1 2 3
  obtain ⟨tb, tc, tj, tcr, tr, -⟩ := h.2 0 .ne .x64 2 2 3
  obtain ⟨-, -, -, -, -, tbr⟩ := h.2 0 .ne .x64 1 2 3
  exact ⟨⟨goes n s trivial, goes b s (by decide +kernel), goes j s (by decide +kernel), goes r s (by decide +kernel),
    goes c s (by decide +kernel), goes cr s (by decide +kernel), goes br s (by decide +kernel), goes br' s (by decide +kernel)⟩,
    traps tb s (by decide +kernel), traps tc s (by decide +kernel), traps tj s (by decide +kernel), traps tcr s (by decide +kernel),
    traps tr s (by decide +kernel), traps tbr s (by decide +kernel)⟩
theorem witness_PredicateResults (h : Obligations.PredicateResults) : Goes (.cmp 0 .lt .s32 .or 0 1 2) idle ∧ Goes (.pmovBc 0 7 1) idle := by
  obtain ⟨c, -⟩ := h 0 .lt .s32 .or 0 1 2 1 2 0
  obtain ⟨-, -, -, -, -, -, -, -, -, -, -, -, b, -⟩ := h 0 .lt .s32 .or 7 1 2 1 2 0
  exact ⟨goes c idle trivial, goes b idle trivial⟩
/-- g1 the first doubleword of a granule, g2 the last, g3 its last byte, g4 a place of the own local store, g5 the end of the
package's window. -/
def far : State := mach (ctx [(1, 0x1000), (2, 0x1038), (3, 0x103F), (4, 0xC000000000004000), (5, 0x000FFFFFFFFFFFF8)])
/-- The same with an earlier store of the thread to its local store still open. -/
def behind (s : State) : State := s.modCore 0 fun k => { k with nextId := 9, ops :=
  [{ id := 7, ctx := 0, tid := 0, pc := 0, len := 8, left := 0, kind := .store, asid := 0, priv := .m
     accs := [{ va := 0xC000000000004000, mask := BitVec.allOnes 64, op := .write (BitVec.allOnes 64) 0 }] }] }
theorem loses {who i p len pre} (h : Loses who i p len pre) (s : State) (c : pre s.me (s.issued len))
    (a : who.admits s.cx s.me.priv = true := by decide +kernel) (b : s.me.test p = true := by decide +kernel) :
    exec i s = .next s.lost := h s a b c
theorem witness_LoadsAndStores (h : Obligations.LoadsAndStores) :
    (exec (.st 0 0 .d 6 4 0) (behind far) = .next (behind far).lost ∧
      exec (.stx 0 0 .b false 6 4 7) (behind far) = .next (behind far).lost ∧
      exec (.stm 0 0 0 8 4 0) (behind far) = .next (behind far).lost) ∧
    (idle.localHeld {} [writeAcc 0x1000 8 0] = false ∧ idle.localHeld {} [writeAcc 0xC000000000004000 8 0] = false) ∧
    (Goes (.ld 0 15 .d 6 5 0) far ∧ Goes (.ldx 0 0 .bs true 6 4 0) far ∧ Goes (.st 0 0 .d 6 2 0) far ∧ Goes (.stx 0 0 .b false 6 3 0) far) ∧
      Goes (.ldm 0 0 7 8 1 0) far ∧ Goes (.stm 0 0 0 8 2 0) far ∧ Goes (.ldq 0 0 6 3 0) far ∧ Goes (.ldtry 0 0 .b 6 3 0) far ∧
      Goes (.bwait 0 0 6 3 0) far := by
  obtain ⟨l, -⟩ := h.1 0 15 .d .d true 6 5 0 0
  obtain ⟨-, lx, -⟩ := h.1 0 0 .bs .d true 6 4 0 0
  obtain ⟨-, -, s, -⟩ := h.1 0 0 .d .d true 6 2 0 0
  obtain ⟨-, -, -, sx⟩ := h.1 0 0 .d .b false 6 3 0 0
  obtain ⟨-, -, s', -⟩ := h.1 0 0 .d .d true 6 4 0 0
  obtain ⟨-, -, -, sx'⟩ := h.1 0 0 .d .b false 6 4 7 0
  obtain ⟨m, -⟩ := h.2.1 0 0 7 .b 8 1 0
  obtain ⟨-, n, -⟩ := h.2.1 0 0 0 .b 8 2 0
  obtain ⟨-, n', -⟩ := h.2.1 0 0 0 .b 8 4 0
  obtain ⟨-, -, q, t, b⟩ := h.2.1 0 0 0 .b 6 3 0
  exact ⟨⟨loses s'.2 _ ⟨addrOk (by decide +kernel), by decide +kernel⟩, loses sx'.2 _ ⟨addrOk (by decide +kernel), by decide +kernel⟩,
      loses n'.2 _ ⟨⟨addrOk (by decide +kernel), by decide +kernel⟩, by decide +kernel⟩⟩,
    ⟨h.2.2 idle {} _ (.inl (by decide +kernel)), h.2.2 idle {} _ (.inr ⟨rfl, rfl, rfl⟩)⟩,
    ⟨goes l far (addrOk (by decide +kernel)), goes lx far (addrOk (by decide +kernel)),
      goes s.1 far ⟨addrOk (by decide +kernel), by decide +kernel⟩, goes sx.1 far ⟨addrOk (by decide +kernel), by decide +kernel⟩⟩,
    goes m far ⟨addrOk (by decide +kernel), by decide +kernel⟩,
    goes n.1 far ⟨⟨addrOk (by decide +kernel), by decide +kernel⟩, by decide +kernel⟩, goes q far (addrOk (by decide +kernel)),
    goes t far (addrOk (by decide +kernel)), goes b far (addrOk (by decide +kernel))⟩
theorem witness_ClearAndPrefetch (h : Obligations.ClearAndPrefetch) :
    let s := far.modCore 0 fun k => { k with dtlb := [page 0x1000 3, page 0x2000 11] }
    let cached := s.setLine 0 (0x1000 / 64) { st := .e, data := 0 }
    let two := { far with pkg := 0x100 }
    let copied := two.setLine 0 (aliasLine 1 0 0) { st := .s, data := 0 }
    (Goes (.clr 0 3 0) far ∧ Goes (.clrn 0 2 5) far) ∧ (Goes (.prefX 0 3 0) cached ∧ Goes (.prefX 0 3 0) s ∧ Goes (.prefS 0 3 0x1000) s ∧
        Goes (.prefX 0 3 0x2000) s) ∧
      (Goes (.prefS 0 5 8) copied ∧ Goes (.prefX 0 5 8) two) ∧ Goes (.prefS 0 4 0) s ∧ Goes (.prefX 0 4 0xFFFFC000) s := by
  intro s cached two copied
  obtain ⟨c, -, p, -, -⟩ := h 0 3 5 0
  obtain ⟨-, n, -⟩ := h 0 2 5 0
  obtain ⟨-, -, p', -⟩ := h 0 3 5 0x1000
  obtain ⟨-, -, p2, -⟩ := h 0 3 5 0x2000
  obtain ⟨-, -, -, o, -⟩ := h 0 5 5 8
  obtain ⟨-, -, -, -, q, -⟩ := h 0 4 5 0
  obtain ⟨-, -, -, -, -, r⟩ := h 0 4 5 0xFFFFC000
  exact ⟨⟨goes c far (addrOk (by decide +kernel)), goes n far (addrOk (by decide +kernel))⟩,
    ⟨goes (p true 0x103F (page 0x1000 3)).1 cached (by decide +kernel), goes (p true 0x103F (page 0x1000 3)).2.1 s (by decide +kernel),
      goes (p' false 0x203F (page 0x2000 11)).2.2.1 s (by decide +kernel),
      goes (p2 true 0x303F (page 0x2000 11)).2.2.2 s (by decide +kernel)⟩,
    ⟨goes (o false 1 0).1 copied (by decide +kernel), goes (o true 1 0).2 two (by decide +kernel)⟩,
    goes (q false 0 0x4000 0) s (by decide +kernel), goes (r true 4) s (by decide +kernel)⟩
theorem witness_AtomicsAndPosts (h : Obligations.AtomicsAndPosts) :
    (Goes (.aopAdd 0 1 true .s64 7 3 6 5 2) far ∧ Goes (.aopMax 0 0 false .s32 0 0 6 4 2) far ∧ Goes (.acas 0 2 false true .z64 6 3 6 1 8 10) far ∧
      Goes (.acas 0 2 true false .z32 6 3 6 2 8 10) far) ∧
    (atomicNew 5 4 .s32 0xFFFFFFFF 0 1 = some 0xFFFFFFFF ∧ atomicNew 6 8 .z64 7 0 9 = some 9 ∧ atomicNew 7 16 .z64 5 3 3 = some 5 ∧
      atomicNew 7 4 .z32 5 3 4 = none ∧ atomicNew 1 4 .z32 1 0 0xFFFFFFFF = some 0) ∧
    Goes (.redAnd 0 0 .z64 3 2 5 2) far ∧ Goes (.post 0 0 .g 0 2 1 14) { far with cyc := 0 } ∧
      Goes (.redMin 0 0 .z64 3 2 1 2) (mach (ctx [(1, 0x1000)]) 15) := by
  obtain ⟨-, a, -⟩ := h.1 0 1 true true .s64 7 3 6 5 2 0
  obtain ⟨-, -, -, -, -, -, m, -⟩ := h.1 0 0 false true .s32 0 0 6 4 2 0
  obtain ⟨-, -, -, -, -, -, -, q⟩ := h.1 0 2 false true .z64 6 3 6 1 8 10
  obtain ⟨-, -, -, -, -, -, -, z⟩ := h.1 0 2 true false .z32 6 3 6 2 8 10
  obtain ⟨-, -, -, -, -, n5, -⟩ := h.2.1 4 .s32 0xFFFFFFFF 0 1
  obtain ⟨-, -, -, -, -, -, n6, -⟩ := h.2.1 8 .z64 7 0 9
  obtain ⟨-, -, -, -, -, -, -, n7, -⟩ := h.2.1 16 .z64 5 3 3
  obtain ⟨-, -, -, -, -, -, -, -, n8⟩ := h.2.1 4 .z32 5 3 4
  obtain ⟨-, n1, -⟩ := h.2.1 4 .z32 1 0 0xFFFFFFFF
  obtain ⟨-, r, -⟩ := h.2.2 0 0 .z64 3 2 5 2 .g
  obtain ⟨-, -, -, -, -, -, p⟩ := h.2.2 0 0 .z64 0 2 1 14 .g
  obtain ⟨-, -, -, -, r', -⟩ := h.2.2 0 0 .z64 3 2 1 2 .g
  refine ⟨⟨goes a far ⟨addrOk (by decide +kernel), by decide +kernel⟩, goes m far ⟨addrOk (by decide +kernel), by decide +kernel⟩,
    goes q far ⟨addrOk (by decide +kernel), by decide +kernel⟩, goes z far ⟨addrOk (by decide +kernel), by decide +kernel⟩⟩,
    ⟨?_, ?_, ?_, n8 (by decide +kernel), ?_⟩, goes r far ⟨addrOk (by decide +kernel), by decide +kernel⟩,
    goes p far ⟨addrOk (by decide +kernel), by decide +kernel⟩, goes r' _ ⟨addrOk (by decide +kernel), by decide +kernel⟩⟩
  · rw [(n5 (by decide)).1]; decide +kernel
  · rw [(n6 (by decide)).2]; decide +kernel
  · rw [n7 (by decide)]; decide +kernel
  · rw [n1 (by decide)]; decide +kernel
theorem witness_VectorMemoryIssue (h : Obligations.VectorMemoryIssue) :
    let c := { ctx [(1, 0x1000), (4, 0xC000000000004000), (5, 0x38)] with p := Vector.replicate 8 0x81 }
    let s := mach c
    (Goes (.vld 0 0 true 2 1 0) s ∧ Goes (.vst 0 0 false 15 4 32) s ∧ Goes (.vldb 0 0 2 1 32) s ∧ Goes (.vstb 0 0 2 1 32) s ∧
      Goes (.vlds 1 0 .z8 1 1 5) s ∧ Goes (.vsts 1 15 .z64 1 4 5) s ∧ Goes (.vgath 1 0 .z32 true 1 1 2) s ∧ Goes (.vscat 1 0 .z32 true 1 1 2) s) ∧
      vecChecks (.vld 1 0 true 2 1 0) c = [(0x1000, 64)] ∧ vecChecks (.vstb 1 0 2 1 0) c = [(0x1000, 32)] ∧
      vecChecks (.vsts 1 0 .z64 1 1 5) c = (vecPieces (.vsts 1 0 .z64 1 1 5) c).map (fun q => (q.ea, q.len)) ∧
      vecChecks (.vgath 1 0 .z32 true 1 1 2) c = (vecPieces (.vgath 1 0 .z32 true 1 1 2) c).map (fun q => (q.ea, q.len)) ∧
      laneEa 0x1000 8 = 0x1008 ∧ (laneEa 0xC000000000004000 8).extractLsb' 42 22 = (0xC000000000004000 : Word).extractLsb' 42 22 := by
  intro c s
  obtain ⟨l, -⟩ := h.1 0 0 true true .z8 2 2 1 2 0
  obtain ⟨-, t, -⟩ := h.1 0 0 false true .z8 15 2 4 2 32
  obtain ⟨-, -, b, d, -⟩ := h.1 0 0 false true .z8 2 2 1 2 32
  obtain ⟨-, -, -, -, e, -⟩ := h.1 1 0 false true .z8 1 2 1 5 0
  obtain ⟨-, -, -, -, -, u, -⟩ := h.1 1 15 false true .z64 1 2 4 5 0
  obtain ⟨-, -, -, -, -, -, g, k⟩ := h.1 1 0 false true .z32 1 2 1 2 0
  have v := h.2.1 1 0 true true .z8 2 2 1 5 0 c ⟨0, 0x1000, 4⟩
  have v2 := h.2.1 1 0 true true .z64 1 2 1 5 0 c ⟨0, 0x1000, 4⟩
  have v3 := h.2.1 1 0 true true .z32 1 2 1 5 0 c ⟨0, 0x1000, 4⟩
  have w := h.2.2 [] 0 0x1000 8
  have w2 := h.2.2 [] 0 0xC000000000004000 8
  exact ⟨⟨goesV l s (addrsOk (by decide +kernel)), goesV t s ⟨addrsOk (by decide +kernel), by decide +kernel⟩, goesV b s (addrsOk (by decide +kernel)),
      goesV d s ⟨addrsOk (by decide +kernel), by decide +kernel⟩, goesV e s (addrsOk (by decide +kernel)), goesV u s ⟨addrsOk (by decide +kernel), by decide +kernel⟩,
      goesV g s (addrsOk (by decide +kernel)), goesV k s ⟨addrsOk (by decide +kernel), by decide +kernel⟩⟩,
    (v.1 _ (by simp)).2, (v.2.1 _ (by simp)).2, (v2.2.2.1 _ (by simp)).2, (v3.2.2.2 _ (by simp)).2,
    (w.2.2.2.2.1 (by decide +kernel)).trans (by decide +kernel), (w2.2.2.2.2.2 (by decide +kernel)).1⟩
theorem witness_LocalStoreAccess (h : Obligations.LocalStoreAccess) :
    Goes (.st 0 0 .d 1 4 0) far ∧ Goes (.stx 0 0 .b true 1 4 6) far ∧ Goes (.ld 0 0 .ws 1 4 0x7FFC) far := by
  obtain ⟨a, -⟩ := h.1 far 0 0 .d true 1 4 6 0 0x4000
  obtain ⟨-, b⟩ := h.1 far 0 0 .b true 1 4 6 0 0x4000
  have c := h.2 far 0 0 .ws 1 4 0x7FFC 0xBFFC
  obtain ⟨t, ht, -⟩ := a (canonical (by decide +kernel)) (by decide +kernel) ⟨rfl, rfl, rfl⟩ (by decide +kernel) (by decide +kernel)
  obtain ⟨u, hu, -⟩ := b (canonical (by decide +kernel)) (by decide +kernel) ⟨rfl, rfl, rfl⟩ (by decide +kernel) (by decide +kernel)
  obtain ⟨v, hv, -⟩ := c (canonical (by decide +kernel)) (by decide +kernel) ⟨rfl, rfl, rfl⟩ (by decide +kernel) (by decide +kernel)
  exact ⟨⟨t, ht⟩, ⟨u, hu⟩, ⟨v, hv⟩⟩
theorem witness_VectorOperations (h : Obligations.VectorOperations) :
    Goes (.vopAdd 0 .bf16 1 2 3) idle ∧ Goes (.vopNeg 0 .s64 1 2) idle ∧
      lane 64 (overLanes 64 8 0 (fun k => (k + 1, 0)) 4).1 3 = 4 ∧ lane 64 (overLanes 64 8 0 (fun k => (k + 1, 0)) 4).1 0 = 0 := by
  obtain ⟨a, -⟩ := h.1 0 .bf16 1 2 3
  obtain ⟨-, -, -, -, -, -, -, -, -, -, -, -, -, -, -, -, n⟩ := h.1 0 .s64 1 2 3
  refine ⟨goesV a idle trivial, goesV n idle trivial, ?_, ?_⟩
  · rw [h.2 64 4 8 0 _ (by decide) (by decide) (by decide) 3 (by decide)]; decide +kernel
  · rw [h.2 64 4 8 0 _ (by decide) (by decide) (by decide) 0 (by decide)]; decide +kernel
theorem witness_VectorFloatArithmetic (h : Obligations.VectorFloatArithmetic) :
    Goes (.vfmaFnms 0 .f16 1 2 3 4) idle ∧ Goes (.vsqrt 0 15 .f32 1 2) idle ∧ Goes (.vdot 0 .s8 1 2 3) idle := by
  obtain ⟨-, -, -, f, -⟩ := h.1 0 0 _ .f16 1 2 3 4 rfl
  obtain ⟨-, -, -, -, -, -, s⟩ := h.1 0 15 _ .f32 1 2 3 4 rfl
  exact ⟨goesV f idle trivial, goesV s idle trivial, goesV (h.2 0 .s8 1 2 3 rfl) idle trivial⟩
theorem witness_VectorComparesAndConversions (h : Obligations.VectorComparesAndConversions) :
    Goes (.vcmp 0 .un .f32 1 2 3) idle ∧ Goes (.vsel 0 .z8 1 2 3 4) idle ∧ Goes (.vcvt 0 .f32 1 .f16 1 2 0) idle := by
  obtain ⟨⟨f, c, -⟩, -, -⟩ := h 0 .un .f32 .f32 .f16 1 4 1 2 3 0 1
  obtain ⟨-, s, -⟩ := h 0 .un .z8 .f32 .f16 1 4 1 2 3 0 1
  obtain ⟨-, -, v⟩ := h 0 .un .z8 .f32 .f16 1 4 1 2 3 0 1
  exact ⟨goesV c idle trivial, goesV s idle trivial, goesV v idle trivial⟩
theorem witness_LaneResults (h : Obligations.LaneResults) :
    Goes (.vredMin 0 .f16 1 2) idle ∧ Goes (.vperm 0 .z8 1 2 3 4) idle ∧ Goes (.vins 0 .z64 1 5 3) idle ∧ Goes (.vext 0 .z8 5 2 31) idle := by
  obtain ⟨-, r, -⟩ := h.1 0 .f16 1 2
  obtain ⟨p, -⟩ := h.2 0 .z8 1 2 3 4 5 31
  obtain ⟨-, -, -, -, -, i, -⟩ := h.2 0 .z64 1 2 3 4 5 3
  obtain ⟨-, -, -, -, -, -, x⟩ := h.2 0 .z8 1 2 3 4 5 31
  exact ⟨goesV r idle trivial, goesV p idle trivial, goesV i idle trivial, goesV x idle trivial⟩
/-- The same state with the granule at `key` failing its check. -/
def failing (key : Nat) (s : State) : State := { s with ecc := [(key / 64, 2)] }
/-- g1 to g3 a destination, a source and a length, g4 a count of 1, g5 a stride, g6 a list in the own local store, g7 zero. -/
def copying : State := mach (ctx [(1, 0x10000), (2, 0x20000), (3, 0x100), (4, 1), (5, 0x400), (6, 0xC000000000004000)])
theorem witness_CopiesAdmitted (h : Obligations.CopiesAdmitted) :
    let open_ := behind copying
    let bad := failing (localKey 0 + 0x4000) copying
    (Goes (.copy 0 ⟨true, 3, 3⟩ 1 2 3) copying ∧ Goes (.copys 0 ⟨false, 0, 1⟩ 1 2 3 4 5 5) copying ∧
      Goes (.copygG 0 ⟨false, 0, 2⟩ 1 6 3 4) copying ∧ Goes (.copygS 0 ⟨false, 0, 2⟩ 1 6 3 4) copying) ∧
    (exec (.copy 0 ⟨true, 3, 3⟩ 1 2 3) open_ = .next open_.lost ∧ exec (.copys 0 ⟨false, 0, 1⟩ 1 2 3 4 5 5) open_ = .next open_.lost ∧
      exec (.copygG 0 ⟨false, 0, 2⟩ 1 6 3 4) open_ = .next open_.lost ∧ exec (.copygS 0 ⟨false, 0, 2⟩ 1 6 3 4) open_ = .next open_.lost) ∧
    (exec (.copy 0 ⟨false, 0, 0⟩ 1 2 7) copying = .next (copying.skipped 16) ∧
      exec (.copys 0 ⟨false, 0, 1⟩ 1 2 7 4 5 5) copying = .next (copying.skipped 16) ∧
      exec (.copygG 0 ⟨false, 0, 2⟩ 1 6 7 4) copying = .next (copying.skipped 16) ∧
      exec (.copygS 0 ⟨false, 0, 2⟩ 1 6 7 4) copying = .next (copying.skipped 16)) ∧
    (Goes (.copygG 0 ⟨false, 0, 2⟩ 1 6 3 4) bad ∧ Goes (.copygS 0 ⟨false, 0, 2⟩ 1 6 3 4) bad) ∧
    (expandAddr (compactAddr 0x01FFFFFFFFFFFFC0) = 0x01FFFFFFFFFFFFC0 ∧ expandAddr (compactAddr 0xCFFFFC00003FFFC0) = 0xCFFFFC00003FFFC0) ∧
    (∃ l, copyForm 0x10000 0x20000 0x800000 = .parts l ∧ l.length = 32) ∧ (∃ l, copysForm 0x10000 0x20000 0x40000 32 0x40 0x80 = .parts l ∧ l.length = 32) ∧
    ∃ l, copying.copygForm true 0x10000 0xC000000000004000 0x100 32 = .parts l ∧ l.length = 32 := by
  intro open_ bad
  obtain ⟨c, -⟩ := h.1 0 ⟨true, 3, 3⟩ 1 2 3 4 5 5 [⟨0x10000, 0x20000, 0x100⟩]
  obtain ⟨e, -⟩ := h.1 0 ⟨false, 0, 0⟩ 1 2 7 4 5 5 [⟨0x10000, 0x20000, 0⟩]
  obtain ⟨-, s, -⟩ := h.1 0 ⟨false, 0, 1⟩ 1 2 3 4 5 5 [⟨0x10000, 0x20000, 0x100⟩]
  obtain ⟨-, s', -⟩ := h.1 0 ⟨false, 0, 1⟩ 1 2 7 4 5 5 [⟨0x10000, 0x20000, 0⟩]
  obtain ⟨-, -, g, -⟩ := h.1 0 ⟨false, 0, 2⟩ 1 6 3 4 5 5 [⟨0x10000, 0, 0x100⟩]
  obtain ⟨-, -, g', -⟩ := h.1 0 ⟨false, 0, 2⟩ 1 6 7 4 5 5 [⟨0x10000, 0, 0⟩]
  obtain ⟨-, -, -, k⟩ := h.1 0 ⟨false, 0, 2⟩ 1 6 3 4 5 5 [⟨0, 0x10000, 0x100⟩]
  obtain ⟨-, -, -, k'⟩ := h.1 0 ⟨false, 0, 2⟩ 1 6 7 4 5 5 [⟨0, 0x10000, 0⟩]
  obtain ⟨l1, a1, b1, -⟩ := (h.2.2 0x10000 0x20000 0x800000 0 0 0 copying true).1 (by decide) (by decide) (by decide) (by decide) (by decide)
  obtain ⟨l2, a2, b2, -⟩ := (h.2.2 0x10000 0x20000 0x40000 32 0x80 0x40 copying true).2.1 (by decide) (by decide) (by decide) (by decide)
    (by decide) (by decide) (by decide) (by decide)
  obtain ⟨l3, a3, b3, -⟩ := (h.2.2 0x10000 0xC000000000004000 0x100 32 0 0 copying true).2.2 (by decide) (by decide) (by decide) (by decide)
    (by decide) (by decide) (by decide) (by decide) (placedAt (by decide +kernel)) (placedAt (by decide +kernel))
    (by decide +kernel)
  exact ⟨⟨goes c.1 copying (by decide +kernel), goes s.1 copying (by decide +kernel), goes g.1 copying (by decide +kernel),
      goes k.1 copying (by decide +kernel)⟩,
    ⟨loses c.2.1 open_ (by decide +kernel), loses s.2.1 open_ (by decide +kernel), loses g.2.1 open_ (by decide +kernel),
      loses k.2.1 open_ (by decide +kernel)⟩,
    ⟨e.2.2.1 copying (by decide +kernel) (by decide +kernel) (by decide +kernel) (by decide +kernel),
      s'.2.2.1 copying (by decide +kernel) (by decide +kernel) (by decide +kernel) (by decide +kernel),
      g'.2.2.1 copying (by decide +kernel) (by decide +kernel) (by decide +kernel) (by decide +kernel),
      k'.2.2.1 copying (by decide +kernel) (by decide +kernel) (by decide +kernel) (by decide +kernel)⟩,
    ⟨goes (g.2.2.2 (localKey 0 + 0x4000)) bad (by decide +kernel), goes (k.2.2.2 (localKey 0 + 0x4000)) bad (by decide +kernel)⟩,
    ⟨(h.2.1 _ (by decide)).1 (by decide), (h.2.1 _ (by decide)).2 (by decide) (by decide) (by decide)⟩, ⟨l1, a1, by simpa using b1⟩,
    ⟨l2, a2, by simpa using b2⟩, l3, a3, by simpa using b3⟩
theorem witness_BatchesAndTags (h : Obligations.BatchesAndTags) :
    let busy := copying.modCore 0 fun k => { k with nextId := 9, ops := (behind copying).myCore.ops.map fun o =>
      { o with accs := o.accs.map fun a => { a with va := 0xC00000000000BC00 } } }
    let bad := failing (localKey 0 + 0xBC00) copying
    let m := (copying.setTag 0 3 0x1400000003 0x1041).setTag 0 2 0x1800000004 0x1041
    let full : State := { copying with mem := (List.range 64).map fun i => (localKey 0 + 0xBC00 + 16 * i, (1 : Byte)) }
    (Goes (.cwait 0 15) copying ∧ Goes (.cbinit 0 3 0xFFFFFFFF) copying ∧ Goes (.cqf 0 3) copying ∧ Goes (.cstat 0 4) copying) ∧
    (Core.reset.cstat 0).extractLsb' 56 8 = 96 ∧
    (Goes (.tagl 0 4 1) copying ∧ Goes (.taglG 0 4 1 2) copying ∧ Goes (.tags 0 1 2 3) copying ∧ Goes (.tagi 0 7) copying ∧
      Goes (.tagiAll 0) copying ∧ Goes (.tagiBlk 0 1) copying) ∧
    (exec (.tagl 0 4 1) busy = .next busy.lost ∧ exec (.taglG 0 4 1 2) busy = .next busy.lost ∧ exec (.tags 0 7 2 3) busy = .next busy.lost ∧
      exec (.tagi 0 7) busy = .next busy.lost ∧ exec (.tagiAll 0) busy = .next busy.lost ∧ exec (.tagiBlk 0 1) busy = .next busy.lost) ∧
    (Goes (.tagl 0 4 1) bad ∧ Goes (.taglG 0 4 1 2) bad ∧ Goes (.tagi 0 7) bad ∧ Goes (.tagiAll 0) bad ∧ Goes (.tagiBlk 0 1) bad) ∧
    m.tagl 0 0x1040 (some 3) = 3 <<< 24 ||| 3 <<< 16 ||| 0x14 <<< 6 ∧ m.tagl 0 0x1040 (some 9) = 1 <<< 63 ||| 1 <<< 31 ||| 2 <<< 24 ∧
    m.tagl 0 0x2000 none = 1 <<< 63 ∧ full.tagl 0 0x2000 none = (1 <<< 63) ||| (1 <<< 30) := by
  intro busy bad m full
  obtain ⟨-, -, w, i, -, q, s, -⟩ := h.1 0 15 3 0xFFFFFFFF 3 4
  obtain ⟨l, lg, t, t', j, ja, jb⟩ := h.2.2.1 0 4 1 2 3
  obtain ⟨-, -, -, u', v, -, -⟩ := h.2.2.1 0 4 7 2 3
  obtain ⟨-, -, -, -, -, -, -, f, -⟩ := h.2.1 Core.reset 0 (by decide +kernel) (by decide +kernel)
  refine ⟨⟨goes w copying trivial, goes i copying trivial, goes q copying trivial, goes s copying trivial⟩,
    BitVec.eq_of_toNat_eq (f.trans (by decide +kernel)),
    ⟨goes l.1 copying (by decide +kernel), goes lg.1 copying (by decide +kernel), goes t copying (by decide +kernel),
      goes v.1 copying (by decide +kernel), goes ja.1 copying (by decide +kernel), goes jb.1 copying (by decide +kernel)⟩,
    ⟨loses l.2.1 busy (by decide +kernel), loses lg.2.1 busy (by decide +kernel), loses u' busy (by decide +kernel),
      loses v.2.1 busy (by decide +kernel), loses ja.2.1 busy (by decide +kernel), loses jb.2.1 busy (by decide +kernel)⟩,
    ⟨goes (l.2.2 0) bad (by decide +kernel), goes (lg.2.2 0) bad (by decide +kernel), goes (v.2.2 0) bad (by decide +kernel),
      goes (ja.2.2 0) bad (by decide +kernel), goes (jb.2.2 0) bad (by decide +kernel)⟩, ?_, ?_, ?_, ?_⟩
  · exact ((h.2.2.2 m 0 0x1040 (some 3) 3 (by decide)).1 (by decide +kernel)).trans (by decide +kernel)
  · exact ((h.2.2.2 m 0 0x1040 (some 9) 2 (by decide)).2.1 (by decide +kernel) (by decide +kernel) (by decide +kernel)).trans (by decide +kernel)
  · exact ((h.2.2.2 m 0 0x2000 none 0 (by decide)).2.2.1 (by decide +kernel) (by decide +kernel) (by decide +kernel)).trans (by decide +kernel)
  · exact (h.2.2.2 full 0 0x2000 none 0 (by decide)).2.2.2 (by decide +kernel) (by decide +kernel) (by decide +kernel)
/-- A core 0 whose context 0 is `m` and whose other state is what `f` makes of it. -/
def core0 (m : Ctx) (f : Core → Core) : State := (mach m).modCore 0 f
/-- A store of context 0 whose one access has not been performed. -/
def store0 : Op := { id := 7, ctx := 0, tid := 0, pc := 0, len := 8, left := 1, kind := .store, asid := 0, priv := .m,
                     accs := [{ va := 0x1000, mask := 1, op := .read }] }
theorem witness_FencesAndSleeps (h : Obligations.FencesAndSleeps) :
    let late := { mach (ctx [(1, 0x10), (2, allOnes), (3, 0x1000), (4, 0x4000)]) with cyc := 0x10 }
    let note : MboxEnt := { msg := { dst := 0, pkg := 0, kind := 0, src := 0, ctx := 0, asid := 0, first := true, last := true, data := 0 } }
    let full := { core0 (ctx [(2, allOnes), (4, 0x4000)]) (fun k => { k with mbox := [note] }) with cyc := 0x10 }
    let busy := { Core.reset with ops := [store0] }
    let reading := { Core.reset with ops := [{ store0 with kind := .load .d 5 }] }
    let dirty := mach { ctx with devLines := [5] }
    let waits := { dirty with coh := { dirty.coh with wbs := [(0, 5, 0, false)] } }
    (Goes (.fence 0 0 0) idle ∧ Goes (.fence 0 6 2) (core0 (ctx) fun k => { k with ops := [store0] }) ∧
      Goes (.fence 0 6 2) (mach { ctx with touched := 1 }) ∧ Goes (.bar 0 3) idle ∧ Goes (.bar 0 3) (mach { ctx with lvl := 1, member := 1 }) ∧
      Goes (.barComb 0 3 1) idle ∧ Goes (.barComb 0 3 1) (mach { ctx [(1, 0x1040)] with lvl := 3 }) ∧
      Goes (.barComb 0 3 1) (mach { ctx [(1, 0x1041)] with lvl := 3 }) ∧ Goes (.trig 0) idle) ∧
    (reading.fenceStep 0 6 2 = .wait ∧ busy.fenceStep 0 0 1 = .ret ∧ busy.fenceStep 0 0 3 = .wait ∧ Core.reset.fenceStep 0 6 3 = .probe ∧
      waits.fenceStep 0 0 7 3 = .wait ∧ dirty.fenceStep 0 0 7 3 = .probe) ∧
    (Goes (.waitl 0 true 5 3 1) late ∧ Goes (.waitlDl 0 false 5 3 1 4) late ∧ Goes (.waitlDl 0 false 5 3 1 1) late) ∧
      (Goes (.sleep 0 5 1) late ∧ Goes (.sleep 0 5 4) late ∧ Goes (.sleep 0 5 2) late) ∧
      Goes (.sleepM 0 5 1) late ∧ Goes (.sleepM 0 5 4) full ∧ Goes (.sleepM 0 5 4) late ∧ Goes (.sleepM 0 5 2) late := by
  intro late note full busy reading dirty waits
  obtain ⟨fr, -, -, b0, -, c0, -, -, t, f1, f2, -⟩ := h.1 0 0 0 3 1
  obtain ⟨-, fw, fp, -, b1, -, c1, c2, -, g1, g2, -⟩ := h.1 0 6 2 3 1
  obtain ⟨-, -, -, -, -, -, -, -, -, -, q, -⟩ := h.1 0 0 3 3 1
  obtain ⟨-, -, -, -, -, -, -, -, -, -, q2, -⟩ := h.1 0 6 3 3 1
  obtain ⟨-, -, -, -, -, -, -, -, -, -, -, q3⟩ := h.1 0 7 3 3 1
  obtain ⟨w, -⟩ := h.2 0 true 5 3 1 1
  obtain ⟨-, d1, -⟩ := h.2 0 false 5 3 1 4
  obtain ⟨-, -, d2, -⟩ := h.2 0 false 5 3 1 1
  obtain ⟨-, -, -, s1, m1⟩ := h.2 0 false 5 1 1 1
  obtain ⟨-, -, -, s2, m2⟩ := h.2 0 false 5 4 1 1
  obtain ⟨-, -, -, s3, m3⟩ := h.2 0 false 5 2 1 1
  exact ⟨⟨goes fr idle (by decide +kernel), goes fw _ (by decide +kernel), goes fp _ (by decide +kernel), goes b0 idle (by decide +kernel),
    goes b1 _ (by decide +kernel), goes c0 idle (by decide +kernel), goes c1 _ (by decide +kernel),
    ⟨_, c2 _ (by decide +kernel) (by decide +kernel) (by decide +kernel) (by decide +kernel)⟩, goes t idle trivial⟩,
    ⟨g1 reading 0 (by decide +kernel), (f2 busy 0 (by decide +kernel)).1,
      ((q busy 0 (by decide +kernel)).2.1 (by decide) (by decide)).trans (by decide +kernel),
      ((q2 Core.reset 0 (by decide +kernel)).2.2 (by decide) (by decide)).trans (by decide +kernel),
      (q3 waits 0 0).trans (if_pos (by decide +kernel)), (q3 dirty 0 0).trans ((if_neg (by decide +kernel)).trans (by decide +kernel))⟩,
    ⟨goes w late ⟨addrOk (by decide +kernel), by decide +kernel⟩,
      goes d1 late ⟨⟨addrOk (by decide +kernel), by decide +kernel⟩, by decide +kernel⟩,
      goes d2 late ⟨⟨addrOk (by decide +kernel), by decide +kernel⟩, by decide +kernel⟩⟩,
    ⟨goes s1.1 late (by decide +kernel), goes s2.2.2.1 late (by decide +kernel), goes s3.2.2.2 late (by decide +kernel)⟩,
    goes m1.1 late (by decide +kernel), goes m2.2.1 full (by decide +kernel), goes m2.2.2.1 late (by decide +kernel),
    goes m3.2.2.2 late (by decide +kernel)⟩
/-- A ready-queue entry of the record at 0x1000. -/
def ent : RqEnt := { addr := 0x1000, prio := 1, pinned := true, asid := 0, enq := 0 }
theorem witness_ThreadsAndQueues (h : Obligations.ThreadsAndQueues) :
    let s := mach (ctx [(1, 0x1000), (2, 7), (3, 1), (4, 0x100010)])
    let dq := core0 (ctx) fun k => { k with deque := [ent] }
    let cmd : Cmd := { seq := 0, ctx := 0, tid := 0, pc := 0, word0 := 0, word1 := 0, asid := 0, priv := .m }
    (Goes (.spawn 0 true 1) s ∧ Goes (.tpop 0 5) dq ∧ Goes (.tpop 0 5) s ∧ Goes (.yield 0) (mach (ctx [(29, 0x1040)]) 1) ∧ Goes (.yield 0) s ∧
      Goes (.texit 0) s ∧ Goes (.texit 0) (core0 (ctx) fun k => { k with cmds := [cmd] })) ∧
    (Goes (.rqpush 0 1 2) s ∧ Goes (.rqpushCore 0 1 2 3) s) ∧ (Goes (.rqpop 0 30) s ∧ Goes (.rqpopP 0 30 1) s ∧ Goes (.rqpopCnt 0 30) s) ∧
      Goes (.tstart 0 5 3 1 4) s ∧ Goes (.tstart 0 5 5 1 4) s ∧ s.tstartStatus s.me 0 0x1000 0 = 1 := by
  intro s dq cmd
  obtain ⟨u1, hu1⟩ : ∃ u, (s.issued 8).dequePush (s.issued 8).slot { addr := s.me.getG 1, prio := 0, pinned := true, asid := s.me.asid, enq := (s.issued 8).cyc } = some u :=
    Option.isSome_iff_exists.mp (by decide +kernel)
  obtain ⟨a, -⟩ := h.1 0 true 5 1 u1 ent
  obtain ⟨e0, u0, hu⟩ : ∃ e u, (dq.issued 8).dequeNewest (dq.issued 8).slot = some (e, u) := by
    obtain ⟨y, hy⟩ := Option.isSome_iff_exists.mp (show ((dq.issued 8).dequeNewest (dq.issued 8).slot).isSome = true by decide +kernel)
    exact ⟨y.1, y.2, hy⟩
  obtain ⟨-, b, -⟩ := h.1 0 true 5 1 u0 e0
  obtain ⟨-, -, c, d, e, f, g⟩ := h.1 0 true 5 1 s ent
  obtain ⟨p, q, v, r, t, -⟩ := h.2 0 30 1 2 3
  obtain ⟨-, -, -, -, -, u, -, w⟩ := h.2 0 5 3 1 4
  obtain ⟨-, -, -, -, -, -, u', -⟩ := h.2 0 5 5 1 4
  exact ⟨⟨goes a s ⟨by decide +kernel, by decide +kernel, hu1⟩, goes b dq hu, goes c s (by decide +kernel), goes d _ (by decide +kernel),
    goes e s (by decide +kernel), goes f s (by decide +kernel), goes g _ (by decide +kernel)⟩,
    ⟨goes p s (by decide +kernel), goes q s (by decide +kernel)⟩, ⟨goes v s trivial, goes r s trivial, goes t s trivial⟩,
    goes u s (by decide +kernel), goes u' s (by decide +kernel), w s s.me 0 0x1000 0 (.inl rfl)⟩
theorem witness_ContextControl (h : Obligations.ContextControl) :
    let s := core0 (ctx [(1, 1), (2, 0x1000), (3, 0x10000), (4, 0), (5, 0x40000), (6, 2)]) fun k =>
      { k with ctxs := k.ctxs.setIfInBounds 1 { st := .running, asid := 1 }, savebase := 0x14000 }
    let at1 := fun (st : CtxSt) => s.modCore 0 fun k => { k with ctxs := k.ctxs.setIfInBounds 1 { st := st } }
    let full := s.rawWrite (localKey 0 + s.myCore.slotOff 0) (BitVec.allOnes 64) (1 <<< 51)
    let sup := { core0 (ctx [(1, 0x10000), (3, 0x20000)]) fun k =>
      { k with ctxs := k.ctxs.setIfInBounds 2 { st := .running, priv := .s, g := regs [(1, 0x10000), (3, 0x20000), (4, 0x10001)] } } with cyc := 2 }
    let held := fun (t : Ctx) => sup.modCore 0 fun k => { k with ctxs := k.ctxs.setIfInBounds 1 t }
    let due := { ctx with st := .halted, halt := some .hold, traps := [{ kind := 2, cause := 3, pc := 8 }] }
    ((Goes (.treap 0 9 1) s ∧ Goes (.treap 0 9 6) s ∧ Goes (.treap 0 9 1) (at1 .reserved) ∧ Goes (.treap 0 9 1) (at1 .saving)) ∧
      Goes (.preempt 0 9 4 4) s ∧ Goes (.preempt 0 9 1 4) s ∧ Goes (.preemptQ 0 9 1) s ∧ Goes (.evac 0 9 4 2) full ∧ Goes (.evac 0 9 4 2) s ∧
      Goes (.evac 0 9 4 2) (failing (localKey 0 + s.myCore.slotOff 0) s)) ∧
    Goes (.holdt 0 9 1) sup ∧ Goes (.holdt 0 9 1) (held { st := .halted }) ∧ Goes (.holdt 0 9 1) (held { st := .parked }) ∧ Goes (.resumet 0 9 1) sup ∧
      Goes (.resumet 0 9 1) (held { st := .halted, halt := some .containment }) ∧ Goes (.resumet 0 9 1) (held { st := .halted, halt := some .hold }) ∧
      Goes (.resumet 0 9 1) (held due) ∧ Goes (.emur 0 9 1 4) sup ∧ Goes (.emuw 0 1 4 4) sup := by
  intro s at1 full sup held due
  obtain ⟨a, -, a3, a4, -, d, e, -⟩ := h.1 0 9 1 4
  obtain ⟨-, b, -⟩ := h.1 0 9 6 4
  obtain ⟨-, -, -, -, c, -⟩ := h.1 0 9 4 4
  obtain ⟨-, -, -, -, -, -, -, f, g, v⟩ := h.1 0 9 4 2
  obtain ⟨i, j, k, l, m, n, o, -⟩ := h.2 0 9 1 4 4
  obtain ⟨-, -, -, -, -, -, -, p, q⟩ := h.2 0 9 1 4 4
  exact ⟨⟨⟨goes a s (by decide +kernel), goes b s (by decide +kernel), goes a3 _ (by decide +kernel),
      ⟨_, a4 (at1 .saving) (by decide +kernel) (by decide +kernel) (by decide +kernel)⟩⟩,
    goes c s (by decide +kernel), goes d s (by decide +kernel),
    goes e s trivial, goes f full ⟨addrOk (by decide +kernel), by decide +kernel⟩, goes g s ⟨addrOk (by decide +kernel), by decide +kernel⟩,
    goes v _ ⟨addrOk (by decide +kernel), by decide +kernel⟩⟩,
    goes i sup (by decide +kernel), goes j _ (by decide +kernel), goes k _ (by decide +kernel), goes l sup (by decide +kernel),
    goes m _ (by decide +kernel), goes n _ (by decide +kernel), goes o _ (by decide +kernel), goes p sup (by decide +kernel), goes q sup (by decide +kernel)⟩
theorem witness_MessageInstructions (h : Obligations.MessageInstructions) :
    let e : MboxEnt := { msg := { dst := 0, pkg := 0, kind := 0, src := 0, ctx := 0, asid := 0, first := true, last := true, data := 0 } }
    let s := core0 (ctx [(1, 0xFFFF)]) fun k => { k with mbox := [e] }
    (Goes (.send 0 true false 1 7) s ∧ Goes (.recv 0 7 31) s ∧ Goes (.recvT 0 7 31) s) ∧ (Goes (.recv 0 7 31) idle ∧ Goes (.recvT 0 7 31) idle) ∧
      Goes (.timer 0 1) s ∧ Goes (.timerRel 0 1) s ∧ Goes (.timerOff 0) s := by
  intro e s
  obtain ⟨a, b, c, d, f, t, r, o⟩ := h 0 true false 1 31 7 e
  exact ⟨⟨goes a s (by decide +kernel), goes b s (by decide +kernel), goes d s (by decide +kernel)⟩,
    ⟨goes c idle (by decide +kernel), goes f idle (by decide +kernel)⟩, goes t s trivial, goes r s trivial, goes o s trivial⟩
theorem witness_SpecialRegisters (h : Obligations.SpecialRegisters) :
    (Goes (.movsRead 0 5 0x0A) idle ∧ Goes (.movsWrite 0 0x10 5) (mach (ctx)) ∧ Goes (.movsWrite 0 0x01 5) (mach (ctx)) ∧
      Goes (.movsWrite 7 0x1A 5) (mach (ctx)) ∧ Goes (.movcRead 0 5 0x4B) idle ∧ Goes (.movcWrite 0 0x40 5) idle) ∧
    (srAccess 0x27 .u = .trap ∧ srAccess 0x14 .s = .trap ∧ srAccess 0x1B .m = .trap ∧ srAccess 0x0B .s = .ignore ∧
      srAccess 0x18 .s = .write ∧ srAccess 0x15 .m = .trap) ∧
    ((idle.readSr 0 0 0 0x15).extractLsb' 8 1).toNat = 0 ∧ idle.writeSr 0 0 0x13 0x1FF = idle.modCore 0 (fun k => { k with rqhi := 0xFF }) ∧
    idle.writeSr 0 0 0x0A 0xFFFF = idle.modCtx 0 0 (fun m => { m with rnd := 0xFF38 }) ∧ (∃ t, idle.writeSr 0 0 0x14 allOnes = t) := by
  obtain ⟨r, -, -, -, -, -⟩ := h.1 0 5 5 0x0A
  obtain ⟨-, w, -⟩ := h.1 0 5 5 0x10
  obtain ⟨-, -, i, -⟩ := h.1 0 5 5 0x01
  obtain ⟨-, -, -, t, -⟩ := h.1 7 5 5 0x1A
  obtain ⟨-, -, -, -, c, -⟩ := h.1 0 5 5 0x4B
  obtain ⟨-, -, -, -, -, v⟩ := h.1 0 5 5 0x40
  obtain ⟨-, -, -, -, -, -, -, -, -, -, -, -, -, -, -, -, -, -, mb, -⟩ := h.2.2.1 idle 0 0 0
  obtain ⟨-, -, -, -, -, -, -, ⟨u, tm, -⟩, -⟩ := h.2.2.2 idle 0 0 allOnes
  obtain ⟨-, f', -⟩ := h.2.2.2 idle 0 0 0xFFFF
  obtain ⟨-, -, -, -, -, -, q', -⟩ := h.2.2.2 idle 0 0 0x1FF
  exact ⟨⟨goes r idle (by decide +kernel), goes w _ (by decide +kernel), goes i _ (by decide +kernel), ⟨_, t _ (by decide +kernel)⟩,
    goes c idle trivial, goes v idle trivial⟩, ⟨h.2.1.2.1 0x27 (by decide), (h.2.1.2.2.1 0x14 (by decide)).2, (h.2.1.2.2.2.1 0x1B (by decide)).2,
      (h.2.1.2.2.2.2.1 0x0B (by decide)).1, (h.2.1.2.2.2.2.2.1 0x18 (by decide)).1, (h.2.1.2.2.2.2.2.2 .m (by decide)).2⟩,
    (mb (by decide +kernel)).2.2.1.trans (by decide +kernel), q'.trans (by decide +kernel), f'.trans (by decide +kernel), ⟨_, tm⟩⟩
/-- The event goes on at the state. -/
abbrev Does (e : Event) (s : State) : Prop := Goes e.row (ev e s)
/-- Core 0 with a supervisor's context 2, in its cycle: g1 a plain address, g2 an ASID, g3 a fault's handle, g4 and g5 outcomes. -/
def sup : State :=
  { core0 (ctx) (fun k => { k with ctxs := k.ctxs.setIfInBounds 2 { st := .running, priv := .s, g := regs [(1, 0x10000), (2, 7), (3, 0x00500002), (4, 0), (5, 1), (6, 0x80000000000000C0)] } }) with cyc := 2 }
def faulting : FaultInfo := { table := 0, level := 0, access := 0, agent := 0, kind := 1, addr := 0x10000, core := 0, ctx := 1, priv := 0, pkg := 0, asid := 0 }
/-- An outstanding fault of sequence 5 in entry 2 of table 0. -/
def faultEnt : FaultEnt := { info := faulting, seq := 5, cyc := 0, waiters := [] }
theorem witness_TranslationControl (h : Obligations.TranslationControl) :
    let s := { sup with faults := [(2, some faultEnt)] }
    let w := { sup with tlbis := [{ core := 0, ctx := 2, tid := 0, kind := 2, asid := 0, va := 0 }] }
    (Goes (.tlbiVa 0 1 2) sup ∧ Goes (.tlbiVa 0 6 2) sup ∧ Goes (.tlbiAsid 0 2) sup ∧ Goes (.tlbiAll 0) sup ∧ Goes (.tlbsync 0) sup ∧ Goes (.tlbsync 0) w) ∧
      (Goes (.fltrd 0 9 3 5) s ∧ Goes (.fltrd 0 9 3 5) sup) ∧ Goes (.fltrpl 0 3 4) s ∧ Goes (.fltrpl 0 3 5) s ∧ Goes (.fltrpl 0 3 2) s ∧
        Goes (.fltrpl 0 3 5) sup := by
  intro s w
  have a := h 0 0 1 2 0 0 faultEnt
  have b := (h 0 0 6 2 0 0 faultEnt).2.1
  have r := (h 0 9 3 5 0 2 faultEnt).2.2.2.2.2.2
  have q := (h 0 9 3 4 0 2 faultEnt).2.2.2.2.2.2.2.2.1
  have o := (h 0 9 3 2 0 2 faultEnt).2.2.2.2.2.2.2.2.2.2.1 3 (.inr rfl)
  exact ⟨⟨goes a.1 sup (by decide +kernel), goes b sup (by decide +kernel), goes a.2.2.1 sup trivial, goes a.2.2.2.1 sup trivial,
    goes a.2.2.2.2.1 sup (by decide +kernel), goes a.2.2.2.2.2.1 w (by decide +kernel)⟩,
    ⟨goes r.1 s (by decide +kernel), goes r.2.1 sup (by decide +kernel)⟩, goes q s (by decide +kernel),
    goes r.2.2.2.1 s (by decide +kernel), goes o s (by decide +kernel), goes r.2.2.2.2.2 sup (by decide +kernel)⟩
theorem witness_CountersAndWays (h : Obligations.CountersAndWays) :
    let s := mach (ctx [(1, 7), (2, 0x800), (3, 3), (4, 0x1FF), (5, 0x8001), (6, 0x00FF)])
    (Goes (.snap 0) s ∧ Goes (.snap 0) { s with snapAt := [(0, 64)] } ∧ Goes (.cntrd 0 9 1) s ∧ Goes (.cntclr 0 1) s) ∧
      (Goes (.waym 0 9 2) s ∧ Goes (.waym 0 9 3) s) ∧ Goes (.sgway 0 9 4) s ∧ Goes (.sgway 0 9 0) s ∧ Goes (.sgway 0 9 5) s ∧ Goes (.sgway 0 9 6) s ∧
        Goes (.sgway 0 9 6) { s with sgway := [(0, 8, 1, 0)] } := by
  intro s
  have a := h 0 9 1
  exact ⟨⟨goes a.1 s (by decide +kernel), goes a.2.1 _ (by decide +kernel), goes a.2.2.1 s trivial, goes a.2.2.2.1 s trivial⟩,
    ⟨goes (h 0 9 2).2.2.2.2.1 s (by decide +kernel), goes (h 0 9 3).2.2.2.2.2.1 s (by decide +kernel)⟩,
    goes (h 0 9 4).2.2.2.2.2.2.1 s (by decide +kernel), goes (h 0 9 0).2.2.2.2.2.2.1 s (by decide +kernel),
    goes (h 0 9 5).2.2.2.2.2.2.2.1 s (by decide +kernel), goes (h 0 9 6).2.2.2.2.2.2.2.1 s (by decide +kernel),
    goes (h 0 9 6).2.2.2.2.2.2.2.2 _ (by decide +kernel)⟩
/-- A task of core 0's context 0, with ticket 1. -/
def task1 : Task := { ticket := 1, record := 0x10000, queue := 0, core := 0, ctx := 0, tid := 0, pc := 0, asid := 0, priv := .m, launch := 0 }
theorem witness_TaskInstructions (h : Obligations.TaskInstructions) :
    let s := core0 (ctx [(1, 0x10000), (2, 0x10040), (3, 1), (4, 0x10001), (5, 0xC000000000004000)]) id
    let w := fun (k : Task) => s.setSg 0 { tasks := [k] }
    ((Goes (.mtask 0 7 9 1) s ∧ Goes (.mtask 0 0 9 2) s) ∧ (Goes (.mtqry 0 9 3) s ∧ Goes (.mtqry 0 9 3) (w task1) ∧ Goes (.mtqryQ 0 9) s) ∧
      Goes (.mtcan 0 9 3) s ∧ Goes (.mtcan 0 9 3) (w { task1 with st := .running }) ∧ Goes (.mtcan 0 9 3) (w task1)) ∧
    (Goes (.lyrinit 0 9 3 1) s ∧ Goes (.lyrinit 0 9 3 5) s ∧ Goes (.lyrinit 0 9 3 4) s) ∧ Goes (.lyrq 0 9 1 2) s ∧ Goes (.lyrqX 0 9 2) s ∧ Goes (.lyrqW 0 9 2) s ∧
      Goes (.lyrref 0 9 1) s ∧ Goes (.lyrdrop 0 9 1) sup := by
  intro s w
  have a := h.1 0 7 9 1 task1 0 0x10000
  have b := h.1 0 0 9 2 task1 0 0x10000
  have c := (h.1 0 0 9 3 task1 0 0x10000).2.2
  have d := (h.1 0 0 9 3 { task1 with st := .running } 0 0x10000).2.2
  have g := h.2 0 9 1 2
  exact ⟨⟨⟨goes a.1 s (by decide +kernel), traps b.2.1 s (by decide +kernel)⟩, ⟨goes c.1 s (by decide +kernel), goes c.2.1 _ (by decide +kernel), goes c.2.2.1 s trivial⟩,
    goes c.2.2.2.1 s (by decide +kernel), goes d.2.2.2.2.1 _ (by decide +kernel), goes c.2.2.2.2.2 _ (by decide +kernel)⟩,
    ⟨goes (h.2 0 9 3 1).1 s ⟨addrOk (by decide +kernel), by decide +kernel⟩, goes (h.2 0 9 3 5).1 s ⟨addrOk (by decide +kernel), by decide +kernel⟩,
      traps (h.2 0 9 3 4).2.1 s (by decide +kernel)⟩,
    goes g.2.2.1 s trivial, goes g.2.2.2.1 s (by decide +kernel), goes g.2.2.2.2.1 s trivial, goes g.2.2.2.2.2.1 s trivial, goes g.2.2.2.2.2.2 sup trivial⟩
theorem witness_TrapAndReturn (h : Obligations.TrapAndReturn) :
    let s := mach { ctx with inHandler := true }
    State.reset.Canonical ∧ (Goes (.trap 0 0xFFFFFFFF) idle ∧ Goes (.eret 0) idle ∧ Goes (.eretNext 0) idle) ∧ Goes (.eret 0) s ∧ Goes (.eretNext 0) s ∧
      Goes (.eret 0) (failing (localKey 0) s) ∧ Goes (.eretNext 0) (failing (localKey 0) s) ∧ (s.returnTrap 0 0 true).me.inHandler = false := by
  intro s
  obtain ⟨t, e, en, r, rn⟩ := h.2 0 0xFFFFFFFF
  exact ⟨canonical (by decide +kernel), ⟨traps t idle trivial, traps e idle (by decide +kernel), traps en idle (by decide +kernel)⟩,
    goes r.1 s (by decide +kernel), goes rn.1 s (by decide +kernel), goes r.2 _ (by decide +kernel), goes rn.2 _ (by decide +kernel),
    (h.1 s 0 0 true (canonical (by decide +kernel))).2.2.2.1⟩
theorem witness_TrapTaken (h : Obligations.TrapTaken) :
    let t : Trap := { kind := 0, cause := 11, pc := 8, addr := 5 }
    let s := (mach { ctx with traps := [t], delivering := true }).modCore 0 fun k => { k with tvec := 0x2000FC00 }
    (s.takeTrap 0 0 t).me.getG 1 = 0xC00000000000FC00 ∧ (s.takeTrap 0 0 t).me.inHandler = true := by
  intro t s
  have a := h s 0 0 t (canonical (by decide +kernel))
  refine ⟨?_, a.2.2.1⟩
  have b := a.1
  rw [show s.takeTrap 0 0 t = s.takeTrap 0 0 t from rfl] at b
  exact b.trans (by decide +kernel)
/-- Core 0's context 0 as given, with core 5 as every die's supervisor and service core. -/
def served (m : Ctx) (f : Core → Core := id) : State :=
  { core0 m f with supv := Vector.replicate 8 0x8000000000000005, fltsvc := Vector.replicate 8 0x8000000000000005 }
theorem witness_TrapSteps (h : Obligations.TrapSteps) :
    let t := ({ kind := 2, cause := 3, pc := 8 } : Trap)
    let bad := { ctx with halt := some (.illegal 3 8 5) }
    let due := { ctx with delivering := true, traps := [t] }
    let n := ({ code := 16, cause := 15 } : Notice)
    let coded := (readyAt 0 4)
    Does (.illegalEncoding 0 0 (3 + 16 * 8)) coded ∧ Does (.emulationRequest 0 0 3) (core0 bad fun k => { k with ops := [store0] }) ∧
      Does (.emulationRequest 0 0 3) (mach { bad with posted := 1 }) ∧ Does (.emulationRequest 0 0 3) (served bad) ∧
      Does (.emulationRequest 0 0 3) (core0 bad id) ∧ Does (.deferredTrapReport 0 0 1 t) idle ∧
      Does (.deferredTrapReport 0 0 0 t) (mach { ctx with inHandler := true }) ∧ Does (.deferredTrapReport 0 0 0 t) (mach (ctx)) ∧
      Does (.deferredTrapReport 0 0 0 t) (mach { ctx with st := .parked, park := some .texit }) ∧
      Does (.trapDelivery 0 0) (core0 due fun k => { k with tvec := 0x20004001 }) ∧ Does (.trapDelivery 0 0) (mach due) ∧
      Does (.trapDelivery 0 0) (core0 due fun k => { k with ops := [store0] }) ∧ Does (.machineCheck 1 64 none) idle ∧
      Does (.machineCheck 3 64 (some (.park 0 0))) idle ∧ Does (.supervisorNotice 7 n) (served ctx) ∧ Does (.supervisorNotice 7 n) idle := by
  intro t bad due n coded
  have a := h.1 0 0 3 8 5 (BitVec.ofNat 256 (fi 0x11 4 3 0 5)) 5
  have b := h.2 0 0 1 t 7 n 5 1 64
  have d := h.2 0 0 0 t 7 n 5 3 64
  exact ⟨goesE (a.1 (by decide)) coded (by decide +kernel), goesE a.2.1 _ (by decide +kernel),
    goesE a.2.2.1 _ ⟨canonical (by decide +kernel), by decide +kernel⟩, goesE a.2.2.2.1 _ ⟨canonical (by decide +kernel), by decide +kernel⟩,
    goesE a.2.2.2.2 _ ⟨canonical (by decide +kernel), by decide +kernel⟩, goesE b.1 idle (by decide +kernel),
    goesE d.2.1 _ ⟨canonical (by decide +kernel), by decide +kernel⟩, goesE d.2.2.1 _ ⟨canonical (by decide +kernel), by decide +kernel⟩,
    goesE d.2.2.2.1 _ ⟨canonical (by decide +kernel), by decide +kernel⟩, goesE d.2.2.2.2.1 _ (by decide +kernel),
    goesE d.2.2.2.2.2.1 _ (by decide +kernel), goesE d.2.2.2.2.2.2.1 _ (by decide +kernel), goesE b.2.2.2.2.2.2.2.1 idle (by decide),
    goesE d.2.2.2.2.2.2.2.2.1 idle (by decide), goesE d.2.2.2.2.2.2.2.2.2.1 _ (by decide +kernel),
    goesE d.2.2.2.2.2.2.2.2.2.2 idle (by decide +kernel)⟩
theorem witness_CompletionSteps (h : Obligations.CompletionSteps) :
    let a : Access := { va := 0x10038, mask := BitVec.allOnes 64, op := .read, st := .sent }
    let op := fun (k : OpKind) => { store0 with kind := k, accs := [a] }
    let s := fun (k : OpKind) => core0 (ctx) fun q => { q with ops := [op k] }
    let wide := { store0 with kind := .vload 4 true [⟨0, 0, 32, 32⟩, ⟨32, 1, 0, 32⟩], accs := [a, { a with st := .done, rdata := 7 }] }
    let half := { wide with accs := [a, a] }
    (Does (.longLatencyComplete 0 7 (.advance 0)) idle ∧ Does (.longLatencyComplete 0 7 (.advance 0)) (s (.calcG 5 1)) ∧
      Does (.longLatencyComplete 0 7 (.advance 0)) (s (.calcV 15 1 0x10))) ∧
    (Does (.longLatencyComplete 0 7 (.data 0 0x1234)) (s (.load .d 31)) ∧ Does (.longLatencyComplete 0 7 (.data 0 0x1234)) (s (.loadM 7 24)) ∧
      Does (.longLatencyComplete 0 7 (.tag 0 2 true 9)) (s (.ldq 3)) ∧ Does (.longLatencyComplete 0 7 (.tag 0 2 true 9)) (s (.ldtry .b 31)) ∧
      Does (.longLatencyComplete 0 7 (.tag 0 2 true 9)) (s (.bwait 3)) ∧ Does (.longLatencyComplete 0 7 (.ack 0)) (s .store) ∧
      Does (.longLatencyComplete 0 7 (.old 0 9)) (s (.atomic .s32 false 5)) ∧ Does (.longLatencyComplete 0 7 (.old 0 9)) (s (.atomic .z64 true 31)) ∧
      Does (.longLatencyComplete 0 7 (.trap 0 5)) (s (.load .b 5))) ∧
    Does (.longLatencyComplete 0 7 (.data 0 9)) (core0 (ctx) fun q => { q with ops := [half] }) ∧
      Does (.longLatencyComplete 0 7 (.data 0 9)) (core0 (ctx) fun q => { q with ops := [wide] }) := by
  intro a op s wide half
  obtain ⟨p, -⟩ := h.1 0 7 (.advance 0) (op .store) a 5 15 1 1 0x10 .d 0x1234 9 0 0 false .s64
  obtain ⟨-, g, -⟩ := h.1 0 7 (.advance 0) (op (.calcG 5 1)) a 5 15 1 1 0x10 .d 0x1234 9 0 0 false .s64
  obtain ⟨-, -, v, -⟩ := h.1 0 7 (.advance 0) (op (.calcV 15 1 0x10)) a 5 15 1 1 0x10 .d 0x1234 9 0 0 false .s64
  obtain ⟨-, -, -, l, -⟩ := h.1 0 7 (.advance 0) (op (.load .d 31)) a 31 15 1 1 0x10 .d 0x1234 9 0 0 false .s64
  obtain ⟨-, -, -, -, m, -⟩ := h.1 0 7 (.advance 0) (op (.loadM 7 24)) a 24 15 1 1 0x10 .d 0x1234 9 7 0 false .s64
  obtain ⟨-, -, -, -, -, q, -⟩ := h.1 0 7 (.advance 0) (op (.ldq 3)) a 3 15 1 1 0x10 .d 9 9 7 2 true .s64
  obtain ⟨-, -, -, -, -, -, y, -⟩ := h.1 0 7 (.advance 0) (op (.ldtry .b 31)) a 31 15 1 1 0x10 .b 9 9 7 2 true .s64
  obtain ⟨-, -, -, -, -, -, -, b, -⟩ := h.1 0 7 (.advance 0) (op (.bwait 3)) a 3 15 1 1 0x10 .b 9 9 7 2 true .s64
  obtain ⟨-, -, -, -, -, -, -, -, k, -⟩ := h.1 0 7 (.advance 0) (op .store) a 3 15 1 1 0x10 .b 9 9 7 2 true .s64
  obtain ⟨-, -, -, -, -, -, -, -, -, o, -⟩ := h.1 0 7 (.advance 0) (op (.atomic .s32 false 5)) a 5 15 1 1 0x10 .d 0x1234 9 0 0 false .s32
  obtain ⟨-, -, -, -, -, -, -, -, -, -, oq, -⟩ := h.1 0 7 (.advance 0) (op (.atomic .z64 true 31)) a 31 15 1 1 0x10 .d 0x1234 9 0 0 false .z64
  obtain ⟨-, -, -, -, -, -, -, -, -, -, -, t⟩ := h.1 0 7 (.advance 0) (op (.load .b 5)) a 5 15 1 1 0x10 .b 0x1234 9 0 0 false .s64
  obtain ⟨part, -⟩ := h.2 0 7 0 half 4 true [⟨0, 0, 32, 32⟩, ⟨32, 1, 0, 32⟩] 9
  obtain ⟨-, X, last, -⟩ := h.2 0 7 0 wide 4 true [⟨0, 0, 32, 32⟩, ⟨32, 1, 0, 32⟩] 9
  exact ⟨⟨goesE p idle (by decide +kernel), goesE g _ (by decide +kernel), goesE v _ (by decide +kernel)⟩,
    ⟨goesE l _ ⟨⟨canonical (by decide +kernel), by decide +kernel⟩, by decide +kernel⟩,
      goesE m _ ⟨⟨canonical (by decide +kernel), by decide +kernel⟩, by decide +kernel⟩,
      goesE q _ ⟨⟨canonical (by decide +kernel), by decide +kernel⟩, by decide +kernel⟩,
      goesE y _ ⟨⟨canonical (by decide +kernel), by decide +kernel⟩, by decide +kernel⟩,
      goesE b _ ⟨⟨canonical (by decide +kernel), by decide +kernel⟩, by decide +kernel⟩,
      goesE k _ ⟨⟨canonical (by decide +kernel), by decide +kernel⟩, by decide +kernel⟩,
      goesE o _ ⟨⟨canonical (by decide +kernel), by decide +kernel⟩, by decide +kernel⟩,
      goesE oq _ ⟨⟨canonical (by decide +kernel), by decide +kernel⟩, by decide +kernel⟩,
      goesE t _ ⟨⟨canonical (by decide +kernel), by decide +kernel⟩, by decide +kernel⟩⟩,
    goesE part _ ⟨⟨canonical (by decide +kernel), by decide +kernel⟩, by decide +kernel⟩,
    goesE last _ ⟨⟨canonical (by decide +kernel), by decide +kernel⟩, by decide +kernel⟩⟩
/-- A request of package 3 for a granule of package 0, and one that the home hub holds. -/
def rem3 : RemReq := { id := 3 <<< 35, asid := 0, priv := 0, core := 0, ctx := 0, addr := 0x10000, op := .read, posted := false, launch := 0, who := none }
def home0 (a : AccSt) (r : RemReq := rem3) : HomeReq := { id := 4, req := r, acc := { va := 0x10000, mask := BitVec.allOnes 64, op := .read, st := a } }
/-- A block of 256 bytes in the own local store, its second granule, and an access to it. -/
def blk0 : Nat := localKey 0 + 0x4000
def map0 : Map := { key := blk0 + 64, isBlock := true, n := 2, blk := blk0 }
def acc0 (op : HomeOp) (st : AccSt := .bank) : Access := { va := 0xC000000000004040, mask := BitVec.allOnes 64, op := op, map := some map0, st := st }
def full0 : TagV := { rem := 0, gen := 3, st := 2 }
def empty0 : TagV := { rem := 4, gen := 3, st := 0 }
def w0 : Waiter := { blk := blk0, n := 2, desc := .parked (.lsu 0 7 0) 5 false false 0 7 }
/-- The block has the tag `t`; a load of context `x` makes the access. -/
def blkAt (t : TagV) (a : Access) (x : CtxId := 0) : State :=
  (core0 (ctx) fun k => { k with ops := [{ store0 with kind := .load .d 5, ctx := x, accs := [a] }] }).setMeta blk0 (TagV.pack t)
theorem witness_BlockSteps (h : Obligations.BlockSteps) :
    let packed := { blkAt empty0 (acc0 .read) with waiters := List.replicate 128 w0 }
    let b := ({ store := 0, bank := 0, pos := 0, who := .lsu 0 7 0, since := 0 } : BankReq)
    let e := ({ b with pos := 1, who := .lsu 1 7 0 } : BankReq)
    let m := ({ key := 0x1000, isBlock := true } : Map)
    let a := ({ va := 0x10038, mask := BitVec.allOnes 64, op := .read, map := some m, st := .relist } : Access)
    let o := fun (a : Access) => { store0 with kind := .load .d 5, accs := [a] }
    let f := ({ blk := 0x1000, n := 2 } : Fill)
    let w := ({ blk := 0x1000, n := 2, desc := .token 1 2 3 } : Waiter)
    let s := { idle with fills := [f] }
    let z := { idle with fills := [{ f with draining := true }] }
    let clr := ({ rem3 with op := .clear 9 } : RemReq)
    let own := ({ rem3 with id := 4 } : RemReq)
    let away := ({ own with addr := 0x0010000000000000 } : RemReq)
    let out := ({ pkg := 1, req := away, who := .lsu 0 7 0 } : RemOut)
    let hold := fun (h : HomeReq) => { idle with homes := [h] }
    let first := ({ id := 3, req := { own with id := 5, posted := true, op := .write 1 0 }, acc := { va := 0x10000, mask := 1, op := .write 1 0, st := .sent } } : HomeReq)
    let second := ({ home0 .fresh { own with posted := true } with op := 1 } : HomeReq)
    let tok := fun (l : List RemOut) => { core0 (ctx) (fun k => { k with ops := [o { a with st := .placed }] }) with sys := { idle.sys with tokens := l } }
    let cont := { out with cont := some (.cont 0x1000 0 0 0 false) }
    (Does (.bankAccess 0 0) { idle with banks := [b] } ∧ Does (.bankAccess 0 0) { idle with banks := [b, e] } ∧
      Does (.blockReadAtHome (.lsu 0 7 0) 0x1000) idle ∧ Does (.blockWriteGranule (.lsu 0 7 0) 0x1000) idle ∧
      Does (.waiterRetry (.lsu 0 7 0)) (core0 (ctx) fun k => { k with ops := [o a] }) ∧
      Does (.waiterRetry (.lsu 0 7 0)) (core0 (ctx) fun k => { k with ops := [o { a with st := .notFull }] }) ∧
      Does (.blockFillRelease 0x1000 2 (.lsu 0 7 0)) { core0 (ctx) (fun k => { k with ops := [o a] }) with fills := [{ f with before := [(0, 7)] }] } ∧
      Does (.blockFillRelease (localKey 0 + 64) 2 (.lsu 0 7 0)) { idle with fills := [{ f with blk := localKey 0 + 64 }] } ∧
      ({ z with waiters := [w] } : State).nextWaiter 0x1000 = some w ∧ Does (.drainDescriptor 0x1000 2) { z with waiters := [w] } ∧
      Does (.drainDescriptor 0x1000 2) z ∧ Does (.drainDescriptor 0x1000 2) s) ∧
    (Does (.remoteRequest rem3) { idle with doneIds := [rem3.id] } ∧
      Does (.remoteRequest rem3) idle ∧ Does (.remoteRequest clr) idle ∧ Does (.remoteRequest rem3) (hold (home0 .done)) ∧
      Does (.remoteRequest rem3) (hold (home0 .placed)) ∧ Does (.remoteRequest rem3) (hold (home0 .fresh)) ∧
      Does (.remoteRequest own) { idle with homes := [second, first] } ∧ Does (.remoteRetry 4) (hold (home0 .fresh own)) ∧
      Does (.remoteRetry 4) (hold (home0 .fresh away)) ∧ Does (.remoteRetry (2 ^ 40 + 4)) (tok [out]) ∧ Does (.remoteTokenWake 9) idle ∧
      Does (.remoteTokenWake 4) (tok [out]) ∧ Does (.remoteTokenWake 4) (tok [cont])) ∧
    ((blkAt full0 (acc0 (.write 1 5))).homePerform (.lsu 0 7 0) 3 = (blkAt full0 (acc0 (.write 1 5))).answerAt (.lsu 0 7 0) map0 3 (.trap 0 2) ∧
      (∃ u, (blkAt empty0 (acc0 (.write 1 5))).homePerform (.lsu 0 7 0) 3 = u) ∧ (∃ u, (blkAt full0 (acc0 .read)).homePerform (.lsu 0 7 0) 3 = u) ∧
      (∃ u, (blkAt full0 (acc0 .peek)).homePerform (.lsu 0 7 0) 3 = u) ∧ (∃ u, (blkAt empty0 (acc0 .peek)).homePerform (.lsu 0 7 0) 3 = u) ∧
      (∃ u, (blkAt full0 (acc0 .ldq)).homePerform (.lsu 0 7 0) 3 = u) ∧ (∃ u, (blkAt full0 (acc0 .ldtry)).homePerform (.lsu 0 7 0) 3 = u) ∧
      (∃ u, (blkAt empty0 (acc0 .ldtry)).homePerform (.lsu 0 7 0) 3 = u) ∧ ∃ u, (blkAt full0 (acc0 .bwait)).homePerform (.lsu 0 7 0) 3 = u) ∧
    ((∃ u, (blkAt empty0 (acc0 .read) 1).homePerform (.lsu 0 7 0) 3 = u) ∧ (∃ u, (blkAt empty0 (acc0 .read)).homePerform (.lsu 0 7 0) 3 = u) ∧
      (∃ u, packed.homePerform (.lsu 0 7 0) 3 = u)) ∧
    (∃ u, (blkAt empty0 (acc0 .read)).placeWaiter blk0 2 (.token 1 2 3) = u) ∧ (∃ u, (blkAt full0 (acc0 .read .placed)).wakeWaiter w0 = u) ∧
      TagV.unpack (TagV.pack full0) = full0 := by
  intro packed b e m a o f w s z clr own away out hold first second tok cont
  obtain ⟨b1, b2, b3, b4, b5, -, -, -, b9, b10, b11, b12⟩ := h.1 b e (.lsu 0 7 0) 0x1000 2 f { rem := 0, gen := 0, st := 0 } w a
  obtain ⟨-, -, -, -, -, b6, -⟩ := h.1 b e (.lsu 0 7 0) 0x1000 2 f { rem := 0, gen := 0, st := 0 } w { a with st := .notFull }
  obtain ⟨-, -, -, -, -, -, b7, -⟩ := h.1 b e (.lsu 0 7 0) 0x1000 2 { f with before := [(0, 7)] } { rem := 0, gen := 0, st := 0 } w a
  obtain ⟨-, -, -, -, -, -, -, b8, -⟩ := h.1 b e (.lsu 0 7 0) (localKey 0 + 64) 2 { f with blk := localKey 0 + 64 } { rem := 0, gen := 0, st := 0 } w a
  have r := fun q k n c => h.2.1 q k 4 n 0x00000009 c { a with st := .placed }
  obtain ⟨r1, r2, -, r4, -⟩ := r rem3 (home0 .done) 9 out
  obtain ⟨-, -, r3, -⟩ := r clr (home0 .done) 9 out
  obtain ⟨-, -, -, -, r5, -⟩ := r rem3 (home0 .placed) 9 out
  obtain ⟨-, -, -, -, -, r6, -⟩ := r rem3 (home0 .fresh) 9 out
  obtain ⟨-, -, -, -, -, -, r7, -⟩ := r own second 9 out
  obtain ⟨-, -, -, -, -, -, -, r8, -⟩ := r own (home0 .fresh own) 9 out
  obtain ⟨-, -, -, -, -, -, -, -, r9, r10, r11, -⟩ := r own (home0 .fresh away) 9 out
  obtain ⟨-, -, -, -, -, -, -, -, -, -, -, r12, -⟩ := h.2.1 own (home0 .fresh away) 4 9 4 out { a with st := .placed }
  obtain ⟨-, -, -, -, -, -, -, -, -, -, -, -, r13⟩ := h.2.1 own (home0 .fresh away) 4 9 4 cont { a with st := .placed }
  have f1 := fun a t => h.2.2 (.lsu 0 7 0) a map0 3 1 t 1 5 0 w0 false 0 7 5
  have wr := (f1 (acc0 (.write 1 5)) empty0).2.1 (blkAt empty0 (acc0 (.write 1 5))) (by decide +kernel) (canonical (by decide +kernel))
    (by decide +kernel) (by decide +kernel) rfl (by decide +kernel) (by decide +kernel)
  obtain ⟨-, -, -, -, -, -, -, ld, -⟩ := f1 (acc0 .ldtry) empty0
  obtain ⟨-, -, -, -, -, -, -, -, bw, -⟩ := f1 (acc0 .bwait) full0
  obtain ⟨-, -, -, -, -, -, -, -, -, pk, pw, -⟩ := f1 (acc0 .read) empty0
  obtain ⟨-, -, -, -, -, -, -, -, -, -, -, ww, tg⟩ := f1 (acc0 .read .placed) full0
  have woken : ∀ c i j p, out.who = .lsu c i j → (ev (.remoteTokenWake 4) (tok [out])).op c i = some p → p.suspends = false := by
    intro c i j p e1 e2
    injection e1 with e3 e4
    subst e3 e4
    have : (ev (.remoteTokenWake 4) (tok [out])).op 0 7 = some (o { a with st := .placed }) := by decide +kernel
    rw [this] at e2
    injection e2 with e2
    rw [← e2]
    rfl
  exact ⟨⟨goesE b1 _ (by decide +kernel), goesE b2 _ (by decide +kernel), goesE b3 idle trivial, goesE b4 idle trivial,
      goesE b5 _ (by decide +kernel), goesE b6 _ (by decide +kernel), goesE b7 _ (by decide +kernel), goesE b8 _ (by decide +kernel),
      b9 _ (by decide +kernel), goesE b10 _ (by decide +kernel), goesE b11 z (by decide +kernel), goesE b12 s (by decide +kernel)⟩,
    ⟨goesE r1 _ (by decide +kernel), goesE r2 idle ⟨by decide +kernel, by decide +kernel, by decide +kernel, nofun⟩, goesE r3 idle (by decide +kernel), goesE r4 _ (by decide +kernel),
    goesE r5 _ (by decide +kernel), goesE r6 _ (by decide +kernel), goesE r7 _ (by decide +kernel), goesE r8 _ (by decide +kernel),
    goesE r9 _ (by decide +kernel), goesE r10 _ (by decide +kernel), goesE r11 idle (by decide +kernel), goesE r12 _ ⟨by decide +kernel, rfl, by decide +kernel, rfl, woken⟩,
    goesE (r13 0x1000 0 0 0 false) _ (by decide +kernel)⟩,
    ⟨(f1 (acc0 (.write 1 5)) full0).1 _ (by decide +kernel) rfl (by decide +kernel), ⟨_, wr.choose_spec.1⟩,
      ⟨_, (f1 (acc0 .read) full0).2.2.1 _ (by decide +kernel) rfl (by decide +kernel)⟩,
      ⟨_, (f1 (acc0 .peek) full0).2.2.2.1 _ (by decide +kernel) rfl (by decide +kernel)⟩,
      ⟨_, (f1 (acc0 .peek) empty0).2.2.2.2.1 _ (by decide +kernel) rfl (by decide +kernel)⟩,
      ⟨_, (f1 (acc0 .ldq) full0).2.2.2.2.2.1 _ (by decide +kernel) rfl trivial⟩,
      ⟨_, (f1 (acc0 .ldtry) full0).2.2.2.2.2.2.1 _ (by decide +kernel) rfl (by decide +kernel)⟩,
      ⟨_, ld _ (by decide +kernel) rfl (by decide +kernel)⟩,
      ⟨_, bw _ (by decide +kernel) rfl (by decide +kernel)⟩⟩,
    ⟨⟨_, (pk 0 7 0 _ (blkAt empty0 (acc0 .read) 1) (by decide +kernel) rfl rfl (by decide +kernel) (.inl rfl)).1 (by decide +kernel)⟩,
      ⟨_, (pk 0 7 0 _ (blkAt empty0 (acc0 .read)) (by decide +kernel) rfl rfl (by decide +kernel) (.inl rfl)).2.1 (by decide +kernel) (by decide +kernel)⟩,
      ⟨_, (pk 0 7 0 _ packed (by decide +kernel) rfl rfl (by decide +kernel) (.inl rfl)).2.2 (by decide +kernel) (by decide +kernel)⟩⟩,
    ⟨_, pw (blkAt empty0 (acc0 .read)) (.token 1 2 3) (by decide +kernel) (by decide +kernel)⟩,
    ⟨_, ww 0 7 0 _ .d (blkAt full0 (acc0 .read .placed)) rfl rfl rfl (by decide +kernel) rfl rfl rfl (by decide +kernel) (by decide +kernel) rfl
      (by decide +kernel)⟩,
    (tg (by decide) (by decide) (by decide)).1⟩
theorem cleared {s : State} {blk n : Nat} (h : (match s.blkClear blk n with | .done _ => true | _ => false) = true) :
    ∃ u, s.blkClear blk n = .done u := by
  cases hc : s.blkClear blk n <;> simp_all
theorem deferred {s : State} {blk n : Nat} (h : (match s.blkClear blk n with | .deferred => true | _ => false) = true) :
    s.blkClear blk n = .deferred := by
  cases hc : s.blkClear blk n <;> simp_all
/-- Launch 5. -/
def launch0 : Launch :=
  { num := 5, recAddr := 0x20000, recAsid := 0, quad := 0, dies := 1, power := 0, members := 1, asid := 0, level := 0, prio := 0, gangs := 1, entry := 0x30000
    args := 0, frame := 0x40000, stride := 0x400, completion := 0x50000, trigger := 0, fmt := 0, scl := 0 }
theorem witness_ClearSteps (h : Obligations.ClearSteps) :
    let m := ({ key := 0x1000, isBlock := true, blk := 0x1000 } : Map)
    let ls := ({ key := localKey 0 + 64, isBlock := true, blk := localKey 0 + 64 } : Map)
    let edge := ({ key := 0xFC0, isBlock := true, blk := 0xFC0 } : Map)
    let r := ({ id := 7, ctx := 0, tid := 0, pc := 0, va := 0x1000, asid := 0, priv := .m, count := 2, acc := { va := 0x1000, mask := 0, op := .clear 2 } } : ClrRun)
    let s := fun (r : ClrRun) => core0 (ctx) fun k => { k with clrs := [r] }
    let at_ := fun (m : Map) => { r with acc := { r.acc with map := some m, st := .sent } }
    let watched := { ls with watch := some 0xFF }
    let past := { r with next := 1, first := some edge }
    let one := { r with first := some m }
    let deferring := (s (at_ ls)).setMeta (localKey 0 + 64) (TagV.pack { rem := 1, gen := 0, st := 1 })
    let draining := { s (at_ ls) with fills := [{ blk := localKey 0 + 64, n := 0, draining := true }] }
    let away := { rem3 with addr := 0x0010000000000000 }
    let hold := fun (h : HomeReq) => { idle with homes := [h] }
    Does (.clrAtHome (.clr 0 7) 0) idle ∧
      Does (.clrAtHome (.clr 0 7) 0) ((s r).modCore 0 fun k => { k with ops := [{ store0 with id := 6, accs := [{ r.acc with st := .sent }] }] }) ∧
      Does (.clrAtHome (.clr 0 7) 1) (s past) ∧ Does (.clrAtHome (.clr 0 7) 0) (s one) ∧
      Does (.clrAtHome (.clr 0 7) 0) (s (at_ { m with isBlock := false })) ∧ Does (.clrAtHome (.clr 0 7) 0) (s (at_ ls)) ∧
      Does (.clrAtHome (.clr 0 7) 0) deferring ∧ Does (.clrAtHome (.clr 0 7) 0) (s (at_ watched)) ∧ Does (.clrAtHome (.clr 0 7) 0) draining ∧
      Does (.watchIncrement (.clr 0 7) 0) (s (at_ watched)) ∧ (idle.clrAdvance (.clr 0 7) r).cyc = 0 ∧
      ({ s r with cyc := 5 }.endClr (.clr 0 7) { r with refused := 1 } .done).cyc = 5 ∧
      ((hold { home0 .sent with id := 7 }).endClr (.home 7) r .done).cyc = 0 ∧ Does (.postedAck 4 0) (hold (home0 .sent)) ∧
      Does (.postedAck 4 0) (hold (home0 .sent away)) ∧ Does (.postedAck 4 3) (hold (home0 .sent)) ∧ Does (.postedAck 4 7) (hold (home0 .sent)) ∧
      ({ idle with launches := [launch0] }.failLaunch 5 6).launches = [{ launch0 with status := 3, cause := 6 }] := by
  intro m ls edge r s at_ watched past one deferring draining away hold
  obtain ⟨u1, h1⟩ := cleared (s := ev (.clrAtHome (.clr 0 7) 0) (s (at_ ls))) (blk := localKey 0 + 64) (n := 0) (by decide +kernel)
  obtain ⟨u2, h2⟩ := cleared (s := ev (.clrAtHome (.clr 0 7) 0) (s (at_ watched))) (blk := localKey 0 + 64) (n := 0) (by decide +kernel)
  have a := fun idx r m u => h.1 (.clr 0 7) 0 7 idx r m edge 0xFF u (home0 .sent)
  have a1 := fun r => h.1 (.clr 0 7) 0 7 0 r m m 0xFF idle (home0 .sent)
  have q := fun k x => h.2 4 k x
  have adv := a 0 r m idle
  have z := adv.2.2.2.2.2.2.2.2.2.2
  have z2 := (a 0 { r with refused := 1 } m idle).2.2.2.2.2.2.2.2.2.2.2
  exact ⟨goesE (a 0 r m idle).1 idle (by decide +kernel), goesE (a 0 r m idle).2.1 _ (by decide +kernel),
    goesE (a 1 past m idle).2.2.1 _ (by decide +kernel), goesE (a1 one).2.2.2.1 _ (by decide +kernel),
    goesE (a 0 (at_ { m with isBlock := false }) { m with isBlock := false } idle).2.2.2.2.1 _ (by decide +kernel),
    goesE (a 0 (at_ ls) ls u1).2.2.2.2.2.1 _ ⟨⟨⟨by decide +kernel, by decide +kernel⟩, by decide +kernel, by decide +kernel⟩, by decide +kernel, h1, by decide +kernel⟩,
    goesE (a 0 (at_ ls) ls idle).2.2.2.2.2.2.1 deferring ⟨⟨⟨by decide +kernel, by decide +kernel⟩, by decide +kernel, by decide +kernel⟩, by decide +kernel, deferred (by decide +kernel)⟩,
    goesE (a 0 (at_ watched) watched u2).2.2.2.2.2.2.2.1 _ ⟨⟨⟨by decide +kernel, by decide +kernel⟩, by decide +kernel, by decide +kernel⟩, by decide +kernel, h2, by decide +kernel, by decide +kernel⟩,
    goesE (a 0 (at_ ls) ls idle).2.2.2.2.2.2.2.2.1 draining (by decide +kernel),
    goesE (a 0 (at_ watched) watched idle).2.2.2.2.2.2.2.2.2.1 _ (by decide +kernel),
    (congrArg State.cyc ((z.1 idle).2 (by decide))).trans (by decide +kernel), (congrArg State.cyc (z2.1 _ (by decide))).trans (by decide +kernel),
    (congrArg State.cyc ((h.1 (.clr 0 7) 0 7 0 r m edge 0xFF idle { home0 .sent with id := 7 }).2.2.2.2.2.2.2.2.2.2.2.2 _ (by decide +kernel))).trans (by decide +kernel),
    goesE (q 0 (home0 .sent)).1 _ (by decide +kernel), goesE (q 0 (home0 .sent away)).2.1 _ (by decide +kernel),
    goesE (q 3 (home0 .sent)).2.2.1 _ (by decide +kernel), goesE (q 0 (home0 .sent)).2.2.2.1 _ (by decide +kernel),
    ((q 0 (home0 .sent)).2.2.2.2 _ 5 launch0 6 (by decide +kernel) (by decide)).trans (by decide +kernel)⟩
/-- A walk for core 0's context 0. -/
def walk0 : Walk := { id := 3, grp := 0, asid := 0, va := 0x10000, waiters := [.park 0 0], started := true }
theorem witness_FaultSteps (h : Obligations.FaultSteps) :
    let m := ({ key := 0x1000, isBlock := false } : Map)
    let a := ({ va := 0x10020, mask := BitVec.allOnes 64, op := .read, map := some m } : Access)
    let f := fun (st : AccSt) (c : Nat) => mach { ctx with st := .parked, park := some .fetch, acc := some { a with st := st, cause := c } }
    let leaf := ({ asid := 0, base := 0x10000, bits := 12, e0 := 0x10003, e1 := 0x380000, pte := localKey 0 + 0x100 } : TlbEnt)
    let bad := ({ leaf with e1 := 0x300000 } : TlbEnt)
    let stuck := served { ctx with acc := some { a with st := .faulted } }
    let alone := mach { ctx with acc := some { a with st := .faulted } }
    let ent := { faultEnt with waiters := [.park 0 0] }
    let late := { ent with issuer := some (0, 0, 0, 9) }
    let held := fun (e : FaultEnt) => { alone with faults := [(2, some e)] }
    let cmd := ({ seq := 4, ctx := 0, tid := 0, pc := 0, word0 := 0, word1 := 0, asid := 0, priv := .m, acc := some { a with st := .faulted } } : Cmd)
    let job := ({ id := 4, kind := .fetch 0, quad := 0, acc := some { a with st := .faulted } } : Job)
    let home := { faulting with table := 8 }
    let serv := { home with agent := 6 }
    let own := ({ rem3 with id := 4 } : RemReq)
    let full := fun (h : List HomeReq) => { (served ctx).modCore 5 (fun k => { k with cmds := [cmd] }) with homes := h, jobs := [job], bar0 := [(0x3018, 0x8000000000000005)], faults := (List.range 256).map fun i => (8 * 65536 + i, some { faultEnt with info := { home with asid := 9 } }) }
    let tbl := ({ idle with walks := [walk0], walkCache := [(0, [(0, BitVec.ofNat 64 (localKey 0))])] } : State).rawWrite (localKey 0 + 0x100) (BitVec.allOnes 64) (0x10003 ||| 0x380000 <<< 64)
    let busy := ({ idle with walks := [walk0], coh := { queue := [.wb 0 0 0 0 false] } } : State)
    let walking := mach { ctx with priv := .u, acc := some { a with st := .walking } }
    Does (.fetchBlockFill 0 0 0) idle ∧ Does (.fetchBlockFill 0 0 0) (f .fresh 0) ∧ Does (.fetchBlockFill 0 0 0) (f .done 0) ∧
    Does (.fetchBlockFill 0 0 0) (f .failed 12) ∧ Does (.fetchBlockFill 0 0 0) (f .failed 2) ∧
    Does (.faultPost (.park 0 0) faulting) { stuck with faults := [(2, some faultEnt)] } ∧
    Does (.faultPost (.park 0 0) faulting) alone ∧ Does (.faultPost (.park 0 0) faulting) stuck ∧
    Does (.faultPost (.copy 5 4) home) (full []) ∧ Does (.faultPost (.serv 4) serv) (full []) ∧
    Does (.faultPost (.home 4) home) (full [home0 .faulted own]) ∧ Does (.faultPost (.home 4) home) (full [home0 .faulted]) ∧
    Does (.faultTableRetry (.park 0 0)) alone ∧
    Does (.faultReplay 0 2 0) { (held late).modCore 0 (fun k => { k with ops := [store0] }) with cyc := 0 } ∧
    Does (.faultReplay 0 2 0) (held ent) ∧ Does (.faultReplay 0 2 1) (held ent) ∧ Does (.walk 0 3) tbl ∧ Does (.walk 0 3) busy ∧
    (walking.walkResult walk0 (.leaf leaf false) (.park 0 0)).cyc = 0 ∧
    (walking.walkResult walk0 (.leaf bad false) (.park 0 0)).cyc = 0 := by
  intro m a f leaf bad stuck alone ent late held cmd job home serv own full tbl busy walking
  have p := fun st c => h.1 0 0 0 { a with st := st, cause := c } m
  have q := h.2 (.park 0 0) faulting { a with st := .faulted } 2 1 faultEnt 5 0 3 walk0 leaf true 0 0 (home0 .faulted)
  have x := fun who f a hq => h.2 who f a 0 4 faultEnt 5 0 3 walk0 leaf false 0 0 hq
  have n := fun e => h.2 (.park 0 0) faulting { a with st := .faulted } 0 2 e 5 0 3 walk0 leaf false 0 0 (home0 .faulted)
  have y := fun l k => h.2 (.park 0 0) faulting { a with st := .walking } 0 2 faultEnt 5 0 3 walk0 l false k 0 (home0 .faulted)
  exact ⟨goesE (p .fresh 0).1 _ (by decide +kernel), goesE (p .fresh 0).2.1 _ (by decide +kernel),
    goesE (p .done 0).2.2.1 _ (by decide +kernel), goesE (p .failed 12).2.2.2.1 _ (by decide +kernel),
    goesE (p .failed 2).2.2.2.2 _ (by decide +kernel), goesE q.1 _ (by decide +kernel), goesE q.2.1 _ (by decide +kernel),
    goesE (n faultEnt).2.2.1 _ (by decide +kernel),
    goesE (x (.copy 5 4) home { a with st := .faulted } (home0 .faulted)).2.2.2.1 _ (by decide +kernel),
    goesE (x (.serv 4) serv { a with st := .faulted } (home0 .faulted)).2.2.2.2.1 _ (by decide +kernel),
    goesE (x (.home 4) home (home0 .faulted own).acc (home0 .faulted own)).2.2.2.2.2.1 _ (by decide +kernel),
    goesE (x (.home 4) home (home0 .faulted).acc (home0 .faulted)).2.2.2.2.2.2.1 _ (by decide +kernel),
    goesE q.2.2.2.2.2.2.2.1 _ (by decide +kernel), goesE (past8 (n late)).1 _ (by decide +kernel),
    goesE (past8 (n ent)).2.1 _ (by decide +kernel), goesE (past8 (n ent)).2.2.1 _ (by decide +kernel),
    goesE (past8 q).2.2.2.1 _ (by decide +kernel), goesE (past8 q).2.2.2.2.1 _ (by decide +kernel),
    (congrArg State.cyc (((past8 (y leaf 0)).2.2.2.2.2 walking (by decide +kernel) rfl (by decide +kernel)).1 (by decide +kernel))).trans (by decide +kernel),
    (congrArg State.cyc (((past8 (y bad 3)).2.2.2.2.2 walking (by decide +kernel) rfl (by decide +kernel)).2 (by decide +kernel))).trans (by decide +kernel)⟩
/-- A copy command of core 0's context 0, of one granule. -/
def cmd0 : Cmd := { seq := 1, ctx := 0, tid := 0, pc := 0, word0 := 0, word1 := 0x400, asid := 0, priv := .m }
theorem witness_CopySteps (h : Obligations.CopySteps) :
    let on := fun (m : Cmd) => core0 (ctx) fun k => { k with cmds := [m] }
    let sent := ({ va := 0xC000000000004000, mask := BitVec.allOnes 64, op := .read, st := .sent } : Access)
    let long := { cmd0 with word1 := 0x00F0000000000400 }
    let busy := { long with started := 256, acc := some sent }
    let read := { long with acc := some { sent with st := .done, rdata := 9 } }
    let wrote := { read with writing := true }
    let fails := fun (n : Nat) => ({ sent with st := .failed, cause := n } : Access)
    let wr := ({ sent with st := .fresh, op := .write (BitVec.allOnes 64) 9 } : Access)
    let bar := { cmd0 with word0 := 1 <<< 56 }
    let gone := { cmd0 with orphan := true }
    let t := core0 { ctx with bars := Vector.replicate 4 { armed := true, pending := 64, init := 64 } } fun k => { k with cmds := [bar] }
    Does (.copyAdmit 0 0) idle ∧ Does (.copyBeat 0) idle ∧ Does (.copyBeat 0) (on busy) ∧ Does (.copyBeat 0) (on cmd0) ∧
    Does (.copyBeat 0) ((on cmd0).modCore 0 fun k => { k with beatAt := 9 }) ∧
    Does (.copyBeat 0) (on { cmd0 with started := 64, acc := some sent }) ∧ (∃ u, (on read).copyGo 0 read = u) ∧
    (∃ u, (on wrote).copyGo 0 { wrote with off := 960 } = u) ∧ (∃ u, (on wrote).copyGo 0 wrote = u) ∧
    (∃ u, (on cmd0).copyGo 0 { cmd0 with acc := some (fails 2) } = u) ∧
    ((on { cmd0 with acc := some wr }).go (.copy 0 1)).byte (localKey 0 + 0x4000) = 9 ∧ Does (.copyCommandComplete 0 1) idle ∧
    Does (.copyCommandComplete 0 1) (on cmd0) ∧ Does (.copyCommandComplete 0 1) t ∧ Does (.copyCommandEnd 0 1 8 3) (on gone) ∧
    Does (.copyCommandEnd 0 1 8 3) (on cmd0) := by
  intro on sent long busy read wrote fails wr bar gone t
  have a := fun m => h 0 0 1 8 3 m
  exact ⟨goesE (a cmd0).1 _ (by decide +kernel), goesE (a cmd0).2.1 _ (by decide +kernel),
    goesE (a busy).2.2.1 _ (by decide +kernel), goesE (a cmd0).2.2.2.1 _ (by decide +kernel),
    goesE (a cmd0).2.2.2.2.1 _ (by decide +kernel), goesE (a cmd0).2.2.2.2.2.1 _ (by decide +kernel),
    ⟨_, ((a read).2.2.2.2.2.2.1 (on read) _ rfl rfl).1 rfl⟩,
    ⟨_, ((a { wrote with off := 960 }).2.2.2.2.2.2.1 (on wrote) _ rfl rfl).2.1 rfl (by decide +kernel)⟩,
    ⟨_, ((a wrote).2.2.2.2.2.2.1 (on wrote) _ rfl rfl).2.2 rfl (by decide +kernel) (by decide +kernel)⟩,
    ⟨_, ((a { cmd0 with acc := some (fails 2) }).2.2.2.2.2.2.2.1 (on cmd0) _ rfl rfl (by decide)).choose_spec.choose_spec.1⟩,
    ((past8 (a cmd0)).1 (on { cmd0 with acc := some wr }) wr 9 0 0x4000 (canonical (by decide +kernel)) rfl rfl rfl (by decide +kernel) (by decide +kernel) (by decide +kernel) (by decide +kernel) _).trans (by decide +kernel),
    goesE (past8 (a cmd0)).2.1 _ (by decide +kernel), goesE (past8 (a cmd0)).2.2.1 _ (by decide +kernel),
    goesE (past8 (a bar)).2.2.2.1 _ (by decide +kernel), goesE (past8 (a gone)).2.2.2.2.1 _ (by decide +kernel),
    goesE (past8 (a cmd0)).2.2.2.2.2 _ (by decide +kernel)⟩
theorem witness_WaitSteps (h : Obligations.WaitSteps) :
    let f := fun (n : Nat) (sent : Bool) (o : Order) (k : Core → Core) => core0 { ctx with st := .parked, park := some (.fence 2 o n sent) } k
    let held := { f 1 true 3 (fun k => { k with ops := [{ store0 with ctx := 3 }] }) with held := [{ blk := 0x1000, who := .lsu 0 7 0 }] }
    let holds := held.modAcc (.lsu 0 7 0) fun a => { a with op := .write 1 0 }
    let sys := mach { ctx with st := .parked, park := some (.fence 7 3 0 false), devLines := [5] }
    let dev := { sys with coh := { sys.coh with wbs := [(0, 5, 0, false)] } }
    let g := ({ launch := 5, index := 0, level := 0, members := [(0, 0)], due := [(3, 10)] } : Gang)
    let at3 := { ctx with st := .parked, park := some (.bar 3 false), launch := 5, gang := 0 }
    let bar := fun (m : Ctx) (cyc : Nat) => { core0 m id with gangs := [g], cyc := cyc }
    let a := ({ va := 0x10008, mask := BitVec.allOnes 64, op := .read, rdata := 7 <<< 64 } : Access)
    let d := { a with st := .done }
    let fr := { a with st := .fresh }
    let pf := { a with st := .performed }
    let earlier := { store0 with accs := [{ va := 0x10010, mask := 1, op := .write 1 0 }] }
    let w := fun (old : Word) (a : Access) (k : Core → Core) => core0 { ctx with st := .parked, park := some (.waitl 5 old none false), acc := some a } k
    let sleep := { mach { ctx with st := .parked, park := some (.sleep 5 100 true) } with cyc := 100 }
    Does (.probeEcho 0 0 1) idle ∧ Does (.probeEcho 0 0 0) (f 1 true 3 id) ∧ Does (.probeEcho 0 0 0) (f 2 true 3 id) ∧
    Does (.probeEcho 0 0 0) holds ∧ Does (.probeEcho 0 0 0) dev ∧ Does (.probeEcho 0 0 0) (f 0 false 1 id) ∧
    Does (.probeEcho 0 0 0) (f 0 false 3 fun k => { k with ops := [store0] }) ∧ Does (.barrierResume 5 0 3) (bar at3 9) ∧
    Does (.barrierResume 5 0 3) (bar at3 10) ∧ Does (.barrierResume 5 0 3) (bar { at3 with posted := 1 } 10) ∧
    Does (.barrierResume 5 0 3) (bar { at3 with acc := some fr } 10) ∧ Does (.waitlWake 0 0 0) (w 0 d id) ∧
    Does (.waitlWake 0 0 0) (w 7 d id) ∧ Does (.waitlWake 0 0 0) (w 7 fr fun k => { k with ops := [earlier], nextId := 9 }) ∧
    Does (.waitlWake 0 0 0) (w 7 fr id) ∧ Does (.waitlPoll 0 0 0) (w 7 pf id) ∧ Does (.sleepDeadline 0 0 0) sleep ∧
    Does (.sleepDeadline 0 0 1) sleep := by
  intro f held holds sys dev g at3 bar a d fr pf earlier w sleep
  have p := fun tid o n old a => h 0 0 tid 2 o n 5 0 3 g 10 5 old a 100 true
  exact ⟨goesE (p 1 3 0 0 d).1 _ (by decide +kernel), goesE (p 0 3 0 0 d).2.1 _ (by decide +kernel),
    goesE (p 0 3 0 0 d).2.2.1 _ (by decide +kernel), goesE (p 0 3 1 0 d).2.2.2.1 _ (by decide +kernel),
    goesE (p 0 3 0 0 d).2.2.2.2.1 _ (by decide +kernel), goesE (p 0 1 0 0 d).2.2.2.2.2.1 _ (by decide +kernel),
    goesE (p 0 3 0 0 d).2.2.2.2.2.2.1 _ (by decide +kernel), goesE (p 0 3 0 0 d).2.2.2.2.2.2.2.1 _ (by decide +kernel),
    goesE (past8 (p 0 3 0 0 d)).1 _ (by decide +kernel), goesE (past8 (p 0 3 0 0 d)).2.1 _ (by decide +kernel),
    goesE (past8 (p 0 3 0 0 fr)).2.2.1 _ (by decide +kernel), goesE (past8 (p 0 3 0 0 d)).2.2.2.1 _ (by decide +kernel),
    goesE (past8 (p 0 3 0 7 d)).2.2.2.2.1 _ (by decide +kernel), goesE (past8 (p 0 3 0 7 fr)).2.2.2.2.2.1 _ (by decide +kernel),
    goesE (past8 (p 0 3 0 7 fr)).2.2.2.2.2.2.1 _ (by decide +kernel),
    goesE (past8 (p 0 3 0 7 pf)).2.2.2.2.2.2.2.1 _ (by decide +kernel),
    goesE (past8 (past8 (p 0 3 0 0 d))).1 _ (by decide +kernel), goesE (past8 (past8 (p 1 3 0 0 d))).2 _ (by decide +kernel)⟩
theorem witness_SuspensionSteps (h : Obligations.SuspensionSteps) :
    let m := ({ key := localKey 0 + 64, isBlock := true, blk := localKey 0 + 64 } : Map)
    let a := ({ va := 0x10000, mask := BitVec.allOnes 64, op := .read, map := some m, st := .notFull } : Access)
    let o := { store0 with kind := .load .d 5, suspends := true, accs := [a] }
    let far' := { o with accs := [{ a with map := none, st := .placed }] }
    let s := fun (t : Ctx) => core0 { t with g := regs [(29, 0x1040)] } fun k => { k with ops := [o] }
    let away := fun (l : List RemOut) =>
      { core0 { ctx [(29, 0x1040)] with st := .parked, park := some (.suspend 7) } (fun k => { k with ops := [far'] }) with sys := { idle.sys with tokens := l } }
    let odd := core0 { ctx with g := regs [(29, 0x1048)] } fun k => { k with ops := [o] }
    let d := { a with st := .done }
    let drained := fun (g : Word) (a : Option Access) => mach { ctx [(29, g)] with st := .parked, park := some .yieldDrain, acc := a }
    let due := { s ctx with agenda := [(9, .deferredTrapReport 0 0 0 { kind := 2, cause := 3, pc := 8 })] }
    let saved := { ctx with preempt := some 0 }
    let sv := fun (n : Nat) => core0 { saved with st := .saving, progress := n } fun k => { k with savebase := 0x14000 }
    let ev0 := fun (n : Nat) => core0 { ctx with st := .parked, park := some (.evac 5 0 0x20000 n), acc := some d } fun k => { k with savebase := 0x14000 }
    let key := localKey 0 + (ev0 22).myCore.slotOff 0 + 64 * 23
    Does (.suspension 0 0 7) (s { ctx with posted := 1 }) ∧ Does (.suspension 0 0 7) due ∧ Does (.suspension 0 0 7) odd ∧
    Does (.suspension 0 0 7) (s ctx) ∧ Does (.suspension 0 0 7) (s { ctx with st := .parked, park := some (.suspend 7) }) ∧
    Does (.suspension 0 0 7) (away [{ pkg := 1, req := rem3, who := .lsu 0 7 0 }]) ∧ Does (.suspension 0 0 7) (away []) ∧
    Does (.suspension 0 0 0) (drained 0x1040 (some d)) ∧ Does (.suspension 0 0 0) (drained 0x1048 none) ∧
    Does (.suspension 0 0 0) (drained 0x1040 none) ∧ Does (.preemptTakeEffect 0 0) (mach { saved with inHandler := true }) ∧
    Does (.preemptTakeEffect 0 0) (mach saved) ∧ Does (.saveWrite 0 0) (sv 22) ∧ Does (.saveWrite 0 0) (sv 23) ∧
    Does (.evacAcknowledged 0) (failing key (ev0 22)) ∧ Does (.evacAcknowledged 0) (ev0 22) ∧
    Does (.evacAcknowledged 0) (ev0 23) ∧ Does (.haltTakeEffect 0 0) (mach { ctx with halt := some .hold }) ∧
    Does (.haltTakeEffect 0 0) (mach { ctx with reaping := true }) ∧
    Does (.haltTakeEffect 0 0) (core0 { ctx with reaping := true } fun k => { k with ops := [{ store0 with accs := [{ va := 0x10008, mask := 1, op := .read, st := .sent }] }] }) ∧
    Does (.haltTakeEffect 0 0) (mach { ctx with hold := true }) ∧
    Does (.holdtTimeout 0 0 0) (mach { ctx with st := .parked, park := some (.holdt 5 1 1) }) := by
  intro m a o far' s away odd d drained due saved sv ev0 key
  obtain ⟨b, hb⟩ : ∃ b, (ev (.evacAcknowledged 0) (ev0 22)).evacPart 0 0 0x20000 23 = some b := Option.isSome_iff_exists.mp (by decide +kernel)
  obtain ⟨b', hb'⟩ : ∃ b, (ev (.evacAcknowledged 0) (failing key (ev0 22))).evacPart 0 0 0x20000 23 = some b := Option.isSome_iff_exists.mp (by decide +kernel)
  have none_ : ∀ m, far'.waitMap = some m → m.isBlock = false := fun m hm => by
    rw [show far'.waitMap = none by decide +kernel] at hm; cases hm
  have p := fun o k => h.1 0 0 7 o m { rem := 1, gen := 0, st := 0 } d k
  have q := fun n b => h.2 0 0 n 0 5 0 key 0x20000 d b .hold 1 1
  exact ⟨goesE (p o 1).1 _ (by decide +kernel), goesE (p o 1).2.1 _ (by decide +kernel),
    goesE (p o 1).2.2.1 _ (by decide +kernel), goesE (p o 1).2.2.2.1 _ (by decide +kernel),
    goesE (p o 1).2.2.2.2.1 _ (by decide +kernel),
    goesE ((p far' 1).2.2.2.2.2.1).1 _ ⟨⟨by decide +kernel, by decide +kernel, by decide +kernel, none_⟩, by decide +kernel⟩,
    goesE ((p far' 1).2.2.2.2.2.1).2 _ ⟨⟨by decide +kernel, by decide +kernel, by decide +kernel, none_⟩, by decide +kernel⟩,
    goesE (p o 1).2.2.2.2.2.2.1 _ (by decide +kernel), goesE ((p o 1).2.2.2.2.2.2.2).1 _ (by decide +kernel),
    goesE ((p o 1).2.2.2.2.2.2.2).2 _ (by decide +kernel), goesE (q 0 b).1 _ (by decide +kernel),
    goesE (q 0 b).2.1 _ (by decide +kernel), goesE (q 0 b).2.2.1 _ (by decide +kernel),
    goesE (q 0 b).2.2.2.1 _ (by decide +kernel),
    goesE (q 22 b').2.2.2.2.1 _ ⟨by decide +kernel, by decide +kernel, by decide +kernel, hb', by decide +kernel⟩,
    goesE (q 22 b).2.2.2.2.2.1 _ ⟨by decide +kernel, by decide +kernel, by decide +kernel, hb, by decide +kernel⟩,
    goesE (q 23 b).2.2.2.2.2.2.1 _ (by decide +kernel),
    goesE (q 0 b).2.2.2.2.2.2.2.1 _ ⟨by decide +kernel, by decide +kernel, by decide +kernel, nofun, by decide +kernel, by decide +kernel⟩,
    goesE (past8 (q 0 b)).1 _ (by decide +kernel), goesE (past8 (q 0 b)).2.1 _ (by decide +kernel),
    goesE (past8 (q 0 b)).2.2.1 _ (by decide +kernel), goesE (past8 (q 0 b)).2.2.2 _ (by decide +kernel)⟩
def msg0 : Msg := { dst := 5, pkg := 0, kind := 0, src := 0, ctx := 0, asid := 0, first := true, last := true, data := 0 }
theorem witness_MessageSteps (h : Obligations.MessageSteps) :
    let s := fun (p : Park) => mach { ctx with st := .parked, park := some p }
    let q := fun (m : Msg) (l : List Msg) => core0 (ctx) fun k => { k with sendQ := [m], inQ := l }
    let timed := { core0 (ctx) (fun k => { k with timer := 0x8000000000000064 }) with cyc := 100 }
    let e := fun (d : Option G) (st : CtxSt) => core0 { ctx with st := .parked, park := some (.emu d 0 1 3 9) } fun k => { k with ctxs := k.ctxs.setIfInBounds 1 { st := st } }
    let open_ := (e none .halted).modCore 0 fun k => { k with ops := [{ store0 with ctx := 1 }] }
    let low := s (.movc 0x40 0x8000000000010000)
    let deferring := ({ low with rgns := SMap.set 0 [] (rgnIdx 0 0x40) 0x8000000000010000 } : State).setMeta (storeKey 1 0) (TagV.pack { rem := 1, gen := 0, st := 1 })
    let sg := fun (n : Nat) => { s (.sgway 5) with sgway := [(0, 0, 0xF000, n)] }
    let held := (sg 1).modCore 0 fun k => { k with cmds := [{ cmd0 with before := [0] }] }
    let inv := ({ core := 0, ctx := 0, tid := 0, kind := 2, asid := 0, va := 0 } : Tlbi)
    Does (.mailboxArrival msg0) idle ∧ Does (.gangStartRecord 0 7) idle ∧ Does (.meshCreditReturn 0) (q msg0 [msg0]) ∧
    Does (.meshCreditReturn 0) (q msg0 []) ∧ Does (.meshCreditReturn 0) (q { msg0 with pkg := 31 } []) ∧
    Does (.timerFire 0) timed ∧ Does (.timerFire 0) idle ∧ Does (.storeWipeDone 0) (s (.waym 5 0)) ∧
    Does (.storeWipeDone 0) deferring ∧ Does (.storeWipeDone 0) (s (.movc 0x4B 0x8000000000010000)) ∧
    Does (.storeWipeDone 0) (sg 0) ∧ Does (.storeWipeDone 0) held ∧ Does (.storeWipeDone 0) (sg 1) ∧
    Does (.tlbiTakesEffect 0 0) { idle with tlbis := [inv] } ∧ Does (.tlbiTakesEffect 0 0) (s .tlbsync) ∧
    Does (.emulationRoundTrip 0 0) (e (some 5) .halted) ∧ Does (.emulationRoundTrip 0 0) (e none .halted) ∧
    Does (.emulationRoundTrip 0 0) open_ ∧ Does (.emulationRoundTrip 0 0) (e (some 5) .running) ∧
    Does (.emulationAnswer 0 0 9) (e (some 5) .halted) ∧ Does (.emulationAnswer 0 0 9) (e none .halted) ∧
    (ctx [(3, 7)]).emuRead 3 = 7 := by
  intro s q timed e open_ low deferring sg held inv
  have a := fun m r => h.1 0 m r 7
  have b := fun sel => h.2.1 0 0 5 0 0x8000000000010000 0 1 3 (storeKey 1 0) sel 0xF000 inv
  have c := h.2.1 0 0 5 0 9 0 1 3 0 0x40 0xF000 inv
  obtain ⟨c1, c2, c3, c4, c5, c6⟩ := (past8 c)
  exact ⟨goesE (a msg0 []).1 _ trivial, goesE (a msg0 []).2.1 _ trivial, goesE (a msg0 []).2.2.1 _ (by decide +kernel),
    goesE (a msg0 []).2.2.2.1 _ (by decide +kernel), goesE (a { msg0 with pkg := 31 } []).2.2.2.2.1 _ (by decide +kernel),
    goesE (a msg0 []).2.2.2.2.2.1 _ (by decide +kernel), goesE (a msg0 []).2.2.2.2.2.2 _ (by decide +kernel),
    goesE (b 0x4B).1 _ (by decide +kernel), goesE (b 0x40).2.1 _ (by decide +kernel),
    goesE (b 0x4B).2.2.1 _ (by decide +kernel), goesE (b 0x4B).2.2.2.1 _ (by decide +kernel),
    goesE (b 0x4B).2.2.2.2.1 _ (by decide +kernel), goesE (b 0x4B).2.2.2.2.2.1 _ (by decide +kernel),
    goesE (b 0x4B).2.2.2.2.2.2.1 _ (by decide +kernel), goesE (b 0x4B).2.2.2.2.2.2.2.1 _ (by decide +kernel),
    goesE c1 _ (by decide +kernel), goesE c2 _ (by decide +kernel), goesE (c3 none) _ (by decide +kernel),
    goesE (c4 (some 5)) _ (by decide +kernel), goesE c5 _ ⟨9, by decide +kernel⟩, goesE c6 _ ⟨9, by decide +kernel⟩,
    ((h.2.2 (ctx [(3, 7)]) 0).1 3).trans (by decide +kernel)⟩
theorem allOf {α : Type} {l : List α} {p q : α → Prop} [DecidablePred p] [DecidablePred q] (h : (l.all fun d => decide (p d → q d)) = true) :
    ∀ d ∈ l, p d → q d := fun d hd => of_decide_eq_true (List.all_eq_true.mp h d hd)
theorem taken {o : Option (RqEnt × State)} (h : o.isSome = true) : ∃ e u, o = some (e, u) := by
  obtain ⟨⟨e, u⟩, hy⟩ := Option.isSome_iff_exists.mp h
  exact ⟨e, u, hy⟩
/-- The four words of the harvesting map as firmware leaves them for a package without a die. -/
def noDies : List (Nat × Word) := [(0x1000, allOnes), (0x1008, allOnes), (0x1010, allOnes), (0x1018, allOnes)]
/-- Interleave register 0 as it maps 1 GiB from frame 0 to die 0. -/
def ram : List (Nat × Word) := [(0x6100, 0x8001000000000000), (0x6108, 1)]
theorem witness_DispatchSteps (h : Obligations.DispatchSteps) :
    let e := ({ addr := 0x1000, prio := 3, pinned := false, asid := 0, enq := 0 } : RqEnt)
    let s := fun (f : Core → Core) => core0 (ctx) f
    let v := ({ idle with cores := [(0, Core.reset), (1, { Core.reset with deque := [e] })] } : State)
    let reaped := s fun k => { k with ctxs := k.ctxs.setIfInBounds 1 { reapWaits := true } }
    let busy := { s (fun k => { k with rq := List.replicate 49 e }) with loads := ((groupCores 0).filter (· != 1)).map fun d => (d.toNat, 2) }
    let full64 := s fun k => { k with rq := List.replicate 64 e }
    let ringed := { full64.modCore 0 (fun k => { k with rqspill := 0x10000 }) with bar0 := ram }
    let ringFull := ringed.setOwnWord 0x10008 124
    let woken := s fun k => { k with wake := [e] }
    let nets := s fun k => { k with wake := [e], wakeNet := [e] }
    let a := ({ va := 0x1000, mask := BitVec.allOnes 64, op := .read } : Access)
    let coord := ({ a with va := 0xC000000000004000 } : Access)
    let ok := { a with st := .done }
    let bad := { a with st := .failed, cause := 12 }
    let image := { ok with rdata := 1 <<< 51 }
    let odd := { ok with rdata := 1 <<< 63 }
    let r := fun (a : Access) => core0 (ctx) fun k => { k with ctxs := k.ctxs.setIfInBounds 1 { st := .reserved, filling := some (e, none, false), acc := some a } }
    let part := fun (n : Nat) => core0 (ctx) fun k => { k with ctxs := k.ctxs.setIfInBounds 1 { st := .reserved, filling := some (e, none, true), acc := some ok, winSize := 2, progress := n } }
    let known := fun (l : List (Word × BitVec 16 × Nat)) => { r ok with active := [(0, 0)], withdrawnConts := l }
    let full := fun (n : Nat) => { State.reset with launches := [launch0], active := List.replicate n (7, 0) }
    Does (.dispatch 0 1) (s fun k => { k with rq := [e] }) ∧ Does (.dispatch 0 1) (s fun k => { k with deque := [e] }) ∧
    Does (.dispatch 0 15) idle ∧ Does (.dispatch 0 1) reaped ∧
    Does (.dispatch 0 1) (s fun k => { k with rq := [e], ctxs := k.ctxs.setIfInBounds 1 (ctx) }) ∧
    Does (.dispatchRetry 0 1) (s fun k => { k with rq := [e] }) ∧
    Does (.dispatchRetry 0 1) (s fun k => { k with deque := [e] }) ∧ Does (.dispatchRetry 0 15) idle ∧
    Does (.dispatchRetry 0 1) reaped ∧
    Does (.dispatchRetry 0 1) (s fun k => { k with rq := [e], ctxs := k.ctxs.setIfInBounds 1 (ctx) }) ∧ Does (.steal 0 1 0) v ∧
    Does (.steal 0 1 1) v ∧ Does (.steal 0 1 62) v ∧ Does (.steal 0 1 1) { idle with bar0 := noDies } ∧
    Does (.steal 0 0 0) (s id) ∧ Does (.wakeMessage 0 e) idle ∧ (∃ u, (s id).pushRq 0 e = u) ∧ (∃ u, ringed.pushRq 0 e = u) ∧
    (∃ u, ringFull.pushRq 0 e = u) ∧ (∃ u, full64.pushRq 0 e = u) ∧ (∃ u, nets.pushRq 0 e = u) ∧
    (0 < Config.wakeBuffer → ∃ u, woken.pushRq 0 e = u) ∧ Does (.ringRefill 0) idle ∧ Does (.ringRefill 0) ringFull ∧
    (∃ u, woken.pushHeld 0 [e, e] = u) ∧ full64.pushHeld 0 [e, e] = full64.modCore 0 (fun k => { k with wake := [e, e] }) ∧
    (∃ t, exec (Event.groupLoadRefresh 0).row (ev (.groupLoadRefresh 0) busy) = .next t) ∧ Does (.pushBalance 0) idle ∧
    Does (.pushBalance 0) busy ∧ Does (.resumeContinuation 0 1) idle ∧ Does (.resumeContinuation 0 1) (r coord) ∧
    Does (.resumeContinuation 0 1) (r a) ∧ Does (.resumeContinuation 0 1) (r bad) ∧ Does (.resumeContinuation 0 1) (r odd) ∧
    Does (.resumeContinuation 0 1) (r image) ∧ Does (.resumeContinuation 0 1) (known []) ∧
    Does (.resumeContinuation 0 1) (known [(0x1000, 0, 64)]) ∧ Does (.restore 0 1) idle ∧ Does (.restore 0 1) (r coord) ∧
    Does (.restore 0 1) (r a) ∧ Does (.restore 0 1) (r bad) ∧ Does (.restore 0 1) (r odd) ∧ Does (.restore 0 1) (r image) ∧
    Does (.restore 0 1) (known []) ∧ Does (.restore 0 1) (known [(0x1000, 0, 64)]) ∧
    (((s id).startThread 0 1 0 e none).ctx 0 1).st = .running ∧
    (∃ t, exec (Event.restore 0 1).row (ev (.restore 0 1) (part 5)) = .next t) ∧
    (∃ t, exec (Event.restore 0 1).row (ev (.restore 0 1) (part 2)) = .next t) ∧ (∃ u, (part 25).restoreNext 0 1 e = u) ∧
    (∃ u, (part 26).restoreNext 0 1 e = u) ∧ (Ctx.loadImage {} 13 0).fmt = 0 ∧ Does (.launchTableFill 7 5) (full 256) ∧
    Does (.launchTableFill 7 5) (full 255) := by
  intro e s v reaped busy full64 ringed ringFull woken nets a coord ok bad image odd r part known full
  obtain ⟨e1, u1, h1⟩ := taken (show (((ev (.dispatch 0 1) (s fun k => { k with deque := [e] })).modCore 0 fun k => k.aged 0).dequeNewest 0).isSome = true by decide +kernel)
  obtain ⟨e2, u2, h2⟩ := taken (show (((ev (.dispatchRetry 0 1) (s fun k => { k with deque := [e] })).modCore 0 fun k => k.aged 0).dequeNewest 0).isSome = true by decide +kernel)
  obtain ⟨e3, u3, h3⟩ := taken (show ((ev (.steal 0 1 0) v).dequeOldest 1).isSome = true by decide +kernel)
  have q := fun x i e u => h.1 0 1 x i e u 0
  have b := h.1 0 2 1 1 e u1 0
  have p := fun a w => h.2 0 1 e a 7 5 w
  obtain ⟨d1, -, d3, d4, d5⟩ := (q 1 0 e u1).1
  obtain ⟨r1, -, -, r4, r5⟩ := (q 1 0 e u1).2.1
  have z := (past8 (q 1 0 e u1)).1
  have x := (p ok 1).2.2.2.1 none
  exact ⟨goesE d1 _ (by decide +kernel), goesE ((q 1 0 e1 u1).1).2.1 _ ⟨by decide +kernel, by decide +kernel, h1⟩,
    goesE ((q 15 0 e u1).1).2.2.1 _ (by decide +kernel), goesE d4 _ (by decide +kernel), goesE d5 _ (by decide +kernel),
    goesE r1 _ (by decide +kernel), goesE ((q 1 0 e2 u2).2.1).2.1 _ ⟨by decide +kernel, by decide +kernel, h2⟩,
    goesE ((q 15 0 e u1).2.1).2.2.1 _ (by decide +kernel), goesE r4 _ (by decide +kernel), goesE r5 _ (by decide +kernel),
    goesE (q 1 0 e3 u3).2.2.1 _ ⟨by decide +kernel, by decide +kernel, by decide +kernel, h3⟩,
    goesE b.2.2.2.1 _ (by decide +kernel), goesE (h.1 0 1799 1 62 e u1 0).2.2.2.2.1 _ (by decide +kernel),
    goesE b.2.2.2.2.2.1 _ (by decide +kernel), goesE (q 0 0 e u1).2.2.2.2.2.2.1 _ (by decide +kernel),
    goesE (q 1 0 e u1).2.2.2.2.2.2.2.1 _ trivial, ⟨_, (z (s id) (by decide +kernel)).1 (by decide +kernel) (by decide +kernel)⟩,
    ⟨_, (z ringed (by decide +kernel)).2.1 0x10000 4096 (by decide +kernel) (by decide +kernel) (by decide +kernel)⟩,
    ⟨_, (z ringFull (by decide +kernel)).2.2.1 0x10000 4096 (by decide +kernel) (by decide +kernel) (by decide +kernel) (by decide +kernel)⟩,
    ⟨_, (z full64 (by decide +kernel)).2.2.2 (by decide +kernel) (by decide +kernel) (by decide +kernel)⟩,
    ⟨_, ((past8 (q 1 0 e u1)).2.1 nets (by decide +kernel)).1 (.inr (by decide +kernel))⟩,
    fun w => ⟨_, ((past8 (q 1 0 e u1)).2.1 woken (by decide +kernel)).2 w (by decide +kernel)⟩,
    goesE (past8 b).2.2.1 _ (by decide +kernel), goesE ((past8 b).2.2.2.1 0x10000 4096) _ (by decide +kernel),
    ⟨_, ((past8 b).2.2.2.2.1 woken [e]).2.1 _ rfl⟩, ((past8 b).2.2.2.2.1 full64 [e]).2.2 (by decide +kernel),
    ((past8 b).2.2.2.2.2.1 (ev (.groupLoadRefresh 0) busy) rfl (by decide +kernel)).elim fun _ h => ⟨_, h.1⟩,
    goesE (past8 b).2.2.2.2.2.2.1 _ (by decide +kernel),
    goesE (past8 (q 1 0 e u1)).2.2.2.2.2.2.2 _ ⟨by decide +kernel, by decide +kernel, by decide +kernel, by decide +kernel, by decide +kernel, by decide +kernel, allOf (by decide +kernel), by decide +kernel⟩,
    goesE (p a 1).1.1 _ (by decide +kernel), goesE ((p coord 1).1).2.1 _ (by decide +kernel),
    goesE ((p a 1).1).2.2.1 _ (by decide +kernel), goesE ((p bad 1).1).2.2.2.1 _ (by decide +kernel),
    goesE ((p odd 1).1).2.2.2.2.1 _ (by decide +kernel), goesE ((p image 1).1).2.2.2.2.2.1 _ (by decide +kernel),
    goesE ((p ok 1).1).2.2.2.2.2.2.1 _ (by decide +kernel), goesE ((p ok 64).1).2.2.2.2.2.2.2 _ (by decide +kernel),
    goesE ((p a 1).2.1).1 _ (by decide +kernel), goesE ((p coord 1).2.1).2.1 _ (by decide +kernel),
    goesE ((p a 1).2.1).2.2.1 _ (by decide +kernel), goesE ((p bad 1).2.1).2.2.2.1 _ (by decide +kernel),
    goesE ((p odd 1).2.1).2.2.2.2.1 _ (by decide +kernel), goesE ((p image 1).2.1).2.2.2.2.2.1 _ (by decide +kernel),
    goesE ((p ok 1).2.1).2.2.2.2.2.2.1 _ (by decide +kernel), goesE ((p ok 64).2.1).2.2.2.2.2.2.2 _ (by decide +kernel),
    (((p a 1).2.2.1 (s id) 0 (by decide +kernel)).1),
    ⟨_, (x (ev (.restore 0 1) (part 5)) 3).1 ⟨rfl, by decide +kernel, by decide +kernel, by decide +kernel, rfl⟩ (by decide +kernel)⟩,
    ⟨_, (x (ev (.restore 0 1) (part 2)) 1).2.1 ⟨rfl, by decide +kernel, by decide +kernel, by decide +kernel, rfl⟩ (by decide +kernel)⟩,
    ⟨_, (x (part 25) 1).2.2.1 (by decide +kernel)⟩, ⟨_, (x (part 26) 1).2.2.2 (by decide +kernel) (by decide +kernel)⟩,
    (((p a 1).2.2.2.2.1 {} 0 1).2.2.2.1).trans (by decide +kernel), goesE (p a 1).2.2.2.2.2.1 _ (by decide +kernel),
    goesE (p a 1).2.2.2.2.2.2 _ (by decide +kernel)⟩
theorem unable {s : State} {g : BitVec 8} {k : Task} (h : (match s.taskNote g k with | .unable => true | _ => false) = true) :
    s.taskNote g k = .unable := by
  cases hc : s.taskNote g k <;> simp_all
theorem placed {s : State} {l : Launch} {d : BitVec 3} (a : l.next < l.last) (b : l.status = 1) (c : l.cause ≠ 10 ∧ l.cause ≠ 11)
    (h : (s.choosePlace d l.level l.members).isSome = true) : ∃ t, s.placeOn l d = some t := by
  obtain ⟨m, hm⟩ := Option.isSome_iff_exists.mp h
  simp [State.placeOn, Launch.placing, hm, b, a, c]
theorem thatIs {α : Type} {o : Option α} {p : α → Bool} (h : o.any p = true) : ∃ t, o = some t ∧ p t = true := by
  cases o <;> simp_all
theorem witness_LaunchSteps (h : Obligations.LaunchSteps) :
    let a := writeAcc 0x50000 8 1
    let good := ([1, 0, 0, 0, 1, 0, 0, 0, 1, 0, 0, 0, 5, 0, 0, 0] : List Byte)
    let both := good ++ List.replicate 40 0 ++ [0, 0, 6]
    let j := fun (k : JobKind) (b : List Byte) (a : Option Access) (p n : Nat) => ({ id := 3, kind := k, quad := 0, buf := b, acc := a, phase := p, blk := n } : Job)
    let la := JobKind.launch 0x20000 0 none
    let s := fun (j : Job) => { idle with jobs := [j] }
    let one := { launch0 with status := 1, last := 1 }
    let two := { launch0 with status := 1, last := 2 }
    let none_ := { launch0 with dies := 3, last := 1, status := 3, cause := 10 }
    let sg0 := [(0x1000, 0xFFFFFFFFFFFFFFFE), (0x1008, allOnes), (0x1010, allOnes), (0x1018, allOnes)]
    let here := fun (l : Launch) => { idle with launches := [l], bar0 := sg0 }
    let m := fun (n : Nat) => ({ key := 0x1000, isBlock := true, n := n, blk := 0x1000 } : Map)
    let at_ := fun (n : Nat) => { a with st := .done, map := some (m n) }
    let failed := { a with st := .failed }
    let done := { a with st := .done }
    let ran := { launch0 with status := 1 }
    let wr := fun (l : List Job) => { idle with launches := [ran], jobs := l }
    let stuck := { served { ctx with st := .parked, park := some (.cbwait 0) } with cyc := 9 }
    let region := { stuck with bar0 := ram ++ [(0x8000, 0x10000), (0x8008, 0x1000)] }
    Does (.launchAccept 3) idle ∧ Does (.launchAccept 3) (s (j la [] none 0 0)) ∧
    Does (.launchAccept 3) (s (j la good none 0 0)) ∧ Does (.launchAccept 3) (s (j la good (some failed) 1 0)) ∧
    Does (.launchAccept 3) (s (j la good (some (at_ 1)) 1 0)) ∧ Does (.launchAccept 3) (s (j la both (some (at_ 0)) 1 0)) ∧
    Does (.launchAccept 3) (s (j la both (some (at_ 0)) 2 (2 ^ 133 + 0x1000))) ∧
    Does (.launchAccept 3) (s (j la both (some (at_ 0)) 2 0)) ∧
    Does (.launchAccept 3) { s (j la both (some (at_ 0)) 2 0) with active := List.replicate 256 (0, 7) } ∧
    Does (.launchAccept 3) (s (j (.status 5) [] (some done) 0 0)) ∧ Does (.gangPlace 5 0) (here one) ∧
    Does (.gangPlace 5 0) (here two) ∧ Does (.gangPlace 5 0) { idle with launches := [none_] } ∧ Does (.gangOffer 0 1) idle ∧
    Does (.gangOffer 0 0) (mach (ctx)) ∧ Does (.gangOffer 0 1) (here one) ∧ Does (.gangOffer 0 2) (here one) ∧
    Does (.gangOffer 0 1) (here none_) ∧ Does (.triggerWrite 5) (wr [(j (.trig 5) [] (some done) 0 0)]) ∧
    Does (.triggerWrite 5) (wr [(j (.trig 5) [] (some failed) 0 0)]) ∧
    Does (.completionWrite 5) (wr [(j (.compl 5) [] (some done) 0 0), (j (.trig 5) [] (some a) 0 0)]) ∧
    Does (.completionWrite 5) (wr [(j (.compl 5) [] (some done) 0 0)]) ∧ Does (.deadlockDeclare 0) { idle with armed := 0xE } ∧
    Does (.deadlockDeclare 0) idle ∧ Does (.deadlockDeclare 0) stuck ∧
    (∃ t, exec (Event.deadlockDeclare 0).row (ev (.deadlockDeclare 0) region) = .next t) ∧
    idle.putWords 0x10000 [7] = idle.setOwnWord 0x10000 7 := by
  intro a good both j la s one two none_ sg0 here m at_ failed done ran wr stuck region
  have c1 : ((ev (.gangPlace 5 0) (here one)).choosePlace 0 0 1).isSome = true := by decide +kernel
  have c2 : (ev (.gangPlace 5 0) (here two)).choosePlace 0 0 1 = (ev (.gangPlace 5 0) (here one)).choosePlace 0 0 1 := rfl
  obtain ⟨t1, h1⟩ := placed (s := ev (.gangPlace 5 0) (here one)) (l := one) (d := 0) (by decide) rfl (by decide) c1
  obtain ⟨t2, h2⟩ := placed (s := ev (.gangPlace 5 0) (here two)) (l := two) (d := 0) (by decide) rfl (by decide) ((congrArg Option.isSome c2).trans c1)
  obtain ⟨t3, h3, x3⟩ := thatIs (p := fun (t : State) => decide ((t.ctx 0 1).st ≠ .empty)) (show (((ev (.gangOffer 0 1) (here one)).launchDies one).findSome? fun d => (ev (.gangOffer 0 1) (here one)).placeOn one d).any _ = true by decide +kernel)
  obtain ⟨t4, h4, x4⟩ := thatIs (p := fun (t : State) => decide ((t.ctx 0 2).st = .empty)) (show (((ev (.gangOffer 0 2) (here one)).launchDies one).findSome? fun d => (ev (.gangOffer 0 2) (here one)).placeOn one d).any _ = true by decide +kernel)
  have p := fun j a m => h.1 3 j 0x20000 0 none 1 a 5 ran 0 1 idle 0 1 m
  have g := fun l t => h.1 3 (j (.status 5) [] none 0 0) 0x20000 0 none 1 a 5 l 0 1 t 0 1 (m 0)
  have q := h.2 0 0
  have w := fun l t x => (past8 ((h.1 3 (j (.status 5) [] none 0 0) 0x20000 0 none 1 a 5 l 0 1 t 0 x (m 0)))).2.2.2.2.2.1
  exact ⟨goesE (p (j la [] none 0 0) a (m 0)).1 _ (by decide +kernel),
    goesE (p (j la [] none 0 0) a (m 0)).2.1 _ (by decide +kernel),
    goesE (p (j la good none 0 0) a (m 0)).2.2.1 _ (by decide +kernel),
    goesE (p (j la good (some failed) 1 0) failed (m 0)).2.2.2.1 _ (by decide +kernel),
    goesE (p (j la good (some (at_ 1)) 1 0) (at_ 1) (m 1)).2.2.2.2.1 _ (by decide +kernel),
    goesE (p (j la both (some (at_ 0)) 1 0) (at_ 0) (m 0)).2.2.2.2.2.1 _ (by decide +kernel),
    goesE (p (j la both (some (at_ 0)) 2 (2 ^ 133 + 0x1000)) (at_ 0) (m 0)).2.2.2.2.2.2.1 _ (by decide +kernel),
    goesE (p (j la both (some (at_ 0)) 2 0) (at_ 0) (m 0)).2.2.2.2.2.2.2.1 _ (by decide +kernel),
    goesE (past8 (p (j la both (some (at_ 0)) 2 0) (at_ 0) (m 0))).1 _ (by decide +kernel),
    goesE (past8 (p (j (.status 5) [] (some done) 0 0) done (m 0))).2.1 _ (by decide +kernel),
    goesE (past8 (g one t1)).2.2.1 _ ⟨by decide +kernel, by decide +kernel, h1, by decide +kernel⟩,
    goesE (past8 (g two t2)).2.2.2.1 _ ⟨by decide +kernel, by decide +kernel, h2, by decide +kernel⟩,
    goesE (past8 (g none_ idle)).2.2.2.2.1 _ ⟨by decide +kernel, by decide +kernel, by simp [State.placeOn, Launch.placing, launch0, none_], by decide +kernel⟩,
    goesE (w one idle 1).1 _ (by decide +kernel), goesE (w one idle 0).2.1 _ (by decide +kernel),
    goesE (w one t3 1).2.2.1 _ ⟨⟨by decide +kernel, by decide +kernel, by decide +kernel, h3⟩, of_decide_eq_true x3⟩,
    goesE (w one t4 2).2.2.2.1 _ ⟨⟨by decide +kernel, by decide +kernel, by decide +kernel, h4⟩, of_decide_eq_true x4, by decide⟩,
    goesE (w none_ idle 1).2.2.2.2 _ (by decide +kernel),
    goesE (past8 (p (j (.trig 5) [] (some done) 0 0) done (m 0))).2.2.2.2.2.2.1 _ (by decide +kernel),
    goesE (past8 (p (j (.trig 5) [] (some failed) 0 0) failed (m 0))).2.2.2.2.2.2.2.1 _ (by decide +kernel),
    goesE (past8 (past8 (p (j (.compl 5) [] (some done) 0 0) done (m 0)))).1 _ (by decide +kernel),
    goesE (past8 (past8 (p (j (.compl 5) [] (some done) 0 0) done (m 0)))).2 _ (by decide +kernel),
    goesE q.1 _ (by decide +kernel), goesE q.2.1 _ (by decide +kernel), goesE q.2.2.1 _ (by decide +kernel),
    ⟨_, q.2.2.2.1 (ev (.deadlockDeclare 0) region) rfl (by decide +kernel) (by decide +kernel) (by decide +kernel)⟩,
    (q.2.2.2.2 idle 0x10000 7 []).2.1⟩
theorem witness_DomainSteps (h : Obligations.DomainSteps) :
    let l := { launch0 with pkgs := [0] }
    let on := { l with status := 1 }
    let begun := { l with starts := [0] }
    let ended := { l with status := 3 }
    let held := { l with contained := true }
    let up := { l with level := 3 }
    let far' := { l with coord := some 3, phase := 1 }
    let going := { far' with phase := 3 }
    let part := { l with pkgs := [0, 1] }
    let s := fun (l : Launch) => { idle with launches := [l] }
    let m := ({ launch := 5, coord := 3, record := List.replicate 0x88 0 ++ [1], pkgs := [] } : Reserve)
    let g := ({ launch := 5, index := 0, level := 0, members := [(0, 0)] } : Gang)
    let run := { mach (ctx) with gangs := [g] }
    let res := { mach { ctx with st := .reserved } with gangs := [g] }
    Does (.reserve m) { idle with bar0 := noDies } ∧ Does (.reserve m) { s launch0 with active := List.replicate 256 (0, 7) } ∧
    Does (.reserve m) (s launch0) ∧ (∃ u, (s far').reservedAll far' = u) ∧
    (s far').reservedAll { going with next := 0 } = s far' ∧ (∃ u, (s going).checkStarted 5 = u) ∧
    (s far').checkStarted 5 = s far' ∧ Does (.rack 5 0) (s on) ∧ Does (.rack 5 0) (s l) ∧ Does (.rnak 5 0) (s on) ∧
    Does (.rnak 5 0) (s ended) ∧ Does (.release 5) idle ∧ Does (.go 5) (s up) ∧ (∃ u, idle.sendRecords l 6 [(0, 0)] = u) ∧
    Does (.started 5 0) idle ∧ Does (.startedTimeout 5) (s begun) ∧ Does (.startedTimeout 5) (s l) ∧
    Does (.halt 5 31) (State.reset) ∧ Does (.halt 5 0) (State.reset) ∧ idle.containCtx 0 0 0 = idle ∧
    (∃ u, run.containCtx 0 0 0 = u) ∧ run.releaseGangs 9 = run ∧
    res.releaseGangs 5 = ({ res with gangs := [] } : State).freeCtx 0 0 ∧ run.releaseGangs 5 = { run with gangs := [] } ∧
    Does (.haltAnswer 5 0) (s held) ∧ Does (.haltAnswer 5 0) (s l) ∧ Does (.trigMessage 5 0) (s l) ∧
    Does (.trigMessage 5 0) (s part) ∧ Does (.done 5 0 0) (s l) ∧ Does (.done 5 0 0) (s part) ∧ Does (.done 5 0 6) (s on) ∧
    Does (.done 5 0 6) (s part) := by
  intro l on begun ended held up far' going part s m g run res
  have p := fun l => h 5 0 3 l m 0 0 g 6
  obtain ⟨f1, f2, -⟩ := (p far').2.2.2.1 (s far') rfl
  obtain ⟨-, -, f3, f4⟩ := (p going).2.2.2.1 (s going) rfl
  obtain ⟨-, -, -, f5⟩ := (p far').2.2.2.1 (s far') rfl
  have c := (past8 (p l)).2.2.2.2.2.2.1
  exact ⟨goesE (p l).1 _ (by decide +kernel), goesE (p l).2.1 _ (by decide +kernel), goesE (p l).2.2.1 _ (by decide +kernel),
    ⟨_, f1 rfl (by decide +kernel)⟩, ((p { going with next := 0 }).2.2.2.1 (s far') rfl).2.1 (.inl (by decide)),
    ⟨_, f3 (by decide +kernel) rfl (by decide +kernel)⟩, f5 (by decide +kernel) (.inl (by decide)),
    goesE ((p on).2.2.2.2.1).1 _ (by decide +kernel), goesE ((p l).2.2.2.2.1).2 _ (by decide +kernel),
    goesE (p on).2.2.2.2.2.1 _ (by decide +kernel), goesE (p ended).2.2.2.2.2.2.1 _ (by decide +kernel),
    goesE (p l).2.2.2.2.2.2.2.1 _ trivial, goesE (past8 (p up)).1 _ (by decide +kernel), ⟨_, (past8 (p l)).2.1 idle⟩,
    goesE (past8 (p l)).2.2.1 _ trivial, goesE (past8 (p begun)).2.2.2.1 _ (by decide +kernel),
    goesE (past8 (p l)).2.2.2.2.1 _ (by decide +kernel),
    goesE ((past8 (h 5 31 3 l m 0 0 g 6)).2.2.2.2.2.1).1 _ (by decide +kernel),
    goesE ((past8 (p l)).2.2.2.2.2.1).2 _ (by decide +kernel), (c idle).1 (.inl (by decide +kernel)),
    ⟨_, (c run).2.1 (by decide +kernel) (by decide +kernel)⟩,
    ((past8 (h 9 0 3 l m 0 0 g 6)).2.2.2.2.2.2.1 run).2.2.1 rfl (by decide), (c res).2.2.2.1 rfl rfl rfl (by decide +kernel),
    (c run).2.2.2.2 rfl rfl rfl (by decide +kernel), goesE ((past8 (p held)).2.2.2.2.2.2.2.1).1 _ (by decide +kernel),
    goesE ((past8 (p l)).2.2.2.2.2.2.2.1).2 _ (by decide +kernel), goesE (past8 (past8 (p l))).1 _ (by decide +kernel),
    goesE (past8 (past8 (p part))).2.1 _ (by decide +kernel), goesE (past8 (past8 (p l))).2.2.1 _ (by decide +kernel),
    goesE (past8 (past8 (p part))).2.2.2.1 _ (by decide +kernel),
    goesE ((past8 (past8 (p on))).2.2.2.2).1 _ (by decide +kernel),
    goesE ((past8 (past8 (p part))).2.2.2.2).2 _ (by decide +kernel)⟩
theorem witness_TaskSteps (h : Obligations.TaskSteps) :
    let s := fun (k : Task) => idle.setSg 0 { tasks := [k] }
    let words := fun (m : Word) => [(1 <<< 40 : Word), 0, 0, 0, 0, 0, 0, 0, 0, 0, 0, 0, m]
    let pair := fun (t sc : Word) => { task1 with words := [(1 <<< 40) ||| (t <<< 8) ||| (t <<< 16), 0, 0, 0, 0, 0, 0, 0, 0, sc, sc, 0, 0x101], accs := [5] }
    let present := { task1 with st := .presence, words := words 0x101 }
    let absent := { task1 with st := .presence }
    let bad := { task1 with step := 3 }
    let up := { task1 with st := .ready, readyAt := some 0 }
    let eng := fun (k : Task) => idle.setSg 0 { tasks := [k, { k with ticket := 2, issuedAt := 0 }] }
    let run := { task1 with st := .running, changes := true, issuedAt := 1 }
    let strip := { run with changes := false, words := words 0, begun := true, accs := [0] }
    let row := { run with changes := false, words := words 0x101, writing := true }
    let a : Access := { va := 0x10040, mask := BitVec.allOnes 64, op := .read, st := .done }
    let ended := { task1 with st := .ending, fin := some 0, acc := some a }
    let err := { task1 with st := .ending, fin := some 12, last := true, acc := some a }
    Does (.taskAccept 0 1) idle ∧ Does (.taskAccept 0 1) (s task1) ∧ Does (.taskAccept 0 1) (s bad) ∧
    Does (.taskPresenceCheck 0 1) (s present) ∧ Does (.taskPresenceCheck 0 1) (s absent) ∧ Does (.taskIssue 0) idle ∧
    Does (.taskIssue 0) (s up) ∧ Does (.configurationChange 0 1) (eng run) ∧ Does (.configurationChange 0 1) (s run) ∧
    Does (.taskKstep 0 1) (s strip) ∧ Does (.taskDWrite 0 1) (s row) ∧ Does (.taskComplete 0 1) (s ended) ∧
    Does (.taskEndError 0 1 12) (s err) ∧ Does (.taskEndError 0 1 5) (s up) ∧ Does (.taskFault 0 1 false) (s run) ∧
    (∃ v, ((pair 1 0).compute 0).1[0 * (pair 1 0).n + 0]? = some v) ∧
    (∃ v, ((pair 0x12 0).compute 0).1[0 * (pair 0x12 0).n + 0]? = some v) ∧
    (∃ v, ((pair 0x13 64).compute 0).1[0 * (pair 0x13 64).n + 0]? = some v) ∧
    windowSum .rne [.nan false true 0, .inf true] = (fmtF32.defaultNan, 0) ∧
    windowSum .rne [.inf false, .inf true] = (fmtF32.defaultNan, stInvalid) ∧
    windowSum .rne [.inf true] = (fmtF32.infBits true, 0) ∧
    windowSum .down [.fin false 1 0, .fin true 1 0] = (fmtF32.zero true, 0) ∧
    (windowSum .down [.fin false 3 0, .fin true 1 0]).2 = 0 := by
  intro s words pair present absent bad up eng run strip row a ended err
  have p := fun k e c => h 0 1 k e c a 0
  have z := fun t sc => (past8 (p (pair t sc) 0 0)).2.2.2.2.2.2.2.1 0 0 0
  exact ⟨goesE (p task1 0 12).1 _ (by decide +kernel), goesE (p task1 0 12).2.1 _ (by decide +kernel),
    goesE (p bad 0 1).2.2.1 _ (by decide +kernel), goesE (p present 0 1).2.2.2.1 _ (by decide +kernel),
    goesE (p absent 0 1).2.2.2.2.1 _ (by decide +kernel), goesE (p task1 0 12).2.2.2.2.2.1 _ (by decide +kernel),
    goesE (p up 0 1).2.2.2.2.2.2.1 _ (by decide +kernel), goesE (p run 0 1).2.2.2.2.2.2.2.1 _ (by decide +kernel),
    goesE (past8 (p run 0 1)).1 _ (by decide +kernel), goesE (past8 (p strip 0 1)).2.1 _ (by decide +kernel),
    goesE (past8 (p row 0 1)).2.2.1 _ (by decide +kernel), goesE (past8 (p ended 0 1)).2.2.2.1 _ (by decide +kernel),
    goesE (past8 (p err 0 12)).2.2.2.2.1 _ (by decide +kernel), goesE (past8 (p up 0 5)).2.2.2.2.2.1 _ (by decide +kernel),
    goesE (past8 (p run 0 1)).2.2.2.2.2.2.1 _ ⟨by decide +kernel, by decide +kernel, unable (by decide +kernel)⟩,
    ⟨_, (z 1 0 (by decide +kernel) (by decide +kernel) (by decide +kernel)).1 (by decide +kernel)⟩,
    ⟨_, (z 0x12 0 (by decide +kernel) (by decide +kernel) (by decide +kernel)).2.1 (by decide +kernel) (by decide +kernel) (by decide +kernel)⟩,
    ⟨_, (z 0x13 64 (by decide +kernel) (by decide +kernel) (by decide +kernel)).2.2 (by decide +kernel) (by decide +kernel) (by decide +kernel) (by decide +kernel)⟩,
    ((past8 (past8 (p task1 0 12))) .rne [.nan false true 0, .inf true]).1 rfl,
    ((past8 (past8 (p task1 0 12))) .rne [.inf false, .inf true]).2.1 rfl (by simp) (by simp),
    ((past8 (past8 (p task1 0 12))) .rne [.inf true]).2.2.1 true rfl (by simp) (by simp),
    (((past8 (past8 (p task1 0 12))) .down [.fin false 1 0, .fin true 1 0]).2.2.2 0 rfl (by simp) (by simp) (by decide) (by decide)).1 (by decide) (by decide),
    (congrArg Prod.snd ((((past8 (past8 (p task1 0 12))) .down [.fin false 3 0, .fin true 1 0]).2.2.2 1 rfl (by simp) (by simp) (by decide) (by decide)).2 (by decide))).trans (by decide +kernel)⟩
theorem witness_GraftSteps (h : Obligations.GraftSteps) :
    let s := fun (k : Task) => ({ idle with bar0 := ram } : State).setSg 0 { tasks := [k] }
    let run := { task1 with st := .running, words := [2], begun := true }
    let lyr := fun (op : Nat) (q : Option Access) => { mach { ctx with st := .parked, park := some (.lyr 5 op 1 2), acc := q } with bar0 := ram }
    let hold := fun (s : State) => s.setSg 0 { engines := Vector.replicate 4 { holds := some 1 } }
    let part := fun (s : State) => s.rawWrite 0 (BitVec.allOnes 64) (0x100001 ||| 0x200000 <<< 64)
    let valid := (lyr 4 none).setRec 1 0x8000
    let a : Access := { va := 0x10000, mask := BitVec.allOnes 64, op := .read, st := .done }
    let im : Granule := (1 <<< 32) ||| (0x200 <<< 192) ||| (0x10100000080 <<< 384)
    let good := { a with rdata := im }
    let drop := fun (a : Word) => { mach { ctx with st := .parked, park := some (.lyr 5 5 a 2) } with bar0 := ram }
    let other := fun (op : Nat) (q : Option Access) => (lyr op q).setRec 1 0x50000
    let busy := { lyr 2 none with coh := { queue := [.wb 0 0 0 0 false] } }
    Does (.graftInvocation 0 1) (s run) ∧ Does (.graftRestart 0 1) (s run) ∧ Does (.graftCommit 0 1) (s run) ∧
    Does (.graftTableAccessReturn 0 0) (lyr 3 none) ∧ Does (.graftTableAccessReturn 0 0) (hold (lyr 1 none)) ∧
    Does (.graftTableAccessReturn 0 0) (lyr 1 none) ∧ Does (.graftTableAccessReturn 0 0) valid ∧
    Does (.graftTableAccessReturn 0 0) (lyr 0 (some a)) ∧ Does (.graftTableAccessReturn 0 0) (drop 0) ∧
    Does (.graftTableAccessReturn 0 0) (hold ((drop 5).setRec 1 0x50000)) ∧ Does (.graftTableAccessReturn 0 0) (other 1 none) ∧
    Does (.graftTableAccessReturn 0 0) (other 4 none) ∧ Does (.graftTableAccessReturn 0 0) (lyr 4 none) ∧
    Does (.graftTableAccessReturn 0 0) (other 0 (some a)) ∧ Does (.graftTableAccessReturn 0 0) (lyr 0 (some good)) ∧
    Does (.graftTableAccessReturn 0 0) (part (lyr 0 (some good))) ∧ Does (.graftTableAccessReturn 0 0) (lyr 2 none) ∧
    Does (.graftTableAccessReturn 0 0) (part (lyr 2 none)) ∧ Does (.graftTableAccessReturn 0 0) busy ∧
    (lyr 2 none).partition 0 = .ok (0, 0, false) := by
  intro s run lyr hold part valid a im good drop other busy
  have p := fun r b a w q v x0 y0 => h 0 1 run r x0 y0 0 0 0 0 5 a b w q v
  have q := fun r b a q => p r b a 0 q false 0 0
  exact ⟨goesE (q 0 2 1 a).1 _ (by decide +kernel), goesE (q 0 2 1 a).2.1 _ (by decide +kernel),
    goesE (q 0 2 1 a).2.2.1 _ (by decide +kernel), goesE (q 0 2 1 a).2.2.2.1 _ (by decide +kernel),
    goesE (q 0 2 1 a).2.2.2.2.1 _ (by decide +kernel), goesE (q 0 2 1 a).2.2.2.2.2.1 _ (by decide +kernel),
    goesE (q 0x8000 2 1 a).2.2.2.2.2.2.1 _ (by decide +kernel), goesE (q 0 2 1 a).2.2.2.2.2.2.2.1 _ (by decide +kernel),
    goesE (past8 (q 0 2 0 a)).1 _ (by decide +kernel), goesE (past8 (q 0 2 5 a)).2.1 _ (by decide +kernel),
    goesE ((past8 (q 0x50000 2 1 a)).2.2.1).1 _ (by decide +kernel),
    goesE ((past8 (q 0x50000 2 1 a)).2.2.1).2.1 _ (by decide +kernel),
    goesE ((past8 (q 0 2 1 a)).2.2.1).2.2.1 _ (by decide +kernel),
    goesE ((past8 (q 0x50000 2 1 a)).2.2.1).2.2.2.1 _ (by decide +kernel),
    goesE ((past8 (q 0 2 1 good)).2.2.1).2.2.2.2.1 _ (by decide +kernel),
    goesE ((past8 (p 0 2 1 0 good true 0x200000 0x100000)).2.2.1).2.2.2.2.2.1 _ (by decide +kernel),
    goesE ((past8 (q 0 2 1 a)).2.2.1).2.2.2.2.2.2.1 _ (by decide +kernel),
    goesE ((past8 (p 0 2 1 0 a true 0x200000 0x100000)).2.2.1).2.2.2.2.2.2.2.1 _ (by decide +kernel),
    goesE (past8 ((past8 (q 0 2 1 a)).2.2.1)) _ (by decide +kernel),
    ((past8 (q 0 2 1 a)).2.2.2 (lyr 2 none) 0 (by decide +kernel)).trans (by decide +kernel)⟩
/-- A request for line 0 by an agent of package 1. -/
def coh0 : CohReq := { line := 0, agent := 9, inc := 0 }
/-- The package with a directory entry for line 0, or with an open transaction on it. -/
def dir0 (e : DirEnt) : State := { idle with coh := { dir := [(0, e)] }, bar0 := ram }
def txn0 (t : Txn) : State := { idle with coh := { txns := [t] }, bar0 := ram }
theorem witness_HubSteps (h : Obligations.HubSteps) :
    let shared := ({ st := .hs, ptrs := [9, 17], age := 0 } : DirEnt)
    let not_ := ({ st := .hs, ptrs := [17], age := 0 } : DirEnt)
    let own := ({ st := .hx, owner := 10 } : DirEnt)
    let mine := ({ st := .ho, owner := 9 } : DirEnt)
    let old := { coh0 with inc := 1 }
    let t := ({ line := 0, req := some (.rd .rds coh0), prior := {} } : Txn)
    let ask := { t with needAcks := [9], asked := [9] }
    let fwd := { t with fwd := some 9, asked := [9] }
    let sent := { t with asked := [9] }
    let kept := { sent with prior := mine, gone := false }
    let mem := { t with needMem := true }
    let done := { t with answered := true }
    let wrote := { t with req := some (.wb 0 9 0 5 true), needWr := true }
    let fenced := { idle with coh := { fencedIdx := [0] } }
    let twice := { idle with coh := { fencedIdx := [0], fenced := [.rd .rds coh0] } }
    let pool := { idle with coh := { txns := [t], queue := List.replicate 4096 (.wb 0 9 0 0 false) } }
    let full := { dir0 own with coh := { dir := [(0, own)], txns := List.replicate 256 { t with line := 0x1000000 } } }
    let m := ({ key := 0, isBlock := false } : Map)
    let a := ({ va := 0, mask := BitVec.allOnes 64, op := .read, map := some m } : Access)
    let w := fun (s : State) => s.modCtx 0 0 fun c => { c with acc := some a }
    Does (.rds old) idle ∧ Does (.rdx old) idle ∧ Does (.upg old) idle ∧ Does (.wbd 0 9 1 5 true) idle ∧
    Does (.rds coh0) fenced ∧ Does (.rds coh0) twice ∧ Does (.rds coh0) (txn0 t) ∧ Does (.rdx coh0) (txn0 t) ∧
    Does (.upg coh0) (txn0 t) ∧ Does (.rds coh0) pool ∧ Does (.rdx coh0) pool ∧ Does (.upg coh0) pool ∧ Does (.rds coh0) idle ∧
    Does (.rdx coh0) idle ∧ Does (.upg coh0) idle ∧ Does (.rdx coh0) (dir0 shared) ∧ Does (.rdx coh0) (dir0 own) ∧
    Does (.rds coh0) (dir0 own) ∧ Does (.upg coh0) (dir0 shared) ∧ Does (.upg coh0) (dir0 mine) ∧ Does (.upg coh0) (dir0 not_) ∧
    Does (.wbd 0 9 0 5 true) idle ∧ Does (.wbd 0 9 0 5 false) (dir0 mine) ∧ Does (.wbd 0 9 0 5 true) (dir0 mine) ∧
    Does (.wbd 0 9 0 5 true) (txn0 ask) ∧ Does (.wbd 0 9 0 5 true) (txn0 kept) ∧ Does (.wbd 0 9 0 5 true) (txn0 sent) ∧
    Does (.farAtomic (.park 0 0)) (w idle) ∧ Does (.farAtomic (.park 0 0)) (w (dir0 own)) ∧ Does (.invack 0 9 1 true) idle ∧
    Does (.invack 0 9 0 true) (txn0 ask) ∧ Does (.data true 0 9 0 5 true false false) (txn0 fwd) ∧
    Does (.data true 0 9 0 5 true true false) (txn0 fwd) ∧ Does (.datax true 0 9 0 5 true true false) (txn0 t) ∧
    Does (.datax true 0 9 0 5 true true false) (txn0 fwd) ∧ Does (.memrdData 0 5) (txn0 mem) ∧ Does (.memrdData 0 5) idle ∧
    Does (.memwrAck 0) (txn0 wrote) ∧ Does (.cmpMsg true 0 9 1 false) idle ∧ Does (.cmpMsg true 0 9 0 false) (txn0 done) ∧
    Does (.directoryRecall 0) (dir0 own) ∧ Does (.directoryRecall 0) full ∧ Does (.directoryRecall 0) idle := by
  intro shared not_ own mine old t ask fwd sent kept mem done wrote fenced twice pool full m a w
  have p := fun r t e i d => h.1 r t 0 e 0 9 i 5 d (.park 0 0) a m
  have q := fun t i e d => h.2 0 9 9 i 0 5 d true t coh0 0 e .rds
  have l := (p coh0 t {} 0 true).2.2.2.2.1
  have f := (p coh0 t {} 0 true).2.2.2.2.2.1
  have o := (p old t {} 0 true).1
  exact ⟨goesE (o (.rds old) (by simp)) _ (by decide +kernel), goesE (o (.rdx old) (by simp)) _ (by decide +kernel),
    goesE (o (.upg old) (by simp)) _ (by decide +kernel), goesE (p old t {} 1 true).2.1 _ (by decide +kernel),
    goesE (p coh0 t {} 0 true).2.2.1 _ (by decide +kernel), goesE (p coh0 t {} 0 true).2.2.2.1 _ (by decide +kernel),
    goesE (l (.rds coh0, .rds) (by simp)).1 _ (by decide +kernel),
    goesE (l (.rdx coh0, .rdx) (by simp)).1 _ (by decide +kernel),
    goesE (l (.upg coh0, .upg) (by simp)).1 _ (by decide +kernel),
    goesE (l (.rds coh0, .rds) (by simp)).2 _ (by decide +kernel),
    goesE (l (.rdx coh0, .rdx) (by simp)).2 _ (by decide +kernel),
    goesE (l (.upg coh0, .upg) (by simp)).2 _ (by decide +kernel), goesE (f (.rds coh0, .rds) (by simp)) _ (by decide +kernel),
    goesE (f (.rdx coh0, .rdx) (by simp)) _ (by decide +kernel), goesE (f (.upg coh0, .rdx) (by simp)) _ (by decide +kernel),
    goesE (p coh0 t shared 0 true).2.2.2.2.2.2.1 _ (by decide +kernel),
    goesE (p coh0 t own 0 true).2.2.2.2.2.2.2.1 _ (by decide +kernel),
    goesE (past8 (p coh0 t own 0 true)).1 _ (by decide +kernel),
    goesE (past8 (p coh0 t shared 0 true)).2.1 _ (by decide +kernel),
    goesE (past8 (p coh0 t mine 0 true)).2.2.1 _ (by decide +kernel),
    goesE (past8 (p coh0 t not_ 0 true)).2.2.2.1 _ (by decide +kernel),
    goesE (past8 (p coh0 t {} 0 true)).2.2.2.2.1 _ (by decide +kernel),
    goesE (past8 (p coh0 t mine 0 false)).2.2.2.2.2.1 _ (by decide +kernel),
    goesE (past8 (p coh0 t mine 0 true)).2.2.2.2.2.2.1 _ (by decide +kernel),
    goesE (past8 (p coh0 ask mine 0 true)).2.2.2.2.2.2.2.1 _ (by decide +kernel),
    goesE ((past8 (past8 (p coh0 kept mine 0 true))).1).1 _ (by decide +kernel),
    goesE ((past8 (past8 (p coh0 sent mine 0 true))).1).2 _ (by decide +kernel),
    goesE (past8 (past8 (p coh0 t {} 0 true))).2.1 _ (by decide +kernel),
    goesE (past8 (past8 (p coh0 t own 0 true))).2.2 _ (by decide +kernel), goesE (q t 1 {} true).1 _ (by decide +kernel),
    goesE (q ask 0 {} true).2.1 _ (by decide +kernel), goesE (q fwd 0 {} true).2.2.1 _ (by decide +kernel),
    goesE (q fwd 0 {} true).2.2.2.1 _ (by decide +kernel), goesE (q t 0 {} true).2.2.2.2.1 _ (by decide +kernel),
    goesE (q fwd 0 {} true).2.2.2.2.2.1 _ (by decide +kernel), goesE (q mem 0 {} true).2.2.2.2.2.2.1 _ (by decide +kernel),
    goesE (q t 0 {} true).2.2.2.2.2.2.2.1 _ (by decide +kernel), goesE (past8 (q wrote 0 {} true)).1 _ (by decide +kernel),
    goesE (past8 (q t 1 {} false)).2.1 _ (by decide +kernel), goesE (past8 (q done 0 {} false)).2.2.1 _ (by decide +kernel),
    goesE (past8 (q t 0 own true)).2.2.2.1 _ (by decide +kernel),
    goesE (past8 (q t 0 own true)).2.2.2.2.1 _ (by decide +kernel),
    goesE (past8 (q t 0 {} true)).2.2.2.2.2 _ (by decide +kernel)⟩
theorem witness_DieSteps (h : Obligations.DieSteps) :
    let s := fun (g : Granted) => idle.setLine 0 0 { st := g, data := 5 }
    let r := ({ die := 0, line := 0, kind := .rds, sgs := [(0, true)] } : DieReq)
    let q := { idle with coh := { dieReqs := [r] } }
    let both := { s .s with coh := { (s .s).coh with dieReqs := [r] } }
    let dirty := (s .m).setSnoop 0 0 { granted := .m, present := 1 }
    let wb := { idle with coh := { wbs := [(0, 0, 5, true)] } }
    let late := { s .m with coh := { (s .m).coh with wbs := [(0, 0, 5, true)] } }
    Does (.inv 0 0 true) (s .m) ∧ Does (.fwds 0 0 9) idle ∧ Does (.fwds 0 0 9) (s .m) ∧ Does (.fwdx 0 0 9 true) (s .e) ∧
    Does (.lineMiss 0 true rem3) (s .m) ∧ Does (.lineMiss 0 true rem3) idle ∧ Does (.snoopFilterEvict 0 0) idle ∧
    Does (.snoopFilterEvict 0 0) late ∧ Does (.snoopFilterEvict 0 0) dirty ∧ Does (.snoopFilterEvict 0 0) (s .s) ∧
    Does (.data false 0 0 0 5 true true false) idle ∧ Does (.data false 0 0 0 5 true true true) q ∧
    Does (.data false 0 0 0 5 true true false) q ∧ Does (.datax false 0 0 0 5 true true false) q ∧
    Does (.datax false 0 0 0 5 true true false) (s .e) ∧ Does (.cmpMsg false 0 0 0 true) wb ∧
    Does (.cmpMsg false 0 0 0 false) both ∧ Does (.cmpMsg false 0 0 0 false) q ∧ Does (.cmpMsg false 0 0 0 true) q ∧
    (idle.dieSend 0 0 .cmp (fun n a i => .cmpMsg true n a i true) id).cyc = 0 := by
  intro s r q both dirty wb late
  have a := fun d => h 0 0 true 9 0 0 5 d true r
  have z := (past8 (a true)).2.2.2.2.2.2.1
  have y := (past8 (a false)).2.2.2.2.2.2.1
  exact ⟨goesE (a true).1 _ trivial, goesE (a true).2.1 _ (by decide +kernel), goesE (a true).2.2.1 _ (by decide +kernel),
    goesE (a true).2.2.2.1 _ trivial, goesE ((a true).2.2.2.2.1 rem3).1 _ (by decide +kernel),
    goesE ((a true).2.2.2.2.1 rem3).2 _ (by decide +kernel), goesE (a true).2.2.2.2.2.1 _ (by decide +kernel),
    goesE (a true).2.2.2.2.2.2.1 _ (by decide +kernel), goesE (a true).2.2.2.2.2.2.2.1 _ (by decide +kernel),
    goesE (past8 (a true)).1 _ (by decide +kernel), goesE (past8 (a true)).2.1 _ (by decide +kernel),
    goesE (past8 (a true)).2.2.1 _ (by decide +kernel), goesE (past8 (a true)).2.2.2.1 _ (by decide +kernel),
    goesE (past8 (a true)).2.2.2.2.1 _ (by decide +kernel), goesE (past8 (a true)).2.2.2.2.2.1 _ (by decide +kernel),
    goesE z.1 _ (by decide +kernel), goesE y.2.1 _ (by decide +kernel), goesE y.2.2.1 _ (by decide +kernel),
    goesE z.2.2.2 _ (by decide +kernel),
    (congrArg State.cyc ((past8 (a true)).2.2.2.2.2.2.2 idle .cmp (fun n a i => .cmpMsg true n a i true) id (by decide))).trans (by decide +kernel)⟩
theorem plus_one (x : BitVec 16) : ¬x + 1 = x := by bv_omega
/-- A flit with the check of its bytes. -/
def summed (z : Flit) : Flit :=
  let w : BitVec 16 := z.cls ++ z.seq ++ z.creditCls ++ z.credits
  { z with crc := Config.crc16 (z.payload ++ List.replicate (64 - z.payload.length) 0 ++ [w.setWidth 8, w.extractLsb' 8 8]) }
theorem witness_FailureSteps (h : Obligations.FailureSteps) :
    let shared := ({ st := .hs, ptrs := [9, 17] } : DirEnt)
    let last := ({ st := .hs, ptrs := [9] } : DirEnt)
    let own := ({ st := .hx, owner := 10 } : DirEnt)
    let mine := ({ st := .hx, owner := 9 } : DirEnt)
    let t := ({ line := 0, req := some (.rd .rds coh0), prior := {}, needAcks := [9] } : Txn)
    let fenced := fun (l : List Txn) => { idle with coh := { fencedIdx := [0], txns := l } }
    let errs := fun (l : List (BitVec 3)) => { idle with coh := { fencedIdx := l, sliceErrs := List.replicate 15 (0, 0) } }
    let left := { idle with coh := { fencedIdx := [0], censusLeft := [(0, [9])] } }
    let f := summed { seq := 0, cls := 3, creditCls := 3, credits := 0, crc := 0, payload := [] }
    let late := summed { f with seq := 1 }
    let paid := summed { f with cls := 0, payload := [7] }
    let bad := { f with crc := f.crc + 1 }
    let down := idle.setLink 15 { up := false }
    let worn := idle.setLink 15 { replays := [15] }
    let waits := fun (n : Nat) (m : Nat) => idle.setLink 15 { queue := [(1, 0, [7])], credits := Vector.replicate 3 n, used := Vector.replicate 3 m }
    let stuck := { idle with coh := { links := [(15, { queue := [(1, 0, [7])], used := Vector.replicate 3 Config.linkCredits })] } }
    let alone := { idle with coh := { links := (List.range 16).map fun i => (i, { up := false }) } }
    Does (.containment 31 (some 7)) idle ∧ Does (.containment 31 none) idle ∧ Does (.containmentNotice [9]) idle ∧
    Does (.agentAnswerTimeout 0 9 0) (txn0 t) ∧ Does (.agentAnswerTimeout 0 9 0) idle ∧ Does (.agentRejoin 9 false) idle ∧
    Does (.agentRejoin 9 true) idle ∧ Does (.agentRejoin 9 false) (dir0 mine) ∧ mine.purge 9 false = {} ∧
    last.purge 9 false = {} ∧ (∃ e, shared.purge 9 true = e) ∧ (∃ s, idle.markDead [9] = s) ∧ Does (.sliceError 0) idle ∧
    Does (.sliceError 0) (errs [0]) ∧ Does (.sliceError 0) (errs []) ∧ Does (.sliceFailure 0) idle ∧
    Does (.sliceFailure 0) (fenced [t]) ∧ Does (.sliceFailure 0) (fenced []) ∧ Does (.censusQuery 7 0 0) idle ∧
    Does (.censusQuery 7 0 3) idle ∧ Does (.censusReport 0 9 1 .m) idle ∧ Does (.censusReport 0 9 0 .m) (dir0 own) ∧
    Does (.censusReport 0 9 0 .s) (dir0 shared) ∧ Does (.censusReport 0 9 0 .m) (dir0 shared) ∧
    Does (.censusReport 0 9 0 .s) idle ∧ Does (.censusEnd 0 9 1) idle ∧ Does (.censusEnd 0 9 0) idle ∧
    Does (.censusEnd 0 9 0) left ∧ Does (.flitReceive 15 bad) idle ∧ Does (.flitReceive 15 late) idle ∧
    Does (.flitReceive 15 f) down ∧ Does (.flitReceive 15 f) idle ∧
    (∀ e, Config.wireEvent [7] = some e → Does (.flitReceive 15 paid) idle) ∧
    (Config.wireEvent [7] = none → Does (.flitReceive 15 paid) idle) ∧ (∃ u, idle.sendFlit 15 0 [7] = u) ∧
    (∃ u, (waits 1 0).pumpLink 15 1 = u) ∧ stuck.pumpLink 15 1 = stuck ∧ Does (.linkNak 15 63) idle ∧
    Does (.linkNak 15 63) worn ∧ Does (.linkDown 15) idle ∧ Does (.linkDown 15) alone ∧ Does (.cxlLink 15 true) idle := by
  intro shared last own mine t fenced errs left f late paid bad down worn waits stuck alone
  have p := fun g e f hp ic => h 31 7 0 9 0 t [9] 0 g 0 e 15 f 63 hp ic true
  have a := fun e f hp ic => p .m e f hp ic
  have u := (a own f 0 0).2.2.2.2.2.2.1
  have w := fun f => (past8 (past8 (a own f 0 0))).2.2.2.2.2.2.1
  have ne : ¬bad.crc = f.crc := plus_one f.crc
  exact ⟨goesE (a own f 0 0).1 _ trivial, goesE (a own f 0 0).2.1 _ trivial, goesE (a own f 0 0).2.2.1 _ trivial,
    goesE (a own f 0 0).2.2.2.1 _ (by decide +kernel), goesE (a own f 0 0).2.2.2.2.1 _ (by decide +kernel),
    goesE ((a own f 0 0).2.2.2.2.2.1).1 _ (by decide +kernel), goesE ((a own f 0 0).2.2.2.2.2.1).2.1 _ (by decide +kernel),
    goesE ((a mine f 0 0).2.2.2.2.2.1).2.2 _ (by decide +kernel), (u mine false).1 rfl rfl,
    (u last false).2.1 (.inl rfl) rfl rfl (.inl rfl), ⟨_, (u shared true).2.2 (.inl rfl) (.inr (.inl (by decide)))⟩,
    ⟨_, (a own f 0 0).2.2.2.2.2.2.2.1 idle (by decide +kernel) rfl rfl rfl rfl rfl rfl rfl rfl rfl rfl⟩,
    goesE ((past8 (a own f 0 0)).1).1 _ (by decide +kernel), goesE ((past8 (a own f 0 0)).1).2.1 _ (by decide +kernel),
    goesE ((past8 (a own f 0 0)).1).2.2 _ (by decide +kernel), goesE (past8 (a own f 0 0)).2.1 _ (by decide +kernel),
    goesE (past8 (a own f 0 0)).2.2.1 _ (by decide +kernel), goesE (past8 (a own f 0 0)).2.2.2.1 _ (by decide +kernel),
    goesE (past8 (a own f 0 0)).2.2.2.2.1 _ (by decide +kernel), goesE (past8 (a own f 3 0)).2.2.2.2.2.1 _ (by decide +kernel),
    goesE (past8 (a own f 0 1)).2.2.2.2.2.2.1 _ (by decide +kernel),
    goesE (past8 (a own f 0 0)).2.2.2.2.2.2.2.1 _ (by decide +kernel),
    goesE (past8 (past8 (a shared f 0 0))).1 _ (by decide +kernel),
    goesE (past8 (past8 (a shared f 0 0))).2.1 _ (by decide +kernel),
    goesE (past8 (past8 (a {} f 0 0))).2.2.1 _ (by decide +kernel),
    goesE (past8 (past8 (a own f 0 1))).2.2.2.1 _ (by decide +kernel),
    goesE (past8 (past8 (a own f 0 0))).2.2.2.2.1 _ (by decide +kernel),
    goesE (past8 (past8 (a own f 0 0))).2.2.2.2.2.1 _ (by decide +kernel), goesE (w bad).1 _ ⟨by decide +kernel, ne⟩,
    goesE (w late).2.1 _ ⟨by decide +kernel, rfl, by decide +kernel⟩, goesE (w f).2.2.1 _ (by decide +kernel),
    goesE (w f).2.2.2.1 _ ⟨⟨by decide +kernel, rfl, by decide +kernel⟩, rfl⟩,
    fun e he => goesE ((w paid).2.2.2.2.1 0 e rfl).1 _ ⟨⟨by decide +kernel, rfl, by decide +kernel⟩, he⟩,
    fun he => goesE ((w paid).2.2.2.2.1 0 .snapIn rfl).2 _ ⟨⟨by decide +kernel, rfl, by decide +kernel⟩, he⟩,
    ⟨_, (w f).2.2.2.2.2.1 idle 0 [7] (by decide +kernel)⟩,
    ⟨_, ((w f).2.2.2.2.2.2.1 (waits 1 0) 0 0 (1, 0, [7]) (by decide +kernel) rfl (by decide +kernel)).1 (Nat.lt_add_left _ (by decide))⟩,
    ((w f).2.2.2.2.2.2.1 stuck 0 0 (1, 0, [7]) rfl rfl rfl).2 (Nat.le_refl Config.linkCredits),
    goesE ((w f).2.2.2.2.2.2.2).1 _ (by decide +kernel), goesE ((w f).2.2.2.2.2.2.2).2 _ (by decide +kernel),
    goesE ((past8 (past8 (a own f 0 0))).2.2.2.2.2.2.2.1).1 _ ⟨0, by decide +kernel⟩,
    goesE ((past8 (past8 (a own f 0 0))).2.2.2.2.2.2.2.1).2 _ (by decide +kernel),
    goesE (past8 (past8 (past8 (a own f 0 0)))) _ trivial⟩
theorem witness_HostAccessSteps (h : Obligations.HostAccessSteps) :
    let shut := { idle with sys := { idle.sys with wipeEnd := some 1 } }
    let cfg := { idle with bar0 := [(0x4068, 0x8000000000000000)], sys := { idle.sys with servReset := false } }
    let a := ({ va := 0x10038, mask := 0xFF, op := .read } : Access)
    let done := { a with st := .done }
    let wait := { a with st := .notFull }
    let bad := fun (c : Nat) => { a with st := .failed, cause := c }
    let flt := { a with st := .faulted }
    let more := { done with rdata := 1 <<< 448 }
    let j := fun (k : JobKind) (b : List Byte) (a : Option Access) => ({ id := 4, kind := k, quad := 3, buf := b, acc := a } : Job)
    let s := fun (j : Job) => { idle with jobs := [j] }
    let rd := JobKind.apRead 3 0 8 9
    let wr := JobKind.apWrite 3 0 [1, 2]
    let read := fun (a : Access) => s (j rd [] (some a))
    let q := fun (l : List Job) (extra : List (Nat × Word)) =>
      { idle with bar0 := extra ++ [(0x5FE0, 1)], jobs := l, sys := { idle.sys with servReset := false } }
    let f := fun (p : Nat) (b : List Byte) (a : Access) => ({ id := 4, kind := .fetch 63, quad := 0, buf := b, acc := some a, phase := p } : Job)
    let head := { j rd [] none with id := 9 }
    Does (.apertureRead 3 0 8 9 none) shut ∧ Does (.apertureWrite 3 0 [1, 2] none) idle ∧
    Does (.apertureRead 3 0 8 9 none) cfg ∧ Does (.apertureWrite 3 0 [1, 2] none) cfg ∧
    Does (.apertureRead 3 0 8 9 (some 4)) idle ∧
    Does (.apertureRead 3 0 8 9 (some 4)) { idle with jobs := [head, j rd [] none] } ∧
    Does (.apertureRead 3 0 8 9 (some 4)) (s (j rd (List.replicate 8 0) none)) ∧
    Does (.apertureWrite 3 0 [1, 2] (some 4)) (s (j wr [1, 2] none)) ∧
    Does (.apertureRead 3 0 8 9 (some 4)) (s (j rd [] none)) ∧ Does (.apertureRead 3 0 8 9 (some 4)) (read done) ∧
    Does (.apertureRead 3 0 8 9 (some 4)) (read wait) ∧ Does (.apertureRead 3 0 8 9 (some 4)) (read (bad 2)) ∧
    Does (.apertureRead 3 0 8 9 (some 4)) (read (bad 256)) ∧ Does (.apertureRead 3 0 8 9 (some 4)) (read (bad 6)) ∧
    Does (.apertureFaultTimeout 4) idle ∧ Does (.apertureFaultTimeout 4) { read flt with cyc := 2 ^ 20 } ∧
    Does (.pcieUnsupported 9) idle ∧ Does (.registerWrite 0x2000 5) idle ∧ Does (.registerWrite 0x6000 5) idle ∧
    Does (.registerWrite 0x6008 5) idle ∧ Does (.registerWrite 0x4070 5) idle ∧ Does (.registerWrite 0x5FE8 5) idle ∧
    Does (.registerWrite 0x5FE8 6) idle ∧ Does (.startRecord 0 5) idle ∧
    Does (.startRecord 0 5) (mach { ctx with st := .halted }) ∧
    Does (.debugSelect 5) { idle with sys := { idle.sys with life := .deployed } } ∧ Does (.debugSelect 5) idle ∧
    Does (.qcreate 63) (q [] []) ∧ Does (.qcreate 63) idle ∧
    Does (.qdestroy 63) { idle with sys := { idle.sys with begun := [63] } } ∧ Does (.qdestroy 63) idle ∧
    Does (.queueFetch 63) idle ∧ Does (.queueFetch 63) (q [] [(0x5FC8, 4)]) ∧ Does (.queueFetch 63) (q [] []) ∧
    Does (.queueFetch 63) (q [f 0 [] done] []) ∧ Does (.queueFetch 63) (q [f 0 [] more] []) ∧
    Does (.queueFetch 63) (q [f 0 [] (bad 518)] []) ∧ Does (.queueFetch 63) (q [f 0 [] (bad 6)] []) ∧
    Does (.queueFetch 63) (q [f 1 [] done] [(0x5FD0, 2)]) ∧ Does (.queueFetch 63) (q [f 1 (List.replicate 64 0) done] []) ∧
    Does (.queueFetch 63) (q [f 0 [] (bad 12)] []) := by
  intro shut cfg a done wait bad flt more j s rd wr read q f head
  have p := fun x j a => h.1 3 0 x 8 9 4 [1, 2] j a 0 63 3
  have b := fun a => p 5 (j rd [] (some a)) a
  have n := p 5 (j rd [] none) a
  have k := fun j a => h.2 63 j a
  exact ⟨goesE n.1 _ (by decide +kernel), goesE n.2.1 _ (by decide +kernel), goesE n.2.2.1 _ (by decide +kernel),
    goesE n.2.2.2.1 _ (by decide +kernel), goesE n.2.2.2.2.1 _ (by decide +kernel),
    goesE (n.2.2.2.2.2.1 head (by decide) _ (by simp)) _ (by decide +kernel),
    goesE (p 5 (j rd (List.replicate 8 0) none) a).2.2.2.2.2.2.1 _ (by decide +kernel),
    goesE (p 5 (j wr [1, 2] none) a).2.2.2.2.2.2.2.1 _ (by decide +kernel), goesE (past8 n).1 _ (by decide +kernel),
    goesE (past8 (b done)).2.1 _ (by decide +kernel), goesE (past8 (b wait)).2.2.1 _ (by decide +kernel),
    goesE (past8 (b (bad 2))).2.2.2.1 _ (by decide +kernel), goesE (past8 (b (bad 256))).2.2.2.2.1 _ (by decide +kernel),
    goesE (past8 (b (bad 6))).2.2.2.2.2.1 _ (by decide +kernel), goesE (past8 n).2.2.2.2.2.2.1 _ (by decide +kernel),
    goesE (past8 (b flt)).2.2.2.2.2.2.2.1 _ (by decide +kernel), goesE (past8 (past8 n)).1 _ trivial,
    goesE (past8 (past8 n)).2.1 _ trivial, goesE (past8 (past8 n)).2.2.1 _ trivial, goesE (past8 (past8 n)).2.2.2.1 _ trivial,
    goesE ((past8 (past8 n)).2.2.2.2.1 (by decide)) _ trivial,
    goesE ((past8 (past8 n)).2.2.2.2.2.1 (by decide) (by decide)) _ trivial,
    goesE ((past8 (past8 (p 6 (j rd [] none) a))).2.2.2.2.2.2.1 (by decide) (by decide)) _ trivial,
    goesE (past8 (past8 n)).2.2.2.2.2.2.2.1 _ (by decide +kernel), goesE (past8 (past8 (past8 n))).1 _ (by decide +kernel),
    goesE (past8 (past8 (past8 n))).2.1 _ (by decide +kernel), goesE (past8 (past8 (past8 n))).2.2 _ (by decide +kernel),
    goesE (k (f 0 [] done) done).1 _ (by decide +kernel), goesE (k (f 0 [] done) done).2.1 _ (by decide +kernel),
    goesE (k (f 0 [] done) done).2.2.1 _ (by decide +kernel), goesE (k (f 0 [] done) done).2.2.2.1 _ (by decide +kernel),
    goesE (k (f 0 [] done) done).2.2.2.2.1 _ (by decide +kernel),
    goesE (k (f 0 [] done) done).2.2.2.2.2.1 _ (by decide +kernel),
    goesE (k (f 0 [] done) done).2.2.2.2.2.2.1 _ (by decide +kernel),
    goesE (k (f 0 [] done) done).2.2.2.2.2.2.2.1 _ (by decide +kernel),
    goesE (past8 (k (f 0 [] more) more)).1 _ (by decide +kernel),
    goesE ((past8 (k (f 0 [] (bad 518)) (bad 518))).2.1 6 (by decide)) _ (by decide +kernel),
    goesE (past8 (k (f 0 [] (bad 6)) (bad 6))).2.2.1 _ (by decide +kernel),
    goesE (past8 (k (f 1 [] done) done)).2.2.2.1 _ (by decide +kernel),
    goesE (past8 (k (f 1 (List.replicate 64 0) done) done)).2.2.2.2.1 _ (by decide +kernel),
    goesE (past8 (k (f 0 [] (bad 12)) (bad 12))).2.2.2.2.2 _ (by decide +kernel)⟩
theorem ne_next (x : BitVec 256) : x ≠ x + 1 := fun h => absurd (BitVec.self_eq_add_right.mp h) (by decide)
/-- The clause of a good image is met where the signature check, a function without a body, accepts it: that is supposed. -/
theorem witness_ResetSteps (h : Obligations.ResetSteps)
    (v : Config.mldsaVerify (Config.shake256 (Config.imageParts []).2.2.2) (Config.imageParts []).2.1 (Config.imageParts []).2.2.1 = true) :
    let sys := fun (y : Sys) => { idle with sys := y }
    let fp := Config.shake256 (Config.imageParts []).2.1
    let r := (mach (ctx)).partitionReset 1
    let reads := { idle with jobs := [{ id := 4, kind := .apRead 3 0 2 9, quad := 3 }] }
    let active := { idle with bar0 := [(0x5FE0, 1)] }
    Does (.coldReset) idle ∧ (reads.packageReset 7).outbox = [.host 9 [0xFF, 0xFF]] ∧ (idle.packageReset 7).cyc = 7 ∧
    Does (.partitionReset 15) idle ∧ r.ctx 0 3 = Core.reset.ctx 3 ∧
    ((mach (ctx)).partitionReset 0xE).core 0 = (mach (ctx)).core 0 ∧ r.byte (localKey 0) = 0 ∧ r.bar (qreg 0 8) = 0 ∧
    Does (.partitionControl 6) idle ∧ idle.partStatus 15 = 0 ∧ Does (.partitionControl 15) idle ∧
    Does (.wipeDone) { sys { wipeEnd := some 5 } with cyc := 5 } ∧ Does (.wipeDone) (sys { wipeEnd := some 5 }) ∧
    idle.wakeQueues = idle ∧ active.wakeQueues = active.after 1 (.queueFetch 63) ∧
    Does (.lifeCycleChange) (sys { life := .returned }) ∧ Does (.lifeCycleChange) idle ∧
    Does (.lifeCycleChange) (sys { life := .provisioned, identity := some 7 }) ∧
    Does (.lifeCycleChange) (sys { life := .deployed }) ∧ Does (.firmwareVerify []) (sys { keyHash := fp }) ∧
    Does (.firmwareVerify []) (sys { keyHash := fp + 1 }) ∧ Does (.recoveryLoad) idle ∧
    Does (.recoveryLoad) (sys { recovery := true }) ∧ Does (.attestationRequest 9) idle ∧
    Does (.attestationRequest 9) (sys { life := .provisioned, identity := some 7 }) := by
  intro sys fp r reads active
  have a := fun t q l c x k => h t q [] 5 l 9 7 c x k
  have b := a 6 1 .manufacturing 0 3 (localKey 0)
  have d := a 6 0xE .deployed 0 3 (localKey 0)
  have g := a 15 0xE .provisioned 0 3 (localKey 0)
  have m := b.2.2.2.1 (mach (ctx)) (canonical (by decide +kernel))
  have n := d.2.2.2.1 (mach (ctx)) (canonical (by decide +kernel))
  have only : ∀ w : BitVec 6, w ≠ 63 → active.qState w ≠ 1 := by decide +kernel
  have none' : ∀ w : BitVec 6, w ≠ 63 → idle.qState w ≠ 1 := by decide +kernel
  exact ⟨goesE b.1 _ trivial, (b.2.1 reads 7).2.1.trans (by decide +kernel), (b.2.1 idle 7).2.2.1,
    goesE (a 6 15 .manufacturing 0 3 0).2.2.1 _ trivial, m.2.1 (by decide +kernel), n.2.2.1 (by decide +kernel),
    m.2.2.2.1 (by decide +kernel), m.2.2.2.2 0 (by decide +kernel) 8 (by simp), goesE b.2.2.2.2.1 _ (by decide +kernel),
    (g.2.2.2.2.2.1.1 idle).2.2.2 (by decide +kernel) (by decide +kernel) (by decide),
    goesE g.2.2.2.2.2.1.2.1 _ (by decide +kernel), goesE b.2.2.2.2.2.2.1.1 _ (by decide +kernel),
    goesE b.2.2.2.2.2.2.1.2 _ (by decide +kernel), (b.2.2.2.2.2.2.2.1 idle 63 none').1 (by decide +kernel),
    (b.2.2.2.2.2.2.2.1 active 63 only).2 (by decide +kernel) (by decide +kernel) (by decide +kernel),
    goesE (past8 b).1 _ (by decide +kernel), goesE ((past8 b).2.1 .provisioned (by decide)) _ (by decide +kernel),
    goesE ((past8 g).2.1 .deployed (by decide)) _ (by decide +kernel),
    goesE ((past8 d).2.1 .returned (by decide)) _ (by decide +kernel), goesE (past8 b).2.2.1 _ ⟨⟨rfl, Nat.zero_le _, v⟩, rfl⟩,
    goesE (past8 b).2.2.2.1 _ ((fun e => ne_next _ e.1)), goesE (past8 b).2.2.2.2.1 _ (by decide +kernel),
    goesE (past8 b).2.2.2.2.2.1 _ (by decide +kernel), goesE (past8 b).2.2.2.2.2.2.1 _ (by decide +kernel),
    goesE (past8 b).2.2.2.2.2.2.2 _ (by decide +kernel)⟩
theorem witness_MachineSteps (h : Obligations.MachineSteps) :
    let who := (.lsu 0 7 0 : Agent)
    let e := ((3, .longLatencyComplete 3 7 (.ack 0)) : Nat × Event)
    let snapping := { idle with snapAt := [(0, 9)] }
    let x := (0x8002000300000005 : Word)
    let named := { idle with bar0 := [(0x8030, x)] }
    let due := { snapping with bar0 := [(0x8030, x)] }
    let ecc := fun (n : Nat) => { idle with ecc := [(1, n)] }
    let busy := fun (l : List (BitVec 2 × Nat)) => { idle with sys := { idle.sys with lanes := [(0, 9)], holding := l } }
    let load := Event.routingTableLoad 0 4 .north
    let down := idle.setLink 11 { up := false }
    let acc := fun (t : AccSt) => ({ va := 0x10000, mask := 0xFF, op := .read, map := some map0, st := t } : Access)
    let job := fun (a : Access) => { idle with jobs := [{ id := 4, kind := .fetch 63, quad := 0, acc := some a }] }
    let full := fun (f : Bool) => { named with
      cores := [(3, { Core.reset with evc := Vector.replicate 8 9 })], sys := { idle.sys with fired := f } }
    Does (.cxlDynamicCapacity 11 true 0x1000 0x2000) idle ∧ Does (.powerLimit) idle ∧ Does (.powerLimitClear) idle ∧
    Does (.overtemperature 7) idle ∧ Does (.channelHalfWidth 511) idle ∧ Does (.channelFullWidth 511) idle ∧
    Does (.snapIn) idle ∧ Does (.snapIn) snapping ∧ Does (.snapshotThreshold) named ∧ Does (.snapshotThreshold) due ∧
    Does (.snapshotThreshold) idle ∧ Does (.snapshotLatch 0) idle ∧ Does (.scrub 64) idle ∧ Does (.scrub 64) (ecc 1) ∧
    Does (.scrub 64) (ecc 2) ∧ Does (.routerFailure 255 []) idle ∧ Does (.routerFailure 255 [0]) { idle with agenda := [e] } ∧
    Does (.routerFailure 255 [0]) { idle with agenda := [(3, .snapIn)] } ∧ Does (.routingTableLoad 255 4 .north) idle ∧
    Does (.bypassSet 255 true) idle ∧ Does (.bypassSet 255 false) idle ∧ Does (load) (busy []) ∧
    Does (.bypassSet 0 true) (busy []) ∧ Does (load) (busy [(0, 9)]) ∧ Does (.bypassSet 0 true) (busy [(0, 9)]) ∧
    Does (.packageRouteLoad 31 11) { idle with sys := { idle.sys with pkgRoutes := [(31, some 11)] } } ∧
    Does (.packageRouteLoad 31 11) { down with sys := { down.sys with pkgRoutes := [(31, some 11)] } } ∧
    Does (.packageRouteLoad 31 11) idle ∧ (∃ u, idle.meshAfter 0 1 .response .snapIn = u) ∧
    (∃ u, (busy [(0, 9)]).meshAfter 0 1 .response .snapIn = u) ∧ idle.route 254 255 = [254, 255] ∧ hopCycles [7, 8] = 5 ∧
    Does (.storeArrival who 3 0 0) idle ∧ Does (.requestLeave 31 rem3) idle ∧ Does (.hubAccess (.serv 4)) (job (acc .bank)) ∧
    Does (.hubAccess (.serv 4)) (job (acc .done)) ∧ Does (.replySend who 255 (.ack 0)) idle ∧
    Does (.hubReply who (.data 0 5)) idle ∧ Does (.hubReply (.serv 4) (.ack 0)) idle ∧
    (full false).watchThreshold = ({ (full false) with sys := { (full false).sys with fired := true } }).after 0 .snapshotThreshold ∧
    (full true).watchThreshold = full true := by
  intro who e snapping x named due ecc busy load down acc job full
  have p := fun n k g who e pk => h 11 0x1000 0x2000 7 511 n k g 4 .north true 0 3 x 5 who e pk
  have a := p 2 64 255 who e 31
  have b := p 9 64 0 who e 31
  have k := p 7 64 255 (.lsu 3 7 0) e 31
  have k' := p 7 64 255 (.lsu 0 7 0) (3, .snapIn) 31
  have q := (past8 (past8 (past8 a))).2.1 rem3 3 0 0 (.ack 0) (acc .bank) map0 0
  have r := fun t => (past8 (past8 (past8 (p 2 64 255 (.serv 4) e 31)))).2.1 rem3 3 0 0 (.ack 0) (acc t) map0 0
  exact ⟨goesE a.1 _ trivial, goesE a.2.1 _ trivial, goesE a.2.2.1 _ (by decide +kernel),
    goesE a.2.2.2.1 _ (by decide +kernel), goesE a.2.2.2.2.1 _ trivial, goesE a.2.2.2.2.2.1 _ trivial,
    goesE a.2.2.2.2.2.2.1 _ (by decide +kernel), goesE a.2.2.2.2.2.2.2.1 _ (by decide +kernel),
    goesE (past8 a).1 _ (by decide +kernel), goesE (past8 a).2.1 _ (by decide +kernel),
    goesE (past8 a).2.2.1 _ (by decide +kernel), goesE (past8 a).2.2.2.1 _ trivial,
    goesE (past8 a).2.2.2.2.1 _ (by decide +kernel), goesE (past8 a).2.2.2.2.2.1 _ (by decide +kernel),
    goesE (past8 a).2.2.2.2.2.2.1 _ (by decide +kernel), goesE (past8 a).2.2.2.2.2.2.2.1 _ trivial,
    goesE ((past8 (past8 k)).1 (.ack 0) (fun _ => nofun)) _ ⟨rfl, rfl, rfl⟩, goesE (past8 (past8 k')).2.1 _ ⟨rfl, rfl⟩,
    goesE (past8 (past8 a)).2.2.1 _ (by decide +kernel), goesE (past8 (past8 a)).2.2.2.1 _ (by decide +kernel),
    goesE (past8 (past8 a)).2.2.2.2.1 _ (by decide +kernel),
    goesE ((past8 (past8 b)).2.2.2.2.2.1 load (by simp [load])) _ (by decide +kernel),
    goesE ((past8 (past8 b)).2.2.2.2.2.1 (.bypassSet 0 true) (by simp)) _ (by decide +kernel),
    goesE ((past8 (past8 b)).2.2.2.2.2.2.1 load (by simp [load])) _ (by decide +kernel),
    goesE ((past8 (past8 b)).2.2.2.2.2.2.1 (.bypassSet 0 true) (by simp)) _ (by decide +kernel),
    goesE (past8 (past8 a)).2.2.2.2.2.2.2.1.1 _ (by decide +kernel),
    goesE (past8 (past8 a)).2.2.2.2.2.2.2.1.2.1 _ (by decide +kernel),
    goesE (past8 (past8 a)).2.2.2.2.2.2.2.1.2.2 _ (by decide +kernel),
    ⟨_, ((past8 (past8 (past8 a))).1 idle 0 1 .response .snapIn).1 (by decide +kernel)⟩,
    ⟨_, ((past8 (past8 (past8 a))).1 (busy [(0, 9)]) 0 1 .response .snapIn).2.1 (by decide +kernel)⟩,
    ((past8 (past8 (past8 a))).1 idle 254 255 .response .snapIn).2.2.1 rfl rfl (by decide),
    ((past8 (past8 (past8 a))).1 idle 7 8 .response .snapIn).2.2.2.trans (by decide), goesE q.1 _ trivial,
    goesE q.2.1 _ trivial, goesE (r .bank).2.2.1 _ (by decide +kernel), goesE (r .done).2.2.2.1 _ (by decide +kernel),
    goesE q.2.2.2.2.1 _ (by decide +kernel), goesE (q.2.2.2.2.2.1 5) _ (by decide +kernel),
    goesE (r .bank).2.2.2.2.2.2 _ (by decide +kernel),
    (((past8 (past8 (past8 a))).2.2 (full false)).1 ⟨rfl, by decide, 2, by decide, by decide, 9, by decide +kernel, by decide⟩ rfl),
    (((past8 (past8 (past8 a))).2.2 (full true)).2 ⟨rfl, by decide, 2, by decide, by decide, 9, by decide +kernel, by decide⟩ rfl)⟩

end Sys2Proof.Tests
end

section
/-! SUPPORT. O24: loads and stores of the own local store by a quiet core. -/
namespace Sys2Proof.Machine

/-! ## What is beside cores and launches -/

/-- Beside the cores and the launches' accounts the two states are the same. -/
def State.BesideCores (s t : State) : Prop := { s with cores := t.cores, launches := t.launches } = t

theorem State.BesideCores.trans {s t u : State} (h : s.BesideCores t) (h' : t.BesideCores u) : s.BesideCores u := by
  have hu : ({ s with cores := u.cores, launches := u.launches } : State) =
      { t with cores := u.cores, launches := u.launches } :=
    congrArg (fun v : State => { v with cores := u.cores, launches := u.launches }) h
  exact hu.trans h'
theorem State.besideCores_modCore (s : State) (c : CoreId) (f : Core → Core) : s.BesideCores (s.modCore c f) := rfl
theorem State.besideCores_issued (s : State) (n : Nat) : s.BesideCores (s.issued n) := by
  refine (State.besideCores_modCore s s.slot _).trans (?_ : (s.skipped n).BesideCores _)
  unfold State.issued State.count
  split <;> rfl

/-- The check of an address asks for the harvesting map, the partitions, the package registers and the core's way mask. -/
theorem State.BesideCores.checkAddr {s t : State} (h : s.BesideCores t) (c : CoreId)
    (hways : (t.core c).ways = (s.core c).ways) (ea : Word) : t.checkAddr c ea = s.checkAddr c ea := by
  have hbar : t.bar0 = s.bar0 := (congrArg State.bar0 h).symm
  have hsys : t.sys = s.sys := (congrArg State.sys h).symm
  have hpkg : t.pkg = s.pkg := (congrArg State.pkg h).symm
  have hreach : t.reachable c = s.reachable c := by
    funext b
    simp only [State.reachable, State.present, State.sgPresent, State.bar, State.partOf, hbar, hsys]
  unfold State.checkAddr State.pkgTop
  rw [hreach, hpkg, hways]

/-! ## The core whose context issues -/

/-- A part of a core that neither an instruction's slot nor a counted event touches. -/
theorem State.issued_core_part {α : Type} (f : Core → α) (hcount : ∀ k e, f (k.countEv e) = f k)
    (htick : ∀ k x, f (k.tick x) = f k) (hctx : ∀ k x t, f (k.setCtx x t) = f k) (s : State) (n : Nat)
    (h : SMap.wf Core.reset s.cores = true) : f ((s.issued n).core s.slot) = f s.myCore := by
  have hskip : f ((s.skipped n).core s.slot) = f s.myCore := by
    rw [State.skipped, State.core_modCore s _ _ _ h, if_pos rfl, hctx, htick]; rfl
  rw [← hskip, State.issued, State.count]
  split
  · rw [State.core_modCore _ _ _ _ (State.skipped_wf s n h), if_pos rfl, hcount]
  · rfl
theorem Core.tick_clrs (k : Core) (x : CtxId) : (k.tick x).clrs = k.clrs := by unfold Core.tick; split <;> rfl
theorem Core.tick_nextId (k : Core) (x : CtxId) : (k.tick x).nextId = k.nextId := by unfold Core.tick; split <;> rfl
theorem Core.tick_ways (k : Core) (x : CtxId) : (k.tick x).ways = k.ways := by unfold Core.tick; split <;> rfl
theorem Core.tick_ops_isEmpty (k : Core) (x : CtxId) : (k.tick x).ops.isEmpty = k.ops.isEmpty := by
  unfold Core.tick
  split
  · rfl
  · exact List.isEmpty_map
theorem State.issued_nextId (s : State) (n : Nat) (h : SMap.wf Core.reset s.cores = true) :
    (s.issued n).opId = s.myCore.nextId := by
  rw [State.opId, State.myCore, State.issued_slot]
  exact State.issued_core_part Core.nextId (fun _ _ => rfl) Core.tick_nextId (fun _ _ _ => rfl) s n h
theorem State.issued_checkAddr (s : State) (n : Nat) (h : SMap.wf Core.reset s.cores = true) (ea : Word) :
    (s.issued n).checkAddr s.slot ea = s.checkAddr s.slot ea :=
  (s.besideCores_issued n).checkAddr s.slot
    (State.issued_core_part Core.ways (fun _ _ => rfl) Core.tick_ways (fun _ _ _ => rfl) s n h) ea
theorem State.issued_checkEa (s : State) (n : Nat) (h : SMap.wf Core.reset s.cores = true) (ea : Word) (w : Nat) :
    (s.issued n).checkEa ea w = s.checkEa ea w := by
  unfold State.checkEa
  rw [State.issued_slot, State.issued_checkAddr s n h]
/-- Taking a slot leaves a quiet core quiet. -/
theorem Quiet.issued {s : State} (n : Nat) (h : Quiet s) (hwf : SMap.wf Core.reset s.cores = true) : Quiet (s.issued n) := by
  obtain ⟨hops, hclrs, hhomes⟩ := h
  have ops := State.issued_core_part (fun k => k.ops.isEmpty) (fun _ _ => rfl) Core.tick_ops_isEmpty (fun _ _ _ => rfl)
    s n hwf
  have clrs := State.issued_core_part Core.clrs (fun _ _ => rfl) Core.tick_clrs (fun _ _ _ => rfl) s n hwf
  refine ⟨?_, ?_, (State.issued_homes s n).trans hhomes⟩
  · rw [State.myCore, State.issued_slot]; simpa [hops] using ops
  · rw [State.myCore, State.issued_slot]; exact clrs.trans hclrs

/-! ## Addresses of the own local store (05 R65) -/

/-- An address that passes as one of a level-0 store is a coordinate address of level 0, and names its offset. -/
theorem State.checkAddr_local {s : State} {c t : CoreId} {ea : Word} {off : Nat}
    (h : s.checkAddr c ea = .ok (.store 0 t off)) : isCoord ea = true ∧ coordLevel ea = 0 ∧ coordOff ea = off := by
  unfold State.checkAddr at h
  split at h
  next hc =>
    refine ⟨hc, ?_⟩
    split at h
    · cases h
    · dsimp only at h
      iterate 5 (split at h; · cases h)
      injection h with h
      injection h with hlevel _ hoff
      exact ⟨hlevel, hoff⟩
  · split at h
    · cases h
    · split at h <;> cases h

/-- A write to a local store touches no bank at issue. -/
theorem touchBits_local {c : CoreId} {ea : Word} (h : coordLevel ea = 0) : touchBits c ea = 0 := by
  unfold touchBits
  split
  · split
    · rfl
    · simp only [h]
  · rfl

/-! ## The one operation of a quiet core -/

/-- The core `c` has one operation `o` open, of one access `a` that has yet to be made, to byte `off` of the core's own
local store; nothing else of the core is outstanding, and no request waits at a home. -/
structure State.LocalAlone (s : State) (c : CoreId) (o : Op) (a : Access) (off : Nat) : Prop where
  ops : (s.core c).ops = [o]
  clrs : (s.core c).clrs = []
  homes : s.homes = []
  accs : o.accs = [a]
  fresh : a.st = .fresh
  unmapped : a.map = none
  plain : o.releases = false
  place : s.checkAddr c a.va = .ok (.store 0 c off)

section
variable {s : State} {c : CoreId} {o : Op} {a : Access} {off : Nat}

theorem State.LocalAlone.op (h : s.LocalAlone c o a off) : s.op c o.id = some o := by
  simp [State.op, Core.findOp, h.ops]
theorem State.LocalAlone.acc? (h : s.LocalAlone c o a off) : o.acc? 0 = some a := by
  simp [Op.acc?, h.accs]
theorem State.LocalAlone.acc (h : s.LocalAlone c o a off) : s.acc (.lsu c o.id 0) = some a := by
  simp [State.acc, h.op, h.acc?]
theorem State.LocalAlone.opsBefore (h : s.LocalAlone c o a off) (x : CtxId) (tid : Nat) :
    (s.core c).opsBefore x tid o.id = [] := by
  simp [Core.opsBefore, h.ops]
theorem State.LocalAlone.ownPage (h : s.LocalAlone c o a off) : s.ownPage c a.va = false := by
  simp only [State.ownPage, h.place]
theorem State.LocalAlone.mayPerform (h : s.LocalAlone c o a off) : s.mayPerform c o a = true := by
  obtain ⟨hcoord, -, -⟩ := State.checkAddr_local h.place
  have habroad : s.fillsAbroad c o a = false := by
    unfold State.fillsAbroad
    split
    · simp [hcoord]
    · rfl
  simp [State.mayPerform, State.inOrder, h.opsBefore, h.clrs, h.homes, h.unmapped, h.plain, habroad]
@[simp] theorem State.agentCore_lsu (s : State) (c : CoreId) (id i : Nat) : s.agentCore (.lsu c id i) = c := by
  unfold State.agentCore State.agentInfo
  dsimp only
  split <;> rfl
/-- Its access is made at once. -/
theorem State.LocalAlone.goLsu (h : s.LocalAlone c o a off) :
    s.goLsu c o.id 0 = s.lsuLocal c o 0 a (localKey c + off / 64 * 64) := by
  simp [State.goLsu, State.go, h.op, h.acc?, h.acc, h.fresh, h.ownPage, h.mayPerform, h.place]
end

/-! ## Opening the operation -/

section
variable (s : State) (c : Ctx) (len : Nat) (n : La) (kind : OpKind) (gMask : BitVec 32) (vMask : BitVec 16)
  (accs : List Access) (order : Order) (scope : Scope) (ins : Option Instr) (counted far : Bool)

theorem State.besideCores_addOp :
    s.BesideCores (s.addOp c len n kind gMask vMask accs order scope ins counted far) := by
  unfold State.addOp
  dsimp only
  split <;> rfl
/-- What opening a window adds to the issuing core. -/
theorem State.addOp_core (h : SMap.wf Core.reset s.cores = true) :
    ∃ o : Op, (s.addOp c len n kind gMask vMask accs order scope ins counted far).core s.slot =
        { s.myCore with nextId := s.opId + 1, ops := s.myCore.ops ++ [o] } ∧
      o.id = s.opId ∧ o.kind = kind ∧ o.accs = accs := by
  have hcore : ∀ f : Core → Core, (if counted && s.cx != 0 then (s.modCore s.slot f).account c.launch (!c.triggered)
      else s.modCore s.slot f).core s.slot = f s.myCore := by
    intro f
    split <;> exact (State.core_modCore s s.slot s.slot f h).trans (if_pos rfl)
  exact ⟨_, hcore _, rfl, rfl, rfl⟩
end

/-- A load or store of one access to the own local store, which a quiet core issues, makes its access at once. -/
theorem State.launchOp_local {s : State} (c : Ctx) (n : La) {kind : OpKind} {a : Access} {off : Nat} (gMask : BitVec 32)
    (counted : Bool) (hq : Quiet s) (hwf : SMap.wf Core.reset s.cores = true) (hst : a.st = .fresh) (hmap : a.map = none)
    (hkind : ∀ o : Op, o.kind = kind → o.releases = false)
    (hplace : s.checkAddr s.slot a.va = .ok (.store 0 s.slot off)) :
    ∃ (u : State) (o : Op), s.BesideCores u ∧ o.id = s.opId ∧
      s.launchOp c n kind [a] (gMask := gMask) (counted := counted) =
        u.lsuLocal s.slot o 0 a (localKey s.slot + off / 64 * 64) := by
  obtain ⟨hops, hclrs, hhomes⟩ := hq
  obtain ⟨o, hcore, hid, hk, haccs⟩ := State.addOp_core s c 8 n kind gMask 0 [a] 0 0 none counted false hwf
  have beside := State.besideCores_addOp s c 8 n kind gMask 0 [a] 0 0 none counted false
  generalize hu : s.addOp c 8 n kind gMask 0 [a] 0 0 none counted false = u at hcore beside
  have alone : u.LocalAlone s.slot o a off :=
    { ops := by rw [hcore]; simp [hops]
      clrs := by rw [hcore]; exact hclrs
      homes := (congrArg State.homes beside).symm.trans hhomes
      accs := haccs, fresh := hst, unmapped := hmap, plain := hkind o hk
      place := (beside.checkAddr s.slot (by rw [hcore]; rfl) a.va).trans hplace }
  have hslot : u.slot = s.slot := (congrArg State.slot beside).symm
  refine ⟨u, o, beside, hid, ?_⟩
  rw [← alone.goLsu, ← hslot, hid]
  obtain ⟨-, hlevel, -⟩ := State.checkAddr_local hplace
  have hbits : touchBits s.slot a.va = 0 := touchBits_local hlevel
  simp only [State.launchOp, hu, List.foldl_cons, List.foldl_nil, hbits]
  cases a.op <;> rfl

/-! ## The access -/

theorem State.phys_store (s : State) {k : Nat} (h : 2 ^ 60 ≤ k) : s.phys k = some k := by
  unfold State.phys
  rw [if_neg (by omega), if_neg (by omega)]
theorem State.bytesN_congr {s t : State} (h : t.mem = s.mem) (k n : Nat) : t.bytesN k n = s.bytesN k n := by
  induction n generalizing k with
  | zero => rfl
  | succ n ih => rw [State.bytesN, State.bytesN, ih, State.byte, State.byte, h]
theorem State.granule_congr {s t : State} (h : t.mem = s.mem) (k : Nat) : t.granule k = s.granule k :=
  congrArg (BitVec.ofNat 512) (State.bytesN_congr h k 64)
theorem State.rawWrite_store (s : State) {k : Nat} (hk : 2 ^ 60 ≤ k) (hal : k % 64 = 0) (mask : BitVec 64) (x : Granule) :
    s.rawWrite k mask x = s.putChecked k mask x := by
  unfold State.rawWrite
  rw [Nat.div_mul_cancel (Nat.dvd_of_mod_eq_zero hal), s.phys_store hk]
theorem State.rawRead_store (s : State) {k : Nat} (hk : 2 ^ 60 ≤ k) (hal : k % 64 = 0) :
    s.rawRead k = if s.eccOf k = 2 then none else some (s.granule k) := by
  unfold State.rawRead
  rw [Nat.div_mul_cancel (Nat.dvd_of_mod_eq_zero hal), s.phys_store hk]
theorem State.localWritten_mem (s : State) (c : CoreId) (off : Nat) : (s.localWritten c off).mem = s.mem := by
  unfold State.localWritten
  refine List.foldlRecOn (motive := fun t : State => t.mem = s.mem) _ _ rfl ?_
  intro t ht i _
  dsimp only
  split
  · split <;> exact ht
  · exact ht

section
variable (s : State) (c : CoreId) (o : Op) (i : Nat) {a : Access} {k : Nat}

theorem State.answer_lsu_mem (id d : Nat) (r : Reply) : (s.answer (.lsu c id i) d r).mem = s.mem := rfl
theorem State.answer_lsu_due (id d : Nat) (r : Reply) :
    (s.cyc + d, Event.longLatencyComplete c id r) ∈ (s.answer (.lsu c id i) d r).agenda :=
  List.mem_append_right s.agenda (List.mem_singleton.mpr rfl)
/-- A write leaves its bytes in the granule. -/
theorem State.lsuLocal_write {mask : BitVec 64} {x : Granule} (hop : a.op = .write mask x) (hk : 2 ^ 60 ≤ k)
    (hal : k % 64 = 0) : (s.lsuLocal c o i a k).mem = putBytes s.mem k mask x 64 := by
  simp only [State.lsuLocal, hop, State.answer_lsu_mem, State.localWritten_mem, State.rawWrite_store _ hk hal]
  rfl
/-- A read leaves memory as it is, and the completion that delivers the granule falls due one cycle on. -/
theorem State.lsuLocal_read (hop : a.op = .read) (hk : 2 ^ 60 ≤ k) (hal : k % 64 = 0) :
    (s.lsuLocal c o i a k).mem = s.mem ∧
      (s.cyc + 1, Event.longLatencyComplete c o.id (if s.eccOf k = 2 then .bad i else .data i (s.granule k))) ∈
        (s.lsuLocal c o i a k).agenda := by
  simp only [State.lsuLocal, hop]
  generalize hu : s.modAcc (.lsu c o.id i) (fun b => { b with map := some { key := k, isBlock := false } }) = u
  have hmem : u.mem = s.mem := by rw [← hu]; rfl
  have hecc : u.eccOf k = s.eccOf k := by rw [← hu]; rfl
  have hcyc : u.cyc = s.cyc := by rw [← hu]; rfl
  rw [u.rawRead_store hk hal, hecc, State.granule_congr hmem, ← hmem, ← hcyc]
  by_cases hbad : s.eccOf k = 2
  · rw [if_pos hbad, if_pos hbad]
    exact ⟨u.answer_lsu_mem c i o.id 1 _, u.answer_lsu_due c i o.id 1 _⟩
  · rw [if_neg hbad, if_neg hbad]
    exact ⟨u.answer_lsu_mem c i o.id 1 _, u.answer_lsu_due c i o.id 1 _⟩
end

/-! ## Bytes of a granule (00 R2) -/

theorem spanMask_getLsbD (o w i : Nat) : (spanMask o w).getLsbD i = decide (o ≤ i ∧ i < o + w ∧ i < 64) := by
  rw [Bool.eq_iff_iff]
  simp only [spanMask, BitVec.getLsbD_shiftLeft, BitVec.getLsbD_ofNat, Nat.testBit_two_pow_sub_one,
    Bool.and_eq_true, Bool.not_eq_true', decide_eq_true_eq, decide_eq_false_iff_not]
  omega
/-- Byte `i` of a register's bytes moved up by `o` is byte `i - o` of the register. -/
theorem byteOf_shiftLeft (x : Word) {o i : Nat} (ho : o ≤ i) (hi : i < 64) :
    byteOf ((x.setWidth 512 : Granule) <<< (8 * o)) i = byteOf x (i - o) := by
  ext j hj
  simp only [byteOf, BitVec.getElem_extractLsb', BitVec.getLsbD_shiftLeft, BitVec.getLsbD_setWidth]
  have hsub : 8 * i + j - 8 * o = 8 * (i - o) + j := by omega
  rw [hsub, decide_eq_true (by omega : 8 * i + j < 512), decide_eq_false (by omega : ¬8 * i + j < 8 * o),
    decide_eq_true (by omega : 8 * (i - o) + j < 512)]
  simp

/-- An aligned access of a size that divides a granule ends within its granule. -/
theorem span_within_granule {ea w : Nat} (hw : w ∣ 64) (hal : ea % w = 0) : ea % 64 + w ≤ 64 :=
  Nat.le_of_lt_add_of_dvd (Nat.add_lt_add_right (Nat.mod_lt ea (by decide)) w)
    (Nat.dvd_add ((Nat.dvd_mod_iff hw).mpr (Nat.dvd_of_mod_eq_zero hal)) (dvd_refl w)) hw
/-- What a byte reads after `w` bytes of a register were written at offset `o` of the granule at `k`. -/
theorem putBytes_span {m : List Host.Cell} (hm : Memory.wf m = true) (k : Nat) {o w : Nat} (how : o + w ≤ 64) (x : Word)
    (j : Nat) :
    SMap.get freshByte (putBytes m k (spanMask o w) ((x.setWidth 512 : Granule) <<< (8 * o)) 64) j =
      if k + o ≤ j ∧ j < k + o + w then byteOf x (j - (k + o)) else SMap.get freshByte m j := by
  simp only [putBytes_get _ _ _ _ _ _ hm, spanMask_getLsbD, decide_eq_true_eq]
  by_cases hj : k + o ≤ j ∧ j < k + o + w
  · rw [if_pos hj, if_pos (by omega), byteOf_shiftLeft x (by omega) (by omega), Nat.sub_add_eq]
  · rw [if_neg hj, if_neg (by omega)]

/-! ## Loads and stores of the own local store (01 R11, 11 R171) -/

theorem localKey_ge (c : CoreId) (off : Nat) : 2 ^ 60 ≤ localKey c + off := by unfold localKey; omega
theorem localKey_granule (c : CoreId) (off : Nat) : (localKey c + off / 64 * 64) % 64 = 0 := by unfold localKey; omega
theorem coordOff_mod_granule (ea : Word) : coordOff ea % 64 = ea.toNat % 64 := by
  simp only [coordOff, BitVec.extractLsb'_toNat, Nat.shiftRight_zero]
  omega
theorem stSz_bytes_dvd_granule (z : StSz) : z.bytes ∣ 64 := by cases z <;> decide

theorem State.checkEa_none {s : State} {ea : Word} {w : Nat} {g : Target} (hal : ea.toNat % w = 0)
    (h : s.checkAddr s.slot ea = .ok g) : s.checkEa ea w = none := by
  simp [State.checkEa, aligned, hal, h]
/-- Nothing earlier holds an access of a quiet core back. -/
theorem Quiet.inOrder {s : State} (h : Quiet s) (x : CtxId) (tid n : Nat) (asid : BitVec 16) (a : Access) (post : Bool) :
    s.inOrder s.slot x tid n asid a post = true := by
  obtain ⟨hops, hclrs, hhomes⟩ := h
  simp only [State.myCore] at hops hclrs
  simp [State.inOrder, Core.opsBefore, hops, hclrs, hhomes]
theorem Quiet.localHeld {s : State} (h : Quiet s) (c : Ctx) (accs : List Access) : s.localHeld c accs = false := by
  simp [State.localHeld, h.inOrder]

section
variable {s : State} {p : Pred} {ea : Ctx → Word} {off : Nat} (hc : s.Canonical) (hp : s.me.test p = true) (hq : Quiet s)
include hc hq

/-- `launchOp_local` for an instruction that has taken its slot. -/
theorem State.issued_launchOp_local (c : Ctx) (n : La) {kind : OpKind} {a : Access} (gMask : BitVec 32) (counted : Bool)
    (hst : a.st = .fresh) (hmap : a.map = none) (hkind : ∀ o : Op, o.kind = kind → o.releases = false)
    (hplace : s.checkAddr s.slot a.va = .ok (.store 0 s.slot off)) :
    ∃ (u : State) (o : Op), s.BesideCores u ∧ o.id = s.myCore.nextId ∧
      (s.issued 8).launchOp c n kind [a] (gMask := gMask) (counted := counted) =
        u.lsuLocal s.slot o 0 a (localKey s.slot + off / 64 * 64) := by
  have hplace' : (s.issued 8).checkAddr (s.issued 8).slot a.va = .ok (.store 0 (s.issued 8).slot off) := by
    rw [State.issued_slot, State.issued_checkAddr s 8 hc.cores]; exact hplace
  obtain ⟨u, o, beside, hid, hrun⟩ := State.launchOp_local c n gMask counted (hq.issued 8 hc.cores)
    (State.issued_wf s 8 hc.cores) hst hmap hkind hplace'
  rw [State.issued_slot] at hrun
  exact ⟨u, o, (s.besideCores_issued 8).trans beside, hid.trans (State.issued_nextId s 8 hc.cores), hrun⟩

variable (hplace : s.checkAddr s.slot (ea s.me) = .ok (.store 0 s.slot off))
include hp hplace

/-- A scalar store of any form to the own local store (11 R171). -/
theorem scalarStore_local (n : La) (z : StSz) (d : G) (hal : (ea s.me).toNat % z.bytes = 0) :
    ∃ t, scalarStore p n z d s ea = .next t ∧ ∀ j, t.byte j =
      if localKey s.slot + off ≤ j ∧ j < localKey s.slot + off + z.bytes then
        byteOf (s.me.getG d) (j - (localKey s.slot + off))
      else s.byte j := by
  obtain ⟨u, o, beside, -, hrun⟩ := State.issued_launchOp_local (a := writeAcc (ea s.me) z.bytes (s.me.getG d)) hc hq s.me n
    0 true rfl rfl (fun o (hk : o.kind = .store) => by simp [Op.releases, hk]) hplace
  have hea : s.checkEa (ea s.me) z.bytes = none := State.checkEa_none hal hplace
  have hnext : scalarStore p n z d s ea = .next ((s.issued 8).launchOp s.me n .store
      [writeAcc (ea s.me) z.bytes (s.me.getG d)] (counted := true)) := by
    rw [scalarStore, issue_runs rfl hp, State.issued_checkEa s 8 hc.cores, hea, State.storeOp,
      (hq.issued 8 hc.cores).localHeld]
    rfl
  refine ⟨_, hnext, fun j => ?_⟩
  have hmem : u.mem = s.mem := (congrArg State.mem beside).symm
  obtain ⟨-, -, hcoord⟩ := State.checkAddr_local hplace
  have hoff : (ea s.me).toNat % 64 = off % 64 := by rw [← coordOff_mod_granule, hcoord]
  have hkey : localKey s.slot + off / 64 * 64 + off % 64 = localKey s.slot + off := by omega
  rw [hrun, State.byte, State.lsuLocal_write u s.slot o 0 rfl (localKey_ge _ _) (localKey_granule _ _), hmem, hoff,
    putBytes_span hc.mem _ (hoff ▸ span_within_granule (stSz_bytes_dvd_granule z) hal), hkey]
  rfl

/-- A scalar load of any form from the own local store (11 R171). -/
theorem scalarLoad_local (n : La) (z : Sz) (d : G) (hal : (ea s.me).toNat % z.bytes = 0) :
    ∃ t, scalarLoad p n z d s ea = .next t ∧ SameMem s t ∧
       (s.cyc + 1, Event.longLatencyComplete s.slot s.myCore.nextId
         (if s.eccOf (localKey s.slot + off / 64 * 64) = 2 then .bad 0
          else .data 0 (s.granule (localKey s.slot + off / 64 * 64)))) ∈ t.agenda := by
  obtain ⟨u, o, beside, hid, hrun⟩ := State.issued_launchOp_local (a := readAcc (ea s.me) z.bytes) hc hq s.me n (gBit d)
    false rfl rfl (fun o (hk : o.kind = .load z d) => by simp [Op.releases, hk]) hplace
  have hea : s.checkEa (ea s.me) z.bytes = none := State.checkEa_none hal hplace
  have hnext : scalarLoad p n z d s ea = .next ((s.issued 8).launchOp s.me n (.load z d)
      [readAcc (ea s.me) z.bytes] (gMask := gBit d)) := by
    rw [scalarLoad, issue_runs rfl hp, State.issued_checkEa s 8 hc.cores, hea]
    rfl
  have hmem : u.mem = s.mem := (congrArg State.mem beside).symm
  have hecc : u.ecc = s.ecc := (congrArg State.ecc beside).symm
  have hcyc : u.cyc = s.cyc := (congrArg State.cyc beside).symm
  obtain ⟨same, due⟩ := State.lsuLocal_read u s.slot o 0 (a := readAcc (ea s.me) z.bytes) rfl
    (localKey_ge s.slot (off / 64 * 64)) (localKey_granule s.slot off)
  rw [hid, hcyc, State.eccOf, hecc, State.granule_congr hmem] at due
  refine ⟨_, hnext, fun j => ?_, hrun ▸ due⟩
  rw [SameByte, hrun, State.byte, same, hmem, State.byte]
end

/-- Settles O24: the one access of a quiet core's load or store is made in its slot, at the granule of its address. -/
theorem localStoreAccess : Obligations.LocalStoreAccess := by
  unfold Obligations.LocalStoreAccess
  refine ⟨fun s p n z sc d a b disp off => ⟨?_, ?_⟩, ?_⟩
  · intro hc hp hq hal hplace
    exact scalarStore_local (ea := fun c => c.eaI a disp) hc hp hq hplace n z d hal
  · intro hc hp hq hal hplace
    exact scalarStore_local (ea := fun c => c.eaX a b (if sc then z.log2 else 0)) hc hp hq hplace n z d hal
  · intro s p n z d a disp off hc hp hq hal hplace
    exact scalarLoad_local (ea := fun c => c.eaI a disp) hc hp hq hplace n z d hal

end Sys2Proof.Machine
end

section
/-! SUPPORT. O43: a block write whose granule no channel decodes. -/
namespace Sys2Proof.Machine

/-- A write at a block's home whose granule no channel decodes is answered as uncorrectable data, whatever the block's tag
says (05 R385, R88). -/
theorem State.homePerform_write_unmapped {s : State} {who : Agent} {a : Access} {m : Map} {mask : BitVec 64} {x : Granule}
    (d : Nat) (ha : s.acc who = some a) (hm : a.map = some m) (hst : a.st = .bank) (hop : a.op = .write mask x)
    (hway : s.plainWayKey m.key = false) (hheld : (s.held.any fun h => h.blk == m.blk) = false)
    (hphys : s.phys m.key = none) : s.homePerform who d = s.answerAt who m d (.bad who.idx) := by
  have hw : s.blkWrite m mask x = .bad := by
    unfold State.blkWrite
    rw [hphys]
    cases s.tagOf m.blk m.n <;> rfl
  simp [State.homePerform, ha, hm, hst, hway, hheld, hop, State.writeHome, hw]

/-- Granule 60 of a 4 KiB block of HBM at the end of its channel. 1,500,000,000 bytes are no multiple of 4096, so the channel
holds the block's granules 0 to 59 only (05 R385). -/
def endBlock : Map := { key := 95999754240 + 3840, isBlock := true, n := 6, blk := 95999754240 }
/-- A store's write to that granule, at the block's home. -/
def endWrite : Access := { va := 0, mask := 1, op := .write 1 0, map := some endBlock, st := .bank }
/-- Interleave register 0 maps the channels of die 0 from frame address 0 on; the block's tag is full, with Remaining 0;
operation 7 of core 0 is the store. -/
def endState : State :=
  { bar0 := [(0x6100, 2 ^ 63 + 2 ^ 48), (0x6108, 90)]
    atoms := [(chanKey 0 0 1499996160 / 64, TagV.pack { rem := 0, gen := 0, st := 2 })]
    cores := [(0, { Core.reset with
      ops := [{ id := 7, ctx := 0, tid := 0, pc := 0, len := 8, left := 0, kind := .store, asid := 0, priv := .m
                accs := [endWrite] }] })] }

/-- Whatever the home answers is what the store's operation is told next. -/
theorem endState_answerAt_agenda (r : Reply) :
    (endState.answerAt (.lsu 0 7 0) endBlock 1 r).agenda.map Prod.snd = [.longLatencyComplete 0 7 r] := rfl

/-- Refutes O43: the clause for a write to a block whose Remaining is 0 does not ask that a channel hold the granule. In
`endState` the block's first granule decodes and has a tag, the written one does not decode, and the home answers
uncorrectable data where the clause has the trap of cause 2. -/
theorem not_blockSteps : ¬ Obligations.BlockSteps := by
  unfold Obligations.BlockSteps
  rintro ⟨-, -, home⟩
  have hacc : endState.acc (.lsu 0 7 0) = some endWrite := by decide +kernel
  have hway : endState.plainWayKey endBlock.key = false := by decide +kernel
  have htag : endState.tagOf endBlock.blk endBlock.n = some { rem := 0, gen := 0, st := 2 } := by decide +kernel
  have hphys : endState.phys endBlock.key = none := by decide +kernel
  obtain ⟨second, -⟩ := home (.lsu 0 7 0) endWrite endBlock 1 0 _ 1 0 0 ⟨0, 0, .task 0 0, none⟩ false 0 0 0
  have trap := second endState ⟨hacc, rfl, rfl, hway, by decide, htag⟩ rfl (.inr rfl)
  have bad := State.homePerform_write_unmapped 1 hacc rfl rfl rfl hway rfl hphys
  have same := congrArg (fun t : State => t.agenda.map Prod.snd) (bad.symm.trans trap)
  simp only [endState_answerAt_agenda] at same
  cases same

end Sys2Proof.Machine
end

section
/-! SUPPORT. O60: an entry of the package route table, loaded where the table of links is not in canonical form. -/
namespace Sys2Proof

/-- What a write of a value other than the default leaves at its key is that value, in a list of any form. -/
theorem SMap.get_set_self {α : Type} [DecidableEq α] (d : α) (m : List (Nat × α)) (k : Nat) {v : α} (hv : v ≠ d) :
    SMap.get d (SMap.set d m k v) k = v := by
  induction m with
  | nil => simp [SMap.set, SMap.get, hv]
  | cons e t ih =>
    obtain ⟨k', v'⟩ := e
    simp only [SMap.set, if_neg hv]
    split
    · simp [SMap.get]
    next hlt =>
      split
      · simp [SMap.get]
      next hne => simp only [SMap.get, if_neg hne, if_neg hlt, ih]

end Sys2Proof
namespace Sys2Proof.Machine

/-! ## Links -/

theorem State.link_setLink {s : State} (h : SMap.wf {} s.coh.links = true) (i j : BitVec 4) (l : Link) :
    (s.setLink i l).link j = if j = i then l else s.link j := by
  simp only [State.link, State.setLink, SMap.get_set _ _ _ _ _ h, ← BitVec.toNat_inj]
/-- Sending what waits at a link changes neither the package's number nor its route tables. -/
theorem State.pumpLink_pkg_sys (s : State) (i : BitVec 4) (n : Nat) :
    (s.pumpLink i n).pkg = s.pkg ∧ (s.pumpLink i n).sys = s.sys := by
  induction n generalizing s with
  | zero => exact ⟨rfl, rfl⟩
  | succ n ih =>
    simp only [State.pumpLink]
    split
    · exact ⟨rfl, rfl⟩
    · split
      · exact ⟨rfl, rfl⟩
      · exact ih _

/-! ## PACKAGE_ROUTE_LOAD as O60 states it -/

/-- The entry of the package route table is written, and what waits for the package has left its old link. -/
def State.routeLeft (s : State) (p : BitVec 5) (i : BitVec 4) : State :=
  ({ s with sys := { s.sys with pkgRoutes := SMap.set none s.sys.pkgRoutes p.toNat (some i) } } : State).setLink (s.linkOf p)
    { s.link (s.linkOf p) with queue := (s.link (s.linkOf p)).queue.filter fun e => e.1 != p }
/-- It waits at the new link, behind what waits there in `l`. -/
def State.routeMoved (s : State) (p : BitVec 5) (i : BitVec 4) (l : Link) : State :=
  let wait := (s.link (s.linkOf p)).queue.filter fun e => e.1 == p
  ((s.routeLeft p i).setLink i { l with queue := l.queue ++ wait }).pumpLink i wait.length

/-- The model reads the new link after it has written the old one. -/
theorem State.loadPackageRoute_of_ne {s : State} {p : BitVec 5} {i : BitVec 4} (hne : s.linkOf p ≠ i) :
    s.loadPackageRoute p i =
      let t := s.routeMoved p i ((s.routeLeft p i).link i)
      if t.routeLost p ∧ p ≠ t.pkgNum then t.contain (pkgAgents p) else t :=
  congrArg (fun t : State => if t.routeLost p ∧ p ≠ t.pkgNum then t.contain (pkgAgents p) else t) (if_neg hne)
theorem State.routeMoved_routeLost (s : State) (p : BitVec 5) (i : BitVec 4) (l : Link) :
    (s.routeMoved p i l).routeLost p = !((s.routeMoved p i l).link i).up := by
  obtain ⟨-, hsys⟩ := State.pumpLink_pkg_sys ((s.routeLeft p i).setLink i _) i _
  have hroute : SMap.get none (s.routeMoved p i l).sys.pkgRoutes p.toNat = some i := by
    rw [State.routeMoved, hsys]
    exact SMap.get_set_self none _ _ (Option.some_ne_none i)
  rw [State.routeLost, hroute]

/-- In a table of links in canonical form, writing the old link leaves the new one as it was. -/
theorem State.loadPackageRoute_canonical {s : State} {p : BitVec 5} {i : BitVec 4} (hlinks : SMap.wf {} s.coh.links = true)
    (hne : s.linkOf p ≠ i) (hup : p = s.pkgNum ∨ ((s.routeMoved p i (s.link i)).link i).up = true) :
    s.loadPackageRoute p i = s.routeMoved p i (s.link i) := by
  have hkept : (s.routeLeft p i).link i = s.link i := (State.link_setLink hlinks _ _ _).trans (if_neg (Ne.symm hne))
  have hpkg : (s.routeMoved p i (s.link i)).pkgNum = s.pkgNum :=
    congrArg (BitVec.setWidth 5) (State.pumpLink_pkg_sys ((s.routeLeft p i).setLink i _) i _).1
  rw [State.loadPackageRoute_of_ne hne, hkept]
  refine if_neg ?_
  rw [State.routeMoved_routeLost, hpkg]
  rintro ⟨hdown, hother⟩
  simp [hup.resolve_left hother] at hdown
/-- O60's clause, with the canonical form that it does not ask for. -/
theorem packageRouteLoad_performs_canonical (p : BitVec 5) (i : BitVec 4) :
    Performs (.packageRouteLoad p i) (fun s => SMap.wf {} s.coh.links = true ∧ s.linkOf p ≠ i ∧
      (p = s.pkgNum ∨ ((s.routeMoved p i (s.link i)).link i).up = true)) (fun s => s.routeMoved p i (s.link i)) := by
  intro s hev ⟨hlinks, hne, hup⟩
  exact (run_packageRouteLoad hev).trans (congrArg _ (State.loadPackageRoute_canonical hlinks hne hup))

/-! ## A table of links in which the two differ -/

/-- Package 1 is reached by link 1. The table of links lists link 1, as it is after reset, before link 0, so that link 0
reads as after reset too, until the entry of link 1 is dropped. The model's own writes make no such table (`SMap.wf_set`). -/
def crossedLinks : State :=
  { ev := some (.packageRouteLoad 1 0)
    sys := { pkgRoutes := [(1, some 1)] }
    coh := { links := [(1, {}), (0, { rx := 5 })] } }

theorem crossedLinks_loadPackageRoute : ((crossedLinks.loadPackageRoute 1 0).link 0).rx = 5 := by decide +kernel
theorem crossedLinks_routeMoved : ((crossedLinks.routeMoved 1 0 (crossedLinks.link 0)).link 0).rx = 0 := by decide +kernel

/-- Refutes O60: the clause for an entry of the package route table does not ask that the table of links be in canonical
form. In `crossedLinks` writing link 1, which is as after reset, drops its entry and uncovers that of link 0: the load keeps what
that entry holds, where the clause has link 0 as it read before. `packageRouteLoad_performs_canonical` is the clause with the
condition that it lacks. -/
theorem not_machineSteps : ¬ Obligations.MachineSteps := by
  unfold Obligations.MachineSteps
  intro h
  obtain ⟨-, -, -, -, -, -, -, -, -, -, -, -, -, -, -, -, -, -, -, -, -, -, -, ⟨-, -, moves⟩, -⟩ :=
    h 0 0 0 0 0 0 0 0 0 .local false 0 0 0 0 (.serv 0) (0, .snapIn) 1
  have stated : exec .routingTableLoad crossedLinks = .next (crossedLinks.routeMoved 1 0 (crossedLinks.link 0)) :=
    moves crossedLinks rfl ⟨by decide +kernel, .inr (by decide +kernel)⟩
  have same : crossedLinks.loadPackageRoute 1 0 = crossedLinks.routeMoved 1 0 (crossedLinks.link 0) :=
    Host.Outcome.next.inj ((run_packageRouteLoad rfl).symm.trans stated)
  have rx := crossedLinks_loadPackageRoute
  rw [same, crossedLinks_routeMoved] at rx
  exact absurd rx (by decide)

end Sys2Proof.Machine
end

section
/-! SUPPORT. O1, O2: the encoder and the decoder undo each other (07 R95–R111). -/
namespace Sys2Proof
open Laws

/-! ## Instructions, formats and fields (07 R99, R100, Tables 7-2 to 7-5) -/

open Laws.Roundtrip in
/-- The decoder's candidate for the fields of a well-formed instruction is that instruction: the round trips of
`Laws/PerInstr.lean`, one for each constructor, in their order. -/
theorem candidate_fieldsOf (i : Instr) : Roundtrip.Statement i :=
  Instr.casesOn (motive := Roundtrip.Statement) i
    nop bra jmp call callr ret brc aluAdd aluSub aluAnd aluOr aluXor aluAndn aluOrn aluXnor aluMin aluMax aluMinu
    aluMaxu aluAdds aluSubs aluAddsu aluSubsu aluMov aluNeg aluNot addi andi ori xori movi movhi mulLo mulHi mulHiu
    mulMad divS divU divRem divRemu bitsShl bitsShr bitsSar bitsRol bitsRor bitsShli bitsShri bitsSari bitsRoli
    bitsRori bitsClz bitsCtz bitsPopc bitsBrev bitsBswap fieldExt fieldExts fieldIns fieldMask movw sel lea leaOff cmp
    cmpi plogAnd plogOr plogXor plogAndn plogOrn plogNand plogNor plogXnor plogNot pmovG2p pmovP2g pmovBc coordTile
    coordGroup coordSgrp coordDie coordPres coordHmap coordLocal mka mkg mkgOwn ld ldx st stx ldm stm ldq ldtry bwait
    clr clrn prefS prefX aopSwap aopAdd aopAnd aopOr aopXor aopMin aopMax acas redAdd redAnd redOr redXor redMin
    redMax post vopAdd vopSub vopMul vopMin vopMax vopAbs vopNeg vopAdds vopSubs vopAnd vopOr vopXor vopAndn vopShl
    vopShr vopSar vopMulhi vfma vfmaFms vfmaFnma vfmaFnms vdiv vsqrt vcmp vsel vcvt vredAdd vredMin vredMax vredAnd
    vredOr vredXor vperm vbcast vbcastLane vins vext vdot vmov vmovZero vld vst vlds vsts vgath vscat vldb vstb copy
    copys copygG copygS cbatchOpen cbatchClose cwait cbinit cbwait cqf cstat cstatBar tagl taglG tags tagi tagiAll
    tagiBlk mtask mtqry mtqryQ mtcan lyrinit lyrq lyrqX lyrqW lyrref lyrdrop fence bar barComb trig waitl waitlDl
    sleep sleepM yield spawn tpop tstart treap texit rqpush rqpushCore rqpop rqpopP rqpopCnt preempt preemptQ evac
    send recv recvT timer timerRel timerOff trap eret eretNext movsRead movsWrite movcRead movcWrite tlbiVa tlbiAsid
    tlbiAll tlbsync fltrd fltrpl emur emuw holdt resumet snap cntrd cntclr waym sgway illegalEncoding emulationRequest
    fetchBlockFill longLatencyComplete bankAccess suspension waiterRetry blockReadAtHome blockWriteGranule
    blockFillRelease drainDescriptor clrAtHome watchIncrement deferredTrapReport trapDelivery dispatch steal
    dispatchRetry ringRefill groupLoadRefresh pushBalance wakeMessage resumeContinuation launchTableFill launchAccept
    gangPlace gangOffer triggerWrite completionWrite postedAck preemptTakeEffect saveWrite restore haltTakeEffect
    holdtTimeout deadlockDeclare timerFire sleepDeadline waitlWake waitlPoll barrierResume mailboxArrival
    gangStartRecord supervisorNotice copyAdmit copyBeat copyCommandComplete copyCommandEnd taskAccept
    taskPresenceCheck taskIssue configurationChange taskKstep taskDWrite taskComplete taskEndError taskFault
    graftInvocation graftRestart graftCommit faultPost faultTableRetry faultReplay walk remoteRequest remoteRetry
    remoteTokenWake farAtomic scrub routerFailure routingTableLoad rds rdx upg wbd inv fwds fwdx invack data datax
    cmpMsg memrdData memwrAck snoopFilterEvict directoryRecall sliceFailure censusQuery censusReport censusEnd
    containment agentAnswerTimeout containmentNotice agentRejoin flitReceive linkNak linkDown reserve rack rnak
    release go started startedTimeout halt trigMessage done apertureRead apertureWrite apertureFaultTimeout
    pcieUnsupported qcreate qdestroy queueFetch startRecord partitionControl registerWrite debugSelect coldReset
    partitionReset lifeCycleChange wipeDone firmwareVerify recoveryLoad attestationRequest cxlDynamicCapacity
    powerLimit powerLimitClear overtemperature channelHalfWidth snapIn snapshotThreshold snapshotLatch machineCheck
    meshCreditReturn probeEcho evacAcknowledged tlbiTakesEffect emulationRoundTrip graftTableAccessReturn
    storeWipeDone haltAnswer channelFullWidth

/-- An event has no word: its opcode is reserved. -/
theorem Instr.fmt_event {i : Instr} (h : ¬i.isWord = true) : i.fmt = none := by
  change fmtOf (fieldsOf i).op = none
  cases i
  all_goals try exact absurd rfl h
  all_goals rfl

/-- The fields that a format has no place for are zero (07 Tables 7-3 to 7-5). -/
def Fmt.Fits (k : Fmt) (x : Enc) : Prop :=
  match k with
  | .a => x.imm = 0
  | .w => x.imm.extractLsb' 32 32 = 0
  | .e => True
  | .i => { x with b := 0, c := 0, ty := 0, scope := 0, order := 0, flags := 0 } = x ∧ x.f.extractLsb' 4 4 = 0 ∧
      x.imm.extractLsb' 32 32 = 0

theorem setWidth_high32 (x : BitVec 32) : (x.setWidth 64).extractLsb' 32 32 = 0 := by
  ext i hi; simp [BitVec.getElem_extractLsb']
theorem setWidth_high3 (x : BitVec 3) : (x.setWidth 8).extractLsb' 4 4 = 0 := by revert x; decide
theorem Cond.code_high (c : Cond) : c.code.extractLsb' 4 4 = 0 := by cases c <;> rfl
theorem Sz.code_high (z : Sz) : z.code.extractLsb' 4 4 = 0 := by cases z <;> rfl
theorem StSz.code_high (z : StSz) : z.code.extractLsb' 4 4 = 0 := by cases z <;> rfl
theorem ofBool_high (b : Bool) : ((BitVec.ofBool b).setWidth 8).extractLsb' 4 4 = 0 := by cases b <;> rfl

/-- The fields of an instruction fit its format. -/
theorem Instr.fits_of_word (i : Instr) (h : i.isWord = true) : ∃ k, i.fmt = some k ∧ k.Fits (fieldsOf i) := by
  change ∃ k, fmtOf (fieldsOf i).op = some k ∧ k.Fits (fieldsOf i)
  cases i
  all_goals try exact Bool.noConfusion h
  all_goals dsimp only [fieldsOf]
  case movw | copy | copys | copygG | copygS => exact ⟨.e, by decide, trivial⟩
  case brc | cbinit => exact ⟨.w, by decide, setWidth_high32 _⟩
  all_goals first
    | refine ⟨.a, ?_, rfl⟩
    | refine ⟨.i, ?_, rfl, ?_, setWidth_high32 _⟩
  all_goals try simp only [setWidth_high3, Cond.code_high, Sz.code_high, StSz.code_high, ofBool_high]
  all_goals decide +kernel

theorem setWidth_setWidth_of_high32 {x : BitVec 64} (h : x.extractLsb' 32 32 = 0) :
    (x.setWidth 32).setWidth 64 = x := by
  have h := congrArg BitVec.toNat h
  simp [Nat.shiftRight_eq_div_pow] at h
  bv_omega
theorem setWidth_setWidth_of_high4 {x : BitVec 8} (h : x.extractLsb' 4 4 = 0) : (x.setWidth 4).setWidth 8 = x := by
  revert x; decide

/-- The fields that fit a format are read back from their word. -/
theorem unpack_pack {k : Fmt} {x : Enc} (h : k.Fits x) : unpack k (pack k x) = x := by
  obtain ⟨op, q, p, d, a, b, f, c, ty, scope, order, flags, imm⟩ := x
  cases k
  all_goals
    dsimp only [pack, unpack, Fmt.Fits] at h ⊢
    simp (disch := decide) only [extract_skip, extract_within]
  case a => simp [h]
  case e => simp
  case w => simp [setWidth_setWidth_of_high32 h]
  case i =>
    obtain ⟨hzero, hf, himm⟩ := h
    simpa [setWidth_setWidth_of_high32 himm, setWidth_setWidth_of_high4 hf] using hzero

/-! ## Words and their bits -/

theorem append_getLsbD_low {m n : Nat} (y : BitVec m) (x : BitVec n) {j : Nat} (h : j < n) :
    (y ++ x).getLsbD j = x.getLsbD j := by
  rw [BitVec.getLsbD_append, if_pos h]
theorem extract_zero_getLsbD {n : Nat} (w : BitVec n) {m j : Nat} (h : j < m) :
    (w.extractLsb' 0 m).getLsbD j = w.getLsbD j := by
  rw [BitVec.getLsbD_extractLsb', Nat.zero_add, decide_eq_true h, Bool.true_and]

/-- A word's bits within its format are those of its fields and its length code. -/
theorem pack_unpack {k : Fmt} {w : BitVec 128} (h : w.setWidth 2 = k.code) {j : Nat} (hj : j < 8 * k.bytes) :
    (pack k (unpack k w)).getLsbD j = w.getLsbD j := by
  have code : k.code = w.extractLsb' 0 2 := by rw [← h, BitVec.setWidth_eq_extractLsb' (by decide)]
  cases k
  all_goals simp only [pack, unpack, code, BitVec.setWidth_setWidth_of_le, Nat.reduceLeDiff, BitVec.setWidth_eq,
    BitVec.extractLsb'_append_extractLsb'_eq_extractLsb']
  case a => exact (append_getLsbD_low _ _ hj).trans (extract_zero_getLsbD w hj)
  case e => exact extract_zero_getLsbD w hj
  case i => exact (append_getLsbD_low _ _ hj).trans (extract_zero_getLsbD w hj)
  case w =>
    by_cases hlow : j < 64
    · exact (append_getLsbD_low _ _ hlow).trans (extract_zero_getLsbD w hlow)
    · have hhigh : j - 64 < 32 := by simp only [Fmt.bytes] at hj; omega
      refine (BitVec.getLsbD_append).trans ?_
      rw [if_neg hlow, append_getLsbD_low _ _ hhigh, BitVec.getLsbD_extractLsb', decide_eq_true hhigh, Bool.true_and]
      congr 1
      omega

/-- The fields of a format read only the word's bits within it. -/
theorem unpack_congr {k : Fmt} {v w : BitVec 128} (h : ∀ j, j < 8 * k.bytes → v.getLsbD j = w.getLsbD j) :
    unpack k v = unpack k w := by
  have field {start len : Nat} (hfit : start + len ≤ 8 * k.bytes) :
      v.extractLsb' start len = w.extractLsb' start len := by
    ext j hj
    rw [BitVec.getElem_extractLsb', BitVec.getElem_extractLsb', h _ (by omega)]
  cases k <;> simp (disch := decide) only [unpack, field]

/-! ## Words and bytes (00 R2) -/

theorem byte_getElem?_of_bytesNat (l : List Byte) (k : Nat) : bytesNat l / 256 ^ k % 256 = (l[k]?.getD 0).toNat := by
  induction l generalizing k with
  | nil => simp [bytesNat]
  | cons b t ih =>
    cases k with
    | zero => simp [bytesNat]; omega
    | succ k => 
      rw [bytesNat, Nat.pow_succ', ← Nat.div_div_eq_div_mul, Nat.add_mul_div_left _ _ (by decide),
        Nat.div_eq_of_lt b.isLt, Nat.zero_add, ih, List.getElem?_cons_succ]

theorem byteOf_toNat {n : Nat} (w : BitVec n) (k : Nat) : (byteOf w k).toNat = w.toNat / 256 ^ k % 256 := by
  simp [byteOf, Nat.shiftRight_eq_div_pow, Nat.pow_mul]

/-- The word of a fetch block's bytes (07 R95). -/
def fetchedWord (bs : List Byte) : BitVec 128 := BitVec.ofNat 128 (bytesNat (bs.take 16))

theorem byteOf_fetchedWord {bs : List Byte} {k : Nat} (hk : k < 16) : byteOf (fetchedWord bs) k = bs[k]?.getD 0 := by
  apply BitVec.eq_of_toNat_eq
  rw [byteOf_toNat, fetchedWord, BitVec.toNat_ofNat, show 2 ^ 128 = 256 ^ k * 256 ^ (16 - k) by
      rw [← Nat.pow_add, Nat.add_sub_cancel' hk.le]; rfl,
    Nat.mod_mul_right_div_self, Nat.mod_mod_of_dvd _ (dvd_pow_self 256 (by omega)), byte_getElem?_of_bytesNat,
    List.getElem?_take_of_lt hk]

theorem wordBytes_fetchedWord {bs : List Byte} {n : Nat} (hn : n ≤ bs.length) (h16 : n ≤ 16) :
    wordBytes (fetchedWord bs) n = bs.take n := by
  apply List.ext_getElem
  · simp [wordBytes, hn]
  · intro k hk hk'
    have : k < n := by simpa [wordBytes] using hk
    simp [wordBytes, byteOf_fetchedWord (this.trans_le h16), List.getElem?_eq_getElem (this.trans_le hn)]

/-- Words have the same bytes exactly when they have the same bits. -/
theorem wordBytes_eq_iff {v w : BitVec 128} {n : Nat} :
    wordBytes v n = wordBytes w n ↔ ∀ j, j < 8 * n → v.getLsbD j = w.getLsbD j := by
  have bytes : wordBytes v n = wordBytes w n ↔ ∀ k, k < n → byteOf v k = byteOf w k := by
    simp [wordBytes]
  rw [bytes]
  constructor
  · intro h j hj
    have bit := congrArg (fun b : Byte => b.getLsbD (j % 8)) (h (j / 8) (by omega))
    simpa [byteOf, Nat.mod_lt, Nat.div_add_mod] using bit
  · intro h k hk
    ext i hi
    simpa [byteOf] using h (8 * k + i) (by omega)

/-! ## The decoder -/

theorem Fmt.bytes_eq (k : Fmt) : 4 * (k.code.toNat + 1) = k.bytes := by cases k <;> rfl
theorem Fmt.code_ne_zero (k : Fmt) : k.code ≠ 0 := by cases k <;> decide
theorem Fmt.bytes_le (k : Fmt) : k.bytes ≤ 16 := by cases k <;> decide
theorem pack_code (k : Fmt) (x : Enc) : (pack k x).setWidth 2 = k.code := by
  rw [BitVec.setWidth_eq_extractLsb' (by decide)]
  cases k <;> simp (disch := decide) only [pack, Laws.extract_within]
  all_goals simp
theorem unpack_op (k : Fmt) (w : BitVec 128) : (unpack k w).op = w.extractLsb' 2 8 := by cases k <;> rfl

theorem decodeWord_eq_instr {l : BitVec 2} {w : BitVec 128} {i : Instr} {n : Nat} :
    decodeWord l w = .instr i n ↔ ∃ k, fmtOf (w.extractLsb' 2 8) = some k ∧ k.code = l ∧ n = k.bytes ∧
      candidate (unpack k w) = .ok i ∧ i.wf = true ∧ fieldsOf i = unpack k w := by
  unfold decodeWord
  dsimp only
  split
  next h => simp [h]
  next k h =>
    simp only [h, Option.some.injEq, exists_eq_left']
    by_cases hl : k.code = l
    · rw [if_neg (not_not.mpr hl)]
      split
      next hc => simp [hc]
      next i' hc =>
        by_cases hwf : i'.wf = true ∧ fieldsOf i' = unpack k w
        · rw [if_pos hwf, hc]
          constructor
          · rintro ⟨⟩
            exact ⟨hl, rfl, rfl, hwf⟩
          · rintro ⟨-, rfl, hi, -⟩
            cases hi
            rfl
        · rw [if_neg hwf, hc]
          constructor
          · rintro ⟨⟩
          · rintro ⟨-, -, hi, hwf'⟩
            cases hi
            exact absurd hwf' hwf
    · simp [hl]

theorem decodeBytes_eq (b : Bool) (bs : List Byte) :
    decodeBytes b bs = if (fetchedWord bs).setWidth 2 = 0#2 then (if !b && bs.all (· == 0) then .pad else .illegal 5 1)
      else if bs.length < 4 * (((fetchedWord bs).setWidth 2).toNat + 1)
        then .illegal 6 (((fetchedWord bs).setWidth 2).toNat + 1)
      else decodeWord ((fetchedWord bs).setWidth 2) (fetchedWord bs) := rfl

/-- A granule starts an instruction exactly where the decoder takes its word and the whole word lies in the block
(07 R96). -/
theorem decodeBytes_eq_instr {b : Bool} {bs : List Byte} {i : Instr} {n : Nat} :
    decodeBytes b bs = .instr i n ↔
      n ≤ bs.length ∧ decodeWord ((fetchedWord bs).setWidth 2) (fetchedWord bs) = .instr i n := by
  have word (h : decodeWord ((fetchedWord bs).setWidth 2) (fetchedWord bs) = .instr i n) :
      (fetchedWord bs).setWidth 2 ≠ 0 ∧ 4 * (((fetchedWord bs).setWidth 2).toNat + 1) = n := by
    obtain ⟨k, -, hk, rfl, -⟩ := decodeWord_eq_instr.mp h
    exact hk ▸ ⟨k.code_ne_zero, k.bytes_eq⟩
  rw [decodeBytes_eq]
  split
  next hpad =>
    constructor
    · split <;> rintro ⟨⟩
    · rintro ⟨-, h⟩
      exact absurd hpad (word h).1
  next =>
    split
    next hshort =>
      constructor
      · rintro ⟨⟩
      · rintro ⟨hlen, h⟩
        exact absurd hshort (by rw [(word h).2]; omega)
    next hlong => exact ⟨fun h => ⟨by rw [(word h).2] at hlong; omega, h⟩, And.right⟩

/-- Settles O1: the fields of every instruction fit its format, so that they are read back from its word,
and its bytes give that word back up to its length. -/
theorem decodeRoundTrip : Obligations.DecodeRoundTrip := by
  intro i b rest hword hwf
  obtain ⟨k, hfmt, hfits⟩ := i.fits_of_word hword
  have hbytes : i.bytes = k.bytes := by rw [Instr.bytes, hfmt]; rfl
  have hencode : encodeWord i = pack k (fieldsOf i) := by rw [encodeWord, hfmt]
  have hlen : (encode i).length = k.bytes := by simp [encode, wordBytes, hbytes]
  have hbits : ∀ j, j < 8 * k.bytes → (fetchedWord (encode i ++ rest)).getLsbD j = (encodeWord i).getLsbD j := by
    rw [← wordBytes_eq_iff, wordBytes_fetchedWord (by simp [hlen]) k.bytes_le, ← hlen, List.take_left, hlen, ← hbytes,
      encode]
  have hunpack : unpack k (fetchedWord (encode i ++ rest)) = fieldsOf i := by
    rw [unpack_congr hbits, hencode, unpack_pack hfits]
  have hcode : (fetchedWord (encode i ++ rest)).setWidth 2 = k.code := by
    rw [← pack_code k (fieldsOf i), ← hencode]
    ext j hj
    have := k.bytes_eq
    simpa using hbits j (by omega)
  rw [decodeBytes_eq_instr, decodeWord_eq_instr]
  refine ⟨by simp [hlen, hbytes], k, ?_, hcode.symm, hbytes, ?_, hwf, hunpack.symm⟩
  · rw [← unpack_op k, hunpack]; exact hfmt
  · rw [hunpack]; exact candidate_fieldsOf i hword hwf

/-- Settles O2: the decoder takes a candidate only where its fields are all the word holds. -/
theorem decodeFaithful : Obligations.DecodeFaithful := by
  intro b bs i n h
  obtain ⟨hlen, hdec⟩ := decodeBytes_eq_instr.mp h
  obtain ⟨k, hop, hcode, rfl, -, hwf, hfields⟩ := decodeWord_eq_instr.mp hdec
  have hfmt : i.fmt = some k := by rw [Instr.fmt, hfields, unpack_op, hop]
  have hbytes : i.bytes = k.bytes := by rw [Instr.bytes, hfmt]; rfl
  refine ⟨?_, hwf, hbytes.symm, ?_⟩
  · by_contra hword
    rw [Instr.fmt_event hword] at hfmt
    cases hfmt
  · rw [encode, encodeWord, hfmt, hbytes, ← wordBytes_fetchedWord hlen k.bytes_le, hfields, wordBytes_eq_iff]
    exact fun j hj => (pack_unpack hcode.symm hj).symm

end Sys2Proof
end

section
/-! SUPPORT. O9, O10: what is checked before an instruction does anything of its own (07 Table 7-6). -/
namespace Sys2Proof

/-- Bytes of an instruction, by its constructor (07 Tables 7-3 to 7-5). -/
def Instr.len : Instr → Nat
  | .movw .. | .copy .. | .copys .. | .copygG .. | .copygS .. => 16
  | .brc .. | .cbinit .. => 12
  | _ => 8
theorem Instr.bytes_eq_len (i : Instr) (h : i.isWord = true) : i.bytes = i.len := by
  change ((fmtOf (fieldsOf i).op).map Fmt.bytes).getD 0 = i.len
  cases i
  all_goals try exact Bool.noConfusion h
  all_goals
    dsimp only [fieldsOf, len]
    decide +kernel

namespace Machine

/-- The result is that of an instruction whose privilege and predicate are checked first (07 Table 7-6). -/
def Checked (who : Issuer) (p : Pred) (len : Nat) (s : State) (r : R) : Prop := ∃ body, r = issue who p len s body
/-- The result is that of a vector instruction whose lane mask, of `n` bits, is checked first (13 R191). -/
def Masked (p : Pred) (n : Nat) (s : State) (r : R) : Prop := ∃ body, r = issueV p n 8 s body

theorem checked_scalarG {p len d s f} : Checked .any p len s (scalarG p len d s f) := ⟨_, rfl⟩
theorem checked_scalarP {p d s f} : Checked .any p 8 s (scalarP p d s f) := ⟨_, rfl⟩
theorem checked_alu {p w d a b s f} : Checked .any p 8 s (alu p w d a b s f) := checked_scalarG
theorem checked_division {p n w d a b s f} : Checked .any p 8 s (division p n w d a b s f) := ⟨_, rfl⟩
theorem checked_scalarLoad {p n sz d s ea} : Checked .any p 8 s (scalarLoad p n sz d s ea) := ⟨_, rfl⟩
theorem checked_scalarStore {p n sz d s ea} : Checked .any p 8 s (scalarStore p n sz d s ea) := ⟨_, rfl⟩
theorem checked_clearRun {p s ea count counts} : Checked .any p 8 s (clearRun p s ea count counts) := ⟨_, rfl⟩
theorem checked_prefetch {p a disp excl s} : Checked .any p 8 s (prefetch p a disp excl s) := ⟨_, rfl⟩
theorem checked_aop {f p n far ty scope order d a b s} :
    Checked .any p 8 s (aop f p n far ty scope order d a b s) := ⟨_, rfl⟩
theorem checked_posted {p n w scope order a s op} : Checked .any p 8 s (posted p n w scope order a s op) := ⟨_, rfl⟩
theorem checked_red {f p n ty scope order a b s} :
    Checked .any p 8 s (red f p n ty scope order a b s) := checked_posted
theorem checked_copyInstr {p o s form} : Checked .any p 16 s (copyInstr p o s form) := ⟨_, rfl⟩
theorem checked_tagInstr {p s on reads body} : Checked .any p 8 s (tagInstr p s on reads body) := ⟨_, rfl⟩
theorem checked_waitlBody {p host d a b deadline s} :
    Checked .any p 8 s (waitlBody p host d a b deadline s) := ⟨_, rfl⟩
theorem checked_sleepBody {p mb d a s} : Checked .any p 8 s (sleepBody p mb d a s) := ⟨_, rfl⟩
theorem checked_spawnBody {p pin a s} : Checked .any p 8 s (spawnBody p pin a s) := ⟨_, rfl⟩
theorem checked_popBody {p d s pick} : Checked .c0 p 8 s (popBody p d s pick) := ⟨_, rfl⟩
theorem checked_eretBody {p next s} : Checked .any p 8 s (eretBody p next s) := ⟨_, rfl⟩
theorem checked_tlbiBody {p s mk} : Checked .sOnly p 8 s (tlbiBody p s mk) := ⟨_, rfl⟩
theorem checked_emuBody {p d a b value s} : Checked .sOnly p 8 s (emuBody p d a b value s) := ⟨_, rfl⟩
theorem masked_vecV {p n w d s f} : Masked p n s (vecV p n w d s f) := ⟨_, rfl⟩
theorem masked_vop {p ty d a b s ff fi} : Masked p ty.lanes s (vop p ty d a b s ff fi) := masked_vecV
theorem masked_vfma {np nc p ty d a b c s} : Masked p ty.lanes s (vfma np nc p ty d a b c s) := masked_vecV
theorem masked_vlong {p n ty d s f} : Masked p ty.lanes s (vlong p n ty d s f) := ⟨_, rfl⟩
theorem masked_vred {p ty d a s ff fi} : Masked p ty.lanes s (vred p ty d a s ff fi) := ⟨_, rfl⟩
theorem masked_vecLoad {i p n bits d pair s} : Masked p bits s (vecLoad i p n bits d pair s) := ⟨_, rfl⟩
theorem masked_vecStore {i p n bits d pair s} : Masked p bits s (vecStore i p n bits d pair s) := ⟨_, rfl⟩

/-- What is checked first of an instruction: its lane mask in majors 0x60 to 0x77, else its issuer and its predicate. -/
def ChecksFirst (i : Instr) (s : State) : Prop :=
  match i.lanes? with
  | some n => Masked (fieldsOf i).p n s (exec i s)
  | none => Checked i.issuer (fieldsOf i).p i.len s (exec i s)

/-- MOVS is apart: its write is checked against the register that it names (07 Table 7-10). -/
theorem checksFirst (i : Instr) (h : i.isWord = true) (hsr : ∀ p sr a, i ≠ .movsWrite p sr a) (s : State) :
    ChecksFirst i s := by
  cases i
  all_goals try exact Bool.noConfusion h
  case movsWrite => exact absurd rfl (hsr _ _ _)
  all_goals dsimp only [ChecksFirst, Instr.lanes?, Instr.issuer, Instr.len, fieldsOf, exec]
  case addi | andi | ori | xori | movi | movhi | mulLo | mulHi | mulHiu | mulMad | bitsShl | bitsShr | bitsSar |
      bitsRol | bitsRor | bitsShli | bitsShri | bitsSari | bitsRoli | bitsRori | bitsClz | bitsCtz | bitsPopc |
      bitsBrev | bitsBswap | fieldExt | fieldExts | fieldIns | fieldMask | movw | sel | lea | leaOff | pmovP2g |
      coordTile | coordGroup | coordSgrp | coordDie | coordPres | coordHmap | coordLocal | mka | mkg | mkgOwn =>
    exact checked_scalarG
  case cmp | cmpi | plogAnd | plogOr | plogXor | plogAndn | plogOrn | plogNand | plogNor | plogXnor | plogNot |
      pmovG2p | pmovBc => exact checked_scalarP
  case aluAdd | aluSub | aluAnd | aluOr | aluXor | aluAndn | aluOrn | aluXnor | aluMin | aluMax | aluMinu | aluMaxu |
      aluAdds | aluSubs | aluAddsu | aluSubsu | aluMov | aluNeg | aluNot => exact checked_alu
  case divS | divU | divRem | divRemu => exact checked_division
  case ld | ldx => exact checked_scalarLoad
  case st | stx => exact checked_scalarStore
  case clr | clrn => exact checked_clearRun
  case prefS | prefX => exact checked_prefetch
  case aopSwap | aopAdd | aopAnd | aopOr | aopXor | aopMin | aopMax => exact checked_aop
  case post => exact checked_posted
  case redAdd | redAnd | redOr | redXor | redMin | redMax => exact checked_red
  case copy | copys | copygG | copygS => exact checked_copyInstr
  case tagl | taglG | tags | tagi | tagiAll | tagiBlk => exact checked_tagInstr
  case waitl | waitlDl => exact checked_waitlBody
  case sleep | sleepM => exact checked_sleepBody
  case spawn => exact checked_spawnBody
  case rqpop | rqpopP => exact checked_popBody
  case eret | eretNext => exact checked_eretBody
  case tlbiVa | tlbiAsid | tlbiAll => exact checked_tlbiBody
  case emur | emuw => exact checked_emuBody
  case vsel | vperm | vbcast | vbcastLane | vdot | vmov | vmovZero => exact masked_vecV
  case vopAdd | vopSub | vopMul | vopMin | vopMax | vopAbs | vopNeg | vopAdds | vopSubs | vopAnd | vopOr | vopXor |
      vopAndn | vopShl | vopShr | vopSar | vopMulhi => exact masked_vop
  case vfma | vfmaFms | vfmaFnma | vfmaFnms => exact masked_vfma
  case vdiv | vsqrt => exact masked_vlong
  case vredAdd | vredMin | vredMax | vredAnd | vredOr | vredXor => exact masked_vred
  case vld | vlds | vgath | vldb => exact masked_vecLoad
  case vst | vsts | vscat | vstb => exact masked_vecStore
  all_goals exact ⟨_, rfl⟩

theorem exec_movsWrite_admitted {p : Pred} {sr : BitVec 7} {a : G} {s : State}
    (h : srAccess sr.toNat s.me.priv ≠ .trap) :
    Checked .any p 8 s (exec (.movsWrite p sr a) s) := by
  rw [exec_movsWrite, execMovsWrite, if_neg h]
  exact ⟨_, rfl⟩
theorem exec_movsWrite_denied {p : Pred} {sr : BitVec 7} {a : G} {s : State} (h : srAccess sr.toNat s.me.priv = .trap) :
    exec (.movsWrite p sr a) s = .next (s.issueTrap 8 10 0) := by
  rw [exec_movsWrite, execMovsWrite, if_pos h]

theorem Checked.next {who : Issuer} {p : Pred} {len : Nat} {s : State} {r : R} (h : Checked who p len s r) :
    ∃ t, r = .next t := by
  obtain ⟨body, rfl⟩ := h
  exact issue_next who p len s body
theorem Masked.next {p : Pred} {n : Nat} {s : State} {r : R} (h : Masked p n s r) : ∃ t, r = .next t := by
  obtain ⟨body, rfl⟩ := h
  exact issueV_next p n 8 s body
theorem Checked.skips {who : Issuer} {p : Pred} {len : Nat} {s : State} {r : R} (h : Checked who p len s r)
    (hwho : who.admits s.cx s.me.priv = true) (hp : s.me.test p = false) : r = .next (s.skipped len) := by
  obtain ⟨body, rfl⟩ := h
  exact issue_skips hwho hp
theorem Checked.denied {who : Issuer} {p : Pred} {len : Nat} {s : State} {r : R} (h : Checked who p len s r)
    (hwho : who.admits s.cx s.me.priv = false) : r = .next (s.issueTrap len 10 0) := by
  obtain ⟨body, rfl⟩ := h
  exact issue_denied hwho
theorem Masked.skips {p : Pred} {n : Nat} {s : State} {r : R} (h : Masked p n s r)
    (hm : s.me.mask p &&& BitVec.ofNat 32 (2 ^ n - 1) = 0) : r = .next (s.skipped 8) := by
  obtain ⟨body, rfl⟩ := h
  exact issueV_skips hm

/-- An instruction with a lane mask is one of the vector majors (07 Table 7-11). -/
theorem major_of_lanes {i : Instr} {n : Nat} (h : i.lanes? = some n) :
    (fieldsOf i).op.toNat / 16 = 6 ∨ (fieldsOf i).op.toNat / 16 = 7 := by
  cases i
  all_goals
    dsimp only [Instr.lanes?] at h
    cases h
  all_goals
    dsimp only [fieldsOf]
    decide

theorem checked_of_scalar {i : Instr} (hword : i.isWord = true) (hlanes : i.lanes? = none)
    (hsr : ∀ p sr a, i ≠ .movsWrite p sr a) (s : State) : Checked i.issuer (fieldsOf i).p i.bytes s (exec i s) := by
  have h := checksFirst i hword hsr s
  rwa [ChecksFirst, hlanes, ← i.bytes_eq_len hword] at h
theorem masked_of_vector {i : Instr} {n : Nat} (hword : i.isWord = true) (hlanes : i.lanes? = some n) (s : State) :
    Masked (fieldsOf i).p n s (exec i s) := by
  have h := checksFirst i hword (by rintro p sr a rfl; cases hlanes) s
  rwa [ChecksFirst, hlanes] at h
theorem admitted_eq_issuer {i : Instr} (hsr : ∀ p sr a, i ≠ .movsWrite p sr a) (x : CtxId) (k : Priv) :
    i.admitted x k = i.issuer.admits x k := by
  unfold Instr.admitted
  split
  next => exact absurd rfl (hsr _ _ _)
  next => rfl

theorem exec_next (i : Instr) (hword : i.isWord = true) (s : State) : ∃ t, exec i s = .next t := by
  by_cases hsr : ∃ p sr a, i = .movsWrite p sr a
  · obtain ⟨p, sr, a, rfl⟩ := hsr
    by_cases h : srAccess sr.toNat s.me.priv = .trap
    · exact ⟨_, exec_movsWrite_denied h⟩
    · exact (exec_movsWrite_admitted h).next
  · push Not at hsr
    cases hlanes : i.lanes? with
    | none => exact (checked_of_scalar hword hlanes hsr s).next
    | some n => exact (masked_of_vector hword hlanes s).next

theorem exec_skips {i : Instr} {s : State} (hword : i.isWord = true)
    (hscalar : ¬((fieldsOf i).op.toNat / 16 = 6 ∨ (fieldsOf i).op.toNat / 16 = 7))
    (hp : s.me.test (fieldsOf i).p = false) (hwho : i.admitted s.cx s.me.priv = true) :
    exec i s = .next (s.skipped i.bytes) := by
  have hlanes : i.lanes? = none := by
    cases h : i.lanes? with
    | none => rfl
    | some n => exact absurd (major_of_lanes h) hscalar
  by_cases hsr : ∃ p sr a, i = .movsWrite p sr a
  · obtain ⟨p, sr, a, rfl⟩ := hsr
    have hwrite : srAccess sr.toNat s.me.priv ≠ .trap := by simpa [Instr.admitted] using hwho
    rw [Instr.bytes_eq_len _ hword]
    exact (exec_movsWrite_admitted hwrite).skips rfl hp
  · push Not at hsr
    rw [admitted_eq_issuer hsr] at hwho
    exact (checked_of_scalar hword hlanes hsr s).skips hwho hp

theorem exec_masked_off {i : Instr} {n : Nat} {s : State} {p : Pred} (hword : i.isWord = true)
    (hlanes : i.lanes? = some n) (hp : (fieldsOf i).p = p)
    (hm : s.me.mask p &&& BitVec.ofNat 32 (2 ^ n - 1) = 0) : exec i s = .next (s.skipped 8) := by
  subst hp
  exact (masked_of_vector hword hlanes s).skips hm

/-- Settles O9: every instruction's checks come before anything of its own (`checksFirst`). -/
theorem idleInstructions : Obligations.IdleInstructions := by
  refine ⟨fun i s hword => exec_next i hword s, fun i s => exec_skips, ?_⟩
  intro p n ty src pair sc d a b e q cc g h idx part disp s
  refine ⟨exec_masked_off rfl rfl rfl, exec_masked_off rfl rfl rfl, exec_masked_off rfl rfl rfl,
    exec_masked_off rfl rfl rfl, exec_masked_off rfl rfl rfl, exec_masked_off rfl rfl rfl, ?_⟩
  intro i hi hm
  obtain ⟨hword, hlanes, hp⟩ : i.isWord = true ∧ i.lanes? = some ty.lanes ∧ (fieldsOf i).p = p := by
    clear hm
    revert i
    repeat refine List.forall_mem_cons.mpr ⟨⟨rfl, rfl, rfl⟩, ?_⟩
    exact List.forall_mem_nil _
  exact exec_masked_off hword hlanes hp hm

/-! ## O10: issue traps -/

/-- An instruction that its issuer may not issue traps with cause 10 at its own PC, whatever its predicate (07 R109). -/
theorem exec_denied {i : Instr} {s : State} {who : Issuer} (hword : i.isWord = true) (hlanes : i.lanes? = none)
    (hissuer : i.issuer = who) (hlen : i.len = 8) (hwho : who ≠ .any) (h : who.admits s.cx s.me.priv = false) :
    exec i s = .next (s.issueTrap 8 10 0) := by
  have hsr : ∀ p sr a, i ≠ .movsWrite p sr a := by
    rintro p sr a rfl
    exact hwho hissuer.symm
  rw [← hlen, ← i.bytes_eq_len hword]
  exact (checked_of_scalar hword hlanes hsr s).denied (hissuer ▸ h)

theorem exec_denied_of_mem {l : List Instr} {s : State} {who : Issuer}
    (hl : ∀ i ∈ l, i.isWord = true ∧ i.lanes? = none ∧ i.issuer = who ∧ i.len = 8) (hwho : who ≠ .any)
    (h : who.admits s.cx s.me.priv = false) : ∀ i ∈ l, exec i s = .next (s.issueTrap 8 10 0) := by
  intro i hi
  obtain ⟨hword, hlanes, hissuer, hlen⟩ := hl i hi
  exact exec_denied hword hlanes hissuer hlen hwho h

theorem State.checkEa_misaligned {s : State} {ea : Word} {w : Nat} (h : ea.toNat % w ≠ 0) :
    s.checkEa ea w = some (1, ea) := by
  simp [State.checkEa, aligned, h]
theorem State.checkEa_error {s : State} {ea : Word} {w cause : Nat} (hal : ea.toNat % w = 0)
    (h : s.checkAddr s.slot ea = .error cause) : s.checkEa ea w = some (cause, ea) := by
  simp [State.checkEa, aligned, hal, h]

theorem State.checkAtomic_of_checkEa {s : State} {ea : Word} {w : Nat} {posted : Bool} {e : Nat × Word}
    (h : s.checkEa ea w = some e) : s.checkAtomic ea w posted = some e := by
  rw [State.checkAtomic, h]

/-- The two traps of an access of `w` bytes: a misaligned address, and one whose form names no place (11 R149, R150). -/
theorem addressTraps {i : Instr} {p : Pred} {x : Ctx → Word} {w : Nat}
    (h : ∀ s : State, s.me.test p = true → ∀ cause ea, (s.issued 8).checkEa (x s.me) w = some (cause, ea) →
      exec i s = .next (s.issueTrap 8 cause ea)) (cause : Nat) :
    Traps .any i p 8 (fun c _ => (x c).toNat % w ≠ 0) 1 (fun c _ => x c) ∧
      Traps .any i p 8 (fun c t => (x c).toNat % w = 0 ∧ t.checkAddr t.slot (x c) = .error cause) cause
        (fun c _ => x c) := by
  constructor
  · intro s _ hp hmis
    exact h s hp _ _ (State.checkEa_misaligned hmis)
  · intro s _ hp ⟨hal, herr⟩
    exact h s hp _ _ (State.checkEa_error hal herr)

section
variable {p : Pred} {n : La} {s : State} {cause : Nat} {ea : Word} {x : Ctx → Word} {w : Nat}
variable (hp : s.me.test p = true)
include hp

theorem scalarLoad_traps {z : Sz} {d : G} (h : (s.issued 8).checkEa (x s.me) z.bytes = some (cause, ea)) :
    scalarLoad p n z d s x = .next (s.issueTrap 8 cause ea) := by
  rw [scalarLoad, issue_runs rfl hp, h]
  rfl
theorem scalarStore_traps {z : StSz} {d : G} (h : (s.issued 8).checkEa (x s.me) z.bytes = some (cause, ea)) :
    scalarStore p n z d s x = .next (s.issueTrap 8 cause ea) := by
  rw [scalarStore, issue_runs rfl hp, h]
  rfl
theorem clearRun_traps {count : Ctx → Nat} {counts : Bool} (h : (s.issued 8).checkEa (x s.me) 1 = some (cause, ea)) :
    clearRun p s x count counts = .next (s.issueTrap 8 cause ea) := by
  rw [clearRun, issue_runs rfl hp, h]
  rfl
theorem execLdtry_traps {z : Sz} {d a : G} {disp : BitVec 32}
    (h : (s.issued 8).checkEa (s.me.eaI a disp) z.bytes = some (cause, ea)) :
    execLdtry p n z d a disp s = .next (s.issueTrap 8 cause ea) := by
  rw [execLdtry, issue_runs rfl hp, h]
  rfl
theorem execLdq_traps {d a : G} {disp : BitVec 32} (h : (s.issued 8).checkEa (s.me.eaI a disp) 1 = some (cause, ea)) :
    execLdq p n d a disp s = .next (s.issueTrap 8 cause ea) := by
  rw [execLdq, issue_runs rfl hp, h]
  rfl
theorem execBwait_traps {d a : G} {disp : BitVec 32} (h : (s.issued 8).checkEa (s.me.eaI a disp) 1 = some (cause, ea)) :
    execBwait p n d a disp s = .next (s.issueTrap 8 cause ea) := by
  rw [execBwait, issue_runs rfl hp, h]
  rfl
theorem aop_traps {f : Nat} {far : Bool} {ty : Ty} {scope : Scope} {order : Order} {d a b : G}
    (h : (s.issued 8).checkEa (s.me.getG a) ty.bytes = some (cause, ea)) :
    aop f p n far ty scope order d a b s = .next (s.issueTrap 8 cause ea) := by
  rw [aop, issue_runs rfl hp]
  dsimp only
  rw [State.checkAtomic_of_checkEa h]
  rfl
theorem posted_traps {scope : Scope} {order : Order} {a : G} {op : Ctx → Word → HomeOp}
    (h : (s.issued 8).checkEa (s.me.getG a) w = some (cause, ea)) :
    posted p n w scope order a s op = .next (s.issueTrap 8 cause ea) := by
  rw [posted, issue_runs rfl hp]
  dsimp only
  rw [State.checkAtomic_of_checkEa h]
  rfl
theorem red_traps {f : Nat} {ty : Ty} {scope : Scope} {order : Order} {a b : G}
    (h : (s.issued 8).checkEa (s.me.getG a) ty.bytes = some (cause, ea)) :
    red f p n ty scope order a b s = .next (s.issueTrap 8 cause ea) := posted_traps hp h
end

/-- Settles O10: the issuer's check comes first, and each memory form checks its address before it opens its
operation. -/
theorem issueTraps : Obligations.IssueTraps := by
  refine ⟨fun s p d a b e sr => ⟨fun hcx => ?_, fun hpriv => ?_, fun hcx hpriv => ?_⟩,
    fun p n z y far ty scope order d a b disp cause => ?_⟩
  · refine exec_denied_of_mem (who := .c0) ?_ (by decide) (by simpa [Issuer.admits] using hcx)
    repeat refine List.forall_mem_cons.mpr ⟨⟨rfl, rfl, rfl, rfl⟩, ?_⟩
    exact List.forall_mem_nil _
  · refine exec_denied_of_mem (who := .sOnly) ?_ (by decide) (by simpa [Issuer.admits] using hpriv)
    repeat refine List.forall_mem_cons.mpr ⟨⟨rfl, rfl, rfl, rfl⟩, ?_⟩
    exact List.forall_mem_nil _
  · refine exec_denied_of_mem (who := .c0s) ?_ (by decide) (by simpa [Issuer.admits] using ⟨hcx, hpriv⟩)
    repeat refine List.forall_mem_cons.mpr ⟨⟨rfl, rfl, rfl, rfl⟩, ?_⟩
    exact List.forall_mem_nil _
  · refine ⟨addressTraps ?_ cause, addressTraps ?_ cause, addressTraps ?_ cause, addressTraps ?_ cause,
      addressTraps ?_ cause, addressTraps ?_ cause, addressTraps ?_ cause, addressTraps ?_ cause⟩
    all_goals intro s hp _ _ h
    · rw [exec_ld, execLd]; exact scalarLoad_traps hp h
    · rw [exec_st, execSt]; exact scalarStore_traps hp h
    · rw [exec_ldtry]; exact execLdtry_traps hp h
    · rw [exec_ldq]; exact execLdq_traps hp h
    · rw [exec_bwait]; exact execBwait_traps hp h
    · rw [exec_clr, execClr]; exact clearRun_traps hp h
    · rw [exec_aopAdd, execAopAdd]; exact aop_traps hp h
    · rw [exec_redAdd, execRedAdd]; exact red_traps hp h

end Machine
end Sys2Proof
end

section
/-! SUPPORT. O35: the special registers, their access by level, their words' fields and their writes (07 Table 7-10). -/
namespace Sys2Proof.Machine

/-! ## Fields of a word -/

theorem extract_toNat (x : Word) (lo n : Nat) : (x.extractLsb' lo n).toNat = x.toNat / 2 ^ lo % 2 ^ n := by
  rw [BitVec.extractLsb'_toNat, Nat.shiftRight_eq_div_pow]

/-- A field above and a field below it. -/
theorem toNat_or_above {x y : Word} {n : Nat} (hx : x.toNat % 2 ^ n = 0) (hy : y.toNat < 2 ^ n) :
    (x ||| y).toNat = x.toNat + y.toNat := by
  obtain ⟨k, hk⟩ := Nat.dvd_of_mod_eq_zero hx
  rw [BitVec.toNat_or, hk, Nat.two_pow_add_eq_or_of_lt hy]

theorem ctxWord_toNat (x : CtxId) (k : Priv) : (ctxWord x k).toNat = 16 * k.code.toNat + x.toNat := by
  have hk := k.code.isLt
  have hx := x.isLt
  have hhigh : (k.code.setWidth 64 <<< 4 : Word).toNat = 16 * k.code.toNat := by
    simp [BitVec.toNat_shiftLeft, Nat.shiftLeft_eq]; omega
  have hlow : (x.setWidth 64 : Word).toNat = x.toNat := by simp; omega
  rw [ctxWord, toNat_or_above (n := 4) (by omega) (by omega), hhigh, hlow]
theorem coreY_lt (c : CoreId) : coreY c < 256 := by unfold coreY; omega
theorem coreX_lt (c : CoreId) : coreX c < 256 := by unfold coreX; omega
theorem dieOf_toNat (c : CoreId) : (dieOf c).toNat = 2 * (coreY c / 64) + coreX c / 128 := by
  have := coreY_lt c
  have := coreX_lt c
  rw [dieOf, BitVec.toNat_ofNat, Nat.mod_eq_of_lt (by omega)]
theorem quadOf_toNat (c : CoreId) : (quadOf c).toNat = coreY c / 64 := by
  have := coreY_lt c
  rw [quadOf, BitVec.toNat_ofNat, Nat.mod_eq_of_lt (by omega)]
theorem coreWord_toNat (c : CoreId) :
    (coreWord c).toNat = 2 ^ 19 * (coreY c / 64) + 2 ^ 16 * (2 * (coreY c / 64) + coreX c / 128) + c.toNat := by
  have := coreY_lt c
  have := coreX_lt c
  have hc := c.isLt
  have hlow : (c.setWidth 64 : Word).toNat = c.toNat := by simp; omega
  have hhigh : (BitVec.ofNat 64 ((quadOf c).toNat * 2 ^ 19 + (dieOf c).toNat * 2 ^ 16)).toNat =
      2 ^ 19 * (coreY c / 64) + 2 ^ 16 * (2 * (coreY c / 64) + coreX c / 128) := by
    rw [BitVec.toNat_ofNat, quadOf_toNat, dieOf_toNat]; omega
  rw [coreWord, toNat_or_above (n := 16) (by omega) (by omega), hhigh, hlow]
theorem and_pkgMask (x : Word) :
    x &&& 0x1F1F#64 = ((x.extractLsb' 8 5).setWidth 64 <<< 8) ||| (x.extractLsb' 0 5).setWidth 64 := by
  ext i hi
  interval_cases i <;> simp
theorem State.pkgWord_toNat (t : State) (c : CoreId) : (t.pkgWord c).toNat =
    2 ^ 16 * (t.partOf c).toNat + 2 ^ 8 * (t.pkg.toNat / 256 % 32) + t.pkg.toNat % 32 := by
  have hp := (t.partOf c).isLt
  have hmask : (t.pkg &&& 0x1F1F#64).toNat = 2 ^ 8 * (t.pkg.toNat / 256 % 32) + t.pkg.toNat % 32 := by
    rw [and_pkgMask, toNat_or_above (n := 8)]
    · simp [BitVec.toNat_shiftLeft, Nat.shiftLeft_eq, Nat.shiftRight_eq_div_pow]; omega
    · simp [BitVec.toNat_shiftLeft, Nat.shiftLeft_eq]
    · simp; omega
  have hhigh : ((t.partOf c).setWidth 64 <<< 16 : Word).toNat = 2 ^ 16 * (t.partOf c).toNat := by
    simp [BitVec.toNat_shiftLeft, Nat.shiftLeft_eq]; omega
  have hword : t.pkgWord c = ((t.partOf c).setWidth 64 <<< 16 : Word) ||| (t.pkg &&& 0x1F1F#64) := BitVec.or_comm ..
  rw [hword, toNat_or_above (n := 16) (by omega) (by omega), hhigh, hmask]
  omega
theorem gangWord_toNat (m : BitVec 16) (g : BitVec 32) :
    ((m.setWidth 64 <<< 32) ||| g.setWidth 64 : Word).toNat = 2 ^ 32 * m.toNat + g.toNat := by
  have hm := m.isLt
  have hg := g.isLt
  have hlow : (g.setWidth 64 : Word).toNat = g.toNat := by simp; omega
  have hhigh : (m.setWidth 64 <<< 32 : Word).toNat = 2 ^ 32 * m.toNat := by
    simp [BitVec.toNat_shiftLeft, Nat.shiftLeft_eq]; omega
  rw [toNat_or_above (n := 32) (by omega) (by omega), hhigh, hlow]

theorem Core.mboxWord_toNat (k : Core) (h : k.mboxCount ≤ 32) : k.mboxWord.toNat =
    k.mboxCount + (if k.bound.isSome then 1 else 0) * 2 ^ 8 + ((k.bound.map BitVec.toNat).getD 0) * 2 ^ 12 +
      (if k.mbox.any MboxEnt.timer then 1 else 0) * 2 ^ 16 := by
  have htimer : (if k.mbox.any MboxEnt.timer then 65536 else 0) =
      (if k.mbox.any MboxEnt.timer then 1 else 0) * 2 ^ 16 := by split <;> rfl
  have hle : (if k.mbox.any MboxEnt.timer then 1 else 0) ≤ 1 := by split <;> decide
  rw [Core.mboxWord, htimer, BitVec.toNat_ofNat]
  generalize (if k.mbox.any MboxEnt.timer then 1 else 0) = timer at hle ⊢
  cases k.bound with
  | none =>
    simp only [Option.isSome_none, Option.map_none, Option.getD_none, Bool.false_eq_true, if_false]
    omega
  | some b =>
    have := b.isLt
    simp only [Option.isSome_some, Option.map_some, Option.getD_some, if_true]
    omega

/-! ## Reads (07 Table 7-10) -/

section
variable (t : State) (c : CoreId) (x : CtxId) (pc : Word)
theorem State.readSr_pc : t.readSr c x pc 0x00 = pc := rfl
theorem State.readSr_ctx : t.readSr c x pc 0x01 = ctxWord x (t.ctx c x).priv := rfl
theorem State.readSr_core : t.readSr c x pc 0x02 = coreWord c := rfl
theorem State.readSr_pkg : t.readSr c x pc 0x03 = t.pkgWord c := rfl
theorem State.readSr_asid : t.readSr c x pc 0x04 = (t.ctx c x).asid.setWidth 64 := rfl
theorem State.readSr_lvl : t.readSr c x pc 0x05 = (t.ctx c x).lvl.setWidth 64 := rfl
theorem State.readSr_gang :
    t.readSr c x pc 0x06 = ((t.ctx c x).member.setWidth 64 <<< 32) ||| (t.ctx c x).gang.setWidth 64 := rfl
theorem State.readSr_launch : t.readSr c x pc 0x07 = (t.ctx c x).launch.setWidth 64 := rfl
theorem State.readSr_fmt : t.readSr c x pc 0x08 = (t.ctx c x).fmt := rfl
theorem State.readSr_scl : t.readSr c x pc 0x09 = (t.ctx c x).scl := rfl
theorem State.readSr_rnd : t.readSr c x pc 0x0A = (t.ctx c x).rnd := rfl
theorem State.readSr_cyc : t.readSr c x pc 0x0B = t.cycW := rfl
theorem State.readSr_tvec : t.readSr c x pc 0x0C = (t.core c).tvec := rfl
theorem State.readSr_savebase : t.readSr c x pc 0x10 = (t.core c).savebase := rfl
theorem State.readSr_rqspill : t.readSr c x pc 0x11 = (t.core c).rqspill := rfl
theorem State.readSr_age : t.readSr c x pc 0x12 = (t.core c).age := rfl
theorem State.readSr_rqhi : t.readSr c x pc 0x13 = (t.core c).rqhi := rfl
theorem State.readSr_timer : t.readSr c x pc 0x14 = (t.core c).timer := rfl
theorem State.readSr_mbox : t.readSr c x pc 0x15 = (t.core c).mboxWord := rfl
theorem State.readSr_heatk : t.readSr c x pc 0x18 = t.heatk := rfl
theorem State.readSr_heatd : t.readSr c x pc 0x19 = t.heatd := rfl
theorem State.readSr_fltsvc : t.readSr c x pc 0x1A = t.fltsvc[(dieOf c).toNat] := rfl
theorem State.readSr_supv : t.readSr c x pc 0x1B = t.supv[(dieOf c).toNat] := rfl
theorem State.readSr_evc (i : Fin 8) : t.readSr c x pc (0x20 + i.val) = ((t.core c).evc[i]).setWidth 64 := by
  have h : 0x20 + i.val < 0x28 ∧ 0x20 ≤ 0x20 + i.val := by omega
  rw [State.readSr, dif_pos h]
  simp
end

/-! ## The words' fields (01 Tables 1-3 to 1-5; 03 Table 3-9) -/

theorem Priv.code_toNat (p : Priv) : p.code.toNat = (match p with | .u => 0 | .s => 1 | .m => 2) := by cases p <;> rfl
theorem ctxWord_fields (x : CtxId) (p : Priv) :
    ((ctxWord x p).extractLsb' 0 4).toNat = x.toNat ∧
    ((ctxWord x p).extractLsb' 4 2).toNat = (match p with | .u => 0 | .s => 1 | .m => 2) ∧
    ((ctxWord x p).extractLsb' 6 58).toNat = 0 := by
  have hx := x.isLt
  have hp := p.code.isLt
  simp only [extract_toNat, ctxWord_toNat, ← Priv.code_toNat]
  exact ⟨by omega, by omega, by omega⟩
theorem coreWord_fields (c : CoreId) :
    ((coreWord c).extractLsb' 0 8).toNat = coreX c ∧ ((coreWord c).extractLsb' 8 8).toNat = coreY c ∧
    ((coreWord c).extractLsb' 16 3).toNat = 2 * (coreY c / 64) + coreX c / 128 ∧
    ((coreWord c).extractLsb' 19 2).toNat = coreY c / 64 ∧ ((coreWord c).extractLsb' 21 43).toNat = 0 := by
  have hX := coreX_lt c
  have hY := coreY_lt c
  have hc : c.toNat = coreX c + 256 * coreY c := (Nat.mod_add_div c.toNat 256).symm
  have hquad : coreY c / 64 < 4 := by omega
  have hdie : 2 * (coreY c / 64) + coreX c / 128 < 8 := by omega
  simp only [extract_toNat, coreWord_toNat]
  generalize 2 * (coreY c / 64) + coreX c / 128 = die at hdie ⊢
  generalize coreY c / 64 = quad at hquad ⊢
  refine ⟨?_, ?_, ?_, ?_, ?_⟩ <;> omega
theorem State.pkgWord_fields (t : State) (c : CoreId) :
    ((t.pkgWord c).extractLsb' 0 5).toNat = t.pkg.toNat % 32 ∧ ((t.pkgWord c).extractLsb' 5 3).toNat = 0 ∧
    ((t.pkgWord c).extractLsb' 8 5).toNat = t.pkg.toNat / 256 % 32 ∧ ((t.pkgWord c).extractLsb' 13 3).toNat = 0 ∧
    ((t.pkgWord c).extractLsb' 16 2).toNat = (t.partOf c).toNat ∧ ((t.pkgWord c).extractLsb' 18 46).toNat = 0 := by
  have hp := (t.partOf c).isLt
  have hlow : t.pkg.toNat % 32 < 32 := Nat.mod_lt _ (by decide)
  have hhigh : t.pkg.toNat / 256 % 32 < 32 := Nat.mod_lt _ (by decide)
  simp only [extract_toNat, State.pkgWord_toNat]
  generalize t.pkg.toNat % 32 = low at hlow ⊢
  generalize t.pkg.toNat / 256 % 32 = high at hhigh ⊢
  refine ⟨?_, ?_, ?_, ?_, ?_, ?_⟩ <;> omega
theorem gangWord_fields (m : BitVec 16) (g : BitVec 32) :
    (((m.setWidth 64 <<< 32) ||| g.setWidth 64 : Word).extractLsb' 0 32).toNat = g.toNat ∧
    (((m.setWidth 64 <<< 32) ||| g.setWidth 64 : Word).extractLsb' 32 32).toNat = m.toNat := by
  have hm := m.isLt
  have hg := g.isLt
  simp only [extract_toNat, gangWord_toNat]
  exact ⟨by omega, by omega⟩
theorem Core.mboxWord_fields (k : Core) (h : k.mboxCount ≤ 32) :
    (k.mboxWord.extractLsb' 0 6).toNat = k.mboxCount ∧ (k.mboxWord.extractLsb' 6 2).toNat = 0 ∧
    (k.mboxWord.extractLsb' 8 1).toNat = (if k.bound.isSome then 1 else 0) ∧ (k.mboxWord.extractLsb' 9 3).toNat = 0 ∧
    (k.mboxWord.extractLsb' 12 4).toNat = (k.bound.map BitVec.toNat).getD 0 ∧
    (k.mboxWord.extractLsb' 16 1).toNat = (if k.mbox.any MboxEnt.timer then 1 else 0) ∧
    (k.mboxWord.extractLsb' 17 47).toNat = 0 := by
  have hbound : (k.bound.map BitVec.toNat).getD 0 < 16 := by
    cases k.bound with
    | none => decide
    | some b => exact b.isLt
  have hflag (b : Bool) : (if b = true then 1 else 0) ≤ 1 := by cases b <;> decide
  have hisSome := hflag k.bound.isSome
  have htimer := hflag (k.mbox.any MboxEnt.timer)
  simp only [extract_toNat, Core.mboxWord_toNat k h]
  generalize (k.bound.map BitVec.toNat).getD 0 = b at hbound ⊢
  generalize (if k.bound.isSome = true then 1 else 0) = f at hisSome ⊢
  generalize (if k.mbox.any MboxEnt.timer = true then 1 else 0) = g at htimer ⊢
  refine ⟨?_, ?_, ?_, ?_, ?_, ?_, ?_⟩ <;> omega

theorem extract_setWidth_toNat {n : Nat} (v : BitVec n) (h : n ≤ 64) :
    ((v.setWidth 64 : Word).extractLsb' 0 64).toNat = v.toNat := by
  rw [BitVec.extractLsb'_eq_self, BitVec.toNat_setWidth_of_le h]
theorem State.cycW_toNat (t : State) : (t.cycW.extractLsb' 0 64).toNat = t.cyc % 2 ^ 64 := by
  rw [BitVec.extractLsb'_eq_self, State.cycW, BitVec.toNat_ofNat]

theorem readSr_fields (t : State) (c : CoreId) (x : CtxId) (pc : Word) :
     let r := t.readSr c x pc
     let f := fun (sr lo n : Nat) => ((r sr).extractLsb' lo n).toNat
     let k := t.core c
     let m := t.ctx c x
     r 0x00 = pc ∧
     (f 1 0 4 = x.toNat ∧ f 1 4 2 = (match m.priv with | .u => 0 | .s => 1 | .m => 2) ∧ f 1 6 58 = 0) ∧
     (f 2 0 8 = coreX c ∧ f 2 8 8 = coreY c ∧ f 2 16 3 = 2 * (coreY c / 64) + coreX c / 128 ∧ f 2 19 2 = coreY c / 64 ∧
       f 2 21 43 = 0) ∧
     (f 3 0 5 = t.pkg.toNat % 32 ∧ f 3 5 3 = 0 ∧ f 3 8 5 = t.pkg.toNat / 256 % 32 ∧ f 3 13 3 = 0 ∧
       f 3 16 2 = (t.partOf c).toNat ∧ f 3 18 46 = 0) ∧
     f 4 0 64 = m.asid.toNat ∧ f 5 0 64 = m.lvl.toNat ∧ (f 6 0 32 = m.gang.toNat ∧ f 6 32 32 = m.member.toNat) ∧
     f 7 0 64 = m.launch.toNat ∧ r 8 = m.fmt ∧ r 9 = m.scl ∧ r 0x0A = m.rnd ∧ f 0x0B 0 64 = t.cyc % 2 ^ 64 ∧ r 0x0C = k.tvec ∧
     r 0x10 = k.savebase ∧ r 0x11 = k.rqspill ∧ r 0x12 = k.age ∧ r 0x13 = k.rqhi ∧ r 0x14 = k.timer ∧
     (k.mboxCount ≤ 32 → f 0x15 0 6 = k.mboxCount ∧ f 0x15 6 2 = 0 ∧ f 0x15 8 1 = (if k.bound.isSome then 1 else 0) ∧
       f 0x15 9 3 = 0 ∧ f 0x15 12 4 = ((k.bound.map BitVec.toNat).getD 0) ∧
       f 0x15 16 1 = (if k.mbox.any MboxEnt.timer then 1 else 0) ∧ f 0x15 17 47 = 0) ∧
     r 0x18 = t.heatk ∧ r 0x19 = t.heatd ∧ r 0x1A = t.fltsvc[(dieOf c).toNat] ∧ r 0x1B = t.supv[(dieOf c).toNat] ∧
     (∀ i : Fin 8, f (0x20 + i.val) 0 64 = (k.evc[i]).toNat) := by
  simp only [State.readSr_pc, State.readSr_ctx, State.readSr_core, State.readSr_pkg, State.readSr_asid, State.readSr_lvl,
    State.readSr_gang, State.readSr_launch, State.readSr_fmt, State.readSr_scl, State.readSr_rnd, State.readSr_cyc,
    State.readSr_tvec, State.readSr_savebase, State.readSr_rqspill, State.readSr_age, State.readSr_rqhi,
    State.readSr_timer, State.readSr_mbox, State.readSr_heatk, State.readSr_heatd, State.readSr_fltsvc,
    State.readSr_supv, State.readSr_evc, true_and]
  exact ⟨ctxWord_fields x (t.ctx c x).priv, coreWord_fields c, t.pkgWord_fields c,
    extract_setWidth_toNat (t.ctx c x).asid (by decide), extract_setWidth_toNat (t.ctx c x).lvl (by decide),
    gangWord_fields (t.ctx c x).member (t.ctx c x).gang, extract_setWidth_toNat (t.ctx c x).launch (by decide),
    t.cycW_toNat, (t.core c).mboxWord_fields, fun i => extract_setWidth_toNat (t.core c).evc[i] (by decide)⟩

/-! ## Writes (07 Table 7-10) -/

theorem rndWrite_eq (w : Word) :
    rndWrite w = if 6 ≤ w.toNat % 8 then w &&& 0xFF38 else w &&& 0xFF3F := rfl

/-- Table 15-6: Armed and the deadline are the written word's, and Fired is cleared by a one. -/
theorem timerWrite_fields (old w : Word) :
    (timerWrite old w).getLsbD 63 = w.getLsbD 63 ∧
    (timerWrite old w).getLsbD 62 = (old.getLsbD 62 && !w.getLsbD 62) ∧
    (timerWrite old w).extractLsb' 0 62 = w.extractLsb' 0 62 := by
  refine ⟨by simp [timerWrite], by simp [timerWrite], ?_⟩
  ext i hi
  interval_cases i <;> simp [timerWrite]

section
variable (t : State) (c : CoreId) (x : CtxId) (w : Word)
theorem State.writeSr_asid : t.writeSr c x 0x04 w = t.modCtx c x (fun m => { m with asid := w.setWidth 16 }) := rfl
theorem State.writeSr_rnd : t.writeSr c x 0x0A w = t.modCtx c x (fun m => { m with rnd := rndWrite w }) := rfl
theorem State.writeSr_tvec :
    t.writeSr c x 0x0C w = t.modCore c (fun k => { k with tvec := w &&& 0xFFFFFFFFFFFCFC01 }) := rfl
theorem State.writeSr_savebase :
    t.writeSr c x 0x10 w = t.modCore c (fun k => { k with savebase := w &&& 0x1FFE00 }) := rfl
theorem State.writeSr_rqspill : t.writeSr c x 0x11 w =
    (t.modCore c fun k => { k with rqspill := w &&& 0xFFFFFFFFFFFFF00F }).after 1 (.ringRefill c) := rfl
theorem State.writeSr_age : t.writeSr c x 0x12 w = t.modCore c (fun k => { k with age := w &&& 0xFFFFFF }) := rfl
theorem State.writeSr_rqhi : t.writeSr c x 0x13 w = t.modCore c (fun k => { k with rqhi := w &&& 0xFF }) := rfl
theorem State.writeSr_timer : t.writeSr c x 0x14 w =
    (t.modCore c fun k => { k with timer := timerWrite (t.core c).timer w }).armTimer c := rfl
theorem State.writeSr_heatk : t.writeSr c x 0x18 w = { t with heatk := w &&& 0xF } := rfl
theorem State.writeSr_heatd : t.writeSr c x 0x19 w = { t with heatd := w &&& 0x3F } := rfl
theorem State.writeSr_fltsvc : t.writeSr c x 0x1A w =
    { t with fltsvc := t.fltsvc.set (dieOf c).toNat (w &&& 0x800000000000FFFF) } := rfl
theorem State.writeSr_supv : t.writeSr c x 0x1B w =
    { t with supv := t.supv.set (dieOf c).toNat (w &&& 0x800000000000FFFF) } := rfl
theorem State.writeSr_evc (i : Fin 8) : t.writeSr c x (0x20 + i.val) w =
    t.modCore c (fun k => { k with evc := k.evc.set i (w.setWidth 32) }) := by
  have h : 0x20 + i.val < 0x28 ∧ 0x20 ≤ 0x20 + i.val := by omega
  rw [State.writeSr, dif_pos h]
  simp
end

/-! ## What a write does at a level -/

theorem srAccess_user (sr : Nat) (h : sr ≠ 0x0A) : srAccess sr .u = .trap := by
  unfold srAccess
  rw [if_neg h, if_pos rfl]
theorem srAccess_rows :
    (∀ l : Priv, srAccess 0x0A l = .write ∧ srAccess 0x00 l = .trap ∧ srAccess 0x15 l = .trap) ∧
    (∀ sr ∈ [0x10, 0x11, 0x12, 0x13, 0x14], srAccess sr .m = .write ∧ srAccess sr .s = .trap) ∧
    (∀ sr ∈ [0x1A, 0x1B], srAccess sr .s = .write ∧ srAccess sr .m = .trap) ∧
    (∀ sr ∈ [0x01, 0x02, 0x03, 0x05, 0x06, 0x07, 0x08, 0x09, 0x0B], srAccess sr .s = .ignore ∧ srAccess sr .m = .ignore) ∧
    (∀ sr ∈ [0x04, 0x0C, 0x18, 0x19, 0x20, 0x21, 0x22, 0x23, 0x24, 0x25, 0x26, 0x27],
      srAccess sr .s = .write ∧ srAccess sr .m = .write) :=
  ⟨fun l => by cases l <;> decide, by decide, by decide, by decide, by decide⟩

/-! ## MOVS and MOVC -/

theorem movsRead_reads (p : Pred) (d : G) (sr : BitVec 7) :
    Runs .any (.movsRead p d sr) p 8 (fun _ t => sr ≠ 0x0A ∨ t.myCore.flagsOut t.cx = false)
      (fun c t => t.putG d (t.readSr t.slot t.cx c.pc sr.toNat)) := by
  intro s hadm hp hfree
  rw [exec_movsRead, execMovsRead, issue_runs hadm hp]
  dsimp only
  have hrun : ¬ (sr = 0x0A ∧ (s.issued 8).myCore.flagsOut (s.issued 8).cx = true) := fun ⟨hsr, hout⟩ =>
    hfree.elim (· hsr) fun hin => Bool.noConfusion (hin.symm.trans hout)
  rw [if_neg hrun]
  rfl
theorem movsWrite_writes (p : Pred) (sr : BitVec 7) (a : G) :
    Runs .any (.movsWrite p sr a) p 8 (fun c _ => srAccess sr.toNat c.priv = .write)
      (fun c t => t.writeSr t.slot t.cx sr.toNat (c.getG a)) := by
  intro s hadm hp hwrite
  have hnot : ¬ srAccess sr.toNat s.me.priv = .trap := by rw [hwrite]; decide
  rw [exec_movsWrite, execMovsWrite, if_neg hnot, issue_runs hadm hp]
  dsimp only
  rw [if_pos hwrite]
  rfl
theorem movsWrite_ignores (p : Pred) (sr : BitVec 7) (a : G) :
    Runs .any (.movsWrite p sr a) p 8 (fun c _ => srAccess sr.toNat c.priv = .ignore) (fun _ t => t) := by
  intro s hadm hp hignore
  have hnot : ¬ srAccess sr.toNat s.me.priv = .trap := by rw [hignore]; decide
  have hnw : ¬ srAccess sr.toNat s.me.priv = .write := by rw [hignore]; decide
  rw [exec_movsWrite, execMovsWrite, if_neg hnot, issue_runs hadm hp]
  dsimp only
  rw [if_neg hnw]
  rfl
theorem movcRead_reads (p : Pred) (d : G) (sr : BitVec 7) :
    Runs .any (.movcRead p d sr) p 8 (fun _ _ => True) (fun _ t => t.putG d (t.rgn t.slot sr)) := by
  intro s hadm hp _
  rw [exec_movcRead, execMovcRead, issue_runs hadm hp]
  rfl
theorem movcWrite_parks (p : Pred) (sr : BitVec 7) (a : G) :
    Runs .c0 (.movcWrite p sr a) p 8 (fun _ _ => True)
      (fun c t => (t.parkMe c (.movc sr (c.getG a))).afterFree (.storeWipeDone t.slot)) := by
  intro s hadm hp _
  rw [exec_movcWrite, execMovcWrite, issue_runs hadm hp]
  rfl

theorem writeSr_effects (t : State) (c : CoreId) (x : CtxId) (w : Word) :
     let wr := fun (sr : Nat) => t.writeSr c x sr w
     wr 0x04 = t.modCtx c x (fun m => { m with asid := w.setWidth 16 }) ∧
     wr 0x0A = t.modCtx c x (fun m => { m with rnd := if 6 ≤ w.toNat % 8 then w &&& 0xFF38 else w &&& 0xFF3F }) ∧
     wr 0x0C = t.modCore c (fun k => { k with tvec := w &&& 0xFFFFFFFFFFFCFC01 }) ∧
     wr 0x10 = t.modCore c (fun k => { k with savebase := w &&& 0x1FFE00 }) ∧
     wr 0x11 = (t.modCore c fun k => { k with rqspill := w &&& 0xFFFFFFFFFFFFF00F }).after 1 (.ringRefill c) ∧
     wr 0x12 = t.modCore c (fun k => { k with age := w &&& 0xFFFFFF }) ∧
     wr 0x13 = t.modCore c (fun k => { k with rqhi := w &&& 0xFF }) ∧
     (∃ v : Word, wr 0x14 = (t.modCore c fun k => { k with timer := v }).armTimer c ∧ v.getLsbD 63 = w.getLsbD 63 ∧
       v.getLsbD 62 = ((t.core c).timer.getLsbD 62 && !w.getLsbD 62) ∧ v.extractLsb' 0 62 = w.extractLsb' 0 62) ∧
     wr 0x18 = { t with heatk := w &&& 0xF } ∧ wr 0x19 = { t with heatd := w &&& 0x3F } ∧
     wr 0x1A = { t with fltsvc := t.fltsvc.set (dieOf c).toNat (w &&& 0x800000000000FFFF) } ∧
     wr 0x1B = { t with supv := t.supv.set (dieOf c).toNat (w &&& 0x800000000000FFFF) } ∧
     (∀ i : Fin 8, wr (0x20 + i.val) = t.modCore c (fun k => { k with evc := k.evc.set i (w.setWidth 32) })) := by
  obtain ⟨harmed, hfired, hdeadline⟩ := timerWrite_fields (t.core c).timer w
  exact ⟨t.writeSr_asid c x w, t.writeSr_rnd c x w, t.writeSr_tvec c x w, t.writeSr_savebase c x w,
    t.writeSr_rqspill c x w, t.writeSr_age c x w, t.writeSr_rqhi c x w,
    ⟨_, t.writeSr_timer c x w, harmed, hfired, hdeadline⟩, t.writeSr_heatk c x w, t.writeSr_heatd c x w,
    t.writeSr_fltsvc c x w, t.writeSr_supv c x w, t.writeSr_evc c x w⟩

/-- Settles O35: the accesses' table, and each register's word field by field. -/
theorem specialRegisters : Obligations.SpecialRegisters := by
  unfold Obligations.SpecialRegisters
  obtain ⟨hwritten, hcontext0, hsupervisor, hignored, hboth⟩ := srAccess_rows
  exact ⟨fun p d a sr => ⟨movsRead_reads p d sr, movsWrite_writes p sr a, movsWrite_ignores p sr a,
      fun _ htrap => exec_movsWrite_denied htrap, movcRead_reads p d sr, movcWrite_parks p sr a⟩,
    ⟨hwritten, srAccess_user, hcontext0, hsupervisor, hignored, hboth, fun l _ => (hwritten l).2⟩,
    readSr_fields, writeSr_effects⟩

end Sys2Proof.Machine
end

section
/-! SUPPORT. O41: illegal encodings, pending traps, machine checks and notices (07 R112; 21 R328, R330, R341, R388). -/
namespace Sys2Proof

/-- A write at a key below every entry. -/
theorem SMap.set_below {α : Type} [DecidableEq α] (d : α) (m : List (Nat × α)) (k : Nat) (v : α)
    (h : SMap.wfAbove d (k + 1) m = true) : SMap.set d m k v = if v = d then m else (k, v) :: m := by
  cases m with
  | nil => rfl
  | cons e t =>
    simp only [SMap.wfAbove, Bool.and_eq_true, decide_eq_true_eq] at h
    obtain ⟨⟨hlo, _⟩, _⟩ := h
    rw [SMap.set, if_pos (by omega)]
/-- Of two writes at one key the second stays. -/
theorem SMap.set_set_same {α : Type} [DecidableEq α] (d : α) (m : List (Nat × α)) (lo k : Nat) (a b : α)
    (h : SMap.wfAbove d lo m = true) : SMap.set d (SMap.set d m k a) k b = SMap.set d m k b := by
  induction m generalizing lo with
  | nil => by_cases ha : a = d <;> simp [SMap.set, ha]
  | cons e t ih =>
    obtain ⟨k', v'⟩ := e
    simp only [SMap.wfAbove, Bool.and_eq_true, decide_eq_true_eq] at h
    obtain ⟨_, ht⟩ := h
    by_cases hlt : k < k'
    · by_cases ha : a = d <;> simp [SMap.set, hlt, ha]
    · by_cases heq : k = k'
      · subst heq
        by_cases ha : a = d
        · simp [SMap.set, ha, SMap.set_below d t k b ht]
        · simp [SMap.set, ha]
      · simp [SMap.set, hlt, heq, ih _ ht]
end Sys2Proof

namespace Sys2Proof.Machine

/-! ## Two changes of one context -/

theorem State.modCtx_modCtx (s : State) (c : CoreId) (x : CtxId) (f g : Ctx → Ctx)
    (h : SMap.wf Core.reset s.cores = true) : (s.modCtx c x f).modCtx c x g = s.modCtx c x fun k => g (f k) := by
  have hcore : (s.modCtx c x f).core c = (s.core c).setCtx x (f ((s.core c).ctx x)) := by
    rw [State.modCtx, State.core_modCore s c c _ h, if_pos rfl]
  have htwice : ((s.core c).setCtx x (f ((s.core c).ctx x))).setCtx x (g (f ((s.core c).ctx x))) =
      (s.core c).setCtx x (g (f ((s.core c).ctx x))) := by
    simp [Core.setCtx, Vector.set_set]
  have hset := SMap.set_set_same Core.reset s.cores 0 c.toNat ((s.core c).setCtx x (f ((s.core c).ctx x)))
    ((s.core c).setCtx x (g (f ((s.core c).ctx x)))) h
  calc (s.modCtx c x f).modCtx c x g
      = (s.modCtx c x f).setCore c ((s.core c).setCtx x (g (f ((s.core c).ctx x)))) := by
        rw [State.modCtx, State.modCore, hcore, Core.ctx_setCtx, if_pos rfl, htwice]
    _ = s.modCtx c x fun k => g (f k) := by
        simp only [State.modCtx, State.modCore, State.setCore, hset]
/-- Only what the change makes of the context as it stands counts. -/
theorem State.modCtx_congr {s : State} {c : CoreId} {x : CtxId} {f g : Ctx → Ctx}
    (h : f (s.ctx c x) = g (s.ctx c x)) : s.modCtx c x f = s.modCtx c x g := by
  simp only [State.modCtx, State.modCore]
  exact congrArg (fun t => s.setCore c ((s.core c).setCtx x t)) h

/-! ## The request of an illegal encoding -/

section
variable {s : State} {c : CoreId} {x : CtxId} {r len : Nat} {bits : BitVec 128}

theorem State.opsOf_modCtx_st (h : SMap.wf Core.reset s.cores = true) (st : CtxSt) :
    ((s.modCtx c x fun k => { k with st := st }).core c).opsOf x = (s.core c).opsOf x := by
  rw [State.modCtx, State.core_modCore s c c _ h, if_pos rfl, Core.opsOf, Core.ctx_setCtx, if_pos rfl]
  rfl
theorem State.allPerformed_modCtx_st (h : SMap.wf Core.reset s.cores = true) (st : CtxSt) :
    (s.modCtx c x fun k => { k with st := st }).allPerformed c x = s.allPerformed c x := by
  have hclrs : ((s.modCtx c x fun k => { k with st := st }).core c).clrs = (s.core c).clrs := by
    rw [State.modCtx, State.core_modCore s c c _ h, if_pos rfl]
    rfl
  rw [State.allPerformed, State.opsOf_modCtx_st h, hclrs, State.ctx_modCtx s c c x x _ h, if_pos ⟨rfl, rfl⟩]
  rfl
theorem State.allPerformed_iff : s.allPerformed c x = true ↔ (s.core c).opsOf x = [] ∧ (s.ctx c x).posted = 0 ∧
    ∀ q ∈ (s.core c).clrs, q.ctx = x → q.tid ≠ (s.ctx c x).tid := by
  simp [State.allPerformed, and_assoc, imp_iff_not_or]

/-- The halting context waits while an operation is outstanding. -/
theorem State.emulationRequest_waits (hhalt : (s.ctx c x).halt = some (.illegal r len bits))
    (hops : (s.core c).opsOf x ≠ []) :
    s.emulationRequest c x r = s.after 1 (.emulationRequest c x r) := by
  rw [State.emulationRequest, hhalt]
  dsimp only
  rw [if_neg (not_not_intro rfl), if_pos (by simpa using hops)]
/-- With none it halts, and its request leaves once every access has been performed. -/
theorem State.emulationRequest_halts (hwf : SMap.wf Core.reset s.cores = true)
    (hhalt : (s.ctx c x).halt = some (.illegal r len bits)) (hops : (s.core c).opsOf x = []) :
    s.emulationRequest c x r =
      let u := s.modCtx c x fun k => { k with st := .halted }
      if s.allPerformed c x = false then u.after 1 (.emulationRequest c x r)
      else
        match targetOf s.supv[(dieOf c).toNat] with
        | none => u.countLost (dieOf c)
        | some d => u.hwMsg d c x 2
            [((s.ctx c x).asid.setWidth 64 <<< 32) ||| BitVec.ofNat 64 (r % 256 * 2 ^ 24 + len % 16 * 2 ^ 20) |||
                (x.setWidth 64 <<< 16) ||| c.setWidth 64,
              (s.ctx c x).pc, bits.setWidth 64, bits.extractLsb' 64 64] := by
  rw [State.emulationRequest, hhalt]
  dsimp only
  rw [if_neg (not_not_intro rfl), if_neg (by simp [hops]), State.allPerformed_modCtx_st hwf] <;> rfl
end

theorem illegalEncoding_performs (c : CoreId) (x : CtxId) (r len : Nat) (b : BitVec 256) (hr : r < 16) :
    Performs (.illegalEncoding c x (r + 16 * len)) (fun s => s.codeAt c x = some b) fun s =>
      (s.modCtx c x fun k =>
        { k with halt := some (.illegal r len ((b >>> (8 * ((s.ctx c x).pc.toNat % 32))).setWidth 128)), park := none
                 st := if k.st = .parked then .running else k.st }).after 1 (.emulationRequest c x r) := by
  intro s he hcode
  have hreason : (r + 16 * len) % 16 = r := by omega
  have hlen : (r + 16 * len) / 16 = len := by omega
  refine (run_illegalEncoding he).trans ?_
  rw [hreason, hlen, State.illegalEncoding, hcode]
  rfl
theorem emulationRequest_performs (c : CoreId) (x : CtxId) (r len : Nat) (bits : BitVec 128) (d : CoreId) :
    let halting := fun (s : State) => (s.ctx c x).halt = some (.illegal r len bits)
    let halted := fun (s : State) => s.modCtx c x fun k => { k with st := .halted }
    let quiet := fun (s : State) => (s.ctx c x).posted = 0 ∧ ∀ q ∈ (s.core c).clrs, q.ctx = x → q.tid ≠ (s.ctx c x).tid
    Performs (.emulationRequest c x r) (fun s => halting s ∧ (s.core c).opsOf x ≠ [])
      (fun s => s.after 1 (.emulationRequest c x r)) ∧
    Performs (.emulationRequest c x r) (fun s => s.Canonical ∧ halting s ∧ (s.core c).opsOf x = [] ∧ (s.ctx c x).posted ≠ 0)
      (fun s => (halted s).after 1 (.emulationRequest c x r)) ∧
    Performs (.emulationRequest c x r) (fun s => s.Canonical ∧ halting s ∧ (s.core c).opsOf x = [] ∧ quiet s ∧
        targetOf s.supv[(dieOf c).toNat] = some d)
      (fun s => (halted s).hwMsg d c x 2
          [((s.ctx c x).asid.setWidth 64 <<< 32) ||| BitVec.ofNat 64 (r % 256 * 2 ^ 24 + len % 16 * 2 ^ 20) |||
             (x.setWidth 64 <<< 16) ||| c.setWidth 64,
           (s.ctx c x).pc, bits.setWidth 64, bits.extractLsb' 64 64]) ∧
    Performs (.emulationRequest c x r) (fun s => s.Canonical ∧ halting s ∧ (s.core c).opsOf x = [] ∧ quiet s ∧
        targetOf s.supv[(dieOf c).toNat] = none)
      (fun s => (halted s).countLost (dieOf c)) := by
  intro halting halted quiet
  have performed {s : State} (hops : (s.core c).opsOf x = []) (hq : quiet s) : ¬ s.allPerformed c x = false := by
    rw [State.allPerformed_iff.mpr ⟨hops, hq⟩]; decide
  refine ⟨?_, ?_, ?_, ?_⟩
  · rintro s he ⟨hhalt, hops⟩
    rw [Event.row, run_emulationRequest he, State.emulationRequest_waits hhalt hops]
  · rintro s he ⟨hcan, hhalt, hops, hposted⟩
    have hwaits : s.allPerformed c x = false :=
      Bool.eq_false_iff.mpr fun hall => hposted (State.allPerformed_iff.mp hall).2.1
    rw [Event.row, run_emulationRequest he, State.emulationRequest_halts hcan.cores hhalt hops]
    dsimp only
    rw [if_pos hwaits]
  · rintro s he ⟨hcan, hhalt, hops, hq, htarget⟩
    rw [Event.row, run_emulationRequest he, State.emulationRequest_halts hcan.cores hhalt hops]
    dsimp only
    rw [if_neg (performed hops hq), htarget]
  · rintro s he ⟨hcan, hhalt, hops, hq, htarget⟩
    rw [Event.row, run_emulationRequest he, State.emulationRequest_halts hcan.cores hhalt hops]
    dsimp only
    rw [if_neg (performed hops hq), htarget]

/-! ## Reports and their delivery -/

/-- A report's trap becomes pending. -/
def Ctx.pend (t : Trap) (k : Ctx) : Ctx := { k with traps := k.traps ++ [t] }
/-- Outside a handler it is delivered at once, and ends the park that its source ends. -/
def Ctx.report (t : Trap) (k : Ctx) : Ctx :=
  { (if k.park.any fun p => p.endsOn t.source then { k with park := none, st := .running } else k) with
    traps := k.traps ++ [t], delivering := true }

section
variable {s : State} {c : CoreId} {x : CtxId} {t : Trap}

theorem Ctx.report_inHandler (k : Ctx) : (k.report t).inHandler = k.inHandler := by
  unfold Ctx.report; split <;> rfl
theorem Ctx.report_of_none {k : Ctx} (h : k.park = none) :
    k.report t = { k with traps := k.traps ++ [t], delivering := true } := by
  rw [Ctx.report, if_neg (by simp [h])]
theorem Ctx.report_of_texit {k : Ctx} (h : k.park = some .texit) :
    k.report t = { k with park := none, st := .running, traps := k.traps ++ [t], delivering := true } := by
  rw [Ctx.report, if_pos (by simp [h, Park.endsOn])]
theorem State.raiseDeferred_inHandler (h : (s.ctx c x).inHandler = true) :
    s.raiseDeferred c x t = s.modCtx c x (Ctx.pend t) := by
  rw [State.raiseDeferred, if_pos h]
  rfl
theorem State.raiseDeferred_delivers (hwf : SMap.wf Core.reset s.cores = true) (h : (s.ctx c x).inHandler = false) :
    s.raiseDeferred c x t = (s.modCtx c x (Ctx.report t)).after 1 (.trapDelivery c x) := by
  rw [State.raiseDeferred, if_neg (by simp [h]), State.raise, State.modCtx_modCtx s c x _ _ hwf]
  refine congrArg (State.after · 1 (.trapDelivery c x)) (State.modCtx_congr ?_)
  unfold Ctx.report
  split <;> rfl
/-- The step of a report to the thread that stands there: in a handler the trap waits. -/
theorem deferredTrapReport_pends {tid : Nat} (he : s.ev = some (.deferredTrapReport c x tid t))
    (hwf : SMap.wf Core.reset s.cores = true) (htid : (s.ctx c x).tid = tid)
    (hup : (s.ctx c x).st ≠ .empty ∧ (s.ctx c x).st ≠ .reserved) (hin : (s.ctx c x).inHandler = true) :
    exec .deferredTrapReport s = .next ((s.modCtx c x (Ctx.pend t)).wakeCopyPark c x) := by
  have hstays : ((s.modCtx c x (Ctx.pend t)).ctx c x).inHandler = true := by
    rw [State.ctx_modCtx s c c x x _ hwf, if_pos ⟨rfl, rfl⟩]
    exact hin
  rw [run_deferredTrapReport he, if_pos ⟨htid, hup⟩, State.raiseDeferred_inHandler hin]
  dsimp only
  rw [if_pos hstays]
/-- Outside one it is delivered. -/
theorem deferredTrapReport_delivers {tid : Nat} (he : s.ev = some (.deferredTrapReport c x tid t))
    (hwf : SMap.wf Core.reset s.cores = true) (htid : (s.ctx c x).tid = tid)
    (hup : (s.ctx c x).st ≠ .empty ∧ (s.ctx c x).st ≠ .reserved) (hin : (s.ctx c x).inHandler = false) :
    exec .deferredTrapReport s = .next ((s.modCtx c x (Ctx.report t)).after 1 (.trapDelivery c x)) := by
  have hstays : (((s.modCtx c x (Ctx.report t)).after 1 (.trapDelivery c x)).ctx c x).inHandler = false := by
    change ((s.modCtx c x (Ctx.report t)).ctx c x).inHandler = false
    rw [State.ctx_modCtx s c c x x _ hwf, if_pos ⟨rfl, rfl⟩, Ctx.report_inHandler]
    exact hin
  rw [run_deferredTrapReport he, if_pos ⟨htid, hup⟩, State.raiseDeferred_delivers hwf hin]
  dsimp only
  rw [if_neg (by rw [hstays]; decide)]
end

theorem deferredTrapReport_performs (c : CoreId) (x : CtxId) (tid : Nat) (t : Trap) :
    let up := fun (s : State) => (s.ctx c x).st ≠ .empty ∧ (s.ctx c x).st ≠ .reserved
    Performs (.deferredTrapReport c x tid t) (fun s => (s.ctx c x).tid ≠ tid) (fun s => s) ∧
    Performs (.deferredTrapReport c x tid t) (fun s => s.Canonical ∧ (s.ctx c x).tid = tid ∧ up s ∧ (s.ctx c x).inHandler = true)
      (fun s => (s.modCtx c x fun k => { k with traps := k.traps ++ [t] }).wakeCopyPark c x) ∧
    Performs (.deferredTrapReport c x tid t) (fun s => s.Canonical ∧ (s.ctx c x).tid = tid ∧ up s ∧
        (s.ctx c x).inHandler = false ∧ (s.ctx c x).park = none)
      (fun s => (s.modCtx c x fun k => { k with traps := k.traps ++ [t], delivering := true }).after 1 (.trapDelivery c x)) ∧
    Performs (.deferredTrapReport c x tid t) (fun s => s.Canonical ∧ (s.ctx c x).tid = tid ∧ up s ∧
        (s.ctx c x).inHandler = false ∧ (s.ctx c x).park = some .texit)
      (fun s => (s.modCtx c x fun k =>
        { k with park := none, st := .running, traps := k.traps ++ [t], delivering := true }).after 1 (.trapDelivery c x)) := by
  refine ⟨?_, ?_, ?_, ?_⟩
  · intro s he hgone
    rw [Event.row, run_deferredTrapReport he, if_neg fun h => hgone h.1]
  · rintro s he ⟨hcan, htid, hup, hin⟩
    exact deferredTrapReport_pends he hcan.cores htid hup hin
  · rintro s he ⟨hcan, htid, hup, hin, hpark⟩
    refine (deferredTrapReport_delivers he hcan.cores htid hup hin).trans ?_
    exact congrArg (fun u : State => Host.Outcome.next (u.after 1 (.trapDelivery c x)))
      (State.modCtx_congr (Ctx.report_of_none hpark))
  · rintro s he ⟨hcan, htid, hup, hin, hpark⟩
    refine (deferredTrapReport_delivers he hcan.cores htid hup hin).trans ?_
    exact congrArg (fun u : State => Host.Outcome.next (u.after 1 (.trapDelivery c x)))
      (State.modCtx_congr (Ctx.report_of_texit hpark))

/-- Of a running thread with nothing outstanding the earliest trap is delivered. -/
theorem State.trapDelivery_due {s : State} {c : CoreId} {x : CtxId} {t : Trap} (hdel : (s.ctx c x).delivering = true)
    (hst : (s.ctx c x).st = .running) (hpark : (s.ctx c x).park = none) (hops : (s.core c).opsOf x = [])
    (hfirst : firstTrap (s.ctx c x).traps = some t) :
    s.trapDelivery c x = if s.deliverable c x then s.takeTrap c x t else s.undeliverable c x t := by
  rw [State.trapDelivery]
  rw [if_neg (by simp [hdel, hst]), if_neg (by simp [hops, hpark, hst]), hfirst]
theorem State.trapDelivery_waits {s : State} {c : CoreId} {x : CtxId}
    (hup : (s.ctx c x).st ≠ .empty ∧ (s.ctx c x).st ≠ .reserved) (hdel : (s.ctx c x).delivering = true)
    (hops : (s.core c).opsOf x ≠ []) :
    s.trapDelivery c x = s.after 1 (.trapDelivery c x) := by
  rw [State.trapDelivery]
  rw [if_neg (by simp [hdel, hup]), if_pos (.inl (by simpa using hops))]
theorem trapDelivery_performs (c : CoreId) (x : CtxId) (t : Trap) :
    let up := fun (s : State) => (s.ctx c x).st ≠ .empty ∧ (s.ctx c x).st ≠ .reserved
    let due := fun (s : State) => (s.ctx c x).delivering = true ∧ (s.ctx c x).st = .running ∧ (s.ctx c x).park = none ∧
      (s.core c).opsOf x = [] ∧ firstTrap (s.ctx c x).traps = some t
    Performs (.trapDelivery c x) (fun s => due s ∧ s.deliverable c x = true) (fun s => s.takeTrap c x t) ∧
    Performs (.trapDelivery c x) (fun s => due s ∧ s.deliverable c x = false) (fun s =>
      (((s.modCtx c x fun k => { k with traps := k.traps.erase t, delivering := false }).startHalt c x (.trap 15)).after 1
        (.haltTakeEffect c x)).after 0
        (.supervisorNotice (dieOf c) { code := 16, cause := 15, undelivered := t.cause, addr := t.addr
                                       who := (s.modCtx c x fun k => { k with traps := k.traps.erase t, delivering := false }).whoCtx c x
                                       w3 := (s.ctx c x).pc, w4 := trapWord3 t })) ∧
    Performs (.trapDelivery c x) (fun s => up s ∧ (s.ctx c x).delivering = true ∧ (s.core c).opsOf x ≠ [])
      (fun s => s.after 1 (.trapDelivery c x)) := by
  refine ⟨?_, ?_, ?_⟩
  · rintro s he ⟨⟨hdel, hst, hpark, hops, hfirst⟩, htaken⟩
    rw [Event.row, run_trapDelivery he, State.trapDelivery_due hdel hst hpark hops hfirst, if_pos htaken]
  · rintro s he ⟨⟨hdel, hst, hpark, hops, hfirst⟩, hnot⟩
    rw [Event.row, run_trapDelivery he, State.trapDelivery_due hdel hst hpark hops hfirst, if_neg (by simp [hnot])]
    rfl
  · rintro s he ⟨hup, hdel, hops⟩
    rw [Event.row, run_trapDelivery he, State.trapDelivery_waits hup hdel hops]

/-! ## Machine checks and notices -/

theorem machineCheck_unnamed (src key : Nat) : Performs (.machineCheck src key none) (fun _ => src ≠ 4) (fun s =>
    (({ s with fresh := s.fresh + 1 } : State).msix 1).after 0 (.supervisorNotice ((keyDie key).getD s.hubDie)
      { code := src, cause := 12, addr := keyAddr key, w4 := Config.freeWord s.fresh })) := by
  intro s he hsrc
  rw [Event.row, run_machineCheck he, State.machineCheck, if_neg fun h => hsrc h.1]
  rfl
theorem machineCheck_parked (src key : Nat) (c : CoreId) (x : CtxId) :
    Performs (.machineCheck src key (some (.park c x))) (fun _ => src ≠ 4) (fun s =>
      let i := s.agentInfo (.park c x)
      let u := ((({ s with fresh := s.fresh + 1 } : State).msix 1).startHalt c x (.trap 12)).after 1 (.haltTakeEffect c x)
      u.after 0 (.supervisorNotice (dieOf c)
        { code := src, cause := 12, addr := keyAddr key, who := whoWord i.core i.ctx i.priv.code i.pkg i.asid
          w3 := (s.ctx c x).pc, w4 := Config.freeWord s.fresh })) := by
  intro s he hsrc
  rw [Event.row, run_machineCheck he, State.machineCheck, if_neg fun h => hsrc h.1]
  rfl
theorem supervisorNotice_sent (die : BitVec 3) (n : Notice) (d : CoreId) :
    Performs (.supervisorNotice die n) (fun s => targetOf s.supv[die.toNat] = some d) (fun s =>
      s.hwMsg d (n.who.extractLsb' 32 16) (n.who.extractLsb' 48 4) 3
        [BitVec.ofNat 64 (n.undelivered % 256 * 65536 + n.code % 256 * 256 + n.cause % 256), n.addr, n.who, n.w3, n.w4,
         n.w5, n.w6, BitVec.ofNat 64 s.cyc]) := by
  intro s he htarget
  rw [Event.row, run_supervisorNotice he, State.supervisorNotice, State.supvOf, htarget]
  rfl
theorem supervisorNotice_lost (die : BitVec 3) (n : Notice) :
    Performs (.supervisorNotice die n) (fun s => targetOf s.supv[die.toNat] = none) (fun s => s.countLost die) := by
  intro s he htarget
  rw [Event.row, run_supervisorNotice he, State.supervisorNotice, State.supvOf, htarget]

/-- Settles O41: each step's lemmas, put together. -/
theorem trapSteps : Obligations.TrapSteps := by
  unfold Obligations.TrapSteps
  refine ⟨fun c x r len bits b d => ⟨illegalEncoding_performs c x r len b,
    emulationRequest_performs c x r len bits d⟩, ?_⟩
  intro c x tid t die n d src key up due
  obtain ⟨hgone, hpends, hdelivers, htexit⟩ := deferredTrapReport_performs c x tid t
  obtain ⟨htaken, hnot, hwaits⟩ := trapDelivery_performs c x t
  exact ⟨hgone, hpends, hdelivers, htexit, htaken, hnot, hwaits, machineCheck_unnamed src key,
    machineCheck_parked src key c x, supervisorNotice_sent die n d, supervisorNotice_lost die n⟩

end Sys2Proof.Machine
end

section
/-! SUPPORT. O45: fetches, walks, page faults and replays (07 R387; 21 R333–R340). -/
namespace Sys2Proof.Machine

/-! ## Fetches (07 R387) -/

section
variable {s : State} {c : CoreId} {x : CtxId} {k : Nat} {a : Access}

/-- The step of a fetch that waits, by how far its access has come. -/
theorem fetchBlockFill_of_acc (he : s.ev = some (.fetchBlockFill c x k)) (hpark : (s.ctx c x).park = some .fetch)
    (hacc : (s.ctx c x).acc = some a) :
    exec .fetchBlockFill s = .next (match a.st with
      | .fresh => s.go (.fetch c x)
      | .done =>
        let key := match a.map with
          | some m => m.key
          | none => aliasLine (a.va.extractLsb' 52 5) (s.ctx c x).asid (a.va.toNat % 2 ^ 52) * 64
        (({ s with fresh := s.fresh + 1 } : State).modCore c fun q => q.putCode (key + a.va.toNat % 64 / 32 * 32)
          (a.rdata.extractLsb' (8 * (a.va.toNat % 64 / 32 * 32)) 256) (Config.freeChoice s.fresh % 4096)).modCtx c x
            Ctx.endFetch
      | .failed =>
        let t := s.modCtx c x Ctx.endFetch
        if a.cause = 12 then t.checkFail a (.fetch c x)
        else t.raise c x { kind := 0, cause := a.cause, pc := (s.ctx c x).pc, addr := (s.ctx c x).pc
                           order := (t.core c).nextId }
      | _ => s) := by
  rw [run_fetchBlockFill he, State.fetchBlockFill, if_neg (not_not_intro hpark)]
  dsimp only
  rw [hacc] <;> rfl
theorem fetchBlockFill_idle (he : s.ev = some (.fetchBlockFill c x k)) (hpark : (s.ctx c x).park ≠ some .fetch) :
    exec .fetchBlockFill s = .next s := by
  rw [run_fetchBlockFill he, State.fetchBlockFill, if_pos hpark]
end

/-! ## Page faults (21 R333–R336) -/

/-- The entry of a fault's page and kind in its table. -/
def State.sameFault (s : State) (f : FaultInfo) : Option (Nat × FaultEnt) :=
  (s.tableEnts f.table).find? fun e => e.2.info.asid == f.asid && e.2.info.addr.toNat / 4096 == f.addr.toNat / 4096 &&
    e.2.info.access == f.access && e.2.info.kind == f.kind
/-- The entry of its table that a new fault takes. -/
def State.faultSlot (s : State) (f : FaultInfo) : Option Nat :=
  (List.range (min ((s.tableEnts f.table).length + 1) (tableCap f.table))).find? fun i =>
    (s.tableEnts f.table).all fun e => e.1 != i

/-- What becomes of a fault that finds its table full: it is tried again, a request at its home by the package that sent it. -/
def State.faultRetry (s : State) (who : Agent) (f : FaultInfo) : State :=
  match who with
  | .home i =>
    match s.home i with
    | some h =>
      if h.req.id.extractLsb' 35 5 = s.pkgNum then s.after 1024 (.remoteRetry i)
      else { s with homes := s.homes.filter fun k => k.id != i, outbox := s.outbox ++ [.reply h.req.id (.retry 0)] }
    | none => s
  | _ => (if f.agent = 6 then s else s.count f.core 12).after 256 (.faultTableRetry who)
theorem State.faultRetry_copy {s : State} {d : CoreId} {j : Nat} {f : FaultInfo} (hagent : f.agent ≠ 6) :
    s.faultRetry (.copy d j) f = (s.count f.core 12).after 256 (.faultTableRetry (.copy d j)) := by
  dsimp only [State.faultRetry]
  rw [if_neg hagent]
theorem State.faultRetry_serv {s : State} {j : Nat} {f : FaultInfo} (hagent : f.agent = 6) :
    s.faultRetry (.serv j) f = s.after 256 (.faultTableRetry (.serv j)) := by
  dsimp only [State.faultRetry]
  rw [if_pos hagent]
theorem State.faultRetry_home {s : State} {j : Nat} {f : FaultInfo} {h : HomeReq} (hhome : s.home j = some h) :
    s.faultRetry (.home j) f =
      if h.req.id.extractLsb' 35 5 = s.pkgNum then s.after 1024 (.remoteRetry j)
      else { s with homes := s.homes.filter fun k => k.id != j, outbox := s.outbox ++ [.reply h.req.id (.retry 0)] } := by
  dsimp only [State.faultRetry]
  rw [hhome]

section
variable {s : State} {who : Agent} {f : FaultInfo} {a : Access} (hacc : s.acc who = some a) (hst : a.st = .faulted)
include hacc hst

theorem State.faultPost_joins {i : Nat} {e : FaultEnt} (hsame : s.sameFault f = some (i, e)) :
    s.faultPost who f = s.setFault f.table i (some { e with waiters := e.waiters ++ [who] }) := by
  unfold State.sameFault at hsame
  unfold State.faultPost
  rw [hacc]
  dsimp only
  rw [if_neg (not_not_intro hst), hsame]
theorem State.faultPost_untargeted (hsame : s.sameFault f = none) (htarget : s.faultTarget f.table = none) :
    s.faultPost who f = ((if (f.agent ≤ 3 ∨ f.agent = 5) ∧ f.pkg = s.pkgNum then s.count f.core 13 else s).countLost
      (dieOf f.core)).abandon who f 0 true := by
  unfold State.sameFault at hsame
  unfold State.faultPost
  rw [hacc]
  dsimp only
  rw [if_neg (not_not_intro hst), hsame, htarget]
theorem State.faultPost_takes {i : Nat} {d : CoreId} (hsame : s.sameFault f = none)
    (htarget : s.faultTarget f.table = some d) (hslot : s.faultSlot f = some i) :
    s.faultPost who f =
      (({ s with faultSeq := SMap.set 0 s.faultSeq (faultKey f.table i)
                               (SMap.get 0 s.faultSeq (faultKey f.table i) + 1) } : State).setFault f.table i
        (some { info := f, seq := SMap.get 0 s.faultSeq (faultKey f.table i) + 1, cyc := s.cyc, waiters := [who] })).hwMsg
        d f.core f.ctx 1
        (faultWords f (handleOf (SMap.get 0 s.faultSeq (faultKey f.table i) + 1) f.table i) s.cyc) := by
  unfold State.sameFault at hsame
  unfold State.faultSlot at hslot
  unfold State.faultPost
  rw [hacc]
  dsimp only
  rw [if_neg (not_not_intro hst), hsame, htarget]
  dsimp only
  rw [hslot]
theorem State.faultPost_full (hsame : s.sameFault f = none) (htarget : (s.faultTarget f.table).isSome)
    (hslot : s.faultSlot f = none) :
    s.faultPost who f = s.faultRetry who f := by
  unfold State.sameFault at hsame
  unfold State.faultSlot at hslot
  obtain ⟨d, htarget⟩ := Option.isSome_iff_exists.mp htarget
  unfold State.faultPost
  rw [hacc]
  dsimp only
  rw [if_neg (not_not_intro hst), hsame, htarget]
  dsimp only
  rw [hslot]
  rfl
theorem State.replay_faulted :
    s.replay who = (s.modAcc who fun b => { b with st := .fresh, map := none, root := true }).resumeAgent who 1 := by
  rw [State.replay, hacc]
  exact if_pos hst
end

/-! ## Replies (21 R335, 15 R268) -/

section
variable {s : State} {t i : Nat} {e : FaultEnt} (hent : s.faultEnt t i = some e)
include hent

theorem State.faultReplay_waits (hready : s.replyReady e = false) (o : BitVec 2) :
    s.faultReplay t i o = s.after 1 (.faultReplay t i o) := by
  rw [State.faultReplay, hent]
  exact if_pos hready
theorem State.faultReplay_replays (hready : s.replyReady e = true) :
    s.faultReplay t i 0 = e.waiters.foldl (fun s w => s.replay w) (s.setFault t i none) := by
  rw [State.faultReplay, hent]
  dsimp only
  rw [if_neg (by simp [hready]), if_pos rfl]
theorem State.faultReplay_abandons (hready : s.replyReady e = true) :
    s.faultReplay t i 1 = e.waiters.foldl (fun s w =>
      s.abandon w (s.faultInfo w e.info.kind e.info.level e.info.e0 e.info.e1
        (((s.acc w).map Access.va).getD e.info.addr) e.info.access) (handleOf e.seq t i)) (s.setFault t i none) := by
  rw [State.faultReplay, hent]
  dsimp only
  rw [if_neg (by simp [hready]), if_neg (by decide)]
end

/-! ## Walks (21 R337–R340) -/

section
variable {s : State} {g : BitVec 16} {id : Nat} {w : Walk}
  (hwalk : (s.walks.find? fun w => w.id == id && w.grp == g) = some w)
include hwalk

theorem State.walk_leaf {l : TlbEnt} {t2 : Bool} (hres :
    (if w.root then s.walkAll w.asid (w.va.toNat % 2 ^ 52) else s.walkVia g.toNat w.asid (w.va.toNat % 2 ^ 52)) = .leaf l t2) :
    let t : State := { s with walks := s.walks.filter fun v => v.id != id }
    s.walk g id =
      (w.waiters.foldl (fun s who => s.walkResult w (.leaf l t2) who) (t.countWalk w (.leaf l t2))).startWalk g := by
  rw [State.walk, hwalk]
  dsimp only
  rw [hres]
theorem State.walk_busy {k : Nat} (hres :
    (if w.root then s.walkAll w.asid (w.va.toNat % 2 ^ 52) else s.walkVia g.toNat w.asid (w.va.toNat % 2 ^ 52)) = .busy k) :
    s.walk g id = (s.nudge k).after 1 (.walk g id) := by
  rw [State.walk, hwalk]
  dsimp only
  rw [hres]
end

/-- A walk that ends in a leaf is judged for each agent that waits for it. -/
theorem State.walkResult_leaf {s : State} {w : Walk} {l : TlbEnt} {t2 : Bool} {who : Agent} {a : Access}
    (hacc : s.acc who = some a) (hst : a.st = .walking) (hpage : a.va.toNat / 4096 = w.va.toNat / 4096) :
    let t := s.sample (s.agentInfo who).grp (some l.pte)
    s.walkResult w (.leaf l t2) who =
      match leafFault l.e1 (s.agentInfo who).priv (t.accKind who) with
      | some k => t.fail who k (pteSize l.e0 / 4) l.e0 l.e1 a.va
      | none => (((t.keepWalk w l).putL1 who l).translated who l a.va).resumeAgent who 0 := by
  rw [State.walkResult, hacc]
  dsimp only
  rw [if_neg (by simp [hst, hpage])] <;> rfl

/-! ## The obligation -/

theorem fetchBlockFill_performs (c : CoreId) (x : CtxId) (k : Nat) (a : Access) (m : Map) :
     let at_ := fun (s : State) (st : AccSt) =>
       (s.ctx c x).park = some .fetch ∧ (s.ctx c x).acc = some a ∧ a.st = st
     Performs (.fetchBlockFill c x k) (fun s => (s.ctx c x).park ≠ some .fetch) (fun s => s) ∧
     Performs (.fetchBlockFill c x k) (fun s => at_ s .fresh) (fun s => s.go (.fetch c x)) ∧
     Performs (.fetchBlockFill c x k) (fun s => at_ s .done ∧ a.map = some m) (fun s =>
       let o := a.va.toNat % 64 / 32 * 32
       let t : State := { s with fresh := s.fresh + 1 }
       (t.modCore c fun q => q.putCode (m.key + o) (a.rdata.extractLsb' (8 * o) 256)
         (Config.freeChoice s.fresh % 4096)).modCtx c x fun q =>
           { q with acc := none, park := none, st := if q.st = .parked then .running else q.st }) ∧
     Performs (.fetchBlockFill c x k) (fun s => at_ s .failed ∧ a.cause = 12) (fun s =>
       let t := s.modCtx c x fun q =>
         { q with acc := none, park := none, st := if q.st = .parked then .running else q.st }
       t.after 0 (.machineCheck (t.checkOf a).1 (t.checkOf a).2 (some (.fetch c x)))) ∧
     Performs (.fetchBlockFill c x k) (fun s => at_ s .failed ∧ a.cause ≠ 12) (fun s =>
       let t := s.modCtx c x fun q =>
         { q with acc := none, park := none, st := if q.st = .parked then .running else q.st }
       t.raise c x { kind := 0, cause := a.cause, pc := (s.ctx c x).pc, addr := (s.ctx c x).pc, order := (t.core c).nextId }) := by
  refine ⟨fun s he hidle => fetchBlockFill_idle he hidle, ?_, ?_, ?_, ?_⟩
  · rintro s he ⟨hpark, hacc, hst⟩
    rw [Event.row, fetchBlockFill_of_acc he hpark hacc, hst]
  · rintro s he ⟨⟨hpark, hacc, hst⟩, hmap⟩
    rw [Event.row, fetchBlockFill_of_acc he hpark hacc, hst, hmap]
    rfl
  · rintro s he ⟨⟨hpark, hacc, hst⟩, hcause⟩
    rw [Event.row, fetchBlockFill_of_acc he hpark hacc, hst]
    dsimp only
    rw [if_pos hcause]
    rfl
  · rintro s he ⟨⟨hpark, hacc, hst⟩, hcause⟩
    rw [Event.row, fetchBlockFill_of_acc he hpark hacc, hst]
    dsimp only
    rw [if_neg hcause]
    rfl

/-- Settles O45: each step through its lemma, a fault by what its table holds, a walk by where it ends. -/
theorem faultSteps : Obligations.FaultSteps := by
  unfold Obligations.FaultSteps
  refine ⟨fetchBlockFill_performs, ?_⟩
  intro who f a i j e d g id w l t2 k o h wait same slot
  refine ⟨?_, ?_, ?_, ?_, ?_, ?_, ?_, ?_, ?_, ?_, ?_, ?_, ?_, ?_⟩
  · rintro s he ⟨⟨hacc, hst⟩, hsame⟩
    rw [Event.row, run_faultPost he, State.faultPost_joins hacc hst hsame]
  · rintro s he ⟨⟨hacc, hst⟩, hsame, htarget⟩
    rw [Event.row, run_faultPost he, State.faultPost_untargeted hacc hst hsame htarget]
  · rintro s he ⟨⟨hacc, hst⟩, hsame, htarget, hslot⟩
    rw [Event.row, run_faultPost he, State.faultPost_takes hacc hst hsame htarget hslot]
    rfl
  · rintro s he ⟨hacc, hst, hsame, htarget, hslot, hagent⟩
    rw [Event.row, run_faultPost he, State.faultPost_full hacc hst hsame htarget hslot, State.faultRetry_copy hagent]
  · rintro s he ⟨hacc, hst, hsame, htarget, hslot, hagent⟩
    rw [Event.row, run_faultPost he, State.faultPost_full hacc hst hsame htarget hslot, State.faultRetry_serv hagent]
  · rintro s he ⟨hacc, hst, hsame, htarget, hslot, hhome, hown⟩
    rw [Event.row, run_faultPost he, State.faultPost_full hacc hst hsame htarget hslot, State.faultRetry_home hhome,
      if_pos hown]
  · rintro s he ⟨hacc, hst, hsame, htarget, hslot, hhome, hother⟩
    rw [Event.row, run_faultPost he, State.faultPost_full hacc hst hsame htarget hslot, State.faultRetry_home hhome,
      if_neg hother]
  · rintro s he ⟨hacc, hst⟩
    rw [Event.row, run_faultTableRetry he, State.replay_faulted hacc hst]
  · rintro s he ⟨hent, hready⟩
    rw [Event.row, run_faultReplay he, State.faultReplay_waits hent hready]
  · rintro s he ⟨hent, hready, hwaiters, hacc, hst⟩
    rw [Event.row, run_faultReplay he, State.faultReplay_replays hent hready, hwaiters, List.foldl_cons, List.foldl_nil,
      State.replay_faulted hacc hst]
  · rintro s he ⟨hent, hready, hwaiters, hacc⟩
    rw [Event.row, run_faultReplay he, State.faultReplay_abandons hent hready, hwaiters, List.foldl_cons, List.foldl_nil,
      hacc]
    rfl
  · rintro s he ⟨hwalk, hres⟩
    rw [Event.row, run_walk he, State.walk_leaf hwalk hres]
  · rintro s he ⟨hwalk, hres⟩
    rw [Event.row, run_walk he, State.walk_busy hwalk hres]
  · intro s hacc hst hpage
    refine ⟨fun hmay => ?_, fun hmay => ?_⟩
    · rw [State.walkResult_leaf hacc hst hpage, hmay]
    · rw [State.walkResult_leaf hacc hst hpage, hmay]

end Sys2Proof.Machine
end

section
/-! SUPPORT. O11, O12: what the instructions on registers leave unchanged (11 R151–R168, 13 R190–R204). -/
namespace Sys2Proof.Machine

/-! ## Changes of the issuing context and its core alone -/

/-- From `s` to `t` nothing changes but the issuing context, its core's windows and event counters, and the agenda. -/
structure State.SlotLocal (s t : State) : Prop where
  wf : SMap.wf Core.reset t.cores = true
  ctxs : OtherCtxs s.myCore (t.core s.slot) s.cx
  cores : OtherCores s t s.slot
  core : { s.myCore with ctxs := (t.core s.slot).ctxs, ops := (t.core s.slot).ops, evc := (t.core s.slot).evc } =
    t.core s.slot
  rest : { s with cores := t.cores, agenda := t.agenda } = t

section
variable {s t u : State}

theorem State.SlotLocal.slot (h : s.SlotLocal t) : t.slot = s.slot := (congrArg State.slot h.rest).symm
theorem State.SlotLocal.cx (h : s.SlotLocal t) : t.cx = s.cx := State.cx_of_cyc (congrArg State.cyc h.rest).symm
theorem State.SlotLocal.trans (h : s.SlotLocal t) (h' : t.SlotLocal u) : s.SlotLocal u where
  wf := h'.wf
  ctxs y hy := by
    have hu := h'.ctxs y (by rwa [h.cx])
    rw [State.myCore, h.slot] at hu
    exact hu.trans (h.ctxs y hy)
  cores c hc := (h'.cores c (by rwa [h.slot])).trans (h.cores c hc)
  core := by
    have hu := h'.core
    rw [State.myCore, h.slot] at hu
    rw [← hu, ← h.core]
  rest := by rw [← h'.rest, ← h.rest]

/-- A change of the issuing core that keeps its other contexts and its own registers. -/
theorem State.slotLocal_modCore {f : Core → Core} (hwf : SMap.wf Core.reset s.cores = true)
    (hctx : ∀ k y, y ≠ s.cx → (f k).ctx y = k.ctx y)
    (hcore : ∀ k, { k with ctxs := (f k).ctxs, ops := (f k).ops, evc := (f k).evc } = f k) :
    s.SlotLocal (s.modCore s.slot f) := by
  have hmine : (s.modCore s.slot f).core s.slot = f s.myCore := (State.core_modCore s s.slot s.slot f hwf).trans (if_pos rfl)
  refine ⟨State.modCore_wf s _ f hwf, ?_, ?_, ?_, rfl⟩
  · rw [hmine]; exact hctx s.myCore
  · exact fun d hd => (State.core_modCore s s.slot d f hwf).trans (if_neg hd)
  · rw [hmine]; exact hcore s.myCore
theorem State.slotLocal_modMe (f : Ctx → Ctx) (hwf : SMap.wf Core.reset s.cores = true) : s.SlotLocal (s.modMe f) :=
  State.slotLocal_modCore hwf (fun k y hy => (Core.ctx_setCtx k s.cx y _).trans (if_neg hy)) fun _ => rfl
theorem State.slotLocal_count (e : BitVec 8) (hwf : SMap.wf Core.reset s.cores = true) :
    s.SlotLocal (s.count s.slot e) := by
  unfold State.count
  split
  · exact State.slotLocal_modCore hwf (fun _ _ _ => rfl) fun _ => rfl
  · exact ⟨hwf, fun _ _ => rfl, fun _ _ => rfl, rfl, rfl⟩
theorem Core.tick_ctxs (k : Core) (x : CtxId) : (k.tick x).ctxs = k.ctxs := by unfold Core.tick; split <;> rfl
theorem Core.tick_core (k : Core) (x : CtxId) : { k with ops := (k.tick x).ops } = k.tick x := by
  unfold Core.tick
  split <;> rfl
theorem State.slotLocal_skipped (n : Nat) (hwf : SMap.wf Core.reset s.cores = true) : s.SlotLocal (s.skipped n) := by
  refine State.slotLocal_modCore hwf (fun k y hy => ?_) fun k => ?_
  · rw [Core.ctx_setCtx, if_neg hy, Core.ctx, Core.tick_ctxs]; rfl
  · rw [← Core.tick_core k s.cx]; rfl
theorem State.slotLocal_issued (n : Nat) (hwf : SMap.wf Core.reset s.cores = true) : s.SlotLocal (s.issued n) :=
  (State.slotLocal_skipped n hwf).trans (State.slotLocal_count 17 (State.skipped_wf s n hwf))
theorem State.SlotLocal.after (h : s.SlotLocal t) (d : Nat) (e : Event) : s.SlotLocal (t.after d e) :=
  ⟨h.wf, h.ctxs, h.cores, h.core, congrArg (fun u : State => { u with agenda := (t.after d e).agenda }) h.rest⟩

/-! ## The issuing context -/

theorem State.me_modMe (f : Ctx → Ctx) (hwf : SMap.wf Core.reset s.cores = true) : (s.modMe f).me = f s.me := by
  have hctx := State.ctx_modCtx s s.slot s.slot s.cx s.cx f hwf
  rwa [if_pos ⟨rfl, rfl⟩] at hctx
theorem State.me_after (d : Nat) (e : Event) : (s.after d e).me = s.me := rfl
theorem State.me_count (c : CoreId) (e : BitVec 8) (hwf : SMap.wf Core.reset s.cores = true) :
    (s.count c e).me = s.me := by
  unfold State.count
  split
  · have hcore := State.core_modCore s c s.slot (fun k => k.countEv e) hwf
    show ((s.modCore c fun k => k.countEv e).core s.slot).ctx s.cx = (s.core s.slot).ctx s.cx
    rw [hcore]
    split
    next hc => rw [hc]; rfl
    next => rfl
  · rfl
theorem State.me_skipped (n : Nat) (hwf : SMap.wf Core.reset s.cores = true) :
    (s.skipped n).me = { s.me with pc := s.me.pc + BitVec.ofNat 64 n } := by
  have hcore := State.core_modCore s s.slot s.slot (fun k =>
    (k.tick s.cx).setCtx s.cx { k.ctx s.cx with pc := (k.ctx s.cx).pc + BitVec.ofNat 64 n }) hwf
  show ((s.skipped n).core s.slot).ctx s.cx = _
  rw [State.skipped, hcore, if_pos rfl, Core.ctx_setCtx, if_pos rfl]
  rfl
theorem State.me_issued (n : Nat) (hwf : SMap.wf Core.reset s.cores = true) :
    (s.issued n).me = { s.me with pc := s.me.pc + BitVec.ofNat 64 n } :=
  (State.me_count s.slot 17 (State.skipped_wf s n hwf)).trans (State.me_skipped n hwf)
end

/-! ## The frame of an outcome -/

/-- What `Frame` says of a state and the one that follows it. -/
def State.FrameTo (keep : Ctx → Ctx → Prop) (s t : State) : Prop :=
  keep s.me (t.ctx s.slot s.cx) ∧ OtherCtxs s.myCore (t.core s.slot) s.cx ∧ OtherCores s t s.slot ∧
    { s.myCore with ctxs := (t.core s.slot).ctxs, ops := (t.core s.slot).ops, evc := (t.core s.slot).evc } =
      t.core s.slot ∧
    { s with cores := t.cores, agenda := t.agenda } = t ∧ SameMem s t
theorem State.SlotLocal.frameTo {keep : Ctx → Ctx → Prop} {s t : State} (h : s.SlotLocal t) (hkeep : keep s.me t.me) :
    s.FrameTo keep t := by
  have hme : t.me = t.ctx s.slot s.cx := by rw [State.me, h.slot, h.cx]
  have hmem : t.mem = s.mem := (congrArg State.mem h.rest).symm
  refine ⟨hme ▸ hkeep, h.ctxs, h.cores, h.core, h.rest, fun k => ?_⟩
  rw [SameByte, State.byte, State.byte, hmem]

/-- A relation of contexts that an instruction which only moves PC satisfies. -/
def AllowsPc (keep : Ctx → Ctx → Prop) : Prop := ∀ (a : Ctx) (x : Word), keep a { a with pc := x }

section
variable {keep : Ctx → Ctx → Prop} (hpc : AllowsPc keep) {s : State} (hwf : SMap.wf Core.reset s.cores = true)
include hpc hwf

theorem State.frameTo_skipped (n : Nat) : s.FrameTo keep (s.skipped n) :=
  (State.slotLocal_skipped n hwf).frameTo (by rw [State.me_skipped n hwf]; exact hpc _ _)
theorem State.frameTo_issued (n : Nat) : s.FrameTo keep (s.issued n) :=
  (State.slotLocal_issued n hwf).frameTo (by rw [State.me_issued n hwf]; exact hpc _ _)
theorem State.frameTo_lost : s.FrameTo keep s.lost :=
  (State.slotLocal_count 18 hwf).frameTo (by rw [State.me_count _ _ hwf]; exact hpc s.me s.me.pc)
/-- The slot is taken and the context changed by `f`. -/
theorem State.frameTo_issued_modMe (n : Nat) {f : Ctx → Ctx} (hf : ∀ a b, keep a b → keep a (f b)) :
    s.FrameTo keep ((s.issued n).modMe f) := by
  have hissued := State.issued_wf s n hwf
  refine ((State.slotLocal_issued n hwf).trans (State.slotLocal_modMe f hissued)).frameTo ?_
  rw [State.me_modMe f hissued, State.me_issued n hwf]
  exact hf _ _ (hpc _ _)

/-- An instruction of any issuer keeps to its frame when its body does. -/
theorem frameTo_issue {p : Pred} {len : Nat} {body : Ctx → State → Act} {t : State}
    (hbody : ∀ t, (body s.me (s.issued len)).finish s len = .next t → s.FrameTo keep t)
    (hrun : issue .any p len s body = .next t) : s.FrameTo keep t := by
  cases hp : s.me.test p with
  | false =>
    rw [issue_skips rfl hp] at hrun
    exact Host.Outcome.next.inj hrun ▸ State.frameTo_skipped hpc hwf len
  | true =>
    rw [issue_runs rfl hp] at hrun
    exact hbody t hrun
theorem frameTo_issueV {p : Pred} {n len : Nat} {body : Ctx → BitVec 32 → State → Act} {t : State}
    (hbody : ∀ m t, (body s.me m (s.issued len)).finish s len = .next t → s.FrameTo keep t)
    (hrun : issueV p n len s body = .next t) : s.FrameTo keep t := by
  by_cases hm : s.me.mask p &&& BitVec.ofNat 32 (2 ^ n - 1) = 0
  · rw [issueV_skips hm] at hrun
    exact Host.Outcome.next.inj hrun ▸ State.frameTo_skipped hpc hwf len
  · rw [issueV_runs hm] at hrun
    exact hbody _ t hrun
end

/-- An instruction that takes its slot and changes its own context within `keep`. -/
theorem frameTo_issue_modMe {keep : Ctx → Ctx → Prop} {s t : State} {p : Pred} {len : Nat} {f : Ctx → State → Ctx → Ctx}
    (hpc : AllowsPc keep) (hwf : SMap.wf Core.reset s.cores = true) (hf : ∀ c t a b, keep a b → keep a (f c t b))
    (hrun : issue .any p len s (fun c t => .ok (t.modMe (f c t))) = .next t) : s.FrameTo keep t :=
  frameTo_issue hpc hwf (fun _ hu => by cases hu; exact State.frameTo_issued_modMe hpc hwf len (hf _ _)) hrun

/-! ## One general register -/

theorem OnlyG.pc (d : G) : AllowsPc (OnlyG d) := fun _ _ => ⟨rfl, fun _ _ => rfl⟩
theorem OnlyG.setG {d : G} {a b : Ctx} (h : OnlyG d a b) (x : Word) : OnlyG d a (b.setG d x) := by
  obtain ⟨hrest, hregs⟩ := h
  refine ⟨congrArg (fun m : Ctx => m.setG d x) hrest, fun r hr => ?_⟩
  rw [Ctx.getG_setG, if_neg hr, hregs r hr]
/-- The result is that of an instruction that writes one general register in its slot. -/
def PutsG (d : G) (s : State) (r : R) : Prop :=
  ∃ (p : Pred) (len : Nat) (v : Ctx → State → Word), r = issue .any p len s fun c t => .ok (t.putG d (v c t))
theorem putsG_issue {p len d s} {v : Ctx → State → Word} :
    PutsG d s (issue .any p len s fun c t => .ok (t.putG d (v c t))) := ⟨p, len, v, rfl⟩
theorem putsG_scalarG {p len d s f} : PutsG d s (scalarG p len d s f) := putsG_issue
theorem putsG_alu {p w d a b s f} : PutsG d s (alu p w d a b s f) := putsG_scalarG
theorem frame_putsG {i : Instr} {d : G} (h : ∀ s, PutsG d s (exec i s)) : Frame i (OnlyG d) := by
  intro s t hs hrun
  obtain ⟨p, len, v, hexec⟩ := h s
  exact frameTo_issue_modMe (OnlyG.pc d) hs.cores (fun _ _ _ _ h => h.setG _) (hexec ▸ hrun)
/-- A look into the tag table may lose its slot, or halt at an entry that fails its check (13 R234, 05 R88). -/
theorem frame_tagInstr_putG {i : Instr} {p : Pred} {d : G} {on : Ctx → List Nat} {reads : Bool} {v : Ctx → State → Word}
    (hexec : ∀ s, exec i s = tagInstr p s on reads fun c t => t.putG d (v c t)) : Frame i (OnlyG d) := by
  intro s t hs hrun
  rw [hexec, tagInstr] at hrun
  refine frameTo_issue (OnlyG.pc d) hs.cores (fun u hu => ?_) hrun
  split at hu
  · exact Host.Outcome.next.inj hu ▸ State.frameTo_lost (OnlyG.pc d) hs.cores
  · split at hu
    · have hissued := State.issued_wf s 8 hs.cores
      have hlocal := ((State.slotLocal_issued 8 hs.cores).trans
        (State.slotLocal_modMe (fun m => { m with pc := s.me.pc }) hissued)).after 0
      refine Host.Outcome.next.inj hu ▸ (hlocal _).frameTo ?_
      rw [State.me_after, State.me_modMe _ hissued, State.me_issued 8 hs.cores]
      exact OnlyG.pc d _ _
    · exact Host.Outcome.next.inj hu ▸
        State.frameTo_issued_modMe (OnlyG.pc d) hs.cores 8 fun _ _ h => h.setG _

/-- Settles O11: each form writes its register in its slot; the two looks into the tag table may also lose it or halt. -/
theorem generalFrame : Obligations.GeneralFrame := by
  intro p w d a b e imm x k q sh lvl rel sr
  iterate 19 -- the ALU rows
    refine List.forall_mem_cons.mpr ⟨frame_putsG fun s => ?_, ?_⟩
    · dsimp only [exec]
      exact putsG_alu
  iterate 44 -- the other forms whose value the registers alone give
    refine List.forall_mem_cons.mpr ⟨frame_putsG fun s => ?_, ?_⟩
    · dsimp only [exec]
      exact putsG_scalarG
  iterate 5 -- the forms that read the core or the machine
    refine List.forall_mem_cons.mpr ⟨frame_putsG fun s => ?_, ?_⟩
    · dsimp only [exec, execMovcRead, execCntrd, execCstat, execCstatBar, execMtqryQ]
      exact putsG_issue
  exact List.forall_mem_cons.mpr ⟨frame_tagInstr_putG fun _ => exec_tagl .., List.forall_mem_cons.mpr
    ⟨frame_tagInstr_putG fun _ => exec_taglG .., List.forall_mem_nil _⟩⟩

/-! ## One predicate register (11 R163–R165) -/

theorem OnlyP.pc (d : P) : AllowsPc (OnlyP d) := fun _ _ => ⟨rfl, fun _ _ => rfl⟩
theorem OnlyP.setP {d : P} {a b : Ctx} (h : OnlyP d a b) (x : BitVec 32) : OnlyP d a (b.setP d x) := by
  obtain ⟨hrest, hregs⟩ := h
  by_cases hd : d = 0
  · subst hd; exact ⟨hrest, hregs⟩
  · refine ⟨?_, fun r hr => ?_⟩
    · rw [Ctx.setP, if_neg hd]
      exact congrArg (fun m : Ctx => { m with p := b.p.set d.toNat x }) hrest
    · rw [Ctx.getP_setP _ _ _ _ hd, if_neg hr, hregs r hr]
theorem frame_scalarP {i : Instr} {p : Pred} {d : P} {f : State → Ctx → BitVec 32}
    (hexec : ∀ s, exec i s = scalarP p d s (f s)) : Frame i (OnlyP d) := by
  intro s t hs hrun
  exact frameTo_issue_modMe (OnlyP.pc d) hs.cores (fun _ _ _ _ h => h.setP _) (hexec s ▸ hrun)

/-! ## Control transfers (11 R151–R153) -/

theorem OnlyPc.pc (link : Bool) : AllowsPc (OnlyPc link) := fun _ _ => ⟨rfl, fun _ _ => rfl⟩
theorem OnlyPc.go {link : Bool} {a b : Ctx} (h : OnlyPc link a b) (x : Word) : OnlyPc link a { b with pc := x } := by
  obtain ⟨hrest, hregs⟩ := h
  exact ⟨congrArg (fun m : Ctx => { m with pc := x }) hrest, hregs⟩
theorem OnlyPc.setLink {a b : Ctx} (h : OnlyPc true a b) (x : Word) : OnlyPc true a (b.setG 30 x) := by
  obtain ⟨hrest, hregs⟩ := h
  refine ⟨congrArg (fun m : Ctx => m.setG 30 x) hrest, fun r hr => ?_⟩
  rw [Ctx.getG_setG, if_neg (hr rfl), hregs r hr]
theorem State.frameTo_issueTrap {s : State} (link : Bool) (hwf : SMap.wf Core.reset s.cores = true) (len cause : Nat)
    (addr : Word) : s.FrameTo (OnlyPc link) (s.issueTrap len cause addr) := by
  refine ((State.slotLocal_modMe _ hwf).after 1 _).frameTo ?_
  rw [State.me_after, State.me_modMe _ hwf]
  exact ⟨rfl, fun _ _ => rfl⟩
theorem frame_transfer {i : Instr} {p : Pred} {len : Nat} {link : Bool} {target : Ctx → Word} {ret : Ctx → Option Word}
    (hret : ∀ c, link = false → ret c = none)
    (hexec : ∀ s, exec i s = issue .any p len s fun c t => transfer t (target c) (ret c)) : Frame i (OnlyPc link) := by
  intro s t hs hrun
  rw [hexec] at hrun
  refine frameTo_issue (OnlyPc.pc link) hs.cores (fun u hu => ?_) hrun
  unfold transfer at hu
  split at hu
  · cases hu
    exact State.frameTo_issueTrap link hs.cores len _ _
  · cases hu
    refine State.frameTo_issued_modMe (OnlyPc.pc link) hs.cores len fun a b h => OnlyPc.go ?_ _
    cases link with
    | false => rw [hret _ rfl]; exact h
    | true =>
      split
      · exact h.setLink _
      · exact h
theorem frame_call (p : Pred) (off : BitVec 32) : Frame (.call p off) (OnlyPc true) :=
  frame_transfer (link := true) (ret := fun c => some (c.pc + 8)) (fun _ h => Bool.noConfusion h) fun _ => exec_call ..
theorem frame_callr (p : Pred) (a : G) : Frame (.callr p a) (OnlyPc true) :=
  frame_transfer (link := true) (ret := fun c => some (c.pc + 8)) (fun _ h => Bool.noConfusion h) fun _ => exec_callr ..
theorem frame_nop (p : Pred) (imm : BitVec 32) : Frame (.nop p imm) (OnlyPc false) := by
  intro s t hs hrun
  rw [exec_nop, execNop] at hrun
  refine frameTo_issue (OnlyPc.pc false) hs.cores (fun u hu => ?_) hrun
  cases hu
  exact State.frameTo_issued (OnlyPc.pc false) hs.cores 8

/-! ## One vector register and the sticky flags (13 R190–R204) -/

theorem OnlyV.pc (d : V) : AllowsPc (OnlyV d) := fun _ _ => ⟨rfl, fun _ _ => rfl, rfl⟩
theorem OnlyV.setV {d : V} {a b : Ctx} (h : OnlyV d a b) (x : BitVec 256) : OnlyV d a (b.setV d x) := by
  obtain ⟨hrest, hregs, hrnd⟩ := h
  refine ⟨congrArg (fun m : Ctx => m.setV d x) hrest, fun r hr => ?_, hrnd⟩
  rw [Ctx.getV_setV, if_neg hr, hregs r hr]
/-- The sticky flags lie in bits 15:8 of %rnd (09 R125). -/
theorem orFlags_beside (w : Word) (f : FFlags) : (w ||| (f.setWidth 64 <<< 8)) &&& ~~~0xFF00 = w &&& ~~~0xFF00 := by
  ext i hi
  interval_cases i <;> simp
theorem OnlyV.orFlags {d : V} {a b : Ctx} (h : OnlyV d a b) (f : FFlags) : OnlyV d a (b.orFlags f) := by
  obtain ⟨hrest, hregs, hrnd⟩ := h
  exact ⟨congrArg (fun m : Ctx => m.orFlags f) hrest, hregs, (orFlags_beside b.rnd f).trans hrnd⟩
theorem State.frameTo_issued_putV {s : State} (d : V) (hwf : SMap.wf Core.reset s.cores = true) (x : BitVec 256) :
    s.FrameTo (OnlyV d) ((s.issued 8).putV d x) :=
  State.frameTo_issued_modMe (OnlyV.pc d) hwf 8 fun _ _ h => h.setV x
theorem State.frameTo_issued_putV_raiseFlags {s : State} (d : V) (hwf : SMap.wf Core.reset s.cores = true)
    (x : BitVec 256) (f : FFlags) : s.FrameTo (OnlyV d) (((s.issued 8).putV d x).raiseFlags f) := by
  have htwice := State.modCtx_modCtx (s.issued 8) (s.issued 8).slot (s.issued 8).cx (fun m => m.setV d x)
    (fun m => m.orFlags f) (State.issued_wf s 8 hwf)
  have hone : ((s.issued 8).putV d x).raiseFlags f = (s.issued 8).modMe fun m => (m.setV d x).orFlags f := htwice
  rw [hone]
  exact State.frameTo_issued_modMe (OnlyV.pc d) hwf 8 fun _ _ h => (h.setV x).orFlags f

/-- The result is that of a vector instruction that writes active lanes of one register and raises flags. -/
def PutsV (d : V) (s : State) (r : R) : Prop :=
  ∃ (p : Pred) (n w : Nat) (f : Ctx → Nat → Nat × FFlags), r = vecV p n w d s f
theorem putsV_vecV {p n w d s f} : PutsV d s (vecV p n w d s f) := ⟨p, n, w, f, rfl⟩
theorem putsV_vop {p ty d a b s ff fi} : PutsV d s (vop p ty d a b s ff fi) := putsV_vecV
theorem putsV_vfma {np nc p ty d a b c s} : PutsV d s (vfma np nc p ty d a b c s) := putsV_vecV
theorem frame_putsV {i : Instr} {d : V} (h : ∀ s, PutsV d s (exec i s)) : Frame i (OnlyV d) := by
  intro s t hs hrun
  obtain ⟨p, n, w, f, hexec⟩ := h s
  rw [hexec, vecV] at hrun
  refine frameTo_issueV (OnlyV.pc d) hs.cores (fun m u hu => ?_) hrun
  cases hu
  exact State.frameTo_issued_putV_raiseFlags d hs.cores _ _
/-- VINS raises no flag, and writes nothing where its lane is not active (13 R204). -/
theorem frame_vins (p : Pred) (ty : Ty) (d : V) (a : G) (idx : BitVec 5) : Frame (.vins p ty d a idx) (OnlyV d) := by
  intro s t hs hrun
  rw [exec_vins, execVins] at hrun
  refine frameTo_issueV (OnlyV.pc d) hs.cores (fun m u hu => ?_) hrun
  cases hu
  split
  · exact State.frameTo_issued_putV d hs.cores _
  · exact State.frameTo_issued (OnlyV.pc d) hs.cores 8

/-- Settles O12: a write of one predicate, a transfer or its trap, and a write of one vector register with its flags. -/
theorem otherFrames : Obligations.OtherFrames := by
  intro p cc w m q r s g h imm ty d a b e idx
  refine ⟨?_, ?_, ?_, ?_⟩
  · repeat refine List.forall_mem_cons.mpr ⟨frame_scalarP fun s => by dsimp only [exec]; rfl, ?_⟩
    exact List.forall_mem_nil _
  · refine List.forall_mem_cons.mpr ⟨frame_nop p imm, ?_⟩
    repeat refine List.forall_mem_cons.mpr ⟨frame_transfer (fun _ _ => rfl) fun s => by dsimp only [exec]; rfl, ?_⟩
    exact List.forall_mem_nil _
  · exact List.forall_mem_cons.mpr ⟨frame_call p imm, List.forall_mem_cons.mpr
      ⟨frame_callr p g, List.forall_mem_nil _⟩⟩
  · iterate 17 -- VOP
      refine List.forall_mem_cons.mpr ⟨frame_putsV fun s => ?_, ?_⟩
      · dsimp only [exec]
        exact putsV_vop
    iterate 4 -- VFMA
      refine List.forall_mem_cons.mpr ⟨frame_putsV fun s => ?_, ?_⟩
      · dsimp only [exec]
        exact putsV_vfma
    iterate 5 -- VDOT, VSEL, VPERM and VBCAST
      refine List.forall_mem_cons.mpr ⟨frame_putsV fun s => ?_, ?_⟩
      · dsimp only [exec, execVdot, execVsel, execVperm, execVbcast, execVbcastLane]
        exact putsV_vecV
    refine List.forall_mem_cons.mpr ⟨frame_vins p ty d g idx, ?_⟩
    iterate 2 -- VMOV
      refine List.forall_mem_cons.mpr ⟨frame_putsV fun s => ?_, ?_⟩
      · dsimp only [exec]
        exact putsV_vecV
    exact List.forall_mem_nil _

end Sys2Proof.Machine
end

section
/-! SUPPORT. O14, O15, O16, O17, O19: the values that scalar instructions on registers compute (11 R154–R168). -/
namespace Sys2Proof.Machine

/-! ## Forms that write one register -/

section
variable {i : Instr} {p : Pred} {len : Nat}

theorem writesG_scalarG {d : G} {f v : Ctx → Word} (hexec : ∀ s, exec i s = scalarG p len d s f)
    (hval : ∀ c, f c = v c) : WritesG i p len d v := by
  intro s hadm hp _
  rw [hexec, scalarG, issue_runs hadm hp, hval]
  rfl
theorem writesG_alu {w : IntW} {d a b : G} {f g : (n : Nat) → BitVec n → BitVec n → BitVec n}
    (hexec : ∀ s, exec i s = alu p w d a b s f) (hop : ∀ n x y, f n x y = g n x y) :
    WritesG i p 8 d fun c => w.lift g (c.getG a) (c.getG b) := by
  have hfg : f = g := by funext n x y; exact hop n x y
  exact writesG_scalarG hexec fun _ => by rw [hfg]
theorem writesP_scalarP {d : P} {f v : Ctx → BitVec 32} (hexec : ∀ s, exec i s = scalarP p d s f)
    (hval : ∀ c, f c = v c) : WritesP i p d v := by
  intro s hadm hp _
  rw [hexec, scalarP, issue_runs hadm hp, hval]
  rfl
/-- The same for a value that a part of the machine enters which taking the slot leaves as it was. -/
theorem runs_scalarG {d : G} {f : State → Ctx → Word} {v : Ctx → State → Word}
    (hexec : ∀ s, exec i s = scalarG p 8 d s (f s)) (hval : ∀ s c, f s c = v c (s.issued 8)) :
    Runs .any i p 8 (fun _ _ => True) fun c t => t.putG d (v c t) := by
  intro s hadm hp _
  rw [hexec, scalarG, issue_runs hadm hp, hval]
  rfl
end

/-! ## ALU rows and immediates (11 R154, R155, R161) -/

theorem clampU_natCast (n k : Nat) : clampU n (k : Int) = BitVec.ofNat n (min k (2 ^ n - 1)) := by
  have hpow : (1 : Int) ≤ 2 ^ n := one_le_pow₀ (by decide)
  have hmax : max 0 (min (k : Int) ((2 ^ n : Int) - 1)) = ((min k (2 ^ n - 1) : Nat) : Int) := by
    rw [Nat.cast_min, Nat.cast_sub Nat.one_le_two_pow, Nat.cast_pow]
    exact max_eq_right (le_min (Int.natCast_nonneg k) (Int.sub_nonneg_of_le hpow))
  rw [clampU, hmax, BitVec.ofInt_natCast]
theorem clampU_add (n : Nat) (x y : BitVec n) :
    clampU n ((x.toNat : Int) + y.toNat) = BitVec.ofNat n (min (x.toNat + y.toNat) (2 ^ n - 1)) := by
  rw [← Nat.cast_add, clampU_natCast]
theorem clampU_sub (n : Nat) (x y : BitVec n) :
    clampU n ((x.toNat : Int) - y.toNat) = BitVec.ofNat n (x.toNat - y.toNat) := by
  have hx := x.isLt
  rcases Nat.le_total y.toNat x.toNat with hle | hle
  · rw [← Nat.cast_sub hle, clampU_natCast, Nat.min_eq_left (by omega)]
  · have hneg : max 0 (min ((x.toNat : Int) - y.toNat) ((2 ^ n : Int) - 1)) = 0 := by omega
    rw [clampU, hneg, Nat.sub_eq_zero_of_le hle]
    rfl
theorem min_signed {n : Nat} (x y : BitVec n) : (if x.sle y then x else y) = if x.toInt ≤ y.toInt then x else y :=
  if_congr BitVec.sle_iff_toInt_le rfl rfl
theorem max_signed {n : Nat} (x y : BitVec n) : (if x.sle y then y else x) = if x.toInt ≤ y.toInt then y else x :=
  if_congr BitVec.sle_iff_toInt_le rfl rfl
theorem min_unsigned {n : Nat} (x y : BitVec n) : (if x.ule y then x else y) = if x.toNat ≤ y.toNat then x else y :=
  if_congr BitVec.ule_iff_toNat_le rfl rfl
theorem max_unsigned {n : Nat} (x y : BitVec n) : (if x.ule y then y else x) = if x.toNat ≤ y.toNat then y else x :=
  if_congr BitVec.ule_iff_toNat_le rfl rfl
theorem movhi_eq_append (imm : BitVec 32) (x : Word) :
    (imm.setWidth 64 <<< 32) ||| (x.setWidth 32).setWidth 64 = imm ++ x.setWidth 32 := by
  refine BitVec.eq_of_getLsbD_eq fun i hi => ?_
  rw [BitVec.getLsbD_append]
  by_cases h : i < 32
  · simp [h, hi]
  · simp [h, hi]

/-- Settles O14: each row is one function of its operands, extended as X.type asks. -/
theorem aluResults : Obligations.AluResults := by
  refine ⟨fun p w d a b => ?_, fun p w d a imm x => ?_⟩
  · intro R
    have row {i : Instr} {f g : (n : Nat) → BitVec n → BitVec n → BitVec n}
        (hexec : ∀ s, exec i s = alu p w d a b s f) (hop : ∀ n x y, f n x y = g n x y) : R i g := by
      have h := writesG_alu hexec hop
      cases w <;> exact h
    clear_value R
    exact ⟨row (fun _ => exec_aluAdd ..) fun _ _ _ => rfl, row (fun _ => exec_aluSub ..) fun _ _ _ => rfl,
      row (fun _ => exec_aluAnd ..) fun _ _ _ => rfl, row (fun _ => exec_aluOr ..) fun _ _ _ => rfl,
      row (fun _ => exec_aluXor ..) fun _ _ _ => rfl, row (fun _ => exec_aluAndn ..) fun _ _ _ => rfl,
      row (fun _ => exec_aluOrn ..) fun _ _ _ => rfl, row (fun _ => exec_aluXnor ..) fun _ _ _ => rfl,
      row (fun _ => exec_aluMin ..) fun _ => min_signed, row (fun _ => exec_aluMax ..) fun _ => max_signed,
      row (fun _ => exec_aluMinu ..) fun _ => min_unsigned, row (fun _ => exec_aluMaxu ..) fun _ => max_unsigned,
      row (fun _ => exec_aluAdds ..) fun _ _ _ => rfl, row (fun _ => exec_aluSubs ..) fun _ _ _ => rfl,
      row (fun _ => exec_aluAddsu ..) clampU_add, row (fun _ => exec_aluSubsu ..) clampU_sub⟩
  · intro ext
    have row {i : Instr} {f : (n : Nat) → BitVec n → BitVec n → BitVec n} {g : Word → Word}
        (hexec : ∀ s, exec i s = alu p w d a a s f) (hop : ∀ x, w.lift f x x = ext (g x)) :
        WritesG i p 8 d fun c => ext (g (c.getG a)) :=
      writesG_scalarG hexec fun _ => hop _
    exact ⟨row (g := id) (fun _ => exec_aluMov ..) fun x => by cases w <;> rfl,
      row (fun _ => exec_aluNeg ..) fun x => by cases w <;> simp [IntW.lift, ext],
      row (fun _ => exec_aluNot ..) fun x => by cases w <;> simp [IntW.lift, ext],
      writesG_scalarG (fun _ => exec_addi ..) fun _ => rfl, writesG_scalarG (fun _ => exec_andi ..) fun _ => rfl,
      writesG_scalarG (fun _ => exec_ori ..) fun _ => rfl, writesG_scalarG (fun _ => exec_xori ..) fun _ => rfl,
      writesG_scalarG (fun _ => exec_movi ..) fun _ => rfl,
      writesG_scalarG (fun _ => exec_movhi ..) fun c => movhi_eq_append imm (c.getG a),
      writesG_scalarG (fun _ => exec_movw ..) fun _ => rfl⟩

/-! ## Products and divisions (11 R156, R157) -/

theorem mulLo_eq (x y : Word) : x * y = BitVec.ofInt 64 (x.toInt * y.toInt) := by
  rw [← BitVec.toInt_inj, BitVec.toInt_mul, BitVec.toInt_ofInt]
theorem mulHiu_eq (x y : Word) :
    (x.setWidth 128 * y.setWidth 128).extractLsb' 64 64 = BitVec.ofNat 64 (x.toNat * y.toNat / 2 ^ 64) := by
  have hxy : x.toNat * y.toNat < 2 ^ 64 * 2 ^ 64 := Nat.mul_lt_mul'' x.isLt y.isLt
  apply BitVec.eq_of_toNat_eq
  simp [Nat.shiftRight_eq_div_pow]
  omega
theorem divS_eq (n : Nat) (x y : BitVec n) :
    divS n x y = if y = 0 then BitVec.allOnes n else BitVec.ofInt n (x.toInt.tdiv y.toInt) := by
  have hdiv : x.sdiv y = BitVec.ofInt n (x.toInt.tdiv y.toInt) := by
    rw [← BitVec.toInt_inj, BitVec.toInt_sdiv, BitVec.toInt_ofInt]
  rw [divS, hdiv]
theorem divU_eq (n : Nat) (x y : BitVec n) :
    divU n x y = if y = 0 then BitVec.allOnes n else BitVec.ofNat n (x.toNat / y.toNat) := by
  rw [divU, ← BitVec.toNat_udiv, BitVec.ofNat_toNat, BitVec.setWidth_eq]
  rfl
theorem divRem_eq (n : Nat) (x y : BitVec n) :
    divRem n x y = if y = 0 then x else BitVec.ofInt n (x.toInt.tmod y.toInt) := by
  rw [divRem, ← BitVec.toInt_srem, BitVec.ofInt_toInt]
theorem divRemu_eq (n : Nat) (x y : BitVec n) :
    divRemu n x y = if y = 0 then x else BitVec.ofNat n (x.toNat % y.toNat) := by
  rw [divRemu, ← BitVec.toNat_umod, BitVec.ofNat_toNat, BitVec.setWidth_eq]
  rfl
theorem divCycles_eq (w : IntW) : divCycles w = if w = .x64 then 66 else 34 := by cases w <;> rfl
theorem runs_division {i : Instr} {p : Pred} {n : La} {w : IntW} {d a b : G}
    {f g : (n : Nat) → BitVec n → BitVec n → BitVec n} (hexec : ∀ s, exec i s = division p n w d a b s f)
    (hop : ∀ k x y, f k x y = g k x y) :
    Runs .any i p 8 (fun _ _ => True) fun c t =>
      (t.addOp c 8 n (.calcG d (w.lift g (c.getG a) (c.getG b))) (gMask := (1 : BitVec 32) <<< d.toNat)).after
        (if w = .x64 then 66 else 34) (.longLatencyComplete t.slot t.myCore.nextId (.advance 0)) := by
  have hfg : f = g := by funext k x y; exact hop k x y
  intro s hadm hp _
  rw [hexec, division, issue_runs hadm hp, divCycles_eq, hfg]
  rfl

/-- Settles O15: the products by their exact values, and the one lemma of the divisions with Table 11-6's functions. -/
theorem productsAndDivisions : Obligations.ProductsAndDivisions := by
  refine ⟨fun p d a b e => ?_, fun p n w d a b => ?_⟩
  · exact ⟨writesG_scalarG (fun _ => exec_mulLo ..) fun c => mulLo_eq (c.getG a) (c.getG b),
      writesG_scalarG (fun _ => exec_mulHi ..) fun _ => rfl,
      writesG_scalarG (fun _ => exec_mulHiu ..) fun c => mulHiu_eq (c.getG a) (c.getG b),
      writesG_scalarG (fun _ => exec_mulMad ..) fun _ => rfl⟩
  · exact ⟨runs_division (fun _ => exec_divS ..) divS_eq, runs_division (fun _ => exec_divU ..) divU_eq,
      runs_division (fun _ => exec_divRem ..) divRem_eq, runs_division (fun _ => exec_divRemu ..) divRemu_eq⟩

end Sys2Proof.Machine
end

section
/-! SUPPORT. O16: shifts, rotates, counts, reversals and fields, bit by bit (11 R158, R159). -/
namespace Sys2Proof.Machine

/-! ## Shifts and rotates -/

theorem shl_eq_mul (x : Word) (n : Nat) : x <<< n = BitVec.ofNat 64 (x.toNat * 2 ^ n) := by
  apply BitVec.eq_of_toNat_eq
  rw [BitVec.toNat_shiftLeft, Nat.shiftLeft_eq, BitVec.toNat_ofNat]
theorem shr_eq_div (x : Word) (n : Nat) : x >>> n = BitVec.ofNat 64 (x.toNat / 2 ^ n) := by
  rw [← Nat.shiftRight_eq_div_pow, ← BitVec.toNat_ushiftRight, BitVec.ofNat_toNat, BitVec.setWidth_eq]
theorem sar_eq_div (x : Word) (n : Nat) : x.sshiftRight n = BitVec.ofInt 64 (x.toInt / 2 ^ n) := by
  rw [BitVec.sshiftRight, Int.shiftRight_eq_div_pow]
  norm_cast
theorem rol_eq_or (x : Word) {n : Nat} (h : n < 64) : x.rotateLeft n = (x <<< n) ||| (x >>> (64 - n)) := by
  rw [BitVec.rotateLeft_def, Nat.mod_eq_of_lt h]
theorem ror_eq_or (x : Word) {n : Nat} (h : n < 64) : x.rotateRight n = (x >>> n) ||| (x <<< (64 - n)) := by
  rw [BitVec.rotateRight_def, Nat.mod_eq_of_lt h]

/-! ## Counts -/

/-- A bit is set below `n`: the count of zeros from bit n − 1 down stops at the highest one. -/
theorem clzN_spec (x : Word) (n : Nat) (h : ∃ i < n, x.getLsbD i = true) :
    clzN x n < n ∧ x.getLsbD (n - 1 - clzN x n) = true ∧
      ∀ i, n - 1 - clzN x n < i → i < n → x.getLsbD i = false := by
  induction n with
  | zero => obtain ⟨i, hi, -⟩ := h; omega
  | succ n ih =>
    by_cases hn : x.getLsbD n = true
    · rw [clzN, if_pos hn]
      exact ⟨by omega, hn, fun i hlo hhi => by omega⟩
    · have hbelow : ∃ i < n, x.getLsbD i = true := by
        obtain ⟨i, hi, hbit⟩ := h
        have hne : i ≠ n := fun e => hn (e ▸ hbit)
        exact ⟨i, by omega, hbit⟩
      obtain ⟨hlt, hone, hzero⟩ := ih hbelow
      rw [clzN, if_neg hn, show n + 1 - 1 - (1 + clzN x n) = n - 1 - clzN x n by omega]
      refine ⟨by omega, hone, fun i hlo hhi => ?_⟩
      rcases Nat.lt_or_ge i n with hi | hi
      · exact hzero i hlo hi
      · rw [show i = n by omega]; exact Bool.eq_false_of_not_eq_true hn
/-- A bit is set among the `n` from bit `i`: the count of zeros from there up stops at the lowest one. -/
theorem ctzN_spec (x : Word) (i n : Nat) (h : ∃ j, i ≤ j ∧ j < i + n ∧ x.getLsbD j = true) :
    ctzN x i n < n ∧ x.getLsbD (i + ctzN x i n) = true ∧ ∀ j, i ≤ j → j < i + ctzN x i n → x.getLsbD j = false := by
  induction n generalizing i with
  | zero => obtain ⟨j, hlo, hhi, -⟩ := h; omega
  | succ n ih =>
    by_cases hi : x.getLsbD i = true
    · rw [ctzN, if_pos hi]
      exact ⟨by omega, hi, fun j hlo hhi => by omega⟩
    · have habove : ∃ j, i + 1 ≤ j ∧ j < i + 1 + n ∧ x.getLsbD j = true := by
        obtain ⟨j, hlo, hhi, hbit⟩ := h
        have hne : j ≠ i := fun e => hi (e ▸ hbit)
        exact ⟨j, by omega, by omega, hbit⟩
      obtain ⟨hlt, hone, hzero⟩ := ih (i + 1) habove
      rw [ctzN, if_neg hi, show i + (1 + ctzN x (i + 1) n) = i + 1 + ctzN x (i + 1) n by omega]
      refine ⟨by omega, hone, fun j hlo hhi => ?_⟩
      rcases Nat.eq_or_lt_of_le hlo with hj | hj
      · rw [← hj]; exact Bool.eq_false_of_not_eq_true hi
      · exact hzero j hj hhi
theorem exists_getLsbD_of_ne_zero {x : Word} (h : x ≠ 0) : ∃ i < 64, x.getLsbD i = true := by
  by_contra hnone
  push Not at hnone
  refine h (BitVec.eq_of_getLsbD_eq fun i hi => ?_)
  rw [Bool.eq_false_of_not_eq_true (hnone i hi)]
  exact BitVec.getLsbD_zero.symm
theorem clz_spec {x : Word} (h : x ≠ 0) :
    let n := (BitVec.ofNat 64 (clzN x 64)).toNat
    n < 64 ∧ x.getLsbD (63 - n) = true ∧ ∀ i, 63 - n < i → x.getLsbD i = false := by
  obtain ⟨hlt, hone, hzero⟩ := clzN_spec x 64 (exists_getLsbD_of_ne_zero h)
  have hcount : (BitVec.ofNat 64 (clzN x 64)).toNat = clzN x 64 := by rw [BitVec.toNat_ofNat]; omega
  rw [hcount]
  refine ⟨hlt, hone, fun i hi => ?_⟩
  rcases Nat.lt_or_ge i 64 with h64 | h64
  · exact hzero i hi h64
  · exact BitVec.getLsbD_of_ge x i h64
theorem ctz_spec {x : Word} (h : x ≠ 0) :
    let n := (BitVec.ofNat 64 (ctzN x 0 64)).toNat
    n < 64 ∧ x.getLsbD n = true ∧ ∀ i, i < n → x.getLsbD i = false := by
  obtain ⟨i, hi, hbit⟩ := exists_getLsbD_of_ne_zero h
  obtain ⟨hlt, hone, hzero⟩ := ctzN_spec x 0 64 ⟨i, Nat.zero_le i, by omega, hbit⟩
  rw [Nat.zero_add] at hone hzero
  have hcount : (BitVec.ofNat 64 (ctzN x 0 64)).toNat = ctzN x 0 64 := by rw [BitVec.toNat_ofNat]; omega
  rw [hcount]
  exact ⟨hlt, hone, fun j hj => hzero j (Nat.zero_le j) hj⟩

/-! ## Reversals -/

theorem getLsbD_reverse_word (x : Word) {i : Nat} (h : i < 64) : x.reverse.getLsbD i = x.getLsbD (63 - i) := by
  rw [BitVec.getLsbD_reverse, BitVec.getMsbD]
  simp [h]
theorem byteOf_swapBytes (x : Word) {i : Nat} (h : i < 8) : byteOf (swapBytes x) i = byteOf x (7 - i) := by
  unfold swapBytes
  interval_cases i <;> rw [byteOf]
  all_goals simp (disch := decide) only [Laws.extract_skip, Laws.extract_within]
  all_goals exact BitVec.extractLsb'_eq_self

/-! ## Fields -/

theorem lowOnes_getLsbD {n k : Nat} (h : k < 64) : (lowOnes n).getLsbD k = decide (k < n) := by
  rw [lowOnes, BitVec.getLsbD_ofNat, Nat.testBit_two_pow_sub_one, decide_eq_true h, Bool.true_and]
theorem fieldMask_getLsbD (b : Word) {k : Nat} (h : k < 64) :
    (fieldMask b).getLsbD k = decide (fieldPos b ≤ k ∧ k < fieldPos b + fieldLen b) := by
  rw [fieldMask, BitVec.getLsbD_shiftLeft, lowOnes_getLsbD (by omega), decide_eq_true h, Bool.true_and,
    Bool.eq_iff_iff]
  simp only [Bool.and_eq_true, Bool.not_eq_true', decide_eq_true_eq, decide_eq_false_iff_not]
  omega
theorem fieldExt_getLsbD (a b : Word) {k : Nat} (h : k < 64) :
    (fieldExt a b).getLsbD k = (decide (k < fieldLen b) && a.getLsbD (fieldPos b + k)) := by
  rw [fieldExt, BitVec.getLsbD_and, BitVec.getLsbD_ushiftRight, lowOnes_getLsbD h, Bool.and_comm]
theorem fieldIns_getLsbD (d a b : Word) {k : Nat} (h : k < 64) : (fieldIns d a b).getLsbD k =
    if fieldPos b ≤ k ∧ k < fieldPos b + fieldLen b then a.getLsbD (k - fieldPos b) else d.getLsbD k := by
  rw [fieldIns, BitVec.getLsbD_or, BitVec.getLsbD_and, BitVec.getLsbD_and, BitVec.getLsbD_not, BitVec.getLsbD_shiftLeft,
    fieldMask_getLsbD b h]
  by_cases hin : fieldPos b ≤ k ∧ k < fieldPos b + fieldLen b
  · have hlow : ¬k < fieldPos b := by omega
    simp [h, hin, hlow]
  · simp [h, hin]
/-- The sign bit of the field is its highest bit that lies in the word. -/
theorem fieldExts_getLsbD (a b : Word) {k : Nat} (h : k < 64) : (fieldExts a b).getLsbD k =
    a.getLsbD (fieldPos b + min k (min (fieldLen b) (64 - fieldPos b) - 1)) := by
  have hpos : fieldPos b < 64 := (b.extractLsb' 0 6).isLt
  have hlen : 0 < fieldLen b := Nat.succ_pos _
  generalize hm : min (fieldLen b) (64 - fieldPos b) = m
  have hsign : (fieldExt a b).getLsbD (m - 1) = a.getLsbD (fieldPos b + (m - 1)) := by
    rw [fieldExt_getLsbD a b (by omega), decide_eq_true (by omega), Bool.true_and]
  have hvalue : (fieldExts a b).getLsbD k =
      ((fieldExt a b).getLsbD k || (a.getLsbD (fieldPos b + (m - 1)) && !decide (k < m))) := by
    rw [fieldExts, hm, hsign]
    cases hs : a.getLsbD (fieldPos b + (m - 1)) with
    | false => simp
    | true => rw [if_pos rfl, BitVec.getLsbD_or, BitVec.getLsbD_not, lowOnes_getLsbD h, decide_eq_true h]
  rw [hvalue, fieldExt_getLsbD a b h]
  rcases Nat.lt_or_ge k m with hk | hk
  · rw [decide_eq_true (by omega : k < fieldLen b), decide_eq_true hk, show min k (m - 1) = k by omega]
    simp
  · have hout : (decide (k < fieldLen b) && a.getLsbD (fieldPos b + k)) = false := by
      rcases Nat.lt_or_ge k (fieldLen b) with hk' | hk'
      · rw [BitVec.getLsbD_of_ge a _ (by omega), Bool.and_false]
      · rw [decide_eq_false (by omega), Bool.false_and]
    rw [hout, decide_eq_false (by omega), show min k (m - 1) = m - 1 by omega]
    simp

/-- Settles O16: each value by its arithmetic or by its bits. -/
theorem bitResults : Obligations.BitResults := by
  refine ⟨fun p d a b k => ?_, fun p d a => ?_, fun p d a b => ?_⟩
  · have hreg (c : Ctx) : (c.getG b).toNat % 64 < 64 := Nat.mod_lt _ (by decide)
    exact ⟨⟨writesG_scalarG (fun _ => exec_bitsShl ..) fun _ => shl_eq_mul _ _,
        writesG_scalarG (fun _ => exec_bitsShli ..) fun _ => shl_eq_mul _ _⟩,
      ⟨writesG_scalarG (fun _ => exec_bitsShr ..) fun _ => shr_eq_div _ _,
        writesG_scalarG (fun _ => exec_bitsShri ..) fun _ => shr_eq_div _ _⟩,
      ⟨writesG_scalarG (fun _ => exec_bitsSar ..) fun _ => sar_eq_div _ _,
        writesG_scalarG (fun _ => exec_bitsSari ..) fun _ => sar_eq_div _ _⟩,
      ⟨writesG_scalarG (fun _ => exec_bitsRol ..) fun c => rol_eq_or _ (hreg c),
        writesG_scalarG (fun _ => exec_bitsRoli ..) fun _ => rol_eq_or _ k.isLt⟩,
      ⟨writesG_scalarG (fun _ => exec_bitsRor ..) fun c => ror_eq_or _ (hreg c),
        writesG_scalarG (fun _ => exec_bitsRori ..) fun _ => ror_eq_or _ k.isLt⟩⟩
  · exact ⟨writesG_scalarG (fun _ => exec_bitsPopc ..) fun _ => rfl,
      ⟨_, writesG_scalarG (fun _ => exec_bitsClz ..) fun _ => rfl, rfl, fun _ => clz_spec⟩,
      ⟨_, writesG_scalarG (fun _ => exec_bitsCtz ..) fun _ => rfl, rfl, fun _ => ctz_spec⟩,
      ⟨_, writesG_scalarG (fun _ => exec_bitsBrev ..) fun _ => rfl, fun x _ => getLsbD_reverse_word x⟩,
      ⟨_, writesG_scalarG (fun _ => exec_bitsBswap ..) fun _ => rfl, fun x _ => byteOf_swapBytes x⟩⟩
  · exact ⟨⟨_, writesG_scalarG (fun _ => exec_fieldExt ..) fun _ => rfl, fun c _ => fieldExt_getLsbD (c.getG a) (c.getG b)⟩,
      ⟨_, writesG_scalarG (fun _ => exec_fieldExts ..) fun _ => rfl, fun c _ => fieldExts_getLsbD (c.getG a) (c.getG b)⟩,
      ⟨_, writesG_scalarG (fun _ => exec_fieldIns ..) fun _ => rfl,
        fun c _ => fieldIns_getLsbD (c.getG d) (c.getG a) (c.getG b)⟩,
      ⟨_, writesG_scalarG (fun _ => exec_fieldMask ..) fun _ => rfl, fun c _ => fieldMask_getLsbD (c.getG b)⟩⟩

end Sys2Proof.Machine
end

section
/-! SUPPORT. O17, O19: selection, addresses, coordinates and predicates (11 R160–R168). -/
namespace Sys2Proof.Machine

/-! ## Coordinates (11 R166) -/

theorem coreX_coordIn (x : Word) : coreX (coordIn x) = x.toNat % 256 := by
  simp only [coreX, coordIn, BitVec.toNat_setWidth]
  omega
theorem coreY_coordIn (x : Word) : coreY (coordIn x) = x.toNat / 256 % 256 := by
  simp only [coreY, coordIn, BitVec.toNat_setWidth]
  omega
theorem dieOf_setWidth (c : CoreId) : (dieOf c).setWidth 64 = BitVec.ofNat 64 (2 * (coreY c / 64) + coreX c / 128) := by
  rw [← dieOf_toNat, BitVec.ofNat_toNat]
theorem State.issued_coordLocal (s : State) (n : Nat) (x : Word) : coordLocal (s.issued n) x = coordLocal s x := by
  simp only [coordLocal, State.issued_slot, State.issued_present]
/-- The relative address that COORD.LOCAL forms of two offsets. -/
def relWord (dx dy : BitVec 8) : Word := 0xC000000000000000 ||| (dx.setWidth 64 <<< 50) ||| (dy.setWidth 64 <<< 42)
theorem relWord_fields (dx dy : BitVec 8) :
    (relWord dx dy).getLsbD 62 = true ∧ (relWord dx dy).extractLsb' 50 8 = dx ∧
      (relWord dx dy).extractLsb' 42 8 = dy := by
  refine ⟨by simp [relWord], ?_, ?_⟩
  · ext i hi
    interval_cases i <;> simp [relWord]
  · ext i hi
    interval_cases i <;> simp [relWord]
theorem mkCore_setWidth {x y : Int} (hx : 0 ≤ x ∧ x ≤ 255) (hy : 0 ≤ y ∧ y ≤ 255) :
    (mkCore x.toNat y.toNat).setWidth 64 = BitVec.ofInt 64 (y * 256 + x) := by
  have hsum : y * 256 + x = ((y.toNat * 256 + x.toNat : Nat) : Int) := by omega
  apply BitVec.eq_of_toNat_eq
  rw [hsum, BitVec.ofInt_natCast, mkCore, BitVec.toNat_setWidth, BitVec.toNat_ofNat, BitVec.toNat_ofNat]
  omega
theorem coordLocal_eq (s : State) (w : Word) :
    let dx : Int := (w.setWidth 8).toInt + (coreX s.slot : Int)
    let dy : Int := (w.extractLsb' 8 8).toInt + (coreY s.slot : Int)
    coordLocal s w =
      if 0 ≤ dx ∧ dx ≤ 255 ∧ 0 ≤ dy ∧ dy ≤ 255 ∧ s.present (mkCore dx.toNat dy.toNat) then BitVec.ofInt 64 (dy * 256 + dx)
      else BitVec.allOnes 64 := by
  intro dx dy
  obtain ⟨hrel, hx, hy⟩ := relWord_fields (w.extractLsb' 0 8) (w.extractLsb' 8 8)
  have htarget : coordTarget s.slot (relWord (w.extractLsb' 0 8) (w.extractLsb' 8 8)) =
      if 0 ≤ dx ∧ dx ≤ 255 ∧ 0 ≤ dy ∧ dy ≤ 255 then some (mkCore dx.toNat dy.toNat) else none := by
    simp only [coordTarget, hrel, hx, hy, if_true, Int.add_comm (coreX s.slot : Int), Int.add_comm (coreY s.slot : Int)]
    rfl
  show (match coordTarget s.slot (relWord (w.extractLsb' 0 8) (w.extractLsb' 8 8)) with
    | none => BitVec.allOnes 64
    | some t => if s.present t then t.setWidth 64 else BitVec.allOnes 64) = _
  rw [htarget]
  by_cases hin : 0 ≤ dx ∧ dx ≤ 255 ∧ 0 ≤ dy ∧ dy ≤ 255
  · obtain ⟨hx0, hx1, hy0, hy1⟩ := hin
    simp only [hx0, hx1, hy0, hy1, and_self, true_and, if_true, mkCore_setWidth ⟨hx0, hx1⟩ ⟨hy0, hy1⟩]
  · rw [if_neg hin, if_neg fun h => hin ⟨h.1, h.2.1, h.2.2.1, h.2.2.2.1⟩]

/-! ## Selection and addresses (11 R160–R162, R167, R168) -/

theorem leaOff_fields (x y : Word) :
    let v : Word := x.extractLsb' 42 22 ++ (x.setWidth 42 + y.setWidth 42 : BitVec 42)
    v.extractLsb' 42 22 = x.extractLsb' 42 22 ∧ v.setWidth 42 = (x + y).setWidth 42 := by
  refine ⟨Laws.extract_high _ _, ?_⟩
  rw [BitVec.setWidth_eq_extractLsb' (by decide), Laws.extract_low, BitVec.setWidth_add _ _ (by decide)]
theorem makeCoord_eq (lvl : BitVec 2) (rel : Bool) (a b : Word) : makeCoord lvl rel a b =
    1#1 ++ BitVec.ofBool rel ++ 0#2 ++ lvl ++ a.extractLsb' 0 8 ++ a.extractLsb' 8 8 ++ b.extractLsb' 0 42 := by
  cases rel <;> rfl
theorem makeGlobal_eq (pkg : BitVec 5) (b : Word) : makeGlobal pkg b = 0#7 ++ pkg ++ b.setWidth 52 := by
  rw [makeGlobal, ← BitVec.setWidth_eq_extractLsb' (by decide)]

/-- Settles O17: selections and formed addresses from the registers, COORD's answers from the machine as well. -/
theorem addressResults : Obligations.AddressResults := by
  refine ⟨fun p d a b q k => ?_, fun p d a b lvl rel => ?_⟩
  · exact ⟨writesG_scalarG (fun _ => exec_sel ..) fun _ => rfl, writesG_scalarG (fun _ => exec_lea ..) fun _ => rfl,
      ⟨_, writesG_scalarG (fun _ => exec_leaOff ..) fun _ => rfl, fun c => leaOff_fields (c.getG a) _⟩⟩
  · intro x y R
    refine ⟨runs_scalarG (fun _ => exec_coordTile ..) fun _ c => ?_, runs_scalarG (fun _ => exec_coordGroup ..) fun _ c => ?_,
      runs_scalarG (fun _ => exec_coordSgrp ..) fun _ c => ?_, runs_scalarG (fun _ => exec_coordDie ..) fun _ c => ?_,
      runs_scalarG (fun _ => exec_coordPres ..) fun s _ => ?_, runs_scalarG (fun _ => exec_coordHmap ..) fun s _ => ?_,
      runs_scalarG (fun _ => exec_coordLocal ..) fun s c => ?_,
      runs_scalarG (fun _ => exec_mka ..) fun _ c => makeCoord_eq lvl rel (c.getG a) (c.getG b),
      runs_scalarG (fun _ => exec_mkg ..) fun _ c => makeGlobal_eq _ (c.getG b),
      runs_scalarG (fun _ => exec_mkgOwn ..) fun s c => ?_⟩
    · rw [tileOf, coreX_coordIn, coreY_coordIn]
    · rw [groupOf, coreX_coordIn, coreY_coordIn]
    · rw [sgrpOf, coreX_coordIn, coreY_coordIn]
    · rw [dieOf_setWidth, coreX_coordIn, coreY_coordIn]
    · rw [State.issued_present]; rfl
    · rw [State.issued_hmap]
    · rw [← State.issued_coordLocal s 8]; exact coordLocal_eq (s.issued 8) (c.getG a)
    · rw [State.issued_pkgNum]; exact makeGlobal_eq s.pkgNum (c.getG b)

/-! ## Comparisons and predicates (11 R163–R165) -/

theorem cond_holds_eq_condNumbers {n : Nat} (cc : Cond) (x y : BitVec n) : cc.holds x y = condNumbers cc x y := by
  cases cc <;> rw [Bool.eq_iff_iff] <;>
    simp [Cond.holds, condNumbers, BitVec.slt, BitVec.sle, BitVec.ult, BitVec.ule, BitVec.toNat_inj]
theorem cond_test_eq_condTable (cc : Cond) (w : CmpW) (x y : Word) : cc.test w x y = condTable cc w x y := by
  cases w <;> exact cond_holds_eq_condNumbers cc _ _
theorem maskOf_test (cc : Cond) (w : CmpW) (x y : Word) :
    maskOf (cc.test w x y) = if condTable cc w x y then BitVec.allOnes 32 else 0 := by
  rw [cond_test_eq_condTable]
  rfl

/-- Settles O19: comparisons by Table 11-2, the logic and the moves by their operands. -/
theorem predicateResults : Obligations.PredicateResults := by
  intro p cc w m d a b g h imm all
  refine ⟨writesP_scalarP (fun _ => exec_cmp ..) fun c => ?_,
    writesP_scalarP (fun _ => exec_cmpi ..) fun c => maskOf_test cc .x64 (c.getG g) _,
    writesP_scalarP (fun _ => exec_plogAnd ..) fun _ => rfl, writesP_scalarP (fun _ => exec_plogOr ..) fun _ => rfl,
    writesP_scalarP (fun _ => exec_plogXor ..) fun _ => rfl, writesP_scalarP (fun _ => exec_plogAndn ..) fun _ => rfl,
    writesP_scalarP (fun _ => exec_plogOrn ..) fun _ => rfl, writesP_scalarP (fun _ => exec_plogNand ..) fun _ => rfl,
    writesP_scalarP (fun _ => exec_plogNor ..) fun _ => rfl, writesP_scalarP (fun _ => exec_plogXnor ..) fun _ => rfl,
    writesP_scalarP (fun _ => exec_plogNot ..) fun _ => rfl, writesP_scalarP (fun _ => exec_pmovG2p ..) fun _ => rfl,
    writesP_scalarP (fun _ => exec_pmovBc ..) fun _ => rfl, writesG_scalarG (fun _ => exec_pmovP2g ..) fun _ => rfl⟩
  dsimp only
  rw [maskOf_test]
  cases m <;> rfl

end Sys2Proof.Machine
end

section
/-! SUPPORT. O18: control transfers, and a call in a table of cores that is not in canonical form (11 R151–R153). -/
namespace Sys2Proof.Machine

/-! ## A call whose target is a multiple of 4 -/

theorem low_bits_eq_zero_iff (x : Word) : (x.extractLsb' 0 2 : BitVec 2) = 0 ↔ x.toNat % 4 = 0 := by
  rw [← BitVec.toNat_inj, extract_toNat]
  simp
theorem transfer_link_aligned {t : State} {x : Word} (r : Word) (h : x.toNat % 4 = 0) :
    transfer t x (some r) = .ok (t.modMe fun m => { m.setG 30 r with pc := x }) :=
  if_neg (not_not_intro ((low_bits_eq_zero_iff x).mpr h))
/-- In a table of cores in canonical form the link and the new PC are two writes in a row. -/
theorem State.modMe_link_pc {t : State} (h : SMap.wf Core.reset t.cores = true) (r x : Word) :
    (t.modMe fun m => { m.setG 30 r with pc := x }) = (t.putG 30 r).modMe fun m => { m with pc := x } :=
  (State.modCtx_modCtx t t.slot t.cx (fun m => m.setG 30 r) (fun m => { m with pc := x }) h).symm
/-- O18's clause of CALL, with the canonical form that it does not ask for. -/
theorem call_runs_canonical (p : Pred) (off : BitVec 32) :
    Runs .any (.call p off) p 8
      (fun c t => SMap.wf Core.reset t.cores = true ∧ (c.pc + off.signExtend 64).toNat % 4 = 0)
      (fun c t => (t.putG 30 (c.pc + 8)).modMe fun m => { m with pc := c.pc + off.signExtend 64 }) := by
  intro s hadm hp ⟨hwf, hal⟩
  rw [exec_call, execCall, issue_runs hadm hp, imm64, transfer_link_aligned _ hal]
  exact congrArg Host.Outcome.next (State.modMe_link_pc hwf _ _)

/-! ## A table of cores in which the two differ -/

/-- Core 0 is listed twice: as after reset but for PC −8 and g30, and behind that with another operation number. The model's
own writes make no such table (`SMap.wf_set`). -/
def doubledCores : State :=
  { cores := [(0, Core.reset.setCtx 0 { (Core.reset.ctx 0).setG 30 1 with pc := -8 }), (0, { Core.reset with nextId := 1 })] }
/-- The call of O18, in the order of the statement: g30 is written first, PC after it. -/
def doubledCores.stated : State :=
  ((doubledCores.issued 8).putG 30 (doubledCores.me.pc + 8)).modMe fun m =>
    { m with pc := doubledCores.me.pc + (12 : BitVec 32).signExtend 64 }
/-- The same call as the model makes it: both in one write. -/
def doubledCores.made : State :=
  (doubledCores.issued 8).modMe fun m =>
    { m.setG 30 (doubledCores.me.pc + 8) with pc := doubledCores.me.pc + (12 : BitVec 32).signExtend 64 }

theorem doubledCores.aligned : (doubledCores.me.pc + (12 : BitVec 32).signExtend 64).toNat % 4 = 0 := by decide
/-- The one write keeps the entry in front; the two in a row uncover the one behind it. -/
theorem doubledCores.nextId_differs : (made.core 0).nextId = 0 ∧ (stated.core 0).nextId = 1 := by decide +kernel
theorem doubledCores.exec_call : exec (.call 0 12) doubledCores = .next made := by
  rw [Machine.exec_call, execCall, issue_runs rfl (by decide), imm64, transfer_link_aligned _ aligned]
  rfl

/-- Refutes O18: the clause for a call does not ask that the table of cores be in canonical form. In `doubledCores` the core is
as after reset once g30 holds the next PC, 0: written by itself, that drops the core's entry and uncovers the one behind it, where
the model writes g30 and PC at once and keeps the entry. `call_runs_canonical` is the clause with the condition that it lacks. -/
theorem not_controlTransfers : ¬ Obligations.ControlTransfers := by
  unfold Obligations.ControlTransfers
  rintro ⟨goes, -⟩
  obtain ⟨-, -, -, -, call, -⟩ := goes 0 .eq .x64 0 0 12
  have stated : exec (.call 0 12) doubledCores = .next doubledCores.stated :=
    call doubledCores rfl (by decide) doubledCores.aligned
  have same : doubledCores.made = doubledCores.stated :=
    Host.Outcome.next.inj (doubledCores.exec_call.symm.trans stated)
  obtain ⟨hmade, hstated⟩ := doubledCores.nextId_differs
  rw [same, hstated] at hmade
  exact absurd hmade (by decide)

end Sys2Proof.Machine
end

section
/-! SUPPORT. O20, O21, O22: scalar memory instructions open their operations (11 R169–R188). -/
namespace Sys2Proof.Machine

theorem AddrOk.checkEa {t : State} {ea : Word} {w : Nat} (h : AddrOk t ea w) : t.checkEa ea w = none := by
  obtain ⟨hal, _, hplace⟩ := h
  exact State.checkEa_none hal hplace
/-- A store opens its operation, or loses its slot while an earlier access holds its own back (19 R314). -/
theorem storeOp_free {t : State} {c : Ctx} {n : La} {accs : List Access} (h : t.localHeld c accs = false) :
    t.storeOp c n accs = .ok (t.launchOp c n .store accs (counted := true)) :=
  if_neg (by rw [h]; exact Bool.false_ne_true)
theorem storeOp_held {t : State} {c : Ctx} {n : La} {accs : List Access} (h : t.localHeld c accs = true) :
    t.storeOp c n accs = .lose := if_pos h

/-! ## Loads and stores (11 R171–R177) -/

section
variable {i : Instr} {p : Pred} {n : La} {d : G} {ea : Ctx → Word}

theorem scalarLoad_runs {z : Sz} (hexec : ∀ s, exec i s = scalarLoad p n z d s ea) :
    Runs .any i p 8 (fun c t => AddrOk t (ea c) z.bytes) fun c t =>
      t.launchOp c n (.load z d) [readAcc (ea c) z.bytes] (gMask := gBit d) := by
  intro s hadm hp hok
  rw [hexec, scalarLoad, issue_runs hadm hp, hok.checkEa]
  rfl
theorem scalarStore_runs {y : StSz} (hexec : ∀ s, exec i s = scalarStore p n y d s ea) :
    Runs .any i p 8
      (fun c t => AddrOk t (ea c) y.bytes ∧ t.localHeld c [writeAcc (ea c) y.bytes (c.getG d)] = false)
      fun c t => t.launchOp c n .store [writeAcc (ea c) y.bytes (c.getG d)] (counted := true) := by
  intro s hadm hp ⟨hok, hfree⟩
  rw [hexec, scalarStore, issue_runs hadm hp, hok.checkEa]
  dsimp only
  rw [storeOp_free hfree]
  rfl
theorem scalarStore_loses {y : StSz} (hexec : ∀ s, exec i s = scalarStore p n y d s ea) :
    Loses .any i p 8
      fun c t => AddrOk t (ea c) y.bytes ∧ t.localHeld c [writeAcc (ea c) y.bytes (c.getG d)] = true := by
  intro s hadm hp ⟨hok, hheld⟩
  rw [hexec, scalarStore, issue_runs hadm hp, hok.checkEa]
  dsimp only
  rw [storeOp_held hheld]
  rfl
end

/-- LDM and STM: a multiple of 8, and the doublewords within one granule (11 R173). -/
theorem multiBad_eq_false {t : State} {ea : Word} {e : BitVec 3} (hok : AddrOk t ea 8)
    (hfits : ea.toNat % 64 + 8 * (e.toNat + 1) ≤ 64) : multiBad ea e = false := by
  obtain ⟨hal, -⟩ := hok
  simp [multiBad, hal]
  omega

section
variable (p : Pred) (n : La) (e : BitVec 3) (d a : G) (disp : BitVec 32)

/-- The one access of STM. -/
def stmAcc (c : Ctx) : Access :=
  { va := c.eaI a disp, mask := spanMask ((c.eaI a disp).toNat % 64) (8 * (e.toNat + 1))
    op := .write (spanMask ((c.eaI a disp).toNat % 64) (8 * (e.toNat + 1)))
      ((c.gWords d e) <<< (8 * ((c.eaI a disp).toNat % 64))) }
theorem ldm_runs :
    Runs .any (.ldm p n e d a disp) p 8
      (fun c t => AddrOk t (c.eaI a disp) 8 ∧ (c.eaI a disp).toNat % 64 + 8 * (e.toNat + 1) ≤ 64)
      fun c t => t.launchOp c n (.loadM e d) [readAcc (c.eaI a disp) (8 * (e.toNat + 1))] (gMask := gSpan d e) := by
  intro s hadm hp ⟨hok, hfits⟩
  rw [exec_ldm, execLdm, issue_runs hadm hp]
  dsimp only
  rw [multiBad_eq_false hok hfits, hok.checkEa]
  rfl
theorem stm_runs :
    Runs .any (.stm p n e d a disp) p 8
      (fun c t => (AddrOk t (c.eaI a disp) 8 ∧ (c.eaI a disp).toNat % 64 + 8 * (e.toNat + 1) ≤ 64) ∧
        t.localHeld c [stmAcc e d a disp c] = false)
      fun c t => t.launchOp c n .store [stmAcc e d a disp c] (counted := true) := by
  intro s hadm hp ⟨⟨hok, hfits⟩, hfree⟩
  rw [exec_stm, execStm, issue_runs hadm hp]
  dsimp only
  rw [multiBad_eq_false hok hfits, hok.checkEa]
  exact congrArg (fun x : Act => x.finish s 8) (storeOp_free hfree)
theorem stm_loses :
    Loses .any (.stm p n e d a disp) p 8
      fun c t => (AddrOk t (c.eaI a disp) 8 ∧ (c.eaI a disp).toNat % 64 + 8 * (e.toNat + 1) ≤ 64) ∧
        t.localHeld c [stmAcc e d a disp c] = true := by
  intro s hadm hp ⟨⟨hok, hfits⟩, hheld⟩
  rw [exec_stm, execStm, issue_runs hadm hp]
  dsimp only
  rw [multiBad_eq_false hok hfits, hok.checkEa]
  exact congrArg (fun x : Act => x.finish s 8) (storeOp_held hheld)
theorem ldq_runs :
    Runs .any (.ldq p n d a disp) p 8 (fun c t => AddrOk t (c.eaI a disp) 1)
      fun c t => t.launchOp c n (.ldq d) [{ va := c.eaI a disp, mask := 0, op := .ldq }] (gMask := gBit d) := by
  intro s hadm hp hok
  rw [exec_ldq, execLdq, issue_runs hadm hp, hok.checkEa]
  rfl
theorem ldtry_runs (z : Sz) :
    Runs .any (.ldtry p n z d a disp) p 8 (fun c t => AddrOk t (c.eaI a disp) z.bytes)
      fun c t => t.launchOp c n (.ldtry z d)
        [{ va := c.eaI a disp, mask := spanMask ((c.eaI a disp).toNat % 64) z.bytes, op := .ldtry }]
        (gMask := gBit d ||| gBit (d + 1)) := by
  intro s hadm hp hok
  rw [exec_ldtry, execLdtry, issue_runs hadm hp, hok.checkEa]
  rfl
theorem bwait_runs :
    Runs .any (.bwait p n d a disp) p 8 (fun c t => AddrOk t (c.eaI a disp) 1)
      fun c t => t.launchOp c n (.bwait d) [{ va := c.eaI a disp, mask := 0, op := .bwait }] (gMask := gBit d) := by
  intro s hadm hp hok
  rw [exec_bwait, execBwait, issue_runs hadm hp, hok.checkEa]
  rfl
end

/-- Only accesses to the own local store are held back. -/
theorem State.localHeld_of_not_local {t : State} {c : Ctx} {l : List Access}
    (h : ∀ a ∈ l, ¬(isCoord a.va = true ∧ coordLevel a.va = 0)) : t.localHeld c l = false := by
  refine List.any_eq_false.mpr fun a ha hheld => h a ha ?_
  simp only [Bool.and_eq_true, beq_iff_eq] at hheld
  exact hheld.1

/-- Settles O20: each form's checks pass, and its operation is opened. -/
theorem loadsAndStores : Obligations.LoadsAndStores := by
  refine ⟨fun p n z y sc d a b disp => ?_, fun p n e z d a disp => ?_, fun t c l => ?_⟩
  · exact ⟨scalarLoad_runs fun _ => exec_ld .., scalarLoad_runs fun _ => exec_ldx ..,
      ⟨scalarStore_runs fun _ => exec_st .., scalarStore_loses fun _ => exec_st ..⟩,
      ⟨scalarStore_runs fun _ => exec_stx .., scalarStore_loses fun _ => exec_stx ..⟩⟩
  · exact ⟨ldm_runs p n e d a disp, ⟨stm_runs p n e d a disp, stm_loses p n e d a disp⟩, ldq_runs p n d a disp,
      ldtry_runs p n d a disp z, bwait_runs p n d a disp⟩
  · rintro (hnot | hquiet)
    · exact State.localHeld_of_not_local hnot
    · exact hquiet.localHeld c l

/-! ## Clears and prefetches (11 R178–R181) -/

theorem clearRun_runs {i : Instr} {p : Pred} {ea : Ctx → Word} {count : Ctx → Nat} {counts : Bool}
    (hexec : ∀ s, exec i s = clearRun p s ea count counts) :
    Runs .any i p 8 (fun c t => AddrOk t (ea c) 1) fun c t =>
      (t.modCore t.slot fun k =>
        { k with
          nextId := k.nextId + 1
          clrs := k.clrs ++ [{ id := k.nextId, ctx := t.cx, tid := c.tid, pc := c.pc, va := ea c, asid := c.asid
                               priv := c.priv, count := count c, counts := counts
                               acc := { va := ea c, mask := 0, op := .clear (count c) } }] }).after 0
        (.clrAtHome (.clr t.slot t.myCore.nextId) 0) := by
  intro s hadm hp hok
  rw [hexec, clearRun, issue_runs hadm hp, hok.checkEa]
  rfl

theorem State.prefLine_hit {s : State} {c : Ctx} {ea : Word} {line : Nat} {x : Bool}
    (h : s.lineHit (sgIdx s.slot) line x = true) : s.prefLine c ea line x = s := if_pos h
theorem State.prefLine_miss {s : State} {c : Ctx} {ea : Word} {line : Nat} {x : Bool}
    (h : s.lineHit (sgIdx s.slot) line x = false) : s.prefLine c ea line x =
      ({ s with fresh := s.fresh + 1 } : State).missLine line x
        { id := s.newId s.slot, asid := c.asid, priv := c.priv.code, core := s.slot, ctx := s.cx, addr := ea, op := .peek
          posted := false, launch := 0, who := none, plain := true } :=
  if_neg (by rw [h]; exact Bool.false_ne_true)

section
variable {p : Pred} {a : G} {disp : BitVec 32} {x : Bool} {s : State} {pkg : BitVec 5} {off : Nat}
  (hp : s.me.test p = true)
include hp

theorem prefetch_other
    (hplace : (s.issued 8).checkAddr (s.issued 8).slot (s.me.eaI a disp) = .ok (.global pkg off))
    (hpkg : pkg ≠ (s.issued 8).pkgNum) :
    prefetch p a disp x s = .next ((s.issued 8).prefLine s.me (s.me.eaI a disp)
      (aliasLine pkg s.me.asid ((s.me.eaI a disp).toNat % 2 ^ 52)) x) := by
  rw [prefetch, issue_runs rfl hp]
  dsimp only
  rw [hplace]
  dsimp only
  rw [if_pos hpkg]
  rfl
/-- Of this package's own addresses, those that a translation cache of the core or its group places (11 R181). -/
theorem prefetch_placed {e : TlbEnt}
    (hplace : (s.issued 8).checkAddr (s.issued 8).slot (s.me.eaI a disp) = .ok (.global (s.issued 8).pkgNum off))
    (hfound : (findTlb (s.issued 8).myCore.dtlb s.me.asid off s.me.priv 0).or
      (findTlb ((s.issued 8).l2 (some (grp16 (s.issued 8).slot))) s.me.asid off s.me.priv 0) = some e) :
    prefetch p a disp x s = .next (if ((s.issued 8).leafMap e off).isBlock then s.issued 8
      else (s.issued 8).prefLine s.me (s.me.eaI a disp) (((s.issued 8).leafMap e off).key / 64) x) := by
  rw [prefetch, issue_runs rfl hp]
  dsimp only
  rw [hplace]
  dsimp only
  rw [if_neg (not_not_intro rfl), hfound]
  dsimp only
  split <;> rfl
theorem prefetch_unplaced
    (hplace : (s.issued 8).checkAddr (s.issued 8).slot (s.me.eaI a disp) = .ok (.global (s.issued 8).pkgNum off))
    (hfound : (findTlb (s.issued 8).myCore.dtlb s.me.asid off s.me.priv 0).or
      (findTlb ((s.issued 8).l2 (some (grp16 (s.issued 8).slot))) s.me.asid off s.me.priv 0) = none) :
    prefetch p a disp x s = .next (s.issued 8) := by
  rw [prefetch, issue_runs rfl hp]
  dsimp only
  rw [hplace]
  dsimp only
  rw [if_neg (not_not_intro rfl), hfound]
  rfl
theorem prefetch_not_global
    (hplace : ∀ pkg off, (s.issued 8).checkAddr (s.issued 8).slot (s.me.eaI a disp) ≠ .ok (.global pkg off)) :
    prefetch p a disp x s = .next (s.issued 8) := by
  rw [prefetch, issue_runs rfl hp]
  dsimp only
  split
  next h => exact absurd h (hplace _ _)
  next => rfl
end

theorem prefetch_runs {p : Pred} {a : G} {disp : BitVec 32} {x : Bool} {pre : Ctx → State → Prop} {f : Ctx → State → State}
    (h : ∀ s : State, s.me.test p = true → pre s.me (s.issued 8) →
      prefetch p a disp x s = .next (f s.me (s.issued 8))) :
    Runs .any (if x then .prefX p a disp else .prefS p a disp) p 8 pre f := by
  intro s _ hp hpre
  rw [← h s hp hpre]
  cases x <;> rfl

/-- Settles O21: a run of clears is recorded and sent; a prefetch asks for the line where its address is placed. -/
theorem clearAndPrefetch : Obligations.ClearAndPrefetch := by
  intro p a b disp clear pref ea places found
  refine ⟨clearRun_runs fun _ => exec_clr .., clearRun_runs fun _ => exec_clrn .., fun x off e => ⟨?_, ?_, ?_, ?_⟩,
    fun x pkg off => ⟨?_, ?_⟩, fun x l o tg => ?_, fun x cause => ?_⟩
  all_goals apply prefetch_runs
  · rintro s hp ⟨⟨⟨hplace, hfound⟩, hplain⟩, hhit⟩
    rw [prefetch_placed hp hplace hfound, if_neg (by rw [hplain]; exact Bool.false_ne_true), State.prefLine_hit hhit]
  · rintro s hp ⟨⟨⟨hplace, hfound⟩, hplain⟩, hmiss⟩
    rw [prefetch_placed hp hplace hfound, if_neg (by rw [hplain]; exact Bool.false_ne_true), State.prefLine_miss hmiss]
    rfl
  · rintro s hp ⟨⟨hplace, hfound⟩, hblock⟩
    rw [prefetch_placed hp hplace hfound, if_pos hblock]
  · rintro s hp ⟨hplace, hnone⟩
    exact prefetch_unplaced hp hplace hnone
  · rintro s hp ⟨⟨hplace, hpkg⟩, hhit⟩
    exact (prefetch_other hp hplace hpkg).trans (congrArg _ (State.prefLine_hit hhit))
  · rintro s hp ⟨⟨hplace, hpkg⟩, hmiss⟩
    exact (prefetch_other hp hplace hpkg).trans (congrArg _ (State.prefLine_miss hmiss))
  · intro s hp hplace
    exact prefetch_not_global hp fun _ _ h => nomatch hplace.symm.trans h
  · intro s hp hplace
    exact prefetch_not_global hp fun _ _ h => nomatch hplace.symm.trans h

/-! ## Atomics and posted operations (11 R182–R188) -/

theorem AddrOk.checkAtomic {t : State} {ea : Word} {w : Nat} {posted : Bool} (h : AddrOk t ea w)
    (hlevel : isCoord ea = true → posted = false ∧ coordLevel ea = 0) : t.checkAtomic ea w posted = none := by
  have hnot : ¬(isCoord ea = true ∧ (posted = true ∨ coordLevel ea ≠ 0)) := by
    rintro ⟨hcoord, hbad⟩
    obtain ⟨hpost, hzero⟩ := hlevel hcoord
    exact hbad.elim (by simp [hpost]) fun hne => hne hzero
  rw [State.checkAtomic, h.checkEa]
  exact if_neg hnot

section
variable {i : Instr} {p : Pred} {n : La} {a : G} {scope : Scope} {order : Order}

theorem aop_runs {f : Nat} {far : Bool} {ty : Ty} {d b : G}
    (hexec : ∀ s, exec i s = aop f p n far ty scope order d a b s) :
    Runs .any i p 8 (fun c t => AddrOk t (c.getG a) ty.bytes ∧ (isCoord (c.getG a) = true → coordLevel (c.getG a) = 0))
      fun c t => t.launchOp c n (.atomic ty false d)
        [{ va := c.getG a, mask := spanMask ((c.getG a).toNat % 64) ty.bytes
           op := .rmw f ty.bytes ty ((c.getG b).setWidth 128) 0 }]
        (gMask := gBit d) (order := order) (scope := scope) (counted := true) (far := far && !isCoord (c.getG a)) := by
  intro s hadm hp ⟨hok, hlevel⟩
  rw [hexec, aop, issue_runs hadm hp]
  dsimp only
  rw [hok.checkAtomic fun h => ⟨rfl, hlevel h⟩]
  rfl
theorem acas_runs (far q : Bool) (ty : Ty) (d b e : G) :
    Runs .any (.acas p n far q ty scope order d a b e) p 8
      (fun c t => AddrOk t (c.getG a) (if q then 16 else ty.bytes) ∧
        (isCoord (c.getG a) = true → coordLevel (c.getG a) = 0))
      fun c t => t.launchOp c n (.atomic ty q d)
        [{ va := c.getG a, mask := spanMask ((c.getG a).toNat % 64) (if q then 16 else ty.bytes)
           op := .rmw 7 (if q then 16 else ty.bytes) ty (c.getQ q e) (c.getQ q b) }]
        (gMask := if q then gBit d ||| gBit (d + 1) else gBit d) (order := order) (scope := scope) (counted := true)
        (far := far && !isCoord (c.getG a)) := by
  intro s hadm hp ⟨hok, hlevel⟩
  rw [exec_acas, execAcas, issue_runs hadm hp]
  dsimp only
  rw [hok.checkAtomic fun h => ⟨rfl, hlevel h⟩]
  rfl
theorem posted_runs {w : Nat} {op : Ctx → Word → HomeOp} (hexec : ∀ s, exec i s = posted p n w scope order a s op) :
    Runs .any i p 8 (fun c t => AddrOk t (c.getG a) w ∧ isCoord (c.getG a) = false) fun c t =>
      let u := t.launchOp c n .post [{ va := c.getG a, mask := spanMask ((c.getG a).toNat % 64) w, op := op c (c.getG a) }]
        (order := order) (scope := scope)
      if t.cx = 0 then u else u.account c.launch (!c.triggered) := by
  intro s hadm hp ⟨hok, hglobal⟩
  rw [hexec, posted, issue_runs hadm hp]
  dsimp only
  rw [hok.checkAtomic fun h => by rw [hglobal] at h; cases h]
  rfl
theorem post_runs {b : BitVec 5} (sz : PostSz) :
    Runs .any (.post p n sz scope order a b) p 8
      (fun c t => AddrOk t (c.getG a) (postBytes sz) ∧ isCoord (c.getG a) = false) fun c t =>
      let u := t.launchOp c n .post
        [{ va := c.getG a, mask := spanMask ((c.getG a).toNat % 64) (postBytes sz)
           op := .write (spanMask ((c.getG a).toNat % 64) (postBytes sz))
             ((postData sz b c) <<< (8 * ((c.getG a).toNat % 64))) }] (order := order) (scope := scope)
      if t.cx = 0 then u else u.account c.launch (!c.triggered) :=
  posted_runs (i := .post p n sz scope order a b) fun s => exec_post p n sz scope order a b s
end

/-- Table 11-17 on `w` bytes. -/
theorem atomicNew_rows (w : Nat) (ty : Ty) (b x old : BitVec 128) :
    let N := fun (f : BitVec (8 * w) → BitVec (8 * w) → BitVec (8 * w)) =>
      some ((f (old.setWidth (8 * w)) (b.setWidth (8 * w))).setWidth 128)
    atomicNew 0 w ty b x old = N (fun _ v => v) ∧
    (ty ≠ .f32 → atomicNew 1 w ty b x old = N (fun o v => o + v)) ∧
    atomicNew 2 w ty b x old = N (fun o v => o &&& v) ∧ atomicNew 3 w ty b x old = N (fun o v => o ||| v) ∧
    atomicNew 4 w ty b x old = N (fun o v => o ^^^ v) ∧
    (ty.isS = true → atomicNew 5 w ty b x old = N (fun o v => if o.toInt ≤ v.toInt then o else v) ∧
      atomicNew 6 w ty b x old = N (fun o v => if o.toInt ≤ v.toInt then v else o)) ∧
    (ty.isS = false → atomicNew 5 w ty b x old = N (fun o v => if o.toNat ≤ v.toNat then o else v) ∧
      atomicNew 6 w ty b x old = N (fun o v => if o.toNat ≤ v.toNat then v else o)) ∧
    (old.setWidth (8 * w) = x.setWidth (8 * w) → atomicNew 7 w ty b x old = N (fun _ v => v)) ∧
    (old.setWidth (8 * w) ≠ x.setWidth (8 * w) → atomicNew 7 w ty b x old = none) := by
  intro N
  refine ⟨rfl, fun hty => if_neg hty, rfl, rfl, rfl, fun hs => ⟨?_, ?_⟩, fun hs => ⟨?_, ?_⟩, fun h => if_pos h, fun h => if_neg h⟩
  · exact congrArg (fun r : BitVec (8 * w) => some (r.setWidth 128)) ((if_pos hs).trans (min_signed _ _))
  · exact congrArg (fun r : BitVec (8 * w) => some (r.setWidth 128)) ((if_pos hs).trans (max_signed _ _))
  · exact congrArg (fun r : BitVec (8 * w) => some (r.setWidth 128)) ((if_neg (by simp [hs])).trans (min_unsigned _ _))
  · exact congrArg (fun r : BitVec (8 * w) => some (r.setWidth 128)) ((if_neg (by simp [hs])).trans (max_unsigned _ _))

/-- Settles O22: each form's checks pass and its operation is opened; what it computes is read off Table 11-17's rows. -/
theorem atomicsAndPosts : Obligations.AtomicsAndPosts := by
  refine ⟨fun p n far q ty scope order d a b e => ?_, atomicNew_rows, fun p n ty scope order a b sz => ?_⟩
  · intro ok A
    have cas := acas_runs (p := p) (n := n) (a := a) (scope := scope) (order := order) far q ty d b e
    have row {i : Instr} {f : Nat} (hexec : ∀ s, exec i s = aop f p n far ty scope order d a b s) : A i f :=
      aop_runs hexec
    clear_value A
    exact ⟨row fun _ => exec_aopSwap .., row fun _ => exec_aopAdd .., row fun _ => exec_aopAnd ..,
      row fun _ => exec_aopOr .., row fun _ => exec_aopXor .., row fun _ => exec_aopMin ..,
      row fun _ => exec_aopMax .., cas⟩
  · intro ok P red' bytes
    have row {i : Instr} {f : Nat} (hexec : ∀ s, exec i s = red f p n ty scope order a b s) :
        P i (ty.width / 8) (red' f) := posted_runs hexec
    refine ⟨row fun _ => exec_redAdd .., row fun _ => exec_redAnd .., row fun _ => exec_redOr ..,
      row fun _ => exec_redXor .., row fun _ => exec_redMin .., row fun _ => exec_redMax .., ?_⟩
    cases sz <;> exact post_runs _

end Sys2Proof.Machine
end

section
/-! SUPPORT. O44: clears at their blocks, and acknowledgements of posted operations (11 R178–R180, R187, R188; 17 R294). -/
namespace Sys2Proof.Machine

/-! ## The runs of clears (05 R75) -/

section
variable {s u : State} {who : Agent} {idx : Nat} {r : ClrRun} {m f : Map} {w : BitVec 8}

theorem clrAtHome_noRun (h : s.runOf who = none) : s.clrAtHome who idx = s := by
  rw [State.clrAtHome, h]
/-- A run that is at its block is performed there. -/
theorem clrAtHome_sent (h : s.runOf who = some r) (hidx : r.next = idx) (hst : r.acc.st = .sent) (hmap : r.acc.map = some m) :
    s.clrAtHome who idx = s.clrPerform who r m := by
  simp [State.clrAtHome, h, hidx, hst, hmap]
theorem clrAtHome_waits (h : s.runOf who = some r) (hidx : r.next = idx) (hst : r.acc.st = .fresh)
    (hwait : s.clrWaits who r = true) : s.clrAtHome who idx = s.after 1 (.clrAtHome who idx) := by
  simp [State.clrAtHome, h, hidx, hst, hwait]
/-- In its turn a run that has left its first block's page or region ends with a class violation (11 R179). -/
theorem clrAtHome_past (h : s.runOf who = some r) (hidx : r.next = idx) (hst : r.acc.st = .fresh)
    (hwait : s.clrWaits who r = false) (hfirst : r.first = some f) (hnext : s.clrNext f r.next = none) :
    s.clrAtHome who idx = s.endClr who r (.trap 5 r.blockVa) := by
  simp [State.clrAtHome, h, hidx, hst, hwait, hfirst, hidx ▸ hnext]
/-- In its turn a run goes to its next block. -/
theorem clrAtHome_goes (h : s.runOf who = some r) (hidx : r.next = idx) (hst : r.acc.st = .fresh)
    (hwait : s.clrWaits who r = false) (hfirst : r.first = some f) (hnext : s.clrNext f r.next = some m) :
    s.clrAtHome who idx = s.clrSend who r m := by
  simp [State.clrAtHome, h, hidx, hst, hwait, hfirst, hidx ▸ hnext]

theorem clrPerform_notBlock (hblock : m.isBlock = false) : s.clrPerform who r m = s.endClr who r (.trap 5 r.blockVa) :=
  if_pos (.inl (by simp [hblock]))
/-- Behind a drain the clear is held. -/
theorem clrPerform_draining (hblock : m.isBlock = true) (hplain : s.plainWayKey m.key = false)
    (hdrain : s.draining m.blk = true) :
    s.clrPerform who r m = { (s.modRun who fun q => { q with acc := { q.acc with map := some m, st := .sent } }) with
      held := s.held ++ [{ blk := m.blk, who := who }] } := by
  simp [State.clrPerform, hblock, hplain, hdrain]
/-- The block is in block use, and nothing drains or is held there: its home's answer decides. -/
def State.clearable (s : State) (m : Map) : Prop :=
  m.isBlock = true ∧ s.plainWayKey m.key = false ∧ s.draining m.blk = false ∧ s.heldBack m.blk = false
theorem clrPerform_deferred (hfree : s.clearable m) (hclear : s.blkClear m.blk m.n = .deferred) :
    s.clrPerform who r m = s.clrAdvance who { r with
      refused := r.refused + 1, firstRefused := if r.refused = 0 then r.blockVa else r.firstRefused } := by
  obtain ⟨hblock, hplain, hdrain, hheld⟩ := hfree
  simp [State.clrPerform, hblock, hplain, hdrain, hheld, hclear]
theorem clrPerform_unwatched (hfree : s.clearable m) (hclear : s.blkClear m.blk m.n = .done u) (hwatch : m.watch = none) :
    s.clrPerform who r m = u.clrAdvance who r := by
  obtain ⟨hblock, hplain, hdrain, hheld⟩ := hfree
  simp [State.clrPerform, hblock, hplain, hdrain, hheld, hclear, hwatch]
/-- A watched block is held until the watch table has counted, and only then cleared (17 R294). -/
theorem clrPerform_watched (hfree : s.clearable m) (hclear : s.blkClear m.blk m.n = .done u) (hwatch : m.watch = some w)
    (hbumped : r.bumped = false) :
    s.clrPerform who r m = (({ s with held := { blk := m.blk, who := who } :: s.held } : State).modRun who fun q =>
      { q with acc := { q.acc with map := some m, st := .sent } }).after 1 (.watchIncrement who r.next) := by
  obtain ⟨hblock, hplain, hdrain, hheld⟩ := hfree
  simp [State.clrPerform, hblock, hplain, hdrain, hheld, hclear, hwatch, hbumped]

theorem watchIncrement_counts (h : s.runOf who = some r) (hidx : r.next = idx) (hmap : r.acc.map = some m)
    (hwatch : m.watch = some w) :
    s.watchIncrement who idx =
      (({ s.bumpWatch w with held := (s.bumpWatch w).held.filter fun h => !(h.blk == m.blk && h.who == who) } :
        State).clrPerform who { r with bumped := true } m).releaseHeld m.blk := by
  simp [State.watchIncrement, h, hidx, hmap, hwatch]

/-- The run that goes on to its next block. -/
def ClrRun.following (r : ClrRun) : ClrRun :=
  { r with next := r.next + 1, bumped := false, acc := { r.acc with st := .fresh, map := none } }
theorem clrAdvance_last (h : r.count ≤ r.next + 1) : s.clrAdvance who r = s.endClr who r.following .done := if_pos h
theorem clrAdvance_more (h : r.next + 1 < r.count) :
    s.clrAdvance who r = (s.modRun who fun _ => r.following).after 1 (.clrAtHome who r.following.next) :=
  if_neg (Nat.not_le.mpr h)
end

/-- The end of a run of this package's thread that met refusals reports the first of them (11 R180). -/
theorem endClr_done_refused {s : State} {c : CoreId} {id : Nat} {r : ClrRun} (h : r.refused ≠ 0) :
    s.endClr (.clr c id) r .done =
      ((s.modCore c fun k => { k with clrs := k.clrs.filter fun q => q.id != r.id }).after 0
        (.deferredTrapReport c r.ctx r.tid
          { kind := 2, cause := 3, pc := r.pc, addr := r.firstRefused, count := if r.counts then r.refused else 0
            source := 3 })).wakeCopyPark c r.ctx := by
  simp only [State.endClr, if_neg h]
/-- The end of a run of another package's thread answers it. -/
theorem endClr_done_home {s : State} {id : Nat} {r : ClrRun} {h : HomeReq} (hhome : s.home id = some h) :
    s.endClr (.home id) r .done =
      (let t := ({ s with homes := s.homes.filter fun k => k.id != id } : State).rememberId h.req.id
       { t with outbox := t.outbox ++ [.reply h.req.id (.cleared 0 r.refused r.firstRefused none)] }) := by
  simp only [State.endClr, hhome]

/-! ## Posted operations (11 R187, R188) -/

/-- A posted operation `h` is over: its record is gone, its id is remembered, and its thread counts one fewer. -/
def State.postedOver (s : State) (id : Nat) (h : HomeReq) : State :=
  (({ s with homes := s.homes.filter fun k => k.id != id } : State).rememberId h.req.id).modCtx h.req.core h.req.ctx
    fun t => if t.tid = h.tid then { t with posted := t.posted - 1 } else t
/-- Its launch counts one fewer, where it was counted. -/
def State.settlePosted (s : State) (h : HomeReq) : State := if h.counted then s.settle h.req.launch h.pre else s

section
variable {s : State} {id k : Nat} {h : HomeReq}

/-- An acknowledgement ends the operation; one of a PLAIN page, or of another package's home, marks the touched banks there
(log entry 26). -/
theorem postedAck_zero (hhome : s.home id = some h) :
    s.postedAck id 0 = (if h.req.addr.extractLsb' 52 5 ≠ s.pkgNum ∨ h.acc.map.any fun m => !m.isBlock then
      (s.postedOver id h).markPlain h.req.core h.req.ctx h.tid none else s.postedOver id h).settlePosted h := by
  simp only [State.postedAck, hhome, true_and, if_true]
  rfl
/-- A refusal ends the operation too, and is reported. -/
theorem postedAck_refused (hhome : s.home id = some h) (hk : k ≠ 0) :
    s.postedAck id k = ((s.postedOver id h).refuse h.req (if k = 7 then 7 else 6) k).settlePosted h := by
  simp only [State.postedAck, hhome, hk, false_and, if_false]
  rfl
end

/-- A launch that has not failed yet takes the cause (11 R188). -/
theorem failLaunch_launches {s : State} {num : BitVec 32} {l : Launch} (cause : Nat)
    (hfind : (s.launches.find? fun l => l.num == num) = some l) (hst : l.status ≠ 3) :
    (s.failLaunch num cause).launches =
      s.launches.map fun l => if l.num = num then { l with status := 3, cause := cause } else l := by
  simp only [State.failLaunch, hfind, if_neg hst]
  split <;> rfl

/-- Settles O44: each event runs its function, whose equation for the case the premises choose. -/
theorem clearSteps : Obligations.ClearSteps := by
  refine ⟨fun who c id idx r m f w u h => ⟨?_, ?_, ?_, ?_, ?_, ?_, ?_, ?_, ?_, ?_, ?_, fun s => endClr_done_refused,
    fun s => endClr_done_home⟩, fun id k h => ⟨?_, ?_, ?_, ?_, fun s num l cause => failLaunch_launches cause⟩⟩
  · intro s he hnone
    rw [Event.row, run_clrAtHome he, clrAtHome_noRun hnone]
  · rintro s he ⟨⟨hrun, hidx⟩, hst, hwait⟩
    rw [Event.row, run_clrAtHome he, clrAtHome_waits hrun hidx hst hwait]
  · rintro s he ⟨⟨⟨hrun, hidx⟩, hst, hwait⟩, hfirst, hnext⟩
    rw [Event.row, run_clrAtHome he, clrAtHome_past hrun hidx hst hwait hfirst hnext]
  · rintro s he ⟨⟨⟨hrun, hidx⟩, hst, hwait⟩, hfirst, hnext⟩
    rw [Event.row, run_clrAtHome he, clrAtHome_goes hrun hidx hst hwait hfirst hnext]
  · rintro s he ⟨⟨⟨hrun, hidx⟩, hst, hmap⟩, hblock⟩
    rw [Event.row, run_clrAtHome he, clrAtHome_sent hrun hidx hst hmap, clrPerform_notBlock hblock]
  · rintro s he ⟨⟨⟨hrun, hidx⟩, hst, hmap⟩, hfree, hclear, hwatch⟩
    rw [Event.row, run_clrAtHome he, clrAtHome_sent hrun hidx hst hmap, clrPerform_unwatched hfree hclear hwatch]
  · rintro s he ⟨⟨⟨hrun, hidx⟩, hst, hmap⟩, hfree, hclear⟩
    rw [Event.row, run_clrAtHome he, clrAtHome_sent hrun hidx hst hmap, clrPerform_deferred hfree hclear]
  · rintro s he ⟨⟨⟨hrun, hidx⟩, hst, hmap⟩, hfree, hclear, hwatch, hbumped⟩
    rw [Event.row, run_clrAtHome he, clrAtHome_sent hrun hidx hst hmap, clrPerform_watched hfree hclear hwatch hbumped]
  · rintro s he ⟨⟨⟨hrun, hidx⟩, hst, hmap⟩, hblock, hplain, hdrain⟩
    rw [Event.row, run_clrAtHome he, clrAtHome_sent hrun hidx hst hmap, clrPerform_draining hblock hplain hdrain]
  · rintro s he ⟨⟨hrun, hidx⟩, hmap, hwatch⟩
    rw [Event.row, run_watchIncrement he, watchIncrement_counts hrun hidx hmap hwatch]
  · exact fun s => ⟨clrAdvance_last, clrAdvance_more⟩
  · rintro s he ⟨hhome, hpkg, hmap⟩
    rw [Event.row, run_postedAck he, postedAck_zero hhome, if_neg (by simp [hpkg, hmap])]
    rfl
  · rintro s he ⟨hhome, hpkg⟩
    rw [Event.row, run_postedAck he, postedAck_zero hhome, if_pos (.inl hpkg)]
    rfl
  · rintro s he ⟨hhome, h0, h7⟩
    rw [Event.row, run_postedAck he, postedAck_refused hhome h0, if_neg h7]
    rfl
  · intro s he hhome
    rw [Event.row, run_postedAck he, postedAck_refused hhome (by decide), if_pos rfl]
    rfl

end Sys2Proof.Machine
end

section
/-! SUPPORT. O25 to O28: vector instructions on their active lanes (13 R190–R204). -/
namespace Sys2Proof.Machine

/-! ## Running under a lane mask (13 R191) -/

section
variable {i : Instr} {p : Pred} {n : Nat}

theorem runsV_issueV {body : Ctx → BitVec 32 → State → Act} {f : Ctx → BitVec 32 → State → State}
    (hexec : ∀ s, exec i s = issueV p n 8 s body) (hbody : ∀ c m t, body c m t = .ok (f c m t)) :
    RunsV i p n (fun _ _ => True) f := by
  intro s hm _
  rw [hexec, issueV_runs hm, hbody]
  rfl
theorem writesV_vecV {w : Nat} {d : V} {f g : Ctx → Nat → Nat × FFlags} (hexec : ∀ s, exec i s = vecV p n w d s f)
    (hval : ∀ c k, f c k = g c k) : WritesV i p n w d g := by
  have hfg : f = g := funext₂ hval
  exact runsV_issueV hexec fun _ _ _ => by rw [hfg]
end

/-! ## Lanes of a register (13 R190) -/

theorem setLane_getLsbD (w : Nat) (x : BitVec 256) (i : Nat) (v : BitVec w) {b : Nat} (hb : b < 256) :
    (setLane w x i v).getLsbD b = if w * i ≤ b ∧ b < w * i + w then v.getLsbD (b - w * i) else x.getLsbD b := by
  simp only [setLane, BitVec.getLsbD_or, BitVec.getLsbD_and, BitVec.getLsbD_not, BitVec.getLsbD_shiftLeft,
    BitVec.getLsbD_setWidth, BitVec.getLsbD_allOnes, hb, decide_true, Bool.true_and]
  have hin : b - w * i < 256 := by omega
  by_cases hlo : b < w * i
  · rw [if_neg (by omega)]
    simp [hlo]
  · by_cases hhi : b - w * i < w
    · rw [if_pos (by omega)]
      simp [hlo, hhi, hin]
    · rw [if_neg (by omega), BitVec.getLsbD_of_ge v _ (by omega)]
      simp [hlo, hhi]
theorem lane_setLane (w : Nat) (x : BitVec 256) {i k : Nat} (v : BitVec w) (hk : w * (k + 1) ≤ 256) :
    lane w (setLane w x i v) k = if k = i then v else lane w x k := by
  have hbit {j : Nat} (hj : j < w) : w * k + j < 256 := by rw [Nat.mul_succ] at hk; omega
  by_cases hki : k = i
  · subst hki
    rw [if_pos rfl]
    ext j hj
    simp only [lane, BitVec.getElem_extractLsb', setLane_getLsbD w x k v (hbit hj)]
    rw [if_pos (by omega), Nat.add_sub_cancel_left, BitVec.getLsbD_eq_getElem hj]
  · rw [if_neg hki]
    ext j hj
    simp only [lane, BitVec.getElem_extractLsb', setLane_getLsbD w x i v (hbit hj)]
    have hlane {n r : Nat} (hr : r < w) : (w * n + r) / w = n := by
      rw [Nat.mul_add_div (Nat.zero_lt_of_lt hj), Nat.div_eq_of_lt hr, Nat.add_zero]
    refine if_neg fun ⟨hlo, hhi⟩ => hki ?_
    obtain ⟨r, hr⟩ := Nat.exists_eq_add_of_le hlo
    rw [← hlane (n := k) hj, hr, hlane (by omega)]
/-- A write of the active lanes below `n` leaves every other lane as it was (13 R191, R192). -/
theorem lane_overLanes (w : Nat) (m : BitVec 32) (d : BitVec 256) (f : Nat → Nat × FFlags) (n : Nat) {k : Nat}
    (hk : w * (k + 1) ≤ 256) :
    lane w (overLanes w m d f n).1 k = if k < n ∧ m.getLsbD k = true then BitVec.ofNat w (f k).1 else lane w d k := by
  induction n with
  | zero => rw [if_neg (by omega)]; rfl
  | succ n ih =>
    rw [overLanes]
    by_cases hkn : k = n
    · subst hkn
      by_cases hm : m.getLsbD k = true
      · rw [if_pos hm, lane_setLane _ _ _ hk, if_pos rfl, if_pos ⟨by omega, hm⟩]
      · rw [if_neg hm, ih, if_neg (by omega), if_neg fun h => hm h.2]
    · have hlt : k < n + 1 ↔ k < n := by omega
      rw [if_congr (and_congr_left' hlt) rfl rfl, ← ih]
      split
      · rw [lane_setLane _ _ _ hk, if_neg hkn]
      · rfl

/-! ## VOP (13 R193) -/

/-- The lane's float form where the type has one, else its integer form. -/
theorem writesV_vop {i : Instr} {p : Pred} {ty : Ty} {d a b : V} {ff : FFmt → FEnv → Nat → Nat → Nat × FFlags}
    {fi : (w : Nat) → BitVec w → BitVec w → BitVec w} {g : Ctx → Nat → Nat × FFlags}
    (hexec : ∀ s, exec i s = vop p ty d a b s ff fi)
    (hfloat : ∀ f, Ty.fmt? ty = some f → ∀ c k,
      ff f c.fenv (lane ty.width (c.getV a) k).toNat (lane ty.width (c.getV b) k).toNat = g c k)
    (hint : Ty.fmt? ty = none → ∀ c k,
      ((fi ty.width (lane ty.width (c.getV a) k) (lane ty.width (c.getV b) k)).toNat, 0) = g c k) :
    WritesV i p ty.lanes ty.width d g := by
  refine writesV_vecV hexec fun c k => ?_
  cases h : Ty.fmt? ty with
  | some f => rw [laneOp, h]; exact hfloat f h c k
  | none =>
    simp only [laneOp, h, BitVec.ofNat_toNat, BitVec.setWidth_eq]
    exact hint h c k
theorem intMin_eq (ty : Ty) (w : Nat) (x y : BitVec w) :
    intMin ty w x y = if (if ty.isS then x.sle y else x.ule y) then x else y := by
  unfold intMin
  cases ty.isS <;> rfl
theorem intMax_eq (ty : Ty) (w : Nat) (x y : BitVec w) :
    intMax ty w x y = if (if ty.isS then x.sle y else x.ule y) then y else x := by
  unfold intMax
  cases ty.isS <;> rfl

/-- Settles O25: each minor is one float and one integer operation on the active lanes. -/
theorem vectorOperations : Obligations.VectorOperations := by
  refine ⟨fun p ty d a b => ?_, fun w n m dst f hw hsize hn k hk => ?_⟩
  · intro R same
    have row {i : Instr} {ff : FFmt → FEnv → Nat → Nat → Nat × FFlags}
        {fi : (w : Nat) → BitVec w → BitVec w → BitVec w}
        {fi' : BitVec ty.width → BitVec ty.width → BitVec ty.width}
        (hexec : ∀ s, exec i s = vop p ty d a b s ff fi) (hop : ∀ x y, fi ty.width x y = fi' x y) : R i ff fi' :=
      writesV_vop hexec (fun f h c k => by simp only [h]) fun h c k => by simp only [h, hop]
    clear_value R
    refine ⟨row (fun _ => exec_vopAdd ..) fun _ _ => rfl, row (fun _ => exec_vopSub ..) fun _ _ => rfl,
      row (fun _ => exec_vopMul ..) fun _ _ => rfl, row (fun _ => exec_vopMin ..) (intMin_eq ty _),
      row (fun _ => exec_vopMax ..) (intMax_eq ty _), row (fun _ => exec_vopAdds ..) fun _ _ => rfl,
      row (fun _ => exec_vopSubs ..) fun _ _ => rfl, row (fun _ => exec_vopAnd ..) fun _ _ => rfl,
      row (fun _ => exec_vopOr ..) fun _ _ => rfl, row (fun _ => exec_vopXor ..) fun _ _ => rfl,
      row (fun _ => exec_vopAndn ..) fun _ _ => rfl, row (fun _ => exec_vopShl ..) fun _ _ => rfl,
      row (fun _ => exec_vopShr ..) fun _ _ => rfl, row (fun _ => exec_vopSar ..) fun _ _ => rfl,
      row (fun _ => exec_vopMulhi ..) fun _ _ => rfl, ?_, ?_⟩
    · exact writesV_vop (fun _ => exec_vopAbs ..) (fun f h c k => by simp only [h]) fun h c k => by simp only [h]
    · exact writesV_vop (fun _ => exec_vopNeg ..) (fun f h c k => by simp only [h]) fun h c k => by simp only [h]
  · have hend : w * (k + 1) ≤ 256 := hsize ▸ Nat.mul_le_mul_left w hk
    rw [lane_overLanes w m dst f n hend]
    simp only [hk, true_and]

/-! ## Fused multiply-adds, dot products, VDIV and VSQRT (13 R194–R196) -/

theorem writesV_vfma {i : Instr} {p : Pred} {ty : Ty} {f : FFmt} {np nc : Bool} {d a b e : V}
    (hf : Ty.fmt? ty = some f) (hexec : ∀ s, exec i s = vfma np nc p ty d a b e s) :
    WritesV i p ty.lanes ty.width d fun c k =>
      fFma f c.fenv np nc (lane ty.width (c.getV a) k).toNat (lane ty.width (c.getV b) k).toNat
        (lane ty.width (c.getV e) k).toNat :=
  writesV_vecV hexec fun c k => by rw [hf]; rfl
/-- The lanes and flags wait in the operation that the instruction opens (13 R195). -/
theorem runsV_vlong {i : Instr} {p : Pred} {n : La} {ty : Ty} {d : V} {g g' : Ctx → Nat → Nat × FFlags}
    (hexec : ∀ s, exec i s = vlong p n ty d s g) (hval : ∀ c k, g c k = g' c k) :
    RunsV i p ty.lanes (fun _ _ => True) fun c m t =>
      (t.addOp c 8 n (.calcV d (overLanes ty.width m (c.getV d) (g' c) ty.lanes).1
        (overLanes ty.width m (c.getV d) (g' c) ty.lanes).2) (vMask := vBit d)).after (if ty.width = 32 then 55 else 31)
        (.longLatencyComplete t.slot t.opId (.advance 0)) := by
  have hg : g = g' := funext₂ hval
  exact runsV_issueV hexec fun _ _ _ => by rw [hg]
/-- VDOT on integers: the products of the elements that share a 32-bit lane (13 R196). -/
theorem dotLane_int {ty : Ty} (h : Ty.fmt? ty = none) (env : FEnv) (d a b : BitVec 256) (k : Nat) :
    dotLane ty env d a b k = ((BitVec.ofInt 32 ((lane 32 d k).toInt + (List.range (32 / ty.width)).foldl
      (fun z j => z + dotInt ty a (32 / ty.width * k + j) * dotInt ty b (32 / ty.width * k + j)) (0 : Int))).toNat, 0) := by
  rw [dotLane, h]

/-- Settles O26: the format of the type fixes the operation of each lane. -/
theorem vectorFloatArithmetic : Obligations.VectorFloatArithmetic := by
  refine ⟨fun p n f ty d a b e hf => ?_, fun p ty d a b hint => ?_⟩
  · intro x F D
    exact ⟨writesV_vfma hf fun _ => exec_vfma .., writesV_vfma hf fun _ => exec_vfmaFms ..,
      writesV_vfma hf fun _ => exec_vfmaFnma .., writesV_vfma hf fun _ => exec_vfmaFnms ..,
      writesV_vecV (fun _ => exec_vdot ..) fun _ _ => rfl,
      runsV_vlong (fun _ => exec_vdiv ..) fun _ _ => by rw [hf]; rfl,
      runsV_vlong (fun _ => exec_vsqrt ..) fun _ _ => by rw [hf]; rfl⟩
  · exact writesV_vecV (fun _ => exec_vdot ..) fun c k => dotLane_int hint c.fenv (c.getV d) (c.getV a) (c.getV b) k

/-! ## VCMP, VSEL and VCVT (13 R197–R199) -/

theorem flagBit_getLsbD (b : Bool) (n : Nat) {i : Nat} (hi : i < 32) :
    (BitVec.ofNat 32 (if b then 1 <<< n else 0)).getLsbD i = (b && decide (n = i)) := by
  rw [BitVec.getLsbD_ofNat, decide_eq_true hi, Bool.true_and]
  cases b with
  | false => exact Nat.zero_testBit i
  | true => rw [if_pos rfl, Nat.one_shiftLeft, Nat.testBit_two_pow, Bool.true_and]
theorem vcmpBits_getLsbD (m old : BitVec 32) (f : Nat → Bool × FFlags) (n : Nat) {i : Nat} (hi : i < 32) :
    (vcmpBits m old f n).1.getLsbD i = (decide (i < n) && if m.getLsbD i then (f i).1 else old.getLsbD i) := by
  induction n with
  | zero => simp [vcmpBits]
  | succ n ih =>
    have hstep : (vcmpBits m old f (n + 1)).1 = (vcmpBits m old f n).1 |||
        BitVec.ofNat 32 (if (if m.getLsbD n then f n else (old.getLsbD n, 0)).1 then 1 <<< n else 0) := rfl
    rw [hstep, BitVec.getLsbD_or, ih, flagBit_getLsbD _ _ hi]
    by_cases hin : n = i
    · subst hin
      cases m.getLsbD n <;> simp
    · have hlt : i < n + 1 ↔ i < n := by omega
      simp [hin, hlt]

/-- Settles O27: the three write what their lanes' results say. -/
theorem vectorComparesAndConversions : Obligations.VectorComparesAndConversions := by
  intro p cc ty src dst q d v a b c j
  refine ⟨⟨fun k m => vcmpBits m (k.getP q)
      (fun i => vcmpLane cc ty k.fenv (lane ty.width (k.getV a) i) (lane ty.width (k.getV b) i)) ty.lanes, ?_, ?_⟩, ?_, ?_⟩
  · exact runsV_issueV (fun _ => exec_vcmp ..) fun _ _ _ => rfl
  · exact fun k m i hi => vcmpBits_getLsbD m _ _ _ hi
  · exact writesV_vecV (fun _ => exec_vsel ..) fun _ _ => rfl
  · exact runsV_issueV (fun _ => exec_vcvt ..) fun _ _ _ => rfl

/-! ## Reductions and lane movements (13 R201–R204) -/

theorem Ty.toG_lane (ty : Ty) (x : BitVec ty.width) :
    Ty.toG ty x.toNat = if ty.isS then x.signExtend 64 else BitVec.ofNat 64 x.toNat := by
  rw [Ty.toG, BitVec.ofNat_toNat, BitVec.setWidth_eq, Nat.mod_eq_of_lt x.isLt]

/-- Settles O28: a reduction is one tree over the active lanes, a movement one choice for each lane. -/
theorem laneResults : Obligations.LaneResults := by
  refine ⟨fun p ty d a => ?_, fun p ty d a b e g idx => ?_⟩
  · intro R same
    have row {i : Instr} {ff : FFmt → FEnv → Nat → Nat → Nat × FFlags}
        {fi : (w : Nat) → BitVec w → BitVec w → BitVec w} (hexec : ∀ s, exec i s = vred p ty d a s ff fi) : R i ff fi :=
      runsV_issueV hexec fun _ _ _ => rfl
    clear_value R
    exact ⟨row fun _ => exec_vredAdd .., row fun _ => exec_vredMin .., row fun _ => exec_vredMax ..,
      row fun _ => exec_vredAnd .., row fun _ => exec_vredOr .., row fun _ => exec_vredXor ..⟩
  · intro at1
    exact ⟨writesV_vecV (fun _ => exec_vperm ..) fun _ _ => rfl, writesV_vecV (fun _ => exec_vbcast ..) fun _ _ => rfl,
      writesV_vecV (fun _ => exec_vbcastLane ..) fun _ _ => rfl, writesV_vecV (fun _ => exec_vmov ..) fun _ _ => rfl,
      writesV_vecV (fun _ => exec_vmovZero ..) fun _ _ => rfl, runsV_issueV (fun _ => exec_vins ..) fun _ _ _ => rfl,
      runsV_issueV (fun _ => exec_vext ..) fun c _ _ => by rw [Ty.toG_lane]⟩

end Sys2Proof.Machine
end

section
/-! SUPPORT. O23: vector loads and stores open their operations (13 R205–R209). -/
namespace Sys2Proof.Machine

theorem vecTrap_none {t : State} {i : Instr} {c : Ctx} (h : ∀ q ∈ vecChecks i c, AddrOk t q.1 q.2) :
    t.vecTrap i c = none := List.findSome?_eq_none_iff.mpr fun q hq => (h q hq).checkEa

section
variable {i : Instr} {p : Pred} {n : La} {lanes : Nat} {d : V} {pair : Bool}

theorem vecLoad_runs (hexec : ∀ s, exec i s = vecLoad i p n lanes d pair s) :
    RunsV i p lanes (fun c t => ∀ q ∈ vecChecks i c, AddrOk t q.1 q.2) fun c _ t =>
      t.launchOp c n (.vload d pair (loadParts (vecPieces i c))) (loadAccs (vecPieces i c))
        (vMask := if pair then vBit d ||| vBit (d + 1) else vBit d) (ins := some i) := by
  intro s hm hok
  rw [hexec, vecLoad, issueV_runs hm, vecTrap_none hok]
  rfl
theorem vecStore_runs (hexec : ∀ s, exec i s = vecStore i p n lanes d pair s) :
    let accs := fun (c : Ctx) =>
      storeAccs (vecPieces i c) (if pair then c.getPair (d.extractLsb' 1 3) else (c.getV d).setWidth 512)
    RunsV i p lanes (fun c t => (∀ q ∈ vecChecks i c, AddrOk t q.1 q.2) ∧ t.localHeld c (accs c) = false)
      fun c _ t => t.launchOp c n .store (accs c) (counted := true) := by
  intro accs s hm ⟨hok, hfree⟩
  rw [hexec, vecStore, issueV_runs hm, vecTrap_none hok]
  exact congrArg (fun x : Act => x.finish s 8) (storeOp_free hfree)
end

/-! ## Lanes and their bytes (13 R205, R206) -/

theorem mem_lanePieces {m : BitVec 32} {n w : Nat} {ea : Nat → Word} {q : Piece} : q ∈ lanePieces m n w ea ↔
    ∃ k, k < n ∧ m.getLsbD k = true ∧ q = { dst := w * k, ea := ea k, len := w } := by
  simp only [lanePieces, List.mem_map, List.mem_filter, List.mem_range, and_assoc, eq_comm (b := q)]
/-- A lane's address keeps the target of a coordinate base (13 R206). -/
theorem laneEa_global {base : Word} (off : Word) (h : isCoord base = false) : laneEa base off = base + off :=
  if_neg (by rw [h]; exact Bool.false_ne_true)
theorem laneEa_coord {base : Word} (off : Word) (h : isCoord base = true) :
    (laneEa base off).extractLsb' 42 22 = base.extractLsb' 42 22 ∧
      (laneEa base off).setWidth 42 = (base + off).setWidth 42 := by
  rw [laneEa, if_pos h]
  exact leaOff_fields base off

/-! ## Touched granules (13 R207) -/

theorem mem_insertAsc {x g : Nat} {l : List Nat} : g ∈ insertAsc x l ↔ g = x ∨ g ∈ l := by
  induction l with
  | nil => simp [insertAsc]
  | cons y r ih =>
    rw [insertAsc]
    split
    · exact List.mem_cons
    · split
      next h => subst h; simp
      · rw [List.mem_cons, ih, List.mem_cons]
        exact or_left_comm
theorem insertAsc_ascending {x : Nat} {l : List Nat} (h : l.Pairwise (· < ·)) : (insertAsc x l).Pairwise (· < ·) := by
  induction l with
  | nil => exact List.pairwise_singleton _ _
  | cons y r ih =>
    obtain ⟨hy, hr⟩ := List.pairwise_cons.mp h
    rw [insertAsc]
    split
    next hlt =>
      refine List.pairwise_cons.mpr ⟨fun g hg => ?_, h⟩
      rcases List.mem_cons.mp hg with rfl | hg
      · exact hlt
      · exact hlt.trans (hy g hg)
    next hge =>
      split
      · exact h
      next hne =>
        refine List.pairwise_cons.mpr ⟨fun g hg => ?_, ih hr⟩
        rcases mem_insertAsc.mp hg with rfl | hg
        · omega
        · exact hy g hg
theorem granulesOf_ascending (l : List Piece) : (granulesOf l).Pairwise (· < ·) := by
  induction l with
  | nil => exact List.Pairwise.nil
  | cons q l ih => exact insertAsc_ascending ih
theorem mem_granulesOf {l : List Piece} {g : Nat} : g ∈ granulesOf l ↔ ∃ q ∈ l, q.ea.toNat / 64 = g := by
  induction l with
  | nil => simp [granulesOf]
  | cons q l ih => rw [granulesOf, List.foldr_cons, mem_insertAsc, ← granulesOf, ih, List.exists_mem_cons_iff, eq_comm]

/-- Settles O23: each form is a load or a store of its lanes' pieces, whose granules are listed once each, ascending. -/
theorem vectorMemoryIssue : Obligations.VectorMemoryIssue := by
  refine ⟨fun p n g sc ty d bv a b disp => ?_, fun p n g sc ty d bv a b disp c q => ?_, fun l x base off => ?_⟩
  · intro ok L S
    exact ⟨vecLoad_runs fun _ => exec_vld .., vecStore_runs fun _ => exec_vst .., vecLoad_runs fun _ => exec_vldb ..,
      vecStore_runs fun _ => exec_vstb .., vecLoad_runs fun _ => exec_vlds .., vecStore_runs fun _ => exec_vsts ..,
      vecLoad_runs fun _ => exec_vgath .., vecStore_runs fun _ => exec_vscat ..⟩
  · intro ea lanes each index
    have both {P : Instr → Prop} {i j : Instr} (hi : P i) (hj : P j) : ∀ k ∈ [i, j], P k :=
      List.forall_mem_cons.mpr ⟨hi, List.forall_mem_singleton.mpr hj⟩
    exact ⟨both ⟨mem_lanePieces, rfl⟩ ⟨mem_lanePieces, rfl⟩, both ⟨mem_lanePieces, rfl⟩ ⟨mem_lanePieces, rfl⟩,
      both ⟨mem_lanePieces, rfl⟩ ⟨mem_lanePieces, rfl⟩, both ⟨mem_lanePieces, rfl⟩ ⟨mem_lanePieces, rfl⟩⟩
  · exact ⟨granulesOf_ascending l, fun g => mem_granulesOf, List.length_map _, List.length_map _, laneEa_global off,
      laneEa_coord off⟩

end Sys2Proof.Machine
end

section
/-! SUPPORT. O29: copy instructions, the runs that they form, and compact addresses (13 R223–R226, Table 13-6). -/
namespace Sys2Proof.Machine

/-! ## Admission (13 R225, R226; 19 R390) -/

section
variable {i : Instr} {p : Pred} {o : CopyOpt} {form : Ctx → State → CopyForm} {l : List CopyPart}
  (hexec : ∀ s, exec i s = copyInstr p o s form)
include hexec

theorem copyInstr_admits : Runs .any i p 16
    (fun c t => form c t = .parts l ∧ t.copyEnds l = none ∧ (l.all fun q => q.len == 0) = false ∧
      t.myCore.drained t.cx = true ∧ t.myCore.copyRoom t.cx l.length = true)
    fun c t => t.admitCopies c o l := by
  intro s hadm hp ⟨hform, hends, hlen, hdrained, hroom⟩
  rw [hexec, copyInstr, issue_runs hadm hp]
  simp only [hform, hends, hlen, hdrained, hroom]
  rfl
theorem copyInstr_loses : Loses .any i p 16 fun c t => form c t = .parts l ∧ t.copyEnds l = none ∧
    (l.all fun q => q.len == 0) = false ∧ t.myCore.drained t.cx = false := by
  intro s hadm hp ⟨hform, hends, hlen, hdrained⟩
  rw [hexec, copyInstr, issue_runs hadm hp]
  simp only [hform, hends, hlen, hdrained]
  rfl
theorem copyInstr_empty (s : State) (hp : s.me.test p = true) (hform : form s.me (s.issued 16) = .parts l)
    (hends : (s.issued 16).copyEnds l = none) (hlen : (l.all fun q => q.len == 0) = true) :
    exec i s = .next (s.skipped 16) := by
  rw [hexec, copyInstr, issue_runs rfl hp]
  simp only [hform, hends, hlen]
  rfl
theorem copyInstr_bad (key : Nat) :
    Runs .any i p 16 (fun c t => form c t = .bad key) fun c t => t.checkAtIssue c key := by
  intro s hadm hp hform
  rw [hexec, copyInstr, issue_runs hadm hp, hform]
  rfl
end

/-! ## Compact addresses (13 Table 13-6) -/

theorem extract_zero_six {x : Word} (h : x.toNat % 64 = 0) : x.extractLsb' 0 6 = 0#6 := by
  apply BitVec.eq_of_toNat_eq
  rw [extract_toNat]
  simpa using h
/-- Two neighbouring fields of a word are one. -/
theorem extract_append (x : Word) {lo m n k : Nat} (hk : lo + n = k) :
    x.extractLsb' k m ++ x.extractLsb' lo n = x.extractLsb' lo (m + n) := by
  subst hk
  ext i hi
  rw [BitVec.getElem_append]
  split
  · simp
  · simp only [BitVec.getElem_extractLsb']
    congr 1; omega
theorem extract_all (x : Word) : x.extractLsb' 0 64 = x := by
  ext i hi
  simp
/-- Bit 51 of a compact address tells the two forms apart. -/
theorem compactAddr_form (x : Word) : (compactAddr x).getLsbD 51 = isCoord x := by
  have skip {m n : Nat} {y : BitVec m} {z : BitVec n} {s : Nat} {b : Bool} (hs : n ≤ s)
      (hb : y.getLsbD (s - n) = b) : (y ++ z).getLsbD s = b := by
    rw [BitVec.getLsbD_append, if_neg (Nat.not_lt.mpr hs), hb]
  rw [compactAddr]
  cases isCoord x with
  | false => exact skip (by decide) rfl
  | true =>
    rw [if_pos rfl]
    iterate 6 refine skip (by decide) ?_
    rfl
theorem expandAddr_compactAddr_global {x : Word} (hal : x.toNat % 64 = 0) (hlt : x.toNat < 2 ^ 57) :
    expandAddr (compactAddr x) = x := by
  have hglobal : isCoord x = false := by
    rw [isCoord, BitVec.getLsbD, Nat.testBit_lt_two_pow (hlt.trans (by decide))]
  have hhigh : x.extractLsb' 57 7 = 0#7 := by
    apply BitVec.eq_of_toNat_eq
    rw [extract_toNat, Nat.div_eq_of_lt hlt]
    rfl
  rw [expandAddr, compactAddr_form, hglobal, if_neg Bool.false_ne_true, compactAddr, hglobal,
    if_neg Bool.false_ne_true, Laws.extract_low, ← hhigh, ← extract_zero_six hal]
  iterate 2 rw [extract_append x (by decide)]
  exact extract_all x
/-- The fields of a coordinate address's compact form. -/
theorem compactAddr_fields {x : Word} (h : isCoord x = true) :
    (compactAddr x).extractLsb' 50 1 = x.extractLsb' 62 1 ∧ (compactAddr x).extractLsb' 48 2 = x.extractLsb' 58 2 ∧
      (compactAddr x).extractLsb' 40 8 = x.extractLsb' 50 8 ∧ (compactAddr x).extractLsb' 32 8 = x.extractLsb' 42 8 ∧
      (compactAddr x).extractLsb' 0 16 = x.extractLsb' 6 16 := by
  have skip {m n : Nat} {y : BitVec m} {z : BitVec n} {s k : Nat} {v : BitVec k} (hs : n ≤ s)
      (hv : y.extractLsb' (s - n) k = v) : (y ++ z).extractLsb' s k = v := (Laws.extract_skip y z s k hs).trans hv
  rw [compactAddr, if_pos h]
  refine ⟨?_, ?_, ?_, ?_, Laws.extract_low _ _⟩
  · iterate 5 refine skip (by decide) ?_
    exact Laws.extract_low _ _
  · iterate 4 refine skip (by decide) ?_
    exact Laws.extract_low _ _
  · iterate 3 refine skip (by decide) ?_
    exact Laws.extract_low _ _
  · iterate 2 refine skip (by decide) ?_
    exact Laws.extract_low _ _
theorem expandAddr_compactAddr_coord {x : Word} (hal : x.toNat % 64 = 0) (hcoord : isCoord x = true)
    (hhigh : x.extractLsb' 60 2 = 0#2) (hmid : x.extractLsb' 22 20 = 0#20) : expandAddr (compactAddr x) = x := by
  have hone : x.extractLsb' 63 1 = 1#1 := by
    ext i hi
    obtain rfl : i = 0 := by omega
    simpa [isCoord] using hcoord
  obtain ⟨hrel, hlevel, htx, hty, hoff⟩ := compactAddr_fields hcoord
  rw [expandAddr, compactAddr_form, if_pos hcoord, hrel, hlevel, htx, hty, hoff, ← hone, ← hhigh, ← hmid,
    ← extract_zero_six hal]
  iterate 8 rw [extract_append x (by decide)]
  exact extract_all x

/-! ## Runs (13 R223, R224) -/

theorem odd64_eq_false {a : Word} (h : a.toNat % 64 = 0) : odd64 a = false := by simp [odd64, h]
/-- Pieces of `c` bytes of `l` bytes, the last one what is left. -/
theorem sum_pieces (c l n : Nat) : ((List.range n).map fun k => min c (l - c * k)).sum = min l (c * n) := by
  induction n with
  | zero => simp
  | succ n ih =>
    rw [List.range_succ, List.map_append, List.sum_append, ih, List.map_singleton, List.sum_singleton, Nat.mul_succ]
    omega

section
variable {dst src len : Word} (hdst : dst.toNat % 64 = 0) (hlen : len.toNat % 64 = 0)
include hdst hlen

theorem copyForm_parts (hsrc : src.toNat % 64 = 0) (hpos : 0 < len.toNat) (hmax : len.toNat ≤ 8 * 2 ^ 20) :
    copyForm dst src len = .parts ((List.range ((len.toNat + 262143) / 262144)).map fun k =>
      ⟨laneEa dst (BitVec.ofNat 64 (262144 * k)), laneEa src (BitVec.ofNat 64 (262144 * k)),
        min 262144 (len.toNat - 262144 * k)⟩) := by
  simp only [copyForm, odd64_eq_false hdst, odd64_eq_false hsrc, odd64_eq_false hlen, if_neg (Nat.not_lt.mpr hmax),
    if_neg hpos.ne', Bool.false_eq_true, if_false]
theorem copysForm_parts {k ds ss : Word} (hsrc : src.toNat % 64 = 0) (hds : ds.toNat % 64 = 0) (hss : ss.toNat % 64 = 0)
    (hmax : len.toNat ≤ 262144) (hpos : 0 < k.toNat) (hrows : k.toNat ≤ 32) :
    copysForm dst src len k ss ds = .parts ((List.range k.toNat).map fun r =>
      ⟨laneEa dst (BitVec.ofNat 64 r * ds), laneEa src (BitVec.ofNat 64 r * ss), len.toNat⟩) := by
  have hk : k ≠ 0 := by rintro rfl; exact absurd hpos (by decide)
  simp only [copysForm, odd64_eq_false hdst, odd64_eq_false hsrc, odd64_eq_false hlen, odd64_eq_false hds,
    odd64_eq_false hss, Nat.not_lt.mpr hmax, hk, Nat.not_lt.mpr hrows, or_self, Bool.false_eq_true, if_false]
/-- COPYG's list lies in the issuing core's local store and reads without a failing check. -/
theorem copygForm_parts {t : State} {scatter : Bool} {list k : Word} {g g' : Target} (hmax : len.toNat ≤ 262144)
    (hpos : 0 < k.toNat) (hcount : k.toNat ≤ 32) (hcoord : isCoord list = true) (hlevel : coordLevel list = 0)
    (hal : list.toNat % 8 = 0) (hfirst : t.checkAddr t.slot list = .ok g)
    (hlast : t.checkAddr t.slot (laneEa list (BitVec.ofNat 64 (8 * k.toNat - 1))) = .ok g')
    (hwords : ∀ i, i < k.toNat → (t.listWord list i).toNat % 64 = 0 ∧ t.eccOf (t.listKey list i) ≠ 2) :
    t.copygForm scatter dst list len k = .parts ((List.range k.toNat).map fun i =>
      let e := ((List.range k.toNat).map fun i => t.listWord list i).getD i 0
      let m := laneEa dst (BitVec.ofNat 64 i * len)
      if scatter then ⟨e, m, len.toNat⟩ else ⟨m, e, len.toNat⟩) := by
  have hk : k ≠ 0 := by rintro rfl; exact absurd hpos (by decide)
  have hgood : ((List.range k.toNat).map (t.listKey list)).find? (fun q => t.eccOf q == 2) = none := by
    simp only [List.find?_eq_none, List.forall_mem_map, List.mem_range, beq_iff_eq]
    exact fun i hi => (hwords i hi).2
  have heven : ((List.range k.toNat).map fun i => t.listWord list i).find? odd64 = none := by
    simp only [List.find?_eq_none, List.forall_mem_map, List.mem_range]
    exact fun i hi => by simp [odd64_eq_false (hwords i hi).1]
  simp only [State.copygForm, odd64_eq_false hdst, odd64_eq_false hlen, Nat.not_lt.mpr hmax, hk, Nat.not_lt.mpr hcount,
    hcoord, hlevel, List.findSome?_cons, List.findSome?_nil, hfirst, hlast, aligned, hal, hgood, heven, or_self,
    Bool.false_eq_true, if_false, not_true_eq_false, ne_eq]
  rfl
end

/-- Settles O29: admission and its refusals by the checks' answers, the runs of each form, and the two compact forms. -/
theorem copiesAdmitted : Obligations.CopiesAdmitted := by
  refine ⟨fun p o a b e f g h l => ?_, fun x hal => ⟨expandAddr_compactAddr_global hal,
    expandAddr_compactAddr_coord hal⟩, fun dst src len k ds ss t scatter => ?_⟩
  · intro C
    have row {i : Instr} {form : Ctx → State → CopyForm} (hexec : ∀ s, exec i s = copyInstr p o s form) : C i form :=
      ⟨copyInstr_admits hexec, copyInstr_loses hexec, copyInstr_empty hexec, copyInstr_bad hexec⟩
    clear_value C
    exact ⟨row fun _ => exec_copy .., row fun _ => exec_copys .., row fun _ => exec_copygG .., row fun _ => exec_copygS ..⟩
  · intro whole at_
    refine ⟨fun hdst hsrc hlen hpos hmax => ⟨_, copyForm_parts hdst hlen hsrc hpos hmax, ?_, ?_, ?_⟩,
      fun hdst hsrc hlen hds hss hmax hpos hrows =>
        ⟨_, copysForm_parts hdst hlen hsrc hds hss hmax hpos hrows, ?_, ?_⟩, ?_⟩
    · simp
    · rw [List.map_map]
      refine (sum_pieces 262144 len.toNat _).trans ?_
      omega
    · intro i hi
      simp only [List.getElem_map, List.getElem_range]
      exact ⟨rfl, rfl, Nat.min_le_left ..⟩
    · simp
    · intro i hi
      simp
    · rintro hdst hlen hmax hpos hcount hcoord hlevel hal ⟨_, hfirst⟩ ⟨_, hlast⟩ hwords
      refine ⟨_, copygForm_parts hdst hlen hmax hpos hcount hcoord hlevel hal hfirst hlast hwords, by simp, ?_⟩
      intro i hi
      have hik : i < k.toNat := by simpa using hi
      simp [hik]

end Sys2Proof.Machine
end

section
/-! SUPPORT. O30: batches, waits, the state word and the tag table (13 R220, R227–R237). -/
namespace Sys2Proof.Machine

section
variable {who : Issuer} {i : Instr} {p : Pred} {len : Nat} {body : Ctx → State → Act} {pre : Ctx → State → Prop}
  (hexec : ∀ s, exec i s = issue who p len s body)
include hexec

theorem runs_issue {f : Ctx → State → State} (hbody : ∀ c t, pre c t → body c t = .ok (f c t)) :
    Runs who i p len pre f := by
  intro s hadm hp hpre
  rw [hexec, issue_runs hadm hp, hbody _ _ hpre]
  rfl
theorem loses_issue (hbody : ∀ c t, pre c t → body c t = .lose) : Loses who i p len pre := by
  intro s hadm hp hpre
  rw [hexec, issue_runs hadm hp, hbody _ _ hpre]
  rfl
end

/-! ## The state word (13 Table 13-9) -/

/-- Commands of a context's thread that stand in queue `q`. -/
def Core.queued (k : Core) (x : CtxId) (q : BitVec 2) : Nat :=
  ((k.cmdsOf x).filter fun m => !m.held && m.queue == q).length
/-- Commands of its open batch. -/
def Core.heldCmds (k : Core) (x : CtxId) : Nat := ((k.cmdsOf x).filter fun m => m.held).length
/-- A barrier of a context is armed. -/
def Core.armed (k : Core) (x : CtxId) (j : Fin 4) : Bool := ((k.ctx x).bars[j]).armed

theorem Core.cstat_toNat (k : Core) (x : CtxId) (hall : k.cmds.length ≤ 96) (hmine : (k.cmdsOf x).length ≤ 32) :
    (k.cstat x).toNat = k.queued x 0 + k.queued x 1 * 2 ^ 8 + k.queued x 2 * 2 ^ 16 + k.queued x 3 * 2 ^ 24 +
      k.heldCmds x * 2 ^ 32 + (k.ctx x).batch.toNat * 2 ^ 40 + (k.armed x 0).toNat * 2 ^ 44 + (k.armed x 1).toNat * 2 ^ 45 +
      (k.armed x 2).toNat * 2 ^ 46 + (k.armed x 3).toNat * 2 ^ 47 + (96 - k.cmds.length) * 2 ^ 56 := by
  have hq (q : BitVec 2) : k.queued x q ≤ 32 := (List.length_filter_le _ _).trans hmine
  have hheld : k.heldCmds x ≤ 32 := (List.length_filter_le _ _).trans hmine
  have hbit (b : Bool) (n : Nat) : (if b then 2 ^ n else 0) = b.toNat * 2 ^ n := by cases b <;> simp
  have hbars : (List.range 4).foldl
      (fun a i => a + if ((k.ctx x).bars[i]?.map Barrier.armed).getD false then 2 ^ i else 0) 0 =
      0 + (k.armed x 0).toNat * 2 ^ 0 + (k.armed x 1).toNat * 2 ^ 1 + (k.armed x 2).toNat * 2 ^ 2 +
        (k.armed x 3).toNat * 2 ^ 3 := by
    simp only [← hbit]
    rfl
  have := hq 0
  have := hq 1
  have := hq 2
  have := hq 3
  have := (k.ctx x).batch.toNat_le
  have := (k.armed x 0).toNat_le
  have := (k.armed x 1).toNat_le
  have := (k.armed x 2).toNat_le
  have := (k.armed x 3).toNat_le
  show (BitVec.ofNat 64 (k.queued x 0 + k.queued x 1 * 2 ^ 8 + k.queued x 2 * 2 ^ 16 + k.queued x 3 * 2 ^ 24 +
    k.heldCmds x * 2 ^ 32 + (if (k.ctx x).batch then 2 ^ 40 else 0) + _ * 2 ^ 44 + (96 - k.cmds.length) * 2 ^ 56)).toNat = _
  rw [hbars, hbit, BitVec.toNat_ofNat]
  omega
/-- The fields of a word that is the sum of its fields. -/
theorem cstat_fields {w : Word} {q0 q1 q2 q3 h free : Nat} {b a0 a1 a2 a3 : Bool}
    (hw : w.toNat = q0 + q1 * 2 ^ 8 + q2 * 2 ^ 16 + q3 * 2 ^ 24 + h * 2 ^ 32 + b.toNat * 2 ^ 40 + a0.toNat * 2 ^ 44 +
      a1.toNat * 2 ^ 45 + a2.toNat * 2 ^ 46 + a3.toNat * 2 ^ 47 + free * 2 ^ 56)
    (h0 : q0 ≤ 32) (h1 : q1 ≤ 32) (h2 : q2 ≤ 32) (h3 : q3 ≤ 32) (hh : h ≤ 32) (hf : free ≤ 96) :
    let f := fun (lo n : Nat) => (w.extractLsb' lo n).toNat
    f 0 6 = q0 ∧ f 8 6 = q1 ∧ f 16 6 = q2 ∧ f 24 6 = q3 ∧ f 32 6 = h ∧ w.getLsbD 40 = b ∧
      (w.getLsbD 44 = a0 ∧ w.getLsbD 45 = a1 ∧ w.getLsbD 46 = a2 ∧ w.getLsbD 47 = a3) ∧ f 56 8 = free ∧
      f 6 2 = 0 ∧ f 14 2 = 0 ∧ f 22 2 = 0 ∧ f 30 2 = 0 ∧ f 38 2 = 0 ∧ f 41 3 = 0 ∧ f 48 8 = 0 := by
  have := b.toNat_le
  have := a0.toNat_le
  have := a1.toNat_le
  have := a2.toNat_le
  have := a3.toNat_le
  have bit {n : Nat} {v : Bool} (hv : w.toNat / 2 ^ n % 2 = v.toNat) : w.getLsbD n = v := by
    rw [BitVec.getLsbD, Nat.testBit_eq_decide_div_mod_eq, hv]
    cases v <;> rfl
  simp only [extract_toNat]
  refine ⟨?_, ?_, ?_, ?_, ?_, bit ?_, ⟨bit ?_, bit ?_, bit ?_, bit ?_⟩, ?_, ?_, ?_, ?_, ?_, ?_, ?_, ?_⟩ <;> omega

/-! ## The tag table (13 R234–R237) -/

/-- In an ascending list the first element that passes is the least one. -/
theorem find?_least {l : List Nat} {P : Nat → Bool} {k : Nat} (hl : l.Pairwise (· < ·)) (hk : k ∈ l) (hpass : P k = true)
    (hleast : ∀ j ∈ l, j < k → P j = false) : l.find? P = some k := by
  obtain ⟨before, behind, rfl⟩ := List.append_of_mem hk
  refine List.find?_eq_some_iff_append.mpr ⟨hpass, before, behind, rfl, fun j hj => ?_⟩
  rw [hleast j (List.mem_append_left _ hj) ((List.pairwise_append.mp hl).2.2 j hj k List.mem_cons_self)]
  rfl
theorem range_find?_least {n k : Nat} {P : Nat → Bool} (hk : k < n) (hpass : P k = true)
    (hleast : ∀ j, j < k → P j = false) : (List.range n).find? P = some k :=
  find?_least List.pairwise_lt_range (List.mem_range.mpr hk) hpass fun j _ => hleast j
theorem range_find?_none {n : Nat} {P : Nat → Bool} (h : ∀ j, j < n → P j = false) : (List.range n).find? P = none :=
  List.find?_eq_none.mpr fun j hj => by rw [h j (List.mem_range.mp hj)]; exact Bool.false_ne_true

section
variable {i : Instr} {p : Pred} {on : Ctx → List Nat} {reads : Bool} {body : Ctx → State → State}
  (hexec : ∀ s, exec i s = tagInstr p s on reads body)
include hexec

theorem tagInstr_loses : Loses .any i p 8 fun c t => ¬t.localHeld c ((on c).map tagAccess) = false :=
  loses_issue hexec fun _ _ hheld => if_pos ((Bool.not_eq_false _).mp hheld)
theorem tagInstr_runs : Runs .any i p 8 (fun c t => t.localHeld c ((on c).map tagAccess) = false ∧
    ∀ k ∈ on c, (reads && t.eccOf (tagKey t.slot k) == 2) = false) body := by
  refine runs_issue hexec fun c t ⟨hfree, hgood⟩ => ?_
  have hnone : (on c).find? (fun k => reads && t.eccOf (tagKey t.slot k) == 2) = none :=
    List.find?_eq_none.mpr fun k hk => by rw [hgood k hk]; exact Bool.false_ne_true
  simp only [hfree, hnone]
  rfl
/-- An entry that is read and fails its check halts the thread; of several the lowest (05 R88). -/
theorem tagInstr_fails (hon : ∀ c, (on c).Pairwise (· < ·)) (hreads : reads = true) (k : Nat) :
    Runs .any i p 8 (fun c t =>
      t.localHeld c ((on c).map tagAccess) = false ∧ k ∈ on c ∧ t.eccOf (tagKey t.slot k) = 2 ∧
      ∀ j ∈ on c, j < k → t.eccOf (tagKey t.slot j) ≠ 2) fun c t => t.checkAtIssue c (tagKey t.slot k / 64 * 64) := by
  refine runs_issue hexec fun c t ⟨hfree, hk, hbad, hleast⟩ => ?_
  have hfound : (on c).find? (fun k => reads && t.eccOf (tagKey t.slot k) == 2) = some k :=
    find?_least (hon c) hk (by simp [hreads, hbad]) fun j hj hlt => by simp [hleast j hj hlt]
  simp only [hfree, hfound]
  rfl
end

theorem tagMatch_iff (lo blk : Word) :
    tagMatch lo blk = true ↔ lo.getLsbD 0 = true ∧ lo.extractLsb' 6 58 = blk.extractLsb' 6 58 := by
  rw [tagMatch, Bool.and_eq_true, beq_iff_eq]

section
variable (t : State) (c : CoreId) (blk : Word)

/-- Entry `j` holds the block, at the generation where one is asked for (13 R235). -/
def State.tagHit (gen : Option (BitVec 6)) (j : Nat) : Bool :=
  tagMatch (t.tagLo c j) blk && gen.all fun g => (t.tagHi c j).setWidth 6 == g
theorem State.tagHit_iff (gen : Option (BitVec 6)) (j : Nat) : t.tagHit c blk gen j = true ↔
    ((t.tagLo c j).getLsbD 0 = true ∧ (t.tagLo c j).extractLsb' 6 58 = blk.extractLsb' 6 58) ∧
      ∀ g, gen = some g → (t.tagHi c j).extractLsb' 0 6 = g := by
  rw [State.tagHit, Bool.and_eq_true, tagMatch_iff, BitVec.setWidth_eq_extractLsb' (by decide)]
  cases gen <;> simp
/-- TAGL looks for a hit, then, where a generation is asked for, for a stale match, then for a free entry (13 R235). -/
theorem State.tagl_eq (gen : Option (BitVec 6)) : t.tagl c blk gen =
    match (List.range 64).find? (t.tagHit c blk gen) with
    | some i => BitVec.ofNat 64
        (i * 2 ^ 24 + ((t.tagHi c i).setWidth 6).toNat * 2 ^ 16 + ((t.tagHi c i).extractLsb' 32 10).toNat * 64)
    | none =>
      match (List.range 64).find? fun i => gen.isSome && tagMatch (t.tagLo c i) blk with
      | some i => BitVec.ofNat 64 (2 ^ 63 + 2 ^ 31 + i * 2 ^ 24)
      | none =>
        match (List.range 64).find? fun i => !(t.tagLo c i).getLsbD 0 with
        | some i => BitVec.ofNat 64 (2 ^ 63 + i * 2 ^ 24)
        | none => BitVec.ofNat 64 (2 ^ 63 + 2 ^ 30) := rfl
end
/-- What TAGL answers for its lowest hit (13 R235): entry, generation and slot. -/
theorem tagl_hitWord {i : Nat} (hi : i < 64) (g : BitVec 6) (slot : BitVec 10) :
    BitVec.ofNat 64 (i * 2 ^ 24 + g.toNat * 2 ^ 16 + slot.toNat * 64) =
      (BitVec.ofNat 64 i <<< 24) ||| (g.setWidth 64 <<< 16) ||| (slot.setWidth 64 <<< 6) := by
  have hg := g.isLt
  have hs := slot.isLt
  have hat : (BitVec.ofNat 64 i <<< 24).toNat = i * 2 ^ 24 := by
    simp [BitVec.toNat_shiftLeft, Nat.shiftLeft_eq]; omega
  have hgen : (g.setWidth 64 <<< 16 : Word).toNat = g.toNat * 2 ^ 16 := by
    simp [BitVec.toNat_shiftLeft, Nat.shiftLeft_eq]; omega
  have hslot : (slot.setWidth 64 <<< 6 : Word).toNat = slot.toNat * 64 := by
    simp [BitVec.toNat_shiftLeft, Nat.shiftLeft_eq]; omega
  have hpair : ((BitVec.ofNat 64 i <<< 24) ||| (g.setWidth 64 <<< 16) : Word).toNat = i * 2 ^ 24 + g.toNat * 2 ^ 16 := by
    rw [toNat_or_above (n := 24) (by omega) (by omega), hat, hgen]
  apply BitVec.eq_of_toNat_eq
  rw [toNat_or_above (n := 16) (by omega) (by omega), hpair, hslot, BitVec.toNat_ofNat]
  omega
/-- An entry's number beside the bits that say why TAGL misses. -/
theorem tagl_missWord {x : Word} {i : Nat} (hi : i < 64) (hx : x.toNat % 2 ^ 30 = 0) (hmax : x.toNat ≤ 2 ^ 63 + 2 ^ 31) :
    BitVec.ofNat 64 (x.toNat + i * 2 ^ 24) = x ||| (BitVec.ofNat 64 i <<< 24) := by
  have hat : (BitVec.ofNat 64 i <<< 24).toNat = i * 2 ^ 24 := by
    simp [BitVec.toNat_shiftLeft, Nat.shiftLeft_eq]; omega
  apply BitVec.eq_of_toNat_eq
  rw [toNat_or_above (n := 30) hx (by omega), hat, BitVec.toNat_ofNat]
  omega


/-- TAGL's answer where it finds no hit: of a stale match, of a free entry, or of neither (13 R235). -/
theorem tagl_of_noHit {t : State} {c : CoreId} {blk : Word} {gen : Option (BitVec 6)}
    (hnone : ∀ j, j < 64 → ¬t.tagHit c blk gen j = true) : t.tagl c blk gen =
      match (List.range 64).find? fun i => gen.isSome && tagMatch (t.tagLo c i) blk with
      | some i => BitVec.ofNat 64 (2 ^ 63 + 2 ^ 31 + i * 2 ^ 24)
      | none =>
        match (List.range 64).find? fun i => !(t.tagLo c i).getLsbD 0 with
        | some i => BitVec.ofNat 64 (2 ^ 63 + i * 2 ^ 24)
        | none => BitVec.ofNat 64 (2 ^ 63 + 2 ^ 30) := by
  rw [State.tagl_eq, range_find?_none fun j hj => Bool.eq_false_iff.mpr (hnone j hj)]

/-- Settles O30: batches and waits by their bodies, the state word by its sum of fields, the tag table by the entry that each
search finds. -/
theorem batchesAndTags : Obligations.BatchesAndTags := by
  refine ⟨fun p mask k n a d => ?_, fun core x hall hmine => ?_, fun p d a b e => ?_, fun t c blk gen i hi => ?_⟩
  · intro tickets
    refine ⟨runs_issue (fun _ => exec_cbatchOpen ..) fun _ _ _ => rfl,
      runs_issue (fun _ => exec_cbatchClose ..) fun _ _ _ => rfl, runs_issue (fun _ => exec_cwait ..) fun _ _ _ => rfl,
      runs_issue (fun _ => exec_cbinit ..) fun _ _ _ => rfl, runs_issue (fun _ => exec_cbwait ..) fun _ _ _ => rfl,
      runs_issue (fun _ => exec_cqf ..) fun _ _ _ => rfl, runs_issue (fun _ => exec_cstat ..) fun _ _ _ => rfl,
      runs_issue (fun _ => exec_cstatBar ..) fun _ _ _ => rfl⟩
  · intro w f queued
    have hqueued (q : BitVec 2) : core.queued x q ≤ 32 := (List.length_filter_le _ _).trans hmine
    obtain ⟨h0, h1, h2, h3, hheld, hbatch, ⟨a0, a1, a2, a3⟩, hfree, zeros⟩ :=
      cstat_fields (core.cstat_toNat x hall hmine) (hqueued 0) (hqueued 1) (hqueued 2) (hqueued 3)
        ((List.length_filter_le _ _).trans hmine) (Nat.sub_le _ _)
    exact ⟨h0, h1, h2, h3, hheld, hbatch, fun | 0 => a0 | 1 => a1 | 2 => a2 | 3 => a3, hfree, zeros⟩
  · intro entry key free good fails own all T
    have row {i : Instr} {on : Ctx → List Nat} {f : Ctx → State → State} (hon : ∀ c, (on c).Pairwise (· < ·))
        (hexec : ∀ s, exec i s = tagInstr p s on true f) : T i on f :=
      ⟨fun s hadm hp ⟨hfree, hgood⟩ =>
          tagInstr_runs hexec s hadm hp ⟨hfree, fun k hk => beq_eq_false_iff_ne.mpr (hgood k hk)⟩,
        tagInstr_loses hexec, tagInstr_fails hexec hon rfl⟩
    have one (c : Ctx) : (own c).Pairwise (· < ·) := List.pairwise_singleton _ _
    have every (c : Ctx) : (all c).Pairwise (· < ·) := List.pairwise_lt_range
    exact ⟨row every fun _ => exec_tagl .., row every fun _ => exec_taglG ..,
      fun s hadm hp hfree => tagInstr_runs (fun _ => exec_tags ..) s hadm hp ⟨hfree, fun _ _ => rfl⟩,
      tagInstr_loses fun _ => exec_tags .., row one fun _ => exec_tagi .., row every fun _ => exec_tagiAll ..,
      row every fun _ => exec_tagiBlk ..⟩
  · intro valid matches_ hit none_ lowest slot g at_
    have hhit (j : Nat) : t.tagHit c blk gen j = true ↔ hit j := t.tagHit_iff c blk gen j
    have nohit (h : none_ hit) (j : Nat) (hj : j < 64) : ¬t.tagHit c blk gen j = true := fun hj' => h j hj ((hhit j).mp hj')
    have hmatch (j : Nat) : tagMatch (t.tagLo c j) blk = true ↔ matches_ j := tagMatch_iff _ _
    have fresh (h : gen = none ∨ none_ matches_) (j : Nat) (hj : j < 64) :
        (gen.isSome && tagMatch (t.tagLo c j) blk) = false := by
      rcases h with rfl | h
      · rfl
      · rw [Bool.eq_false_iff.mpr fun h' => h j hj ((hmatch j).mp h'), Bool.and_false]
    refine ⟨fun ⟨hlow, hleast⟩ => ?_, fun hnone hgen ⟨hlow, hleast⟩ => ?_, fun hnone hfresh ⟨hlow, hleast⟩ => ?_,
      fun hnone hfresh hfull => ?_⟩
    · rw [State.tagl_eq, range_find?_least hi ((hhit i).mpr hlow) fun j hj => Bool.eq_false_iff.mpr fun h =>
        hleast j hj ((hhit j).mp h)]
      have hgen : (t.tagHi c i).setWidth 6 = (t.tagHi c i).extractLsb' 0 6 := BitVec.setWidth_eq_extractLsb' (by decide)
      dsimp only
      rw [hgen]
      exact tagl_hitWord hi _ _
    · rw [tagl_of_noHit (nohit hnone), range_find?_least hi (k := i)]
      · exact tagl_missWord (x := (1 <<< 63) ||| (1 <<< 31)) hi (by decide) (by decide)
      · rw [Option.isSome_iff_ne_none.mpr hgen, (hmatch i).mpr hlow]
        rfl
      · intro j hj
        rw [Bool.eq_false_iff.mpr fun h => hleast j hj ((hmatch j).mp h), Bool.and_false]
    · rw [tagl_of_noHit (nohit hnone), range_find?_none (fresh hfresh), range_find?_least hi (k := i)]
      · exact tagl_missWord (x := 1 <<< 63) hi (by decide) (by decide)
      · exact Bool.not_eq_true' _ ▸ Bool.eq_false_iff.mpr hlow
      · intro j hj
        rw [not_not.mp (hleast j hj)]
        rfl
    · rw [tagl_of_noHit (nohit hnone), range_find?_none (fresh hfresh), range_find?_none]
      · rfl
      · intro j hj
        rw [not_not.mp (hfull j hj)]
        rfl

end Sys2Proof.Machine
end

section
/-! SUPPORT. O46: copy beats, the writes that they make, and the ends of commands (13 R213–R220). -/
namespace Sys2Proof.Machine

/-! ## Beats (13 R213–R215) -/

/-- An access in this state goes on by an answer alone. -/
def AccSt.onWay (st : AccSt) : Prop :=
  st = .sent ∨ st = .bank ∨ st = .performed ∨ st = .walking ∨ st = .faulted ∨ st = .placed
/-- The access of every command whose beat is in flight waits for an answer. -/
def State.beatsWait (s : State) (c : CoreId) : Prop :=
  ∀ n ∈ (s.core c).cmds, n.busy = true → ∃ a, n.acc = some a ∧ a.st.onWay

/-- A command as it stands goes on where its beat is in flight. -/
def State.copyGoOn (s : State) (c : CoreId) (q : Cmd) : State :=
  match s.cmd c q.seq with
  | some m => if m.busy then s.copyGo c m else s
  | none => s
/-- The rotation stands at a command, and a beat is started in this cycle. -/
def State.beatTurn (s : State) (c : CoreId) (m : Cmd) : State :=
  s.modCore c fun k => { k with beatAt := s.cyc + 1, rot := 4 * m.ctx.toNat + m.queue.toNat }
/-- The engine looks again while a command can start a beat. -/
def State.lookAgain (s : State) (c : CoreId) : State :=
  if (s.core c).nextBeat.isSome then s.after 1 (.copyBeat c) else s
/-- A free beat is started by the next command in the rotation, one in a cycle (13 R215). -/
def State.startBeat (s : State) (c : CoreId) : State :=
  match (s.core c).nextBeat with
  | none => s
  | some m =>
    if s.cyc < (s.core c).beatAt then s.after 1 (.copyBeat c) else ((s.beatTurn c m).copyStart c m).lookAgain c
theorem State.copyBeat_eq (s : State) (c : CoreId) :
    s.copyBeat c = ((s.core c).cmds.foldl (fun s q => s.copyGoOn c q) s).startBeat c := rfl

section
variable {s : State} {c : CoreId} {m : Cmd}

theorem copyGo_waiting {a : Access} (hacc : m.acc = some a) (hst : a.st.onWay) : s.copyGo c m = s := by
  rcases hst with h | h | h | h | h | h <;> simp only [State.copyGo, hacc, h]
theorem copyGoOn_waiting (h : s.beatsWait c) (q : Cmd) : s.copyGoOn c q = s := by
  unfold State.copyGoOn
  split
  next m hcmd =>
    split
    next hbusy =>
      obtain ⟨a, hacc, hst⟩ := h m (List.mem_of_find?_eq_some hcmd) hbusy
      exact copyGo_waiting hacc hst
    next => rfl
  next => rfl
theorem copyBeat_waiting (h : s.beatsWait c) : s.copyBeat c = s.startBeat c := by
  rw [State.copyBeat_eq, List.foldl_fixed' (copyGoOn_waiting h)]

theorem startBeat_none (hnext : (s.core c).nextBeat = none) : s.startBeat c = s := by
  rw [State.startBeat, hnext]
theorem startBeat_early (hnext : (s.core c).nextBeat = some m) (hat : s.cyc < (s.core c).beatAt) :
    s.startBeat c = s.after 1 (.copyBeat c) := by
  rw [State.startBeat, hnext]
  exact if_pos hat
theorem startBeat_starts (hnext : (s.core c).nextBeat = some m) (hat : (s.core c).beatAt ≤ s.cyc) :
    s.startBeat c = ((s.beatTurn c m).copyStart c m).lookAgain c := by
  rw [State.startBeat, hnext]
  exact if_neg (Nat.not_lt.mpr hat)
theorem copyStart_busy (h : m.busy = true) :
    s.copyStart c m = s.modCmd c m.seq fun n => { n with started := n.beatEnd n.started } := if_pos h
theorem copyStart_free (h : m.busy = false) : s.copyStart c m = s.copyRead c m :=
  if_neg (by rw [h]; exact Bool.false_ne_true)

/-! ## Granules (13 R216, R217) -/

variable {a : Access} (hacc : m.acc = some a)
include hacc

theorem copyGo_read (hst : a.st = .done) (hread : m.writing = false) : s.copyGo c m =
    let n := { m with writing := true, data := a.rdata
                      acc := some { va := m.dst, mask := BitVec.allOnes 64, op := .write (BitVec.allOnes 64) a.rdata } }
    (s.modCmd c m.seq fun _ => n).copyAccess c n := by
  simp only [State.copyGo, hacc, hst, hread, if_true]
/-- The granule that has been written is the command's last. -/
theorem copyGo_last (hst : a.st = .done) (hwritten : m.writing = true) (hlen : m.len ≤ m.off + 64) :
    s.copyGo c m = (s.modCmd c m.seq fun _ => { m with off := m.off + 64, writing := false, acc := none }).after 0
      (.copyCommandComplete c m.seq) := by
  simp only [State.copyGo, hacc, hst, hwritten, Bool.true_eq_false, if_false]
  exact if_pos hlen
/-- It is the last of the beats started so far. -/
theorem copyGo_pauses (hst : a.st = .done) (hwritten : m.writing = true) (hlen : m.off + 64 < m.len)
    (hstarted : m.started ≤ m.off + 64) :
    s.copyGo c m = s.modCmd c m.seq fun _ => { m with off := m.off + 64, writing := false, acc := none } := by
  simp only [State.copyGo, hacc, hst, hwritten, Bool.true_eq_false, if_false]
  exact (if_neg (Nat.not_le.mpr hlen)).trans (if_neg (by simpa [Cmd.busy] using hstarted))
theorem copyGo_failed (hst : a.st = .failed) (hcause : a.cause ≠ 12) : s.copyGo c m =
    (s.modCmd c m.seq fun m => { m with acc := none }).after 0
      (.copyCommandEnd c m.seq (copyTrap a.cause).1 (copyTrap a.cause).2) := by
  simp only [State.copyGo, hacc, hst, hcause, if_false]
end

/-! ## Writes of a local store (01 R11, 13 R216) -/

theorem State.memWrite_store_mem (s : State) {k : Nat} (hlo : 2 ^ 60 ≤ k) (hhi : k < 2 ^ 100) (hal : k % 64 = 0)
    (mask : BitVec 64) (x : Granule) : (s.memWrite k mask x).mem = putBytes s.mem k mask x 64 := by
  have hplain : isCoded k = false := by simp [isCoded]; omega
  rw [State.memWrite, hplain, Nat.div_mul_cancel (Nat.dvd_of_mod_eq_zero hal), s.phys_store hlo,
    s.rawWrite_store hlo hal]
  rfl
/-- An access in a local store answers its copy command without touching memory. -/
theorem State.answerAt_copy_mem (s : State) (c : CoreId) (q : Nat) {m : Map} (hlo : 2 ^ 60 ≤ m.key) (hhi : m.key < 2 ^ 61)
    (d : Nat) (r : Reply) : (s.answerAt (.copy c q) m d r).mem = s.mem := by
  have hstore : isStoreKey m.key = true := by simp [isStoreKey]; omega
  rw [State.answerAt, hstore, if_neg (by decide), if_pos (.inl (if_pos hhi))]
  rfl
theorem enginePlain_copy_write_mem {s : State} {c : CoreId} {q k : Nat} {a : Access} {mask : BitVec 64} {x : Granule}
    (hop : a.op = .write mask x) (hlo : 2 ^ 60 ≤ k) (hhi : k < 2 ^ 61) (hal : k % 64 = 0)
    (hbusy : s.lineBusy (k / 64) = false) (hdead : s.lineDead (k / 64) = false) (hcached : s.cached (k / 64) = none) :
    (s.enginePlain (.copy c q) a { key := k, isBlock := false }).mem = putBytes s.mem k mask x 64 := by
  have hplain : isCoded k = false := by simp [isCoded]; omega
  have hwrite : s.plainWrite k mask x = some (s.memWrite k mask x) := by
    rw [State.plainWrite, hbusy, hcached, Nat.mul_div_cancel' (Nat.dvd_of_mod_eq_zero hal)]
    rfl
  have hmem := s.memWrite_store_mem hlo (hhi.trans (by decide)) hal mask x
  have hanswer (d : Nat) (r : Reply) := ((s.memWrite k mask x).answerAt_copy_mem c q (m := { key := k, isBlock := false })
    hlo hhi d r).trans hmem
  cases hread : s.memRead k with
  | none =>
    have hplainRead : s.plainRead k = .bad := by simp [State.plainRead, hbusy, hcached, hread]
    simp only [State.enginePlain, hop, hplain, Bool.false_and, hdead, hplainRead, hwrite]
    exact hanswer _ _
  | some g =>
    have hplainRead : s.plainRead k = .ok g := by simp [State.plainRead, hbusy, hcached, hread]
    simp only [State.enginePlain, hop, hplain, Bool.false_and, hdead, hplainRead, hwrite]
    exact hanswer _ _

theorem checkAddr_local_off {s : State} {c t : CoreId} {ea : Word} {off : Nat}
    (h : s.checkAddr c ea = .ok (.store 0 t off)) : off < 2 ^ 42 := by
  obtain ⟨-, -, hoff⟩ := State.checkAddr_local h
  exact hoff ▸ (ea.extractLsb' 0 42).isLt
theorem localKey_lt (t : CoreId) {off : Nat} (h : off < 2 ^ 42) : localKey t + off / 64 * 64 < 2 ^ 61 := by
  have := t.isLt
  unfold localKey
  omega
/-- A copy's fresh access to a local store is made at once, at the granule of its address. -/
theorem copy_go_store {s : State} {c t : CoreId} {q off : Nat} {a : Access} {mask : BitVec 64} {x : Granule}
    (hacc : s.acc (.copy c q) = some a) (hst : a.st = .fresh) (hop : a.op = .write mask x)
    (hplace : s.checkAddr (s.agentCore (.copy c q)) a.va = .ok (.store 0 t off)) :
    s.go (.copy c q) =
      (s.enginePlain (.copy c q) a { key := localKey t + off / 64 * 64, isBlock := false }).localWritten t off := by
  unfold State.go
  rw [hacc]
  dsimp only
  rw [if_neg (not_not_intro hst), hplace]
  dsimp only
  rw [if_pos rfl, hop]
  rfl
/-- What a byte reads after a whole granule was written. -/
theorem putBytes_whole {m : List Host.Cell} (hm : Memory.wf m = true) (k : Nat) (x : Granule) (j : Nat) :
    SMap.get freshByte (putBytes m k (BitVec.allOnes 64) x 64) j =
      if k ≤ j ∧ j < k + 64 then byteOf x (j - k) else SMap.get freshByte m j := by
  rw [putBytes_get _ _ _ _ _ _ hm]
  refine if_congr ⟨fun ⟨hlo, hhi, _⟩ => ⟨hlo, hhi⟩, fun ⟨hlo, hhi⟩ => ⟨hlo, hhi, ?_⟩⟩ rfl rfl
  rw [BitVec.getLsbD_allOnes, decide_eq_true (by omega)]

/-! ## The ends of commands (13 R215, R218, R220) -/

/-- The core's commands without the one that has ended. -/
def State.dropCmd (s : State) (c : CoreId) (q : Nat) : State :=
  s.modCore c fun k => { k with cmds := k.cmds.filter fun n => n.seq != q }

/-- The core's commands without a failed one and the later ones of its queue. -/
def State.dropQueue (s : State) (c : CoreId) (q : Nat) (m : Cmd) : State :=
  s.modCore c fun k =>
    { k with cmds := k.cmds.filter fun n =>
        !(n.seq == q || (n.ctx == m.ctx && n.tid == m.tid && n.queue == m.queue && decide (q < n.seq) && !n.held)) }
/-- A command's bytes are subtracted from its armed barrier, and the excess is counted. -/
def State.subtractBytes (s : State) (c : CoreId) (m : Cmd) : State :=
  let t := s.ctx c m.ctx
  let b := t.bars[m.barrier.toNat]
  if m.bar ∧ b.armed ∧ t.tid = m.tid ∧ ¬m.orphan then
    (if b.pending.toNat < m.len then s.count c 7 else s).modCtx c m.ctx fun t =>
      { t with bars := t.bars.set m.barrier.toNat { b with pending := BitVec.ofNat 32 (b.pending.toNat - m.len) } }
  else s

section
variable {s : State} {c : CoreId} {q : Nat} {m : Cmd}

theorem subtractBytes_noBarrier (hbar : m.bar = false) : s.subtractBytes c m = s :=
  if_neg fun h => Bool.false_ne_true (hbar.symm.trans h.1)
theorem subtractBytes_within (hbar : m.bar = true) (horphan : m.orphan = false) (htid : (s.ctx c m.ctx).tid = m.tid)
    (harmed : ((s.ctx c m.ctx).bars[m.barrier.toNat]).armed = true)
    (hle : m.len ≤ ((s.ctx c m.ctx).bars[m.barrier.toNat]).pending.toNat) :
    s.subtractBytes c m =
      let b := (s.ctx c m.ctx).bars[m.barrier.toNat]
      s.modCtx c m.ctx fun t =>
        { t with bars := t.bars.set m.barrier.toNat { b with pending := BitVec.ofNat 32 (b.pending.toNat - m.len) } } := by
  rw [State.subtractBytes, if_pos ⟨hbar, harmed, htid, by simp [horphan]⟩, if_neg (Nat.not_lt.mpr hle)]
theorem copyComplete_gone (h : s.cmd c q = none) : s.copyComplete c q = s := by rw [State.copyComplete, h]
theorem copyComplete_ends (h : s.cmd c q = some m) : s.copyComplete c q =
    (((s.dropCmd c q).subtractBytes c m).wakeCopyPark c m.ctx).after 1 (.copyBeat c) := by
  rw [State.copyComplete, h]
  rfl
theorem copyEnd_orphan {k d : Nat} (h : s.cmd c q = some m) (horphan : m.orphan = true) :
    s.copyEnd c q k d = ((s.dropQueue c q m).wakeCopyPark c m.ctx).after 1 (.copyBeat c) := by
  simp only [State.copyEnd, h, horphan, if_true]
  rfl
theorem copyEnd_reports {k d : Nat} (h : s.cmd c q = some m) (horphan : m.orphan = false) :
    s.copyEnd c q k d = ((s.dropQueue c q m).after 0
      (.deferredTrapReport c m.ctx m.tid
        { kind := 2, cause := k, pc := m.pc, addr := if m.writing then m.dst else m.src, off := m.off
          detail := d, source := 1, w4 := m.word0, w5 := m.word1 })).after 1 (.copyBeat c) := by
  simp only [State.copyEnd, h, horphan, Bool.false_eq_true, if_false]
  rfl
end

/-- Settles O46: each event runs its function, whose equation for the case the premises choose. -/
theorem copySteps : Obligations.CopySteps := by
  intro c x q k d m gone onWay turn again reach ask
  refine ⟨?_, ?_, ?_, ?_, ?_, ?_, fun s a hacc hst => ⟨copyGo_read hacc hst, copyGo_last hacc hst, copyGo_pauses hacc hst⟩,
    fun s a hacc hst hcause => ⟨_, _, copyGo_failed hacc hst hcause, ?_, ?_, ?_⟩, ?_, ?_, ?_, ?_, ?_, ?_⟩
  · intro s he hnone
    rw [Event.row, run_copyAdmit he, State.copyAdmit]
    exact congrArg _ (if_neg fun h => h.1 hnone)
  · intro s he hnone
    have hwait : s.beatsWait c := fun n hn => absurd hn (by simp [hnone])
    rw [Event.row, run_copyBeat he, copyBeat_waiting hwait, startBeat_none (by simp [Core.nextBeat, hnone])]
  · rintro s he ⟨hwait, hnext, hat, hbusy⟩
    rw [Event.row, run_copyBeat he, copyBeat_waiting hwait, startBeat_starts hnext hat, copyStart_busy hbusy]
    rfl
  · rintro s he ⟨hwait, hnext, hat, hfree⟩
    rw [Event.row, run_copyBeat he, copyBeat_waiting hwait, startBeat_starts hnext hat, copyStart_free hfree]
    rfl
  · rintro s he ⟨hwait, hnext, hat⟩
    rw [Event.row, run_copyBeat he, copyBeat_waiting hwait, startBeat_early hnext hat]
  · rintro s he ⟨hwait, hnone⟩
    rw [Event.row, run_copyBeat he, copyBeat_waiting hwait, startBeat_none hnone]
  · intro h; rw [h]; exact ⟨rfl, rfl⟩
  · intro h; rw [h]; exact ⟨rfl, rfl⟩
  · intro h; rw [h]; exact ⟨rfl, rfl⟩
  · intro s a y t off hs hacc hst hop hplace at_ hbusy hdead hcached j
    have hkey := localKey_lt t (checkAddr_local_off hplace)
    rw [State.byte, copy_go_store hacc hst hop hplace, State.localWritten_mem,
      enginePlain_copy_write_mem hop (localKey_ge _ _) hkey (localKey_granule _ _) hbusy hdead hcached,
      putBytes_whole hs.mem]
    rfl
  · intro s he hgone
    rw [Event.row, run_copyCommandComplete he, copyComplete_gone hgone]
  · rintro s he ⟨hcmd, hbar⟩
    rw [Event.row, run_copyCommandComplete he, copyComplete_ends hcmd, subtractBytes_noBarrier hbar]
    rfl
  · rintro s he ⟨hcmd, hbar, horphan, htid, harmed, hle⟩
    rw [Event.row, run_copyCommandComplete he, copyComplete_ends hcmd,
      subtractBytes_within (s := s.dropCmd c q) hbar horphan htid harmed hle]
    rfl
  · rintro s he ⟨hcmd, horphan⟩
    rw [Event.row, run_copyCommandEnd he, copyEnd_orphan hcmd horphan]
    rfl
  · rintro s he ⟨hcmd, horphan⟩
    rw [Event.row, run_copyCommandEnd he, copyEnd_reports hcmd horphan]
    rfl

end Sys2Proof.Machine
end
section
/-! SUPPORT. O31: fences, barriers, watches and sleeps as they are issued (15 R243–R248). -/
namespace Sys2Proof.Machine

/-! ## How far a fence has come (15 R243) -/

section
variable {k : Core} {x : CtxId} {scope : Scope} {order : Order}

theorem Core.fenceStep_reads (h : k.readsOut x = true) : k.fenceStep x scope order = .wait := if_pos h
theorem Core.fenceStep_noReads (h : k.readsOut x = false) : k.fenceStep x scope order =
    if order = 1 then .ret else if scope = 0 then (if k.storesOpen x then .wait else .ret)
    else if k.drained x then .probe else .wait :=
  if_neg (ne_true_of_eq_false h)
theorem Core.fenceStep_acquire (h : k.readsOut x = false) : k.fenceStep x scope 1 = .ret :=
  (fenceStep_noReads h).trans (if_pos rfl)
theorem Core.fenceStep_core (h : k.readsOut x = false) (ho : order ≠ 1) (hs : scope = 0) :
    k.fenceStep x scope order = if k.storesOpen x then .wait else .ret := by
  rw [fenceStep_noReads h, if_neg ho, if_pos hs]
theorem Core.fenceStep_wider (h : k.readsOut x = false) (ho : order ≠ 1) (hs : scope ≠ 0) :
    k.fenceStep x scope order = if k.drained x then .probe else .wait := by
  rw [fenceStep_noReads h, if_neg ho, if_neg hs]
end

section
variable {s : State} {c : CoreId} {x : CtxId} {scope : Scope} {order : Order}

theorem State.devClean_eq_false_iff :
    s.devClean c x = false ↔ ∃ l ∈ (s.ctx c x).devLines ++ s.sys.devLeft, s.devOpen l = true := by
  rw [State.devClean, State.devLinesOf, List.all_eq_false]
  simp only [Bool.not_eq_true', Bool.not_eq_false]
/-- Only a fence whose probes are next looks at the devices. -/
theorem State.fenceStep_eq_core (h : ¬((s.core c).fenceStep x scope order = .probe ∧ scope = 7 ∧ s.devClean c x = false)) :
    s.fenceStep c x scope order = (s.core c).fenceStep x scope order := by
  unfold State.fenceStep
  split
  next hprobe => exact (if_neg fun hdev => h ⟨hprobe, hdev⟩).trans hprobe.symm
  next => rfl
theorem State.fenceStep_dev (hprobe : (s.core c).fenceStep x 7 order = .probe) (hdev : s.devClean c x = false) :
    s.fenceStep c x 7 order = .wait := by
  rw [State.fenceStep, hprobe]
  exact if_pos ⟨rfl, hdev⟩
end

/-! ## WAITL and SLEEP (15 R247, R248) -/

theorem AddrOk.checkWaitl {t : State} {ea : Word} (h : AddrOk t ea 8) (hlevel : isCoord ea = true → coordLevel ea = 0) :
    t.checkWaitl ea = none := by
  have hal : ¬aligned ea 8 = false := by simp [aligned, h.1]
  have hplace : ¬(isCoord ea = true ∧ coordLevel ea ≠ 0 ∧ coordLevel ea < 4) := fun ⟨hcoord, hne, _⟩ => hne (hlevel hcoord)
  rw [State.checkWaitl, if_neg hal, if_neg hplace, h.checkEa]

/-- The thread parks with its read, which is made in its order (15 R247). -/
def State.waitlParked (t : State) (c : Ctx) (host : Bool) (d a b : G) (deadline : Option Word) : State :=
  ((t.parkMe c (.waitl d (c.getG b) deadline host)).setAcc (.park t.slot t.cx) (some (readAcc (c.getG a) 8))).after 1
    (.waitlWake t.slot t.cx c.tid)

section
variable {i : Instr} {p : Pred} {host : Bool} {d a b : G} {deadline : Ctx → Option Word}
  (hexec : ∀ s, exec i s = waitlBody p host d a b deadline s)
include hexec

theorem waitl_runs {pre : Ctx → State → Prop} {f : Ctx → State → State}
    (hpre : ∀ c t, pre c t → AddrOk t (c.getG a) 8 ∧ (isCoord (c.getG a) = true → coordLevel (c.getG a) = 0))
    (hf : ∀ c t, pre c t → (match deadline c with
      | some w => if t.cyc % 2 ^ 64 < w.toNat then
          (t.waitlParked c host d a b (deadline c)).after (w.toNat - t.cyc % 2 ^ 64) (.sleepDeadline t.slot t.cx c.tid)
        else t.waitlParked c host d a b (deadline c)
      | none => t.waitlParked c host d a b (deadline c)) = f c t) : Runs .any i p 8 pre f :=
  runs_issue hexec fun c t h => by
    obtain ⟨hok, hlevel⟩ := hpre c t h
    dsimp only
    rw [← hf c t h, hok.checkWaitl hlevel]
    rfl
end

section
variable {i : Instr} {p : Pred} {mb : Bool} {d a : G} (hexec : ∀ s, exec i s = sleepBody p mb d a s)
include hexec

theorem sleep_past : Runs .any i p 8 (fun c t => c.getG a ≠ BitVec.allOnes 64 ∧ (c.getG a).toNat ≤ t.cyc % 2 ^ 64)
    fun _ t => t.putG d 0 :=
  runs_issue hexec fun _ _ hpast => if_pos hpast
theorem sleep_message : Runs .any i p 8 (fun c t => ¬(c.getG a ≠ BitVec.allOnes 64 ∧ (c.getG a).toNat ≤ t.cyc % 2 ^ 64) ∧
    mb = true ∧ t.myCore.mbox ≠ []) fun _ t => t.putG d 1 :=
  runs_issue hexec fun _ _ ⟨hahead, hmail⟩ => (if_neg hahead).trans (if_pos hmail)
/-- With no deadline in the past and no message to see, the thread parks. -/
theorem sleep_parks {pre : Ctx → State → Prop} {f : Ctx → State → State}
    (hahead : ∀ c t, pre c t → ¬(c.getG a ≠ BitVec.allOnes 64 ∧ (c.getG a).toNat ≤ t.cyc % 2 ^ 64))
    (hnone : ∀ c t, pre c t → mb = true → t.myCore.mbox = [])
    (hf : ∀ c t, pre c t → (let u := t.parkMe c (.sleep d (c.getG a) mb)
      if c.getG a = BitVec.allOnes 64 then u
      else u.after ((c.getG a).toNat - t.cyc % 2 ^ 64) (.sleepDeadline u.slot u.cx c.tid)) = f c t) :
    Runs .any i p 8 pre f :=
  runs_issue hexec fun c t h => by
    rw [← hf c t h]
    exact (if_neg (hahead c t h)).trans (if_neg fun hmail => hmail.2 (hnone c t h hmail.1))
end

/-- Settles O31: a fence by how far it has come, a barrier by its member, a watch and a sleep by their checks. -/
theorem fencesAndSleeps : Obligations.FencesAndSleeps := by
  refine ⟨fun p scope order k a => ?_, fun p host d a b e => ?_⟩
  · refine ⟨runs_issue (fun _ => exec_fence ..) fun c t h => by rw [h],
      runs_issue (fun _ => exec_fence ..) fun c t h => by rw [h],
      runs_issue (fun _ => exec_fence ..) fun c t h => by rw [h],
      runs_issue (fun _ => exec_bar ..) fun c t h => congrArg Act.ok (if_pos h),
      runs_issue (fun _ => exec_bar ..) fun c t h => congrArg Act.ok (if_neg h),
      runs_issue (fun _ => exec_barComb ..) fun c t h => if_pos h,
      runs_issue (fun _ => exec_barComb ..) fun c t ⟨hlvl, hal⟩ => (if_neg hlvl).trans (if_neg ?_),
      fun s hp hlvl hmember hodd => ?_,
      runs_issue (fun _ => exec_trig ..) fun _ _ _ => rfl,
      fun core x => Core.fenceStep_reads, fun core x h => ⟨Core.fenceStep_acquire h, Core.fenceStep_core h, Core.fenceStep_wider h⟩,
      fun t c x => ?_⟩
    · rintro ⟨hmember, hodd⟩
      rw [odd64_eq_false (hal hmember)] at hodd
      cases hodd
    · have hbad : s.me.member = 0 ∧ odd64 (s.me.getG a) = true := ⟨hmember, by simpa [odd64] using hodd⟩
      rw [exec_barComb, execBarComb, issue_runs rfl hp, if_neg hlvl, if_pos hbad]
      rfl
    · split
      next h =>
        obtain ⟨hprobe, rfl, hopen⟩ := h
        exact State.fenceStep_dev hprobe (State.devClean_eq_false_iff.mpr hopen)
      next h =>
        exact State.fenceStep_eq_core fun ⟨hprobe, hscope, hdev⟩ =>
          h ⟨hprobe, hscope, State.devClean_eq_false_iff.mp hdev⟩
  · intro ok parked now S
    have row {i : Instr} {mb : Bool} (hexec : ∀ s, exec i s = sleepBody p mb d a s) : S i mb :=
      ⟨sleep_past hexec, sleep_message hexec,
        sleep_parks hexec (fun c t h hpast => absurd hpast.2 (Nat.not_le.mpr h.1)) (fun c t h => h.2.2)
          fun c t h => if_neg h.2.1,
        sleep_parks hexec (fun c t h hpast => hpast.1 h.1) (fun c t h => h.2) fun c t h => if_pos h.1⟩
    exact ⟨waitl_runs (fun _ => exec_waitl ..) (fun c t h => h) fun c t _ => rfl,
      waitl_runs (fun _ => exec_waitlDl ..) (fun c t h => h.1) fun c t h => if_pos h.2,
      waitl_runs (fun _ => exec_waitlDl ..) (fun c t h => h.1) fun c t h => if_neg (Nat.not_lt.mpr h.2),
      row fun _ => exec_sleep .., row fun _ => exec_sleepM ..⟩

end Sys2Proof.Machine
end
section
/-! SUPPORT. O32: spawning, yielding, retiring, ready queues and TSTART (15 R249–R255; 03 R51, R52). -/
namespace Sys2Proof.Machine

/-! ## Retiring (15 R255) -/

@[simp] theorem State.closeBatch_slot (s : State) (c : CoreId) (x : CtxId) : (s.closeBatch c x).slot = s.slot := by
  unfold State.closeBatch
  dsimp only
  split <;> rfl
@[simp] theorem State.closeBatch_cyc (s : State) (c : CoreId) (x : CtxId) : (s.closeBatch c x).cyc = s.cyc := by
  unfold State.closeBatch
  dsimp only
  split <;> rfl
@[simp] theorem State.closeBatch_cx (s : State) (c : CoreId) (x : CtxId) : (s.closeBatch c x).cx = s.cx :=
  State.cx_of_cyc (s.closeBatch_cyc c x)

/-- TEXIT waits for copies that have not ended and for reports that are not taken. -/
theorem texit_retires (p : Pred) : Runs .any (.texit p) p 8
    (fun _ t => ¬(t.closeMine.myCore.cmdsOf t.closeMine.cx ≠ [] ∨ t.closeMine.reportsDue t.closeMine.slot t.closeMine.cx = true))
    fun _ t => t.closeMine.retire t.slot t.cx :=
  runs_issue (fun _ => exec_texit ..) fun c t h => by
    have hslot : t.closeMine.slot = t.slot := t.closeBatch_slot t.slot t.cx
    have hcx : t.closeMine.cx = t.cx := t.closeBatch_cx t.slot t.cx
    exact congrArg Act.ok ((if_neg h).trans (by rw [hslot, hcx]))
theorem texit_parks (p : Pred) : Runs .any (.texit p) p 8
    (fun _ t => t.closeMine.myCore.cmdsOf t.closeMine.cx ≠ [] ∨ t.closeMine.reportsDue t.closeMine.slot t.closeMine.cx = true)
    fun c t => t.closeMine.parkMe c .texit :=
  runs_issue (fun _ => exec_texit ..) fun _ _ h => congrArg Act.ok (if_pos h)

/-! ## Ready queues (15 R250–R252) -/

/-- A record that is sent on must be aligned, and the writes of its thread drained. -/
theorem spawn_runs {i : Instr} {p : Pred} {pin : Bool} {a : G} (hexec : ∀ s, exec i s = spawnBody p pin a s) (u : State) :
    Runs .any i p 8
    (fun c t => (c.getG a).toNat % 64 = 0 ∧ t.myCore.drained t.cx = true ∧
      t.dequePush t.slot { addr := c.getG a, prio := 0, pinned := pin, asid := c.asid, enq := t.cyc } = some u)
    fun _ _ => (u.kick u.slot).kickGroup u.slot :=
  runs_issue hexec fun c t ⟨hal, hdrained, hpush⟩ => by
    simp only [odd64_eq_false hal, hdrained, hpush]
    rfl
theorem rqpush_runs (p : Pred) (a b : G) : Runs .any (.rqpush p a b) p 8
    (fun c t => (c.getG a).toNat % 64 = 0 ∧ t.myCore.drained t.cx = true)
    fun c t => t.pushRq t.slot (rqEntOf c (c.getG a) (c.getG b) t.cyc) :=
  runs_issue (fun _ => exec_rqpush ..) fun c t ⟨hal, hdrained⟩ => by
    simp only [odd64_eq_false hal, hdrained]
    rfl
theorem rqpushCore_runs (p : Pred) (a b k : G) : Runs .any (.rqpushCore p a b k) p 8
    (fun c t => (c.getG a).toNat % 64 = 0 ∧ t.myCore.drained t.cx = true ∧
      t.reachable t.slot ((c.getG k).setWidth 16) = true)
    fun c t => t.meshAfter (sgIdx t.slot) (sgIdx ((c.getG k).setWidth 16)) .wake
      (.wakeMessage ((c.getG k).setWidth 16) (rqEntOf c (c.getG a) (c.getG b) t.cyc)) :=
  runs_issue (fun _ => exec_rqpushCore ..) fun c t ⟨hal, hdrained, hreach⟩ => by
    simp only [odd64_eq_false hal, hdrained, hreach]
    rfl
/-- The core's queue as RQPOP finds it: filled from the ring, and aged. -/
def State.readied (t : State) : State := (t.refill t.slot 64).modCore t.slot fun k => k.aged t.cyc

/-- RQPOP takes the entry that its form picks of the queue; with none both registers are zero. -/
theorem pop_runs {i : Instr} {p : Pred} {d : G} {pick : Ctx → List RqEnt → Option RqEnt} {f : Ctx → State → State}
    (hexec : ∀ s, exec i s = popBody p d s pick)
    (hf : ∀ c t e, pick c t.readied.myCore.rq = e → f c t = match e with
      | none => (t.readied.putG d 0).putG (d + 1) 0
      | some e => ((t.readied.takeRq t.readied.slot e).putG d e.word0).putG (d + 1) (e.asid.setWidth 64)) :
    Runs .c0 i p 8 (fun _ _ => True) f :=
  runs_issue hexec fun c t _ => by
    rw [hf c t _ rfl]
    change Act.ok (((match pick c t.readied.myCore.rq with | some e => t.readied.takeRq t.readied.slot e | none => t.readied).putG
      d (rqResult (pick c t.readied.myCore.rq)).1).putG (d + 1) (rqResult (pick c t.readied.myCore.rq)).2) = _
    cases pick c t.readied.myCore.rq <;> rfl
theorem tpop_takes (p : Pred) (d : G) (u : State) (e : RqEnt) : Runs .any (.tpop p d) p 8
    (fun _ t => t.dequeNewest t.slot = some (e, u)) fun _ _ => u.putG d (RqEnt.dequeWords e).1 :=
  runs_issue (fun _ => exec_tpop ..) fun c t h => by rw [h]
theorem tpop_empty (p : Pred) (d : G) : Runs .any (.tpop p d) p 8
    (fun _ t => t.dequeNewest t.slot = none) fun _ t => t.putG d 0 :=
  runs_issue (fun _ => exec_tpop ..) fun c t h => by rw [h]
/-- The four counts of RQPOP.CNT, each in its 16 bits. -/
theorem fields_of_16 (f : Nat → Nat) :
    (List.range 4).foldl (fun a i => a + f i * 2 ^ (16 * i)) 0 = f 0 + f 1 * 2 ^ 16 + f 2 * 2 ^ 32 + f 3 * 2 ^ 48 := by
  have hrange : List.range 4 = [0, 1, 2, 3] := rfl
  have h2 : 16 * 2 = 32 := rfl
  have h3 : 16 * 3 = 48 := rfl
  rw [hrange, List.foldl_cons, List.foldl_cons, List.foldl_cons, List.foldl_cons, List.foldl_nil, h2, h3, Nat.mul_one,
    Nat.mul_zero, Nat.pow_zero, Nat.mul_one, Nat.zero_add]
theorem rqpopCnt_counts (p : Pred) (d : G) : Runs .c0 (.rqpopCnt p d) p 8 (fun _ _ => True) fun _ t =>
    t.putG d (BitVec.ofNat 64 (t.rqCount t.slot 0 + t.rqCount t.slot 1 * 2 ^ 16 + t.rqCount t.slot 2 * 2 ^ 32 +
      t.rqCount t.slot 3 * 2 ^ 48)) :=
  runs_issue (fun _ => exec_rqpopCnt ..) fun _ t _ =>
    congrArg (fun n => Act.ok (t.putG d (BitVec.ofNat 64 n))) (fields_of_16 (t.rqCount t.slot))

/-! ## TSTART (15 R253) -/

theorem tstart_fills (p : Pred) (d a b k : G) : Runs .c0 (.tstart p d a b k) p 8
    (fun c t => t.tstartStatus c ((c.getG a).setWidth 4) (c.getG b) (c.getG k) = 0)
    fun c t => (t.putG d 0).startFilling t.slot ((c.getG a).setWidth 4)
      { addr := c.getG b, prio := 0, pinned := false, asid := c.asid, enq := t.cyc }
      (some (((c.getG k).extractLsb' 16 9).toNat, ((c.getG k).setWidth 16).toNat)) :=
  runs_issue (fun _ => exec_tstart ..) fun c t h => by
    dsimp only
    rw [h, if_neg (not_not_intro rfl)]
    rfl
theorem tstart_answers (p : Pred) (d a b k : G) : Runs .c0 (.tstart p d a b k) p 8
    (fun c t => t.tstartStatus c ((c.getG a).setWidth 4) (c.getG b) (c.getG k) ≠ 0)
    fun c t => t.putG d (BitVec.ofNat 64 (t.tstartStatus c ((c.getG a).setWidth 4) (c.getG b) (c.getG k))) :=
  runs_issue (fun _ => exec_tstart ..) fun _ _ h => congrArg Act.ok (if_pos h)

/-- Settles O32: each instruction by what its deque, its queue or its status answers. -/
theorem threadsAndQueues : Obligations.ThreadsAndQueues := by
  refine ⟨fun p pin d a u e => ?_, fun p d a b k => ?_⟩
  · refine ⟨spawn_runs (fun _ => exec_spawn ..) u, tpop_takes p d u e, tpop_empty p d,
      runs_issue (fun _ => exec_yield ..) fun c t h => congrArg Act.ok (if_pos h),
      runs_issue (fun _ => exec_yield ..) fun c t h => congrArg Act.ok (if_neg (ne_true_of_eq_false h)),
      fun s hadm hp ⟨hcmds, hreports⟩ => texit_retires p s hadm hp ?_, texit_parks p⟩
    rintro (hne | hdue)
    · exact hne hcmds
    · exact Bool.false_ne_true (hreports.symm.trans hdue)
  · refine ⟨rqpush_runs p a b, rqpushCore_runs p a b k, ?_, ?_, rqpopCnt_counts p d,
      tstart_fills p d a b k, tstart_answers p d a b k, fun t c x rec win h => if_pos h⟩
    · exact pop_runs (exec_rqpop p d) fun c t e h => by unfold State.readied at h ⊢; cases e <;> simp only [h]
    · exact pop_runs (exec_rqpopP p d a) fun c t e h => by unfold State.readied at h ⊢; cases e <;> simp only [h]

end Sys2Proof.Machine
end
section
/-! SUPPORT. O33: TREAP, PREEMPT, EVAC, HOLDT, RESUMET and the emulation window at issue (15 R254–R257, R269, R270; 07
R113). -/
namespace Sys2Proof.Machine

/-! ## A context that is saving, after the slot has been taken

No context is saving after reset, so a core with such a context keeps its entry in the table of cores, whatever the
table's form. -/

theorem Core.ne_reset_of_saving {k : Core} {x : CtxId} (h : (k.ctx x).st = .saving) : k ≠ Core.reset := by
  rintro rfl
  have hreset : ∀ y : CtxId, (Core.reset.ctx y).st ≠ .saving := by decide
  exact hreset x h
theorem State.core_modCore_of_saving {s : State} {c : CoreId} {x : CtxId} {f : Core → Core}
    (h : ((f (s.core c)).ctx x).st = .saving) : (s.modCore c f).core c = f (s.core c) :=
  SMap.get_set_self _ _ _ (Core.ne_reset_of_saving h)
theorem State.skipped_saving {s : State} {x : CtxId} (n : Nat) (h : (s.ctx s.slot x).st = .saving) :
    ((s.skipped n).ctx s.slot x).st = .saving := by
  have htick : ((s.core s.slot).tick s.cx).ctx x = (s.core s.slot).ctx x := by
    unfold Core.tick
    split <;> rfl
  have hnew : ((((s.core s.slot).tick s.cx).setCtx s.cx { (s.core s.slot).ctx s.cx with
      pc := ((s.core s.slot).ctx s.cx).pc + BitVec.ofNat 64 n }).ctx x).st = .saving := by
    rw [Core.ctx_setCtx]
    split
    next hx => exact hx ▸ h
    next => rw [htick]; exact h
  rw [State.ctx, State.skipped, State.core_modCore_of_saving hnew]
  exact hnew
theorem State.issued_saving {s : State} {x : CtxId} (n : Nat) (h : (s.ctx s.slot x).st = .saving) :
    ((s.issued n).ctx s.slot x).st = .saving := by
  have hskip := State.skipped_saving n h
  unfold State.issued State.count
  split
  · rw [State.ctx, State.core_modCore_of_saving (f := fun k => k.countEv 17) (x := x) hskip]
    exact hskip
  · exact hskip

/-! ## TREAP (15 R254) -/

section
variable (p : Pred) (d a : G)

theorem treap_reaps : Runs .c0 (.treap p d a) p 8
    (fun c t => (c.getG a).setWidth 4 ≠ (0 : CtxId) ∧ (t.ctx t.slot ((c.getG a).setWidth 4)).reaping = false ∧
      ((t.ctx t.slot ((c.getG a).setWidth 4)).st = .running ∨ (t.ctx t.slot ((c.getG a).setWidth 4)).st = .parked ∨
        (t.ctx t.slot ((c.getG a).setWidth 4)).st = .halted))
    fun c t => (t.putG d (BitVec.ofNat 64 (t.ctx t.slot ((c.getG a).setWidth 4)).code)).reap t.slot ((c.getG a).setWidth 4) :=
  runs_issue (fun _ => exec_treap ..) fun c t ⟨hx, hreap, hst⟩ => by
    rcases hst with h | h | h <;> simp only [h, hx, hreap] <;> rfl
theorem treap_idle : Runs .c0 (.treap p d a) p 8
    (fun c t => (t.ctx t.slot ((c.getG a).setWidth 4)).st ≠ .saving ∧ ((c.getG a).setWidth 4 = (0 : CtxId) ∨
      (t.ctx t.slot ((c.getG a).setWidth 4)).st = .empty ∨ (t.ctx t.slot ((c.getG a).setWidth 4)).reaping = true))
    fun c t => (t.putG d (BitVec.ofNat 64 (t.ctx t.slot ((c.getG a).setWidth 4)).code)).modCtx t.slot ((c.getG a).setWidth 4)
      fun m => { m with reapWaits := false } :=
  runs_issue (fun _ => exec_treap ..) fun _ _ ⟨hst, hidle⟩ => (if_neg hst).trans (if_pos hidle)
theorem treap_reserved : Runs .c0 (.treap p d a) p 8
    (fun c t => (c.getG a).setWidth 4 ≠ (0 : CtxId) ∧ (t.ctx t.slot ((c.getG a).setWidth 4)).reaping = false ∧
      (t.ctx t.slot ((c.getG a).setWidth 4)).st = .reserved)
    fun c t => (t.putG d (BitVec.ofNat 64 (t.ctx t.slot ((c.getG a).setWidth 4)).code)).freeCtx t.slot
      ((c.getG a).setWidth 4) :=
  runs_issue (fun _ => exec_treap ..) fun c t ⟨hx, hreap, hst⟩ => by
    simp only [hst, hx, hreap]
    rfl
/-- The slot is lost while the context is saving. -/
theorem treap_waits {s : State} (hcx : s.cx = 0) (hp : s.me.test p = true)
    (hst : (s.ctx s.slot ((s.me.getG a).setWidth 4)).st = .saving) :
    exec (.treap p d a) s = .next (s.lost.modCtx s.slot ((s.me.getG a).setWidth 4) fun m => { m with reapWaits := true }) := by
  have hsaving : ((s.issued 8).ctx (s.issued 8).slot ((s.me.getG a).setWidth 4)).st = .saving := by
    rw [State.issued_slot]
    exact State.issued_saving 8 hst
  rw [exec_treap, execTreap, issue_runs (by simp [Issuer.admits, hcx]) hp, if_pos hsaving]
  show Host.Outcome.next (s.lost.modCtx s.lost.slot _ _) = _
  rw [State.lost_slot]
end

/-! ## EVAC (15 R257) -/

/-- What EVAC does of a slot once its destination has passed: it answers 1 for one that holds nothing, halts at a header that
fails its check (05 R88), and starts to copy any other. -/
def State.evacSlot (t : State) (c : Ctx) (d : G) (i : Nat) (dest : Word) : State :=
  if t.myCore.savebase.toNat / 65536 % 32 ≤ i then t.putG d 1
  else match t.evacBad t.slot i 0 with
  | some key => t.checkAtIssue c key
  | none =>
    if (t.word (localKey t.slot + t.myCore.slotOff i)).getLsbD 51 = false then t.putG d 1
    else ((t.parkMe c (.evac d i dest 0)).setAcc (.park t.slot t.cx) (t.evacPart t.slot i dest 0)).after 1
      (.evacAcknowledged t.slot)

theorem evac_runs {p : Pred} {d a b : G} {pre : Ctx → State → Prop} {f : Ctx → State → State}
    (hdest : ∀ c t, pre c t → AddrOk t (c.getG b) 64 ∧ isCoord (c.getG b) = false)
    (hf : ∀ c t, pre c t → t.evacSlot c d ((c.getG a).toNat % 32) (c.getG b) = f c t) :
    Runs .c0 (.evac p d a b) p 8 pre f :=
  runs_issue (fun _ => exec_evac ..) fun c t h => by
    obtain ⟨⟨hal, g, hplace⟩, hglobal⟩ := hdest c t h
    dsimp only
    rw [← hf c t h, if_neg (ne_true_of_eq_false (odd64_eq_false hal)), if_neg (ne_true_of_eq_false hglobal), hplace,
      State.evacSlot]
    by_cases hin : t.myCore.savebase.toNat / 65536 % 32 ≤ (c.getG a).toNat % 32
    · rw [if_pos hin, if_pos hin]
    · rw [if_neg hin, if_neg hin]
      cases t.evacBad t.slot ((c.getG a).toNat % 32) 0 with
      | some key => rfl
      | none => exact (apply_ite Act.ok ..).symm

section
variable {t : State} {c : Ctx} {d : G} {i : Nat} {dest : Word}

theorem State.evacBad_header : t.evacBad t.slot i 0 =
    if t.eccOf (localKey t.slot + t.myCore.slotOff i) = 2 then some ((localKey t.slot + t.myCore.slotOff i) / 64 * 64)
    else none := rfl
theorem State.evacSlot_outside (h : ¬i < t.myCore.savebase.toNat / 65536 % 32) : t.evacSlot c d i dest = t.putG d 1 :=
  if_pos (Nat.not_lt.mp h)
theorem State.evacSlot_bad (hin : i < t.myCore.savebase.toNat / 65536 % 32)
    (hbad : t.eccOf (localKey t.slot + t.myCore.slotOff i) = 2) :
    t.evacSlot c d i dest = t.checkAtIssue c ((localKey t.slot + t.myCore.slotOff i) / 64 * 64) := by
  rw [State.evacSlot, if_neg (Nat.not_le.mpr hin), State.evacBad_header, if_pos hbad]
theorem State.evacSlot_good (hin : i < t.myCore.savebase.toNat / 65536 % 32)
    (hgood : t.eccOf (localKey t.slot + t.myCore.slotOff i) ≠ 2) : t.evacSlot c d i dest =
      if (t.word (localKey t.slot + t.myCore.slotOff i)).getLsbD 51 = false then t.putG d 1
      else ((t.parkMe c (.evac d i dest 0)).setAcc (.park t.slot t.cx) (t.evacPart t.slot i dest 0)).after 1
        (.evacAcknowledged t.slot) := by
  rw [State.evacSlot, if_neg (Nat.not_le.mpr hin), State.evacBad_header, if_neg hgood]
end

/-! ## HOLDT, RESUMET and the emulation window (15 R269, R270) -/

/-- A body that asks first whether the thread's core can be reached. -/
theorem reach_passes {t : State} {k : CoreId} {x y : Act} (h : t.reachable t.slot k = true) :
    (if t.reachable t.slot k = false then x else y) = y :=
  if_neg (ne_false_of_eq_true h)

theorem not_free {x : CtxId} {q : CtxSt} (hx : x ≠ 0) (hq : q = .running ∨ q = .parked ∨ q = .halted) :
    ¬(x = 0 ∨ q = .empty ∨ q = .reserved ∨ q = .saving) := by
  rcases hq with rfl | rfl | rfl <;> exact fun h => h.elim hx (by decide)
theorem not_dead {q : CtxSt} {reaping : Bool} (hq : q = .halted) (hreap : reaping = false) :
    ¬(q ≠ .halted ∨ reaping = true) := by
  simp [hq, hreap]
/-- A resumed thread's pending trap is due unless there is none, or the thread is in a handler. -/
theorem due_of_none {traps : List Trap} {handler : Bool} (h : traps = []) : (!traps.isEmpty && !handler) = false := by
  simp [h]
theorem due_of_some {traps : List Trap} {handler : Bool} (h : traps ≠ []) (hh : handler = false) :
    (!traps.isEmpty && !handler) = true := by
  simp [h, hh]

/-- RESUMET restarts a halted thread, whose pending trap is delivered next unless it is in a handler. -/
theorem resumet_restarts (p : Pred) (d a : G) (due : Bool) : Runs .sOnly (.resumet p d a) p 8
    (fun c t => t.reachable t.slot (nameCore (c.getG a)) = true ∧
      (t.ctx (nameCore (c.getG a)) (nameCtx (c.getG a))).st = .halted ∧
      (t.ctx (nameCore (c.getG a)) (nameCtx (c.getG a))).reaping = false ∧
      (t.ctx (nameCore (c.getG a)) (nameCtx (c.getG a))).halt ≠ some .containment ∧
      (!(t.ctx (nameCore (c.getG a)) (nameCtx (c.getG a))).traps.isEmpty &&
        !(t.ctx (nameCore (c.getG a)) (nameCtx (c.getG a))).inHandler) = due)
    fun c t =>
      let u := (t.modCtx (nameCore (c.getG a)) (nameCtx (c.getG a)) fun m =>
        { m with st := .running, halt := none, delivering := due }).putG d 0
      if due then u.after 1 (.trapDelivery (nameCore (c.getG a)) (nameCtx (c.getG a))) else u :=
  runs_issue (fun _ => exec_resumet ..) fun c t ⟨hreach, hst, hreap, hhalt, hdue⟩ => by
    subst hdue
    exact (reach_passes hreach).trans (congrArg Act.ok ((if_neg (not_dead hst hreap)).trans (if_neg hhalt)))
theorem emu_runs {i : Instr} {p : Pred} {r : Option G} {a b : G} {v : Ctx → Word}
    (hexec : ∀ s, exec i s = emuBody p r a b v s) : Runs .sOnly i p 8
    (fun c t => t.reachable t.slot (nameCore (c.getG a)) = true) fun c t =>
      (t.parkMe c (.emu r (nameCore (c.getG a)) (nameCtx (c.getG a)) ((c.getG b).toNat % 4096) (v c))).meshAfter
        (sgIdx t.slot) (sgIdx (nameCore (c.getG a))) .request (.emulationRoundTrip t.slot t.cx) :=
  runs_issue hexec fun _ _ hreach => reach_passes hreach

/-- Settles O33: each instruction by the state of the context or of the slot that it names. -/
theorem contextControl : Obligations.ContextControl := by
  refine ⟨fun p d a b => ?_, fun p d a b e => ?_⟩
  · intro x i slot header inside filled bad
    refine ⟨treap_reaps p d a, treap_idle p d a, treap_reserved p d a, fun s hcx hp hst => treap_waits p d a hcx hp hst,
      runs_issue (fun _ => exec_preempt ..) fun _ _ h => ?_, runs_issue (fun _ => exec_preempt ..) fun _ _ h => ?_,
      runs_issue (fun _ => exec_preemptQ ..) fun _ _ _ => rfl,
      evac_runs (fun c t h => ⟨h.1, h.2.1⟩) ?_, evac_runs (fun c t h => ⟨h.1, h.2.1⟩) ?_,
      evac_runs (fun c t h => ⟨h.1, h.2.1⟩) ?_⟩
    · exact congrArg Act.ok ((if_pos h).trans (by rw [h]; rfl))
    · exact congrArg Act.ok (if_neg h)
    · rintro c t ⟨-, -, ⟨hin, hvalid⟩, hgood⟩
      rw [State.evacSlot_good hin fun h => hgood ⟨hin, h⟩]
      exact if_neg (ne_false_of_eq_true hvalid)
    · rintro c t ⟨-, -, hempty, hgood⟩
      by_cases hin : inside c t
      · rw [State.evacSlot_good hin fun h => hgood ⟨hin, h⟩]
        exact if_pos (Bool.eq_false_iff.mpr fun h => hempty ⟨hin, h⟩)
      · exact State.evacSlot_outside hin
    · rintro c t ⟨-, -, hin, hbad⟩
      exact State.evacSlot_bad hin hbad
  · intro tc tx u ok emu
    refine ⟨runs_issue (fun _ => exec_holdt ..) fun c t ⟨hreach, h⟩ => (reach_passes hreach).trans (congrArg Act.ok (if_pos h)),
      runs_issue (fun _ => exec_holdt ..) fun c t ⟨hreach, hx, hst⟩ => (reach_passes hreach).trans (congrArg Act.ok ?_),
      runs_issue (fun _ => exec_holdt ..) fun c t ⟨hreach, hx, hst⟩ => (reach_passes hreach).trans (congrArg Act.ok ?_),
      runs_issue (fun _ => exec_resumet ..) fun c t ⟨hreach, hst⟩ =>
        (reach_passes hreach).trans (congrArg Act.ok (if_pos (.inl hst))),
      runs_issue (fun _ => exec_resumet ..) fun c t ⟨hreach, hst, hreap, hhalt⟩ =>
        (reach_passes hreach).trans (congrArg Act.ok ?_),
      fun s hadm hp ⟨hreach, hst, hreap, hhalt, htraps⟩ => ?_,
      fun s hadm hp ⟨hreach, hst, hreap, hhalt, htraps, hhandler⟩ => ?_,
      emu_runs fun _ => exec_emur .., emu_runs fun _ => exec_emuw ..⟩
    · exact (if_neg (not_free hx (.inr (.inr hst)))).trans (if_pos hst)
    · have hfree := not_free hx (hst.imp_right .inl)
      refine (if_neg hfree).trans (if_neg fun hhalted => ?_)
      rcases hst with h | h <;> exact CtxSt.noConfusion (h.symm.trans hhalted)
    · exact (if_neg (not_dead hst hreap)).trans (if_pos hhalt)
    · exact resumet_restarts p d a false s hadm hp ⟨hreach, hst, hreap, hhalt, due_of_none htraps⟩
    · exact resumet_restarts p d a true s hadm hp ⟨hreach, hst, hreap, hhalt, due_of_some htraps hhandler⟩

end Sys2Proof.Machine
end
section
/-! SUPPORT. O34: messages and the timer at issue (15 R258–R264). -/
namespace Sys2Proof.Machine

theorem send_runs (p : Pred) (st en : Bool) (a : G) (k : Pair) : Runs .any (.send p st en a k) p 8
    (fun c t => t.sendBad (c.getG a) = false ∧ t.myCore.sendQ.length < 16 ∧ t.myCore.drained t.cx = true)
    fun c t =>
      let last := en || c.packet == 3
      let m : Msg := { dst := (c.getG a).setWidth 16, pkg := (c.getG a).extractLsb' 16 5, kind := 0, src := t.slot
                       ctx := t.cx, asid := c.asid, first := c.packet == 0, last := last, data := c.getPair k }
      ((t.modMe fun m => { m with packet := if last then 0 else c.packet + 1 }).modCore t.slot fun q =>
        { q with sendQ := q.sendQ ++ [m] }).afterFree (.meshCreditReturn t.slot) :=
  runs_issue (fun _ => exec_send ..) fun c t ⟨hgood, hroom, hdrained⟩ => by
    have hqueued : ¬(16 ≤ t.myCore.sendQ.length ∨ t.myCore.drained t.cx = false) := by
      rintro (hfull | hopen)
      · omega
      · rw [hdrained] at hopen
        cases hopen
    exact (if_neg (ne_true_of_eq_false hgood)).trans (if_neg hqueued)

/-- Settles O34: a message by its checks, a receive by what the context sees, the timer by its fields. -/
theorem messageInstructions : Obligations.MessageInstructions := by
  intro p st en a g k e
  exact ⟨send_runs p st en a k,
    runs_issue (fun _ => exec_recv ..) fun c t h => by rw [h],
    runs_issue (fun _ => exec_recv ..) fun c t h => by rw [h],
    runs_issue (fun _ => exec_recvT ..) fun c t h => by rw [h],
    runs_issue (fun _ => exec_recvT ..) fun c t h => by rw [h],
    runs_issue (fun _ => exec_timer ..) fun _ _ _ => rfl,
    runs_issue (fun _ => exec_timerRel ..) fun _ _ _ => rfl,
    runs_issue (fun _ => exec_timerOff ..) fun _ _ _ => rfl⟩

end Sys2Proof.Machine
end
section
/-! SUPPORT. O36: translation invalidates and fault replies at issue (15 R267, R268). -/
namespace Sys2Proof.Machine

/-! ## TLBI (15 R267) -/

section
variable {i : Instr} {p : Pred} {mk : Ctx → State → Option Tlbi} (hexec : ∀ s, exec i s = tlbiBody p s mk)
include hexec

theorem tlbi_sends {pre : Ctx → State → Prop} {q : Ctx → State → Tlbi} (hmk : ∀ c t, pre c t → mk c t = some (q c t)) :
    Runs .sOnly i p 8 pre fun c t =>
      ({ t with tlbis := t.tlbis ++ [q c t] } : State).afterFree (.tlbiTakesEffect t.slot t.cx) :=
  runs_issue hexec fun c t h => by rw [hmk c t h]
theorem tlbi_counts {pre : Ctx → State → Prop} (hmk : ∀ c t, pre c t → mk c t = none) :
    Runs .sOnly i p 8 pre fun _ t => t.count t.slot 11 :=
  runs_issue hexec fun c t h => by rw [hmk c t h]
end

/-! ## FLTRPL (15 R268) -/

@[simp] theorem State.count_cx (s : State) (c : CoreId) (e : BitVec 8) : (s.count c e).cx = s.cx :=
  State.cx_of_cyc (s.count_cyc c e)
@[simp] theorem State.count_faultCore (s : State) (c : CoreId) (e : BitVec 8) (f : FaultInfo) :
    (s.count c e).faultCore f = s.faultCore f := by
  simp only [State.faultCore, State.pkgNum, State.count_pkg, State.count_slot]
  rfl

/-- What an outcome counts as "fault abandoned": 0 nothing, 1 one event, 2 and 3 two (15 R268). -/
def State.replyCounted (t : State) (f : FaultInfo) (o : BitVec 2) : State :=
  let t := if o = 0 then t else t.count (t.faultCore f) 13
  if o = 0 ∨ o = 1 then t else t.count (t.faultCore f) 13

theorem State.replyCounted_replay (t : State) (f : FaultInfo) : t.replyCounted f 0 = t := rfl
theorem State.replyCounted_abandon (t : State) (f : FaultInfo) : t.replyCounted f 1 = t.count (t.faultCore f) 13 := rfl
theorem State.replyCounted_twice (t : State) (f : FaultInfo) {o : BitVec 2} (h : o = 2 ∨ o = 3) :
    t.replyCounted f o = (t.count (t.faultCore f) 13).count (t.faultCore f) 13 := by
  have hcount : t.replyCounted f o = (t.count (t.faultCore f) 13).count ((t.count (t.faultCore f) 13).faultCore f) 13 := by
    rcases h with rfl | rfl <;> rfl
  rw [hcount, State.count_faultCore]
theorem State.replyCounted_slot_cx (t : State) (f : FaultInfo) (o : BitVec 2) :
    (t.replyCounted f o).slot = t.slot ∧ (t.replyCounted f o).cx = t.cx := by
  unfold State.replyCounted
  constructor <;> (split <;> split <;> simp)

/-- The answered handle names its issuer, and its replay is scheduled. -/
theorem fltrpl_answers (p : Pred) (a b : G) (u i : Nat) (f : FaultEnt) (o : BitVec 2) : Runs .sOnly (.fltrpl p a b) p 8
    (fun c t => t.handle? ((c.getG a).setWidth 32) = some (u, i, f) ∧ (c.getG b).setWidth 2 = o)
    fun c t => ((t.replyCounted f.info o).setFault u i
      (some { f with issuer := some (t.slot, t.cx, c.tid, (t.replyCounted f.info o).myCore.nextId) })).after 0
      (.faultReplay u i o) :=
  runs_issue (fun _ => exec_fltrpl ..) fun c t ⟨hhandle, ho⟩ => by
    subst ho
    obtain ⟨hslot, hcx⟩ := t.replyCounted_slot_cx f.info ((c.getG b).setWidth 2)
    rw [hhandle, ← hslot, ← hcx]
    rfl

/-- Settles O36: an invalidate by what it names, a fault's word and its reply by what the handle finds. -/
theorem translationControl : Obligations.TranslationControl := by
  intro p d a b u i f T here mine at_ answered
  refine ⟨tlbi_sends (fun _ => exec_tlbiVa ..) fun c t ⟨hglobal, hpkg⟩ => if_neg ?_,
    tlbi_counts (fun _ => exec_tlbiVa ..) fun c t h => if_pos ?_,
    tlbi_sends (fun _ => exec_tlbiAsid ..) fun _ _ _ => rfl, tlbi_sends (fun _ => exec_tlbiAll ..) fun _ _ _ => rfl,
    runs_issue (fun _ => exec_tlbsync ..) fun c t h => congrArg Act.ok (if_neg (Bool.eq_false_iff.mp h)),
    runs_issue (fun _ => exec_tlbsync ..) fun c t h => congrArg Act.ok (if_pos h),
    runs_issue (fun _ => exec_fltrd ..) fun c t h => by dsimp only; rw [h],
    runs_issue (fun _ => exec_fltrd ..) fun c t h => by dsimp only; rw [h],
    fltrpl_answers p a b u i f 0, fltrpl_answers p a b u i f 1, fun o ho => ?_,
    runs_issue (fun _ => exec_fltrpl ..) fun c t h => by rw [h]⟩
  · simp [hglobal, hpkg]
  · by_contra hboth
    push Not at hboth
    exact h ⟨Bool.eq_false_iff.mpr hboth.1, hboth.2⟩
  · have answers := fltrpl_answers p a b u i f o
    simp only [State.replyCounted_twice _ _ ho] at answers
    exact answers

end Sys2Proof.Machine
end
section
/-! SUPPORT. O37: snapshots, counters and way masks at issue (15 R271–R274; 05 R81, R84). -/
namespace Sys2Proof.Machine

/-! ## SNAP (15 R271) -/

section
variable {s : State} {q : BitVec 2}

theorem State.snapTrigger_merged (h : (s.snapAt.any fun e => e.1 == q) = true) : s.snapTrigger q = s := if_pos h
theorem State.snapTrigger_first (h : (s.snapAt.any fun e => e.1 == q) = false) : s.snapTrigger q =
    let due := (s.cyc + 64 + 63) / 64 * 64
    ({ s with snapAt := s.snapAt ++ [(q, due)] } : State).after (due - s.cyc) (.snapshotLatch q) :=
  if_neg (ne_true_of_eq_false h)
end

/-! ## SGWAY (15 R274) -/

section
variable (p : Pred) (d a : G)

/-- A mask that leaves the cache from 1 to 8 ways joins the running SGWAYs; the first of its supergroup begins. -/
theorem sgway_parks {pre : Ctx → State → Prop} {f : Ctx → State → State}
    (hmask : ∀ c t, pre c t → (c.getG a).setWidth 16 ≠ 0#16 ∧ popCount ((c.getG a).setWidth 16 : BitVec 16) ≤ 8)
    (hf : ∀ c t, pre c t →
      (let u := ({ t with sgway := t.sgway ++ [(sgIdx t.slot, t.slot, (c.getG a).setWidth 16, 0)] } : State).parkMe c (.sgway d)
      if (t.sgwayAt (sgIdx t.slot)).isNone then u.afterFree (.storeWipeDone u.slot) else u) = f c t) :
    Runs .c0 (.sgway p d a) p 8 pre f :=
  runs_issue (fun _ => exec_sgway ..) fun c t h => by
    obtain ⟨hzero, hmany⟩ := hmask c t h
    rw [← hf c t h]
    exact if_neg fun hbad => hbad.elim hzero (Nat.not_lt.mpr hmany)
end

/-- Settles O37: each instruction by its check, and by its counters or its ways. -/
theorem countersAndWays : Obligations.CountersAndWays := by
  intro p d a mask pending
  exact ⟨runs_issue (fun _ => exec_snap ..) fun c t h => congrArg Act.ok (State.snapTrigger_first h),
    runs_issue (fun _ => exec_snap ..) fun c t h => congrArg Act.ok (State.snapTrigger_merged h),
    runs_issue (fun _ => exec_cntrd ..) fun _ _ _ => rfl,
    runs_issue (fun _ => exec_cntclr ..) fun _ _ _ => rfl,
    runs_issue (fun _ => exec_waym ..) fun c t h => if_pos h,
    runs_issue (fun _ => exec_waym ..) fun c t h => if_neg (ne_true_of_eq_false h),
    runs_issue (fun _ => exec_sgway ..) fun c t h => if_pos h,
    sgway_parks p d a (fun c t h => ⟨h.1, h.2.1⟩) fun c t h => if_pos (Option.isNone_iff_eq_none.mpr h.2.2),
    sgway_parks p d a (fun c t h => ⟨h.1, h.2.1⟩) fun c t h => if_neg fun hnone => h.2.2 (Option.isNone_iff_eq_none.mp hnone)⟩

end Sys2Proof.Machine
end
section
/-! SUPPORT. O47: fences, barriers, watches and sleeps go on (15 R243–R248). -/
namespace Sys2Proof.Machine

/-! ## What a fence at scope .sys has written back (19 R326) -/

theorem State.pushLine_cores (s : State) (l : Nat) : (s.pushLine l).cores = s.cores := by
  unfold State.pushLine
  split
  · rfl
  · split
    · refine List.foldlRecOn (motive := fun t : State => t.cores = s.cores) _ _ rfl fun t ht d _ => ?_
      split <;> exact ht
    · split <;> rfl
theorem State.pushDev_cores (s : State) (c : CoreId) (x : CtxId) : (s.pushDev c x).cores = s.cores :=
  List.foldlRecOn (motive := fun t : State => t.cores = s.cores) _ _ rfl fun t ht l _ => (t.pushLine_cores l).trans ht
theorem State.pushDev_ctx (s : State) (c : CoreId) (x : CtxId) (d : CoreId) (y : CtxId) :
    (s.pushDev c x).ctx d y = s.ctx d y := by
  simp only [State.ctx, State.core, State.pushDev_cores]

/-- Probes are next once the thread's writes have drained, for a fence that orders them. -/
theorem Core.fenceStep_eq_probe {k : Core} {x : CtxId} {scope : Scope} {order : Order}
    (h : k.fenceStep x scope order = .probe) : order ≠ 1 ∧ k.drained x = true := by
  unfold Core.fenceStep at h
  split at h
  · cases h
  split at h
  · cases h
  next horder =>
    refine ⟨horder, ?_⟩
    split at h
    · split at h <;> cases h
    · split at h
      next hdrained => exact hdrained
      next => cases h

section
variable {s : State} {c : CoreId} {x : CtxId} {scope : Scope} {order : Order}

theorem State.fenceWait_narrower (h : scope ≠ 7) :
    s.fenceWait c x scope order = s.after 1 (.probeEcho c x (s.ctx c x).tid) := by
  rw [State.fenceWait, if_neg fun hsys => h hsys.1]
theorem State.fenceWait_sys (horder : order ≠ 1) (hdrained : (s.core c).drained x = true) :
    s.fenceWait c x 7 order = (s.pushDev c x).after 1 (.probeEcho c x (s.ctx c x).tid) := by
  rw [State.fenceWait, if_pos ⟨rfl, horder, hdrained⟩, State.pushDev_ctx]
end

/-! ## PROBE_ECHO (15 R243) -/

section
variable {s : State} {c : CoreId} {x : CtxId} {tid n : Nat} {scope : Scope} {order : Order}

theorem probeEcho_other (h : (s.ctx c x).tid ≠ tid) : s.probeEcho c x tid = s := if_pos h

variable (htid : (s.ctx c x).tid = tid)
include htid

theorem probeEcho_held (hpark : (s.ctx c x).park = some (.fence scope order n true)) (hheld : s.bankHolds c = true) :
    s.probeEcho c x tid = s.after 1 (.probeEcho c x tid) := by
  rw [State.probeEcho, if_neg (not_not_intro htid), hpark]
  exact if_pos ⟨rfl, hheld⟩
theorem probeEcho_echoes (hpark : (s.ctx c x).park = some (.fence scope order n true)) (hfree : s.bankHolds c = false) :
    s.probeEcho c x tid = if n ≤ 1 then s.unpark c x fun t => { t with touched := 0 }
      else s.modCtx c x fun t => { t with park := some (.fence scope order (n - 1) true) } := by
  have hecho : ¬(true = true ∧ s.bankHolds c = true) := fun h => Bool.false_ne_true (hfree.symm.trans h.2)
  rw [State.probeEcho, if_neg (not_not_intro htid), hpark]
  exact (if_neg hecho).trans (if_pos rfl)
theorem probeEcho_waits (hpark : (s.ctx c x).park = some (.fence scope order n false))
    (hstep : s.fenceStep c x scope order = .wait) : s.probeEcho c x tid = s.fenceWait c x scope order := by
  rw [State.probeEcho, if_neg (not_not_intro htid), hpark]
  simp only [hstep, Bool.false_eq_true, false_and, if_false]
theorem probeEcho_returns (hpark : (s.ctx c x).park = some (.fence scope order n false))
    (hstep : s.fenceStep c x scope order = .ret) : s.probeEcho c x tid = s.unpark c x := by
  rw [State.probeEcho, if_neg (not_not_intro htid), hpark]
  simp only [hstep, Bool.false_eq_true, false_and, if_false]
end

/-! ## BARRIER_RESUME (15 R244, R245) -/

section
variable {s : State} {l i : BitVec 32} {k : BitVec 2} {g : Gang} {j : BitVec 2} {due : Nat} {c : CoreId} {x : CtxId}

/-- Members that wait at the barrier and whose accesses are all performed, or that do not wait there. -/
def State.gangReady (s : State) (l i : BitVec 32) (k : BitVec 2) (g : Gang) : Bool :=
  g.members.all fun m => !(s.ctx m.1 m.2).atBar l i k || s.performed m
theorem State.gangReady_one (hone : g.members = [(c, x)]) :
    s.gangReady l i k g = (!(s.ctx c x).atBar l i k || s.performed (c, x)) := by
  simp [State.gangReady, hone]

variable (hgang : s.gang? l i = some g) (hdue : (g.due.find? fun e => e.1 == k) = some (j, due))
include hgang hdue

theorem barrierResume_sums {a : Access} (hsums : s.sumsAt g k = some (c, x)) (hacc : (s.ctx c x).acc = some a)
    (hst : a.st = .fresh) : s.barrierResume l i k = s.go (.park c x) := by
  simp only [State.barrierResume, hgang, hdue, hsums, Option.bind_some, hacc, Option.map_some, hst, if_true]
/-- With one member, whose context holds no access, no sums are to be written. -/
theorem barrierResume_noSums (hone : g.members = [(c, x)]) (hacc : (s.ctx c x).acc = none) : s.barrierResume l i k =
    if s.cyc < due then s else if s.gangReady l i k g then s.releaseBar l i k g
    else s.after 1 (.barrierResume l i k) := by
  have hnone : ((s.sumsAt g k).bind fun m => (s.ctx m.1 m.2).acc.map fun a => (m, a)) = none := by
    refine Option.bind_eq_none_iff.mpr fun m hm => ?_
    have hmem : m ∈ g.members := List.mem_of_find?_eq_some hm
    rw [hone, List.mem_singleton] at hmem
    rw [hmem, hacc]
    rfl
  simp only [State.barrierResume, hgang, hdue, hnone]
  rfl
end

/-! ## WAITL and SLEEP (15 R247, R248) -/

section
variable {s : State} {c : CoreId} {x : CtxId} {tid : Nat} {d : G} {old : Word} {a : Access} {host : Bool}

/-- The word that a WAITL's read has brought. -/
def Access.word (a : Access) : Word := (a.rdata >>> (8 * (a.va.toNat % 64))).setWidth 64

variable (htid : (s.ctx c x).tid = tid) (hpark : (s.ctx c x).park = some (.waitl d old none host))
  (hacc : (s.ctx c x).acc = some a)
include htid hpark hacc

theorem waitlGo_fresh (hst : a.st = .fresh) : s.waitlGo c x tid =
    if s.inOrder c x tid (s.core c).nextId (s.ctx c x).asid a false then s.go (.park c x)
    else s.after 1 (.waitlWake c x tid) := by
  simp only [State.waitlGo, htid, ne_eq, not_true, if_false, hpark, hacc, hst]
theorem waitlGo_performed (hst : a.st = .performed) : s.waitlGo c x tid =
    (s.modAcc (.park c x) fun b => { b with st := .fresh, map := none }).go (.park c x) := by
  simp only [State.waitlGo, htid, ne_eq, not_true, if_false, hpark, hacc, hst]
theorem waitlGo_differs (hst : a.st = .done) (hnew : a.word ≠ old) : s.waitlGo c x tid =
    (s.setAcc (.park c x) none).unpark c x fun t => t.setG d a.word := by
  simp only [State.waitlGo, htid, ne_eq, not_true, if_false, hpark, hacc, hst]
  exact if_neg fun h => hnew h.1
theorem waitlGo_watches (hst : a.st = .done) (hold : a.word = old) (hpolled : a.polled = true) : s.waitlGo c x tid =
    (s.modAcc (.park c x) fun b => { b with st := .performed }).after 4096 (.waitlPoll c x tid) := by
  simp only [State.waitlGo, htid, ne_eq, not_true, if_false, hpark, hacc, hst]
  exact (if_pos ⟨hold, by simp⟩).trans (if_pos hpolled)
end

theorem sleepDeadline_other {s : State} {c : CoreId} {x : CtxId} {tid : Nat} (h : (s.ctx c x).tid ≠ tid) :
    s.sleepDeadline c x tid = s := if_pos h
theorem sleepDeadline_ends {s : State} {c : CoreId} {x : CtxId} {tid : Nat} {d : G} {w : Word} {m : Bool}
    (htid : (s.ctx c x).tid = tid) (hpark : (s.ctx c x).park = some (.sleep d w m)) (hpast : w.toNat ≤ s.cyc % 2 ^ 64) :
    s.sleepDeadline c x tid = s.unpark c x fun t => t.setG d 0 := by
  rw [State.sleepDeadline, if_neg (not_not_intro htid), hpark]
  exact if_pos hpast

/-- Settles O47: each event runs its function, whose equation for the case the premises choose. -/
theorem waitSteps : Obligations.WaitSteps := by
  intro c x tid sc o n l i k g due d old a w m it wait v bar
  refine ⟨?_, ?_, ?_, ?_, ?_, ?_, ?_, ?_, ?_, ?_, ?_, ?_, ?_, ?_, ?_, ?_, ?_, ?_⟩
  · intro s he h
    rw [Event.row, run_probeEcho he, probeEcho_other h]
  · rintro s he ⟨htid, hpark, hfree⟩
    rw [Event.row, run_probeEcho he, probeEcho_echoes htid hpark hfree]
    rfl
  · rintro s he ⟨htid, hpark, hfree⟩
    rw [Event.row, run_probeEcho he, probeEcho_echoes htid hpark hfree, if_neg (by omega)]
    rfl
  · rintro s he ⟨htid, hpark, hheld⟩
    rw [Event.row, run_probeEcho he, probeEcho_held htid hpark hheld]
  · rintro s he ⟨htid, hpark, hprobe, hdev⟩
    obtain ⟨horder, hdrained⟩ := Core.fenceStep_eq_probe hprobe
    rw [Event.row, run_probeEcho he, probeEcho_waits htid hpark (State.fenceStep_dev hprobe hdev),
      State.fenceWait_sys horder hdrained, htid]
  · rintro s he ⟨htid, hpark, hret⟩
    have hstep : s.fenceStep c x sc o = .ret := (State.fenceStep_eq_core (by simp [hret])).trans hret
    rw [Event.row, run_probeEcho he, probeEcho_returns htid hpark hstep]
    rfl
  · rintro s he ⟨htid, hpark, hwait, hscope⟩
    have hstep : s.fenceStep c x sc o = .wait := (State.fenceStep_eq_core (by simp [hwait])).trans hwait
    rw [Event.row, run_probeEcho he, probeEcho_waits htid hpark hstep, State.fenceWait_narrower hscope, htid]
  · rintro s he ⟨⟨hgang, hdue, hone, hacc⟩, hearly⟩
    rw [Event.row, run_barrierResume he, barrierResume_noSums hgang hdue hone hacc, if_pos hearly]
  · rintro s he ⟨⟨hgang, hdue, hone, hacc⟩, hlate, hperformed⟩
    rw [Event.row, run_barrierResume he, barrierResume_noSums hgang hdue hone hacc, if_neg (Nat.not_lt.mpr hlate),
      State.gangReady_one hone, hperformed, Bool.or_true, if_pos rfl]
  · rintro s he ⟨⟨hgang, hdue, hone, hacc⟩, hlate, hopen, hbar⟩
    rw [Event.row, run_barrierResume he, barrierResume_noSums hgang hdue hone hacc, if_neg (Nat.not_lt.mpr hlate),
      State.gangReady_one hone, hopen, hbar]
    rfl
  · rintro s he ⟨hgang, hdue, hsums, hacc, hst⟩
    rw [Event.row, run_barrierResume he, barrierResume_sums hgang hdue hsums hacc hst]
  · rintro s he ⟨⟨htid, hpark, hacc, hst⟩, hnew⟩
    rw [Event.row, run_waitlWake he, waitlGo_differs htid hpark hacc hst hnew]
    rfl
  · rintro s he ⟨⟨htid, hpark, hacc, hst⟩, hold, hpolled⟩
    rw [Event.row, run_waitlWake he, waitlGo_watches htid hpark hacc hst hold hpolled]
  · rintro s he ⟨⟨htid, hpark, hacc, hst⟩, hbehind⟩
    rw [Event.row, run_waitlWake he, waitlGo_fresh htid hpark hacc hst, hbehind]
    rfl
  · rintro s he ⟨⟨htid, hpark, hacc, hst⟩, hnext⟩
    rw [Event.row, run_waitlWake he, waitlGo_fresh htid hpark hacc hst, hnext]
    rfl
  · rintro s he ⟨htid, hpark, hacc, hst⟩
    rw [Event.row, run_waitlPoll he, waitlGo_performed htid hpark hacc hst]
  · rintro s he ⟨htid, hpark, hpast⟩
    rw [Event.row, run_sleepDeadline he, sleepDeadline_ends htid hpark hpast]
    rfl
  · intro s he h
    rw [Event.row, run_sleepDeadline he, sleepDeadline_other h]

end Sys2Proof.Machine
end
section
/-! SUPPORT. O49: messages and timers arrive, and system instructions end (15 R258–R274; 05 R69, R84; 07 R113). -/
namespace Sys2Proof.Machine

/-! ## Messages and the timer (15 R258–R264) -/

section
variable {s : State} {c : CoreId} {m : Msg} {r : List Msg}

theorem meshCredit_stopped (hq : (s.core c).sendQ = m :: r) (hstop : s.sendStopped c = true) :
    s.meshCredit c = s.after 1 (.meshCreditReturn c) := by
  rw [State.meshCredit, hq]
  exact if_pos hstop
theorem meshCredit_goes (hq : (s.core c).sendQ = m :: r) (hfree : s.sendStopped c = false) : s.meshCredit c =
    let t := s.modCore c fun k => { k with sendQ := r }
    if m.pkg = s.pkgNum then t.sendMsg { m with pkg := s.pkgNum }
    else { t with outbox := t.outbox ++ [.message { m with pkg := s.pkgNum } m.pkg] } := by
  rw [State.meshCredit, hq]
  exact if_neg (ne_true_of_eq_false hfree)
theorem timerFire_due (harmed : (s.core c).timer.getLsbD 63 = true)
    (hpast : (s.core c).timer.toNat % 2 ^ 62 ≤ s.cyc % 2 ^ 64) : s.timerFire c =
    (s.modCore c fun k => { k.timerNotice c s.pkgNum with
      timer := ((s.core c).timer &&& 0x7FFFFFFFFFFFFFFF) ||| 0x4000000000000000 }).pump c :=
  if_pos ⟨harmed, hpast⟩
theorem timerFire_disarmed (h : (s.core c).timer.getLsbD 63 = false) : s.timerFire c = s :=
  if_neg fun harmed => Bool.false_ne_true (h.symm.trans harmed.1)
end

/-! ## STORE_WIPE_DONE (15 R266, R273, R274; 05 R69, R84) -/

section
variable {s : State} {c : CoreId} {d : G} {sel : BitVec 7} {v : Word} {mask : BitVec 16}

theorem storeWipeDone_waym {j : Nat} (hpark : (s.ctx c 0).park = some (.waym d j)) : s.storeWipeDone c =
    (s.modCore c fun k => { k with wayBusy := false }).unpark c 0 fun t => t.setG d 0 := by
  rw [State.storeWipeDone, hpark]
theorem storeWipeDone_movc (hpark : (s.ctx c 0).park = some (.movc sel v)) : s.storeWipeDone c = s.movcDone c sel v := by
  rw [State.storeWipeDone, hpark]
theorem movcDone_traps {b : Nat} (hold : s.deferredIn ((sel.toNat - 0x40) / 4 + 1) c
    (rgnExtent (rgnStore c sel) (s.rgn c sel)) = some b) : s.movcDone c sel v =
    (s.modCtx c 0 fun t => { t with park := none, st := .running }).raise c 0
      { kind := 0, cause := 3, pc := (s.ctx c 0).pc, len := 2, addr := keyAddr b, order := (s.core c).nextId } := by
  simp only [State.movcDone, hold, Option.some_or]
theorem movcDone_wipes
    (hold : s.deferredIn ((sel.toNat - 0x40) / 4 + 1) c (rgnExtent (rgnStore c sel) (s.rgn c sel)) = none)
    (hnew : s.deferredIn ((sel.toNat - 0x40) / 4 + 1) c (rgnExtent (rgnStore c sel) (v &&& 0x80000007FFFFFFFF)) = none) :
    s.movcDone c sel v =
      let e0 := rgnExtent (rgnStore c sel) (s.rgn c sel)
      let e1 := rgnExtent (rgnStore c sel) (v &&& 0x80000007FFFFFFFF)
      (((({ s with rgns := SMap.set 0 s.rgns (rgnIdx c sel) (v &&& 0x80000007FFFFFFFF) } : State).wipe e0.1 e0.2).wipe
        e1.1 e1.2).releaseIn e0.1 e0.2).releaseIn e1.1 e1.2 |>.unpark c 0 := by
  simp only [State.movcDone, hold, hnew, Option.none_or]

/-- The lines in the ways that leave the cache are given up. -/
def State.sgwayTrim (s : State) (sg : BitVec 8) (mask : BitVec 16) : State :=
  s.trimCache sg (popCount (s.plainWays sg.toNat &&& mask))
theorem sgwayAt_only {n : Nat} {sg : BitVec 8} (hrun : s.sgway = [(sg, c, mask, n)]) : s.sgwayAt sg = some (c, mask) := by
  simp [State.sgwayAt, hrun]

variable (hpark : (s.ctx c 0).park = some (.sgway d))
include hpark

theorem storeWipeDone_begins (hrun : s.sgway = [(sgIdx c, c, mask, 0)]) : s.storeWipeDone c =
    ((({ s with sgway := [(sgIdx c, c, mask, 1)] } : State).sgwayBegin (sgIdx c)).sgwayTrim (sgIdx c) mask).after 1
      (.storeWipeDone c) := by
  have hfresh : s.sgway.any (fun e => e.1 == sgIdx c && e.2.1 == c && e.2.2.2 == 0) = true := by simp [hrun]
  have hnext : (s.sgway.map fun e => if e.1 = sgIdx c ∧ e.2.1 = c then (e.1, e.2.1, e.2.2.1, 1) else e) =
      [(sgIdx c, c, mask, 1)] := by simp [hrun]
  rw [State.storeWipeDone, hpark]
  dsimp only
  rw [sgwayAt_only hrun]
  dsimp only
  rw [if_neg (not_not_intro rfl), if_pos hfresh, hnext]
  rfl
/-- The run of a core's SGWAY that has begun: it goes on emptying the ways, or it takes effect. -/
theorem storeWipeDone_runs (hrun : s.sgway = [(sgIdx c, c, mask, 1)]) : s.storeWipeDone c =
    if s.sgwayReady (sgIdx c) mask = false then (s.sgwayTrim (sgIdx c) mask).after 1 (.storeWipeDone c)
    else
      let u := ((s.sgwayDone (sgIdx c) mask).sgwayEnd (sgIdx c)).unpark c 0 fun t => t.setG d 0
      let v : State := { u with
        sgway := (u.sgway.filter fun e => e.1 == sgIdx c).tail ++ u.sgway.filter fun e => e.1 != sgIdx c }
      match v.sgwayAt (sgIdx c) with
      | some (j, _) => v.afterFree (.storeWipeDone j)
      | none => v := by
  have hbegun : ¬s.sgway.any (fun e => e.1 == sgIdx c && e.2.1 == c && e.2.2.2 == 0) = true := by simp [hrun]
  rw [State.storeWipeDone, hpark]
  dsimp only
  rw [sgwayAt_only hrun]
  dsimp only
  rw [if_neg (not_not_intro rfl), if_neg hbegun]
  rfl
/-- With no other SGWAY queued, none runs afterwards. -/
theorem storeWipeDone_ends (hrun : s.sgway = [(sgIdx c, c, mask, 1)]) (hready : s.sgwayReady (sgIdx c) mask = true)
    (hkeep : (s.sgwayDone (sgIdx c) mask).sgway = s.sgway) : s.storeWipeDone c =
      { ((s.sgwayDone (sgIdx c) mask).sgwayEnd (sgIdx c)).unpark c 0 fun t => t.setG d 0 with sgway := [] } := by
  have hlast : (((s.sgwayDone (sgIdx c) mask).sgwayEnd (sgIdx c)).unpark c 0 fun t => t.setG d 0).sgway =
      [(sgIdx c, c, mask, 1)] := hkeep.trans hrun
  have hrest : ([(sgIdx c, c, mask, 1)].filter fun e : BitVec 8 × CoreId × BitVec 16 × Nat => e.1 == sgIdx c).tail ++
      [(sgIdx c, c, mask, 1)].filter (fun e => e.1 != sgIdx c) = [] := by simp
  rw [storeWipeDone_runs hpark hrun, if_neg (ne_false_of_eq_true hready)]
  dsimp only
  rw [hlast, hrest]
  rfl
end

/-! ## TLBI_TAKES_EFFECT (15 R267) -/

/-- The thread's oldest invalidate on its way drops its entries and notes the accesses that use one. -/
def State.tlbiDrops (s : State) (c : CoreId) (x : CtxId) : State :=
  match s.tlbis.find? fun q => (q.core == c && q.ctx == x) && !q.done with
  | some q =>
    let u := s.dropTlb q.keeps
    { u with tlbis := u.tlbis.map fun r => if r = q then { r with done := true, users := u.translating } else r }
  | none => s
/-- An invalidate that is done is over once no access that it noted uses an entry still. -/
def State.tlbiOver (s : State) : State :=
  { s with tlbis := (s.tlbis.map fun q =>
      if q.done then { q with users := q.users.filter fun u => s.translating.contains u } else q).filter fun q =>
    !(q.done && q.users.isEmpty) }
def State.tlbSynced (s : State) (c : CoreId) (x : CtxId) : State :=
  match (s.ctx c x).park with
  | some .tlbsync =>
    if s.tlbis.any fun q => q.core == c && q.ctx == x then
      if s.agenda.any fun e => e.2 == .tlbiTakesEffect c x then s else s.after 1 (.tlbiTakesEffect c x)
    else s.unpark c x
  | _ => s

section
variable {s : State} {c : CoreId} {x : CtxId} {q : Tlbi}

theorem tlbiTakesEffect_stages : s.tlbiTakesEffect c x = (s.tlbiDrops c x).tlbiOver.tlbSynced c x := rfl
theorem tlbiDrops_one (hone : s.tlbis = [q]) (hc : q.core = c) (hx : q.ctx = x) (hdone : q.done = false) :
    s.tlbiDrops c x = { s.dropTlb q.keeps with
      tlbis := [{ q with done := true, users := (s.dropTlb q.keeps).translating }] } := by
  have hfind : (s.tlbis.find? fun r => (r.core == c && r.ctx == x) && !r.done) = some q := by simp [hone, hc, hx, hdone]
  have htlbis : (s.dropTlb q.keeps).tlbis = [q] := hone
  rw [State.tlbiDrops, hfind]
  simp [htlbis]
theorem tlbiDrops_none (hnone : s.tlbis = []) : s.tlbiDrops c x = s := by
  rw [State.tlbiDrops, hnone, List.find?_nil]
theorem tlbiOver_unused (hone : s.tlbis = [q]) (hdone : q.done = true) (hunused : q.users = []) :
    s.tlbiOver = { s with tlbis := [] } := by
  simp [State.tlbiOver, hone, hdone, hunused]
theorem tlbiOver_none (hnone : s.tlbis = []) : s.tlbiOver = s := by
  rw [State.tlbiOver, hnone, List.map_nil, List.filter_nil, ← hnone]
theorem tlbSynced_running (hpark : (s.ctx c x).park = none) : s.tlbSynced c x = s := by
  rw [State.tlbSynced, hpark]
theorem tlbSynced_resumes (hnone : s.tlbis = []) (hpark : (s.ctx c x).park = some .tlbsync) :
    s.tlbSynced c x = s.unpark c x := by
  rw [State.tlbSynced, hpark, hnone]
  rfl

/-- The one invalidate drops its entries, and where no access uses one it is over. -/
theorem tlbiTakesEffect_drops (hone : s.tlbis = [q]) (hc : q.core = c) (hx : q.ctx = x) (hdone : q.done = false)
    (hnone : (s.dropTlb q.keeps).translating = []) (hpark : ((s.dropTlb q.keeps).ctx c x).park = none) :
    s.tlbiTakesEffect c x = { s.dropTlb q.keeps with tlbis := [] } := by
  rw [tlbiTakesEffect_stages, tlbiDrops_one hone hc hx hdone, tlbiOver_unused rfl rfl hnone]
  exact tlbSynced_running hpark
theorem tlbiTakesEffect_resumes (hnone : s.tlbis = []) (hpark : (s.ctx c x).park = some .tlbsync) :
    s.tlbiTakesEffect c x = s.unpark c x := by
  rw [tlbiTakesEffect_stages, tlbiDrops_none hnone, tlbiOver_none hnone, tlbSynced_resumes hnone hpark]
end

/-! ## The emulation window (15 R270; 07 R113) -/

theorem run_emulationAnswer {s : State} {c : CoreId} {x : CtxId} {w : Word} (he : s.ev = some (.emulationAnswer c x w)) :
    exec .emulationRoundTrip s = .next (s.emulationAnswer c x w) := by
  rw [exec_emulationRoundTrip, execEmulationRoundTrip, he]

section
variable {s : State} {c tc : CoreId} {x tx : CtxId} {r : Option G} {i : Nat} {v : Word}
  (hpark : (s.ctx c x).park = some (.emu r tc tx i v))
include hpark

theorem emulationRoundTrip_running (h : (s.ctx tc tx).st ≠ .halted) :
    s.emulationRoundTrip c x = (s.count c 15).emuReply tc c x 0 := by
  rw [State.emulationRoundTrip, hpark]
  exact if_pos h
theorem emulationRoundTrip_halted (h : (s.ctx tc tx).st = .halted) : s.emulationRoundTrip c x =
    if s.allPerformed tc tx = false then s.after 1 (.emulationRoundTrip c x)
    else if r.isSome then s.emuReply tc c x ((s.ctx tc tx).emuRead i)
    else (s.modCtx tc tx fun t => t.emuWrite i v).emuReply tc c x 0 := by
  rw [State.emulationRoundTrip, hpark]
  refine (if_neg (not_not_intro h)).trans ?_
  cases r <;> rfl
theorem emulationAnswer_back {w : Word} : s.emulationAnswer c x w =
    s.unpark c x fun t => match r with | some d => t.setG d w | none => t := by
  simp only [State.emulationAnswer, hpark]
  cases r <;> rfl
end

/-! ### Indices of the window (07 Table 7-13) -/

section
variable (t : Ctx) (w : Word)

theorem Ctx.emuRead_g (r : G) : t.emuRead r.toNat = t.getG r := by
  rw [Ctx.emuRead, if_pos r.isLt, BitVec.ofNat_toNat, BitVec.setWidth_eq]
theorem Ctx.emuRead_v (r : V) (k : Fin 4) :
    t.emuRead (0x40 + 4 * r.toNat + k.val) = (t.getV r).extractLsb' (64 * k.val) 64 := by
  have hr := r.isLt
  have hk := k.isLt
  have hv : (0x40 + 4 * r.toNat + k.val - 0x40) / 4 = r.toNat := by omega
  have hpart : (0x40 + 4 * r.toNat + k.val) % 4 = k.val := by omega
  rw [Ctx.emuRead, if_neg (by omega), if_pos (by omega), hv, hpart, BitVec.ofNat_toNat, BitVec.setWidth_eq]
theorem Ctx.emuRead_p (r : P) : t.emuRead (0x80 + r.toNat) = (t.getP r).setWidth 64 := by
  have hr := r.isLt
  rw [Ctx.emuRead, if_neg (by omega), if_neg (by omega), if_pos (by omega), Nat.add_sub_cancel_left, BitVec.ofNat_toNat,
    BitVec.setWidth_eq]
theorem Ctx.emuWrite_g (r : G) : t.emuWrite r.toNat w = t.setG r w := by
  rw [Ctx.emuWrite, if_pos r.isLt, BitVec.ofNat_toNat, BitVec.setWidth_eq]
theorem Ctx.emuWrite_p (r : P) : t.emuWrite (0x80 + r.toNat) w = t.setP r (w.setWidth 32) := by
  have hr := r.isLt
  rw [Ctx.emuWrite, if_neg (by omega), if_neg (by omega), if_pos (by omega), Nat.add_sub_cancel_left, BitVec.ofNat_toNat,
    BitVec.setWidth_eq]
end

/-- Settles O49: each event runs its function, whose equation for the case the premises choose. -/
theorem messageSteps : Obligations.MessageSteps := by
  refine ⟨fun c m r g => ?_, fun c x d j v tc tx i b sel mask q => ?_, fun t w => ?_⟩
  · refine ⟨?_, ?_, ?_, ?_, ?_, ?_, ?_⟩
    · intro s he _
      rw [Event.row, run_mailboxArrival he]
    · intro s he _
      rw [Event.row, run_gangStartRecord he]
    · rintro s he ⟨hq, hstop⟩
      rw [Event.row, run_meshCreditReturn he, meshCredit_stopped hq hstop]
    · rintro s he ⟨hq, hfree, hown⟩
      rw [Event.row, run_meshCreditReturn he, meshCredit_goes hq hfree]
      exact congrArg _ (if_pos hown)
    · rintro s he ⟨hq, hfree, hother⟩
      rw [Event.row, run_meshCreditReturn he, meshCredit_goes hq hfree]
      exact congrArg _ (if_neg hother)
    · rintro s he ⟨harmed, hpast⟩
      rw [Event.row, run_timerFire he, timerFire_due harmed hpast]
    · intro s he hdisarmed
      rw [Event.row, run_timerFire he, timerFire_disarmed hdisarmed]
  · intro st level new sg trim
    refine ⟨?_, ?_, ?_, ?_, ?_, ?_, ?_, ?_, ?_, ?_, fun r => ?_, fun r => ?_, ?_, ?_⟩
    · intro s he hpark
      rw [Event.row, run_storeWipeDone he, storeWipeDone_waym hpark]
      rfl
    · rintro s he ⟨hpark, hold⟩
      rw [Event.row, run_storeWipeDone he, storeWipeDone_movc hpark, movcDone_traps hold]
    · rintro s he ⟨hpark, hold, hnew⟩
      rw [Event.row, run_storeWipeDone he, storeWipeDone_movc hpark, movcDone_wipes hold hnew]
      rfl
    · rintro s he ⟨hpark, hrun⟩
      rw [Event.row, run_storeWipeDone he, storeWipeDone_begins hpark hrun]
      rfl
    · rintro s he ⟨hpark, hrun, hbusy⟩
      rw [Event.row, run_storeWipeDone he, storeWipeDone_runs hpark hrun, if_pos hbusy]
      rfl
    · rintro s he ⟨hpark, hrun, hready, hkeep⟩
      rw [Event.row, run_storeWipeDone he, storeWipeDone_ends hpark hrun hready hkeep]
      rfl
    · rintro s he ⟨hone, hc, hx, hdone, hnone, hpark⟩
      rw [Event.row, run_tlbiTakesEffect he, tlbiTakesEffect_drops hone hc hx hdone hnone hpark]
    · rintro s he ⟨hnone, hpark⟩
      rw [Event.row, run_tlbiTakesEffect he, tlbiTakesEffect_resumes hnone hpark]
      rfl
    · rintro s he ⟨hpark, hhalted, hperformed⟩
      rw [Event.row, run_emulationRoundTrip he, emulationRoundTrip_halted hpark hhalted, hperformed]
      rfl
    · rintro s he ⟨hpark, hhalted, hperformed⟩
      rw [Event.row, run_emulationRoundTrip he, emulationRoundTrip_halted hpark hhalted, hperformed]
      rfl
    · rintro s he ⟨hpark, hhalted, hopen⟩
      rw [Event.row, run_emulationRoundTrip he, emulationRoundTrip_halted hpark hhalted, if_pos hopen]
    · rintro s he ⟨hpark, hrunning⟩
      rw [Event.row, run_emulationRoundTrip he, emulationRoundTrip_running hpark hrunning]
      rfl
    · rintro s he ⟨u, hpark⟩
      rw [Event.row, run_emulationAnswer he, emulationAnswer_back hpark]
      rfl
    · rintro s he ⟨u, hpark⟩
      rw [Event.row, run_emulationAnswer he, emulationAnswer_back hpark]
      rfl
  · exact ⟨t.emuRead_g, rfl, rfl, rfl, t.emuRead_v, t.emuRead_p, t.emuWrite_g w, rfl, t.emuWrite_p w⟩

end Sys2Proof.Machine
end
section
/-! SUPPORT. O3: the words of Table 17-10 (17 R306). -/
namespace Sys2Proof.Machine

/-- Settles O3: the words are closed, so the decoder and the encoder are run on them. -/
theorem decodeWords : Obligations.DecodeWords := by
  unfold Obligations.DecodeWords
  dsimp only
  decide +kernel

end Sys2Proof.Machine
end
section
/-! SUPPORT. O38: matrix task and graft instructions at issue (17 R298–R305). -/
namespace Sys2Proof.Machine

section
variable {who : Issuer} {i : Instr} {p : Pred} {len : Nat} {body : Ctx → State → Act} {pre : Ctx → State → Prop}

/-- The body of an instruction that refuses its operands takes the issue trap. -/
theorem traps_issue (hexec : ∀ s, exec i s = issue who p len s body) {cause : Nat} {addr : Ctx → State → Word}
    (hbody : ∀ c t, pre c t → body c t = .trap cause (addr c t)) : Traps who i p len pre cause addr := by
  intro s hadm hp hpre
  rw [hexec, issue_runs hadm hp, hbody _ _ hpre]
  rfl
end

section
variable {p : Pred} {d a b : G}

theorem mtask_submits (q : BitVec 3) (pkg : BitVec 5) (off : Nat) : Runs .any (.mtask p q d a) p 8
    (fun c t => (c.getG a).toNat % 128 = 0 ∧ t.checkAddr t.slot (c.getG a) = .ok (.global pkg off) ∧
      (t.tasksOf t.slot t.cx).length < 32 ∧ (t.sg (sgIdx t.slot)).tasks.length < 256 ∧ t.myCore.drained t.cx = true)
    fun c t => t.submit c q d (c.getG a) :=
  runs_issue (fun _ => exec_mtask ..) fun c t ⟨hal, hplace, hthread, hgroup, hdrained⟩ => by
    have hroom : ¬(32 ≤ (t.tasksOf t.slot t.cx).length ∨ 256 ≤ (t.sg (sgIdx t.slot)).tasks.length ∨
        t.myCore.drained t.cx = false) := by
      simp [hdrained, hthread, hgroup]
    refine (if_neg (not_not_intro hal)).trans ?_
    rw [hplace]
    exact if_neg hroom

/-- The issuing thread's outstanding task of a ticket. -/
def State.ticketed (t : State) (w : Word) : Option Task := (t.tasksOf t.slot t.cx).find? fun k => k.ticket == w
/-- MTCAN of a task, none where the ticket names none of the thread's: what it answers and what it ends (17 R301). -/
def State.cancel (t : State) (d : G) : Option Task → State
  | none => t.putG d 2
  | some k =>
    if k.query = 4 ∨ k.query = 5 then t.putG d 1
    else
      (((t.putG d 0).modTask (sgIdx t.slot) k.ticket fun k =>
        { k with st := .ending, fin := some 12, begun := k.st != .issued }).after 0
        (.taskEndError (sgIdx t.slot) k.ticket 12)).kickAccept (sgIdx t.slot)

theorem mtqry_answers (o : Option Task) : Runs .any (.mtqry p d a) p 8 (fun c t => t.ticketed (c.getG a) = o)
    fun _ t => t.putG d (BitVec.ofNat 64 ((o.map Task.query).getD 0)) :=
  runs_issue (fun _ => exec_mtqry ..) fun c t h => by
    subst h
    rfl
theorem mtcan_cancels {o : Option Task} {pre : Ctx → State → Prop} {f : Ctx → State → State}
    (ho : ∀ c t, pre c t → t.ticketed (c.getG a) = o) (hf : ∀ c t, pre c t → t.cancel d o = f c t) :
    Runs .any (.mtcan p d a) p 8 pre f :=
  runs_issue (fun _ => exec_mtcan ..) fun c t h => by
    rw [← hf c t h, ← ho c t h]
    rfl

theorem lyrinit_parks : Runs .any (.lyrinit p d a b) p 8
    (fun c t => AddrOk t (c.getG b) 64 ∧ (isCoord (c.getG b) = true → coordLevel (c.getG b) = 0))
    fun c t => ((t.parkMe c (.lyr d 0 (c.getG a) (c.getG b))).setAcc (.park t.slot t.cx)
      (some (granuleRead (c.getG b)))).afterFree (.graftTableAccessReturn t.slot t.cx) :=
  runs_issue (fun _ => exec_lyrinit ..) fun c t ⟨⟨hal, g, hplace⟩, hlevel⟩ => by
    refine (if_neg (not_not_intro hal)).trans ((if_neg fun h => h.2 (hlevel h.1)).trans ?_)
    rw [hplace]
theorem lyrqX_parks : Runs .any (.lyrqX p d b) p 8 (fun c _ => (c.getG b).toNat % 8 = 0)
    fun c t => t.lyrPark c d 2 0 (c.getG b) :=
  runs_issue (fun _ => exec_lyrqX ..) fun _ _ hal => if_neg (not_not_intro hal)
end

/-- Settles O38: MTASK by its checks, the queries and MTCAN by what the ticket names, the graft instructions by their
operands. -/
theorem taskInstructions : Obligations.TaskInstructions := by
  refine ⟨fun p q d a k pkg off => ?_, fun p d a b => ?_⟩
  · intro find
    exact ⟨mtask_submits q pkg off, traps_issue (fun _ => exec_mtask ..) fun _ _ h => if_pos h,
      mtqry_answers none, mtqry_answers (some k), runs_issue (fun _ => exec_mtqryQ ..) fun _ _ _ => rfl,
      mtcan_cancels (o := none) (fun _ _ h => h) fun _ _ _ => rfl,
      mtcan_cancels (fun _ _ h => h.1) fun _ _ h => if_pos h.2,
      mtcan_cancels (fun _ _ h => h.1) fun _ _ h => if_neg (not_or_intro h.2.1 h.2.2)⟩
  · intro L
    exact ⟨lyrinit_parks, traps_issue (fun _ => exec_lyrinit ..) fun _ _ h => if_pos h,
      runs_issue (fun _ => exec_lyrq ..) fun _ _ _ => rfl, lyrqX_parks,
      runs_issue (fun _ => exec_lyrqW ..) fun _ _ _ => rfl, runs_issue (fun _ => exec_lyrref ..) fun _ _ _ => rfl,
      runs_issue (fun _ => exec_lyrdrop ..) fun _ _ _ => rfl⟩

end Sys2Proof.Machine
end
section
/-! SUPPORT. O53: the arithmetic of a K-step (09 R139–R143). -/
namespace Sys2Proof.Machine

/-! ## Entries of a matrix -/

theorem foldl_add_eq_sum {α : Type} (f : α → Int) (l : List α) (z : Int) :
    l.foldl (fun y x => y + f x) z = z + (l.map f).sum := by
  induction l generalizing z with
  | nil => simp
  | cons x l ih => rw [List.foldl_cons, ih, List.map_cons, List.sum_cons, Int.add_assoc]
/-- Entry (`i`, `j`) of a matrix in row order. -/
theorem Task.cells_getElem? (k : Task) {i j : Nat} (hi : i < k.m) (hj : j < k.n) : k.cells[i * k.n + j]? = some (i, j) := by
  have hlen (r : Nat) : ((List.range r).flatMap fun i => (List.range k.n).map fun j => (i, j)).length = r * k.n := by
    simp [List.length_flatMap]
  have hrow (m : Nat) (hm : i < m) :
      ((List.range m).flatMap fun i => (List.range k.n).map fun j => (i, j))[i * k.n + j]? = some (i, j) := by
    induction m with
    | zero => omega
    | succ m ih =>
      rw [List.range_succ, List.flatMap_append]
      rcases Nat.lt_succ_iff_lt_or_eq.mp hm with hlt | rfl
      · have hin : i * k.n + j < m * k.n :=
          calc i * k.n + j < (i + 1) * k.n := by rw [Nat.succ_mul]; omega
            _ ≤ m * k.n := Nat.mul_le_mul_right _ hlt
        rw [List.getElem?_append_left (by rw [hlen]; exact hin), ih hlt]
      · rw [List.getElem?_append_right (by rw [hlen]; omega), hlen]
        simp [hj]
  exact hrow k.m hi

/-! ## Strips of a K-step (09 R139) -/

/-- The row of A, or column of B, that strip `i` reads, its type, and where its scale words begin. -/
def Task.stripRow (k : Task) (isB : Bool) (i : Nat) : Word :=
  if isB then rowAt (k.w 4) (k.w 5) i else rowAt (k.w 2) (k.w 3) i
def Task.stripTy (k : Task) (isB : Bool) : Ty := if isB then k.tyB else k.tyA
def Task.stripScaled (k : Task) (isB : Bool) : Bool := if isB then k.scaledB else k.scaledA
/-- Element `x` of the strip, and the factor of its sub-group `s`, as they stand in the buffer. -/
def Task.stripElem (k : Task) (isB : Bool) (i t x : Nat) : Nat :=
  bufElem k.buf (k.stripRow isB i) (k.stripTy isB).width (t * k.pair.elems + x)
def Task.stripScale (k : Task) (isB : Bool) (i t s : Nat) : Option (Int × Nat) :=
  scaleOf (BitVec.ofNat 16 (bufNat k.buf
    (scaleAt (if isB then k.w 10 else k.w 9) k.depth i (t * k.pair.elems / 128 + s / 4)) 2)) (s % 4)

/-- A pair whose scales are not ignored has whole groups of 128 elements in a K-step (09 Table 9-6). -/
theorem pairInfo_groups {a b : Ty} {q : PairInfo} (h : pairInfo a b = some q) : q.noScale = true ∨ q.elems % 128 = 0 := by
  unfold pairInfo at h
  split at h
  all_goals cases h
  all_goals decide
theorem Task.pair_groups (k : Task) : k.pair.noScale = true ∨ k.pair.elems % 128 = 0 := by
  unfold Task.pair
  cases h : (do pairInfo (← k.tyA?) (← k.tyB?)) with
  | none => exact .inr (by decide)
  | some q =>
    obtain ⟨a, -, b, -, hq⟩ : ∃ a, k.tyA? = some a ∧ ∃ b, k.tyB? = some b ∧ pairInfo a b = some q := by
      simpa [Option.bind_eq_some_iff] using h
    exact pairInfo_groups hq
theorem Task.scale_groups {k : Task} {isB : Bool} (h : k.stripScaled isB = true) : k.pair.elems % 128 = 0 := by
  refine k.pair_groups.resolve_left fun hno => ?_
  cases isB <;> simp [Task.stripScaled, Task.scaledA, Task.scaledB, hno] at h

section
variable {k : Task} (isB : Bool) (i t : Nat)

theorem Task.strip_elem {x : Nat} (hx : x < k.pair.elems) :
    (k.strip isB i t 1).elems.getD x 0 = k.stripElem isB i t x := by
  simp [Task.strip, hx, Task.stripElem, Task.stripTy, Task.stripRow]
theorem Task.strip_val {x : Nat} (hx : x < k.pair.elems) :
    (k.strip isB i t 1).val x = (elemVal (k.stripTy isB) (k.stripElem isB i t x)).1 := by
  rw [Strip.val, strip_elem isB i t hx]
  rfl
theorem Task.strip_factor_unscaled (s : Nat) (h : k.stripScaled isB = false) : (k.strip isB i t 1).factor s = some none := by
  have hnone : (k.strip isB i t 1).scales = none := if_neg (ne_true_of_eq_false h)
  rw [Strip.factor, hnone]
theorem Task.strip_factor_scaled {s : Nat} (hs : s < k.pair.elems / 32) (h : k.stripScaled isB = true)
    (hscale : (k.stripScale isB i t s).isSome = true) :
    (k.strip isB i t 1).factor s = some (some ((k.stripScale isB i t s).getD (0, 0))) := by
  have hgroups : k.pair.elems % 128 = 0 := Task.scale_groups h
  have hword : s / 4 < k.pair.elems / 128 := by omega
  have hscales : (k.strip isB i t 1).scales = some ((List.range (1 * k.pair.elems / 128)).map fun g => BitVec.ofNat 16
      (bufNat k.buf (scaleAt (if isB then k.w 10 else k.w 9) k.depth i (t * k.pair.elems / 128 + g)) 2)) := if_pos h
  obtain ⟨f, hf⟩ := Option.isSome_iff_exists.mp hscale
  rw [Strip.factor, hscales]
  simp only [one_mul, List.getD_eq_getElem?_getD, List.getElem?_map, List.getElem?_range hword, Option.map_some,
    Option.getD_some, hf]
  exact congrArg (Option.map some) hf
end

/-! ## K-steps (09 R140, R141, R143) -/

/-- The integer path adds the exact sum of the products and clamps it once. -/
theorem kstepInt_value (q : PairInfo) (acc : BitVec 32) (a b : Strip) :
    BitVec.ofNat 32 (kstepInt q acc.toNat a b).1 = BitVec.ofInt 32 (max (-2 ^ 31) (min (2 ^ 31 - 1) (acc.toInt +
      ((List.range q.elems).map fun x =>
        (intValue a.ty (a.elems.getD x 0)).1 * (intValue b.ty (b.elems.getD x 0)).1).sum))) := by
  unfold kstepInt
  rw [foldl_add_eq_sum, BitVec.ofNat_toNat, BitVec.setWidth_eq, Int.add_zero]
  generalize acc.toInt + _ = z
  dsimp only
  split
  next hlow =>
    have hclamp : max (-2 ^ 31) (min (2 ^ 31 - 1) z) = -2 ^ 31 := by omega
    rw [hclamp]
    decide
  next hlow =>
    split
    next hhigh =>
      have hclamp : max (-2 ^ 31) (min (2 ^ 31 - 1) z) = 2 ^ 31 - 1 := by omega
      rw [hclamp]
      decide
    next hhigh =>
      have hclamp : max (-2 ^ 31) (min (2 ^ 31 - 1) z) = z := by omega
      rw [hclamp]
      refine BitVec.eq_of_toNat_eq ?_
      rw [BitVec.toNat_ofInt, BitVec.toNat_ofNat]
      omega

/-- A sub-group whose scales are not NaN: its exact sum, scaled. -/
theorem subTerm_scaled (mode : RMode) (floaty : Bool) {a b : Strip} {s : Nat} {fa fb : Option (Int × Nat)}
    (ha : a.factor s = some fa) (hb : b.factor s = some fb) : (subTerm mode floaty a b s).1 =
      ((exactVals mode ((List.range 32).map fun y => (prodVal (a.val (32 * s + y)) (b.val (32 * s + y))).1)).1.scaleBy
        fa).scaleBy fb := by
  unfold subTerm
  simp only [ha, hb, List.map_map]
  rfl
/-- The float path sums the scaled sub-groups with the accumulator. -/
theorem kstepFloat_value (mode : RMode) (q : PairInfo) (acc : Nat) (a b : Strip) :
    (kstepFloat mode q acc a b).1 = (windowSum mode (fmtF32.decode acc ::
      (List.range (q.elems / 32)).map fun s => (subTerm mode (!q.ints) a b s).1)).1 := by
  unfold kstepFloat
  simp only [List.map_map]
  rfl

/-- The new accumulator of a matrix entry. -/
theorem Task.compute_entry (k : Task) (t : Nat) {i j : Nat} (hi : i < k.m) (hj : j < k.n)
    (hlen : k.accs.length = k.m * k.n) :
    let old := k.accs.getD (i * k.n + j) 0
    let a := k.strip false i t 1
    let b := k.strip true j t 1
    (k.compute t).1[i * k.n + j]? = some (BitVec.ofNat 32
      (if k.floats then (kstepFloat k.mode k.pair old.toNat a b).1 else (kstepInt k.pair old.toNat a b).1)) := by
  intro old a b
  have hin : i * k.n + j < k.accs.length :=
    calc i * k.n + j < (i + 1) * k.n := by rw [Nat.succ_mul]; omega
      _ ≤ k.accs.length := hlen ▸ Nat.mul_le_mul_right _ hi
  have hold : k.accs[i * k.n + j]? = some old := by
    simp [old, hin]
  have hentry : (k.cells.zip k.accs)[i * k.n + j]? = some ((i, j), old) :=
    List.getElem?_zip_eq_some.mpr ⟨k.cells_getElem? hi hj, hold⟩
  unfold Task.compute
  simp only [List.getElem?_map, hentry, Option.map_some, List.getD_eq_getElem?_getD, List.getElem?_range hi,
    List.getElem?_range hj, Option.getD_some]
  split <;> rfl

/-- The exact sum of sub-group `x` of the products of row `i` and column `j`. -/
def Task.subSum (k : Task) (t i j x : Nat) : FVal :=
  (exactVals k.mode ((List.range 32).map fun y =>
    (prodVal (elemVal k.tyA (k.stripElem false i t (32 * x + y))).1
      (elemVal k.tyB (k.stripElem true j t (32 * x + y))).1).1)).1

section
variable {k : Task} (t : Nat) {i j : Nat}

theorem Task.subTerm_strips (floaty : Bool) {x : Nat} (hx : x < k.pair.elems / 32) {fa fb : Option (Int × Nat)}
    (ha : (k.strip false i t 1).factor x = some fa) (hb : (k.strip true j t 1).factor x = some fb) :
    (subTerm k.mode floaty (k.strip false i t 1) (k.strip true j t 1) x).1 =
      ((k.subSum t i j x).scaleBy fa).scaleBy fb := by
  have hval : ∀ y ∈ List.range 32,
      (prodVal ((k.strip false i t 1).val (32 * x + y)) ((k.strip true j t 1).val (32 * x + y))).1 =
        (prodVal (elemVal k.tyA (k.stripElem false i t (32 * x + y))).1
          (elemVal k.tyB (k.stripElem true j t (32 * x + y))).1).1 := by
    intro y hy
    have hin : 32 * x + y < k.pair.elems := by
      have := List.mem_range.mp hy
      omega
    rw [Task.strip_val false i t hin, Task.strip_val true j t hin]
    rfl
  rw [subTerm_scaled k.mode floaty ha hb, List.map_congr_left hval]
  rfl

variable (hi : i < k.m) (hj : j < k.n) (hlen : k.accs.length = k.m * k.n)
include hi hj hlen

theorem Task.compute_int (hints : k.floats = false) : (k.compute t).1[i * k.n + j]? =
    some (BitVec.ofInt 32 (max (-2 ^ 31) (min (2 ^ 31 - 1) ((k.accs.getD (i * k.n + j) 0).toInt +
      ((List.range k.pair.elems).map fun x => (intValue k.tyA (k.stripElem false i t x)).1 *
        (intValue k.tyB (k.stripElem true j t x)).1).sum)))) := by
  have hprod : ∀ x ∈ List.range k.pair.elems,
      (intValue (k.strip false i t 1).ty ((k.strip false i t 1).elems.getD x 0)).1 *
          (intValue (k.strip true j t 1).ty ((k.strip true j t 1).elems.getD x 0)).1 =
        (intValue k.tyA (k.stripElem false i t x)).1 * (intValue k.tyB (k.stripElem true j t x)).1 := by
    intro x hx
    rw [Task.strip_elem false i t (List.mem_range.mp hx), Task.strip_elem true j t (List.mem_range.mp hx)]
    rfl
  rw [k.compute_entry t hi hj hlen, if_neg (ne_true_of_eq_false hints), kstepInt_value, List.map_congr_left hprod]
theorem Task.compute_float (hfloats : k.floats = true) {fa fb : Nat → Option (Int × Nat)}
    (hA : ∀ x < k.pair.elems / 32, (k.strip false i t 1).factor x = some (fa x))
    (hB : ∀ x < k.pair.elems / 32, (k.strip true j t 1).factor x = some (fb x)) : (k.compute t).1[i * k.n + j]? =
      some (BitVec.ofNat 32 (windowSum k.mode (fmtF32.decode (k.accs.getD (i * k.n + j) 0).toNat ::
        (List.range (k.pair.elems / 32)).map fun x => ((k.subSum t i j x).scaleBy (fa x)).scaleBy (fb x))).1) := by
  have hterm : ∀ x ∈ List.range (k.pair.elems / 32),
      (subTerm k.mode (!k.pair.ints) (k.strip false i t 1) (k.strip true j t 1) x).1 =
        ((k.subSum t i j x).scaleBy (fa x)).scaleBy (fb x) := fun x hx =>
    Task.subTerm_strips t _ (List.mem_range.mp hx) (hA x (List.mem_range.mp hx)) (hB x (List.mem_range.mp hx))
  rw [k.compute_entry t hi hj hlen, if_pos hfloats, kstepFloat_value, List.map_congr_left hterm]
end

/-! ## The window sum (09 R141, R142) -/

/-- The sign, magnitude and exponent of a finite value. -/
def FVal.term? : FVal → Option (Bool × Nat × Int)
  | .fin b m e => some (b, m, e)
  | _ => none
/-- The terms that the window holds. -/
def windowTerms (xs : List FVal) : List (Bool × Nat × Int) := (xs.filterMap FVal.term?).filter fun v => v.2.1 != 0
/-- The exponent of a term's leading bit. -/
def leadExp (v : Bool × Nat × Int) : Int := (bitLen v.2.1 : Int) - 1 + v.2.2
/-- A term's part in a window whose last bit is 2^`lsb`, and whether it has bits below. -/
def windowPart (lsb : Int) (v : Bool × Nat × Int) : Nat :=
  if lsb ≤ v.2.2 then v.2.1 * 2 ^ (v.2.2 - lsb).toNat else v.2.1 / 2 ^ (lsb - v.2.2).toNat
def windowRest (lsb : Int) (v : Bool × Nat × Int) : Bool :=
  decide (v.2.2 < lsb) && v.2.1 % 2 ^ (lsb - v.2.2).toNat != 0
def windowHigh (lsb : Int) (nz : List (Bool × Nat × Int)) : Int :=
  (nz.map fun v => if v.1 then -(windowPart lsb v : Int) else windowPart lsb v).sum

/-- The sum `hi` of the terms' parts, rounded: with no part left and nothing below, it is zero (09 R142). -/
def windowRound (mode : RMode) (lsb hi : Int) (nz : List (Bool × Nat × Int)) : Nat × Word :=
  if hi = 0 ∧ ¬nz.any (windowRest lsb) then (fmtF32.zero (mode == .down), 0)
  else
    let s := if hi = 0 then ((largestSign nz).map fun x => x.1).getD false else decide (hi < 0)
    let q := roundTo fmtF32 { mode := mode } false s hi.natAbs lsb (nz.any (windowRest lsb))
    (q.1, if q.2 &&& fOverflow = 0 then 0 else stOverflow)

/-- The model's sum, with its parts named. -/
theorem windowSum_eq (mode : RMode) (xs : List FVal) : windowSum mode xs =
    if xs.any FVal.isNan then (fmtF32.defaultNan, 0)
    else if xs.contains (.inf false) ∧ xs.contains (.inf true) then (fmtF32.defaultNan, stInvalid)
    else if xs.contains (.inf false) then (fmtF32.infBits false, 0)
    else if xs.contains (.inf true) then (fmtF32.infBits true, 0)
    else
      match windowTerms xs with
      | [] =>
        let ts := xs.filterMap FVal.term?
        (fmtF32.zero (ts.all (fun v => v.1) || (mode == .down && !ts.all fun v => !v.1)), 0)
      | v :: _ =>
        let lsb := (windowTerms xs).foldl (fun a x => max a (leadExp x)) (leadExp v) - 63
        windowRound mode lsb ((windowTerms xs).foldl
          (fun a x => if x.1 then a - (windowPart lsb x : Int) else a + (windowPart lsb x : Int)) 0) (windowTerms xs) := rfl

/-- The fold of the model, for terms whose highest leading bit is at `top`. -/
theorem foldl_leadExp {v : Bool × Nat × Int} {r : List (Bool × Nat × Int)} {top : Int}
    (hle : ∀ u ∈ v :: r, leadExp u ≤ top) (hmax : ∃ u ∈ v :: r, leadExp u = top) :
    (v :: r).foldl (fun a x => max a (leadExp x)) (leadExp v) = top := by
  have htop : ((v :: r).map leadExp).max? = some top :=
    List.max?_eq_some_iff.mpr ⟨List.mem_map.mpr hmax, List.forall_mem_map.mpr hle⟩
  rw [← List.foldl_map (f := leadExp) (g := max), List.foldl_max, htop]
  exact max_eq_right (hle v List.mem_cons_self)
theorem foldl_windowHigh (lsb : Int) (nz : List (Bool × Nat × Int)) :
    nz.foldl (fun a x => if x.1 then a - (windowPart lsb x : Int) else a + (windowPart lsb x : Int)) 0 =
      windowHigh lsb nz := by
  have hstep : (fun (a : Int) (x : Bool × Nat × Int) =>
      if x.1 then a - (windowPart lsb x : Int) else a + (windowPart lsb x : Int)) =
      fun a x => a + if x.1 then -(windowPart lsb x : Int) else windowPart lsb x := by
    funext a x
    cases x.1 <;> simp [sub_eq_add_neg]
  rw [hstep, foldl_add_eq_sum, Int.zero_add]
  rfl

/-- Where the terms do not cancel, the sum is rounded once, with its own sign. -/
theorem windowRound_sum (mode : RMode) {lsb hi : Int} {nz : List (Bool × Nat × Int)} (h : hi ≠ 0) :
    windowRound mode lsb hi nz =
    let q := roundTo fmtF32 { mode := mode } false (hi < 0) hi.natAbs lsb (nz.any (windowRest lsb))
    (q.1, if q.2 &&& fOverflow = 0 then 0 else stOverflow) := by
  unfold windowRound
  rw [if_neg fun hz => h hz.1, if_neg h]

section
variable {mode : RMode} {xs : List FVal}

theorem windowSum_nan (h : xs.any FVal.isNan = true) : windowSum mode xs = (fmtF32.defaultNan, 0) := if_pos h

variable (hnan : xs.any FVal.isNan = false)
include hnan

theorem windowSum_invalid (hpos : .inf false ∈ xs) (hneg : .inf true ∈ xs) :
    windowSum mode xs = (fmtF32.defaultNan, stInvalid) :=
  (if_neg (ne_true_of_eq_false hnan)).trans
    (if_pos ⟨List.contains_iff_mem.mpr hpos, List.contains_iff_mem.mpr hneg⟩)
theorem windowSum_inf {b : Bool} (hin : .inf b ∈ xs) (hout : .inf (!b) ∉ xs) :
    windowSum mode xs = (fmtF32.infBits b, 0) := by
  rw [windowSum_eq, if_neg (ne_true_of_eq_false hnan)]
  cases b with
  | false =>
    rw [if_neg fun h => hout (List.contains_iff_mem.mp h.2), if_pos (List.contains_iff_mem.mpr hin)]
  | true =>
    have hpos : ¬xs.contains (.inf false) = true := fun h => hout (List.contains_iff_mem.mp h)
    rw [if_neg fun h => hpos h.1, if_neg hpos, if_pos (List.contains_iff_mem.mpr hin)]

variable (hpos : .inf false ∉ xs) (hneg : .inf true ∉ xs)
include hpos hneg

/-- A sum of finite terms, not all zero, whose highest leading bit is at `top`. -/
theorem windowSum_finite {top : Int} (hle : ∀ v ∈ windowTerms xs, leadExp v ≤ top)
    (hmax : ∃ v ∈ windowTerms xs, leadExp v = top) : windowSum mode xs =
      windowRound mode (top - 63) (windowHigh (top - 63) (windowTerms xs)) (windowTerms xs) := by
  have hfirst : ¬xs.contains (.inf false) = true := fun h => hpos (List.contains_iff_mem.mp h)
  have hsecond : ¬xs.contains (.inf true) = true := fun h => hneg (List.contains_iff_mem.mp h)
  rw [windowSum_eq, if_neg (ne_true_of_eq_false hnan), if_neg fun h => hfirst h.1, if_neg hfirst, if_neg hsecond]
  cases hterms : windowTerms xs with
  | nil => simp [hterms] at hmax
  | cons v r =>
    rw [hterms] at hle hmax
    dsimp only
    rw [foldl_leadExp hle hmax, foldl_windowHigh]
end

end Sys2Proof.Machine
end
section
/-! SUPPORT. O53: matrix tasks from acceptance to their record (17 R282–R290). -/
namespace Sys2Proof.Machine

/-! ## The stages of one task -/

section
variable {s : State} {g : BitVec 8} {k : Task}

theorem taskAccept_gone {tk : Word} (h : s.task g tk = none) : s.taskAccept g tk = s := by
  rw [State.taskAccept, h]
theorem taskIssue_none (h : (s.markReady g).pickTask g ((s.markReady g).sg g).tasks = none) :
    s.taskIssue g = s.markReady g := by
  simp only [State.taskIssue, h]
theorem taskIssue_picks {e : Nat} (h : (s.markReady g).pickTask g ((s.markReady g).sg g).tasks = some (k, e))
    (hop : k.op ≠ 2) : s.taskIssue g =
      let r := s.markReady g
      let t := (r.modTask g k.ticket fun q =>
        { q with st := .running, engine := e, step := 0, kstep := 0, passes := if q.committed then q.passes else 0
                 accs := [], buf := [], acc := none, readyAt := none, issuedAt := r.cyc
                 changes := (r.engine g e).config != q.cfgId }).kickIssue g
      t.after 1 (if (t.engine g e).config = k.cfgId then .taskKstep g k.ticket else .configurationChange g k.ticket) := by
  simp only [State.taskIssue, h, if_neg hop, Task.startEvent]

theorem acceptNext_record (hstep : k.step = 0) : s.acceptNext g k = s.taskAccess g k.ticket .plain (granuleRead k.record) :=
  if_pos hstep
theorem acceptNext_refused {c : Nat} (hstep : k.step = 3) (hform : k.formError true = some c) :
    s.acceptNext g k = s.taskEnd g k.ticket c := by
  rw [State.acceptNext, if_neg (by omega), if_neg (by omega), if_neg (by omega), if_pos hstep, hform]
theorem presenceNext_place {w : Word} (h : k.presencePlaces[k.step]? = some w) : s.presenceNext g k =
    (s.modTask g k.ticket fun q => { q with st := .presence }).taskAccess g k.ticket .presence (granuleRead w) := by
  rw [State.presenceNext, h]
theorem presenceNext_ready (h : k.presencePlaces[k.step]? = none) : s.presenceNext g k =
    (s.modTask g k.ticket fun q => { q with st := .ready, step := 0, acc := none }).kickIssue g := by
  rw [State.presenceNext, h]
theorem drained_eq : s.drained g k = !(s.sg g).running.any fun q =>
    q.engine == k.engine && decide (q.issuedAt < k.issuedAt) := by
  simp [State.drained, List.not_any_eq_all_not]
theorem runStep_last (hconfig : (s.engine g k.engine).config = k.cfgId) (hfree : (s.engine g k.engine).busyUntil ≤ s.cyc)
    (hbehind : s.behind g k = false) (hlast : k.kstep + 1 = k.steps) : s.runStep g k =
      let r := k.compute k.kstep
      let t := (s.countN k.core 6 r.2.2.1).countN k.core 5 r.2.2.2
      let t := t.modTask g k.ticket fun q =>
        { q with accs := r.1, status := q.status ||| r.2.1, kstep := q.kstep + 1, passes := q.passes + 1, buf := []
                 step := 0, writing := true }
      (t.modEngine g k.engine fun e => { e with busyUntil := t.cyc + k.pair.cc }).after k.pair.cc
        (.taskDWrite g k.ticket) := by
  have hlast' : (k.kstep + 1 == k.steps) = true := beq_iff_eq.mpr hlast
  have hturn : ¬(s.cyc < (s.engine g k.engine).busyUntil ∨ s.behind g k = true) := by
    simp [hbehind, hfree]
  rw [State.runStep, if_neg hturn, if_neg (not_not_intro hconfig), hlast']
  rfl

variable (hk : s.task g k.ticket = some k)
include hk

theorem taskAccept_next (hst : k.st = .issued) (hacc : k.acc = none)
    (hfirst : ((s.sg g).tasks.find? fun t => t.st == .issued).map Task.ticket = some k.ticket) :
    s.taskAccept g k.ticket = s.acceptNext g k := by
  simp only [State.taskAccept, hk]
  rw [if_neg (not_not_intro hst), if_neg (not_not_intro hfirst), hacc]
  rfl
theorem taskPresence_next (hst : k.st = .presence) (hacc : k.acc = none) :
    s.taskPresence g k.ticket = s.presenceNext g k := by
  simp only [State.taskPresence, hk, hst, hacc]
  rfl
theorem configurationChange_runs (hst : k.st = .running) (hch : k.changes = true) :
    s.configurationChange g k.ticket =
      if s.drained g k = false ∨ s.cyc < (s.engine g k.engine).busyUntil then s.after 1 (.configurationChange g k.ticket)
      else
        ((((s.modTask g k.ticket fun q => { q with changes := false }).modEngine g k.engine fun e =>
          { e with config := k.cfgId, busyUntil := s.cyc + 16 }).count k.core 8).after 16 (k.startEvent g)).kickIssue g := by
  simp only [State.configurationChange, hk]
  exact if_neg (by simp [hst, hch])
theorem taskKstep_operands (hst : k.st = .running) (hw : k.writing = false) (hop : k.op ≠ 2) (hch : k.changes = false)
    (hbegun : k.begun = true) (haccs : k.accs ≠ []) (hacc : k.acc = none)
    (hread : (k.placesA k.kstep 1 ++ k.placesB k.kstep 1 ++ k.placesS k.kstep 1)[k.step]? = none) :
    s.taskKstep g k.ticket = s.runStep g k := by
  simp only [State.taskKstep, hk]
  rw [if_neg (by simp [hst, hw, hop, hch]), State.taskBegin, if_pos hbegun, State.stepNext, if_neg haccs, State.gather, hacc]
  dsimp only
  rw [hread]
theorem taskDWrite_row (hst : k.st = .running) (hw : k.writing = true) (hacc : k.acc = none) (hrow : k.rows < k.m) :
    s.taskDWrite g k.ticket = s.taskAccess g k.ticket .operand (k.rowWrite k.rows k.step) := by
  simp only [State.taskDWrite, hk, hst, hw, hacc]
  exact if_neg (Nat.not_le.mpr hrow)
theorem taskComplete_written {a : Access} (hst : k.st = .ending) (hfin : k.fin = some 0) (hacc : k.acc = some a)
    (hdone : a.st = .done) : s.taskComplete g k.ticket = s.finishTask g k 0 := by
  simp only [State.taskComplete, hk, hst, hfin, hacc, hdone]
  rfl
theorem taskEndError_written {a : Access} {c cause : Nat} (hst : k.st = .ending) (hfin : k.fin = some c) (hc : c ≠ 0)
    (hlast : k.last = true) (hacc : k.acc = some a) (hdone : a.st = .done) :
    s.taskEndError g k.ticket cause = (s.modTask g k.ticket fun _ => k).finishTask g k c := by
  simp only [State.taskEndError, hk, hst, hfin, hlast, hacc, hdone, Option.getD_some, if_true]
  exact if_neg hc
/-- A task that was accepted and does not end yet has its record written, with no access of its own in the way. -/
theorem taskEndError_ends {c : Nat} (hst : k.st = .ready) (hc : c ≠ 0) (hacc : k.acc = none) :
    s.taskEndError g k.ticket c =
      let q := { k with fin := some c, begun := true, st := .ending, last := false }
      ((s.modTask g k.ticket fun _ => q).modTask g k.ticket fun k => { k with last := true }).taskAccess g k.ticket .plain
        (q.recWrite true (c == 12) (if c = 12 then 5 else 4) c) := by
  have hnot : k.st ≠ .ending := by rw [hst]; decide
  have hbegun : (k.st != .issued) = true := by rw [hst]; decide
  simp only [State.taskEndError, hk, if_neg hnot, hbegun, hacc, Option.getD_some, Option.any_none]
  rw [if_neg hc]
  rfl
theorem taskFault_unable (hst : k.st = .running) (hnote : s.taskNote g k = .unable) :
    s.taskFault g k.ticket false = (s.leaveEngine g k).modTask g k.ticket fun q => { q with st := .faulted } := by
  simp only [State.taskFault, hk, hnote]
  exact if_neg (not_not_intro hst)
end

/-- Settles O53: each event runs its function, whose equation for the case the premises choose; a K-step by the entries of
its matrix, the window sum by its terms. -/
theorem taskSteps : Obligations.TaskSteps := by
  intro g tk k e c a w it
  refine ⟨?_, ?_, ?_, ?_, ?_, ?_, ?_, ?_, ?_, ?_, ?_, ?_, ?_, ?_, ?_, fun t i j hi hj hlen => ?_, fun mode xs => ?_⟩
  · intro s he h
    rw [Event.row, run_taskAccept he, taskAccept_gone h]
  · rintro s he ⟨⟨hk, rfl⟩, hst, hacc, hstep, hfirst⟩
    rw [Event.row, run_taskAccept he, taskAccept_next hk hst hacc hfirst, acceptNext_record hstep]
    rfl
  · rintro s he ⟨⟨hk, rfl⟩, hst, hacc, hstep, hfirst, hform⟩
    rw [Event.row, run_taskAccept he, taskAccept_next hk hst hacc hfirst, acceptNext_refused hstep hform]
    rfl
  · rintro s he ⟨⟨hk, rfl⟩, hst, hacc, hplace⟩
    rw [Event.row, run_taskPresenceCheck he, taskPresence_next hk hst hacc, presenceNext_place hplace]
    rfl
  · rintro s he ⟨⟨hk, rfl⟩, hst, hacc, hplace⟩
    rw [Event.row, run_taskPresenceCheck he, taskPresence_next hk hst hacc, presenceNext_ready hplace]
  · intro s he h
    rw [Event.row, run_taskIssue he, taskIssue_none h]
  · rintro s he ⟨h, hop⟩
    rw [Event.row, run_taskIssue he, taskIssue_picks h hop]
  · rintro s he ⟨⟨hk, rfl⟩, hst, hch, hearlier⟩
    rw [Event.row, run_configurationChange he, configurationChange_runs hk hst hch, if_pos]
    exact .inl (by rw [drained_eq, hearlier]; rfl)
  · rintro s he ⟨⟨hk, rfl⟩, hst, hch, hearlier, hfree⟩
    rw [Event.row, run_configurationChange he, configurationChange_runs hk hst hch, if_neg]
    rw [drained_eq, hearlier]
    simpa using hfree
  · rintro s he ⟨⟨hk, rfl⟩, hst, hw, hop, hbegun, hch, hconfig, haccs, hacc, hread, hfree, hbehind, hlast⟩
    rw [Event.row, run_taskKstep he, taskKstep_operands hk hst hw hop hch hbegun haccs hacc hread,
      runStep_last hconfig hfree hbehind hlast]
  · rintro s he ⟨⟨hk, rfl⟩, hst, hw, hacc, hrow⟩
    rw [Event.row, run_taskDWrite he, taskDWrite_row hk hst hw hacc hrow]
  · rintro s he ⟨⟨hk, rfl⟩, hst, hfin, hacc, hdone⟩
    rw [Event.row, run_taskComplete he, taskComplete_written hk hst hfin hacc hdone]
  · rintro s he ⟨⟨hk, rfl⟩, hst, hfin, hc, hlast, hacc, hdone⟩
    rw [Event.row, run_taskEndError he, taskEndError_written hk hst hfin hc hlast hacc hdone]
  · rintro s he ⟨⟨hk, rfl⟩, hst, hc, hacc⟩
    rw [Event.row, run_taskEndError he, taskEndError_ends hk hst hc hacc]
  · rintro s he ⟨⟨hk, rfl⟩, hst, hnote⟩
    rw [Event.row, run_taskFault he, taskFault_unable hk hst hnote]
  · intro el as bs scale old new sum term path
    refine ⟨Task.compute_int t hi hj hlen, fun hfloats hA hB => ?_, fun hfloats hA hB hscale => ?_⟩
    · exact Task.compute_float t hi hj hlen hfloats (fun x _ => Task.strip_factor_unscaled false i t x hA)
        fun x _ => Task.strip_factor_unscaled true j t x hB
    · exact Task.compute_float t hi hj hlen hfloats
        (fun x hx => Task.strip_factor_scaled false i t hx hA (hscale x hx).1)
        fun x hx => Task.strip_factor_scaled true j t hx hB (hscale x hx).2
  · intro nan fin nz
    refine ⟨windowSum_nan, windowSum_invalid, fun b hnan => windowSum_inf hnan, fun top hnan hpos hneg hle hmax => ?_⟩
    intro lsb size hi sticky round
    have hsum := windowSum_finite (mode := mode) hnan hpos hneg hle hmax
    refine ⟨fun hzero hsticky => hsum.trans (if_pos ⟨hzero, ne_true_of_eq_false hsticky⟩), fun hne => ?_⟩
    exact hsum.trans (windowRound_sum mode hne)

end Sys2Proof.Machine
end
section
/-! SUPPORT. O54: grafts and the graft table (17 R291–R298, R302–R305). -/
namespace Sys2Proof.Machine

/-! ## Invocations, restarts and commits (17 R291–R297) -/

section
variable {s : State} {g : BitVec 8} {k : Task} (hk : s.task g k.ticket = some k) (hst : k.st = .running)
include hk hst

theorem graftInvocation_goes (hop : k.op = 2) (hw : k.writing = false) (hbegun : k.begun = true)
    (hch : k.changes = false) : s.graftInvocation g k.ticket = s.graftGo g k := by
  simp only [State.graftInvocation, hk]
  rw [if_neg (by simp [hst, hop, hw, hch]), if_pos hbegun]

variable (hopen : k.committed = false)
include hopen

theorem graftRestart_begins : s.graftRestart g k.ticket =
    (s.count k.core 10).graftBegin g { k with acc := none } fun s k => s.graftGo g k := by
  simp only [State.graftRestart, hk]
  exact if_neg (by simp [hst, hopen])
/-- X̂ and Y go to their places in the tenant's partition, then the record is committed; Committed is written last. -/
theorem graftCommit_writes {r : Granule} {p : Nat × Nat × Bool} (hrec : s.graftRec k.graftIdx = some r)
    (hpart : s.partition (recTenant r) = .ok p) : s.graftCommit g k.ticket =
      let t := ((s.storeWrite (p.1 + recX r) k.xnew).storeWrite (p.1 + recY r) k.ynew).setRec k.graftIdx
        (committedRec r k.reason k.v0)
      let q := { k with committed := true, xnew := [], ynew := [], acc := none }
      (t.modTask g k.ticket fun _ => q).taskAccess g k.ticket .plain q.rowsWrite := by
  simp only [State.graftCommit, hk]
  rw [if_neg (by simp [hst, hopen]), hrec]
  dsimp only
  rw [State.graftStore, hpart]
  rfl
end

/-! ## A tenant's partition entry (17 Table 17-6) -/

section
variable {s : State} {asid : BitVec 16}

theorem partition_of_read {r : Granule} (h : s.plainRead (s.partKey asid) = .ok r) : s.partition asid =
    let o := s.partKey asid
    let base : Word := r.extractLsb' (8 * (o % 64)) 64
    let limit : Word := r.extractLsb' (8 * (o % 64) + 64) 64
    .ok (base.toNat / 4096 * 4096, limit.toNat / 4096 * 4096, base.getLsbD 0) := by
  rw [State.partition]
  dsimp only
  rw [h]

variable {c : CoreId} {x : CtxId} {f : Nat × Nat × Bool → State}

theorem lyrPartition_ok {p : Nat × Nat × Bool} (h : s.partition asid = .ok p) : s.lyrPartition c x asid f = f p := by
  rw [State.lyrPartition, h]
theorem lyrPartition_busy (h : s.partition asid = .busy) : s.lyrPartition c x asid f =
    (s.nudge (s.partKey asid)).after 1 (.graftTableAccessReturn c x) := by
  rw [State.lyrPartition, h]
end

/-! ## The access of an instruction returns (17 R298, R302–R305) -/

section
variable {s : State} {c : CoreId} {x : CtxId} {d : G} {a b : Word}

theorem lyrReturn_image {q : Access} (hpark : (s.ctx c x).park = some (.lyr d 0 a b)) (hacc : (s.ctx c x).acc = some q)
    (hdone : q.st = .done) (hfree : s.recordHeld (a.setWidth 16) = false) :
    s.lyrReturn c x = s.lyrinitDo c x d (a.setWidth 16) q.rdata := by
  simp only [State.lyrReturn, hpark, hacc, hdone, hfree]
  rfl
theorem lyrReturn_store (hpark : (s.ctx c x).park = some (.lyr d 2 a b)) : s.lyrReturn c x = s.lyrStore c x d b := by
  rw [State.lyrReturn, hpark]
  rfl
theorem lyrReturn_watch (hpark : (s.ctx c x).park = some (.lyr d 3 a b)) :
    s.lyrReturn c x = s.lyrDone c x d ((s.watchVersion (b.setWidth 8)).setWidth 64) := by
  rw [State.lyrReturn, hpark]
  rfl
theorem lyrReturn_drop (hpark : (s.ctx c x).park = some (.lyr d 5 a b)) : s.lyrReturn c x =
    if a.setWidth 16 ≠ 0#16 ∧ s.tenantHeld (a.setWidth 16) then s.after 1 (.graftTableAccessReturn c x)
    else s.lyrDrop c x d (a.setWidth 16) := by
  rw [State.lyrReturn, hpark]
  rfl
/-- LYRQ of a record, and LYRREF. -/
theorem lyrReturn_record {op : Nat} (hop : op = 1 ∨ op = 4) (hpark : (s.ctx c x).park = some (.lyr d op a b)) :
    s.lyrReturn c x = if s.recordHeld (a.setWidth 16) then s.after 1 (.graftTableAccessReturn c x)
      else s.lyrRecord c x d op (a.setWidth 16) b := by
  rw [State.lyrReturn, hpark]
  rcases hop with rfl | rfl <;> rfl
end

section
variable {s : State} {c : CoreId} {x : CtxId} {d : G} {i : BitVec 16} {im r : Granule} {b : Word} {op : Nat}
  (hrec : s.graftRec i = some r)
include hrec

theorem lyrinitDo_mismatch (hused : recFree r = false) (htenant : recTenant r ≠ (s.ctx c x).asid) :
    s.lyrinitDo c x d i im = s.lyrTrap c x 9 0 := by
  simp only [State.lyrinitDo, hrec]
  exact if_pos ⟨ne_true_of_eq_false hused, htenant⟩
theorem lyrinitDo_tenant (htenant : recFree r = true ∨ recTenant r = (s.ctx c x).asid) : s.lyrinitDo c x d i im =
    if imageBad im then s.lyrDone c x d 1
    else
      s.lyrPartition c x (s.ctx c x).asid fun p =>
        if rangesBad im p then s.lyrDone c x d 2
        else (s.setRec i (initRec r im (s.ctx c x).asid)).lyrDone c x d 0 := by
  simp only [State.lyrinitDo, hrec]
  exact if_neg fun ⟨hused, hother⟩ => htenant.elim hused hother
theorem lyrRecord_free (hfree : recFree r = true) : s.lyrRecord c x d 4 i b = s.lyrDone c x d 1 := by
  simp only [State.lyrRecord, hrec]
  exact if_pos ⟨trivial, hfree⟩
theorem lyrRecord_used (hused : ¬(op = 4 ∧ recFree r = true)) : s.lyrRecord c x d op i b =
    if (s.ctx c x).priv ≠ .s ∧ recTenant r ≠ (s.ctx c x).asid then s.lyrTrap c x 9 0
    else if op = 1 then s.lyrDone c x d (r.word (b.toNat % 8))
    else (s.setRec i (r.setWord 4 (r.word 4 ||| (1 <<< 63)))).lyrDone c x d 0 := by
  simp only [State.lyrRecord, hrec]
  exact if_neg hused
end

section
variable {s : State} {c : CoreId} {x : CtxId} {d : G} {off : Word} {p : Nat × Nat × Bool}
  (hpart : s.partition (s.ctx c x).asid = .ok p)
include hpart

theorem lyrStore_outside (h : p.2.2 = false ∨ p.2.1 - p.1 ≤ off.toNat) : s.lyrStore c x d off = s.lyrTrap c x 5 off := by
  rw [State.lyrStore, lyrPartition_ok hpart]
  exact if_pos (h.imp_left ne_true_of_eq_false)
theorem lyrStore_word {w : Word} (hvalid : p.2.2 = true) (hin : off.toNat < p.2.1 - p.1)
    (hw : s.rawWord (p.1 + off.toNat) = some w) : s.lyrStore c x d off = s.lyrDone c x d w := by
  have hinside : ¬(¬p.2.2 = true ∨ p.2.1 - p.1 ≤ off.toNat) := fun h => h.elim (· hvalid) (Nat.not_le.mpr hin)
  rw [State.lyrStore, lyrPartition_ok hpart, if_neg hinside, hw]
end

/-- The step of an instruction's access is `lyrReturn`. -/
theorem performs_lyrReturn {c : CoreId} {x : CtxId} {pre : State → Prop} {f : State → State}
    (h : ∀ s, pre s → s.lyrReturn c x = f s) : Performs (.graftTableAccessReturn c x) pre f := by
  intro s he hpre
  rw [Event.row, run_graftTableAccessReturn he, h s hpre]

/-- Settles O54: each event runs its function, whose equation for the case the premises choose. -/
theorem graftSteps : Obligations.GraftSteps := by
  intro g tk k r x0 y0 xk yk c x d a b w q v it par ret i
  have query : ¬((1 : Nat) = 4 ∧ recFree r = true) := fun h => absurd h.1 (by decide)
  have refresh (h : recFree r = false) : ¬((4 : Nat) = 4 ∧ recFree r = true) := fun hfree => ne_true_of_eq_false h hfree.2
  refine ⟨?_, ?_, ?_, performs_lyrReturn ?_, performs_lyrReturn ?_, performs_lyrReturn ?_, performs_lyrReturn ?_,
    performs_lyrReturn ?_, performs_lyrReturn ?_, performs_lyrReturn ?_, ?_, fun s asid => ?_⟩
  · rintro s he ⟨⟨hk, rfl, hst, -⟩, hop, hw, hbegun, hch⟩
    rw [Event.row, run_graftInvocation he, graftInvocation_goes hk hst hop hw hbegun hch]
  · rintro s he ⟨hk, rfl, hst, hopen⟩
    rw [Event.row, run_graftRestart he, graftRestart_begins hk hst hopen]
  · rintro s he ⟨⟨hk, rfl, hst, hopen⟩, hrec, hpart, rfl, rfl⟩
    rw [Event.row, run_graftCommit he, graftCommit_writes hk hst hopen hrec hpart]
  · exact fun s hpark => lyrReturn_watch hpark
  · exact fun s ⟨hpark, hheld⟩ => (lyrReturn_record (.inl rfl) hpark).trans (if_pos hheld)
  · rintro s ⟨hpark, hfree, hrec, htenant⟩
    rw [lyrReturn_record (.inl rfl) hpark, if_neg (ne_true_of_eq_false hfree), lyrRecord_used hrec query,
      if_neg fun h => h.2 htenant.symm]
    rfl
  · rintro s ⟨hpark, hfree, hrec, hused, htenant⟩
    rw [lyrReturn_record (.inr rfl) hpark, if_neg (ne_true_of_eq_false hfree), lyrRecord_used hrec (refresh hused),
      if_neg fun h => h.2 htenant.symm]
    rfl
  · rintro s ⟨hpark, hacc, hdone, hfree, hrec, htenant, hbad⟩
    rw [lyrReturn_image hpark hacc hdone hfree, lyrinitDo_tenant hrec (.inr htenant.symm), if_pos hbad]
    rfl
  · rintro s ⟨hpark, hzero⟩
    rw [lyrReturn_drop hpark, if_neg fun h => h.1 hzero]
    exact if_pos hzero
  · exact fun s ⟨hpark, hne, hheld⟩ => (lyrReturn_drop hpark).trans (if_pos ⟨hne, hheld⟩)
  · intro trap other image good entry
    refine ⟨performs_lyrReturn ?_, performs_lyrReturn ?_, performs_lyrReturn ?_, performs_lyrReturn ?_,
      performs_lyrReturn ?_, performs_lyrReturn ?_, performs_lyrReturn ?_, performs_lyrReturn ?_, performs_lyrReturn ?_⟩
    · rintro s ⟨hpark, ⟨hfree, hrec, htenant⟩, hpriv⟩
      rw [lyrReturn_record (.inl rfl) hpark, if_neg (ne_true_of_eq_false hfree), lyrRecord_used hrec query,
        if_pos ⟨hpriv, htenant⟩]
      rfl
    · rintro s ⟨hpark, ⟨hfree, hrec, htenant⟩, hused, hpriv⟩
      rw [lyrReturn_record (.inr rfl) hpark, if_neg (ne_true_of_eq_false hfree), lyrRecord_used hrec (refresh hused),
        if_pos ⟨hpriv, htenant⟩]
      rfl
    · rintro s ⟨hpark, hfree, hrec, hunused⟩
      rw [lyrReturn_record (.inr rfl) hpark, if_neg (ne_true_of_eq_false hfree), lyrRecord_free hrec hunused]
      rfl
    · rintro s ⟨⟨hpark, hacc, hdone⟩, ⟨hfree, hrec, htenant⟩, hused⟩
      rw [lyrReturn_image hpark hacc hdone hfree, lyrinitDo_mismatch hrec hused htenant]
      rfl
    · rintro s ⟨⟨⟨hpark, hacc, hdone⟩, hfree, hrec, htenant, hgood⟩, hpart, hranges⟩
      rw [lyrReturn_image hpark hacc hdone hfree, lyrinitDo_tenant hrec htenant, if_neg (ne_true_of_eq_false hgood),
        lyrPartition_ok hpart, if_pos hranges]
      rfl
    · rintro s ⟨⟨⟨hpark, hacc, hdone⟩, hfree, hrec, htenant, hgood⟩, hpart, hranges⟩
      rw [lyrReturn_image hpark hacc hdone hfree, lyrinitDo_tenant hrec htenant, if_neg (ne_true_of_eq_false hgood),
        lyrPartition_ok hpart, if_neg (ne_true_of_eq_false hranges)]
      rfl
    · exact fun s ⟨hpark, hpart, hout⟩ => (lyrReturn_store hpark).trans (lyrStore_outside hpart hout)
    · exact fun s ⟨hpark, hpart, hvalid, hin, hw⟩ => (lyrReturn_store hpark).trans (lyrStore_word hpart hvalid hin hw)
    · exact fun s ⟨hpark, hbusy⟩ => (lyrReturn_store hpark).trans (lyrPartition_busy hbusy)
  · intro o h base limit
    exact partition_of_read h

end Sys2Proof.Machine
end
section
/-! SUPPORT. O39, O40: a trap is taken, and returned from (21 R330, R331; 15 R265). -/
namespace Sys2Proof.Machine

/-! ## Words of a granule (00 R2) -/

theorem granuleOf_cons (w : Word) (ws : List Word) :
    granuleOf (w :: ws) = (granuleOf ws <<< 64) ||| w.setWidth 512 := rfl
theorem granuleOf_word (ws : List Word) {i : Nat} (hi : i < 8) : (granuleOf ws).word i = ws.getD i 0 := by
  induction ws generalizing i with
  | nil => simp [granuleOf, Granule.word]
  | cons w ws ih =>
    rw [granuleOf_cons]
    apply BitVec.eq_of_getLsbD_eq
    intro j hj
    cases i with
    | zero => simp [Granule.word, hj, show j < 512 by omega]
    | succ i =>
      have hsub : 64 * (i + 1) + j - 64 = 64 * i + j := by omega
      have habove : w.getLsbD (64 * (i + 1) + j) = false := BitVec.getLsbD_of_ge _ _ (by omega)
      rw [List.getD_cons_succ, ← ih (by omega)]
      simp [Granule.word, hj, hsub, habove, show 64 * (i + 1) + j < 512 by omega, show ¬64 * (i + 1) + j < 64 by omega]
      rfl

/-- Bytes read in a row are the digits of the number that they were cut from. -/
theorem State.bytesN_of_byteOf {s : State} {m : Nat} {x : BitVec m} {k o n : Nat}
    (h : ∀ i, i < n → s.byte (k + i) = byteOf x (o + i)) : s.bytesN k n = x.toNat / 256 ^ o % 256 ^ n := by
  induction n generalizing k o with
  | zero => rw [Nat.pow_zero, Nat.mod_one]; rfl
  | succ n ih =>
    have hfirst : s.byte k = byteOf x o := h 0 (by omega)
    have hnext : ∀ i, i < n → s.byte (k + 1 + i) = byteOf x (o + 1 + i) := fun i hi => by
      rw [Nat.add_right_comm k, Nat.add_right_comm o]
      exact h (i + 1) (by omega)
    rw [State.bytesN, ih hnext, hfirst, byteOf_toNat, Nat.pow_succ' (n := n), Nat.mod_mul,
      Nat.pow_succ, Nat.div_div_eq_div_mul]
theorem State.word_of_byteOf {s : State} {x : Granule} {k i : Nat}
    (h : ∀ j, j < 8 → s.byte (k + j) = byteOf x (8 * i + j)) : s.word k = x.word i := by
  apply BitVec.eq_of_toNat_eq
  have hpow : 256 ^ (8 * i) = 2 ^ (64 * i) := by rw [show 256 = 2 ^ 8 from rfl, ← Nat.pow_mul]; congr 1; omega
  rw [State.word, State.bytesN_of_byteOf h, Granule.word, BitVec.extractLsb'_toNat, Nat.shiftRight_eq_div_pow, hpow]
  simp
theorem State.word_congr {s t : State} (h : t.mem = s.mem) (k : Nat) : t.word k = s.word k :=
  congrArg (BitVec.ofNat 64) (State.bytesN_congr h k 8)

/-! ## A whole granule written with good check bits (05 R87) -/

theorem State.putChecked_mem (s : State) (k : Nat) (mask : BitVec 64) (x : Granule) :
    (s.putChecked k mask x).mem = putBytes s.mem k mask x 64 := rfl
theorem State.byte_putChecked {s : State} (hmem : Memory.wf s.mem = true) (k : Nat) (x : Granule) (j : Nat) :
    (s.putChecked k (BitVec.allOnes 64) x).byte j = if k ≤ j ∧ j < k + 64 then byteOf x (j - k) else s.byte j := by
  rw [State.byte, State.putChecked_mem, putBytes_whole hmem, State.byte]
theorem State.word_putChecked {s : State} (hmem : Memory.wf s.mem = true) (k : Nat) (x : Granule) {i : Nat} (hi : i < 8) :
    (s.putChecked k (BitVec.allOnes 64) x).word (k + 8 * i) = x.word i :=
  State.word_of_byteOf fun j hj => by
    rw [State.byte_putChecked hmem, if_pos (by omega), Nat.add_assoc, Nat.add_sub_cancel_left]
theorem State.eccOf_putChecked {s : State} (hecc : SMap.wf 0 s.ecc = true) (k : Nat) (mask : BitVec 64) (x : Granule) :
    (s.putChecked k mask x).eccOf k = 0 :=
  (SMap.get_set 0 s.ecc (k / 64) (k / 64) 0 hecc).trans (if_pos rfl)

/-! ## One context of one core changes -/

/-- Of all contexts only context `x` of core `c` may differ, and it is now `m`. -/
structure State.CtxBecomes (s u : State) (c : CoreId) (x : CtxId) (m : Ctx) : Prop where
  ctx : u.ctx c x = m
  ctxs : OtherCtxs (s.core c) (u.core c) x
  cores : OtherCores s u c

theorem State.ctxBecomes_modCtx {s t : State} {c : CoreId} {x : CtxId} (hwf : SMap.wf Core.reset s.cores = true)
    (h : t.cores = s.cores) (f : Ctx → Ctx) : s.CtxBecomes (t.modCtx c x f) c x (f (s.ctx c x)) := by
  have hcore (d : CoreId) : t.core d = s.core d := by rw [State.core, State.core, h]
  have hctx (y : CtxId) : t.ctx c y = s.ctx c y := by rw [State.ctx, State.ctx, hcore]
  rw [← h] at hwf
  refine ⟨?_, fun y hy => ?_, fun d hd => ?_⟩
  · rw [State.ctx_modCtx t c c x x f hwf, if_pos ⟨rfl, rfl⟩, hctx]
  · exact (State.ctx_modCtx t c c x y f hwf).trans ((if_neg fun h => hy h.2).trans (hctx y))
  · exact (State.core_modCore t c d _ hwf).trans ((if_neg hd).trans (hcore d))

/-- g1 and g2 are written, and no other general register. -/
theorem Ctx.getG_of_setG_one_two {m n : Ctx} {x y : Word} (h : n.g = ((m.setG 1 x).setG 2 y).g) :
    n.getG 1 = x ∧ n.getG 2 = y ∧ ∀ r : G, r ≠ 1 → r ≠ 2 → n.getG r = m.getG r := by
  have hn (r : G) : n.getG r = ((m.setG 1 x).setG 2 y).getG r := by rw [Ctx.getG, Ctx.getG, h]
  refine ⟨by simp [hn], by simp [hn], fun r h1 h2 => ?_⟩
  rw [hn, Ctx.getG_setG, if_neg h2, Ctx.getG_setG, if_neg h1]

/-! ## A trap is taken (21 R330 step 5) -/

/-- Offset of a context's trap record in its core's local store (21 Table 21-2). -/
def Core.recordOff (k : Core) (x : CtxId) : Nat := tvecBase k.tvec + 64 * x.toNat
/-- The eight words of the record of a trap (21 Table 21-3). -/
def Ctx.trapRecord (m : Ctx) (t : Trap) : List Word :=
  [if t.kind = 0 then t.pc else m.pc, t.pc, t.addr, trapWord3 t, t.w4, t.w5, m.getG 1, m.getG 2]
/-- The context enters the handler at `pc`: g1 names its record, g2 is the record's word 3. -/
def Ctx.takeTrap (m : Ctx) (t : Trap) (off : Nat) (pc : Word) : Ctx :=
  { ((m.setG 1 (0xC000000000000000 ||| BitVec.ofNat 64 off)).setG 2 (trapWord3 t)) with
    inHandler := true, delivering := false, pc := pc, traps := m.traps.erase t }

section
variable (s : State) (c : CoreId) (x : CtxId) (t : Trap)

/-- The state in which the record stands in the local store. -/
def State.recorded : State :=
  s.putChecked (localKey c + (s.core c).recordOff x) (BitVec.allOnes 64) (granuleOf ((s.ctx c x).trapRecord t))
theorem State.takeTrap_eq : s.takeTrap c x t = (s.recorded c x t).modCtx c x fun m =>
    m.takeTrap t ((s.core c).recordOff x) (s.extPc (tvecHandler (s.core c).tvec)) := rfl
theorem State.takeTrap_ctxBecomes (hwf : SMap.wf Core.reset s.cores = true) :
    s.CtxBecomes (s.takeTrap c x t) c x
      ((s.ctx c x).takeTrap t ((s.core c).recordOff x) (s.extPc (tvecHandler (s.core c).tvec))) :=
  State.ctxBecomes_modCtx (t := s.recorded c x t) hwf (State.putChecked_cores ..) fun m => m.takeTrap t _ _
theorem State.takeTrap_mem : (s.takeTrap c x t).mem = (s.recorded c x t).mem := by
  rw [State.takeTrap_eq, State.modCtx_mem]
theorem State.takeTrap_eccOf (hecc : SMap.wf 0 s.ecc = true) :
    (s.takeTrap c x t).eccOf (localKey c + (s.core c).recordOff x) = 0 := by
  rw [State.eccOf, State.takeTrap_eq, State.modCtx_ecc, ← State.eccOf, State.recorded, State.eccOf_putChecked hecc]

variable (hmem : Memory.wf s.mem = true)
include hmem

theorem State.takeTrap_word {i : Nat} (hi : i < 8) :
    (s.takeTrap c x t).word (localKey c + (s.core c).recordOff x + 8 * i) = ((s.ctx c x).trapRecord t).getD i 0 := by
  rw [State.word_congr (State.takeTrap_mem s c x t), State.recorded, State.word_putChecked hmem _ _ hi,
    granuleOf_word _ hi]
theorem State.takeTrap_byte {j : Nat}
    (hj : j < localKey c + (s.core c).recordOff x ∨ localKey c + (s.core c).recordOff x + 64 ≤ j) :
    (s.takeTrap c x t).byte j = s.byte j := by
  rw [State.byte, State.takeTrap_mem, ← State.byte, State.recorded, State.byte_putChecked hmem, if_neg (by omega)]
end

/-- Settles O40: the record is one whole granule with good check bits, written before the context enters the handler. -/
theorem trapTaken : Obligations.TrapTaken := by
  rintro s c x t ⟨hmem, -, hwf⟩ m off rec8 u n
  obtain ⟨hn, hctxs, hcores⟩ := State.takeTrap_ctxBecomes s c x t hwf
  change n = m.takeTrap t off (s.extPc (tvecHandler (s.core c).tvec)) at hn
  obtain ⟨hg1, hg2, hregs⟩ := Ctx.getG_of_setG_one_two (m := m) (n := n) (by rw [hn]; rfl)
  refine ⟨hg1, hg2, ?_, ?_, ?_, ?_, hregs, ?_, fun i hi => State.takeTrap_word s c x t hmem hi,
    fun hecc => State.takeTrap_eccOf s c x t hecc, fun j hj => State.takeTrap_byte s c x t hmem hj, hctxs, hcores⟩
  all_goals rw [hn]; rfl

/-! ## The return from a trap (21 R331, 15 R265) -/

/-- 4 · Length, from a record's word 3. -/
theorem ofNat_recordLength (w : Word) :
    BitVec.ofNat 64 (4 * (w.toNat / 256 % 16)) = 4 * (w.extractLsb' 8 4).setWidth 64 := by
  apply BitVec.eq_of_toNat_eq
  simp [BitVec.toNat_mul, Nat.shiftRight_eq_div_pow]

/-- The context leaves the handler at `pc`, with g1 and g2 as given; a trap that waited is delivered next. -/
def Ctx.returnTrap (m : Ctx) (g1 g2 pc : Word) : Ctx :=
  { ((m.setG 1 g1).setG 2 g2) with inHandler := false, pc := pc, delivering := !m.traps.isEmpty }

section
variable (s : State) (c : CoreId) (x : CtxId) (next : Bool)

/-- PC after the return (21 R331). -/
def State.returnPc : Word :=
  let a := s.recordKey c x
  s.word a + if next then 4 * ((s.word (a + 24)).extractLsb' 8 4).setWidth 64 else 0
/-- The state in which the context has left the handler. -/
def State.returned : State :=
  let a := s.recordKey c x
  s.modCtx c x fun m => m.returnTrap (s.word (a + 48)) (s.word (a + 56)) (s.returnPc c x next)
theorem State.returnTrap_eq : s.returnTrap c x next =
    if ((s.returned c x next).ctx c x).delivering then (s.returned c x next).after 1 (.trapDelivery c x)
    else s.returned c x next := by
  have hlen : s.returnPc c x next = s.word (s.recordKey c x) +
      BitVec.ofNat 64 (if next then 4 * ((s.word (s.recordKey c x + 24)).toNat / 256 % 16) else 0) := by
    cases next with
    | false => rfl
    | true => exact congrArg (s.word (s.recordKey c x) + ·) (ofNat_recordLength _).symm
  rw [State.returned, hlen]
  rfl
theorem State.returnTrap_mem : (s.returnTrap c x next).mem = s.mem := by
  have h : (s.returned c x next).mem = s.mem := State.modCtx_mem ..
  rw [State.returnTrap_eq]
  split
  · exact h
  · exact h
theorem State.returnTrap_ctxBecomes (hwf : SMap.wf Core.reset s.cores = true) :
    s.CtxBecomes (s.returnTrap c x next) c x ((s.ctx c x).returnTrap (s.word (s.recordKey c x + 48))
      (s.word (s.recordKey c x + 56)) (s.returnPc c x next)) := by
  have h := State.ctxBecomes_modCtx (c := c) (x := x) hwf rfl fun m => m.returnTrap (s.word (s.recordKey c x + 48))
    (s.word (s.recordKey c x + 56)) (s.returnPc c x next)
  rw [State.returnTrap_eq]
  split
  · exact ⟨h.ctx, h.ctxs, h.cores⟩
  · exact h
end

section
variable {i : Instr} {p : Pred} {next : Bool} (hexec : ∀ s, exec i s = eretBody p next s)
include hexec

theorem eret_denied : Traps .any i p 8 (fun c _ => c.inHandler = false) 10 fun _ _ => 0 :=
  traps_issue hexec fun _ _ hout => if_pos hout
theorem eret_returns : Runs .any i p 8 (fun c t => c.inHandler = true ∧ t.eccOf (t.recordKey t.slot t.cx) ≠ 2)
    fun _ t => t.returnTrap t.slot t.cx next :=
  runs_issue hexec fun _ _ ⟨hin, hgood⟩ => (if_neg (by simp [hin])).trans (if_neg hgood)
theorem eret_checks : Runs .any i p 8 (fun c t => c.inHandler = true ∧ t.eccOf (t.recordKey t.slot t.cx) = 2)
    fun c t => t.checkAtIssue c (t.recordKey t.slot t.cx) :=
  runs_issue hexec fun _ _ ⟨hin, hbad⟩ => (if_neg (by simp [hin])).trans (if_pos hbad)
end

/-- Settles O39: the return changes its context alone, and ERET's body decides by the handler and the record's check. -/
theorem trapAndReturn : Obligations.TrapAndReturn := by
  refine ⟨?_, fun p code => ⟨traps_issue (fun _ => exec_trap ..) fun _ _ _ => rfl, eret_denied fun _ => exec_eret ..,
    eret_denied fun _ => exec_eretNext .., ⟨eret_returns fun _ => exec_eret .., eret_checks fun _ => exec_eret ..⟩,
    ⟨eret_returns fun _ => exec_eretNext .., eret_checks fun _ => exec_eretNext ..⟩⟩⟩
  rintro s c x b ⟨-, -, hwf⟩ m a u n
  obtain ⟨hn, hctxs, hcores⟩ := State.returnTrap_ctxBecomes s c x b hwf
  change n = m.returnTrap (s.word (a + 48)) (s.word (a + 56)) (s.returnPc c x b) at hn
  obtain ⟨hg1, hg2, hregs⟩ := Ctx.getG_of_setG_one_two (m := m) (n := n) (by rw [hn]; rfl)
  refine ⟨by rw [hn]; rfl, hg1, hg2, by rw [hn]; rfl, hregs, by rw [hn]; rfl, hctxs, hcores, fun k => ?_⟩
  rw [SameByte, State.byte, State.byte, State.returnTrap_mem]

end Sys2Proof.Machine
end
section
/-! SUPPORT. O58: the host's requests, registers and launch queues (25 R366–R372; 03 R32). -/
namespace Sys2Proof.Machine

/-! ## The aperture's windows (25 R367, R368) -/

section
variable {s : State} {w : BitVec 2} {off : Word} {kind : JobKind} {n tag : Nat}

theorem State.apArrive_shut (h : s.sys.wipeEnd.isSome = true ∨ (s.bar (0x4008 + 32 * w.toNat)).getLsbD 63 = false)
    (isRead : Bool) : s.apArrive w off kind n tag isRead =
      if isRead then { s with outbox := s.outbox ++ [.host tag (List.replicate n 0xFF)] } else s :=
  if_pos h
/-- The first request of an open window is queued, and begins in the next cycle. -/
theorem State.apArrive_first (hwipe : s.sys.wipeEnd = none) (hopen : (s.bar (0x4008 + 32 * w.toNat)).getLsbD 63 = true)
    (hserv : s.sys.servReset = false) (hnone : (s.jobs.any fun j => j.kind.window? == some w) = false) (isRead : Bool) :
    s.apArrive w off kind n tag isRead =
      ({ s with fresh := s.fresh + 1, jobs := s.jobs ++
        [{ id := s.fresh, kind := kind, quad := w, asid := (s.bar (0x4008 + 32 * w.toNat)).setWidth 16
           blk := (s.bar (0x4000 + 32 * w.toNat) + off).toNat }] } : State).resumeAgent (.serv s.fresh) 1 := by
  have hserves : ¬(s.sys.wipeEnd.isSome = true ∨ (s.bar (0x4008 + 32 * w.toNat)).getLsbD 63 = false) := by
    simp [hwipe, hopen]
  have hfirst : (!(s.jobs.any fun j => j.kind.window? == some w) && !s.sys.servReset) = true := by simp [hnone, hserv]
  exact (if_neg hserves).trans (if_pos hfirst)
end

theorem isCoord_ofNat_of_lt {n : Nat} (h : n < 2 ^ 63) : isCoord (BitVec.ofNat 64 n) = false := by
  rw [isCoord, BitVec.getLsbD_ofNat, Nat.testBit_lt_two_pow h, Bool.and_false]

/-- A request behind the first of its window waits (19 R324). -/
theorem State.apGo_waits {s : State} {j k : Job} {w : BitVec 2} (hhead : (s.jobs.find? fun j => j.kind.window? == some w) = some k)
    (hne : k.id ≠ j.id) (n : Nat) (data : Option (List Byte)) (tag : Nat) : s.apGo j w n data tag = s := by
  have hbehind : ((s.jobs.find? fun j => j.kind.window? == some w).any fun k => k.id != j.id) = true := by
    rw [hhead]
    exact bne_iff_ne.mpr hne
  exact if_pos hbehind

/-- A granule of the request ends without data: bits of the window's status are set, and its bytes read all-ones. -/
def State.apLost (s : State) (w : BitVec 2) (m : Word) (id : Nat) (a : Access) : State :=
  (s.apStatus w m).apTake id (List.replicate (popCount a.mask) 0xFF)
/-- Job `j` has number `id`, and is the first of window `w`. -/
def State.ServesFirst (s : State) (w : BitVec 2) (id : Nat) (j : Job) : Prop :=
  (s.job id = some j ∧ j.id = id) ∧ (s.jobs.find? fun k => k.kind.window? == some w) = some j

section
variable {s : State} {w : BitVec 2} {id : Nat} {j : Job} {a : Access} {n tag : Nat} {data : Option (List Byte)}
  (h : s.ServesFirst w id j)
include h

theorem State.ServesFirst.not_behind :
    ¬((s.jobs.find? fun k => k.kind.window? == some w).any fun k => k.id != j.id) = true := by
  simp [h.2]
theorem State.ServesFirst.apGo_readEnds (hacc : j.acc = none) (hall : n ≤ j.buf.length) : s.apGo j w n none tag =
    ({ s.dropJob id with outbox := (s.dropJob id).outbox ++ [.host tag j.buf] } : State).apNext w := by
  have hfirst := h.not_behind
  obtain ⟨⟨-, rfl⟩, -⟩ := h
  rw [State.apGo, if_neg hfirst, hacc]
  exact if_pos hall
theorem State.ServesFirst.apGo_writeEnds {bs : List Byte} (hacc : j.acc = none) (hall : n ≤ j.buf.length) :
    s.apGo j w n (some bs) tag = (s.dropJob id).apNext w := by
  have hfirst := h.not_behind
  obtain ⟨⟨-, rfl⟩, -⟩ := h
  rw [State.apGo, if_neg hfirst, hacc]
  exact if_pos hall
/-- A read of eight bytes within a granule is one access, at the window's base plus the offset. -/
theorem State.ServesFirst.apGo_readBegins (hacc : j.acc = none) (hbuf : j.buf = []) (hwithin : j.blk % 64 ≤ 56)
    (hglobal : j.blk < 2 ^ 48) : s.apGo j w 8 none tag =
      (s.setAcc (.serv id) (some { va := BitVec.ofNat 64 j.blk, mask := spanMask (j.blk % 64) 8, op := .peek })).go
        (.serv id) := by
  have hfirst := h.not_behind
  obtain ⟨⟨-, rfl⟩, -⟩ := h
  have hva : (BitVec.ofNat 64 j.blk).toNat % 64 = j.blk % 64 := by rw [BitVec.toNat_ofNat]; omega
  have hlen : min 8 (64 - j.blk % 64) = 8 := by omega
  have hcoord : ¬isCoord (BitVec.ofNat 64 j.blk) = true := by
    rw [isCoord_ofNat_of_lt (by omega)]
    exact Bool.false_ne_true
  rw [State.apGo, if_neg hfirst, hacc, hbuf]
  refine (if_neg (by decide)).trans ?_
  simp only [List.length_nil, Nat.add_zero, Nat.sub_zero, hva, hlen]
  exact if_neg hcoord
theorem State.ServesFirst.apGo_done (hacc : j.acc = some a) (hst : a.st = .done) : s.apGo j w n data tag =
    s.apTake id ((List.range (popCount a.mask)).map fun i => byteOf a.rdata (a.va.toNat % 64 + i)) := by
  have hfirst := h.not_behind
  obtain ⟨⟨-, rfl⟩, -⟩ := h
  rw [State.apGo, if_neg hfirst, hacc]
  simp only [hst]
theorem State.ServesFirst.apGo_notFull (hacc : j.acc = some a) (hst : a.st = .notFull) :
    s.apGo j w n data tag = s.apLost w 1 id a := by
  have hfirst := h.not_behind
  obtain ⟨⟨-, rfl⟩, -⟩ := h
  rw [State.apGo, if_neg hfirst, hacc]
  simp only [hst]
  rfl
theorem State.ServesFirst.apGo_failed (hacc : j.acc = some a) (hst : a.st = .failed) (hdata : a.cause ≠ 12) :
    s.apGo j w n data tag = s.apLost w (if a.cause = 2 then 4 else if a.cause = 256 then 8 else 2) id a := by
  have hfirst := h.not_behind
  obtain ⟨⟨-, rfl⟩, -⟩ := h
  rw [State.apGo, if_neg hfirst, hacc]
  simp only [hst, if_neg hdata]
  rfl
end

section
variable {w : BitVec 2} {off : Word} {n tag id : Nat} {bs : List Byte} {j k : Job} {P : Prop} {f : State → State}

theorem apertureRead_goesOn (hf : ∀ s : State, s.ServesFirst w id j → P → s.apGo j w n none tag = f s) :
    Performs (.apertureRead w off n tag (some id)) (fun s => s.ServesFirst w id j ∧ P) f := by
  rintro s he ⟨hfirst, hp⟩
  rw [Event.row, run_apertureRead1 he, hfirst.1.1]
  exact congrArg _ (hf s hfirst hp)
theorem apertureWrite_goesOn (hf : ∀ s : State, s.ServesFirst w id j → P → s.apGo j w bs.length (some bs) 0 = f s) :
    Performs (.apertureWrite w off bs (some id)) (fun s => s.ServesFirst w id j ∧ P) f := by
  rintro s he ⟨hfirst, hp⟩
  rw [Event.row, run_apertureWrite1 he, hfirst.1.1]
  exact congrArg _ (hf s hfirst hp)
theorem apertureRead_gone : Performs (.apertureRead w off n tag (some id)) (fun s => s.job id = none) fun s => s := by
  intro s he hgone
  rw [Event.row, run_apertureRead1 he, hgone]
/-- A request behind the first of its window waits, a read as a write. -/
theorem aperture_behind (hne : k.id ≠ id) {ev : Event}
    (hev : ev ∈ [.apertureRead w off n tag (some id), .apertureWrite w off bs (some id)]) :
    Performs ev (fun s => (s.job id = some j ∧ j.id = id) ∧ (s.jobs.find? fun k => k.kind.window? == some w) = some k)
      fun s => s := by
  rintro s he ⟨⟨hjob, rfl⟩, hhead⟩
  rw [List.mem_pair] at hev
  obtain rfl | rfl := hev
  · rw [Event.row, run_apertureRead1 he, hjob]
    exact congrArg _ (State.apGo_waits hhead hne ..)
  · rw [Event.row, run_apertureWrite1 he, hjob]
    exact congrArg _ (State.apGo_waits hhead hne ..)
end

/-! ### A fault that is given up (25 R368) -/

theorem State.apertureFaultTimeout_gone {s : State} {id : Nat} (h : s.job id = none) : s.apertureFaultTimeout id = s := by
  rw [State.apertureFaultTimeout, h]
theorem State.apertureFaultTimeout_due {s : State} {id : Nat} {j : Job} {a : Access} {w : BitVec 2} (hjob : s.job id = some j)
    (hacc : j.acc = some a) (hwindow : j.kind.window? = some w) (hst : a.st = .faulted) (hdue : j.phase + 2 ^ 20 ≤ s.cyc)
    (hfaults : s.faults = []) : s.apertureFaultTimeout id = s.apLost w 8 id a := by
  have hnow : ¬(a.st ≠ .faulted ∨ s.cyc < j.phase + 2 ^ 20) :=
    not_or_intro (not_not_intro hst) (Nat.not_lt.mpr hdue)
  simp only [State.apertureFaultTimeout, hjob, hacc, hwindow, if_neg hnow, hfaults, List.filterMap_nil]
  rw [← hfaults]
  rfl

/-! ## Registers of BAR0 and start records (25 Table 25-1; 03 R32) -/

section
variable (s : State) (x : Word)

theorem State.registerWrite_whole : s.registerWrite 0x2000 x = s.setBar 0x2000 x := by
  have hmask : barHeld 0x2000 (x &&& BitVec.allOnes 64) = x := BitVec.and_allOnes
  exact congrArg (s.setBar 0x2000) hmask
/-- A status bit of a window is cleared by a one. -/
theorem State.registerWrite_windowStatus {i : Nat} (hi : i < 4) : s.registerWrite (0x4010 + 32 * i) x =
    s.setBar (0x4010 + 32 * i) (s.bar (0x4010 + 32 * i) &&& ~~~(x &&& 0xF)) := by
  rw [State.registerWrite, if_neg (by omega), if_pos (by omega)]
theorem State.registerWrite_queueCommand {q : Nat} (hq : q < 64) : s.registerWrite (0x5028 + 64 * q) x =
    if x.setWidth 2 = 1#2 then s.after 0 (.qcreate (BitVec.ofNat 6 q))
    else if x.setWidth 2 = 2#2 then s.after 0 (.qdestroy (BitVec.ofNat 6 q)) else s := by
  have hqueue : (0x5028 + 64 * q - 0x5000) / 64 = q := by omega
  rw [State.registerWrite, if_neg (by omega), if_neg (by omega), if_pos (by omega), hqueue]
end

theorem registerWrite_performs {o : Nat} {x : Word} {f : State → State} (hf : ∀ s : State, s.registerWrite o x = f s) :
    Performs (.registerWrite o x) (fun _ => True) f := fun s he _ =>
  (run_registerWrite he).trans (congrArg _ (hf s))

theorem State.startRecord_ignored {s : State} {c : CoreId} (h : (s.ctx c 0).st ≠ .halted ∨ s.present c = false) (pc : Word) :
    s.startRecord c pc = s :=
  if_pos h
theorem State.startRecord_starts {s : State} {c : CoreId} (hst : (s.ctx c 0).st = .halted) (hpresent : s.present c = true)
    (htraps : (s.ctx c 0).traps = []) (pc : Word) : s.startRecord c pc = s.modCtx c 0 fun t =>
      { t.setG 1 (s.bar (0x300008 + 16 * c.toNat)) with st := .running, halt := none, pc := pc, delivering := false } := by
  have hstarts : ¬((s.ctx c 0).st ≠ .halted ∨ s.present c = false) :=
    not_or_intro (not_not_intro hst) (ne_false_of_eq_true hpresent)
  rw [State.startRecord, if_neg hstarts, htraps]
  rfl

/-! ## Launch queues (25 R369–R372) -/

/-- The Tail word that a read of eight bytes has returned. -/
def Access.tailWord (a : Access) : BitVec 32 := (a.rdata >>> (8 * (a.va.toNat % 64))).setWidth 32
/-- The owner of queue `q` has read this Tail. -/
def State.tailSeen (s : State) (q : BitVec 6) (tail : BitVec 32) : State :=
  { s with sys := { s.sys with tails := (q.toNat, tail) :: s.sys.tails.filter fun e => e.1 != q.toNat } }
/-- The fetch of queue `q` reads its next granule from the first of the packet on. -/
def State.packetBegun (s : State) (q : BitVec 6) (j : Job) : State :=
  (({ s with sys := { s.sys with begun := s.sys.begun.erase q ++ [q] } } : State).modJob j.id fun k =>
    { k with phase := 1, buf := [] }).qRead q j 0
/-- Queue `q` is active, its owner may serve it, and no fetch of it runs. -/
def State.ServesQueue (s : State) (q : BitVec 6) : Prop :=
  (s.jobs.find? fun j => j.kind == .fetch q) = none ∧ s.qState q = 1 ∧ s.sys.servReset = false ∧ s.wiped (s.qOwner q) = false
/-- Job `j` fetches for queue `q`, and its access is `a`. -/
def State.Fetches (s : State) (q : BitVec 6) (j : Job) (a : Access) : Prop :=
  (s.jobs.find? fun j => j.kind == .fetch q) = some j ∧ j.acc = some a

section
variable {s : State} {q : BitVec 6} {j : Job} {a : Access}

theorem State.qcreate_active (h : s.qState q = 1) : s.qcreate q = s := if_pos h
theorem State.qcreate_inactive (h : s.qState q ≠ 1) : s.qcreate q =
    ((s.setBar (qreg q 0x18) 0).setQState q 1 (s.qCause q)).after 1 (.queueFetch q) :=
  if_neg h
theorem State.qdestroy_begun (h : s.sys.begun.contains q = true) :
    s.qdestroy q = { s with sys := { s.sys with destroying := s.sys.destroying.erase q ++ [q] } } :=
  if_pos h
theorem State.qdestroy_ends (h : s.sys.begun.contains q = false) : s.qdestroy q =
    ({ s with jobs := s.jobs.filter fun j => j.kind != .fetch q } : State).setQState q 3 (s.qCause q) :=
  if_neg (ne_true_of_eq_false h)

theorem State.queueFetch_unserved (hidle : (s.jobs.find? fun j => j.kind == .fetch q) = none)
    (h : s.qState q ≠ 1 ∨ s.sys.servReset = true ∨ s.wiped (s.qOwner q) = true) : s.queueFetch q = s := by
  simp only [State.queueFetch, hidle]
  exact if_pos h
theorem State.ServesQueue.served (h : s.ServesQueue q) :
    ¬(s.qState q ≠ 1 ∨ s.sys.servReset = true ∨ s.wiped (s.qOwner q) = true) := by
  obtain ⟨-, hactive, hserv, hwiped⟩ := h
  simp [hactive, hserv, hwiped]
theorem State.ServesQueue.queueFetch_misaligned (h : s.ServesQueue q) (hodd : (s.bar (qreg q 8)).toNat % 8 ≠ 0) :
    s.queueFetch q = s.qError q 0x80 := by
  simp only [State.queueFetch, h.1, if_neg h.served]
  exact if_pos hodd
/-- The owner reads Tail. -/
theorem State.ServesQueue.queueFetch_tail (h : s.ServesQueue q) (hal : (s.bar (qreg q 8)).toNat % 8 = 0)
    (hglobal : isCoord (s.bar (qreg q 8)) = false) : s.queueFetch q =
      ({ s with fresh := s.fresh + 1, jobs := s.jobs ++
        [{ id := s.fresh, kind := .fetch q, quad := s.qOwner q, asid := (s.bar (qreg q 0x10)).extractLsb' 16 16
           acc := some { va := s.bar (qreg q 8), mask := spanMask ((s.bar (qreg q 8)).toNat % 64) 8, op := .read } }] } :
        State).go (.serv s.fresh) := by
  simp only [State.queueFetch, h.1, if_neg h.served, if_neg (not_not_intro hal)]
  exact if_neg (ne_true_of_eq_false hglobal)

theorem State.Fetches.queueFetch_failed (h : s.Fetches q j a) (hst : a.st = .failed) : s.queueFetch q =
    s.qError q (if 512 ≤ a.cause then a.cause - 512 else if a.cause = 12 then 0 else 0x80) := by
  obtain ⟨hjob, hacc⟩ := h
  simp only [State.queueFetch, hjob, hacc, hst]
theorem State.Fetches.queueFetch_empty (h : s.Fetches q j a) (hst : a.st = .done) (hphase : j.phase = 0)
    (htail : a.tailWord = s.qHead q) :
    s.queueFetch q = ((s.tailSeen q a.tailWord).dropJob j.id).afterFree (.queueFetch q) := by
  obtain ⟨hjob, hacc⟩ := h
  simp only [State.queueFetch, hjob, hacc, hst, if_pos hphase]
  exact if_pos htail
theorem State.Fetches.queueFetch_packet (h : s.Fetches q j a) (hst : a.st = .done) (hphase : j.phase = 0)
    (htail : a.tailWord ≠ s.qHead q) : s.queueFetch q = (s.tailSeen q a.tailWord).packetBegun q j := by
  obtain ⟨hjob, hacc⟩ := h
  simp only [State.queueFetch, hjob, hacc, hst, if_pos hphase]
  exact if_neg htail
/-- A granule of the packet is taken: the last one submits it, another is followed by the next. -/
theorem State.Fetches.queueFetch_granule (h : s.Fetches q j a) (hst : a.st = .done) (hphase : j.phase ≠ 0) : s.queueFetch q =
    let l := j.buf ++ (List.range 64).map (byteOf a.rdata)
    let t := s.modJob j.id fun k => { k with buf := l }
    if 128 * s.qSlots q ≤ j.buf.length + 64 then t.qSubmit q { j with buf := l } else t.qRead q j (j.buf.length + 64) := by
  obtain ⟨hjob, hacc⟩ := h
  have hlen : (j.buf ++ (List.range 64).map (byteOf a.rdata)).length = j.buf.length + 64 := by simp
  simp only [State.queueFetch, hjob, hacc, hst, if_neg hphase, hlen]
  rfl
end

theorem queueFetch_performs {q : BitVec 6} {pre : State → Prop} {f : State → State}
    (hf : ∀ s, pre s → s.queueFetch q = f s) : Performs (.queueFetch q) pre f := fun s he h =>
  (run_queueFetch he).trans (congrArg _ (hf s h))

/-- Settles O58: each event runs its function, and the premises choose the case of its equation. -/
theorem hostAccessSteps : Obligations.HostAccessSteps := by
  unfold Obligations.HostAccessSteps
  refine ⟨fun w off x n tag id bs j a c q i => ?_, fun q j a => ?_⟩
  · intro cfg shut first queued rd wr job mine
    refine ⟨?_, ?_, ?_, ?_, apertureRead_gone, fun k hne ev hev => aperture_behind hne hev,
      apertureRead_goesOn fun s hs ⟨hacc, hall⟩ => hs.apGo_readEnds hacc hall,
      apertureWrite_goesOn fun s hs ⟨hacc, hall⟩ => hs.apGo_writeEnds hacc hall,
      apertureRead_goesOn fun s hs ⟨hacc, hbuf, hlen, hwithin, hglobal⟩ => ?_,
      apertureRead_goesOn fun s hs ⟨hacc, hst⟩ => hs.apGo_done hacc hst,
      apertureRead_goesOn fun s hs ⟨hacc, hst⟩ => hs.apGo_notFull hacc hst,
      apertureRead_goesOn fun s hs ⟨hacc, hst, hcause⟩ => (hs.apGo_failed hacc hst (by omega)).trans ?_,
      apertureRead_goesOn fun s hs ⟨hacc, hst, hcause⟩ => (hs.apGo_failed hacc hst (by omega)).trans ?_,
      apertureRead_goesOn fun s hs ⟨hacc, hst, htag, hdata, hfault⟩ => (hs.apGo_failed hacc hst hdata).trans ?_,
      ?_, ?_, fun s he _ => run_pcieUnsupported he,
      registerWrite_performs fun s => s.registerWrite_whole x, registerWrite_performs fun s => rfl,
      registerWrite_performs fun s => rfl, fun hi => registerWrite_performs fun s => s.registerWrite_windowStatus x hi,
      fun hq hx => registerWrite_performs fun s => (s.registerWrite_queueCommand x hq).trans ?_,
      fun hq hx => registerWrite_performs fun s => (s.registerWrite_queueCommand x hq).trans ?_, ?_, ?_, ?_, ?_⟩
    · intro s he hshut
      rw [Event.row, run_apertureRead he, State.apArrive_shut hshut]
      rfl
    · intro s he hshut
      rw [Event.row, run_apertureWrite he, State.apArrive_shut hshut]
      rfl
    · rintro s he ⟨hwipe, hopen, hserv, hnone⟩
      rw [Event.row, run_apertureRead he, State.apArrive_first hwipe hopen hserv hnone]
    · rintro s he ⟨hwipe, hopen, hserv, hnone⟩
      rw [Event.row, run_apertureWrite he, State.apArrive_first hwipe hopen hserv hnone]
    · rw [hlen]
      exact hs.apGo_readBegins hacc hbuf hwithin hglobal
    · rw [if_pos hcause]
      rfl
    · rw [hcause]
      rfl
    · rw [if_neg htag, if_neg hfault]
      rfl
    · intro s he hgone
      rw [Event.row, run_apertureFaultTimeout he, State.apertureFaultTimeout_gone hgone]
    · rintro s he ⟨⟨hjob, -⟩, hacc, hwindow, hst, hdue, hfaults⟩
      rw [Event.row, run_apertureFaultTimeout he, State.apertureFaultTimeout_due hjob hacc hwindow hst hdue hfaults]
      rfl
    · rw [if_pos hx]
    · rw [hx]
      rfl
    · intro s he hignored
      rw [Event.row, run_startRecord he, State.startRecord_ignored hignored]
    · rintro s he ⟨hst, hpresent, htraps⟩
      rw [Event.row, run_startRecord he, State.startRecord_starts hst hpresent htraps]
    · intro s he hdeployed
      rw [Event.row, run_debugSelect he, if_pos hdeployed]
    · intro s he hlife
      rw [Event.row, run_debugSelect he, if_neg hlife]
  · intro state idle on addr wiped serves tail seen
    refine ⟨?_, ?_, ?_, ?_, queueFetch_performs fun s h => State.queueFetch_unserved h.1 h.2,
      queueFetch_performs fun s ⟨hserves, hodd⟩ => State.ServesQueue.queueFetch_misaligned hserves hodd,
      queueFetch_performs fun s ⟨hserves, hal, hglobal⟩ => State.ServesQueue.queueFetch_tail hserves hal hglobal,
      queueFetch_performs fun s ⟨hon, hst, hphase, htail⟩ => State.Fetches.queueFetch_empty hon hst hphase htail,
      queueFetch_performs fun s ⟨hon, hst, hphase, htail⟩ => State.Fetches.queueFetch_packet hon hst hphase htail,
      fun k hk => queueFetch_performs fun s ⟨hon, hst, hcause⟩ => (State.Fetches.queueFetch_failed hon hst).trans ?_,
      queueFetch_performs fun s ⟨hon, hst, hlow, hdata⟩ => (State.Fetches.queueFetch_failed hon hst).trans ?_,
      queueFetch_performs fun s ⟨hon, hst, hphase, hmore⟩ => (State.Fetches.queueFetch_granule hon hst hphase).trans ?_,
      queueFetch_performs fun s ⟨hon, hst, hphase, hlast⟩ => (State.Fetches.queueFetch_granule hon hst hphase).trans ?_,
      queueFetch_performs fun s ⟨hon, hst, hcause⟩ => (State.Fetches.queueFetch_failed hon hst).trans ?_⟩
    · intro s he hactive
      rw [Event.row, run_qcreate he, State.qcreate_active hactive]
    · intro s he hinactive
      rw [Event.row, run_qcreate he, State.qcreate_inactive hinactive]
      rfl
    · intro s he hbegun
      rw [Event.row, run_qdestroy he, State.qdestroy_begun hbegun]
    · intro s he hnone
      rw [Event.row, run_qdestroy he, State.qdestroy_ends hnone]
      rfl
    · rw [if_pos (by omega), hcause, Nat.add_sub_cancel_left]
    · rw [if_neg (by omega), if_neg hdata]
    · exact if_neg (Nat.not_le.mpr hmore)
    · exact if_pos hlast
    · rw [hcause]
      rfl

end Sys2Proof.Machine
end
section
/-! SUPPORT. O59: the registers of the launch queues at a partition reset (25 R376). -/
namespace Sys2Proof

/-- Keys that are written with the default read as it, in a map in canonical form. -/
theorem SMap.get_foldl_set_default {α : Type} [DecidableEq α] (d : α) (m : List (Nat × α)) (ks : List Nat) (j : Nat)
    (h : SMap.wf d m = true) :
    SMap.get d (ks.foldl (fun m k => SMap.set d m k d) m) j = if j ∈ ks then d else SMap.get d m j := by
  induction ks generalizing m with
  | nil => rfl
  | cons k ks ih =>
    rw [List.foldl_cons, ih _ (SMap.wf_set d m k d h), SMap.get_set d m k j d h]
    by_cases hj : j = k <;> simp [hj]

end Sys2Proof
namespace Sys2Proof.Machine

/-! ## What a partition reset does to BAR0 -/

/-- The launch queues whose owners lie in the quadrants. -/
def State.ownedQueues (s : State) (q : BitVec 4) : List (BitVec 6) :=
  ((List.range 64).map fun i => (BitVec.ofNat 6 i : BitVec 6)).filter fun n => q.getLsbD (s.qOwner n).toNat
/-- The registers of a launch queue that a reset clears. -/
def queueRegisters (n : BitVec 6) : List Nat := [0, 8, 0x10, 0x18, 0x20].map (qreg n)
/-- Registers written with their reset value, 0. -/
def State.clearBars (s : State) (ks : List Nat) : State := ks.foldl (fun s k => s.setBar k 0) s

theorem State.clearBars_bar0 (s : State) (ks : List Nat) :
    (s.clearBars ks).bar0 = ks.foldl (fun m k => SMap.set 0 m k 0) s.bar0 :=
  (List.foldl_hom State.bar0 fun _ _ => rfl).symm
theorem State.clearBars_held (s : State) (ks : List Nat) : (s.clearBars ks).held = s.held :=
  List.foldlRecOn (motive := fun t : State => t.held = s.held) _ _ rfl fun _ ht _ _ => ht
theorem State.mem_ownedQueues {s : State} {q : BitVec 4} {n : BitVec 6} :
    n ∈ s.ownedQueues q ↔ q.getLsbD (s.qOwner n).toNat = true := by
  have hlisted : n ∈ (List.range 64).map fun i => (BitVec.ofNat 6 i : BitVec 6) :=
    List.mem_map.mpr ⟨n.toNat, List.mem_range.mpr n.isLt, (BitVec.ofNat_toNat ..).trans (BitVec.setWidth_eq n)⟩
  simp only [State.ownedQueues, List.mem_filter, hlisted, true_and]

theorem State.abortReads_bar0_held (s : State) : s.abortReads.bar0 = s.bar0 ∧ s.abortReads.held = s.held := by
  refine List.foldlRecOn (motive := fun t : State => t.bar0 = s.bar0 ∧ t.held = s.held) _ _ ⟨rfl, rfl⟩ ?_
  intro t ht i _
  split
  · split <;> exact ht
  · exact ht
/-- Where nothing is held behind a draining block, a wipe lets nothing go on. -/
theorem State.releaseIn_unheld {s : State} (h : s.held = []) (lo hi : Nat) : s.releaseIn lo hi = s := by
  rw [State.releaseIn, h]
  rfl
theorem State.wipeFrames_unheld {s : State} (h : s.held = []) (base n : Nat) :
    (s.wipeFrames base n).bar0 = s.bar0 ∧ (s.wipeFrames base n).held = [] := by
  induction n with
  | zero => exact ⟨rfl, h⟩
  | succ n ih =>
    rw [State.wipeFrames]
    split
    · rw [State.releaseIn_unheld (s := State.wipe _ _ _) ih.2]
      exact ih
    · exact ih

/-- Of BAR0 a reset clears the registers of the quadrants' queues, in the table as it is listed. -/
theorem State.partitionReset_bar0 {s : State} (h : s.held = []) (q : BitVec 4) : (s.partitionReset q).bar0 =
    ((s.ownedQueues q).flatMap queueRegisters).foldl (fun m k => SMap.set 0 m k 0) s.bar0 := by
  obtain ⟨hbar, hheld⟩ := s.abortReads_bar0_held
  have howned : s.abortReads.ownedQueues q = s.ownedQueues q := by
    simp only [State.ownedQueues, State.qOwner, State.bar, hbar]
  obtain ⟨t, graft, parts, htbar, htheld, hreset⟩ : ∃ (t : State) (graft parts : Nat), t.bar0 = s.bar0 ∧ t.held = [] ∧
      s.partitionReset q = ((((s.abortReads.ownedQueues q).foldl (fun t n => t.clearBars (queueRegisters n)) t).wipeFrames
        graft 1024).wipeFrames parts 256).after wipeCycles .wipeDone := by
    refine ⟨_, _, _, ?_, ?_, rfl⟩
    · exact hbar
    · exact (congrArg (List.filter _) (hheld.trans h)).trans List.filter_nil
  have hclear : (s.abortReads.ownedQueues q).foldl (fun t n => t.clearBars (queueRegisters n)) t =
      t.clearBars ((s.ownedQueues q).flatMap queueRegisters) := by
    rw [howned, State.clearBars, List.foldl_flatMap]
    rfl
  rw [hclear] at hreset
  obtain ⟨hgraft, hnone⟩ := State.wipeFrames_unheld ((State.clearBars_held ..).trans htheld) graft 1024
  obtain ⟨hparts, -⟩ := State.wipeFrames_unheld hnone parts 256
  calc (s.partitionReset q).bar0 = (t.clearBars ((s.ownedQueues q).flatMap queueRegisters)).bar0 := by
        rw [hreset, State.after_bar0, hparts, hgraft]
    _ = _ := by rw [State.clearBars_bar0, htbar]

/-- O59's clause of the queues' registers, with the canonical form of BAR0 that it does not ask for, where a wipe lets
nothing go on. -/
theorem State.partitionReset_queueRegister {s : State} (hheld : s.held = []) (hbar : SMap.wf 0 s.bar0 = true) {q : BitVec 4}
    {n : BitVec 6} (howner : q.getLsbD (s.qOwner n).toNat = true) {o : Nat} (ho : o ∈ [0, 8, 0x10, 0x18, 0x20]) :
    (s.partitionReset q).bar (qreg n o) = 0 := by
  have hcleared : qreg n o ∈ (s.ownedQueues q).flatMap queueRegisters :=
    List.mem_flatMap.mpr ⟨n, State.mem_ownedQueues.mpr howner, List.mem_map_of_mem ho⟩
  rw [State.bar, State.partitionReset_bar0 hheld, SMap.get_foldl_set_default 0 _ _ _ hbar, if_pos hcleared]

/-! ## A table of BAR0 in which the clause fails -/

/-- BAR0 lists the ring address of queue 0, a queue of quadrant 0, twice. The model's own writes make no such table
(`SMap.wf_set`); `State.Canonical` asks for the canonical form of the memory, its metadata and the cores alone. -/
def twiceListed : State := { bar0 := [(0x5000, 1), (0x5000, 1)] }

theorem twiceListed_canonical : twiceListed.Canonical := ⟨rfl, rfl, rfl⟩
/-- The reset drops the first of the two entries. -/
theorem twiceListed_partitionReset : (twiceListed.partitionReset 1).bar (qreg 0 0) = 1 := by
  rw [State.bar, State.partitionReset_bar0 rfl]
  decide +kernel

/-- Refutes O59: the clause that a partition reset clears the registers of its quadrants' queues does not ask that the table
of BAR0 be in canonical form. In `twiceListed` the write of 0 drops one entry of the ring address and uncovers the other, so
that it reads 1 as before. `State.partitionReset_queueRegister` is the clause with the condition that it lacks,
for a state in which nothing is held behind a draining block. -/
theorem not_resetSteps : ¬ Obligations.ResetSteps := by
  unfold Obligations.ResetSteps
  intro h
  obtain ⟨-, -, -, resets, -⟩ := h 0 1 [] 0 .manufacturing 0 0 0 0 0
  obtain ⟨-, -, -, -, cleared⟩ := resets twiceListed twiceListed_canonical
  have zero : (twiceListed.partitionReset 1).bar (qreg 0 0) = 0 :=
    cleared 0 (by decide +kernel) 0 (List.mem_cons_self ..)
  rw [twiceListed_partitionReset] at zero
  exact absurd zero (by decide)

end Sys2Proof.Machine
end

section
/-! SUPPORT. O7: the canonical form of memory, of the presence metadata and of the cores (05 R86; log entry 2). Every
operation of the model has one lemma, named after it, which says that it keeps the form; the proof is the operation's own
body with the lemmas of the operations that it calls. -/
namespace Sys2Proof

/-! ## Sparse maps -/

/-- Values changed in place keep the canonical form where none of them becomes the default. -/
theorem SMap.wfAbove_map {α : Type} [DecidableEq α] {d : α} {f : Nat × α → α}
    (hf : ∀ e, e.2 ≠ d → f e ≠ d) {m : List (Nat × α)} {lo : Nat} (h : SMap.wfAbove d lo m = true) :
    SMap.wfAbove d lo (m.map fun e => (e.1, f e)) = true := by
  induction m generalizing lo with
  | nil => rfl
  | cons e m ih =>
    simp only [SMap.wfAbove, Bool.and_eq_true, decide_eq_true_eq, List.map_cons] at h ⊢
    obtain ⟨⟨hlo, hne⟩, hm⟩ := h
    exact ⟨⟨hlo, hf e hne⟩, ih hm⟩

/-- Values changed in place, the ones that become the default dropped. -/
theorem SMap.wfAbove_filterMap {α : Type} [DecidableEq α] {d : α} {f : α → α} {m : List (Nat × α)} {lo : Nat}
    (h : SMap.wfAbove d lo m = true) :
    SMap.wfAbove d lo (m.filterMap fun e => if f e.2 = d then none else some (e.1, f e.2)) = true := by
  induction m generalizing lo with
  | nil => rfl
  | cons e m ih =>
    simp only [SMap.wfAbove, Bool.and_eq_true, decide_eq_true_eq] at h
    obtain ⟨⟨hlo, -⟩, hm⟩ := h
    by_cases hd : f e.2 = d
    · rw [List.filterMap_cons, if_pos hd]
      exact SMap.wfAbove_mono d _ lo (e.1 + 1) (by omega) (ih hm)
    · rw [List.filterMap_cons, if_neg hd]
      simp only [SMap.wfAbove, Bool.and_eq_true, decide_eq_true_eq]
      exact ⟨⟨hlo, hd⟩, ih hm⟩

end Sys2Proof
namespace Sys2Proof.Machine

/-! ## Cores -/

/-- A core's commands are marked, none made or dropped. -/
theorem Core.mapCmds_ne_reset {k : Core} {f : Cmd → Cmd} (hk : k ≠ Core.reset) :
    { k with cmds := k.cmds.map f } ≠ Core.reset := by
  intro h
  have hnone : k.cmds = [] := List.map_eq_nil_iff.mp (congrArg Core.cmds h)
  exact hk (by rw [← h, hnone, List.map_nil, ← hnone])

/-- A core that has latched its counters is no core after reset: it holds eight words. -/
theorem Core.latched_ne_reset (k : Core) :
    { k with snap := k.evc.toList.map fun v => v.setWidth 64 } ≠ Core.reset := by
  intro h
  have hnone := congrArg (fun k => k.snap.length) h
  simp [Core.reset] at hnone

/-! ## Answers of the machine -/

/-- The state that an instruction or a step goes on to, if any, is canonical. -/
def Keeps : R → Prop
  | .next t => t.Canonical
  | _ => True

/-- What an instruction's body answers in a canonical state. -/
def Act.Keeps : Act → Prop
  | .ok t => t.Canonical
  | .lose f | .trap _ _ _ _ f => ∀ {t : State}, t.Canonical → (f t).Canonical

theorem Keeps.ite {p : Prop} {_ : Decidable p} {r q : R} (hr : Keeps r) (hq : Keeps q) :
    Keeps (if p then r else q) := by
  split
  · exact hr
  · exact hq
theorem Act.Keeps.ite {p : Prop} {_ : Decidable p} {a b : Act} (ha : a.Keeps) (hb : b.Keeps) :
    (if p then a else b).Keeps := by
  split
  · exact ha
  · exact hb
theorem Keeps.next {r : R} {t : State} (hr : r = .next t) (ht : t.Canonical) : Keeps r := by
  rw [hr]
  exact ht

/-! ## Events without a law of their own yet -/

theorem run_replySend {s : State} {who a r} (he : s.ev = some (.replySend who a r)) :
    exec .longLatencyComplete s = .next (s.replySend who a r) := by
  rw [exec_longLatencyComplete, execLongLatencyComplete, he]
theorem run_hubReply {s : State} {who r} (he : s.ev = some (.hubReply who r)) :
    exec .longLatencyComplete s = .next (s.hubReply who r) := by
  rw [exec_longLatencyComplete, execLongLatencyComplete, he]
theorem run_storeArrival {s : State} {who h b p} (he : s.ev = some (.storeArrival who h b p)) :
    exec .bankAccess s = .next (s.storeArrival who h b p) := by
  rw [exec_bankAccess, execBankAccess, he]
theorem run_requestLeave {s : State} {p r} (he : s.ev = some (.requestLeave p r)) :
    exec .remoteRequest s = .next ({ s with outbox := s.outbox ++ [.request p r] }) := by
  rw [exec_remoteRequest, execRemoteRequest, he]
theorem run_hubAccess {s : State} {who} (he : s.ev = some (.hubAccess who)) :
    exec .remoteRequest s = .next (s.hubAccess who) := by
  rw [exec_remoteRequest, execRemoteRequest, he]
theorem run_lineMiss {s : State} {l x r} (he : s.ev = some (.lineMiss l x r)) :
    exec .rds s = .next (s.lineMiss l x r) := by
  rw [exec_rds, execRds, he]
theorem run_sliceError {s : State} {f} (he : s.ev = some (.sliceError f)) :
    exec .sliceFailure s = .next (s.sliceError f) := by
  rw [exec_sliceFailure, execSliceFailure, he]
theorem run_cxlLink {s : State} {p up} (he : s.ev = some (.cxlLink p up)) :
    exec .linkDown s = .next ({ s with sys := { s.sys with
      cxlDown := (s.sys.cxlDown.filter fun q => q != p) ++ if up then [] else [p] } }) := by
  rw [exec_linkDown, execLinkDown, he]

/-- The state that a plan runs a row in, or comes to without one, is canonical; a row is the hardware's own only where the
state names its event. -/
def Plan.Keeps : Plan → Prop
  | .run i t => t.Canonical ∧ (t.ev = none ∨ ∃ e, t.ev = some e ∧ i = e.row)
  | .idle t => t.Canonical

theorem Plan.Keeps.ite {p : Prop} {_ : Decidable p} {a b : Plan} (ha : a.Keeps) (hb : b.Keeps) :
    (if p then a else b).Keeps := by
  split
  · exact ha
  · exact hb

namespace State.Canonical
variable {s : State}

/-! ## The shapes of which the operations are made -/

theorem ite {p : Prop} {_ : Decidable p} {t : State} (hs : s.Canonical) (ht : t.Canonical) :
    (if p then s else t).Canonical := by
  split
  · exact hs
  · exact ht
theorem dite {p : Prop} {_ : Decidable p} {f : p → State} {g : ¬p → State} (hf : ∀ hp, (f hp).Canonical)
    (hg : ∀ hp, (g hp).Canonical) : (if hp : p then f hp else g hp).Canonical := by
  split
  · exact hf _
  · exact hg _
theorem foldl {α : Type} {l : List α} {f : State → α → State} (h : s.Canonical)
    (hf : ∀ t a, State.Canonical t → (f t a).Canonical) : (l.foldl f s).Canonical :=
  List.foldlRecOn l f h fun t ht a _ => hf t a ht
/-- A change of any of the other fields. -/
theorem beside {cyc turn slot fresh agenda ev outbox ecc rgns sgWays sgway waiters withdrawnConts fills held banks
    bar0 heatk heatd pkg fltsvc supv tlb2 walkCache samplers walks tlbis hubTlb faults faultSeq homes doneIds launches
    active gangs jobs loads armed snapAt sgs watch coh sys} (h : s.Canonical) : (State.mk cyc turn slot fresh agenda
    ev outbox s.mem s.atoms ecc s.cores rgns sgWays sgway waiters withdrawnConts fills held banks bar0 heatk heatd pkg
    fltsvc supv tlb2 walkCache samplers walks tlbis hubTlb faults faultSeq homes doneIds launches active gangs jobs
    loads armed snapAt sgs watch coh sys).Canonical :=
  ⟨h.mem, h.atoms, h.cores⟩

/-! ## Ops -/

theorem setCore {c k} (h : s.Canonical) : (s.setCore c k).Canonical := ⟨h.mem, h.atoms, s.setCore_wf c k h.cores⟩
theorem modCore {c f} (h : s.Canonical) : (s.modCore c f).Canonical := h.setCore
theorem modCtx {c x f} (h : s.Canonical) : (s.modCtx c x f).Canonical := h.modCore
theorem modMe {f} (h : s.Canonical) : (s.modMe f).Canonical := h.modCtx
theorem setBar {o x} (h : s.Canonical) : (s.setBar o x).Canonical := h.beside
theorem putGranule {k mask x} (h : s.Canonical) : (s.putGranule k mask x).Canonical :=
  ⟨s.putGranule_wf k mask x h.mem, h.atoms, h.cores⟩
theorem setAtom {k x} (h : s.Canonical) : (s.setAtom k x).Canonical := ⟨h.mem, SMap.wf_set 0 _ _ _ h.atoms, h.cores⟩
theorem putChecked {k mask x} (h : s.Canonical) : (s.putChecked k mask x).Canonical := by
  unfold State.putChecked
  exact h.putGranule.beside
theorem wipe {lo hi} (h : s.Canonical) : (s.wipe lo hi).Canonical :=
  ⟨s.wipe_wf lo hi h.mem, SMap.wf_dropRange 0 _ _ _ h.atoms, h.cores⟩
theorem after {d e} (h : s.Canonical) : (s.after d e).Canonical := h.beside
theorem afterFree {e} (h : s.Canonical) : (s.afterFree e).Canonical := by
  unfold State.afterFree
  exact h.after.beside
theorem choose {n} (h : s.Canonical) : (s.choose n).2.Canonical := h.beside
theorem count {c code} (h : s.Canonical) : (s.count c code).Canonical := .ite h.modCore h
theorem countN {c code n} (h : s.Canonical) : (s.countN c code n).Canonical := by
  induction n with
  | zero => exact h
  | succ n ih => exact ih.count
theorem inject {a b k e} (h : s.Canonical) : (s.inject a b k e).Canonical := by
  unfold State.inject
  exact h.beside
theorem meshAfter {a b k e} (h : s.Canonical) : (s.meshAfter a b k e).Canonical := .ite h.beside h.inject
theorem releaseMesh (h : s.Canonical) : s.releaseMesh.Canonical := .ite h (h.beside.foldl (fun _ _ h => h.inject))
theorem msix {v} (h : s.Canonical) : (s.msix v).Canonical := h.beside
theorem hubAfter {c e} (h : s.Canonical) : (s.hubAfter c e).Canonical := h.meshAfter
theorem sendMsg {m} (h : s.Canonical) : (s.sendMsg m).Canonical := h.meshAfter
theorem hwMsg {dst src ctx kind ws} (h : s.Canonical) : (s.hwMsg dst src ctx kind ws).Canonical := h.sendMsg
theorem notify {die n} (h : s.Canonical) : (s.notify die n).Canonical := h.after
theorem raise {c x t} (h : s.Canonical) : (s.raise c x t).Canonical := h.modCtx.after
theorem startHalt {c x w} (h : s.Canonical) : (s.startHalt c x w).Canonical := h.modCtx
theorem takeTrap {c x t} (h : s.Canonical) : (s.takeTrap c x t).Canonical := by
  unfold State.takeTrap
  exact h.putChecked.modCtx
theorem returnTrap {c x nextForm} (h : s.Canonical) : (s.returnTrap c x nextForm).Canonical := by
  unfold State.returnTrap
  exact .ite h.modCtx.after h.modCtx
theorem skipped {len} (h : s.Canonical) : (s.skipped len).Canonical := h.modCore
theorem issued {len} (h : s.Canonical) : (s.issued len).Canonical := h.skipped.count
theorem lost (h : s.Canonical) : s.lost.Canonical := h.count
theorem issueTrap {len cause addr detail source} (h : s.Canonical) :
    (s.issueTrap len cause addr detail source).Canonical :=
  h.raise
theorem finish {a : Act} {len} (h : s.Canonical) (ha : a.Keeps) : Keeps (a.finish s len) := by
  cases a with
  | ok t => exact ha
  | lose f => exact ha h.lost
  | trap cause addr detail source f => exact ha h.issueTrap
theorem issue {who p len body} (h : s.Canonical)
    (hbody : ∀ {c t}, t.Canonical → (body c t).Keeps) : Keeps (issue who p len s body) :=
  .ite h.issueTrap (.ite h.skipped (h.finish (hbody h.issued)))
theorem issueV {p n len body} (h : s.Canonical)
    (hbody : ∀ {c m t}, t.Canonical → (body c m t).Keeps) : Keeps (issueV p n len s body) :=
  .ite h.skipped (h.finish (hbody h.issued))
theorem putG {d x} (h : s.Canonical) : (s.putG d x).Canonical := h.modMe
theorem checkAtIssue {c key} (h : s.Canonical) : (s.checkAtIssue c key).Canonical := h.modMe.after
theorem parkMe {c k} (h : s.Canonical) : (s.parkMe c k).Canonical := h.modMe
theorem unpark {c x f} (h : s.Canonical) : (s.unpark c x f).Canonical := h.modCtx

/-! ## Flags -/

theorem putP {d x} (h : s.Canonical) : (s.putP d x).Canonical := h.modMe
theorem putV {d x} (h : s.Canonical) : (s.putV d x).Canonical := h.modMe
theorem raiseFlags {f} (h : s.Canonical) : (s.raiseFlags f).Canonical := h.modMe

/-! ## Window -/

theorem modLaunch {n f} (h : s.Canonical) : (s.modLaunch n f).Canonical := h.beside
theorem account {n pre} (h : s.Canonical) : (s.account n pre).Canonical := h.modLaunch
theorem dropLaunch {n} (h : s.Canonical) : (s.dropLaunch n).Canonical := h.beside
theorem checkLaunch {n} (h : s.Canonical) : (s.checkLaunch n).Canonical := by
  unfold State.checkLaunch
  split
  · exact h
  · extract_lets +onlyGivenNames _ t
    have ht : t.Canonical := by
      unfold t
      split
      · split
        · exact h.modLaunch.after
        · exact .ite h.modLaunch.afterFree h.modLaunch.beside
      · exact h
    split
    · split
      · exact ht.modLaunch.after
      · exact .ite ht.modLaunch.afterFree ht.modLaunch.beside.dropLaunch
    · exact ht
theorem settle {n pre} (h : s.Canonical) : (s.settle n pre).Canonical := h.modLaunch.checkLaunch
theorem addOp {c len n kind gMask vMask accs order scope ins counted far} (h : s.Canonical) :
    (s.addOp c len n kind gMask vMask accs order scope ins counted far).Canonical := by
  unfold State.addOp
  exact .ite h.modCore.account h.modCore
theorem endOp {c o write} (h : s.Canonical) : (s.endOp c o write).Canonical := by
  unfold State.endOp
  extract_lets +onlyGivenNames _ t
  have ht : t.Canonical := .ite h.modCore.settle h.modCore
  split
  · exact ht
  · dsimp only
    split
    · exact ht.modCtx
    · exact ht.modCtx.raise

/-! ## Alu -/

theorem scalarG {p len d f} (h : s.Canonical) : Keeps (scalarG p len d s f) := h.issue (fun h => h.putG)
theorem scalarP {p d f} (h : s.Canonical) : Keeps (scalarP p d s f) := h.issue (fun h => h.putP)
theorem alu {p w d a b f} (h : s.Canonical) : Keeps (alu p w d a b s f) := h.scalarG
theorem transfer {target link} (h : s.Canonical) : (transfer s target link).Keeps := .ite id h.modMe
theorem division {p n w d a b f} (h : s.Canonical) : Keeps (division p n w d a b s f) :=
  h.issue (fun h => h.addOp.after)

/-! ## Memory -/

theorem rawWrite {k m x} (h : s.Canonical) : (s.rawWrite k m x).Canonical := by
  unfold State.rawWrite
  split
  · exact h
  · exact h.putChecked
theorem rawSetWord {k x} (h : s.Canonical) : (s.rawSetWord k x).Canonical := h.rawWrite
theorem bumpSurface {i o} (h : s.Canonical) : (s.bumpSurface i o).Canonical := by
  unfold State.bumpSurface
  exact h.rawSetWord
theorem writeRun {k x n} (h : s.Canonical) : (s.writeRun k x n).Canonical := by
  induction n with
  | zero => exact h
  | succ n ih => exact ih.rawWrite
theorem codeSpan {k l} (h : s.Canonical) : (s.codeSpan k l).Canonical := by
  unfold State.codeSpan
  exact .ite h.writeRun.rawSetWord h.writeRun.rawSetWord.bumpSurface
theorem memWrite {k m x} (h : s.Canonical) : (s.memWrite k m x).Canonical := by
  unfold State.memWrite
  split
  · exact h.rawWrite
  · split
    · exact h
    · exact h.rawWrite.setAtom
theorem setMeta {k x} (h : s.Canonical) : (s.setMeta k x).Canonical := by
  unfold State.setMeta
  split
  · exact h
  · exact h.setAtom
theorem clearWritten {blk n} (h : s.Canonical) : (s.clearWritten blk n).Canonical := by
  induction n with
  | zero => exact h
  | succ n ih => exact .ite h ih.setMeta
theorem setWritten {blk n i} (h : s.Canonical) : (s.setWritten blk n i).Canonical := .ite h (.ite h.setMeta h.setMeta)
theorem of_blkWrite {m mask x t last} (h : s.Canonical) (ht : s.blkWrite m mask x = .done t last) :
    t.Canonical := by
  unfold State.blkWrite at ht
  split at ht
  · dsimp only at ht
    split at ht
    · cases ht
    · cases ht
      exact (State.Canonical.ite h.clearWritten h).rawWrite.setWritten.setMeta
  · cases ht
theorem of_blkClear {blk n t} (h : s.Canonical) (ht : s.blkClear blk n = .done t) : t.Canonical := by
  unfold State.blkClear at ht
  split at ht
  · cases ht
  · split at ht
    · cases ht
    · cases ht
      exact h.clearWritten.beside.setMeta
theorem bumpWatch {i} (h : s.Canonical) : (s.bumpWatch i).Canonical := h.beside
theorem startFill {blk n who before lower posts} (h : s.Canonical) :
    (s.startFill blk n who before lower posts).Canonical :=
  h.beside.after

/-! ## Cache -/

theorem setLine {sg line l} (h : s.Canonical) : (s.setLine sg line l).Canonical := h.beside
theorem setSnoop {die line x} (h : s.Canonical) : (s.setSnoop die line x).Canonical := h.beside
theorem lineLost {sg line} (h : s.Canonical) : (s.lineLost sg line).Canonical := by
  refine h.foldl fun _ _ h => ?_
  dsimp only
  split
  · exact h
  · refine h.foldl fun _ _ h => ?_
    split
    · exact .ite h.after h
    · exact h
theorem localWritten {c off} (h : s.Canonical) : (s.localWritten c off).Canonical := by
  refine h.foldl fun _ _ h => ?_
  dsimp only
  split
  · exact .ite h.after h
  · exact h
theorem dropLine {sg line} (h : s.Canonical) : (s.dropLine sg line).Canonical := h.setLine.lineLost
theorem forgetFrame {die line} (h : s.Canonical) : (s.forgetFrame die line).Canonical := .ite h.beside h
theorem toHome {line e m} (h : s.Canonical) : (s.toHome line e m).Canonical := .ite h.afterFree h.beside
theorem sendReq {die line k} (h : s.Canonical) : (s.sendReq die line k).Canonical := by
  unfold State.sendReq
  dsimp only
  split
  · exact .ite h h.toHome
  · exact .ite h h.toHome
  · exact h.toHome
theorem askHub {die line k sg excl} (h : s.Canonical) : (s.askHub die line k sg excl).Canonical := by
  unfold State.askHub
  split
  · exact .ite h h.beside
  · exact .ite h h.beside.sendReq
theorem refreshSnoop {die line g} (h : s.Canonical) : (s.refreshSnoop die line g).Canonical := by
  unfold State.refreshSnoop
  exact h.setSnoop
theorem cacheEvict {sg line} (h : s.Canonical) : (s.cacheEvict sg line).Canonical := by
  unfold State.cacheEvict
  dsimp only
  split
  · exact h.after
  · exact (ite h.dropLine.setLine h.dropLine).refreshSnoop
theorem makeRoom {sg line} (h : s.Canonical) : (s.makeRoom sg line).Canonical := by
  unfold State.makeRoom
  extract_lets +onlyGivenNames _ _ _ _ t
  have ht : t.Canonical := .ite h.choose.cacheEvict h
  exact .ite ht.choose.after ht
theorem missLine {line excl r} (h : s.Canonical) : (s.missLine line excl r).Canonical := by
  unfold State.missLine
  exact .ite h h.beside.meshAfter
theorem wantLine {sg line excl} (h : s.Canonical) : (s.wantLine sg line excl).1.Canonical := by
  unfold State.wantLine
  split
  · exact h
  · dsimp only
    split
    · exact h.askHub
    · split
      · split
        · exact (h.foldl fun _ _ h => h.dropLine).setLine.refreshSnoop.makeRoom
        · exact h.askHub
      · exact (h.foldl fun _ _ h => h.setLine).setLine.refreshSnoop.makeRoom
theorem nudge {k} (h : s.Canonical) : (s.nudge k).Canonical := by
  unfold State.nudge
  exact .ite h.after h
theorem purgeLine {line} (h : s.Canonical) : (s.purgeLine line).Canonical := by
  unfold State.purgeLine
  extract_lets +onlyGivenNames _ t
  have ht : t.Canonical := h.foldl (fun _ _ h => h.dropLine)
  exact ht.beside
theorem of_plainWrite {k m x t} (h : s.Canonical) (ht : s.plainWrite k m x = some t) : t.Canonical := by
  unfold State.plainWrite at ht
  dsimp only at ht
  split at ht
  · cases ht
  · split at ht
    · cases ht
      exact h.purgeLine.memWrite
    · cases ht
      exact h.memWrite
theorem ownWrite {k m x} (h : s.Canonical) : (s.ownWrite k m x).Canonical := by
  unfold State.ownWrite
  exact .ite h.memWrite h.memWrite.beside
theorem setOwnWord {k x} (h : s.Canonical) : (s.setOwnWord k x).Canonical := h.ownWrite

/-! ## Access -/

theorem setSg {g x} (h : s.Canonical) : (s.setSg g x).Canonical := h.beside
theorem modTask {g ticket f} (h : s.Canonical) : (s.modTask g ticket f).Canonical := h.setSg
theorem modCmd {c q f} (h : s.Canonical) : (s.modCmd c q f).Canonical := h.modCore
theorem modHome {i f} (h : s.Canonical) : (s.modHome i f).Canonical := h.beside
theorem modJob {i f} (h : s.Canonical) : (s.modJob i f).Canonical := h.beside
theorem modClr {c id f} (h : s.Canonical) : (s.modClr c id f).Canonical := h.modCore
theorem modOp {c i f} (h : s.Canonical) : (s.modOp c i f).Canonical := h.modCore
theorem modAcc {who f} (h : s.Canonical) : (s.modAcc who f).Canonical := by
  unfold State.modAcc
  split
  · exact h.modOp
  · exact h.modCtx
  · exact h.modCtx
  · exact h.modCtx
  · exact h.modCmd
  · exact h.modTask
  · exact h.modHome
  · exact h.modJob
  · exact h.modClr
  · exact h
theorem setAcc {who a} (h : s.Canonical) : (s.setAcc who a).Canonical := by
  unfold State.setAcc
  split
  · exact h.modCtx
  · exact h.modCtx
  · exact h.modCtx
  · exact h.modCmd
  · exact h.modTask
  · exact h.modJob
  · exact h
  · exact h
  · exact h
  · exact h
theorem modRun {who f} (h : s.Canonical) : (s.modRun who f).Canonical := by
  unfold State.modRun
  split
  · exact h.modClr
  · exact h.modHome
  · exact h
theorem resumeAgent {who d} (h : s.Canonical) : (s.resumeAgent who d).Canonical := h.after
theorem rememberTable {g e off} (h : s.Canonical) : (s.rememberTable g e off).Canonical := .ite h h.beside
theorem putL2 {g e} (h : s.Canonical) : (s.putL2 g e).Canonical := by
  cases g <;> exact h.beside
theorem putL1 {who e} (h : s.Canonical) : (s.putL1 who e).Canonical := by
  unfold State.putL1
  dsimp only [State.choose]
  split
  · exact h.beside.modCore
  · exact h.beside.modCore
  · exact h.beside.modCore
  · exact h.beside.modCore
  · exact h.beside
theorem heat {pte} (h : s.Canonical) : (s.heat pte).Canonical := .ite h h.setOwnWord
theorem sample {g pte} (h : s.Canonical) : (s.sample g pte).Canonical := by
  cases g with
  | none => exact h
  | some g =>
    refine ite ?_ h.beside
    cases pte with
    | none => exact h.beside
    | some p => exact h.beside.heat
theorem fail {who kind level e0 e1 va} (h : s.Canonical) : (s.fail who kind level e0 e1 va).Canonical := by
  unfold State.fail
  dsimp only
  split
  · exact h.modAcc.after.modCtx
  · exact .ite h.modAcc.after.after h.modAcc.after
  · exact .ite h.modAcc.resumeAgent h.modAcc.after
  · split
    · exact h.modAcc.resumeAgent
    · exact h.modAcc.after.modJob.after
    · exact h.modAcc.after.modJob.after
    · exact h.modAcc.after
  · exact h.modAcc.after
theorem translated {who e va} (h : s.Canonical) : (s.translated who e va).Canonical := by
  unfold State.translated
  exact .ite h.fail h.modAcc
theorem translate {who} (h : s.Canonical) : (s.translate who).Canonical := by
  unfold State.translate
  split
  · exact h
  · dsimp only
    split
    · exact h.translated
    · split
      · exact h.sample.putL1.translated
      · split
        · exact h.modAcc.beside
        · exact .ite h.modAcc.beside.afterFree h.modAcc.beside
theorem dropTlb {keep} (h : s.Canonical) : (s.dropTlb keep).Canonical :=
  ⟨h.mem, h.atoms, SMap.wfAbove_filterMap (d := Core.reset) (lo := 0) (f := fun k : Core =>
    { k with itlb := k.itlb.filter keep, dtlb := k.dtlb.filter keep }) h.cores⟩

/-! ## Lsu -/

theorem answer {who d r} (h : s.Canonical) : (s.answer who d r).Canonical := by
  unfold State.answer
  split
  · exact h.modAcc.resumeAgent
  · exact h.modAcc.after
theorem answerFree {who r} (h : s.Canonical) : (s.answerFree who r).Canonical := h.beside.answer
theorem answerFrom {src who r} (h : s.Canonical) : (s.answerFrom src who r).Canonical := by
  unfold State.answerFrom
  split
  · exact h.modAcc.meshAfter
  · exact h.answerFree
theorem answerHub {who r} (h : s.Canonical) : (s.answerHub who r).Canonical := by
  unfold State.answerHub
  split
  · exact h.answerFrom
  · exact h.answerFree
theorem answerAt {who m d r} (h : s.Canonical) : (s.answerAt who m d r).Canonical :=
  .ite h.answerHub (.ite h.answer h.modAcc.after)
theorem replySend {who src r} (h : s.Canonical) : (s.replySend who src r).Canonical := by
  unfold State.replySend
  split
  · exact h.meshAfter
  · exact h
theorem pushLine {l} (h : s.Canonical) : (s.pushLine l).Canonical :=
  .ite h (.ite (h.foldl (fun _ _ h => .ite h h.after)) (.ite h.after h))
theorem pushDev {c x} (h : s.Canonical) : (s.pushDev c x).Canonical := h.foldl (fun _ _ h => h.pushLine)
theorem placeWaiter {blk n d} (h : s.Canonical) : (s.placeWaiter blk n d).Canonical := by
  unfold State.placeWaiter
  extract_lets slot t u
  have ht : t.Canonical := by
    unfold t
    cases slot with
    | none => exact h
    | some i => exact h.setOwnWord.setOwnWord
  cases u.tagOf blk n with
  | none => exact ht.beside
  | some g => exact .ite ht.beside.setMeta ht.beside
theorem countRefusal {who} (h : s.Canonical) : (s.countRefusal who).Canonical := .ite h.count h
theorem tryPlace {who m d delay} (h : s.Canonical) : (s.tryPlace who m d delay).Canonical := by
  unfold State.tryPlace
  split
  · split
    · exact h.placeWaiter.modAcc
    · exact h.placeWaiter.modAcc
    · exact h.placeWaiter.modAcc.resumeAgent
  · exact h.countRefusal.answerAt
theorem awaitBlock {who a m d} (h : s.Canonical) : (s.awaitBlock who a m d).Canonical := by
  unfold State.awaitBlock
  split
  · split
    · exact h
    · exact .ite h.tryPlace h.answerAt
  · exact h.tryPlace
  · exact h.tryPlace
  · split
    · exact h.tryPlace
    · exact h
  · exact h.answerAt
theorem readHome {who a m d} (h : s.Canonical) : (s.readHome who a m d).Canonical := by
  unfold State.readHome
  refine ite h.answerAt ?_
  cases s.tagOf m.blk m.n with
  | none => exact h.answerAt
  | some t =>
    dsimp only
    split
    · exact h.answerAt
    · exact h.answerAt
    · exact .ite h.answerAt h.awaitBlock
    · exact h.answerAt
    · exact .ite h.answerAt h.awaitBlock
theorem writeHome {who m mask x d} (h : s.Canonical) : (s.writeHome who m mask x d).Canonical := by
  unfold State.writeHome
  split
  · exact h.answerAt
  · exact h.answerAt
  next t last ht =>
    have hw : t.Canonical := h.of_blkWrite ht
    exact (State.Canonical.ite hw.startFill hw).answerAt
theorem homePerform {who d} (h : s.Canonical) : (s.homePerform who d).Canonical := by
  unfold State.homePerform
  split
  · exact h
  · split
    · exact h
    · split
      · exact h
      · split
        · exact h.answerAt
        · split
          · exact h.beside
          · split
            · exact h.writeHome
            · exact h.answerAt
            · exact h.answerAt
            · exact h.readHome
theorem takeSibling {c x y key g} (h : s.Canonical) : (s.takeSibling c x y key g).2.Canonical := by
  unfold State.takeSibling
  dsimp only
  refine foldl ?_ fun _ _ h => h.modOp
  split
  · exact h
  · exact h.beside
theorem siblingBytes {c x key g} (h : s.Canonical) : (s.siblingBytes c x key g).2.Canonical :=
  List.foldlRecOn (motive := fun r : Granule × State => r.2.Canonical) _ _ h fun r hr i _ => by
    dsimp only
    split
    · exact hr
    · exact hr.takeSibling
theorem markPlain {c x tid m} (h : s.Canonical) : (s.markPlain c x tid m).Canonical := h.modCtx
theorem lineAnswer {who src r} (h : s.Canonical) : (s.lineAnswer who src r).Canonical := by
  unfold State.lineAnswer
  split
  · exact h.answerFree
  · exact h.answerFrom
theorem linePerform {c o i a m src} (h : s.Canonical) : (s.linePerform c o i a m src).Canonical := by
  unfold State.linePerform
  dsimp only
  split
  · exact h.setLine.lineLost.markPlain.lineAnswer
  · split
    · exact h.lineAnswer
    · exact h.setLine.lineLost.markPlain.lineAnswer
  · exact h.lineAnswer
  · exact h.siblingBytes.lineAnswer
theorem holdWrite {sg line who op} (h : s.Canonical) : (s.holdWrite sg line who op).Canonical := by
  unfold State.holdWrite
  split
  · exact .ite h (.ite h.beside h)
  · exact h
theorem leave {who pkg r} (h : s.Canonical) : (s.leave who pkg r).Canonical := by
  unfold State.leave
  split
  · exact h.meshAfter
  · exact h.beside
theorem sendRemote {who pkg a} (h : s.Canonical) : (s.sendRemote who pkg a).Canonical := by
  unfold State.sendRemote
  exact .ite h.modAcc.after h.modAcc.beside.leave
theorem askAbroad {pkg r} (h : s.Canonical) : (s.askAbroad pkg r).Canonical := h.beside
theorem askLine {who line a excl} (h : s.Canonical) : (s.askLine who line a excl).Canonical := h.beside.missLine
theorem watchRead {who c a m} (h : s.Canonical) : (s.watchRead who c a m).Canonical := by
  unfold State.watchRead
  exact .ite h.modAcc (.ite h.modAcc.answerFree h.modAcc.askLine)
theorem lsuPlain {c o i a m src} (h : s.Canonical) : (s.lsuPlain c o i a m src).Canonical := by
  unfold State.lsuPlain
  exact .ite h.modAcc (.ite h.modAcc.linePerform h.modAcc.holdWrite.askLine)
theorem lsuLocal {c o i a k} (h : s.Canonical) : (s.lsuLocal c o i a k).Canonical := by
  unfold State.lsuLocal
  dsimp only
  split
  · exact h.modAcc.answer
  · exact h.modAcc.answer
  · exact h.modAcc.answer
  · exact h.modAcc.answer
  · exact h.modAcc.answer
  · split <;> exact h.modAcc.answer
  · split <;> exact h.modAcc.answer
  · exact h.modAcc.rawWrite.localWritten.answer
  · split
    · refine answer ?_
      split
      · exact h.modAcc.rawWrite.localWritten
      · exact h.modAcc
    · exact h.modAcc.answer
theorem storeArrival {who store bank pos} (h : s.Canonical) : (s.storeArrival who store bank pos).Canonical := h.beside
theorem presentAt {who level t off} (h : s.Canonical) : (s.presentAt who level t off).Canonical := by
  unfold State.presentAt
  dsimp only
  split
  · exact h.modAcc.storeArrival
  · exact h.modAcc.meshAfter
theorem toHub {who e} (h : s.Canonical) : (s.toHub who e).Canonical := by
  unfold State.toHub
  split
  · exact h.meshAfter
  · exact h.afterFree
theorem spanWrite {c q m x} (h : s.Canonical) : (s.spanWrite c q m x).Canonical := by
  unfold State.spanWrite
  split
  · exact h
  · dsimp only
    split
    · exact h.modCmd.answer
    · exact .ite h.after ((((h.foldl (fun _ _ h => h.purgeLine)).codeSpan).modCmd).answerHub)
theorem enginePlain {who a m} (h : s.Canonical) : (s.enginePlain who a m).Canonical := by
  unfold State.enginePlain
  split
  · exact h.spanWrite
  · dsimp only
    split
    · exact h.answerHub
    · split
      · exact h.nudge.after
      · exact h.modAcc.answerAt
      · split
        · exact h.answer
        · exact h.answer
        · exact h.answer
        · exact h.answer
        · exact h.answer
        · exact h.answerAt
        · exact h.answerAt
        · split
          next t ht => exact (h.of_plainWrite ht).answerAt
          · exact h.after
        · split
          · exact h.answerAt
          · split
            next t ht => exact (h.of_plainWrite ht).answerAt
            · exact h.after
theorem toPlain {who a m} (h : s.Canonical) : (s.toPlain who a m).Canonical := by
  unfold State.toPlain
  dsimp only
  split
  · exact h.modAcc.toHub
  · exact h.modAcc.enginePlain
theorem hubAccess {who} (h : s.Canonical) : (s.hubAccess who).Canonical := by
  unfold State.hubAccess
  split
  · split
    · exact .ite h.enginePlain h
    · exact h
  · exact h
theorem rememberId {id} (h : s.Canonical) : (s.rememberId id).Canonical := h.beside
theorem toBlock {who a m} (h : s.Canonical) : (s.toBlock who a m).Canonical := h.modAcc.toHub
theorem dispatchAcc {who a m} (h : s.Canonical) : (s.dispatchAcc who a m).Canonical := by
  unfold State.dispatchAcc
  split
  · split
    · exact h
    · refine ite (ite h.answer h.toBlock) (ite ?_ h.lsuPlain)
      split <;> exact h.answer
  · refine ite (ite h.answer ?_) (ite h.answer ?_)
    · split
      · exact h.answer
      · exact h.toBlock
    · split
      · exact h.beside.rememberId.after
      · refine ite h.modAcc.toHub ?_
        split
        · exact h.watchRead
        · exact h.toPlain
theorem sendHome {c o i a pkg} (h : s.Canonical) : (s.sendHome c o i a pkg).Canonical := by
  unfold State.sendHome
  extract_lets +onlyGivenNames _ _ _ _ _ _ t
  have ht : t.Canonical := .ite h.beside.hubAfter (.ite (.ite h.beside.after h.beside.beside.after) h.beside.hubAfter)
  exact .ite ht.modCtx.answer ht.modAcc
theorem go {who} (h : s.Canonical) : (s.go who).Canonical := by
  unfold State.go
  split
  · exact h
  · refine ite h ?_
    extract_lets c hb t
    split
    · exact h.answer
    · refine ite ?_ (ite h.answer h.presentAt)
      split
      · split
        · exact h.lsuLocal
        · exact h
      · refine ite h.answer ?_
        split
        · exact h.enginePlain.localWritten
        · exact h.enginePlain.localWritten
        · exact h.enginePlain
    · have ht : t.Canonical := .ite h.translate h
      cases hb with
      | some e => exact h.sendHome
      | none =>
      · refine ite ?_ ?_
        · split
          · split
            · exact .ite h.sendRemote h.lsuPlain
            · exact h
          · split
            · exact h.watchRead
            · exact h.sendRemote
        · split
          · exact ht
          · split
            · exact .ite ht.dispatchAcc ht
            · exact ht
theorem goLsu {c oi i} (h : s.Canonical) : (s.goLsu c oi i).Canonical := by
  unfold State.goLsu
  split
  · exact h
  · split
    · exact h
    · refine ite h ?_
      extract_lets t
      have ht : t.Canonical := .ite h.translate h
      split
      · exact ht
      · exact .ite ht (.ite ht.go (ite ht.pushDev ht).after)
theorem goAll {c oi n} (h : s.Canonical) : (s.goAll c oi n).Canonical := by
  induction n with
  | zero => exact h
  | succ n ih => exact ih.goLsu
theorem admitMerges {die} (h : s.Canonical) : (s.admitMerges die).Canonical := by
  refine h.foldl fun _ _ h => ?_
  dsimp only
  split
  · exact h
  · refine h.foldl fun _ _ h => h.foldl fun _ _ h => ?_
    split
    · split
      · exact .ite h h.holdWrite
      · exact h
    · exact h
theorem lineArrived {die line} (h : s.Canonical) : (s.lineArrived die line).Canonical := by
  unfold State.lineArrived
  extract_lets held waiting go t b c v u
  have hgo : ∀ s who, State.Canonical s → (go s who).Canonical := fun s who h => by
    unfold go
    split
    · split
      · exact h
      · split
        · exact h
        · split
          · exact .ite h.lsuPlain h
          · exact h
    · exact h
  have ht : t.Canonical := h.foldl hgo
  have hv : v.Canonical := .ite ht.beside ht.beside.admitMerges
  refine foldl (hv.foldl fun _ _ h => ?_) hgo
  refine ite (h.foldl fun _ _ h => ?_) h
  dsimp only
  split
  · exact .ite (.ite h.answerFrom h.askLine) h
  · exact h

/-! ## MemInstr -/

theorem launchOp {c n kind accs gMask vMask order scope ins counted far} (h : s.Canonical) :
    (s.launchOp c n kind accs gMask vMask order scope ins counted far).Canonical := by
  unfold State.launchOp
  extract_lets +onlyGivenNames _ _ _ t
  have ht : t.Canonical := .ite h.addOp h.addOp.modMe
  exact ht.goAll
theorem storeOp {c n accs} (h : s.Canonical) : (s.storeOp c n accs).Keeps := .ite id h.launchOp
theorem scalarLoad {p n sz d ea} (h : s.Canonical) : Keeps (scalarLoad p n sz d s ea) := by
  refine h.issue fun h => ?_
  split
  · exact id
  · exact h.launchOp
theorem scalarStore {p n sz d ea} (h : s.Canonical) : Keeps (scalarStore p n sz d s ea) := by
  refine h.issue fun h => ?_
  split
  · exact id
  · exact h.storeOp
theorem clearRun {p ea count counts} (h : s.Canonical) : Keeps (clearRun p s ea count counts) := by
  refine h.issue fun h => ?_
  split
  · exact id
  · exact h.modCore.after
theorem prefLine {c ea line excl} (h : s.Canonical) : (s.prefLine c ea line excl).Canonical := .ite h h.beside.missLine
theorem prefetch {p a disp excl} (h : s.Canonical) : Keeps (prefetch p a disp excl s) := by
  refine h.issue fun h => ?_
  dsimp only
  split
  · split
    · exact h.prefLine
    · split
      · exact .ite h h.prefLine
      · exact h
  · exact h
theorem aop {f p n far ty scope order d a b} (h : s.Canonical) : Keeps (aop f p n far ty scope order d a b s) := by
  refine h.issue fun h => ?_
  dsimp only
  split
  · exact id
  · exact h.launchOp
theorem posted {p n w scope order a op} (h : s.Canonical) : Keeps (posted p n w scope order a s op) := by
  refine h.issue fun h => ?_
  dsimp only
  split
  · exact id
  · exact ite h.launchOp h.launchOp.account
theorem red {f p n ty scope order a b} (h : s.Canonical) : Keeps (red f p n ty scope order a b s) := h.posted
theorem vecLoad {i p n bits d pair} (h : s.Canonical) : Keeps (vecLoad i p n bits d pair s) := by
  refine h.issueV fun h => ?_
  split
  · exact id
  · exact h.launchOp
theorem vecStore {i p n bits d pair} (h : s.Canonical) : Keeps (vecStore i p n bits d pair s) := by
  refine h.issueV fun h => ?_
  split
  · exact id
  · exact h.storeOp

/-! ## Queue -/

theorem kick {c} (h : s.Canonical) : (s.kick c).Canonical := by
  unfold State.kick
  split
  · exact h.after
  · exact h
theorem of_enqueue {c e t} (h : s.Canonical) (ht : s.enqueue c e = some t) : t.Canonical := by
  unfold State.enqueue at ht
  dsimp only at ht
  split at ht
  · cases ht
    exact h.modCore.kick
  · split at ht
    · split at ht
      · cases ht
        exact h.setOwnWord.setOwnWord.setOwnWord.after
      · cases ht
    · cases ht
theorem holdPush {c e} (h : s.Canonical) : (s.holdPush c e).Canonical := .ite h.modCore.count h.modCore
theorem pushRq {c e} (h : s.Canonical) : (s.pushRq c e).Canonical := by
  unfold State.pushRq
  split
  next t ht =>
    split at ht
    · exact h.of_enqueue ht
    · cases ht
  · exact h.holdPush
theorem pushHeld {c l} (h : s.Canonical) : (s.pushHeld c l).Canonical := by
  induction l generalizing s with
  | nil => exact h.modCore
  | cons e l ih =>
    unfold State.pushHeld
    split
    next t ht => exact ih (h.of_enqueue ht)
    · exact h.modCore
theorem pushNet {c} (h : s.Canonical) : (s.pushNet c).Canonical := h.modCore.foldl (fun _ _ h => h.pushRq)
theorem takeRq {c e} (h : s.Canonical) : (s.takeRq c e).Canonical := h.modCore.after
theorem wakeCont {blk addr c asid prio pinned} (h : s.Canonical) :
    (s.wakeCont blk addr c asid prio pinned).Canonical := by
  unfold State.wakeCont
  split
  · exact h.meshAfter
  · exact h

/-! ## Thread -/

theorem modGang {n i f} (h : s.Canonical) : (s.modGang n i f).Canonical := h.beside
theorem checkBarrier {n i k} (h : s.Canonical) : (s.checkBarrier n i k).Canonical := by
  unfold State.checkBarrier
  split
  · exact h
  · split
    · exact h
    · refine after ?_
      split
      · exact h.modGang.modCtx.after
      · exact h.modGang
theorem triggerThread {c x} (h : s.Canonical) : (s.triggerThread c x).Canonical := by
  unfold State.triggerThread
  dsimp only
  split
  · exact h
  · split
    · split
      · exact h.modCtx.modGang
      · exact .ite h.modCtx.modGang.modLaunch.checkLaunch h.modCtx.modGang
    · exact h.modCtx.modLaunch.checkLaunch
theorem exitThread {c x} (h : s.Canonical) : (s.exitThread c x).Canonical := by
  unfold State.exitThread
  refine ite h ?_
  extract_lets t u v
  have hu : u.Canonical := h.triggerThread
  refine ite ?_ hu.modLaunch.checkLaunch
  split
  · exact hu.modGang
  · refine ite (State.Canonical.checkLaunch (.modLaunch (.beside ?_))) ?_
    · exact hu.modGang.foldl fun _ _ h => h.checkBarrier
    · exact hu.modGang.foldl fun _ _ h => h.checkBarrier
theorem offerCtx {c x} (h : s.Canonical) : (s.offerCtx c x).Canonical := .ite h.after (.ite h h.after)
theorem freeCtx {c x} (h : s.Canonical) : (s.freeCtx c x).Canonical := by
  unfold State.freeCtx
  extract_lets a t u
  have ht : t.Canonical := by
    unfold t
    split
    · exact h
    · exact h.beside
  exact .ite ht.modCtx.after ht.modCtx.offerCtx
theorem retire {c x} (h : s.Canonical) : (s.retire c x).Canonical := h.exitThread.freeCtx
theorem wakeCopyPark {c x} (h : s.Canonical) : (s.wakeCopyPark c x).Canonical := by
  unfold State.wakeCopyPark
  dsimp only
  split
  · exact .ite h h.unpark
  · exact .ite h.unpark h
  · exact .ite h h.unpark
  · exact .ite h h.retire
  · exact h
theorem closeBatch {c x} (h : s.Canonical) : (s.closeBatch c x).Canonical := by
  unfold State.closeBatch
  exact .ite h h.modCore.after

/-! ## MemEvents -/

theorem haltCtx {c x w} (h : s.Canonical) : (s.haltCtx c x w).Canonical := h.startHalt.after
theorem containCtx {c x addr} (h : s.Canonical) : (s.containCtx c x addr).Canonical := by
  unfold State.containCtx
  exact .ite h h.haltCtx.notify
theorem checkFail {a who} (h : s.Canonical) : (s.checkFail a who).Canonical := h.after
theorem raiseDeferred {c x t} (h : s.Canonical) : (s.raiseDeferred c x t).Canonical := .ite h.modCtx h.modCtx.raise
theorem redoVector {c o} (h : s.Canonical) : (s.redoVector c o).Canonical := by
  unfold State.redoVector
  split
  · exact h
  · exact .ite h.endOp h.modOp.goAll
theorem settleOp {c o} (h : s.Canonical) : (s.settleOp c o).Canonical := by
  unfold State.settleOp
  dsimp only
  split
  · exact h.checkFail.endOp
  · split
    · exact h.haltCtx.endOp
    · exact .ite h.containCtx.endOp (.ite h.endOp (.ite (.ite h.after h.modOp.after) h.endOp))
theorem longLatencyComplete {c id r} (h : s.Canonical) : (s.longLatencyComplete c id r).Canonical := by
  unfold State.longLatencyComplete
  split
  · exact h
  · split
    · exact h.endOp
    · exact h.endOp
    · exact h.redoVector
    · exact h
    · exact h
    · exact h.modOp.goLsu
    · dsimp only
      split
      · exact h.modOp
      · exact .ite h.modOp.settleOp h.modOp
theorem endClr {who r e} (h : s.Canonical) : (s.endClr who r e).Canonical := by
  unfold State.endClr
  split
  · extract_lets +onlyGivenNames _ t
    have ht : t.Canonical := .ite h.modCore h.modCore.after
    dsimp only
    split
    · exact ht.wakeCopyPark
    · exact ht.after
    · exact .ite ht.checkFail ht.after
    · exact .ite ht.haltCtx ht
    · exact ht
  · split
    · exact h
    · exact h.beside.rememberId.beside
  · exact h
theorem clrAdvance {who r} (h : s.Canonical) : (s.clrAdvance who r).Canonical := by
  unfold State.clrAdvance
  exact .ite h.endClr h.modRun.after
theorem clrPerform {who r m} (h : s.Canonical) : (s.clrPerform who r m).Canonical := by
  unfold State.clrPerform
  dsimp only
  split
  · exact h.endClr
  · split
    · exact h.modRun.beside
    · split
      · exact h.endClr
      · exact h.clrAdvance
      next t ht =>
        have hc : t.Canonical := h.of_blkClear ht
        split
        · exact .ite hc.clrAdvance h.beside.modRun.after
        · exact hc.clrAdvance
theorem performAt {who d} (h : s.Canonical) : (s.performAt who d).Canonical := by
  unfold State.performAt
  split
  · exact h.homePerform
  · split
    · exact .ite h.clrPerform h
    · exact h
theorem dropAlias {die line who} (h : s.Canonical) : (s.dropAlias die line who).Canonical := by
  unfold State.dropAlias
  exact h.beside.foldl (fun _ _ h => h.modAcc.resumeAgent)
theorem moveAlias {die b a} (h : s.Canonical) : (s.moveAlias die b a).Canonical := by
  unfold State.moveAlias
  extract_lets +onlyGivenNames _ _ t u
  have ht : t.Canonical := h.foldl (fun _ _ h => h.setLine.dropLine)
  have hu : u.Canonical := .ite ht ht.setSnoop.setSnoop
  exact hu.beside.foldl (fun _ _ h => h.modAcc.resumeAgent)
theorem lineReply {q frame excl dirty err g} (h : s.Canonical) : (s.lineReply q frame excl dirty err g).Canonical := by
  unfold State.lineReply
  extract_lets +onlyGivenNames _ _ _ _ t
  have ht : t.Canonical := h.foldl (fun _ _ h => h.moveAlias)
  exact ht.beside.after
theorem abandonNote {who handle word0} (h : s.Canonical) : (s.abandonNote who handle word0).Canonical := by
  unfold State.abandonNote
  dsimp only
  split
  · exact h.notify
  · exact h.notify
  · exact h.notify
  · exact h.notify
  · exact h
theorem remoteWait {c id i} (h : s.Canonical) : (s.remoteWait c id i).Canonical := by
  unfold State.remoteWait
  split
  · exact h
  · exact .ite h.modOp h.modOp.modOp.after
theorem agentReply {who r} (h : s.Canonical) : (s.agentReply who r).Canonical := by
  unfold State.agentReply
  extract_lets q far t u c v w
  clear_value q far
  have ht : t.Canonical := by
    unfold t
    split
    · exact h.after
    · exact .ite h.beside.markPlain h.beside
    · exact h
  have hu : u.Canonical := by
    unfold u
    split
    · exact .ite ht.countRefusal ht
    · exact .ite ht.abandonNote ht
    · exact ht
  have hv : v.Canonical := hu.beside
  have hw : w.Canonical := by
    unfold w
    split
    · exact hv.lineReply
    · exact hv.after
    · exact .ite hv.dropAlias hv
    · exact hv
  split
  · exact hw
  · exact hw
  · exact hw
  · exact hw.remoteWait
  · exact hw.longLatencyComplete
  · split
    · exact hw
    · split
      · exact hw.endClr
      · exact hw.endClr
      · exact hw.endClr
      · exact hw.containCtx.endClr
      · exact hw.containCtx.endClr
      · exact hw.endClr
      · exact hw
  · exact hw.setAcc.haltCtx.after
  · exact hw.setAcc.haltCtx.after
  · exact hw.setAcc.containCtx
  · exact hw.setAcc.containCtx
  · exact hw.modAcc.resumeAgent
theorem hubReply {who r} (h : s.Canonical) : (s.hubReply who r).Canonical := by
  unfold State.hubReply
  split
  · exact h.agentReply
  · exact h.agentReply
  · exact h.agentReply
  · exact h.meshAfter
theorem bankAccess {store bank} (h : s.Canonical) : (s.bankAccess store bank).Canonical := by
  unfold State.bankAccess
  split
  · exact h
  · extract_lets +onlyGivenNames _ _ _ t
    have ht : t.Canonical := h.foldl (fun _ _ h => .ite h.count h.count.modAcc)
    exact ht.beside.performAt
theorem atHome {who} (h : s.Canonical) : (s.atHome who).Canonical := by
  unfold State.atHome
  exact h.beside.performAt
theorem waiterRetry {who} (h : s.Canonical) : (s.waiterRetry who).Canonical := by
  unfold State.waiterRetry
  split
  · exact h
  · exact .ite h.modAcc.go (.ite h.modAcc.go h)
theorem blockFillRelease {blk n who} (h : s.Canonical) : (s.blockFillRelease blk n who).Canonical := by
  unfold State.blockFillRelease
  split
  · exact h
  · split
    · exact h.after
    · split
      · exact h.beside
      · exact .ite h.setMeta.beside.after h.setMeta.beside
theorem releaseHeld {blk} (h : s.Canonical) : (s.releaseHeld blk).Canonical := by
  unfold State.releaseHeld
  exact h.beside.foldl (fun _ _ h => h.atHome)
theorem releaseIn {lo hi} (h : s.Canonical) : (s.releaseIn lo hi).Canonical := h.foldl (fun _ _ h => h.releaseHeld)
theorem clrSend {who r m} (h : s.Canonical) : (s.clrSend who r m).Canonical := by
  unfold State.clrSend
  dsimp only
  split
  · exact h.modRun.presentAt
  · exact h.modRun.modAcc.toHub
theorem clrAtHome {who idx} (h : s.Canonical) : (s.clrAtHome who idx).Canonical := by
  unfold State.clrAtHome
  split
  · exact h
  · dsimp only
    split
    · exact h
    · split
      · exact h.endClr
      · split
        · split
          · exact h.clrPerform
          · exact h
        · split
          · exact h
          · split
            · exact h.after
            · split
              · split
                · exact h.endClr
                · exact h.clrSend
              · split
                · exact h.endClr
                · exact .ite h.endClr h.clrSend
                · split
                  · exact h.sendRemote
                  · split
                    · exact .ite h.translate h
                    · split
                      · exact .ite h.translate h
                      · exact .ite (.ite h.translate h) ((ite h.translate h).clrSend)
theorem watchIncrement {who idx} (h : s.Canonical) : (s.watchIncrement who idx).Canonical := by
  unfold State.watchIncrement
  split
  · exact h
  · split
    · exact h
    · split
      · exact h
      · split
        · exact h
        · exact h.bumpWatch.beside.clrPerform.releaseHeld
theorem drainRead {who} (h : s.Canonical) : (s.drainRead who).Canonical := by
  unfold State.drainRead
  dsimp only
  split
  · exact h.beside.modAcc
  · split
    · exact h.beside.modAcc
    · exact h.beside.modAcc.readHome
theorem wakeWaiter {w} (h : s.Canonical) : (s.wakeWaiter w).Canonical := by
  unfold State.wakeWaiter
  split
  · exact h.wakeCont
  · split
    · split
      · exact h
      · split
        · exact h
        · split
          · exact h
          · split
            · exact h.modCore
            · split
              · exact h.redoVector
              · exact h.drainRead
    · exact h
  · split
    · exact .ite h.drainRead h
    · exact h
  · split
    · exact .ite h (.ite h.after h.drainRead)
    · exact h
  · exact h.beside
theorem drainDescriptor {blk n} (h : s.Canonical) : (s.drainDescriptor blk n).Canonical := by
  unfold State.drainDescriptor
  split
  · exact h
  · split
    · exact h.beside.wakeWaiter.after
    · exact h.beside.releaseHeld
theorem undeliverable {c x t} (h : s.Canonical) : (s.undeliverable c x t).Canonical := by
  unfold State.undeliverable
  exact h.modCtx.haltCtx.notify
theorem trapDelivery {c x} (h : s.Canonical) : (s.trapDelivery c x).Canonical := by
  unfold State.trapDelivery
  dsimp only
  split
  · exact h
  · split
    · exact h.after
    · split
      · exact h.modCtx
      · exact .ite h.takeTrap h.undeliverable
theorem machineCheck {src key who} (h : s.Canonical) : (s.machineCheck src key who).Canonical := by
  have hm : ∀ {t : State}, t.Canonical → (({ t with fresh := t.fresh + 1 } : State).msix 1).Canonical :=
    fun h => h.beside.msix
  unfold State.machineCheck
  dsimp only
  split
  · exact (hm (.ite h.bumpSurface h)).notify
  · split
    · exact (hm (.ite h.bumpSurface h)).haltCtx.notify
    · exact (hm (.ite h.bumpSurface h)).haltCtx.notify
    · exact (hm (.ite h.bumpSurface h)).notify
theorem failLaunch {num cause} (h : s.Canonical) : (s.failLaunch num cause).Canonical := by
  unfold State.failLaunch
  split
  · exact h
  · exact .ite h (.ite h.modLaunch h.modLaunch.beside.after)
theorem refuse {q cause code} (h : s.Canonical) : (s.refuse q cause code).Canonical := h.failLaunch.notify
theorem postedAck {id refusal} (h : s.Canonical) : (s.postedAck id refusal).Canonical := by
  unfold State.postedAck
  split
  · exact h
  · extract_lets +onlyGivenNames _ _ t _ u
    have ht : t.Canonical := h.beside.rememberId.modCtx
    have hu : u.Canonical := .ite (.ite ht.markPlain ht) ((ite ht.markPlain ht).refuse)
    exact .ite hu.settle hu

/-! ## FaultEvents -/

theorem countLost {die} (h : s.Canonical) : (s.countLost die).Canonical := h.beside
theorem supervisorNotice {die n} (h : s.Canonical) : (s.supervisorNotice die n).Canonical := by
  unfold State.supervisorNotice
  split
  · exact h.countLost
  · exact h.hwMsg
theorem illegalEncoding {c x reason len} (h : s.Canonical) : (s.illegalEncoding c x reason len).Canonical := by
  unfold State.illegalEncoding
  exact h.startHalt.after
theorem emulationRequest {c x reason} (h : s.Canonical) : (s.emulationRequest c x reason).Canonical := by
  unfold State.emulationRequest
  dsimp only
  split
  · split
    · exact h
    · split
      · exact h.after
      · split
        · exact h.modCtx.after
        · split
          · exact h.modCtx.countLost
          · exact h.modCtx.hwMsg
  · exact h
theorem startWalk {g} (h : s.Canonical) : (s.startWalk g).Canonical := by
  unfold State.startWalk
  split
  · exact h
  · exact h.beside.afterFree
theorem keepWalk {w e} (h : s.Canonical) : (s.keepWalk w e).Canonical := by
  unfold State.keepWalk
  exact .ite h h.rememberTable.putL2
theorem walkResult {w r who} (h : s.Canonical) : (s.walkResult w r who).Canonical := by
  unfold State.walkResult
  dsimp only
  split
  · exact h
  · split
    · exact h
    · split
      · exact h
      · exact h.sample.modAcc.answer
      · split
        · exact h.sample.fail
        · exact h.sample.keepWalk.putL1.translated.resumeAgent
      · exact h.sample.fail
theorem countWalk {w r} (h : s.Canonical) : (s.countWalk w r).Canonical := by
  unfold State.countWalk
  split
  · exact .ite h.count h
  · exact h
theorem walk {g id} (h : s.Canonical) : (s.walk g id).Canonical := by
  unfold State.walk
  split
  · exact h
  · dsimp only
    split
    · exact h.nudge.after
    · exact (h.beside.countWalk.foldl (fun _ _ h => h.walkResult)).startWalk
theorem setFault {table entry e} (h : s.Canonical) : (s.setFault table entry e).Canonical := h.beside
theorem abandon {who f w unsent} (h : s.Canonical) : (s.abandon who f w unsent).Canonical := by
  unfold State.abandon
  dsimp only
  split
  · exact (((ite h.notify h).setAcc).haltCtx).after
  · exact (((ite h.notify h).setAcc).haltCtx).after
  · exact ((ite h.notify h).modHome).answer
  · exact (ite h.notify h).answer
theorem faultPost {who f} (h : s.Canonical) : (s.faultPost who f).Canonical := by
  unfold State.faultPost
  split
  · exact h
  · refine ite h ?_
    extract_lets ents
    split
    · exact h.setFault
    · split
      · exact (ite h.count h).countLost.abandon
      · split
        · split
          · split
            · exact .ite h.after h.beside
            · exact h
          · exact (ite h h.count).after
        · exact h.beside.setFault.hwMsg
theorem replay {who} (h : s.Canonical) : (s.replay who).Canonical := by
  unfold State.replay
  split
  · exact .ite h.modAcc.resumeAgent h
  · exact h
theorem faultReplay {t i outcome} (h : s.Canonical) : (s.faultReplay t i outcome).Canonical := by
  unfold State.faultReplay
  split
  · exact h
  · split
    · exact h.after
    · exact .ite (h.setFault.foldl (fun _ _ h => h.replay)) (h.setFault.foldl (fun _ _ h => h.abandon))
theorem fetchBlockFill {c x} (h : s.Canonical) : (s.fetchBlockFill c x).Canonical := by
  unfold State.fetchBlockFill
  dsimp only [State.choose]
  split
  · exact h
  · split
    · exact h
    · split
      · exact h.go
      · exact h.beside.modCore.modCtx
      · exact .ite h.modCtx.checkFail h.modCtx.raise
      · exact h
theorem finishHome {w} (h : s.Canonical) : (s.finishHome w).Canonical := by
  unfold State.finishHome
  dsimp only
  split
  · exact h.meshAfter
  · split
    · refine answerHub ?_
      refine modAcc ?_
      split
      · exact .ite h.beside.rememberId.refuse h.beside.rememberId
      · exact .ite h.beside.rememberId.markPlain h.beside.rememberId
    · exact h.beside.rememberId.beside
theorem remoteRequest {r} (h : s.Canonical) : (s.remoteRequest r).Canonical := by
  unfold State.remoteRequest
  split
  · exact .ite h (.ite h.beside.after h.beside.after)
  · split
    · exact .ite h.after h.go
    · exact h.finishHome
    · exact h.finishHome
    · exact h.finishHome
    · exact h.finishHome
    · exact h.beside
    · exact h
theorem remoteRetry {id} (h : s.Canonical) : (s.remoteRetry id).Canonical := by
  unfold State.remoteRetry
  split
  · split
    · exact h.beside
    · exact h
  · split
    · exact h
    · exact .ite h.modHome.go h.modHome.beside
theorem remoteTokenWake {tok} (h : s.Canonical) : (s.remoteTokenWake tok).Canonical := by
  unfold State.remoteTokenWake
  split
  · exact h
  · dsimp only
    split
    · exact h.beside.wakeCont
    · split
      · exact .ite h.beside (.ite h.beside.modAcc.resumeAgent h.beside)
      · exact h.beside

/-! ## Copy -/

theorem admitCopies {c o l} (h : s.Canonical) : (s.admitCopies c o l).Canonical := by
  unfold State.admitCopies
  exact h.modCore.after
theorem copyInstr {p o form} (h : s.Canonical) : Keeps (copyInstr p o s form) := by
  refine h.issue fun ht => ?_
  split
  · exact id
  · exact ht.checkAtIssue
  · split
    · exact id
    · exact .ite h.skipped (.ite id (.ite ht.admitCopies fun h => .ite h.closeBatch h))
theorem closeMine (h : s.Canonical) : s.closeMine.Canonical := h.closeBatch
theorem setTag {c i hi lo} (h : s.Canonical) : (s.setTag c i hi lo).Canonical := h.rawWrite.localWritten
theorem tagInstr {p on reads body} (h : s.Canonical) (hbody : ∀ {a t}, t.Canonical → (body a t).Canonical) :
    Keeps (tagInstr p s on reads body) := by
  refine h.issue fun h => ?_
  split
  · exact id
  · split
    · exact h.checkAtIssue
    · exact hbody h
theorem tagDrop {c i} (h : s.Canonical) : (s.tagDrop c i).Canonical := h.setTag
theorem copyAccess {c m} (h : s.Canonical) : (s.copyAccess c m).Canonical := by
  unfold State.copyAccess
  split
  · exact h
  · exact .ite h.go (.ite h h.after)
theorem copyRead {c m} (h : s.Canonical) : (s.copyRead c m).Canonical := by
  unfold State.copyRead
  exact h.modCmd.copyAccess
theorem copyStart {c m} (h : s.Canonical) : (s.copyStart c m).Canonical := .ite h.modCmd h.copyRead
theorem copyGo {c m} (h : s.Canonical) : (s.copyGo c m).Canonical := by
  unfold State.copyGo
  split
  · exact h
  · split
    · exact h.copyAccess
    · exact .ite h.modCmd.copyAccess (.ite h.modCmd.after (.ite h.copyRead h.modCmd))
    · exact ((ite h.checkFail h).modCmd).after
    · exact .ite h h.after
    · exact h
theorem copyBeat {c} (h : s.Canonical) : (s.copyBeat c).Canonical := by
  unfold State.copyBeat
  extract_lets +onlyGivenNames t
  have ht : t.Canonical := by
    refine h.foldl fun _ _ h => ?_
    split
    · exact .ite h.copyGo h
    · exact h
  split
  · exact ht
  · exact .ite ht.after (.ite ht.modCore.copyStart.after ht.modCore.copyStart)
theorem reissue {c x} (h : s.Canonical) : (s.reissue c x).Canonical := by
  unfold State.reissue
  exact h.modCore.after
theorem copyAdmit {c x} (h : s.Canonical) : (s.copyAdmit c x).Canonical := by
  unfold State.copyAdmit
  exact .ite (.ite h.reissue.modCtx h.after) h.copyBeat
theorem copyComplete {c q} (h : s.Canonical) : (s.copyComplete c q).Canonical := by
  unfold State.copyComplete
  split
  · exact h
  · exact ((ite ((ite h.modCore.count h.modCore).modCtx) h.modCore).wakeCopyPark).after
theorem copyEnd {c q cause detail} (h : s.Canonical) : (s.copyEnd c q cause detail).Canonical := by
  unfold State.copyEnd
  split
  · exact h
  · exact (ite h.modCore.wakeCopyPark h.modCore.after).after

/-! ## Sync -/

theorem fenceWait {c x scope order} (h : s.Canonical) : (s.fenceWait c x scope order).Canonical := by
  unfold State.fenceWait
  exact (ite h.pushDev h).after
theorem sendProbes {c x scope order} (h : s.Canonical) : (s.sendProbes c x scope order).Canonical := by
  unfold State.sendProbes
  dsimp only
  split
  · exact h.unpark
  · refine h.modCtx.foldl fun _ _ h => ?_
    split
    · exact h.after
    · exact h.afterFree
theorem probeEcho {c x tid} (h : s.Canonical) : (s.probeEcho c x tid).Canonical := by
  unfold State.probeEcho
  dsimp only
  split
  · exact h
  · split
    · split
      · exact h.after
      · split
        · exact .ite h.unpark h.modCtx
        · split
          · exact h.fenceWait
          · exact h.unpark
          · exact h.sendProbes
    · exact h
theorem arrive {t k comb} (h : s.Canonical) : (s.arrive t k comb).Canonical := h.modGang.checkBarrier
theorem releaseBar {n i k g} (h : s.Canonical) : (s.releaseBar n i k g).Canonical := by
  unfold State.releaseBar
  refine h.modGang.foldl fun _ _ h => ?_
  dsimp only
  split
  · exact h
  · split
    · split
      · exact .ite h.setAcc.unpark.after h.setAcc.unpark
      · exact .ite (.ite h.setAcc.checkFail h.setAcc.modCtx.raise) h.setAcc.unpark
    · exact h.unpark
theorem barrierResume {n i k} (h : s.Canonical) : (s.barrierResume n i k).Canonical := by
  unfold State.barrierResume
  split
  · exact h
  · split
    · exact h
    · dsimp only
      split
      · exact .ite h.go (.ite h (.ite h (.ite h.releaseBar h.after)))
      · exact .ite h (.ite h.releaseBar h.after)
theorem waitlBody {p host d a b deadline} (h : s.Canonical) : Keeps (waitlBody p host d a b deadline s) := by
  refine h.issue fun h => ?_
  dsimp only
  split
  · exact id
  · cases deadline _ with
    | none => exact h.parkMe.setAcc.after
    | some w => exact State.Canonical.ite h.parkMe.setAcc.after.after h.parkMe.setAcc.after
theorem waitlGo {c x tid} (h : s.Canonical) : (s.waitlGo c x tid).Canonical := by
  unfold State.waitlGo
  dsimp only
  split
  · exact h
  · split
    · split
      · exact .ite h.go h.after
      · exact h.modAcc.go
      · exact .ite (.ite h.modAcc.after h.modAcc) h.setAcc.unpark
      · exact .ite h.setAcc.checkFail h.setAcc.unpark.raise
      · exact h
    · exact h
theorem sleepBody {p mb d a} (h : s.Canonical) : Keeps (sleepBody p mb d a s) :=
  h.issue (fun h => .ite h.putG (.ite h.putG (ite h.parkMe h.parkMe.after)))
theorem sleepDeadline {c x tid} (h : s.Canonical) : (s.sleepDeadline c x tid).Canonical := by
  unfold State.sleepDeadline
  dsimp only
  split
  · exact h
  · split
    · exact .ite h.unpark h
    · exact h.waitlGo
    · exact h
theorem cancelSuspend {c x o} (h : s.Canonical) : (s.cancelSuspend c x o).Canonical := h.modCore.modCtx
theorem suspendTrap {c x o cause} (h : s.Canonical) : (s.suspendTrap c x o cause).Canonical := h.cancelSuspend.raise
theorem suspendPlace {c x o m} (h : s.Canonical) : (s.suspendPlace c x o m).Canonical := by
  unfold State.suspendPlace
  dsimp only
  split
  · exact h.cancelSuspend.after
  · exact .ite h.wakeCont.modCore.freeCtx (.ite h.placeWaiter.modCore.freeCtx h.count.after)
theorem suspendRemote {c x o} (h : s.Canonical) : (s.suspendRemote c x o).Canonical := by
  unfold State.suspendRemote
  exact ((ite h.beside h.wakeCont).modCore).freeCtx
theorem suspendAt {c x o} (h : s.Canonical) : (s.suspendAt c x o).Canonical := by
  unfold State.suspendAt
  split
  · exact .ite h.suspendPlace h.suspendRemote
  · exact h.suspendRemote
theorem suspendStart {c x o} (h : s.Canonical) : (s.suspendStart c x o).Canonical := by
  unfold State.suspendStart
  dsimp only
  split
  · exact h.cancelSuspend
  · split
    · exact h.after
    · split
      · exact h.suspendTrap
      · exact h.modCtx.go
theorem suspendWrite {c x o} (h : s.Canonical) : (s.suspendWrite c x o).Canonical := by
  unfold State.suspendWrite
  dsimp only
  split
  · exact h.suspendAt
  · split
    · exact h.go
    · exact h.setAcc.suspendAt
    · exact .ite h.cancelSuspend.checkFail h.suspendTrap
    · exact h
theorem yieldTrap {c x cause} (h : s.Canonical) : (s.yieldTrap c x cause).Canonical := h.modCtx.raise
theorem yieldGo {c x} (h : s.Canonical) : (s.yieldGo c x).Canonical := by
  unfold State.yieldGo
  dsimp only
  split
  · split
    · exact h.modCtx
    · split
      · exact h.after
      · split
        · exact h.yieldTrap
        · exact h.setAcc.go
  · split
    · exact h.go
    · exact h.pushRq.freeCtx
    · exact .ite h.setAcc.checkFail h.setAcc.yieldTrap
    · exact h
theorem suspension {c x id} (h : s.Canonical) : (s.suspension c x id).Canonical := by
  unfold State.suspension
  split
  · exact h.yieldGo
  · split
    · split
      · exact h.suspendWrite
      · exact h
    · exact h
  · split
    · exact .ite h.suspendStart h
    · exact h
  · split
    · exact .ite h.suspendStart h
    · exact h
  · exact h

/-! ## Sched -/

theorem setSpillList {c l} (h : s.Canonical) : (s.setSpillList c l).Canonical := by
  unfold State.setSpillList
  split
  · exact h
  · refine setOwnWord (h.foldl fun _ _ h => ?_)
    split
    · exact h
    · exact h.setOwnWord.setOwnWord
theorem of_dequePush {c e t} (h : s.Canonical) (ht : s.dequePush c e = some t) : t.Canonical := by
  unfold State.dequePush at ht
  dsimp only at ht
  split at ht
  · cases ht
    exact h.modCore
  · split at ht
    · cases ht
      exact h.modCore
    · split at ht
      · cases ht
        exact h.setSpillList.modCore
      · cases ht
theorem of_dequeNewest {c e t} (h : s.Canonical) (ht : s.dequeNewest c = some (e, t)) : t.Canonical := by
  unfold State.dequeNewest at ht
  split at ht
  · cases ht
    exact h.modCore
  · split at ht
    · cases ht
      exact h.setSpillList
    · cases ht
theorem of_dequeOldest {c e t} (h : s.Canonical) (ht : s.dequeOldest c = some (e, t)) : t.Canonical := by
  unfold State.dequeOldest at ht
  split at ht
  · cases ht
    exact h.setSpillList
  · split at ht
    · cases ht
      exact h.modCore
    · cases ht
theorem kickGroup {c} (h : s.Canonical) : (s.kickGroup c).Canonical :=
  h.foldl (fun _ _ h => .ite h.choose.after h.choose.after)
theorem spawnBody {p pin a} (h : s.Canonical) : Keeps (spawnBody p pin a s) := by
  refine h.issue fun h => ?_
  split
  · exact id
  · split
    · exact id
    · split
      · exact id
      next u hu => exact (h.of_dequePush hu).kick.kickGroup
theorem refill {c n} (h : s.Canonical) : (s.refill c n).Canonical := by
  induction n with
  | zero => exact h
  | succ n ih =>
    unfold State.refill
    dsimp only
    split
    · exact ih
    · exact .ite ih.setOwnWord.modCore ih
theorem ringRefill {c} (h : s.Canonical) : (s.ringRefill c).Canonical := by
  unfold State.ringRefill
  exact h.refill.pushHeld.pushNet.kick
theorem popBody {p d pick} (h : s.Canonical) : Keeps (popBody p d s pick) := by
  refine h.issue fun h => ?_
  refine putG ?_
  refine putG ?_
  split
  · exact h.refill.modCore.takeRq
  · exact h.refill.modCore
theorem rejectRecord {c x launch reason} (h : s.Canonical) : (s.rejectRecord c x launch reason).Canonical := by
  unfold State.rejectRecord
  exact h.notify.freeCtx
theorem startFilling {c x e window} (h : s.Canonical) : (s.startFilling c x e window).Canonical :=
  h.beside.modCtx.after
theorem checkStarted {n} (h : s.Canonical) : (s.checkStarted n).Canonical := by
  unfold State.checkStarted
  split
  · exact h
  · split
    · exact h
    · exact .ite (.ite h.modLaunch.beside.afterFree h.modLaunch.beside.beside) h
theorem startThread {c x r e window} (h : s.Canonical) : (s.startThread c x r e window).Canonical := by
  unfold State.startThread
  extract_lets +onlyGivenNames _ _ _ _ _ _ _ _ _ t
  have ht : t.Canonical := .ite h.beside.modCtx.modGang h.beside.modCtx
  exact .ite ht.modLaunch.checkStarted ht
theorem loadHeader {c x r e tstart} (h : s.Canonical) : (s.loadHeader c x r e tstart).Canonical := h.modCtx
theorem restoreNext {c x e} (h : s.Canonical) : (s.restoreNext c x e).Canonical := by
  unfold State.restoreNext
  dsimp only
  split
  · exact .ite h.modCtx h.modCtx.after
  · exact h.modCtx.after
theorem restoreGot {c x e tstart r} (h : s.Canonical) : (s.restoreGot c x e tstart r).Canonical := by
  unfold State.restoreGot
  dsimp only
  split
  · split
    · exact h.rejectRecord
    · split
      · exact h.loadHeader.rejectRecord
      · exact .ite h.loadHeader.modCtx.restoreNext h.loadHeader.modCtx.afterFree
  · exact h.rawWrite.modCtx.restoreNext
  · exact h.modCtx.restoreNext
  · exact h
theorem recordGot {c x e window r} (h : s.Canonical) : (s.recordGot c x e window r).Canonical := by
  unfold State.recordGot
  dsimp only
  split
  · exact h.rejectRecord
  · split
    · exact h.modCtx.after
    · split
      · exact h.rejectRecord
      · split
        · split
          · exact h.startThread.beside.modCtx
          · exact h.startThread
        · exact h.modCtx.afterFree
theorem fillGo {c x} (h : s.Canonical) : (s.fillGo c x).Canonical := by
  unfold State.fillGo
  dsimp only
  split
  · split
    · exact .ite h.rejectRecord h.go
    · exact .ite h.modCtx.restoreGot h.modCtx.recordGot
    · exact h.rejectRecord
    · exact h
  · exact h
theorem launchTableFill {die n} (h : s.Canonical) : (s.launchTableFill die n).Canonical := by
  unfold State.launchTableFill
  extract_lets +onlyGivenNames go
  have hgo : ∀ {s}, s.Canonical → (go s).Canonical := fun h =>
    h.foldl (fun _ _ h => .ite h (h.foldl (fun _ _ h => .ite h.after h)))
  exact .ite (hgo h) (.ite h.after (hgo h.beside))
theorem dispatch {c x} (h : s.Canonical) : (s.dispatch c x).Canonical := by
  unfold State.dispatch
  split
  · exact h.modCtx.offerCtx
  · split
    · exact h
    · split
      · exact .ite h h.kick
      · dsimp only
        split
        · exact h.modCore.takeRq.startFilling
        · split
          next e u hu => exact (h.modCore.of_dequeNewest hu).startFilling
          · exact .ite h.modCore h.modCore.after
theorem steal {c x i} (h : s.Canonical) : (s.steal c x i).Canonical := by
  unfold State.steal
  split
  · exact h
  · split
    · exact h.after
    · split
      next e u hu =>
        split at hu
        · exact (h.of_dequeOldest hu).startFilling
        · cases hu
      · exact .ite h.after h.after
theorem groupLoadRefresh {g} (h : s.Canonical) : (s.groupLoadRefresh g).Canonical :=
  h.foldl (fun _ _ h => .ite (.ite h.beside.after h.beside) h)
theorem pushBalance {c} (h : s.Canonical) : (s.pushBalance c).Canonical := by
  unfold State.pushBalance
  dsimp only
  split
  · exact h
  · split
    · exact .ite h.takeRq.modCore.meshAfter h
    · exact h

/-! ## Preempt -/

theorem deliver {c x d g e} (h : s.Canonical) : (s.deliver c x d g e).Canonical := by
  unfold State.deliver
  exact h.modCore.modCtx
theorem wakeSleepers {c} (h : s.Canonical) : (s.wakeSleepers c).Canonical := by
  unfold State.wakeSleepers
  refine ite h (h.foldl fun _ _ h => ?_)
  dsimp only
  split
  · exact h.unpark
  · exact h
theorem serveOne {c} (h : s.Canonical) : (s.serveOne c).Canonical := by
  unfold State.serveOne
  dsimp only
  split
  · exact h
  · split
    · exact h.modCore.deliver.unpark
    · exact h.modCore
theorem pumpMbox {c n} (h : s.Canonical) : (s.pumpMbox c n).Canonical := by
  induction n generalizing s with
  | zero => exact h
  | succ n ih =>
    unfold State.pumpMbox
    refine ih (State.Canonical.serveOne (State.Canonical.wakeSleepers ?_))
    split
    · exact h.modCore
    · exact h
theorem pump {c} (h : s.Canonical) : (s.pump c).Canonical := h.pumpMbox
theorem reapOps {c x} (h : s.Canonical) : (s.reapOps c x).Canonical := h.foldl (fun _ _ h => h.endOp)
theorem reapTasks {c x tid} (h : s.Canonical) : (s.reapTasks c x tid).Canonical :=
  h.foldl (fun _ _ h => h.foldl (fun _ _ h => .ite (.ite h.modTask.after h.modTask) h))
theorem reap {c x} (h : s.Canonical) : (s.reap c x).Canonical := by
  unfold State.reap
  exact h.exitThread.failLaunch.modCore.reapTasks.pump.modCtx.after
theorem preemptTakeEffect {c x} (h : s.Canonical) : (s.preemptTakeEffect c x).Canonical := by
  unfold State.preemptTakeEffect
  exact .ite h (.ite h.modCore.after h.after)
theorem saveWrite {c x} (h : s.Canonical) : (s.saveWrite c x).Canonical := by
  unfold State.saveWrite
  dsimp only
  split
  · exact .ite h.reissue.modCtx.after (.ite h.after (.ite h.rawWrite.freeCtx h.rawWrite.modCtx.after))
  · exact h
theorem evacGo {c} (h : s.Canonical) : (s.evacGo c).Canonical := by
  unfold State.evacGo
  dsimp only
  split
  · split
    · exact h.go
    · split
      · split
        · exact h.setAcc.after
        · exact h.modCtx.setAcc.go
      · exact h.setAcc.unpark
    · exact .ite h.setAcc.checkFail h.setAcc.unpark.raise
    · exact h
  · exact h
theorem holdtDone {c x} (h : s.Canonical) : (s.holdtDone c x).Canonical := by
  refine h.foldl fun _ _ h => h.foldl fun _ _ h => ?_
  dsimp only
  split
  · exact .ite h.beside.unpark h
  · exact h
theorem haltTakeEffect {c x} (h : s.Canonical) : (s.haltTakeEffect c x).Canonical := by
  unfold State.haltTakeEffect
  dsimp only
  split
  · exact .ite h.reapOps.after h.reapOps.modCtx.freeCtx
  · split
    · exact .ite h.modCtx.holdtDone h
    · split
      · exact h
      · split
        · exact .ite h.after h
        · exact .ite (.ite h.modCtx.holdtDone h.modCtx) h.after
        · exact .ite h (.ite h.modCtx.holdtDone h.after)
theorem holdtTimeout {c x} (h : s.Canonical) : (s.holdtTimeout c x).Canonical := by
  unfold State.holdtTimeout
  split
  · exact h.unpark
  · exact h
theorem emuBody {p d a b value} (h : s.Canonical) : Keeps (emuBody p d a b value s) :=
  h.issue (fun h => .ite id h.parkMe.meshAfter)
theorem emuReply {target c x w} (h : s.Canonical) : (s.emuReply target c x w).Canonical := h.meshAfter
theorem emulationRoundTrip {c x} (h : s.Canonical) : (s.emulationRoundTrip c x).Canonical := by
  unfold State.emulationRoundTrip
  split
  · split
    · exact h.count.emuReply
    · split
      · exact h.after
      · split
        · exact h.emuReply
        · exact h.modCtx.emuReply
  · exact h
theorem emulationAnswer {c x w} (h : s.Canonical) : (s.emulationAnswer c x w).Canonical := by
  unfold State.emulationAnswer
  split
  · exact h.unpark
  · exact h.unpark
  · exact h

/-! ## Mailbox -/

theorem meshCredit {c} (h : s.Canonical) : (s.meshCredit c).Canonical := by
  unfold State.meshCredit
  split
  · exact h
  · exact .ite h.after (.ite h.modCore.sendMsg h.modCore.beside)
theorem armTimer {c} (h : s.Canonical) : (s.armTimer c).Canonical := by
  unfold State.armTimer
  exact .ite h.after h
theorem timerFire {c} (h : s.Canonical) : (s.timerFire c).Canonical := by
  unfold State.timerFire
  exact .ite h.modCore.pump h
theorem setDeadline {d} (h : s.Canonical) : (s.setDeadline d).Canonical := h.modCore.armTimer

/-! ## System -/

theorem eretBody {p next} (h : s.Canonical) : Keeps (eretBody p next s) :=
  h.issue (fun h => .ite id (.ite h.checkAtIssue h.returnTrap))
theorem writeSr {c x sr w} (h : s.Canonical) : (s.writeSr c x sr w).Canonical := by
  refine dite (fun _ => h.modCore) fun _ => ?_
  split
  · exact h.modCtx
  · exact h.modCtx
  · exact h.modCore
  · exact h.modCore
  · exact h.modCore.after
  · exact h.modCore
  · exact h.modCore
  · exact h.modCore.armTimer
  · exact h.beside
  · exact h.beside
  · exact h.beside
  · exact h.beside
  · exact h
theorem movcDone {c sel v} (h : s.Canonical) : (s.movcDone c sel v).Canonical := by
  unfold State.movcDone
  dsimp only
  split
  · exact h.modCtx.raise
  · exact h.beside.wipe.wipe.releaseIn.releaseIn.unpark
theorem withdrawWaiter {w} (h : s.Canonical) : (s.withdrawWaiter w).Canonical := by
  unfold State.withdrawWaiter
  split
  · exact h.beside.wakeCont
  · exact h.answer
  · exact h.answer
  · exact h.answer
  · exact h
theorem trimSet {sg l n} (h : s.Canonical) : (s.trimSet sg l n).Canonical := by
  induction n generalizing s l with
  | zero => exact h
  | succ n ih => exact ih h.choose.cacheEvict
theorem trimCache {sg ways} (h : s.Canonical) : (s.trimCache sg ways).Canonical :=
  .ite h (h.foldl (fun _ _ h => h.trimSet))
theorem sgwayBegin {sg} (h : s.Canonical) : (s.sgwayBegin sg).Canonical :=
  ⟨h.mem, h.atoms, SMap.wfAbove_map (fun _ => Core.mapCmds_ne_reset) h.cores⟩
theorem sgwayEnd {sg} (h : s.Canonical) : (s.sgwayEnd sg).Canonical :=
  ⟨h.mem, h.atoms, SMap.wfAbove_map (fun _ => Core.mapCmds_ne_reset) h.cores⟩
theorem sgwayDone {sg m} (h : s.Canonical) : (s.sgwayDone sg m).Canonical := by
  unfold State.sgwayDone
  extract_lets +onlyGivenNames _ _ _ _ _ _ _ _ t
  have ht : t.Canonical := (h.foldl (fun _ _ h => h.wipe)).foldl (fun _ _ h => h.withdrawWaiter)
  refine ht.beside.beside.foldl fun _ _ h => ?_
  split
  · exact h.answer
  · exact h.answer
  · exact h.performAt
  · exact h.answer
theorem storeWipeDone {c} (h : s.Canonical) : (s.storeWipeDone c).Canonical := by
  unfold State.storeWipeDone
  split
  · exact h.movcDone
  · exact h.modCore.unpark
  · dsimp only
    split
    · split
      · exact h
      · split
        · exact h.beside.sgwayBegin.trimCache.after
        · split
          · exact h.trimCache.after
          · split
            · exact h.sgwayDone.sgwayEnd.unpark.beside.afterFree
            · exact h.sgwayDone.sgwayEnd.unpark.beside
    · exact h
  · exact h
theorem tlbiBody {p mk} (h : s.Canonical) : Keeps (tlbiBody p s mk) := by
  refine h.issue fun h => ?_
  split
  · exact h.count
  · exact h.beside.afterFree
theorem tlbiTakesEffect {c x} (h : s.Canonical) : (s.tlbiTakesEffect c x).Canonical := by
  unfold State.tlbiTakesEffect
  extract_lets +onlyGivenNames _ t
  have ht : t.Canonical := by
    unfold t
    split
    · exact h.dropTlb.beside
    · exact h
  dsimp only
  split
  · exact .ite (.ite ht.beside ht.beside.after) ht.beside.unpark
  · exact ht.beside
theorem snapTrigger {p} (h : s.Canonical) : (s.snapTrigger p).Canonical := .ite h h.beside.after

/-! ## Launch -/

theorem sendRecords {l gang ms} (h : s.Canonical) : (s.sendRecords l gang ms).Canonical := by
  refine h.foldl fun _ _ h => ?_
  split
  · exact h.meshAfter
  · exact h
theorem tell {p what n own} (h : s.Canonical) : (s.tell p what n own).Canonical := .ite h.afterFree h.beside
theorem reservedAll {l} (h : s.Canonical) : (s.reservedAll l).Canonical := by
  unfold State.reservedAll
  split
  · exact .ite h.modLaunch.tell h
  · exact h
theorem of_placeOn {l d t} (h : s.Canonical) (ht : s.placeOn l d = some t) : t.Canonical := by
  unfold State.placeOn at ht
  split at ht
  · cases ht
  · split at ht
    · cases ht
    next ms _ =>
      cases ht
      have hm := h.foldl (l := ms) (f := fun s m => s.modCtx m.1 m.2 fun t => { tid := t.tid + 1, st := .reserved })
        fun _ _ h => h.modCtx
      exact (State.Canonical.ite (.ite hm hm.beside)
        (State.Canonical.ite hm hm.beside).sendRecords).modLaunch.reservedAll
theorem gangPlace {n d} (h : s.Canonical) : (s.gangPlace n d).Canonical := by
  unfold State.gangPlace
  split
  · exact h
  · dsimp only
    split
    · exact h
    · split
      next t ht => exact .ite (h.of_placeOn ht).after (h.of_placeOn ht)
      · split
        · exact .ite h.after h
        · exact h
theorem offerOne {n} (h : s.Canonical) : (s.offerOne n).Canonical := by
  unfold State.offerOne
  split
  · exact h
  · split
    next t ht =>
      obtain ⟨d, -, hd⟩ := List.exists_of_findSome?_eq_some ht
      exact h.of_placeOn hd
    · exact h
theorem gangOffer {c x} (h : s.Canonical) : (s.gangOffer c x).Canonical := by
  unfold State.gangOffer
  extract_lets +onlyGivenNames t
  have ht : t.Canonical := h.foldl (fun _ _ h => .ite h.offerOne h)
  exact .ite ht.after ht
theorem onBlock {j a good bad} (h : s.Canonical)
    (hgood : ∀ {t a b}, t.Canonical → (good t a b).Canonical) (hbad : ∀ {t}, t.Canonical → (bad t).Canonical) :
    (s.onBlock j a good bad).Canonical := by
  unfold State.onBlock
  split
  · refine ite h.sendRemote ?_
    extract_lets t
    have ht : t.Canonical := .ite h.translate h
    split
    · split
      · exact .ite ht (.ite (hgood ht) (hbad ht))
      · exact ht
    · exact ht
  · exact hbad h
theorem dropJob {j} (h : s.Canonical) : (s.dropJob j).Canonical := h.beside
theorem writeStatus {l w} (h : s.Canonical) : (s.writeStatus l w).Canonical := by
  unfold State.writeStatus
  exact h.beside.after
theorem rejectLaunch {j l cause} (h : s.Canonical) : (s.rejectLaunch j l cause).Canonical := h.modJob.after
theorem enterTables {l} (h : s.Canonical) : (s.enterTables l).Canonical := h.beside
theorem beginLaunch {b l} (h : s.Canonical) : (s.beginLaunch b l).Canonical := by
  unfold State.beginLaunch
  split
  · exact (h.beside.foldl (fun _ _ h => .ite h.afterFree h.beside)).writeStatus
  · exact h.beside.enterTables.writeStatus.after
theorem launchAccept {id} (h : s.Canonical) : (s.launchAccept id).Canonical := by
  unfold State.launchAccept
  split
  · exact h
  · split
    · split
      · exact h.setAcc.go
      · exact h.dropJob
      · exact h.dropJob
      · exact h
    · dsimp only
      split
      · exact h.rejectLaunch
      · exact h.modJob.after
    · extract_lets +onlyGivenNames _ next
      have hnext : ∀ {s a}, s.Canonical → (next s a).Canonical := fun h =>
        .ite h.modJob.after (.ite h.rejectLaunch (.ite h.dropJob.beginLaunch h.modJob.after))
      split
      · exact hnext h
      · split
        · exact h.onBlock (fun h => hnext h) (fun h => h.rejectLaunch)
        · split
          · exact .ite (hnext h) h.rejectLaunch
          · exact h.rejectLaunch
        · exact h.rejectLaunch
        · exact h
    · exact h
theorem blockRefused {l addr which} (h : s.Canonical) : (s.blockRefused l addr which).Canonical := h.failLaunch.notify
theorem blockWrite {l kind addr count which fin} (h : s.Canonical) (hfin : ∀ {t}, t.Canonical → (fin t).Canonical) :
    (s.blockWrite l kind addr count which fin).Canonical := by
  unfold State.blockWrite
  split
  · exact h.beside.after
  · split
    · exact h
    · split
      · exact h.onBlock (fun h => h.setAcc.dispatchAcc) (fun h => hfin h.dropJob.blockRefused)
      · exact hfin h.dropJob
      · exact hfin h.dropJob.blockRefused
      · exact h
theorem triggerWrite {n} (h : s.Canonical) : (s.triggerWrite n).Canonical := by
  unfold State.triggerWrite
  split
  · exact h.beside
  · exact h.blockWrite id
theorem completionWrite {n} (h : s.Canonical) : (s.completionWrite n).Canonical := by
  unfold State.completionWrite
  split
  · exact h
  · split
    · exact h.after
    · refine h.blockWrite fun h => ?_
      split
      · exact (ite h h.writeStatus).dropLaunch
      · exact h
theorem reserveLaunch {m} (h : s.Canonical) : (s.reserveLaunch m).Canonical := by
  unfold State.reserveLaunch
  exact .ite h.tell (.ite h.after h.beside.enterTables.after.reservedAll)
theorem tellAll {l what own} (h : s.Canonical) : (s.tellAll l what own).Canonical := h.foldl (fun _ _ h => h.tell)
theorem rackMsg {n p} (h : s.Canonical) : (s.rackMsg n p).Canonical := by
  unfold State.rackMsg
  dsimp only
  split
  · exact .ite h.modLaunch.tellAll.after h.modLaunch
  · exact h.modLaunch
theorem rnakMsg {n} (h : s.Canonical) : (s.rnakMsg n).Canonical := by
  unfold State.rnakMsg
  split
  · exact .ite h h.failLaunch.tellAll.afterFree
  · exact h
theorem releaseGangs {n} (h : s.Canonical) : (s.releaseGangs n).Canonical := by
  unfold State.releaseGangs
  exact h.beside.foldl (fun _ _ h => h.foldl (fun _ _ h => .ite h.freeCtx h))
theorem goLaunch {n} (h : s.Canonical) : (s.goLaunch n).Canonical := by
  unfold State.goLaunch
  split
  · exact h
  · exact h.modLaunch.foldl (fun _ _ h => h.sendRecords)
theorem containLaunch {n} (h : s.Canonical) : (s.containLaunch n).Canonical := by
  unfold State.containLaunch
  split
  · exact h
  · exact .ite h h.failLaunch.modLaunch.tellAll
theorem startedTimeout {n} (h : s.Canonical) : (s.startedTimeout n).Canonical := by
  unfold State.startedTimeout
  split
  · exact .ite h h.containLaunch
  · exact h
theorem haltLaunch {n coord} (h : s.Canonical) : (s.haltLaunch n coord).Canonical := by
  unfold State.haltLaunch
  extract_lets +onlyGivenNames t
  have ht : t.Canonical := h.foldl (fun _ _ h => h.containCtx)
  exact .ite ht.releaseGangs.tell ht.releaseGangs.tell.dropLaunch
theorem checkHalted {n} (h : s.Canonical) : (s.checkHalted n).Canonical := by
  unfold State.checkHalted
  split
  · exact .ite h.after h
  · exact h
theorem haltAnswer {n p} (h : s.Canonical) : (s.haltAnswer n p).Canonical := h.modLaunch.checkHalted
theorem launchesDead {pkgs} (h : s.Canonical) : (s.launchesDead pkgs).Canonical :=
  h.foldl (fun _ _ h => .ite h.checkHalted (.ite h.containLaunch.checkHalted h))
theorem trigMsg {n p} (h : s.Canonical) : (s.trigMsg n p).Canonical := by
  unfold State.trigMsg
  dsimp only
  split
  · exact .ite h.modLaunch.after h.modLaunch
  · exact h.modLaunch
theorem doneMsg {n p cause} (h : s.Canonical) : (s.doneMsg n p cause).Canonical := by
  unfold State.doneMsg
  extract_lets +onlyGivenNames t
  have ht : t.Canonical := (ite h h.failLaunch).modLaunch
  split
  · exact .ite ht.after ht
  · exact ht
theorem putWords {k l} (h : s.Canonical) : (s.putWords k l).Canonical := h.foldl (fun _ _ h => h.setOwnWord)
theorem deadlockDeclare {p} (h : s.Canonical) : (s.deadlockDeclare p).Canonical := by
  unfold State.deadlockDeclare
  refine ite h ?_
  extract_lets t es base size n u dies
  have hu : u.Canonical := .ite h.beside.msix h.beside.msix.putWords.putWords
  split
  · exact hu.notify
  · exact hu.countLost

/-! ## Task -/

theorem taskGo {g tk rule} (h : s.Canonical) : (s.taskGo g tk rule).Canonical := by
  unfold State.taskGo
  dsimp only
  split
  · exact h
  · split
    · exact h
    · split
      · exact h.answer
      · exact .ite h.presentAt h.answer
      · split
        · split
          · exact h.answer
          · exact h.sendRemote
        · split
          · exact .ite h.translate h
          · split
            · exact .ite h.translate h
            · split
              · exact .ite h.translate h
              · split
                · exact .ite ((ite h.translate h).answer) ((ite h.translate h).dispatchAcc)
                · exact .ite ((ite h.translate h).dispatchAcc) ((ite h.translate h).answer)
                · exact .ite ((ite h.translate h).dispatchAcc) ((ite h.translate h).answer)
                · exact (ite h.translate h).dispatchAcc
theorem kickIssue {g} (h : s.Canonical) : (s.kickIssue g).Canonical := .ite h h.after
theorem kickAll (h : s.Canonical) : s.kickAll.Canonical := h.foldl (fun _ _ h => h.kickIssue)
theorem kickAccept {g} (h : s.Canonical) : (s.kickAccept g).Canonical := by
  unfold State.kickAccept
  split
  · exact h.after
  · exact h
theorem modEngine {g e f} (h : s.Canonical) : (s.modEngine g e f).Canonical := by
  unfold State.modEngine
  exact .dite (fun _ => h.setSg) (fun _ => h)
theorem dropHold {g k} (h : s.Canonical) : (s.dropHold g k).Canonical := h.modEngine.kickAll
theorem leaveEngine {g k} (h : s.Canonical) : (s.leaveEngine g k).Canonical := by
  unfold State.leaveEngine
  exact .ite h.modTask.dropHold h.modTask.kickIssue
theorem taskFailed {g k a} (h : s.Canonical) : (s.taskFailed g k a).Canonical := by
  unfold State.taskFailed
  exact ((ite ((ite h.checkFail h).leaveEngine) (.ite h.checkFail h)).modTask).after
theorem taskDrive {g k rule ok} (h : s.Canonical) (hok : ∀ {t a}, t.Canonical → (ok t a).Canonical) :
    (s.taskDrive g k rule ok).Canonical := by
  unfold State.taskDrive
  split
  · exact h
  · split
    · exact h.taskGo
    · exact hok h.modTask
    · exact h.taskFailed
    · exact .ite h.after (.ite h.modTask.after h.modTask)
    · exact .ite h.after (.ite h.modTask.after h.modTask)
    · exact h
theorem taskAccess {g tk rule a} (h : s.Canonical) : (s.taskAccess g tk rule a).Canonical := h.setAcc.taskGo
theorem submit {c q d a} (h : s.Canonical) : (s.submit c q d a).Canonical := by
  unfold State.submit
  exact h.setSg.putG.kickAccept
theorem taskEnd {g tk cause} (h : s.Canonical) : (s.taskEnd g tk cause).Canonical := h.after
theorem acceptNext {g k} (h : s.Canonical) : (s.acceptNext g k).Canonical := by
  unfold State.acceptNext
  split
  · exact h.taskAccess
  · split
    · exact h.taskAccess
    · split
      · exact .ite h.taskEnd h.taskAccess
      · split
        · split
          · exact h.taskEnd
          · exact h.modTask.taskAccess
        · exact h.modTask.after.kickAccept
theorem taskAccept {g tk} (h : s.Canonical) : (s.taskAccept g tk).Canonical := by
  unfold State.taskAccept
  split
  · exact h
  · refine ite h (ite h (ite h.acceptNext (h.taskDrive fun h => ite ?_ h.acceptNext)))
    dsimp only
    split
    · exact h.modTask.acceptNext
    · exact h.modTask
theorem presenceNext {g k} (h : s.Canonical) : (s.presenceNext g k).Canonical := by
  unfold State.presenceNext
  split
  · exact h.modTask.taskAccess
  · exact h.modTask.kickIssue
theorem taskPresence {g tk} (h : s.Canonical) : (s.taskPresence g tk).Canonical := by
  unfold State.taskPresence
  split
  · exact h
  · split
    · exact .ite h.presenceNext (h.taskDrive (fun h => h.modTask.presenceNext))
    · exact .ite h.presenceNext (h.taskDrive (fun h => h.modTask.presenceNext))
    · split
      · exact .ite h.taskFailed (.ite h h.modTask.kickIssue)
      · exact h
    · exact h
theorem markReady {g} (h : s.Canonical) : (s.markReady g).Canonical := by
  unfold State.markReady
  exact h.setSg
theorem taskIssue {g} (h : s.Canonical) : (s.taskIssue g).Canonical := by
  unfold State.taskIssue
  dsimp only
  split
  · exact h.markReady
  · exact ((ite h.markReady.modTask.modEngine.kickAll h.markReady.modTask).kickIssue).after
theorem configurationChange {g tk} (h : s.Canonical) : (s.configurationChange g tk).Canonical := by
  unfold State.configurationChange
  split
  · exact h
  · exact .ite h (.ite h.after h.modTask.modEngine.count.after.kickIssue)
theorem taskBegin {g k next} (h : s.Canonical) (hnext : ∀ {t a}, t.Canonical → (next t a).Canonical) :
    (s.taskBegin g k next).Canonical :=
  .ite (hnext h) (.ite h.taskAccess (h.taskDrive (fun h => hnext h.modTask)))
theorem gather {g k places rule next} (h : s.Canonical) (hnext : ∀ {t a}, t.Canonical → (next t a).Canonical) :
    (s.gather g k places rule next).Canonical := by
  unfold State.gather
  extract_lets more
  have hmore : ∀ {s a}, State.Canonical s → (more s a).Canonical := fun h => by
    unfold more
    split
    · exact hnext h
    · exact h.taskAccess
  split
  · exact hmore h
  · exact h.taskDrive fun h => hmore h.modTask
theorem runStep {g k} (h : s.Canonical) : (s.runStep g k).Canonical := by
  unfold State.runStep
  split
  · exact h.after
  · split
    · exact h.modTask.after
    · exact .ite h.countN.countN.modTask.modEngine.after h.countN.countN.modTask.modEngine.after
theorem stepNext {g k} (h : s.Canonical) : (s.stepNext g k).Canonical :=
  .ite (h.gather (fun h => h.modTask.after)) (h.gather (fun h => h.runStep))
theorem taskKstep {g tk} (h : s.Canonical) : (s.taskKstep g tk).Canonical := by
  unfold State.taskKstep
  split
  · exact h
  · exact .ite h (h.taskBegin (fun h => h.stepNext))
theorem rowNext {g k} (h : s.Canonical) : (s.rowNext g k).Canonical := .ite h.modTask.taskAccess h.taskAccess
theorem taskDWrite {g tk} (h : s.Canonical) : (s.taskDWrite g tk).Canonical := by
  unfold State.taskDWrite
  split
  · exact h
  · exact .ite h (.ite h.rowNext (h.taskDrive (fun h => h.modTask.rowNext)))
theorem taskReport {k cause} (h : s.Canonical) : (s.taskReport k cause).Canonical := by
  unfold State.taskReport
  exact .ite h (.ite h.after h.notify)
theorem finishTask {g k cause} (h : s.Canonical) : (s.finishTask g k cause).Canonical := by
  unfold State.finishTask
  extract_lets +onlyGivenNames _ _ _ t
  have ht : t.Canonical := .ite h.setSg.dropHold h.setSg
  exact ((ite (ht.taskReport.foldl (fun _ _ h => h.taskEnd)) (.ite ht.wakeCopyPark ht)).kickIssue).kickAccept
theorem taskComplete {g tk} (h : s.Canonical) : (s.taskComplete g tk).Canonical := by
  unfold State.taskComplete
  split
  · exact h
  · split
    · exact h
    · split
      · exact h.finishTask
      · split
        · exact h.taskGo
        · exact h.finishTask
        · exact ((ite ((ite h.checkFail h).dropHold) (.ite h.checkFail h)).modTask).taskEnd
        · exact h
theorem taskEndError {g tk cause} (h : s.Canonical) : (s.taskEndError g tk cause).Canonical := by
  unfold State.taskEndError
  split
  · exact h
  · extract_lets k c t u
    have ht : t.Canonical := h.modTask
    refine ite ht (ite ?_ (ite ht ht.modTask.taskAccess))
    split
    · exact ht.finishTask
    · split
      · exact ht.taskGo
      · exact ht.finishTask
      · exact (ite ht.checkFail ht).modTask.taskEnd
      · exact ht
theorem noteAbroad {g k w} (h : s.Canonical) : (s.noteAbroad g k w).Canonical := by
  unfold State.noteAbroad
  exact .ite h h.beside.hubAfter
theorem of_taskNote {g k t} (h : s.Canonical) (ht : s.taskNote g k = .done t) : t.Canonical := by
  unfold State.taskNote at ht
  dsimp only at ht
  split at ht
  · cases ht
    exact h.noteAbroad
  · split at ht
    · cases ht
    · split at ht
      · cases ht
      · split at ht
        next hw =>
          cases ht
          exact h.of_plainWrite hw
        · cases ht
    · cases ht
theorem taskFault {g tk presence} (h : s.Canonical) : (s.taskFault g tk presence).Canonical := by
  unfold State.taskFault
  split
  · exact h
  · refine ite h ?_
    extract_lets at0 leave
    have hleave : ∀ {s}, State.Canonical s → (leave s).Canonical := fun h =>
      .ite (.ite h.leaveEngine.modTask.count.after h.leaveEngine.modTask.count) h.leaveEngine.modTask
    split
    · exact h.nudge.after
    · exact hleave h
    next t ht => exact hleave (h.of_taskNote ht)

/-! ## Graft -/

theorem setRec {i r} (h : s.Canonical) : (s.setRec i r).Canonical := h.rawWrite
theorem setStore32 {k x} (h : s.Canonical) : (s.setStore32 k x).Canonical := h.rawWrite
theorem storeWrite {k l} (h : s.Canonical) : (s.storeWrite k l).Canonical := by
  induction l generalizing s k with
  | nil => exact h
  | cons x l ih => exact ih h.setStore32
theorem graftEnd {g k cause} (h : s.Canonical) : (s.graftEnd g k cause).Canonical := h.leaveEngine.taskEnd
theorem graftBad {g k key} (h : s.Canonical) : (s.graftBad g k key).Canonical := h.after.graftEnd
theorem graftStore {g k r e f} (h : s.Canonical) (hf : ∀ {a}, (f a).Canonical) :
    (s.graftStore g k r e f).Canonical := by
  unfold State.graftStore
  split
  · exact h.nudge.after
  · exact h.graftBad
  · exact hf
theorem graftRows {g k r} (h : s.Canonical) : (s.graftRows g k r).Canonical := by
  refine h.graftStore fun {p} => ?_
  cases s.storeRead p.2 (k.m * k.n) with
  | none => exact h.graftBad
  | some y => exact h.modTask.after
theorem graftBegin {g k next} (h : s.Canonical) (hnext : ∀ {t a}, t.Canonical → (next t a).Canonical) :
    (s.graftBegin g k next).Canonical := by
  unfold State.graftBegin
  split
  · exact h.graftBad
  · exact .ite h.graftEnd (.ite (hnext h) (.ite h.graftEnd (hnext h.modTask)))
theorem graftRun {g k r} (h : s.Canonical) : (s.graftRun g k r).Canonical := by
  refine ite h.after (h.graftStore fun {p} => ?_)
  cases s.storeRead p.1 (k.depth * k.n) with
  | none => exact h.graftBad
  | some xh => exact .ite h.graftBad h.modTask.countN.countN.after
theorem graftAfter {g k r} (h : s.Canonical) : (s.graftAfter g k r).Canonical :=
  .ite h.taskAccess (h.taskDrive (fun h => h.graftRows))
theorem graftGo {g k} (h : s.Canonical) : (s.graftGo g k).Canonical := by
  unfold State.graftGo
  split
  · exact h.graftBad
  · exact .ite h.graftAfter (h.gather (fun h => h.graftRun))
theorem graftInvocation {g tk} (h : s.Canonical) : (s.graftInvocation g tk).Canonical := by
  unfold State.graftInvocation
  split
  · exact h
  · exact .ite h (.ite h.graftGo (h.taskBegin (fun h => h.graftBegin (fun h => h.graftGo))))
theorem graftRestart {g tk} (h : s.Canonical) : (s.graftRestart g tk).Canonical := by
  unfold State.graftRestart
  split
  · exact h
  · exact .ite h (h.count.graftBegin (fun h => h.graftGo))
theorem graftCommit {g tk} (h : s.Canonical) : (s.graftCommit g tk).Canonical := by
  unfold State.graftCommit
  split
  · exact h
  · split
    · exact h
    · split
      · exact h.graftBad
      · exact h.graftStore h.storeWrite.storeWrite.setRec.modTask.graftAfter
theorem lyrPark {c d op a b} (h : s.Canonical) : (s.lyrPark c d op a b).Canonical := h.parkMe.afterFree
theorem lyrDone {c x d v} (h : s.Canonical) : (s.lyrDone c x d v).Canonical := h.setAcc.unpark
theorem lyrTrap {c x cause addr} (h : s.Canonical) : (s.lyrTrap c x cause addr).Canonical := by
  unfold State.lyrTrap
  exact h.setAcc.unpark.raise
theorem imageTrap {c x cause addr} (h : s.Canonical) : (s.imageTrap c x cause addr).Canonical := h.setAcc.modCtx.raise
theorem lyrBad {c x key} (h : s.Canonical) : (s.lyrBad c x key).Canonical := h.setAcc.after
theorem dropRecords {asid n} (h : s.Canonical) : (s.dropRecords asid n).2.Canonical := by
  induction n with
  | zero => exact h
  | succ n ih =>
    unfold State.dropRecords
    dsimp only
    split
    · exact ih
    · split
      · exact ih.setRec
      · exact ih
theorem lyrPartition {c x asid f} (h : s.Canonical) (hf : ∀ {a}, (f a).Canonical) :
    (s.lyrPartition c x asid f).Canonical := by
  unfold State.lyrPartition
  split
  · exact h.nudge.after
  · exact h.lyrBad
  · exact hf
theorem lyrinitDo {c x d i im} (h : s.Canonical) : (s.lyrinitDo c x d i im).Canonical := by
  unfold State.lyrinitDo
  dsimp only
  split
  · exact h.lyrBad
  · exact .ite h.lyrTrap (.ite h.lyrDone (h.lyrPartition (.ite h.lyrDone h.setRec.lyrDone)))
theorem lyrRecord {c x d op i b} (h : s.Canonical) : (s.lyrRecord c x d op i b).Canonical := by
  unfold State.lyrRecord
  dsimp only
  split
  · exact h.lyrBad
  · exact .ite h.lyrDone (.ite h.lyrTrap (.ite h.lyrDone h.setRec.lyrDone))
theorem lyrStore {c x d off} (h : s.Canonical) : (s.lyrStore c x d off).Canonical := by
  refine h.lyrPartition fun {p} => ite h.lyrTrap ?_
  cases s.rawWord (p.1 + off.toNat) with
  | none => exact h.lyrBad
  | some v => exact h.lyrDone
theorem lyrDrop {c x d asid} (h : s.Canonical) : (s.lyrDrop c x d asid).Canonical := by
  unfold State.lyrDrop
  split
  · exact h.lyrDone
  · exact h.lyrPartition (((ite (h.dropRecords.foldl (fun _ _ h => h.rawWrite)) h.dropRecords).lyrDone).kickAll)
theorem lyrReturn {c x} (h : s.Canonical) : (s.lyrReturn c x).Canonical := by
  unfold State.lyrReturn
  dsimp only
  split
  · split
    · split
      · exact h.go
      · exact .ite h.after h.lyrinitDo
      · exact .ite h.setAcc.checkFail h.imageTrap
      · exact h
    · exact h.lyrStore
    · exact h.lyrDone
    · exact .ite h.after h.lyrDrop
    · exact .ite h.after h.lyrRecord
  · exact h

/-! ## Coherence -/

theorem setDir {k e} (h : s.Canonical) : (s.setDir k e).Canonical := h.beside
theorem touchDir {line k} (h : s.Canonical) : (s.touchDir line k).Canonical := by
  unfold State.touchDir
  exact h.foldl (fun _ _ h => .ite h.setDir (.ite h.setDir h))
theorem toAgent {a e m} (h : s.Canonical) : (s.toAgent a e m).Canonical := by
  unfold State.toAgent
  split
  · exact h.afterFree
  · exact h.beside
theorem sendCmp {line a err} (h : s.Canonical) : (s.sendCmp line a err).Canonical := h.toAgent
theorem sendData {line r excl x dirty err} (h : s.Canonical) : (s.sendData line r excl x dirty err).Canonical := by
  unfold State.sendData
  dsimp only
  split
  · exact h.beside
  · exact h.toAgent
theorem watchAnswer {line a} (h : s.Canonical) : (s.watchAnswer line a).Canonical := h.after
theorem sendInv {line rcl a} (h : s.Canonical) : (s.sendInv line rcl a).Canonical := h.toAgent.watchAnswer
theorem sendFwd {line excl rcl o q} (h : s.Canonical) : (s.sendFwd line excl rcl o q).Canonical :=
  h.toAgent.watchAnswer
theorem sendMemRd {line} (h : s.Canonical) : (s.sendMemRd line).Canonical := h.afterFree
theorem sendMemWr {line x} (h : s.Canonical) : (s.sendMemWr line x).Canonical := h.memWrite.afterFree
theorem modTxn {line f} (h : s.Canonical) : (s.modTxn line f).Canonical := h.beside
theorem openTxn {k t st inv fwd excl rcl q} (h : s.Canonical) : (s.openTxn k t st inv fwd excl rcl q).Canonical := by
  unfold State.openTxn
  extract_lets live err fwd t e u c v x y
  have hx : x.Canonical := h.setDir.beside.foldl fun _ _ h => h.sendInv
  clear_value fwd
  have hy : y.Canonical := by
    unfold y
    split
    · exact hx.sendFwd
    · exact hx
  exact .ite hy.sendMemRd hy
theorem answerReq {t k r} (h : s.Canonical) : (s.answerReq t k r).Canonical := by
  unfold State.answerReq
  dsimp only
  split
  · exact h.modTxn.sendCmp
  · exact h.modTxn.sendData
  · exact h.modTxn.sendData
  · exact h.modTxn.sendData
  · exact h.modTxn.sendData
theorem answerNow {line} (h : s.Canonical) : (s.answerNow line).Canonical := by
  unfold State.answerNow
  split
  · split
    · exact .ite h h.answerReq
    · exact h
  · exact h
theorem recallTxn {k e req want} (h : s.Canonical) : (s.recallTxn k e req want).Canonical := by
  unfold State.recallTxn
  exact .ite h.beside.openTxn h.beside.openTxn.after
theorem startRd {kind r} (h : s.Canonical) : (s.startRd kind r).1.Canonical := by
  unfold State.startRd
  extract_lets
  split
  · split
    · exact h
    · split
      · dsimp only
        exact h.setDir.touchDir.openTxn
      · split
        · exact h
        · exact h.recallTxn
  · refine State.Canonical.answerNow ?_
    split
    · exact .ite h.touchDir.openTxn h.touchDir.openTxn
    · exact .ite h.touchDir.openTxn h.touchDir.openTxn
    · exact h.touchDir.openTxn
theorem startWb {line a inc x dirty} (h : s.Canonical) : (s.startWb line a inc x dirty).Canonical := by
  unfold State.startWb
  split
  · exact .ite h.sendCmp (.ite h.openTxn.sendMemWr h.setDir.sendCmp)
  · exact h.sendCmp
theorem farPerform {who} (h : s.Canonical) : (s.farPerform who).Canonical := by
  unfold State.farPerform
  split
  · exact h
  · split
    · exact h
    · dsimp only
      split
      · exact h.beside.answer
      · split
        · refine answer ?_
          split
          · exact h.beside.memWrite
          · exact h.beside
        · exact h.beside.memWrite.answer
        · exact h.beside.answer
theorem startFar {line who} (h : s.Canonical) : (s.startFar line who).Canonical := by
  unfold State.startFar
  split
  · exact h.farPerform
  · exact h.recallTxn
theorem startReq {r} (h : s.Canonical) : (s.startReq r).1.Canonical := by
  unfold State.startReq
  split
  · exact h
  · split
    · exact h.startRd
    · exact h.startWb
    · exact h.startFar
theorem enterPool {r} (h : s.Canonical) : (s.enterPool r).Canonical := by
  unfold State.enterPool
  exact .ite h.beside h.beside
theorem refillPool (h : s.Canonical) : s.refillPool.Canonical := h.beside.foldl (fun _ _ h => h.enterPool)
theorem servePass (h : s.Canonical) : s.servePass.Canonical := by
  unfold State.servePass
  refine State.Canonical.beside (s := Prod.fst _) ?_
  refine List.foldlRecOn (motive := fun p : State × List HubReq => p.1.Canonical) _ _ h.beside fun p hp q _ => ?_
  dsimp only
  split
  · exact hp
  · split
    · exact hp.startReq
    · exact hp.startReq
theorem serveQueue (h : s.Canonical) : s.serveQueue.Canonical := by
  unfold State.serveQueue
  exact .ite h.servePass h.servePass.refillPool.servePass
theorem endTxn {t} (h : s.Canonical) : (s.endTxn t).Canonical := by
  unfold State.endTxn
  extract_lets +onlyGivenNames t
  have ht : t.Canonical := by
    unfold t
    split
    · exact h.setDir
    · exact h
  exact ht.beside.serveQueue
theorem txnStep {line} (h : s.Canonical) : (s.txnStep line).Canonical := by
  unfold State.txnStep
  split
  · exact h
  · split
    · exact h
    · split
      · exact .ite h.endTxn h.answerReq
      · exact h.sendCmp.endTxn
      · split
        · exact h.modTxn.sendMemWr
        · split
          · split
            · refine endTxn ?_
              refine resumeAgent ?_
              split
              · exact h.modHome
              · exact h
            · exact h.farPerform.endTxn
          · exact h.endTxn
      · split
        · exact h.modTxn.sendMemWr
        · split
          · split
            · refine endTxn ?_
              refine resumeAgent ?_
              split
              · exact h.modHome
              · exact h
            · exact h.farPerform.endTxn
          · exact h.endTxn
theorem hubTake {r} (h : s.Canonical) : (s.hubTake r).Canonical := by
  unfold State.hubTake
  split
  · exact .ite h h.beside
  · split
    · exact .ite (.ite h.modTxn (.ite h.enterPool h.sendCmp)) h.enterPool
    · exact h.enterPool
    · exact h.enterPool.serveQueue
theorem hubHear {r a inc} (h : s.Canonical) : (s.hubHear r a inc).Canonical := .ite h.hubTake h
theorem farAtomic {who} (h : s.Canonical) : (s.farAtomic who).Canonical := by
  unfold State.farAtomic
  split
  · exact h.hubTake
  · exact h
theorem directoryRecall {line} (h : s.Canonical) : (s.directoryRecall line).Canonical := by
  unfold State.directoryRecall
  split
  · exact .ite h.after h.recallTxn
  · exact h.txnStep
  · exact h
theorem answeredBy {line a} (h : s.Canonical) : (s.answeredBy line a).Canonical := by
  unfold State.answeredBy
  split
  · exact h
  · exact (ite h.modTxn.sendCmp h).txnStep
theorem invackAt {line a} (h : s.Canonical) : (s.invackAt line a).Canonical := h.modTxn.answeredBy
theorem ownerData {line a x dirty gone shared} (h : s.Canonical) :
    (s.ownerData line a x dirty gone shared).Canonical := by
  unfold State.ownerData
  split
  · exact h
  · exact .ite h ((ite h.modTxn.sendMemWr h.modTxn).answeredBy)
theorem dieSend {die line k e f} (h : s.Canonical) : (s.dieSend die line k e f).Canonical := by
  unfold State.dieSend
  exact h.toHome
theorem dropDie {die line} (h : s.Canonical) : (s.dropDie die line).Canonical :=
  (h.foldl (fun _ _ h => h.dropLine)).setSnoop
theorem loseUpg {die line} (h : s.Canonical) : (s.loseUpg die line).Canonical := h.beside
theorem invAt {n die} (h : s.Canonical) : (s.invAt n die).Canonical := by
  unfold State.invAt
  exact h.dropDie.loseUpg.dieSend.forgetFrame
theorem fwdsAt {n die} (h : s.Canonical) : (s.fwdsAt n die).Canonical := by
  unfold State.fwdsAt
  exact (ite h ((h.foldl (fun _ _ h => h.setLine)).refreshSnoop)).dieSend
theorem fwdxAt {n die} (h : s.Canonical) : (s.fwdxAt n die).Canonical := by
  unfold State.fwdxAt
  exact h.dropDie.loseUpg.dieSend.forgetFrame
theorem snoopEvict {die line} (h : s.Canonical) : (s.snoopEvict die line).Canonical :=
  .ite h (.ite h.after (.ite h.dropDie.beside.dieSend h.dropDie.forgetFrame))
theorem containAgent {who} (h : s.Canonical) : (s.containAgent who).Canonical := by
  unfold State.containAgent
  split
  · exact h.answer
  · exact h.setAcc.containCtx
  · exact h.setAcc.containCtx
  · split
    · exact h.containCtx.endClr
    · exact h
  · exact h.answer
theorem lineErr {die line} (h : s.Canonical) : (s.lineErr die line).Canonical := by
  unfold State.lineErr
  exact ((h.beside.foldl (fun _ _ h => .ite h.answer h.containAgent)).forgetFrame).admitMerges
theorem lineMiss {line excl r} (h : s.Canonical) : (s.lineMiss line excl r).Canonical := by
  unfold State.lineMiss
  dsimp only
  split
  · exact h.beside.wantLine.lineArrived
  · split
    · exact h.beside.foldl (fun _ _ h => h.containAgent)
    · exact .ite h.beside.wantLine.askAbroad h.beside.wantLine
theorem dieCmp {die line err} (h : s.Canonical) : (s.dieCmp die line err).Canonical := h.dieSend
theorem dieAnswer {die line excl x dirty err} (h : s.Canonical) :
    (s.dieAnswer die line excl x dirty err).Canonical := by
  unfold State.dieAnswer
  split
  · exact (ite h.refreshSnoop h).dieCmp
  · dsimp only
    split
    · exact h.beside.dieCmp.lineErr
    · refine lineArrived ?_
      split
      · split
        · exact h.beside.dieCmp
        · exact h.beside.dieCmp.dropDie.setLine.refreshSnoop.makeRoom
      · exact (h.beside.dieCmp.foldl (fun _ _ h => (ite h.setLine h).makeRoom)).refreshSnoop
theorem upgraded {die line r} (h : s.Canonical) : (s.upgraded die line r).Canonical := by
  unfold State.upgraded
  dsimp only
  split
  · exact (((h.foldl (fun _ _ h => h.dropLine)).setLine).refreshSnoop).makeRoom
  · exact h.refreshSnoop
theorem cmpAt {die line err} (h : s.Canonical) : (s.cmpAt die line err).Canonical := by
  unfold State.cmpAt
  split
  · exact h.beside.forgetFrame.foldl (fun _ _ h => h.lineArrived)
  · split
    · exact (ite h h.refreshSnoop).dieCmp
    · exact .ite h.beside.dieCmp.lineErr h.beside.dieCmp.upgraded.lineArrived
theorem cmpHub {line a} (h : s.Canonical) : (s.cmpHub line a).Canonical := by
  unfold State.cmpHub
  split
  · split
    · exact .ite h.endTxn h
    · exact h
  · exact h
theorem txnDead {t} (h : s.Canonical) : (s.txnDead t).Canonical := by
  unfold State.txnDead
  dsimp only
  split
  · exact h.modTxn
  · split
    · exact .ite h.modTxn.endTxn h.modTxn.txnStep
    · exact h.modTxn.txnStep
theorem homeDead {w} (h : s.Canonical) : (s.homeDead w).Canonical := by
  unfold State.homeDead
  split
  · exact h.after
  · split
    · exact h.beside.containAgent
    · exact h.beside
theorem linesDead {pkgs} (h : s.Canonical) : (s.linesDead pkgs).Canonical := by
  unfold State.linesDead
  exact h.beside.foldl (fun _ _ h => h.lineErr)
theorem tokensDead {pkgs} (h : s.Canonical) : (s.tokensDead pkgs).Canonical := by
  unfold State.tokensDead
  exact h.beside.linesDead.foldl (fun _ _ h => h.containAgent)
theorem markDead {l} (h : s.Canonical) : (s.markDead l).Canonical := by
  unfold State.markDead
  extract_lets _ _ _ _ t _ v
  have ht : t.Canonical := .ite h.beside h.beside.msix
  have hv : v.Canonical := ht.foldl (fun _ _ h => h.txnDead) |>.foldl fun _ _ h => h.foldl fun _ _ h => h.after
  exact (hv.tokensDead.foldl fun _ _ h => h.homeDead).beside.launchesDead
theorem contain {l} (h : s.Canonical) : (s.contain l).Canonical := by
  unfold State.contain
  exact h.beside.markDead
theorem answerTimeout {line a sent} (h : s.Canonical) : (s.answerTimeout line a sent).Canonical := by
  unfold State.answerTimeout
  split
  · exact .ite h.contain h
  · exact h
theorem agentRejoin {a whole} (h : s.Canonical) : (s.agentRejoin a whole).Canonical := by
  unfold State.agentRejoin
  extract_lets owned t u c v w p x dead
  have hu : u.Canonical := h.foldl (fun _ _ h => h.foldl fun _ _ h => h.dropDie) |>.foldl fun _ _ h => h.setDir
  have hv : v.Canonical := hu.beside
  have hw : w.Canonical := by
    unfold w
    split
    · exact hv.foldl fun _ _ h => h.dropDie
    · exact hv
  exact (ite hw.tokensDead hw).beside
theorem setRemap {i j} (h : s.Canonical) : (s.setRemap i j).Canonical := by
  unfold State.setRemap
  exact h.setBar
theorem sliceFailure {f} (h : s.Canonical) : (s.sliceFailure f).Canonical := by
  unfold State.sliceFailure
  split
  · exact .ite h (.ite h.after (h.beside.setRemap.beside.foldl (fun _ _ h => h.toAgent)))
  · exact h.after.beside.beside.after
theorem sliceError {f} (h : s.Canonical) : (s.sliceError f).Canonical := by
  unfold State.sliceError
  exact .ite (.ite h.beside h.beside.sliceFailure) h.beside
theorem resend {die idx home} (h : s.Canonical) : (s.resend die idx home).Canonical := by
  unfold State.resend
  extract_lets +onlyGivenNames _ _ _ _ t
  have ht : t.Canonical := h.foldl (fun _ _ h => h.sendReq)
  exact ht.beside.foldl (fun _ _ h => h.dieSend)
theorem censusQuery {die idx home} (h : s.Canonical) : (s.censusQuery die idx home).Canonical := by
  unfold State.censusQuery
  exact .ite ((h.beside.foldl (fun _ _ h => h.after)).after) h.beside.resend
theorem censusReport {line a g} (h : s.Canonical) : (s.censusReport line a g).Canonical := by
  unfold State.censusReport
  dsimp only
  split
  · exact .ite h.after (.ite h.setDir (.ite h.after.contain h.setDir))
  · split
    · exact h.after
    · exact .ite h.setDir.touchDir (.ite h.after h.recallTxn.after)
theorem censusEnd {idx a} (h : s.Canonical) : (s.censusEnd idx a).Canonical := by
  unfold State.censusEnd
  dsimp only
  split
  · exact h.beside
  · split
    · exact h.beside.after
    · exact h.beside.beside.foldl (fun _ _ h => h.hubTake) |>.foldl (fun _ _ h => h.sendReq)
        |>.foldl fun _ _ h => h.afterFree

/-! ## Milhan -/

theorem setLink {i l} (h : s.Canonical) : (s.setLink i l).Canonical := h.beside
theorem modLink {i f} (h : s.Canonical) : (s.modLink i f).Canonical := h.setLink
theorem sendFlit {i cls payload} (h : s.Canonical) : (s.sendFlit i cls payload).Canonical := by
  unfold State.sendFlit
  exact h.beside.setLink
theorem pumpLink {i n} (h : s.Canonical) : (s.pumpLink i n).Canonical := by
  induction n generalizing s with
  | zero => exact h
  | succ n ih =>
    unfold State.pumpLink
    dsimp only
    split
    · exact h
    · split
      · exact h
      · exact ih h.modLink.sendFlit
theorem carry {o} (h : s.Canonical) : (s.carry o).Canonical := by
  unfold State.carry
  split
  · exact h
  · exact h.modLink.pumpLink
theorem carryOut (h : s.Canonical) : s.carryOut.Canonical := by
  unfold State.carryOut
  exact .ite h ((h.foldl (fun _ _ h => h.carry)).beside)
theorem flitReceive {i f} (h : s.Canonical) : (s.flitReceive i f).Canonical := by
  unfold State.flitReceive
  dsimp only
  split
  · exact h
  · split
    · exact h.sendFlit
    · split
      · exact h
      · refine dite (fun _ => pumpLink ?_) fun _ => h.setLink.pumpLink
        split
        · exact h.setLink.after
        · exact h.setLink
theorem linkNak {i seq} (h : s.Canonical) : (s.linkNak i seq).Canonical := by
  unfold State.linkNak
  exact .ite h (.ite h.beside.setLink.after h.beside.setLink)
theorem linkDown {i} (h : s.Canonical) : (s.linkDown i).Canonical := by
  unfold State.linkDown
  exact .ite h.modLink.contain h.modLink
theorem loadPackageRoute {p i} (h : s.Canonical) : (s.loadPackageRoute p i).Canonical := by
  unfold State.loadPackageRoute
  extract_lets old l c t u
  have ht : t.Canonical := h.beside
  have hu : u.Canonical := .ite ht ht.modLink.modLink.pumpLink
  exact .ite hu.contain hu

/-! ## Bringup -/

theorem registerWrite {o x} (h : s.Canonical) : (s.registerWrite o x).Canonical := by
  unfold State.registerWrite
  refine ite h.setBar (ite h.setBar (ite (ite h.after (ite h.after h)) (ite h.after (ite h.beside (ite
    (h.foldl fun _ _ h => ite h.after h) (ite (ite h.after h) (ite h.setBar (ite h.setBar.beside (ite h.after
    (ite h.modCore (ite h.after (ite h.modCore ?_))))))))))))
  cases barMask o with
  | none => exact h
  | some m => exact h.setBar
theorem startRecord {c pc} (h : s.Canonical) : (s.startRecord c pc).Canonical := by
  unfold State.startRecord
  exact .ite h (.ite h.modCtx.after h.modCtx)
theorem apStatus {w m} (h : s.Canonical) : (s.apStatus w m).Canonical := by
  unfold State.apStatus
  exact h.setBar
theorem apNext {w} (h : s.Canonical) : (s.apNext w).Canonical := by
  unfold State.apNext
  split
  · exact h.resumeAgent
  · exact h
theorem apTake {id l} (h : s.Canonical) : (s.apTake id l).Canonical := h.modJob.resumeAgent
theorem apGo {j w total data tag} (h : s.Canonical) : (s.apGo j w total data tag).Canonical := by
  unfold State.apGo
  dsimp only
  split
  · exact h
  · split
    · exact .ite ((ite h.dropJob.beside h.dropJob).apNext) (.ite h.setAcc.answer h.setAcc.go)
    · split
      · exact h.go
      · exact h.apTake
      · exact h.apStatus.apTake
      · refine apTake ?_
        refine apStatus ?_
        split
        · split
          · exact .ite h.bumpSurface h
          · exact h
        · exact h
      · exact h
theorem apArrive {w off kind bytes tag isRead} (h : s.Canonical) :
    (s.apArrive w off kind bytes tag isRead).Canonical := by
  unfold State.apArrive
  exact .ite (.ite h.beside h) (.ite h.beside.resumeAgent h.beside)
theorem apertureFaultTimeout {id} (h : s.Canonical) : (s.apertureFaultTimeout id).Canonical := by
  unfold State.apertureFaultTimeout
  split
  · exact h
  · split
    · exact .ite h h.beside.apStatus.apTake
    · exact h
theorem setQState {q st cause} (h : s.Canonical) : (s.setQState q st cause).Canonical := h.setBar.msix
theorem qSettled {q} (h : s.Canonical) : (s.qSettled q).Canonical := by
  unfold State.qSettled
  exact .ite h.beside.setQState h.beside
theorem qError {q cause} (h : s.Canonical) : (s.qError q cause).Canonical := h.beside.setQState.qSettled
theorem qcreate {q} (h : s.Canonical) : (s.qcreate q).Canonical := .ite h h.setBar.setQState.after
theorem qdestroy {q} (h : s.Canonical) : (s.qdestroy q).Canonical := .ite h.beside h.beside.setQState
theorem qSubmit {q j} (h : s.Canonical) : (s.qSubmit q j).Canonical := by
  unfold State.qSubmit
  exact h.setBar.modJob.after.qSettled.after
theorem qRead {q j got} (h : s.Canonical) : (s.qRead q j got).Canonical := by
  unfold State.qRead
  exact h.setAcc.resumeAgent
theorem wakeQueues (h : s.Canonical) : s.wakeQueues.Canonical := h.foldl (fun _ _ h => .ite h h.after)
theorem queueFetch {q} (h : s.Canonical) : (s.queueFetch q).Canonical := by
  unfold State.queueFetch
  split
  · exact .ite h (.ite h.qError (.ite h.beside.qError h.beside.go))
  · split
    · exact h
    · split
      · exact .ite h.qError h.go
      · exact h.qError
      · split
        · exact .ite h.beside.dropJob.afterFree h.beside.beside.modJob.qRead
        · exact .ite h.modJob.qSubmit h.modJob.qRead
      · exact h
theorem wipeFrames {base n} (h : s.Canonical) : (s.wipeFrames base n).Canonical := by
  induction n with
  | zero => exact h
  | succ n ih =>
    unfold State.wipeFrames
    dsimp only
    split
    · exact ih.wipe.releaseIn
    · exact ih
theorem abortReads (h : s.Canonical) : s.abortReads.Canonical := by
  unfold State.abortReads
  refine h.beside.foldl fun _ _ h => ?_
  split
  · exact .ite h.resumeAgent h
  · exact h
theorem packageReset {cyc} : (s.packageReset cyc).Canonical := ⟨rfl, rfl, rfl⟩
theorem partitionReset {q} (h : s.Canonical) : (s.partitionReset q).Canonical := by
  refine State.Canonical.after (.wipeFrames (.wipeFrames (.foldl ?_ fun _ _ h => h.foldl fun _ _ h => h.setBar)))
  exact ⟨SMap.wfAbove_filter _ _ _ _ h.abortReads.mem, SMap.wfAbove_filter _ _ _ _ h.abortReads.atoms,
    SMap.wfAbove_filter _ _ _ _ h.abortReads.cores⟩
theorem wipeDone (h : s.Canonical) : s.wipeDone.Canonical := h.beside.wakeQueues
theorem rewriteInterleave {q} (h : s.Canonical) : (s.rewriteInterleave q).Canonical :=
  h.foldl (fun _ _ h => .ite h h.beside.setBar.setBar)
theorem partitionControl {t} (h : s.Canonical) : (s.partitionControl t).Canonical := by
  unfold State.partitionControl
  exact .ite h.setBar.beside (h.setBar.beside.rewriteInterleave.foldl (fun _ _ h => h.after))
theorem verifyImage {image} (h : s.Canonical) : (s.verifyImage image).Canonical := by
  unfold State.verifyImage
  exact .ite ((h.beside.foldl (fun _ _ h => .ite h.resumeAgent h)).wakeQueues) h.beside.msix
theorem attest {nonce} (h : s.Canonical) : (s.attest nonce).Canonical := .ite h.beside h.beside
theorem overtemperature {die} (h : s.Canonical) : (s.overtemperature die).Canonical := by
  unfold State.overtemperature
  exact h.beside.notify.msix.after
theorem channelHalf {c} (h : s.Canonical) : (s.channelHalf c).Canonical := by
  unfold State.channelHalf
  exact h.beside.setBar
theorem snapAll (h : s.Canonical) : s.snapAll.Canonical := h.foldl (fun _ _ h => h.snapTrigger)
theorem thresholdReached (h : s.Canonical) : s.thresholdReached.Canonical := by
  unfold State.thresholdReached
  split
  · exact h.snapTrigger
  · exact h
theorem snapshotLatch {p} (h : s.Canonical) : (s.snapshotLatch p).Canonical := by
  refine ⟨h.mem, h.atoms, SMap.wfAbove_map (fun e he => ?_) h.cores⟩
  split
  · exact Core.latched_ne_reset e.2
  · exact he
theorem scrub {k} (h : s.Canonical) : (s.scrub k).Canonical := by
  unfold State.scrub
  split
  · exact h
  · exact h.beside
  · exact h.after
theorem whileHeld {g e f} (h : s.Canonical) (hf : ∀ {t}, t.Canonical → (f t).Canonical) :
    (s.whileHeld g e f).Canonical := by
  unfold State.whileHeld
  exact .ite (hf h) (.ite (h.foldl (fun _ _ h => .ite h.after h)) h.beside.after)
theorem loadRoute {g dest port} (h : s.Canonical) : (s.loadRoute g dest port).Canonical :=
  h.whileHeld (fun h => h.beside)
theorem setBypass {g on} (h : s.Canonical) : (s.setBypass g on).Canonical :=
  h.whileHeld (fun h => .ite h.beside.setBar h.beside)
theorem forgetMessage {e} (h : s.Canonical) : (s.forgetMessage e).Canonical := by
  unfold State.forgetMessage
  extract_lets drop
  have hdrop : ∀ {s a b}, State.Canonical s → (drop s a b).Canonical := fun h => by
    unfold drop
    split
    · exact h.beside
    · exact h
  clear_value drop
  cases e with
  | lineMiss | requestLeave => exact h.beside
  | rds | rdx | upg => exact hdrop h
  | data hub | datax hub | cmpMsg hub =>
    cases hub
    · exact hdrop h
    · exact h
  | _ => exact h
theorem routerFailure {g held} (h : s.Canonical) : (s.routerFailure g held).Canonical := by
  unfold State.routerFailure
  exact (((h.beside.foldl (fun _ _ h => h.forgetMessage)).foldl (fun _ _ h => h.containAgent)).notify).msix

/-! ## Vector -/

theorem vecV {p n w d f} (h : s.Canonical) : Keeps (vecV p n w d s f) := h.issueV (fun h => h.putV.raiseFlags)
theorem vop {p ty d a b ff fi} (h : s.Canonical) : Keeps (vop p ty d a b s ff fi) := h.vecV
theorem vfma {np nc p ty d a b c} (h : s.Canonical) : Keeps (vfma np nc p ty d a b c s) := h.vecV
theorem vlong {p n ty d f} (h : s.Canonical) : Keeps (vlong p n ty d s f) := h.issueV (fun h => h.addOp.after)
theorem vred {p ty d a ff fi} (h : s.Canonical) : Keeps (vred p ty d a s ff fi) :=
  h.issueV (fun h => h.putG.raiseFlags)

/-! ## Issue -/

theorem startFetch (h : s.Canonical) : s.startFetch.Canonical := by
  unfold State.startFetch
  exact h.lost.modMe.after
theorem waitOn {l} (h : s.Canonical) : (s.waitOn l).Canonical := .ite h.lost.modMe h.lost
theorem refreshLoads (h : s.Canonical) : s.refreshLoads.Canonical := .ite h (h.foldl (fun _ _ h => h.after))
theorem watchDeadlock {p} (h : s.Canonical) : (s.watchDeadlock p).Canonical := .ite h.after h
theorem rearm {p} (h : s.Canonical) : (s.rearm p).Canonical := .ite h.beside h
theorem rearmAll (h : s.Canonical) : s.rearmAll.Canonical := .ite h (h.foldl (fun _ _ h => h.rearm))
theorem watchThreshold (h : s.Canonical) : s.watchThreshold.Canonical := .ite h (.ite h.beside.after h.beside)
theorem countAgain (h : s.Canonical) : s.countAgain.Canonical := h.foldl (fun _ _ h => h.modCore)
theorem nextCycle (h : s.Canonical) : s.nextCycle.Canonical := by
  unfold State.nextCycle
  exact (h.beside.carryOut.countAgain.releaseMesh.refreshLoads.foldl (fun _ _ h => h.watchDeadlock)).watchThreshold

/-! ## Instructions -/

theorem execLdm {p n c d a disp} (h : s.Canonical) : Keeps (execLdm p n c d a disp s) := by
  refine h.issue fun h => ?_
  dsimp only
  split
  · exact id
  · split
    · exact id
    · exact h.launchOp
theorem execStm {p n c d a disp} (h : s.Canonical) : Keeps (execStm p n c d a disp s) := by
  refine h.issue fun h => ?_
  dsimp only
  split
  · exact id
  · split
    · exact id
    · exact h.storeOp
theorem execLdq {p n d a disp} (h : s.Canonical) : Keeps (execLdq p n d a disp s) := by
  refine h.issue fun h => ?_
  split
  · exact id
  · exact h.launchOp
theorem execLdtry {p n sz d a disp} (h : s.Canonical) : Keeps (execLdtry p n sz d a disp s) := by
  refine h.issue fun h => ?_
  split
  · exact id
  · exact h.launchOp
theorem execBwait {p n d a disp} (h : s.Canonical) : Keeps (execBwait p n d a disp s) := by
  refine h.issue fun h => ?_
  split
  · exact id
  · exact h.launchOp
theorem execAcas {p n far q ty scope order d a b c} (h : s.Canonical) :
    Keeps (execAcas p n far q ty scope order d a b c s) := by
  refine h.issue fun h => ?_
  dsimp only
  split
  · exact id
  · exact h.launchOp
theorem execFence {p scope order} (h : s.Canonical) : Keeps (execFence p scope order s) := by
  refine h.issue fun h => ?_
  split
  · exact h
  · exact h.parkMe.fenceWait
  · exact h.parkMe.sendProbes
theorem execTpop {p d} (h : s.Canonical) : Keeps (execTpop p d s) := by
  refine h.issue fun {_ t} h => ?_
  change State.Canonical (match t.dequeNewest t.slot with | none => _ | some (e, u) => _)
  split
  · exact h.putG
  next e u hu => exact (h.of_dequeNewest hu).putG
theorem execEvac {p d a b} (h : s.Canonical) : Keeps (execEvac p d a b s) := by
  refine h.issue fun h => ?_
  dsimp only
  split
  · exact id
  · split
    · exact id
    · split
      · exact id
      · split
        · exact h.putG
        · split
          · exact h.checkAtIssue
          · exact .ite h.putG h.parkMe.setAcc.after
theorem execRecv {p d c} (h : s.Canonical) : Keeps (execRecv p d c s) := by
  refine h.issue fun h => ?_
  split
  · exact h.deliver.pump
  · exact h.parkMe.modCore
theorem execRecvT {p d c} (h : s.Canonical) : Keeps (execRecvT p d c s) := by
  refine h.issue fun h => ?_
  split
  · exact h.deliver.pump
  · exact h.putG
theorem execFltrpl {p a b} (h : s.Canonical) : Keeps (execFltrpl p a b s) := by
  refine h.issue fun h => ?_
  dsimp only
  split
  · exact h.count
  · exact ((ite (.ite h h.count) ((ite h h.count).count)).setFault).after
theorem execMtask {p q d a} (h : s.Canonical) : Keeps (execMtask p q d a s) := by
  refine h.issue fun h => ?_
  dsimp only
  split
  · exact id
  · split
    · exact id
    · exact id
    · exact .ite id h.submit
theorem execMtcan {p d a} (h : s.Canonical) : Keeps (execMtcan p d a s) := by
  refine h.issue fun h => ?_
  split
  · exact h.putG
  · exact ite h.putG h.putG.modTask.after.kickAccept
theorem execLyrinit {p d a b} (h : s.Canonical) : Keeps (execLyrinit p d a b s) := by
  refine h.issue fun h => ?_
  dsimp only
  split
  · exact id
  · split
    · exact id
    · split
      · exact id
      · exact h.parkMe.setAcc.afterFree

/-- An instruction is fetched in a state that names no event, so it is none of the hardware's own rows. -/
theorem exec_fetched {i} (h : s.Canonical) (he : s.ev = none) : Keeps (exec i s) := by
  cases s
  cases he
  unfold exec
  cases i with
  | nop => exact h.issue (body := fun _ t => .ok t) fun h => h
  | bra | jmp | call | callr | ret | brc => exact h.issue (fun h => h.transfer)
  | aluAdd | aluSub | aluAnd | aluOr | aluXor | aluAndn | aluOrn | aluXnor | aluMin | aluMax | aluMinu | aluMaxu
    | aluAdds | aluSubs | aluAddsu | aluSubsu | aluMov | aluNeg | aluNot => exact h.alu
  | addi | andi | ori | xori | movhi | movi | mulLo | mulHi | mulHiu | mulMad | bitsShl | bitsShli | bitsShr
    | bitsShri | bitsSar | bitsSari | bitsRol | bitsRoli | bitsRor | bitsRori | bitsClz | bitsCtz | bitsPopc
    | bitsBrev | bitsBswap | fieldExt | fieldExts | fieldIns | fieldMask | movw | sel | lea | leaOff | pmovP2g
    | coordTile | coordGroup | coordSgrp | coordDie | coordPres | coordHmap | coordLocal | mka | mkg
    | mkgOwn => exact h.scalarG
  | divS | divU | divRem | divRemu => exact h.division
  | cmp | cmpi | plogAnd | plogOr | plogXor | plogAndn | plogOrn | plogNand | plogNor | plogXnor | plogNot
    | pmovG2p | pmovBc => exact h.scalarP
  | ld | ldx => exact h.scalarLoad
  | st | stx => exact h.scalarStore
  | ldm => exact h.execLdm
  | stm => exact h.execStm
  | ldq => exact h.execLdq
  | ldtry => exact h.execLdtry
  | bwait => exact h.execBwait
  | clr | clrn => exact h.clearRun
  | prefS | prefX => exact h.prefetch
  | aopSwap | aopAdd | aopAnd | aopOr | aopXor | aopMin | aopMax => exact h.aop
  | acas => exact h.execAcas
  | redAdd | redAnd | redOr | redXor | redMin | redMax => exact h.red
  | post => exact h.posted
  | vld | vlds | vgath | vldb => exact h.vecLoad
  | vst | vsts | vscat | vstb => exact h.vecStore
  | copy | copys | copygG | copygS => exact h.copyInstr
  | cbatchOpen => exact h.issue (fun h => h.closeMine.modMe)
  | cbatchClose => exact h.issue (fun h => h.closeMine)
  | cwait | cqf => exact h.issue (fun h => ite h.closeMine.parkMe h.closeMine)
  | cbinit => exact h.issue (fun h => h.modMe)
  | cbwait => exact h.issue (fun h => ite h.closeMine (.ite h.closeMine.modMe h.closeMine.parkMe))
  | cstat | cstatBar | rqpopCnt | preemptQ | movcRead | fltrd | cntrd | mtqry | mtqryQ =>
    exact h.issue (fun h => h.putG)
  | tagl | taglG => exact h.tagInstr (fun h => h.putG)
  | tags => exact h.tagInstr (fun h => h.setTag)
  | tagi => exact h.tagInstr (fun h => h.tagDrop)
  | tagiAll => exact h.tagInstr (fun h => h.foldl (fun _ _ h => h.tagDrop))
  | tagiBlk => exact h.tagInstr (fun h => h.foldl (fun _ _ h => .ite h.tagDrop h))
  | fence => exact h.execFence
  | bar => exact h.issue (fun h => ite h h.parkMe.arrive)
  | barComb => exact h.issue (fun h => .ite h (.ite (fun h => h.arrive) h.parkMe.arrive))
  | trig => exact h.issue (fun h => h.triggerThread)
  | waitl | waitlDl => exact h.waitlBody
  | sleep | sleepM => exact h.sleepBody
  | yield | tlbsync => exact h.issue (fun h => ite h.parkMe.after h)
  | spawn => exact h.spawnBody
  | tpop => exact h.execTpop
  | rqpush => exact h.issue (fun h => .ite id (.ite id h.pushRq))
  | rqpushCore => exact h.issue (fun h => .ite id (.ite id (.ite id h.meshAfter)))
  | rqpop | rqpopP => exact h.popBody
  | tstart => exact h.issue (fun h => ite h.putG h.putG.startFilling)
  | texit => exact h.issue (fun h => ite h.closeMine.parkMe h.closeMine.retire)
  | treap => exact h.issue (fun h => .ite (fun h => h.modCtx) (.ite h.putG.modCtx (.ite h.putG.freeCtx h.putG.reap)))
  | preempt => exact h.issue (fun h => ite h.putG h.putG.rawWrite.modCore.after)
  | evac => exact h.execEvac
  | holdt => exact h.issue (fun h => .ite id (ite h.putG (.ite h.putG h.parkMe.modCtx.after.after)))
  | resumet =>
    exact h.issue (fun h => .ite id (ite h.modCtx.putG (.ite h.putG (.ite h.modCtx.putG.after h.modCtx.putG))))
  | emur | emuw => exact h.emuBody
  | send => exact h.issue (fun h => .ite id (.ite id h.modMe.modCore.afterFree))
  | recv => exact h.execRecv
  | recvT => exact h.execRecvT
  | timer | timerRel => exact h.issue (fun h => h.setDeadline)
  | timerOff | cntclr => exact h.issue (fun h => h.modCore)
  | trap => exact h.issue (fun h => id)
  | eret | eretNext => exact h.eretBody
  | movsRead => exact h.issue (fun h => .ite id h.putG)
  | movsWrite => exact .ite h.issueTrap (h.issue (fun h => ite h.writeSr h))
  | movcWrite => exact h.issue (fun h => h.parkMe.afterFree)
  | waym => exact h.issue (fun h => .ite h.putG ((((h.foldl (fun _ _ h => h.wipe)).modCore).parkMe).after))
  | sgway => exact h.issue (fun h => .ite h.putG (ite h.beside.parkMe.afterFree h.beside.parkMe))
  | tlbiVa | tlbiAsid | tlbiAll => exact h.tlbiBody
  | fltrpl => exact h.execFltrpl
  | snap => exact h.issue (fun h => h.snapTrigger)
  | mtask => exact h.execMtask
  | mtcan => exact h.execMtcan
  | lyrinit => exact h.execLyrinit
  | lyrq | lyrqW | lyrref | lyrdrop => exact h.issue (fun h => h.lyrPark)
  | lyrqX => exact h.issue (fun h => .ite id h.lyrPark)
  | vopAdd | vopSub | vopMul | vopMin | vopMax | vopAdds | vopSubs | vopAnd | vopOr | vopXor | vopAndn | vopShl
    | vopShr | vopSar | vopMulhi | vopAbs | vopNeg => exact h.vop
  | vfma | vfmaFms | vfmaFnma | vfmaFnms => exact h.vfma
  | vdiv | vsqrt => exact h.vlong
  | vcmp => exact h.issueV (fun h => h.putP.raiseFlags)
  | vsel | vperm | vbcast | vbcastLane | vmov | vmovZero | vdot => exact h.vecV
  | vcvt => exact h.issueV (fun h => h.putV.raiseFlags.countN)
  | vredAdd | vredMin | vredMax | vredAnd | vredOr | vredXor => exact h.vred
  | vins => exact h.issueV (fun h => ite h.putV h)
  | vext => exact h.issueV (fun h => ite h.putG h)
  | longLatencyComplete | bankAccess | blockReadAtHome | blockWriteGranule | waiterRetry | blockFillRelease
    | clrAtHome | watchIncrement | drainDescriptor | deferredTrapReport | trapDelivery | machineCheck
    | postedAck | supervisorNotice | illegalEncoding | emulationRequest | walk | faultPost | faultTableRetry
    | faultReplay | fetchBlockFill | remoteRequest | remoteRetry | remoteTokenWake | copyBeat | copyAdmit
    | copyCommandComplete | copyCommandEnd | probeEcho | barrierResume | waitlWake | waitlPoll | sleepDeadline
    | suspension | ringRefill | resumeContinuation | restore | launchTableFill | dispatch | dispatchRetry
    | steal | wakeMessage | groupLoadRefresh | pushBalance | preemptTakeEffect | saveWrite | evacAcknowledged
    | haltTakeEffect | holdtTimeout | emulationRoundTrip | mailboxArrival | gangStartRecord | meshCreditReturn
    | timerFire | storeWipeDone | tlbiTakesEffect | gangPlace | gangOffer | launchAccept | triggerWrite
    | completionWrite | reserve | rack | rnak | release | go | started | startedTimeout | halt | haltAnswer
    | trigMessage | done | deadlockDeclare | taskAccept | taskPresenceCheck | taskIssue | configurationChange
    | taskKstep | taskDWrite | taskComplete | taskEndError | taskFault | graftInvocation | graftRestart
    | graftCommit | graftTableAccessReturn | rdx | upg | wbd | farAtomic | directoryRecall | invack | memrdData
    | memwrAck | inv | fwds | fwdx | snoopFilterEvict | rds | data | datax | cmpMsg | containment
    | containmentNotice | agentAnswerTimeout | agentRejoin | sliceFailure | censusQuery | censusReport
    | censusEnd | flitReceive | linkNak | linkDown | registerWrite | startRecord | debugSelect | apertureRead
    | apertureWrite | apertureFaultTimeout | pcieUnsupported | qcreate | qdestroy | queueFetch | coldReset
    | partitionReset | wipeDone | partitionControl | lifeCycleChange | firmwareVerify | recoveryLoad
    | attestationRequest | cxlDynamicCapacity | powerLimit | powerLimitClear | overtemperature
    | channelHalfWidth | channelFullWidth | snapIn | snapshotThreshold | snapshotLatch | scrub
    | routingTableLoad | routerFailure => trivial

theorem exec_row {e} (h : s.Canonical) (he : s.ev = some e) : Keeps (exec e.row s) := by
  cases e with
  | illegalEncoding => exact .next (run_illegalEncoding he) h.illegalEncoding
  | emulationRequest => exact .next (run_emulationRequest he) h.emulationRequest
  | fetchBlockFill => exact .next (run_fetchBlockFill he) h.fetchBlockFill
  | longLatencyComplete => exact .next (run_longLatencyComplete he) h.longLatencyComplete
  | bankAccess => exact .next (run_bankAccess he) h.bankAccess
  | suspension => exact .next (run_suspension he) h.suspension
  | waiterRetry => exact .next (run_waiterRetry he) h.waiterRetry
  | blockReadAtHome => exact .next (run_blockReadAtHome he) h.atHome
  | blockWriteGranule => exact .next (run_blockWriteGranule he) h.atHome
  | blockFillRelease => exact .next (run_blockFillRelease he) h.blockFillRelease
  | drainDescriptor => exact .next (run_drainDescriptor he) h.drainDescriptor
  | clrAtHome => exact .next (run_clrAtHome he) h.clrAtHome
  | watchIncrement => exact .next (run_watchIncrement he) h.watchIncrement
  | deferredTrapReport =>
    exact .next (run_deferredTrapReport he) (ite (.ite h.raiseDeferred.wakeCopyPark h.raiseDeferred) h)
  | trapDelivery => exact .next (run_trapDelivery he) h.trapDelivery
  | dispatch => exact .next (run_dispatch he) h.dispatch
  | steal => exact .next (run_steal he) h.steal
  | dispatchRetry => exact .next (run_dispatchRetry he) h.dispatch
  | ringRefill => exact .next (run_ringRefill he) h.ringRefill
  | groupLoadRefresh => exact .next (run_groupLoadRefresh he) h.groupLoadRefresh
  | pushBalance => exact .next (run_pushBalance he) h.pushBalance
  | wakeMessage => exact .next (run_wakeMessage he) h.pushRq.after
  | resumeContinuation => exact .next (run_resumeContinuation he) h.fillGo
  | launchTableFill => exact .next (run_launchTableFill he) h.launchTableFill
  | launchAccept => exact .next (run_launchAccept he) h.launchAccept
  | gangPlace => exact .next (run_gangPlace he) h.gangPlace
  | gangOffer => exact .next (run_gangOffer he) h.gangOffer
  | triggerWrite => exact .next (run_triggerWrite he) h.triggerWrite
  | completionWrite => exact .next (run_completionWrite he) h.completionWrite
  | postedAck => exact .next (run_postedAck he) h.postedAck
  | preemptTakeEffect => exact .next (run_preemptTakeEffect he) h.preemptTakeEffect
  | saveWrite => exact .next (run_saveWrite he) h.saveWrite
  | restore => exact .next (run_restore he) h.fillGo
  | haltTakeEffect => exact .next (run_haltTakeEffect he) h.haltTakeEffect
  | holdtTimeout => exact .next (run_holdtTimeout he) h.holdtTimeout
  | deadlockDeclare => exact .next (run_deadlockDeclare he) h.deadlockDeclare
  | timerFire => exact .next (run_timerFire he) h.timerFire
  | sleepDeadline => exact .next (run_sleepDeadline he) h.sleepDeadline
  | waitlWake => exact .next (run_waitlWake he) h.waitlGo
  | waitlPoll => exact .next (run_waitlPoll he) h.waitlGo
  | barrierResume => exact .next (run_barrierResume he) h.barrierResume
  | mailboxArrival => exact .next (run_mailboxArrival he) h.modCore.pump
  | gangStartRecord => exact .next (run_gangStartRecord he) h.modCore.pump
  | supervisorNotice => exact .next (run_supervisorNotice he) h.supervisorNotice
  | copyAdmit => exact .next (run_copyAdmit he) h.copyAdmit
  | copyBeat => exact .next (run_copyBeat he) h.copyBeat
  | copyCommandComplete => exact .next (run_copyCommandComplete he) h.copyComplete
  | copyCommandEnd => exact .next (run_copyCommandEnd he) h.copyEnd
  | taskAccept => exact .next (run_taskAccept he) h.taskAccept
  | taskPresenceCheck => exact .next (run_taskPresenceCheck he) h.taskPresence
  | taskIssue => exact .next (run_taskIssue he) h.taskIssue
  | configurationChange => exact .next (run_configurationChange he) h.configurationChange
  | taskKstep => exact .next (run_taskKstep he) h.taskKstep
  | taskDWrite => exact .next (run_taskDWrite he) h.taskDWrite
  | taskComplete => exact .next (run_taskComplete he) h.taskComplete
  | taskEndError => exact .next (run_taskEndError he) h.taskEndError
  | taskFault => exact .next (run_taskFault he) h.taskFault
  | graftInvocation => exact .next (run_graftInvocation he) h.graftInvocation
  | graftRestart => exact .next (run_graftRestart he) h.graftRestart
  | graftCommit => exact .next (run_graftCommit he) h.graftCommit
  | faultPost => exact .next (run_faultPost he) h.faultPost
  | faultTableRetry => exact .next (run_faultTableRetry he) h.replay
  | faultReplay => exact .next (run_faultReplay he) h.faultReplay
  | walk => exact .next (run_walk he) h.walk
  | remoteRequest => exact .next (run_remoteRequest he) h.remoteRequest
  | remoteRetry => exact .next (run_remoteRetry he) h.remoteRetry
  | remoteTokenWake => exact .next (run_remoteTokenWake he) h.remoteTokenWake
  | farAtomic => exact .next (run_farAtomic he) h.farAtomic
  | scrub => exact .next (run_scrub he) h.scrub
  | bypassSet => exact .next (run_bypassSet he) h.setBypass
  | packageRouteLoad => exact .next (run_packageRouteLoad he) h.loadPackageRoute
  | routerFailure => exact .next (run_routerFailure he) h.routerFailure
  | routingTableLoad => exact .next (run_routingTableLoad he) h.loadRoute
  | rds => exact .next (run_rds he) h.hubHear
  | rdx => exact .next (run_rdx he) h.hubHear
  | upg => exact .next (run_upg he) h.hubHear
  | wbd => exact .next (run_wbd he) h.hubHear
  | inv => exact .next (run_inv he) h.invAt
  | fwds => exact .next (run_fwds he) h.fwdsAt
  | fwdx => exact .next (run_fwdx he) h.fwdxAt
  | invack => exact .next (run_invack he) (ite h.invackAt h)
  | data hub => cases hub with
    | true => exact .next (run_data he) (ite h.ownerData h)
    | false =>
      refine .next (run_data1 he) ?_
      split
      exacts [h.dieAnswer, h]
  | datax hub => cases hub with
    | true => exact .next (run_datax he) (ite h.ownerData h)
    | false =>
      refine .next (run_datax1 he) ?_
      split
      exacts [h.dieAnswer, h]
  | cmpMsg hub => cases hub with
    | true => exact .next (run_cmpMsg he) (ite h.cmpHub h)
    | false =>
      refine .next (run_cmpMsg1 he) ?_
      split
      exacts [h.cmpAt, h]
  | memrdData => exact .next (run_memrdData he) (ite h.modTxn.txnStep h)
  | memwrAck => exact .next (run_memwrAck he) h.modTxn.txnStep
  | snoopFilterEvict => exact .next (run_snoopFilterEvict he) h.snoopEvict
  | directoryRecall => exact .next (run_directoryRecall he) h.directoryRecall
  | sliceFailure => exact .next (run_sliceFailure he) h.sliceFailure
  | censusQuery => exact .next (run_censusQuery he) h.censusQuery
  | censusReport => exact .next (run_censusReport he) (ite h.censusReport h)
  | censusEnd => exact .next (run_censusEnd he) (ite h.censusEnd h)
  | containment => exact .next (run_containment he) h.contain
  | agentAnswerTimeout => exact .next (run_agentAnswerTimeout he) h.answerTimeout
  | containmentNotice => exact .next (run_containmentNotice he) h.markDead
  | agentRejoin => exact .next (run_agentRejoin he) h.agentRejoin
  | flitReceive => exact .next (run_flitReceive he) h.flitReceive
  | linkNak => exact .next (run_linkNak he) h.linkNak
  | linkDown => exact .next (run_linkDown he) h.linkDown
  | reserve => exact .next (run_reserve he) h.reserveLaunch
  | rack => exact .next (run_rack he) h.rackMsg
  | rnak => exact .next (run_rnak he) h.rnakMsg
  | release => exact .next (run_release he) h.dropLaunch.releaseGangs
  | go => exact .next (run_go he) h.goLaunch
  | started => exact .next (run_started he) h.modLaunch
  | startedTimeout => exact .next (run_startedTimeout he) h.startedTimeout
  | halt => exact .next (run_halt he) h.haltLaunch
  | trigMessage => exact .next (run_trigMessage he) h.trigMsg
  | done => exact .next (run_done he) h.doneMsg
  | apertureRead w off n tag job => cases job with
    | none => exact .next (run_apertureRead he) h.apArrive
    | some id =>
      refine .next (run_apertureRead1 he) ?_
      split
      exacts [h.apGo, h]
  | apertureWrite w off d job => cases job with
    | none => exact .next (run_apertureWrite he) h.apArrive
    | some id =>
      refine .next (run_apertureWrite1 he) ?_
      split
      exacts [h.apGo, h]
  | apertureFaultTimeout => exact .next (run_apertureFaultTimeout he) h.apertureFaultTimeout
  | pcieUnsupported => exact .next (run_pcieUnsupported he) h.beside
  | qcreate => exact .next (run_qcreate he) h.qcreate
  | qdestroy => exact .next (run_qdestroy he) h.qdestroy
  | queueFetch => exact .next (run_queueFetch he) h.queueFetch
  | startRecord => exact .next (run_startRecord he) h.startRecord
  | partitionControl => exact .next (run_partitionControl he) h.partitionControl
  | registerWrite => exact .next (run_registerWrite he) h.registerWrite
  | debugSelect => exact .next (run_debugSelect he) (ite h h.beside)
  | coldReset => exact .next (run_coldReset he) packageReset
  | partitionReset => exact .next (run_partitionReset he) h.partitionReset
  | lifeCycleChange =>
      refine .next (run_lifeCycleChange he) ?_
      split
      exacts [packageReset, h]
  | wipeDone => exact .next (run_wipeDone he) h.wipeDone
  | firmwareVerify => exact .next (run_firmwareVerify he) h.verifyImage
  | recoveryLoad => exact .next (run_recoveryLoad he) (ite h.verifyImage h)
  | attestationRequest => exact .next (run_attestationRequest he) h.attest
  | cxlDynamicCapacity => exact .next (run_cxlDynamicCapacity he) h.notify
  | powerLimit => exact .next (run_powerLimit he) h.beside
  | powerLimitClear => exact .next (run_powerLimitClear he) h.beside.kickAll
  | overtemperature => exact .next (run_overtemperature he) h.overtemperature
  | channelHalfWidth => exact .next (run_channelHalfWidth he) h.channelHalf
  | snapIn => exact .next (run_snapIn he) h.snapAll
  | snapshotThreshold => exact .next (run_snapshotThreshold he) h.thresholdReached
  | snapshotLatch => exact .next (run_snapshotLatch he) h.snapshotLatch
  | machineCheck => exact .next (run_machineCheck he) h.machineCheck
  | meshCreditReturn => exact .next (run_meshCreditReturn he) h.meshCredit
  | probeEcho => exact .next (run_probeEcho he) h.probeEcho
  | evacAcknowledged => exact .next (run_evacAcknowledged he) h.evacGo
  | tlbiTakesEffect => exact .next (run_tlbiTakesEffect he) h.tlbiTakesEffect
  | emulationRoundTrip => exact .next (run_emulationRoundTrip he) h.emulationRoundTrip
  | graftTableAccessReturn => exact .next (run_graftTableAccessReturn he) h.lyrReturn
  | storeWipeDone => exact .next (run_storeWipeDone he) h.storeWipeDone
  | haltAnswer => exact .next (run_haltAnswer he) h.haltAnswer
  | channelFullWidth => exact .next (run_channelFullWidth he) h.beside
  | agentReply => exact .next (run_agentReply he) h.agentReply
  | cxlLink => exact .next (run_cxlLink he) h.beside
  | storeArrival => exact .next (run_storeArrival he) h.storeArrival
  | replySend => exact .next (run_replySend he) h.replySend
  | hubReply => exact .next (run_hubReply he) h.hubReply
  | hubAccess => exact .next (run_hubAccess he) h.hubAccess
  | requestLeave => exact .next (run_requestLeave he) h.beside
  | lineMiss => exact .next (run_lineMiss he) h.lineMiss
  | sliceError => exact .next (run_sliceError he) h.sliceError
  | emulationAnswer => exact .next (run_emulationAnswer he) h.emulationAnswer

/-! ## Steps -/

theorem tryIssue {i} (h : s.Canonical) (he : s.ev = none) : (s.tryIssue i).Keeps := by
  unfold State.tryIssue
  extract_lets full dep t
  have ht : t.Canonical := .ite h h.count.modMe
  split
  · exact ⟨.ite h.modMe h, .inl (by split <;> exact he)⟩
  · split
    · exact h.waitOn
    · exact ht.waitOn
theorem fetchIssue {n} (h : s.Canonical) (he : s.ev = none) : (s.fetchIssue n).Keeps := by
  induction n generalizing s with
  | zero => exact h
  | succ n ih =>
    unfold State.fetchIssue
    extract_lets pc
    refine .ite h.issueTrap (.ite h.issueTrap ?_)
    split
    · exact h.issueTrap
    · refine .ite h.lost (.ite h.issueTrap ?_)
      split
      · exact h.startFetch
      · split
        · exact ih h.modMe he
        · exact ⟨h.beside, .inr ⟨_, rfl, rfl⟩⟩
        · split
          · exact h.modMe.issueTrap
          · exact h.tryIssue he
theorem offer {c} (h : s.Canonical) : (s.offer c).Keeps := by
  unfold State.offer
  extract_lets t u
  have ht : t.Canonical := h.beside
  have hu : u.Canonical := ht.foldl fun _ _ h => h.after
  have he : u.ev = none := List.foldlRecOn (motive := fun u : State => u.ev = none) _ _ rfl fun _ he _ _ => he
  refine .ite ht ?_
  split
  · refine .ite hu.lost ?_
    split
    · exact hu.fetchIssue he
    · exact hu.waitOn
  · exact (hu.lost.foldl fun _ _ h => h.modOp.goLsu).foldl fun _ _ h => h.modClr.after
theorem perform {e} (h : s.Canonical) : (s.perform e).Keeps := ⟨h.beside, .inr ⟨_, rfl, rfl⟩⟩
theorem plan (h : s.Canonical) : s.plan.Keeps := by
  unfold State.plan
  extract_lets t
  have ht : t.Canonical := h.rearmAll
  split
  · exact ht.perform
  split
  · exact ht.offer
  split
  · exact ⟨ht.beside, .inr ⟨_, rfl, rfl⟩⟩
  split
  · exact ht.perform
  · exact ht.nextCycle
theorem step (h : s.Canonical) : Keeps (step s) := by
  have hp := h.plan
  unfold Machine.step
  cases hs : s.plan with
  | idle t =>
    rw [hs] at hp
    exact hp
  | run i t =>
    rw [hs] at hp
    obtain ⟨ht, he | ⟨e, he, rfl⟩⟩ := hp
    · exact ht.exec_fetched he
    · exact ht.exec_row he

end State.Canonical

/-- Settles O7: a row of the table keeps the form, fetched or the hardware's own, and so does the machine's bookkeeping. -/
theorem stepKeepsCanonical : Obligations.StepKeepsCanonical := by
  intro s t h hst
  have ht := h.step
  rw [hst] at ht
  exact ht
end Sys2Proof.Machine
end

section
/-! SUPPORT. O13: bytes and granules (00 R2). -/
namespace Sys2Proof.Machine

/-- Bytes read in a row are the digits of what they make. -/
theorem State.bytesN_digit (s : State) {k n i : Nat} (hi : i < n) :
    s.bytesN k n / 256 ^ i % 256 = (s.byte (k + i)).toNat := by
  induction n generalizing k i with
  | zero => omega
  | succ n ih =>
    rw [State.bytesN]
    cases i with
    | zero =>
      rw [Nat.pow_zero, Nat.div_one, Nat.add_mul_mod_self_left, Nat.mod_eq_of_lt (s.byte k).isLt]
      rfl
    | succ i =>
      rw [Nat.pow_succ', ← Nat.div_div_eq_div_mul, Nat.add_mul_div_left _ _ (by decide),
        Nat.div_eq_of_lt (s.byte k).isLt, Nat.zero_add, ih (by omega), Nat.add_right_comm, Nat.add_assoc]

/-- A number's digit is not cut off by a width that reaches past it. -/
theorem byteOf_ofNat {n i : Nat} (x : Nat) (h : 8 * i + 8 ≤ n) :
    (byteOf (BitVec.ofNat n x) i).toNat = x / 256 ^ i % 256 := by
  obtain ⟨m, rfl⟩ := Nat.exists_eq_add_of_le h
  have width : 2 ^ (8 * i + 8 + m) = 256 ^ i * (256 * 2 ^ m) := by
    rw [Nat.pow_add, Nat.pow_add, Nat.pow_mul, Nat.mul_assoc]
  rw [byteOf_toNat, BitVec.toNat_ofNat, width, Nat.mod_mul_right_div_self, Nat.mod_mul_right_mod]

theorem State.byteOf_granule (s : State) (k : Nat) {i : Nat} (hi : i < 64) : byteOf (s.granule k) i = s.byte (k + i) :=
  BitVec.eq_of_toNat_eq ((byteOf_ofNat _ (by omega)).trans (s.bytesN_digit hi))

/-- Settles O13: what a masked write leaves in each byte, and the digits of a granule that is read. -/
theorem bytesReadBack : Obligations.BytesReadBack := by
  intro s k j mask x h
  exact ⟨h.putGranule, putBytes_get s.mem k mask x 64 j h.mem, fun i hi => s.byteOf_granule k hi⟩

end Sys2Proof.Machine
end

section
/-! SUPPORT. O6: the slot of a context whose instruction is at hand (03 R28, R33; 07 R96), and the placing of an instruction
there (log entry 41). -/
namespace Sys2Proof

/-! ## Sparse maps -/

theorem SMap.get_filter_ne {α : Type} (d : α) (m : List (Nat × α)) (k : Nat) :
    SMap.get d (m.filter fun e => e.1 != k) k = d := by
  induction m with
  | nil => rfl
  | cons e m ih =>
    rw [List.filter_cons]
    split
    next hne =>
      rw [SMap.get, if_neg (Ne.symm (bne_iff_ne.mp hne)), ih]
      exact ite_self d
    next => exact ih

/-- What is set at key 0 comes first. -/
theorem SMap.set_zero {α : Type} [DecidableEq α] {d v : α} (m : List (Nat × α)) (hv : v ≠ d) :
    ∃ l, SMap.set d m 0 v = (0, v) :: l := by
  cases m with
  | nil => exact ⟨[], if_neg hv⟩
  | cons e m =>
    rw [SMap.set]
    obtain hpos | hzero := Nat.eq_zero_or_pos e.1 |>.symm
    · exact ⟨_, by rw [if_pos hpos, if_neg hv]⟩
    · exact ⟨_, by rw [hzero, if_neg (Nat.lt_irrefl 0), if_pos rfl, if_neg hv]⟩

end Sys2Proof
namespace Sys2Proof.Machine

/-! ## A slot whose instruction is at hand -/

theorem State.rearm_eq (s : State) (p : BitVec 2) : ∃ a, s.rearm p = { s with armed := a } := by
  unfold State.rearm
  split
  · exact ⟨_, rfl⟩
  · exact ⟨s.armed, rfl⟩

/-- The cores' lines change nothing but which partitions are armed. -/
theorem State.rearmAll_eq (s : State) : ∃ a, s.rearmAll = { s with armed := a } := by
  unfold State.rearmAll
  split
  · exact ⟨s.armed, rfl⟩
  · refine List.foldlRecOn (motive := fun t : State => ∃ a, t = { s with armed := a }) _ _ ⟨s.armed, rfl⟩ ?_
    rintro t ⟨a, rfl⟩ p -
    obtain ⟨b, hb⟩ := State.rearm_eq { s with armed := a } p
    exact ⟨b, hb⟩

theorem State.plan_eq_offer {s : State} {k : Core} {l : List (Nat × Core)} (hagenda : ∀ e ∈ s.agenda, s.cyc < e.1)
    (hturn : s.turn = 0) (hcores : s.cores = (0, k) :: l) : ∃ a, s.plan = ({ s with armed := a } : State).offer 0 := by
  obtain ⟨a, ha⟩ := s.rearmAll_eq
  have hdue (p : Nat × Event → Bool) : (s.agenda.find? fun e => decide (e.1 ≤ s.cyc) && p e) = none :=
    List.find?_eq_none.mpr fun e he => by simp [Nat.not_le.mpr (hagenda e he)]
  refine ⟨a, ?_⟩
  unfold State.plan
  simp only [ha, Bool.and_assoc, hdue, hturn, hcores, Nat.zero_le, decide_true, List.find?_cons_of_pos]
  rfl

section
variable {t : State} {k : Core} {x : CtxId}

theorem Core.opsOf_eq_nil (hops : ∀ o ∈ k.ops, o.ctx ≠ x) : k.opsOf x = [] :=
  List.filter_eq_nil_iff.mpr fun o ho => by simp [hops o ho]
theorem State.mine_eq_nil (hops : ∀ o ∈ t.myCore.ops, o.ctx ≠ t.cx) (q : AccSt) : t.mine q = [] := by
  have hnone : (t.myCore.ops.filter fun o => o.ctx == t.cx) = [] :=
    List.filter_eq_nil_iff.mpr fun o ho => by simp [hops o ho]
  rw [State.mine, hnone, List.flatMap_nil]
theorem State.clrsAgain_eq_nil (hclrs : ∀ r ∈ t.myCore.clrs, r.ctx ≠ t.cx) : t.clrsAgain = [] :=
  List.filter_eq_nil_iff.mpr fun r hr => by simp [hclrs r hr]
theorem State.stops_eq_nil (hops : ∀ o ∈ t.myCore.ops, o.ctx ≠ t.cx) : t.stops = [] := by
  rw [State.stops, Core.opsOf_eq_nil hops, List.filter_nil]

theorem State.offer_eq_fetchIssue {s : State} {c : CoreId} (ht : { s with slot := c, turn := c.toNat + 1, ev := none } = t)
    (hpresent : t.present c = true) (hready : t.myCore.ready t.cx = true) (hops : ∀ o ∈ t.myCore.ops, o.ctx ≠ t.cx)
    (hclrs : ∀ r ∈ t.myCore.clrs, r.ctx ≠ t.cx) : s.offer c = t.fetchIssue 2 := by
  unfold State.offer
  rw [ht]
  simp only [hpresent, hready, State.mine_eq_nil hops, State.clrsAgain_eq_nil hclrs, State.stops_eq_nil hops,
    List.foldl_nil, Bool.true_eq_false, if_false]

theorem State.fetchIssue_eq_tryIssue {n len : Nat} {i : Instr} {b : BitVec 256} {g : Target}
    (halign : t.me.pc.toNat % 32 = 0) (hcoord : isCoord t.me.pc = false) (haddr : t.checkAddr t.slot t.me.pc = .ok g)
    (hway : t.myCore.wayBusy = false) (hplain : t.fetchInBlock = false) (hcode : t.fetchBlock = some b)
    (hdec : decodeBytes true (bytesFrom b 0) = .instr i len) (hkept : t.me.withdrawnAt = none) :
    t.fetchIssue (n + 1) = t.tryIssue i := by
  have hword : t.me.pc.toNat % 4 = 0 := by omega
  unfold State.fetchIssue
  simp [hword, hcoord, haddr, hway, hplain, hcode, halign, hdec, hkept]

/-- The context has nothing outstanding, so the instruction runs whatever it names; a lookahead miss is over. -/
theorem State.tryIssue_eq_run (i : Instr) (hops : ∀ o ∈ t.myCore.ops, o.ctx ≠ t.cx) :
    t.tryIssue i = .run i (if t.me.missed then t.modMe fun m => { m with missed := false } else t) := by
  have hdep : t.hazards i = [] := by rw [State.hazards, Core.opsOf_eq_nil hops, List.filter_nil]
  have hroom : t.myCore.full t.cx = false := by
    rw [Core.full, Core.opsOf_eq_nil hops]
    rfl
  unfold State.tryIssue
  simp [hdep, hroom]

end

/-! ## Global addresses of this package -/

theorem State.toNat_extPc (s : State) (a : Word) : (s.extPc a).toNat = s.pkgNum.toNat * 2 ^ 52 + a.toNat % 2 ^ 48 := by
  have hpkg : s.pkgNum.toNat < 2 ^ 5 := s.pkgNum.isLt
  have hoff : a.toNat % 2 ^ 48 < 2 ^ 52 := by omega
  have hmask : (0xFFFFFFFFFFFF : Word).toNat = 2 ^ 48 - 1 := rfl
  rw [State.extPc, BitVec.toNat_or, BitVec.toNat_shiftLeft, BitVec.toNat_and, hmask, Nat.and_two_pow_sub_one_eq_mod,
    BitVec.toNat_setWidth, Nat.mod_eq_of_lt (a := s.pkgNum.toNat) (by omega), Nat.shiftLeft_eq,
    Nat.mod_eq_of_lt (a := s.pkgNum.toNat * 2 ^ 52) (by omega), Nat.mul_comm, Nat.two_pow_add_eq_or_of_lt hoff]

theorem State.extractLsb'_extPc (s : State) (a : Word) : (s.extPc a).extractLsb' 52 5 = s.pkgNum := by
  apply BitVec.eq_of_toNat_eq
  have hpkg : s.pkgNum.toNat < 2 ^ 5 := s.pkgNum.isLt
  rw [BitVec.extractLsb'_toNat, State.toNat_extPc, Nat.shiftRight_eq_div_pow]
  omega

theorem State.isCoord_extPc (s : State) (a : Word) : isCoord (s.extPc a) = false := by
  have hpkg : s.pkgNum.toNat < 2 ^ 5 := s.pkgNum.isLt
  have hlow : isCoord (BitVec.ofNat 64 (s.extPc a).toNat) = false :=
    isCoord_ofNat_of_lt (by rw [State.toNat_extPc]; omega)
  rwa [BitVec.ofNat_toNat, BitVec.setWidth_eq] at hlow

theorem State.checkAddr_extPc (s : State) (c : CoreId) (a : Word) (h : s.pkgNum.toNat ≤ s.pkgTop.toNat) :
    s.checkAddr c (s.extPc a) = .ok (.global s.pkgNum ((s.extPc a).toNat % 2 ^ 52)) := by
  have hpkg : s.pkgNum.toNat < 2 ^ 5 := s.pkgNum.isLt
  have hhigh : (s.extPc a).extractLsb' 57 6 = 0 := by
    apply BitVec.eq_of_toNat_eq
    rw [BitVec.extractLsb'_toNat, State.toNat_extPc, Nat.shiftRight_eq_div_pow]
    show _ = 0
    omega
  rw [State.checkAddr, s.isCoord_extPc, hhigh, s.extractLsb'_extPc, if_neg Bool.false_ne_true, if_neg (not_not.mpr rfl),
    if_neg (Nat.not_lt.mpr h)]

/-! ## The placed instruction (log entry 41) -/

/-- Where the instruction is placed: the fetch block of the context's PC that begins a line, in this package's window. -/
def State.placedPc (s : State) : Word := s.extPc (BitVec.ofNat 64 ((s.ctx 0 s.cx).pc.toNat % 2 ^ 48 / 64 * 64))
/-- The translation of its page: every permission, and its own offset as frame. -/
def State.placedEntry (s : State) : TlbEnt :=
  { asid := (s.ctx 0 s.cx).asid, base := s.placedPc.toNat % 2 ^ 52 / 4096 * 4096, bits := 12
    e0 := BitVec.ofNat 64 (s.placedPc.toNat % 2 ^ 52 / 4096 * 4096 + 3), e1 := 0x380000, pte := 0 }
/-- The context that is to issue it. -/
def State.placedCtx (s : State) : Ctx :=
  { s.ctx 0 s.cx with st := .running, pc := s.placedPc, park := none, halt := none, delivering := false, reaping := false
                      yielded := false, withdrawnAt := none }
/-- Core 0 with that context, and nothing of it outstanding. -/
def State.placedCore (s : State) (w : BitVec 128) : Core :=
  { (s.core 0).setCtx s.cx s.placedCtx with
    ops := (s.core 0).ops.filter fun o => o.ctx != s.cx
    clrs := (s.core 0).clrs.filter fun r => r.ctx != s.cx
    wayBusy := false
    itlb := s.placedEntry :: (s.core 0).itlb
    code := SMap.set none (s.core 0).code (s.placedPc.toNat % 2 ^ 52) (some (w.setWidth 256)) }
/-- The state at its slot, with the partitions armed as the cores' lines say. -/
def State.placedSlot (s : State) (w : BitVec 128) (a : BitVec 4) : State :=
  { s.placeWord w with armed := a, slot := 0, turn := 1, ev := none }

section
variable (s : State) (w : BitVec 128)

theorem State.placedCore_ctx : (s.placedCore w).ctx s.cx = s.placedCtx :=
  ((s.core 0).ctx_setCtx s.cx s.cx s.placedCtx).trans (if_pos rfl)
theorem State.placedCore_ne_reset : s.placedCore w ≠ Core.reset := fun h =>
  List.cons_ne_nil _ _ (congrArg Core.itlb h)
theorem State.cores_placeWord : ∃ l, (s.placeWord w).cores = (0, s.placedCore w) :: l :=
  SMap.set_zero s.cores (s.placedCore_ne_reset w)
theorem State.placedSlot_myCore (a : BitVec 4) : (s.placedSlot w a).myCore = s.placedCore w :=
  SMap.get_set_self Core.reset s.cores 0 (s.placedCore_ne_reset w)
theorem State.placedSlot_me (a : BitVec 4) : (s.placedSlot w a).me = s.placedCtx :=
  (congrArg (fun k : Core => k.ctx s.cx) (s.placedSlot_myCore w a)).trans (s.placedCore_ctx w)
theorem State.placedCore_ops : ∀ o ∈ (s.placedCore w).ops, o.ctx ≠ s.cx :=
  fun _ ho => bne_iff_ne.mp (List.mem_filter.mp ho).2
theorem State.placedCore_clrs : ∀ r ∈ (s.placedCore w).clrs, r.ctx ≠ s.cx :=
  fun _ hr => bne_iff_ne.mp (List.mem_filter.mp hr).2

theorem State.placedCore_ready : (s.placedCore w).ready s.cx = true := by
  rw [Core.ready, s.placedCore_ctx w]
  rfl

theorem State.placedSlot_present (a : BitVec 4) : (s.placedSlot w a).present 0 = true := by
  have hbar : (s.placedSlot w a).bar 0x1000 = 0 := SMap.get_filter_ne 0 s.bar0 0x1000
  have hsg : sgIdx 0 = 0 := by decide
  rw [State.present, hsg, State.sgPresent]
  exact congrArg (fun b : Word => !b.getLsbD 0) hbar

theorem State.plan_withFetchWord (n v : Nat) :
    ∃ a, (s.withFetchWord n v).plan = (s.placedSlot (BitVec.ofNat 128 (v % 2 ^ n)) a).fetchIssue 2 := by
  obtain ⟨l, hl⟩ := s.cores_placeWord (BitVec.ofNat 128 (v % 2 ^ n))
  have hagenda : ∀ e ∈ (s.withFetchWord n v).agenda, s.cyc < e.1 :=
    fun _ he => of_decide_eq_true (List.mem_filter.mp he).2
  obtain ⟨a, ha⟩ := State.plan_eq_offer hagenda rfl hl
  have hcore := s.placedSlot_myCore (BitVec.ofNat 128 (v % 2 ^ n)) a
  refine ⟨a, ha.trans (State.offer_eq_fetchIssue rfl (s.placedSlot_present _ a) ?_ ?_ ?_)⟩
  · exact (congrArg (fun k : Core => k.ready s.cx) hcore).trans (s.placedCore_ready _)
  · exact hcore ▸ s.placedCore_ops _
  · exact hcore ▸ s.placedCore_clrs _

/-! ## Its fetch block (07 R96, R387) -/

theorem State.toNat_placedPc : s.placedPc.toNat = s.pkgNum.toNat * 2 ^ 52 + (s.ctx 0 s.cx).pc.toNat % 2 ^ 48 / 64 * 64 := by
  rw [State.placedPc, State.toNat_extPc, BitVec.toNat_ofNat]
  omega

theorem State.placedPc_aligned : s.placedPc.toNat % 64 = 0 := by
  rw [State.toNat_placedPc]
  omega

theorem leafFault_everything (p : Priv) : leafFault 0x380000 p 3 = none := by
  cases p <;> rfl

theorem State.findTlb_placedEntry (l : List TlbEnt) (p : Priv) :
    findTlb (s.placedEntry :: l) (s.ctx 0 s.cx).asid (s.placedPc.toNat % 2 ^ 52) p 3 = some s.placedEntry := by
  have hhits : s.placedEntry.hits (s.ctx 0 s.cx).asid (s.placedPc.toNat % 2 ^ 52) = true := by
    simp [TlbEnt.hits, State.placedEntry]
  have hleaf : leafFault s.placedEntry.e1 p 3 = none := leafFault_everything p
  exact List.find?_cons_of_pos (by rw [hhits, hleaf]; rfl)

/-- A plain page is found at its own frame of tier 0. -/
theorem State.leafMap_identity (t : State) {e : TlbEnt} {off : Nat} (hbits : e.bits = 12) (hoff : off < 2 ^ 52)
    (he : e.e0 = BitVec.ofNat 64 (off / 4096 * 4096 + 3)) :
    t.leafMap e off = { key := off / 64 * 64, isBlock := false, tier := 0, pageBits := 12 } := by
  have hn : e.e0.toNat = off / 4096 * 4096 + 3 := by
    rw [he, BitVec.toNat_ofNat]
    omega
  have hframe : pteFrame e.e0 = off / 4096 * 4096 := by
    rw [pteFrame, BitVec.extractLsb'_toNat, hn, Nat.shiftRight_eq_div_pow]
    omega
  have htier : pteTier e.e0 = 0 := by
    rw [pteTier, BitVec.extractLsb'_toNat, hn, Nat.shiftRight_eq_div_pow]
    omega
  have hplain : e.e0.getLsbD 3 = false := by
    rw [BitVec.getLsbD, hn, Nat.testBit_eq_decide_div_mod_eq, decide_eq_false_iff_not]
    omega
  have hsum : off / 4096 * 4096 + off % 2 ^ 12 = off := by omega
  simp only [State.leafMap, hbits, hframe, htier, hplain, frameKey, hsum, ne_eq, not_true_eq_false, false_and, if_false,
    Nat.zero_mul, Nat.zero_add, Bool.false_eq_true]

theorem State.placedSlot_fetchMap (a : BitVec 4) : (s.placedSlot w a).fetchMap 0 s.cx =
    some { key := s.placedPc.toNat % 2 ^ 52, isBlock := false, tier := 0, pageBits := 12 } := by
  have hcore : (s.placedSlot w a).core 0 = s.placedCore w := s.placedSlot_myCore w a
  have hctx : (s.placedSlot w a).ctx 0 s.cx = s.placedCtx := s.placedSlot_me w a
  have hpkg : s.placedCtx.pc.extractLsb' 52 5 = (s.placedSlot w a).pkgNum := s.extractLsb'_extPc _
  have hline : s.placedPc.toNat % 2 ^ 52 / 64 * 64 = s.placedPc.toNat % 2 ^ 52 := by
    have := s.placedPc_aligned
    omega
  dsimp only [State.fetchMap]
  rw [hctx, hcore, if_pos hpkg]
  dsimp only [State.placedCtx, State.placedCore]
  rw [s.findTlb_placedEntry, Option.map_some,
    State.leafMap_identity _ rfl (Nat.mod_lt _ (Nat.two_pow_pos 52)) rfl, hline]

theorem State.placedSlot_codeAt (a : BitVec 4) : (s.placedSlot w a).codeAt 0 s.cx = some (w.setWidth 256) := by
  have hcore : (s.placedSlot w a).core 0 = s.placedCore w := s.placedSlot_myCore w a
  have hctx : (s.placedSlot w a).ctx 0 s.cx = s.placedCtx := s.placedSlot_me w a
  have hpkg : s.placedCtx.pc.extractLsb' 52 5 = (s.placedSlot w a).pkgNum := s.extractLsb'_extPc _
  have hhalf : s.placedPc.toNat % 2 ^ 52 % 64 / 32 * 32 = 0 := by
    have := s.placedPc_aligned
    omega
  dsimp only [State.codeAt, State.fetchKey]
  rw [hctx, s.placedSlot_fetchMap w a, hcore, if_pos hpkg]
  dsimp only [State.placedCtx, Option.map_some, Option.bind_some]
  rw [hhalf]
  exact SMap.get_set_self none _ _ (Option.some_ne_none _)

end

theorem byteOf_setWidth (w : BitVec 128) (k : Nat) : byteOf (w.setWidth 256) k = byteOf w k := by
  apply BitVec.eq_of_toNat_eq
  rw [byteOf_toNat, byteOf_toNat, BitVec.toNat_setWidth, Nat.mod_eq_of_lt (w.isLt.trans (by decide))]

theorem bytesFrom_setWidth (w : BitVec 128) : bytesFrom (w.setWidth 256) 0 = wordBytes w 32 :=
  List.map_congr_left fun k _ => by rw [Nat.zero_add, byteOf_setWidth]

theorem decodeTableWord_eq_some {n v : Nat} {i : Instr} (h : decodeTableWord n v = some i) :
    ∃ len, decodeBytes true (bytesFrom ((BitVec.ofNat 128 (v % 2 ^ n)).setWidth 256) 0) = .instr i len := by
  rw [bytesFrom_setWidth]
  unfold decodeTableWord at h
  split at h
  next len hdec => exact ⟨len, (Option.some.inj h) ▸ hdec⟩
  next => cases h

theorem State.fetchIssue_placedSlot {s : State} {w : BitVec 128} {i : Instr} {len : Nat}
    (hpkg : s.pkgNum.toNat ≤ s.pkgTop.toNat) (hdec : decodeBytes true (bytesFrom (w.setWidth 256) 0) = .instr i len)
    (a : BitVec 4) : (s.placedSlot w a).fetchIssue 2 = .run i (if (s.placedSlot w a).me.missed
      then (s.placedSlot w a).modMe fun m => { m with missed := false } else s.placedSlot w a) := by
  have hcore := s.placedSlot_myCore w a
  have hme := s.placedSlot_me w a
  have hpc : (s.placedSlot w a).me.pc = s.placedPc := congrArg Ctx.pc hme
  have halign : s.placedPc.toNat % 32 = 0 := by
    have := s.placedPc_aligned
    omega
  have haddr : (s.placedSlot w a).checkAddr 0 s.placedPc = .ok (.global s.pkgNum (s.placedPc.toNat % 2 ^ 52)) :=
    State.checkAddr_extPc (s.placedSlot w a) 0 _ hpkg
  rw [State.fetchIssue_eq_tryIssue (hpc ▸ halign) (hpc ▸ s.isCoord_extPc _) (hpc ▸ haddr) (congrArg Core.wayBusy hcore)
    (congrArg (fun m => m.any Map.isBlock) (s.placedSlot_fetchMap w a)) (s.placedSlot_codeAt w a) hdec
    (congrArg Ctx.withdrawnAt hme)]
  exact State.tryIssue_eq_run i (hcore ▸ s.placedCore_ops w)

theorem State.step_withFetchWord {s : State} {n v : Nat} {i : Instr} (hpkg : s.pkgNum.toNat ≤ s.pkgTop.toNat)
    (hdec : decodeTableWord n v = some i) : ∃ a, step (s.withFetchWord n v) =
      let t := s.placedSlot (BitVec.ofNat 128 (v % 2 ^ n)) a
      exec i (if t.me.missed then t.modMe fun m => { m with missed := false } else t) := by
  obtain ⟨a, hplan⟩ := s.plan_withFetchWord n v
  obtain ⟨len, hlen⟩ := decodeTableWord_eq_some hdec
  exact ⟨a, by rw [step, hplan, State.fetchIssue_placedSlot hpkg hlen]⟩

/-- Settles O6: the slot of core 0 comes next, its context's fetch block holds the word, and nothing of it is outstanding. -/
theorem placedWordRuns : Obligations.PlacedWordRuns := by
  intro s n v i hcan _ hpkg hdec
  obtain ⟨a, hstep⟩ := State.step_withFetchWord hpkg hdec
  have hme := s.placedSlot_me (BitVec.ofNat 128 (v % 2 ^ n)) a
  have hregs : SameRegs (s.ctx 0 s.cx) (s.placedSlot (BitVec.ofNat 128 (v % 2 ^ n)) a).me := by
    rw [hme]
    exact ⟨rfl, rfl, rfl, rfl, rfl, rfl, rfl, rfl, rfl, rfl, rfl, rfl, rfl⟩
  refine ⟨_, hstep, ?_⟩
  split
  · refine ⟨rfl, rfl, rfl, ?_⟩
    exact (State.me_modMe (s := s.placedSlot _ a) _ (State.setCore_wf s 0 _ hcan.cores)).symm ▸ hregs
  · exact ⟨rfl, rfl, rfl, hregs⟩

end Sys2Proof.Machine
end
